-- ==== Sys2Proof/Word.lean ====
section
/-! DEFINITION. The words of the L9: bytes, 32-bit register words (R6), 64-bit quantities (R11),
the 48-bit cycle counters of the islands (R25), and the sparse maps in which State keeps every
memory and register file as plain data. -/

namespace Sys2Proof

/-- One byte. -/
abbrev Byte := BitVec 8

/-- One 32-bit register or lane (R6, R118). -/
abbrev Word := BitVec 32

/-- A 64-bit quantity (R11), for example a source timestamp (R26). -/
abbrev DWord := BitVec 64

/-- A command tag (R132): bits 31 to 29 ring, 28 to 24 program slot, 23 to 0 command index. -/
abbrev Tag := BitVec 32

/-- A 48-bit island cycle counter (R25). -/
abbrev Count48 := BitVec 48

/-- Memory or registers as plain data: addresses strictly rising, no entry equal to what an unlisted
address reads as. With width 8 this is a list of `Host.Cell`. The operations are in Machine/Sparse.lean. -/
abbrev SparseMap (w : Nat) := List (Nat × BitVec w)

end Sys2Proof
end

