-- ==== Sys2Proof/Syntax/Operand.lean ====
section
/-! DEFINITION. The operand types of the commands in Syntax.lean: designations of units (R3), operand
forms of the command classes (R62, R93, R111, R152, R196), and the messages, frames and packets
that arrive from outside (R303, R328, R365). -/

namespace Sys2Proof

/-- Who writes or reads a register of the control space (R56, R311): an endpoint of a ring, the
application cores' internal endpoint, or the booth. -/
inductive Who where
  | ep (ring endpoint : Fin 8)
  | internal
  | booth
  deriving DecidableEq, Repr

/-- A unit that executes stream commands (R107, R109, R111): an engine queue of a core (R104), with the core mask of the
ringmaster's push that brings the command (R109), a core's access or execute sequencer, or a ring's ringmaster. -/
inductive SeqUnit where
  | queue (core : Fin 16) (q : Fin 5) (mask : BitVec 16)
  | access (core : Fin 16)
  | execute (core : Fin 16)
  | ringmaster (ring : Fin 8)
  deriving DecidableEq, Repr

/-- A flag operand (R124, R125). `on` is the core mask of a ringmaster's SET or CLEAR, or the one core of
its WAIT or SKIP; a core's own units act on their own core and ignore it. -/
inductive FlagRef where
  | core (n : Fin 64) (on : BitVec 16)
  | ring (n : Fin 256)
  deriving DecidableEq, Repr

/-- What every command in an engine queue carries: its core, its tag (R132), its gap (R105), and the core mask of the
ringmaster's push that brings it (R109): the push reaches `core` and every core of `mask` at once, and each of them executes
its own copy. In a paired-stream ring the mask says nothing. -/
structure Eng where
  core : Fin 16
  tag  : Tag
  gap  : Byte
  mask : BitVec 16 := 0
  deriving DecidableEq, Repr

/-- The operand formats of the array (R60, R81). -/
inductive ArrFmt where
  | code4 | code8 | int8 | e4m3 | e5m2 | fp16 | bf16
  deriving DecidableEq, Repr

/-- One side of a STEP (R60): a line, a half of it for code4, or an even line and its successor. -/
structure ArrOperand where
  line : Nat
  half : Fin 2
  fmt  : ArrFmt
  deriving DecidableEq, Repr

/-- A drain order (R62, R72); `scale` none is "unit scale". -/
structure DrainOrder where
  set   : Fin 16
  scale : Option Nat
  entry : Fin 4
  deriving DecidableEq, Repr

/-- The count of a LOOP (R111): in the command, or bits 23 to 0 of a parameter word. -/
inductive LoopCount where
  | imm (n : Nat)
  | param (offset : Nat)
  deriving DecidableEq, Repr

/-- What a SKIP's span holds, command by command (R482). -/
inductive SpanItem where
  | loop | endloop | other
  deriving DecidableEq, Repr

/-- An entry of a data queue (R108). A token names its region as RESOURCE of CHECK 5 does (R123): 0 to 15 for A-buffer
regions, 16 to 31 for W-buffer regions, 32 to 35 for the drain-scale groups. -/
inductive DqEntry where
  | ready (region : Byte)
  | release (region : Byte)
  | value (v : Word)
  deriving DecidableEq, Repr

/-- The operand memories that carry valid marks (R59, R73). -/
inductive Buf where
  | w | a | ds
  deriving DecidableEq, Repr

/-- The operand memories that a DMA may fill (R111). -/
inductive FillBuf where
  | w | a | wexp | aexp | ds
  deriving DecidableEq, Repr

/-- What a command names for its completion: a data queue for a READY token of `region` (R108), in a ring under a ringmaster
a flag in the token's place (R109), and a flag of its own (R127, R152). -/
structure Completion where
  dq     : Option (Fin 8)
  region : Byte
  flag   : Option FlagRef
  ready  : Option FlagRef := none
  deriving DecidableEq, Repr

/-- What RELEASE names (R108, R111). -/
inductive ReleaseTo where
  | none
  | dq (q : Fin 8)
  | flag (f : FlagRef)
  deriving DecidableEq, Repr

/-- The format of vector lanes (R118, R481). FP16 occurs in VCONV, VLOAD, VSTORE and select only. -/
inductive VFmt where
  | f32 | bf16 | f16
  deriving DecidableEq, Repr

/-- A vector source (R111): registers, one lane broadcast, or lane r of a register for tile row r. -/
inductive VSrc where
  | reg (v : Fin 64)
  | lane (v : Fin 64) (lane : Fin 128)
  | rowb (v : Fin 64)
  deriving DecidableEq, Repr

/-- The elementwise operations of VOP (R111, R481). -/
inductive VOpKind where
  | add | sub | mul | min | max | lt | le | eq | ne | gt | ge | select
  deriving DecidableEq, Repr

/-- The functions of VFUNC (R111). -/
inductive VFn where
  | exp | log | recip | rsqrt | tanh | logistic
  deriving DecidableEq, Repr

/-- The reductions of VREDUCE (R111). -/
inductive VRed where
  | sum | min | max
  deriving DecidableEq, Repr

/-- Where a VLOAD reads (R111, R481). -/
inductive VLoadSrc where
  | rx (entry : Fin 4) (first : Nat) (release : Bool)
  | cm (addr : Nat) (fmt : VFmt)
  deriving DecidableEq, Repr

/-- Where a REQUANT reads (R93). -/
inductive QuantSrc where
  | rx (entry : Fin 4) (release : Bool)
  | reg (v : Fin 64)
  deriving DecidableEq, Repr

/-- A read or write pattern over core memory (R149, R152). -/
inductive Pattern where
  | contiguous
  | strided (elem stride inner outerStride : Nat)
  | transpose4 (pitch : Nat)
  | transpose8 (pitch : Nat)
  deriving DecidableEq, Repr

/-- One end of a DMA (R111, R167, R228, R339). A sequence end names context, stream, first token, byte
offset in the row and the bytes taken from each token's row. -/
inductive DmaEnd where
  | cm (addr : Nat) (pat : Pattern)
  | mwy (addr : Nat) (fallback : Option Nat)
  | dram (addr : Nat)
  | buf (b : FillBuf) (addr : Nat)
  | seq (ctx : Fin 4096) (stream token offset perToken : Nat)
  | remote (device : BitVec 8) (window : BitVec 8) (offset : Nat) (setFlag : Bool)
  deriving DecidableEq, Repr

/-- A DMA command (R111, R141, R183, R225, R228). `marks` are the regions (groups of 16 entries for the
drain-scale file) that it marks valid; `fmt` is the format of the blocks whose exponent entries the engine writes with
them: those of R88 for a 16-bit format, the stream exponent `seqExp` of R225 for a narrow one. -/
structure DmaCmd where
  src       : DmaEnd
  dst       : DmaEnd
  bytes     : Nat
  marks     : Option (Buf × BitVec 16)
  fmt       : Option ArrFmt
  seqExp    : Option Byte
  gen       : Option (BitVec 16)
  expectGen : Option (BitVec 16)
  feed      : Bool
  done      : Completion
  deriving DecidableEq, Repr

/-- Where an UNFOLD writes (R201, R206). -/
inductive UnfoldDest where
  | abuf (line : Nat) (half : Fin 2)
  | cm (dest pitch expDest : Nat) (countDest : Option Nat)
  deriving DecidableEq, Repr

/-- The coordinate source of a WARP (R196, R209). -/
inductive WarpSrc where
  | map (addr : Nat)
  | affine (a00 a01 a02 a10 a11 a12 : Word)
  deriving DecidableEq, Repr

/-- Extra destinations of a BILINEAR resample (R210). -/
structure Bilinear where
  planePitch : Nat
  weightDest : Nat
  deriving DecidableEq, Repr

/-- A crossing between islands (R23) that State holds entries for: into the concourse from a core, a ringmaster, the
Ethernet island, the front end, the sample pipeline, a trapeze port and the booth, from the concourse to the booth, to a
core and to a ringmaster, and from one trapeze port to another (R331). -/
inductive Crossing where
  | coreToConcourse (core : Fin 16)
  | concourseToCore (core : Fin 16)
  | ringmasterToConcourse (ring : Fin 8)
  | concourseToRingmaster (ring : Fin 8)
  | ethToConcourse
  | feToConcourse
  | smpToConcourse
  | trzToConcourse (port : Fin 4)
  | trzToTrz (source out : Fin 4) (vc : Fin 3)
  | boothToConcourse
  | concourseToBooth
  deriving DecidableEq, Repr

/-- The side of the chip a host message arrives on. -/
inductive Via where
  | port (p : Fin 4)
  | internal
  deriving DecidableEq, Repr

/-- A received Tirsa frame (R298 to R304): what the MAC reports of it (for a MACsec frame, whether its integrity check
passes, and its packet number), and its header and payload. TYPE is the command's own row. -/
structure Frame where
  via       : Via
  fcsOk     : Bool
  size      : Nat
  dst       : BitVec 48
  src       : BitVec 48
  vlan      : BitVec 12
  etherType : BitVec 16
  macsec    : Bool
  macsecOk  : Bool
  pn        : DWord
  version   : Byte
  ring      : Byte
  endpoint  : Byte
  msgId     : BitVec 16
  gen       : Byte
  flags     : Byte
  length    : BitVec 16
  status    : BitVec 16
  id        : Word
  timestamp : DWord
  offset    : Word
  crc       : Word
  payload   : List Byte
  deriving DecidableEq, Repr

/-- A trapeze packet as it arrives (R328): its header's fields beside KIND, which the command gives, its data flits, and how
many of the codewords that carried it the FEC corrected (R325, R330). -/
structure Packet where
  flits  : Byte
  seq    : BitVec 16
  ack    : BitVec 16
  credit : BitVec 16
  src    : Byte
  dst    : Byte
  window : Byte
  attr   : Byte
  txn    : BitVec 16
  bytes  : BitVec 16
  offset : DWord
  crc    : Word
  status : Byte
  reserved : BitVec 24
  data   : List Byte
  corrected : Nat
  deriving DecidableEq, Repr

/-- A frame of the recovery protocol on E2 (R365). -/
structure RecFrame where
  src     : BitVec 48
  version : Byte
  session : BitVec 16
  offset  : Word
  length  : BitVec 16
  status  : BitVec 16
  crc     : Word
  payload : List Byte
  deriving DecidableEq, Repr

/-- The rails with an on-die detector (R465). -/
inductive Rail where
  | aon | io18 | soc | sram | core
  deriving DecidableEq, Repr

/-- Who reads or writes a DRAM line (R181, R183, R187): a ring, the application cores, the booth, or a window
of a ring for a remote L9. -/
inductive DramOwner where
  | ring (r : Fin 8)
  | app
  | booth
  | window (w : Fin 256)
  deriving DecidableEq, Repr

/-- How DRAM training ends (R191, R192): the highest grade, not above the target, at which every subchannel passes, in
the codes of DDR_CONFIG and 0 for none; the channels of which a subchannel fails at DDR5-4800; whether stored results
passed their check. -/
structure DramTraining where
  grade  : Nat
  failed : BitVec 4
  reused : Bool
  deriving DecidableEq, Repr

/-- What a read of an ECC-protected word found (R140, R442). -/
inductive EccOutcome where
  | clean | corrected | uncorrectable
  deriving DecidableEq, Repr

/-- The measurements of one power loop (R395, R405, R407): powers in mW averaged over the ending period, a ring's being its
scaled share, the AVSBus voltage in mV, whether the AVSBus reads have failed twice in a row, and the other conditions of
R405. -/
structure PowerSample where
  coreMw     : Nat
  otherMw    : Nat
  ringMw     : Vector Nat 8
  measuredMv : Nat
  avsFailed  : Bool
  railFault  : Bool
  droopOver  : Bool
  deriving DecidableEq, Repr

/-- A CSI-2 packet header as the receiver hands it on (R257, R267): its virtual channel, whether its extension bits are
nonzero, and whether a bit of it was corrected. -/
structure CsiHead where
  vc    : Fin 4
  vcExt : Bool
  fixed : Bool
  deriving DecidableEq, Repr

/-- One decoded picture or coded access unit as the codec engines produce it (R273, R276): its bytes are the
engine's, which the standards define. -/
structure CodecUnit where
  bytes   : List Byte
  intra   : Bool
  damaged : Bool
  deriving DecidableEq, Repr

/-- How a line of image data ends: whether its CRC holds, and whether it found its line buffer full (R266, R267). -/
structure LineCheck where
  crcOk    : Bool
  overflow : Bool
  deriving DecidableEq, Repr

/-- What a decode engine finds of an access unit: whether the stream is within its limits, and whether its syntax holds
(R278). -/
structure UnitCheck where
  supported : Bool
  syntaxOk  : Bool
  deriving DecidableEq, Repr

/-- What an EAPOL frame brings about at the peer's key server: whether the SAK is live, and whether it is a new one
(R301). -/
structure MkaEffect where
  live   : Bool
  newSak : Bool
  deriving DecidableEq, Repr

/-- A trapeze packet that a port drops, with the FEC codewords of its arrival that were corrected, and those that could
not be (R325, R330, R344). -/
structure BadPacket where
  port          : Fin 4
  corrected     : Nat
  uncorrectable : Nat
  deriving DecidableEq, Repr

/-- The chroma sampling of a JPEG sample (R279): how many columns and rows a chroma value covers. -/
inductive ChromaSub where
  | s444
  | s422
  | s420
  deriving DecidableEq, Repr

/-- The planes of a decoded sample, chroma as sampled (R279, R290). -/
structure SamplePlanes where
  sub   : ChromaSub
  bytes : List Byte
  deriving DecidableEq, Repr

/-- The flash operations of R386, as their completion reports them. A read brings the cells that have changed since the
page was written (`wear`), and for each of the three reads that R373 allows the errors of that read alone (`noise`): the
number of a symbol of the page, symbol i of codeword k at 884 k + i, and its error mask (R371). -/
inductive FlashOp where
  | read (page : Nat) (area : Byte) (wear : List (Nat × BitVec 10)) (noise : Vector (List (Nat × BitVec 10)) 3)
  | program (page : Nat) (ok : Bool)
  | erase (block : Nat) (ok : Bool)
  deriving DecidableEq, Repr

end Sys2Proof
end

