-- ==== Sys2Proof/Syntax.lean ====
section
/-! DEFINITION. The commands of the block: one constructor for each row of spec/opcode_table.json, in the table's
order, with the row's operands. The binary encodings are private to Dolvar and Ryvavo (R136) and the table gives
no row any bits, so a command is this abstract syntax. A row that stands for an event carries what the event
brings from outside: a frame, a packet, a measurement. -/

namespace Sys2Proof

/-- The commands (spec/opcode_table.json). -/
inductive Instr where
  -- The dot-product array and the streams (R62, R111)
  | step (e : Eng) (w a : ArrOperand) (set : Fin 16) (overwrite : Bool) (drain : Option DrainOrder)
  | drain (e : Eng) (d : DrainOrder)
  | accLoad (e : Eng) (set : Fin 16)
  | loop (u : SeqUnit) (tag : Tag) (count : LoopCount)
  | endloop (u : SeqUnit) (tag : Tag)
  | skip (u : SeqUnit) (tag : Tag) (flag : FlagRef) (whenSet : Bool) (span : List SpanItem)
  | push (u : SeqUnit) (tag : Tag) (dq : Fin 8) (entry : DqEntry)
  | pop (u : SeqUnit) (tag : Tag) (dq : Fin 8) (expect : Option DqEntry)
  | wait (u : SeqUnit) (tag : Tag) (gap : Byte) (flag : FlagRef) (consume : Bool)
  | set (u : SeqUnit) (tag : Tag) (gap : Byte) (flag : FlagRef)
  | clear (u : SeqUnit) (tag : Tag) (gap : Byte) (flag : FlagRef)
  | idle (e : Eng) (vector : Bool) (n : Nat)
  | mark (u : SeqUnit) (tag : Tag) (gap : Byte) (operand : Word)
  | endStream (u : SeqUnit) (tag : Tag) (gap : Byte)
  | release (e : Eng) (vector : Bool) (buf : Buf) (region : Fin 16) (sink : ReleaseTo)
  | hint (e : Eng) (cls : Fin 8) (lead duration : Nat)
  -- The vector engine and the quantiser (R93, R111)
  | vload (e : Eng) (dst : Fin 64) (L : Nat) (src : VLoadSrc)
  | vstore (e : Eng) (src : Fin 64) (L : Nat) (addr : Nat) (fmt : VFmt) (mask : BitVec 128) (done : Completion)
  | vop (e : Eng) (op : VOpKind) (dst : Fin 64) (L : Nat) (a b c : VSrc) (fmt : VFmt)
  | vfma (e : Eng) (dst : Fin 64) (L : Nat) (a b c : VSrc) (fmt : VFmt)
  | vconv (e : Eng) (dst : Fin 64) (L : Nat) (a : VSrc) (src dstFmt : VFmt)
  | vfunc (e : Eng) (fn : VFn) (dst : Fin 64) (L : Nat) (a : VSrc) (fmt : VFmt)
  | vreduce (e : Eng) (op : VRed) (dst : Fin 64) (L : Nat) (a : Fin 64) (segments : Bool) (fmt : VFmt)
  | vlatch (e : Eng) (k : Fin 64)
  | requant (e : Eng) (src : QuantSrc) (record codes expmap : Nat) (column : Bool)
  | scaleClose (e : Eng) (record : Nat) (ringMax : Option Word)
  | scaleSet (e : Eng) (record : Nat) (exp : Byte)
  -- The access side (R111, R152, R196)
  | dma (e : Eng) (cmd : DmaCmd)
  | dmaComplete (core : Fin 16) (tag : Tag)
  | unfold (e : Eng) (geom p0 gw k0 nl : Nat) (dest : UnfoldDest) (marks : BitVec 16) (done : Completion)
  | pool (e : Eng) (src dst : Nat) (isMin : Bool) (row0 rows : Nat) (done : Completion)
  | resize (e : Eng) (src dst : Nat) (bilinear : Option Bilinear) (corners : Bool) (row0 rows : Nat) (done : Completion)
  | crop (e : Eng) (src dst : Nat) (y0 x0 : Int) (row0 rows : Nat) (done : Completion)
  | warp (e : Eng) (src dst : Nat) (bilinear : Option Bilinear) (coords : WarpSrc) (row0 rows : Nat) (done : Completion)
  | unfoldComplete (core : Fin 16)
  | stride (e : Eng) (srcAddr : Nat) (src : Pattern) (dstAddr : Nat) (dst : Pattern) (count : Nat) (done : Completion)
  | transpose (e : Eng) (srcAddr : Nat) (src : Pattern) (dstAddr dstPitch : Nat) (done : Completion)
  | fill (e : Eng) (dst len : Nat) (pattern : Word) (done : Completion)
  | copy (e : Eng) (src dst len : Nat) (done : Completion)
  | storeComplete (core : Fin 16)
  | gatherFlushIdle (core : Fin 16) (line : Nat)
  | crossingDeliver (x : Crossing)
  | stallFault (ring : Fin 8) (core : Fin 16)
  -- Invocations and rings (R49, R114)
  | invocationStart (ring : Fin 8)
  | invocationEnd (ring : Fin 8)
  | ringStart (ring : Fin 8) (who : Who)
  | ringLoadComplete (ring : Fin 8)
  | ringPark (ring : Fin 8) (who : Who)
  | parkComplete (ring : Fin 8)
  | parkTimeout (ring : Fin 8)
  | ringResume (ring : Fin 8) (who : Who)
  | ringStop (ring : Fin 8) (who : Who)
  | stopComplete (ring : Fin 8)
  | flagWriteSet (ring : Fin 8) (index : Byte) (who : Who)
  | flagWriteClear (ring : Fin 8) (index : Byte) (who : Who)
  -- Sequence contexts (R223, R231, R235)
  | ctxOpen (ring : Fin 8) (ctx : Fin 4096) (who : Who)
  | ctxClose (ring : Fin 8) (ctx : Fin 4096) (who : Who)
  | ctxPrefetch (ring : Fin 8) (ctx : Fin 4096) (who : Who)
  | ctxEvict (ring : Fin 8) (ctx : Fin 4096) (who : Who)
  | seqAdmit (ring : Fin 8)
  | swapOutPageDone (ring : Fin 8) (ctx : Fin 4096) (page : Nat)
  | swapInPageDone (ring : Fin 8) (ctx : Fin 4096) (page : Nat)
  | pageAck (f : Frame)
  | pageNak (f : Frame)
  | pageData (f : Frame)
  | pageAnswerTimeout (ring : Fin 8) (ctx : Fin 4096) (page : Nat)
  -- The sensor front end (R262, R267)
  | csiFrameStart (rx : Fin 16) (head : CsiHead) (frame : BitVec 16)
  | csiLongPacket (rx : Fin 16) (vc : Fin 4) (vcExt fixed : Bool) (dt : Byte) (payload : List Byte) (check : LineCheck)
  | csiEmbeddedData (rx : Fin 16) (head : CsiHead) (bytes : List Byte) (crcOk : Bool)
  | csiFrameEnd (rx : Fin 16) (head : CsiHead)
  | csiSotError (rx : Fin 16)
  | frameEndTimeout (ctx : Fin 64)
  | tsWaitExpiry (ctx : Fin 64)
  | frameDeliver (ctx : Fin 64)
  | streamEnable (ctx : Fin 64) (who : Who)
  | streamDisable (ctx : Fin 64) (who : Who)
  | streamDisableDone (ctx : Fin 64)
  | streamCommit (ctx : Fin 64) (who : Who)
  | cdcOpen (session : Fin 16) (who : Who)
  | cdcClose (session : Fin 16) (who : Who)
  | encodeUnitDone (session : Fin 16) (au : CodecUnit)
  | decodeUnit (session : Fin 16) (picture : List Byte) (check : UnitCheck) (shown : List Nat)
  -- The sample pipeline (R283, R285)
  | smpOpen (chan : Fin 16) (who : Who)
  | smpClose (chan : Fin 16) (who : Who)
  | sampleData (f : Frame)
  | sampleTake (jpeg : Bool) (chan : Fin 16)
  | sampleDeliver (chan : Fin 16) (cycles : Nat) (planes : SamplePlanes)
  | sampleLate (chan : Fin 16)
  | sampleChunkTimeout (chan : Fin 16) (sampleId : Word)
  -- Tirsa (R305, R309, R313)
  | regRead (f : Frame)
  | regWrite (f : Frame)
  | registerWrite (who : Who) (addr value : Word)
  | invoke (f : Frame)
  | paramWrite (f : Frame)
  | memRead (f : Frame)
  | streamData (f : Frame)
  | frameTime (f : Frame)
  | resultRead (f : Frame)
  | resultRelease (f : Frame)
  | result (ring : Fin 8) (stream : Fin 16)
  | resultNotice (ring : Fin 8) (stream : Fin 16)
  | rstreamEnable (ring : Fin 8) (stream : Fin 16) (who : Who)
  | rstreamDisable (ring : Fin 8) (stream : Fin 16) (who : Who)
  | reassemblyTimeout (ring : Fin 8) (endpoint : Fin 8) (msgId : BitVec 16)
  | mkaFrame (f : Frame) (effect : MkaEffect)
  | pauseFrame (port : Fin 4) (quanta : BitVec 16)
  | intInboundPoll
  | quoteRequest (f : Frame)
  | keyWrap (f : Frame)
  -- Trapeze links (R328, R333, R338)
  | trapezeWrite (port : Fin 4) (p : Packet)
  | trapezeRead (port : Fin 4) (p : Packet)
  | readData (port : Fin 4) (p : Packet)
  | writeAck (port : Fin 4) (p : Packet)
  | link (port : Fin 4) (p : Packet)
  | replayTimeout (port : Fin 4)
  | linkAckTimer (port : Fin 4)
  | portTrained (port : Fin 4) (ok : Bool) (corrected uncorrectable : Nat)
  | hello (port : Fin 4) (p : Packet)
  | numberingStart
  | number (port : Fin 4) (p : Packet)
  | numbered (port : Fin 4) (p : Packet)
  | numberedTimeout (port : Fin 4)
  | system (port : Fin 4) (p : Packet)
  | detach (port : Fin 4) (p : Packet)
  | renumber (port : Fin 4) (p : Packet)
  | rediscover (who : Who)
  | quoteRelay (port : Fin 4) (p : Packet)
  | quoteRelayTimeout (device : Byte)
  | windowOpen (w : Fin 256) (who : Who)
  | windowClose (w : Fin 256) (who : Who)
  | windowCloseDone (w : Fin 256)
  | remoteTimeout (txn : BitVec 16)
  -- Reset and boot (R350, R360, R471)
  | poresetAssert
  | poresetDeassert
  | sysresetAssert
  | sysresetDeassert
  | boothBringUp (badColumns : Vector (List Nat) 16) (confined : BitVec 16) (slicesBad : BitVec 8) (dram : DramTraining)
  | safetyNetExpiry
  | confirm (who : Who)
  | restart (who : Who)
  | install (who : Who)
  | installComplete (readBackOk : Bool)
  | romRead (requester : DWord)
  | announce
  | begin (f : RecFrame)
  | data (f : RecFrame)
  | endRecoveryImage (f : RecFrame)
  | recoverySessionTimeout
  -- The boot flash (R373, R382, R385)
  | writeRecord (who : Who)
  | flashOpDone (op : FlashOp)
  | flashScan
  | logPageProgram
  | flashWriteResume
  | flashFloorCutoff
  | flashHoldTimeout
  -- Booth power and thermal control (R389 to R415)
  | powerLoop (m : PowerSample)
  | thermalLoop (sensors : Vector Int 32) (telemetry : Bool)
  | hintHandler
  | hintPhaseEnd (core : Fin 16)
  | voltageSettled
  | droopDetect (core : Fin 16)
  | droopRecover (core : Fin 16)
  | currentLimit
  | thermalEmergency (sensor : Fin 32) (temp : Int)
  | thermalRecover (temps : Vector Int 32)
  | thermalCritical (sensor : Fin 32) (temp : Int)
  | lockstepMismatch (within60s : Bool)
  | boothReloadDone (m : PowerSample)
  | ageingSample (codes : List (BitVec 6)) (steadyPoint : Option (Fin 8)) (high24h : Bool)
  | trimWrite (k : Fin 8)
  | updateLoad (who : Who)
  | updateLoadDone
  | updateActivate (who : Who)
  | updateDiscard (who : Who)
  | boothSwitch (adopted : Bool)
  | switchReadyTimeout
  | activateTimeout
  -- DRAM and the midway's scrub (R166, R183, R184, R193)
  | dramRead (owner : DramOwner) (tag : Tag) (addr : Nat) (expectGen : Option (BitVec 16)) (flips : List (Nat × Byte))
  | dramWrite (owner : DramOwner) (tag : Tag) (addr : Nat) (bytes : List Byte) (poisoned : Bool) (gen : Option (BitVec 16))
  | dramRefresh (sub : Fin 8)
  | dramTempPoll (hot : Bool)
  | ecsCollect (sub : Fin 8) (count : Nat)
  | dramScrub (addr : Nat) (flips : List (Nat × Byte)) (lastOfPass : Bool)
  | mwyScrub (slice : Fin 8) (word : Fin 1048576) (found : EccOutcome)
  -- Security (R419, R426, R436, R438, R474)
  | installToken (who : Who)
  | endDebug (arg : Fin 16) (who : Who)
  | deploy (who : Who)
  | returnDevice (who : Who)
  | scrap (who : Who)
  | secRequestTimeout
  | standby (who : Who)
  | deepStandby (who : Who)
  | keyGenDone
  -- Pins and the TAP (R462, R465, R470, R475)
  | wakeNAssert
  | pwrWarnAssert
  | pwrWarnDeassert
  | railDetectFall (rail : Rail)
  | railDetectClear (rail : Rail)
  | refclkWindow (edges : Nat)
  | trstAssert
  | extest
  | idcode
  | samplePreload
  | highz
  | clamp
  | extestPulse
  | extestTrain
  | privateDebug (code : Byte)
  | bypass
  -- Invasive debug, faults and trace (R447, R452, R453, R455)
  | dbgHalt (ring : Fin 8) (who : Who)
  | dbgStep (ring : Fin 8) (core : Option (Fin 16)) (queues : BitVec 5) (who : Who)
  | dbgResume (ring : Fin 8) (who : Who)
  | dbgAccRead (ring : Fin 8) (who : Who)
  | dbgAccWrite (ring : Fin 8) (value : Word) (who : Who)
  | faultPop (ring : Option (Fin 8)) (seq : Word) (who : Who)
  | traceStreamTimeout (core : Fin 16)
  | syncMarker (core : Fin 16)
  -- Rows that the table lists last
  | ethFrameDrop (f : Frame) (type : Byte) (full : Bool)
  | pauseTimeExpiry (port : Fin 4)
  | mkaHelloTime (ring : Fin 8) (endpoint : Fin 8)
  | mkaLifeTimeExpiry (ring : Fin 8) (endpoint : Fin 8)
  | ethPortLink (port : Fin 4) (up : Bool) (quality : Fin 8)
  | csiEccBad (rx : Fin 16)
  | smpDecode (chan : Fin 16) (reason : Byte)
  | trapezeBadPacket (b : BadPacket)
  | currentLimitClear
  | vddIo18WriteInhibit
  | vddAonStoreHold (below : Bool)
  | intOutboundReadAdvance (read : Word)
  deriving DecidableEq, Repr

end Sys2Proof
end

