-- ==== Sys2Proof/Decode.lean ====
section
/-! DEFINITION. What a word of the opcode table spells. The manual gives no command an encoding (R136), and
spec/opcode_table.json gives no row any bits, so no word spells a command. -/

namespace Sys2Proof

/-- The command that the low `nbits` bits of `w` spell by the table's bits: none, as the table gives none (R136). -/
def decodeTableWord (_nbits _w : Nat) : Option Instr := none

end Sys2Proof
end

