-- ==== Sys2Proof/Machine/Forms.lean ====
section
/-! DEFINITION. The forms of the commands: which operands make a command of a class at all (R60, R62, R93, R107, R111,
R134, R149, R196, R286, R481). A command that is no form of its class does not exist, and its meaning refuses it as
ill-formed (log 10). Addresses, lines and alignments are no matter of form: R57 judges them when the command acts. -/

namespace Sys2Proof.Machine

/-- `L` registers from `v` on lie within v0 to v63, and L runs from 1 to 8 (R111, R118). -/
def regSpan (v : Fin 64) (L : Nat) : Bool := decide (1 ≤ L) && decide (L ≤ 8) && decide (v.val + L ≤ 64)

/-- A vector source reads registers that exist (R111). -/
def vsrcOk (L : Nat) : VSrc → Bool
  | .reg v => regSpan v L
  | .lane _ _ => true
  | .rowb _ => true

/-- VOP, VFMA, VFUNC and VREDUCE compute in FP32 and BF16 only (R102). -/
def arithFmt : VFmt → Bool
  | .f32 => true
  | .bf16 => true
  | .f16 => false

/-- The unit is a sequencer or a ringmaster (R111). -/
def isStream : SeqUnit → Bool
  | .queue _ _ _ => false
  | .access _ => true
  | .execute _ => true
  | .ringmaster _ => true

/-- The unit is a queue or a ringmaster (R111: SET and CLEAR). -/
def setsFlags : SeqUnit → Bool
  | .queue _ _ _ => true
  | .access _ => false
  | .execute _ => false
  | .ringmaster _ => true

/-- The unit is an engine queue (R111: MARK). -/
def isQueue : SeqUnit → Bool
  | .queue _ _ _ => true
  | .access _ => false
  | .execute _ => false
  | .ringmaster _ => false

/-- A WAIT or SKIP names one core where it names a core flag from a ringmaster (R125). -/
def oneCore (u : SeqUnit) : FlagRef → Bool
  | .ring _ => true
  | .core _ on => match u with
    | .ringmaster _ => ((List.range 16).filter fun i => on.getLsbD i).length == 1
    | .queue _ _ _ => true
    | .access _ => true
    | .execute _ => true

/-- The data queues that a sequencer pushes into: DQ0 to DQ3 for the access sequencer, DQ4 to DQ7 for the other
(R108). -/
def pushesInto (u : SeqUnit) (dq : Fin 8) : Bool :=
  match u with
  | .access _ => decide (dq.val < 4)
  | .execute _ => decide (4 ≤ dq.val)
  | .queue _ _ _ => false
  | .ringmaster _ => false

/-- The data queues that a sequencer pops from (R108). -/
def popsFrom (u : SeqUnit) (dq : Fin 8) : Bool :=
  match u with
  | .access _ => decide (4 ≤ dq.val)
  | .execute _ => decide (dq.val < 4)
  | .queue _ _ _ => false
  | .ringmaster _ => false

/-- An element size of R149. -/
def elemSize (e : Nat) : Bool := [1, 2, 4, 8, 16, 32, 64].contains e

/-- A read pattern is one of R149: strided with a stride that is a multiple of the element size from e to 8,388,608,
or a transposed block whose row pitch is a multiple of 16 B. -/
def readPattern : Pattern → Bool
  | .contiguous => true
  | .strided e s inner _ => elemSize e && s % e == 0 && decide (e ≤ s) && decide (s ≤ 8388608) && decide (1 ≤ inner)
  | .transpose4 p => p % 16 == 0 && decide (16 ≤ p)
  | .transpose8 p => p % 16 == 0 && decide (16 ≤ p)

/-- A pattern that elements are written to (R152: STRIDE). -/
def elementPattern : Pattern → Bool
  | .contiguous => true
  | .strided e s inner _ => elemSize e && s % e == 0 && decide (e ≤ s) && decide (s ≤ 8388608) && decide (1 ≤ inner)
  | .transpose4 _ => false
  | .transpose8 _ => false

/-- An end that a DMA reads from: any but the operand memories, which no engine but the array reads (R143). -/
def dmaSource : DmaEnd → Bool
  | .cm _ p => readPattern p
  | .mwy _ _ => true
  | .dram _ => true
  | .buf _ _ => false
  | .seq _ _ _ _ n => decide (1 ≤ n)
  | .remote _ _ _ _ => true

/-- An end that a DMA writes to; the patterns of R149 are read forms. -/
def dmaDest : DmaEnd → Bool
  | .cm _ p => p == .contiguous
  | .mwy _ _ => true
  | .dram _ => true
  | .buf _ _ => true
  | .seq _ _ _ _ n => decide (1 ≤ n)
  | .remote _ _ _ _ => true

/-- The end is a remote window (R339). -/
def isRemote : DmaEnd → Bool
  | .remote _ _ _ _ => true
  | .cm _ _ => false
  | .mwy _ _ => false
  | .dram _ => false
  | .buf _ _ => false
  | .seq _ _ _ _ _ => false

/-- A transfer's length suits the read form: whole elements of a strided pattern, one transposed block (R149). -/
def patternBytes (n : Nat) : DmaEnd → Bool
  | .cm _ (.strided e _ _ _) => n % e == 0
  | .cm _ (.transpose4 _) => n == 512
  | .cm _ (.transpose8 _) => n == 256
  | .cm _ .contiguous => true
  | .seq _ _ _ _ per => n % per == 0
  | .mwy _ _ => true
  | .dram _ => true
  | .buf _ _ => true
  | .remote _ _ _ _ => true

/-- The destination is the A-buffer or the W-buffer. -/
def fillsBlocks : DmaEnd → Bool
  | .buf .w _ => true
  | .buf .a _ => true
  | _ => false

/-- The end is a sequence address. -/
def isSeq : DmaEnd → Bool
  | .seq _ _ _ _ _ => true
  | _ => false

/-- The exponents that a DMA writes with the blocks it fills: those of R88 with 16-bit blocks, the stream exponent of a
sequence page with narrow ones (R88, R143, R225). -/
def exponentForm (c : DmaCmd) : Bool :=
  match c.fmt, c.seqExp with
  | none, none => true
  | some .fp16, none => fillsBlocks c.dst
  | some .bf16, none => fillsBlocks c.dst
  | some .code4, some _ => fillsBlocks c.dst && isSeq c.src
  | some .code8, some _ => fillsBlocks c.dst && isSeq c.src
  | some .int8, some _ => fillsBlocks c.dst && isSeq c.src
  | some .e4m3, some _ => fillsBlocks c.dst && isSeq c.src
  | some .e5m2, some _ => fillsBlocks c.dst && isSeq c.src
  | _, _ => false

/-- The marks of a fill name regions that exist, of a buffer that it fills (R59, R73, R141). -/
def marksForm (c : DmaCmd) : Bool :=
  match c.marks with
  | none => true
  | some (b, m) => (match c.dst with | .buf _ _ => true | _ => false) && (b != .ds || decide (m.toNat < 16))

/-- A DMA command exists (R111, R339): it reads and writes ends that exist, at most one of them remote and then for at
most 16,777,216 B. -/
def dmaForm (c : DmaCmd) : Bool :=
  dmaSource c.src && dmaDest c.dst && patternBytes c.bytes c.src && patternBytes c.bytes c.dst && exponentForm c &&
    marksForm c && !(isRemote c.src && isRemote c.dst) && (!(isRemote c.src || isRemote c.dst) || decide (c.bytes ≤ 16777216))

/-- The command is a form of its class. -/
def formOk : Instr → Bool
  | .loop u _ (.imm n) => isStream u && decide (n ≤ 16777215)
  | .loop u _ (.param off) => isStream u && decide (off + 4 ≤ 256)
  | .endloop u _ => isStream u
  | .wait u _ _ f _ => oneCore u f
  | .skip u _ f _ span => isStream u && oneCore u f && decide (1 ≤ span.length) && decide (span.length ≤ 255)
  | .push u _ dq _ => pushesInto u dq
  | .pop u _ dq _ => popsFrom u dq
  | .set u _ _ _ => setsFlags u
  | .clear u _ _ _ => setsFlags u
  | .mark u _ _ _ => isQueue u
  | .idle _ _ n => decide (1 ≤ n) && decide (n ≤ 65536)
  | .hint _ _ lead dur => decide (lead ≤ 1048575) && decide (1 ≤ dur) && decide (dur ≤ 65535)
  | .vload _ dst L (.rx _ first _) => regSpan dst L && decide (first + L ≤ 8)
  | .vload _ dst L (.cm _ _) => regSpan dst L
  | .vstore _ src L _ _ _ _ => regSpan src L
  | .vop _ op dst L a b c fmt =>
      regSpan dst L && vsrcOk L a && vsrcOk L b && (op != .select || vsrcOk L c) && (op == .select || arithFmt fmt)
  | .vfma _ dst L a b c fmt => regSpan dst L && vsrcOk L a && vsrcOk L b && vsrcOk L c && arithFmt fmt
  | .vconv _ dst L a _ _ => regSpan dst L && vsrcOk L a
  | .vfunc _ _ dst L a fmt => regSpan dst L && vsrcOk L a && arithFmt fmt
  | .vreduce _ _ _ L a _ fmt => regSpan a L && arithFmt fmt
  | .vlatch _ k => decide (k.val + 8 ≤ 64)
  | .requant _ (.reg v) _ _ _ _ => decide (v.val + 8 ≤ 64)
  | .dma _ c => dmaForm c
  | .unfold _ _ _ gw _ _ dest marks _ => decide (1 ≤ gw) && decide (gw ≤ 32) && (match dest with
      | .abuf _ _ => true
      | .cm _ _ _ _ => marks == 0)
  | .crop _ _ _ y0 x0 _ _ _ =>
      decide (-32768 ≤ y0) && decide (y0 ≤ 32767) && decide (-32768 ≤ x0) && decide (x0 ≤ 32767)
  | .stride _ _ sp _ dp _ _ => elementPattern sp && elementPattern dp
  | .transpose _ _ sp _ _ _ => (match sp with
      | .transpose4 p => p % 16 == 0 && decide (16 ≤ p)
      | .transpose8 p => p % 16 == 0 && decide (16 ≤ p)
      | .contiguous => false
      | .strided _ _ _ _ => false)
  | .smpDecode _ reason => decide (10 ≤ reason.toNat) && decide (reason.toNat ≤ 12)
  | _ => true

end Sys2Proof.Machine
end

