-- ==== Sys2Proof/Machine/Sparse.lean ====
section
/-! DEFINITION. Sparse maps: memory and registers as lists of address and value, addresses strictly rising, no entry
equal to what an unlisted address reads as (`d`). -/

namespace Sys2Proof.Machine

/-- The value at an address; an unlisted one reads as `d`. -/
def smGet {w : Nat} (d : BitVec w) : SparseMap w → Nat → BitVec w
  | [], _ => d
  | (k, v) :: t, a => if k = a then v else smGet d t a

/-- The canonical form from an address on. -/
def smWfFrom {w : Nat} (d : BitVec w) : Nat → SparseMap w → Bool
  | _, [] => true
  | lo, (k, v) :: t => decide (lo ≤ k) && v != d && smWfFrom d (k + 1) t

/-- The canonical form. -/
def smWf {w : Nat} (d : BitVec w) (m : SparseMap w) : Bool := smWfFrom d 0 m

/-- `n` values from an address on. -/
def smRead {w : Nat} (d : BitVec w) (m : SparseMap w) (a : Nat) : Nat → List (BitVec w)
  | 0 => []
  | n + 1 => smGet d m a :: smRead d m (a + 1) n

/-- The entries of a list of values from an address on. -/
def smRun {w : Nat} (d : BitVec w) : Nat → List (BitVec w) → SparseMap w
  | _, [] => []
  | a, v :: t => if v = d then smRun d (a + 1) t else (a, v) :: smRun d (a + 1) t

/-- The map with a list of values written from an address on. -/
def smWrite {w : Nat} (d : BitVec w) (m : SparseMap w) (a : Nat) (l : List (BitVec w)) : SparseMap w :=
  m.filter (fun e => decide (e.1 < a)) ++ smRun d a l ++ m.filter (fun e => decide (a + l.length ≤ e.1))

/-- The map with one value written: the entry goes when the value is what an unlisted address reads as. -/
def smSet {w : Nat} (d : BitVec w) (m : SparseMap w) (a : Nat) (v : BitVec w) : SparseMap w := smWrite d m a [v]

/-- The map with every address from `lo` up to, not including, `hi` at the default. -/
def smClear {w : Nat} (m : SparseMap w) (lo hi : Nat) : SparseMap w :=
  m.filter fun e => decide (e.1 < lo) || decide (hi ≤ e.1)

/-- The map with one value written at `n` addresses from `a` on. -/
def smFill {w : Nat} (d : BitVec w) (m : SparseMap w) (a : Nat) (v : BitVec w) (n : Nat) : SparseMap w :=
  smWrite d m a (List.replicate n v)

end Sys2Proof.Machine
end

