-- ==== Sys2Proof/Machine/Regs.lean ====
section
/-! DEFINITION. The control space (R5, R310, R311): one constructor for each register and each descriptor or
parameter word of the manual, its address, the register that an address holds, and which of its bits are stored by a
write (RW) or cleared by a written 1 (W1C) (R7). Written out from the register tables of spec/ in the order of R311.
An argument `k` is the register's own index, counted from 0, or the word of a 64-bit quantity or of a descriptor. -/

namespace Sys2Proof.Machine

/-- A word of the control space. -/
inductive Reg where
  -- block 0, window 1: 16 instances at a stride of 0x1000
  | coreColwidth (c : Fin 16)
  | coreArrayStatus (c : Fin 16)
  | coreArrayMacSlots (c : Fin 16) (k : Fin 2)
  | coreArrayHoldOperand (c : Fin 16)
  | coreArrayHoldDrain (c : Fin 16)
  | coreArrayPoisonTag (c : Fin 16)
  | coreQuantStatus (c : Fin 16)
  | coreQuantSaturated (c : Fin 16)
  | coreQuantRedone (c : Fin 16)
  | coreQuantEventTag (c : Fin 16)
  | coreSeqStatus (c : Fin 16)
  | coreHeadTag (c : Fin 16) (k : Fin 5)
  | coreVecHold (c : Fin 16)
  | coreFlags (c : Fin 16) (k : Fin 2)
  | coreMemStatus (c : Fin 16)
  | coreMemFrozen (c : Fin 16)
  | coreMemWaitMax (c : Fin 16) (k : Fin 5)
  | coreUnfoldStatus (c : Fin 16)
  | coreUnfoldPadBlocks (c : Fin 16)
  | coreUnfoldReadLines (c : Fin 16)
  | coreUnfoldErrTag (c : Fin 16)
  -- block 1, window 1: 8 instances at a stride of 0x1000
  | ringManifestStatus (r : Fin 8)
  | ringResources (r : Fin 8)
  | ringControl (r : Fin 8)
  | ringEvent (r : Fin 8)
  | ringSeqStatus (r : Fin 8)
  | ringFlags (r : Fin 8) (k : Fin 8)
  | ringFlagWrite (r : Fin 8)
  | ringInvokeDropped (r : Fin 8)
  | ringHint (r : Fin 8)
  | ringMwyRedirect (r : Fin 8)
  | ringCtxCtrl (r : Fin 8)
  | ringCtxPool (r : Fin 8) (k : Fin 8)
  | ringCtxPoolMwy (r : Fin 8)
  | ringCtxFree (r : Fin 8)
  | ringCtxFreeMwy (r : Fin 8)
  | ringCtxEvent (r : Fin 8)
  | ringCtxPagesOut (r : Fin 8)
  | ringCtxPagesIn (r : Fin 8)
  -- block 1, window 2: 4096 instances at a stride of 0x80
  | ringCtxDesc (x : Fin 4096) (k : Fin 16)
  | ringCtxStatus (x : Fin 4096)
  -- block 2, window 1: 8 instances at a stride of 0x1000
  | mwySliceStatus (m : Fin 8)
  | mwyWaitMax (m : Fin 8) (k : Fin 4)
  -- block 4, window 0
  | ddrConfig
  | ddrStatus
  | ddrScrubCtrl
  | ddrErrAddr (k : Fin 2)
  | ddrErrInfo
  -- block 4, window 1: 8 instances at a stride of 0x1000
  | ddrErrCount0 (u : Fin 8)
  | ddrErrCount1 (u : Fin 8)
  | ddrEcsCount (u : Fin 8)
  | ddrWaitMax (u : Fin 8) (k : Fin 4)
  -- block 5, window 1: 16 instances at a stride of 0x1000
  | feRxStatus (x : Fin 16)
  | feRxDropped (x : Fin 16)
  -- block 5, window 2: 64 instances at a stride of 0x4000
  | feStreamDesc (x : Fin 64) (k : Fin 16)
  | feStreamCtrl (x : Fin 64)
  | feStreamStatus (x : Fin 64)
  | feStreamDropped (x : Fin 64)
  | feStreamTsLate (x : Fin 64)
  | feIspParam (x : Fin 64) (k : Fin 2048)
  -- block 6, window 1: 16 instances at a stride of 0x1000
  | cdcSessionDesc (x : Fin 16) (k : Fin 8)
  | cdcSessionCtrl (x : Fin 16)
  | cdcSessionStatus (x : Fin 16)
  | cdcSessionWptr (x : Fin 16)
  | cdcSessionRptr (x : Fin 16)
  | cdcEncSkipped (x : Fin 16)
  -- block 7, window 1: 16 instances at a stride of 0x1000
  | smpChanDesc (x : Fin 16) (k : Fin 16)
  | smpChanCtrl (x : Fin 16)
  | smpChanStatus (x : Fin 16)
  | smpChanCost (x : Fin 16)
  | smpChanLastBudget (x : Fin 16)
  | smpChanDelivered (x : Fin 16)
  | smpChanRefused (x : Fin 16)
  | smpChanLate (x : Fin 16)
  -- block 8, window 1: 4 instances at a stride of 0x1000
  | ethPortStatus (p : Fin 4)
  | ethPortCount (p : Fin 4) (k : Fin 5)
  -- block 9, window 0
  | trsEthertype
  | trsIntBase
  -- block 9, window 1: 64 instances at a stride of 0x1000
  | trsEpConfig (e : Fin 64)
  | trsEpStatus (e : Fin 64)
  | trsEpPeer (e : Fin 64) (k : Fin 2)
  | trsEpCount (e : Fin 64) (k : Fin 6)
  -- block 9, window 2: 128 instances at a stride of 0x1000
  | trsRstreamDesc (t : Fin 128) (k : Fin 8)
  | trsRstreamCtrl (t : Fin 128)
  | trsRstreamStatus (t : Fin 128)
  | trsRstreamCount (t : Fin 128) (k : Fin 4)
  -- block 9, window 3: 8 instances at a stride of 0x1000
  | trsSlotState (r : Fin 8) (k : Fin 64)
  -- block 10, window 0
  | trzSystemStatus
  | trzSystemCtrl
  | trzLagConfig
  | trzDistribution (k : Fin 4)
  | trzLagEvent
  | trzRemoteStatus
  -- block 10, window 1: 4 instances at a stride of 0x1000
  | trzPortStatus (p : Fin 4)
  | trzPortCount (p : Fin 4) (k : Fin 5)
  -- block 10, window 2: 256 instances at a stride of 0x1000
  | trzWindowBase (w : Fin 256) (k : Fin 2)
  | trzWindowLength (w : Fin 256)
  | trzWindowPermit (w : Fin 256) (k : Fin 4)
  | trzWindowAttr (w : Fin 256)
  | trzWindowCtrl (w : Fin 256)
  | trzWindowStatus (w : Fin 256)
  | trzWindowCount (w : Fin 256) (k : Fin 2)
  -- block 11, window 0
  | bootStatus
  | bootVersion
  | bootSlotState (k : Fin 2)
  | bootSlotVersion (k : Fin 2)
  | bootSlotSeq (k : Fin 2)
  | bootNet
  | bootControl
  | bootInstallSrc (k : Fin 2)
  | bootInstallLen
  | bootInstallStatus
  | bootEvent
  | bootRomReads
  -- block 12, window 0
  | flsStatus
  | flsGeometry
  | flsCount (k : Fin 5)
  | flsCtrl
  | flsRecordSrc (k : Fin 2)
  | flsRecordStatus
  -- block 13, window 0
  | pwrCap
  | pwrStatus
  | pwrThrottleCause
  | pwrPower
  | pwrVcore
  | pwrTemp
  | pwrTrim (k : Fin 8)
  | pwrUpdateSrc (k : Fin 2)
  | pwrUpdateLen
  | pwrUpdateCtrl
  | pwrUpdateStatus
  | pwrEvent
  | pwrLockstepCount
  -- block 13, window 1: 8 instances at a stride of 0x1000
  | pwrRingCtrl (r : Fin 8)
  | pwrRingStatus (r : Fin 8)
  | pwrRingThrottleUs (r : Fin 8) (k : Fin 6)
  | pwrRingExcursion (r : Fin 8)
  -- block 14, window 0
  | secStatus
  | secEpoch (k : Fin 4)
  | secDebugEpoch
  | secRingDebug (k : Fin 8)
  | secTokenSrc (k : Fin 2)
  | secCtrl
  | secResult
  | secEvent
  | secKeyRefused
  -- block 15, window 1: 16 instances at a stride of 0x1000
  | dbgTraceCtrl (c : Fin 16)
  | dbgTraceDump (c : Fin 16)
  | dbgTraceWptr (c : Fin 16)
  | dbgTraceLost (c : Fin 16)
  -- block 15, window 2: 8 instances at a stride of 0x1000
  | dbgRingCtrl (r : Fin 8)
  | dbgAccAddr (r : Fin 8) (k : Fin 2)
  | dbgAccData (r : Fin 8)
  | dbgAccStatus (r : Fin 8)
  -- block 16, window 0
  | errDevFaultRecord (k : Fin 16)
  | errDevFaultPop
  | errDevFaultStatus
  -- block 16, window 1: 16 instances at a stride of 0x1000
  | errCoreEcc (c : Fin 16)
  -- block 16, window 2: 8 instances at a stride of 0x1000
  | errSliceEcc (m : Fin 8)
  | errSliceScrub (m : Fin 8)
  -- block 16, window 3: 8 instances at a stride of 0x1000
  | errRingFaultRecord (r : Fin 8) (k : Fin 16)
  | errRingFaultPop (r : Fin 8)
  | errRingFaultStatus (r : Fin 8)
  | errRingFaultCfg (r : Fin 8)
  deriving DecidableEq, Repr

/-- The byte address of a register (R310, R311). -/
def Reg.addr : Reg → Nat
  | .coreColwidth c => 0x00100000 + 0x1000 * c.val
  | .coreArrayStatus c => 0x00100004 + 0x1000 * c.val
  | .coreArrayMacSlots c k => 0x00100008 + 0x1000 * c.val + 4 * k.val
  | .coreArrayHoldOperand c => 0x00100010 + 0x1000 * c.val
  | .coreArrayHoldDrain c => 0x00100014 + 0x1000 * c.val
  | .coreArrayPoisonTag c => 0x00100018 + 0x1000 * c.val
  | .coreQuantStatus c => 0x0010001C + 0x1000 * c.val
  | .coreQuantSaturated c => 0x00100020 + 0x1000 * c.val
  | .coreQuantRedone c => 0x00100024 + 0x1000 * c.val
  | .coreQuantEventTag c => 0x00100028 + 0x1000 * c.val
  | .coreSeqStatus c => 0x0010002C + 0x1000 * c.val
  | .coreHeadTag c k => 0x00100030 + 0x1000 * c.val + 4 * k.val
  | .coreVecHold c => 0x00100044 + 0x1000 * c.val
  | .coreFlags c k => 0x00100048 + 0x1000 * c.val + 4 * k.val
  | .coreMemStatus c => 0x00100050 + 0x1000 * c.val
  | .coreMemFrozen c => 0x00100054 + 0x1000 * c.val
  | .coreMemWaitMax c k => 0x00100058 + 0x1000 * c.val + 4 * k.val
  | .coreUnfoldStatus c => 0x0010006C + 0x1000 * c.val
  | .coreUnfoldPadBlocks c => 0x00100070 + 0x1000 * c.val
  | .coreUnfoldReadLines c => 0x00100074 + 0x1000 * c.val
  | .coreUnfoldErrTag c => 0x00100078 + 0x1000 * c.val
  | .ringManifestStatus r => 0x01100000 + 0x1000 * r.val
  | .ringResources r => 0x01100004 + 0x1000 * r.val
  | .ringControl r => 0x01100008 + 0x1000 * r.val
  | .ringEvent r => 0x0110000C + 0x1000 * r.val
  | .ringSeqStatus r => 0x01100010 + 0x1000 * r.val
  | .ringFlags r k => 0x01100014 + 0x1000 * r.val + 4 * k.val
  | .ringFlagWrite r => 0x01100034 + 0x1000 * r.val
  | .ringInvokeDropped r => 0x01100038 + 0x1000 * r.val
  | .ringHint r => 0x0110003C + 0x1000 * r.val
  | .ringMwyRedirect r => 0x01100040 + 0x1000 * r.val
  | .ringCtxCtrl r => 0x01100044 + 0x1000 * r.val
  | .ringCtxPool r k => 0x01100048 + 0x1000 * r.val + 4 * k.val
  | .ringCtxPoolMwy r => 0x01100068 + 0x1000 * r.val
  | .ringCtxFree r => 0x0110006C + 0x1000 * r.val
  | .ringCtxFreeMwy r => 0x01100070 + 0x1000 * r.val
  | .ringCtxEvent r => 0x01100074 + 0x1000 * r.val
  | .ringCtxPagesOut r => 0x01100078 + 0x1000 * r.val
  | .ringCtxPagesIn r => 0x0110007C + 0x1000 * r.val
  | .ringCtxDesc x k => 0x01200000 + 0x80 * x.val + 4 * k.val
  | .ringCtxStatus x => 0x01200040 + 0x80 * x.val
  | .mwySliceStatus m => 0x02100000 + 0x1000 * m.val
  | .mwyWaitMax m k => 0x02100004 + 0x1000 * m.val + 4 * k.val
  | .ddrConfig => 0x04000000
  | .ddrStatus => 0x04000004
  | .ddrScrubCtrl => 0x04000008
  | .ddrErrAddr k => 0x04000010 + 4 * k.val
  | .ddrErrInfo => 0x04000018
  | .ddrErrCount0 u => 0x04100000 + 0x1000 * u.val
  | .ddrErrCount1 u => 0x04100004 + 0x1000 * u.val
  | .ddrEcsCount u => 0x04100008 + 0x1000 * u.val
  | .ddrWaitMax u k => 0x0410000C + 0x1000 * u.val + 4 * k.val
  | .feRxStatus x => 0x05100000 + 0x1000 * x.val
  | .feRxDropped x => 0x05100004 + 0x1000 * x.val
  | .feStreamDesc x k => 0x05200000 + 0x4000 * x.val + 4 * k.val
  | .feStreamCtrl x => 0x05200040 + 0x4000 * x.val
  | .feStreamStatus x => 0x05200044 + 0x4000 * x.val
  | .feStreamDropped x => 0x05200048 + 0x4000 * x.val
  | .feStreamTsLate x => 0x0520004C + 0x4000 * x.val
  | .feIspParam x k => 0x05202000 + 0x4000 * x.val + 4 * k.val
  | .cdcSessionDesc x k => 0x06100000 + 0x1000 * x.val + 4 * k.val
  | .cdcSessionCtrl x => 0x06100040 + 0x1000 * x.val
  | .cdcSessionStatus x => 0x06100044 + 0x1000 * x.val
  | .cdcSessionWptr x => 0x06100048 + 0x1000 * x.val
  | .cdcSessionRptr x => 0x0610004C + 0x1000 * x.val
  | .cdcEncSkipped x => 0x06100050 + 0x1000 * x.val
  | .smpChanDesc x k => 0x07100000 + 0x1000 * x.val + 4 * k.val
  | .smpChanCtrl x => 0x07100040 + 0x1000 * x.val
  | .smpChanStatus x => 0x07100044 + 0x1000 * x.val
  | .smpChanCost x => 0x07100048 + 0x1000 * x.val
  | .smpChanLastBudget x => 0x0710004C + 0x1000 * x.val
  | .smpChanDelivered x => 0x07100050 + 0x1000 * x.val
  | .smpChanRefused x => 0x07100054 + 0x1000 * x.val
  | .smpChanLate x => 0x07100058 + 0x1000 * x.val
  | .ethPortStatus p => 0x08100000 + 0x1000 * p.val
  | .ethPortCount p k => 0x08100004 + 0x1000 * p.val + 4 * k.val
  | .trsEthertype => 0x09000000
  | .trsIntBase => 0x09000004
  | .trsEpConfig e => 0x09100000 + 0x1000 * e.val
  | .trsEpStatus e => 0x09100004 + 0x1000 * e.val
  | .trsEpPeer e k => 0x09100008 + 0x1000 * e.val + 4 * k.val
  | .trsEpCount e k => 0x09100010 + 0x1000 * e.val + 4 * k.val
  | .trsRstreamDesc t k => 0x09200000 + 0x1000 * t.val + 4 * k.val
  | .trsRstreamCtrl t => 0x09200040 + 0x1000 * t.val
  | .trsRstreamStatus t => 0x09200044 + 0x1000 * t.val
  | .trsRstreamCount t k => 0x09200048 + 0x1000 * t.val + 4 * k.val
  | .trsSlotState r k => 0x09300000 + 0x1000 * r.val + 4 * k.val
  | .trzSystemStatus => 0x0A000000
  | .trzSystemCtrl => 0x0A000004
  | .trzLagConfig => 0x0A000008
  | .trzDistribution k => 0x0A00000C + 4 * k.val
  | .trzLagEvent => 0x0A00001C
  | .trzRemoteStatus => 0x0A000020
  | .trzPortStatus p => 0x0A100000 + 0x1000 * p.val
  | .trzPortCount p k => 0x0A100004 + 0x1000 * p.val + 4 * k.val
  | .trzWindowBase w k => 0x0A200000 + 0x1000 * w.val + 4 * k.val
  | .trzWindowLength w => 0x0A200008 + 0x1000 * w.val
  | .trzWindowPermit w k => 0x0A20000C + 0x1000 * w.val + 4 * k.val
  | .trzWindowAttr w => 0x0A20001C + 0x1000 * w.val
  | .trzWindowCtrl w => 0x0A200020 + 0x1000 * w.val
  | .trzWindowStatus w => 0x0A200024 + 0x1000 * w.val
  | .trzWindowCount w k => 0x0A200028 + 0x1000 * w.val + 4 * k.val
  | .bootStatus => 0x0B000000
  | .bootVersion => 0x0B000004
  | .bootSlotState k => 0x0B000008 + 4 * k.val
  | .bootSlotVersion k => 0x0B000010 + 4 * k.val
  | .bootSlotSeq k => 0x0B000018 + 4 * k.val
  | .bootNet => 0x0B000020
  | .bootControl => 0x0B000024
  | .bootInstallSrc k => 0x0B000028 + 4 * k.val
  | .bootInstallLen => 0x0B000030
  | .bootInstallStatus => 0x0B000034
  | .bootEvent => 0x0B000038
  | .bootRomReads => 0x0B00003C
  | .flsStatus => 0x0C000000
  | .flsGeometry => 0x0C000004
  | .flsCount k => 0x0C000008 + 4 * k.val
  | .flsCtrl => 0x0C00001C
  | .flsRecordSrc k => 0x0C000020 + 4 * k.val
  | .flsRecordStatus => 0x0C000028
  | .pwrCap => 0x0D000000
  | .pwrStatus => 0x0D000004
  | .pwrThrottleCause => 0x0D000008
  | .pwrPower => 0x0D00000C
  | .pwrVcore => 0x0D000010
  | .pwrTemp => 0x0D000014
  | .pwrTrim k => 0x0D000018 + 4 * k.val
  | .pwrUpdateSrc k => 0x0D000038 + 4 * k.val
  | .pwrUpdateLen => 0x0D000040
  | .pwrUpdateCtrl => 0x0D000044
  | .pwrUpdateStatus => 0x0D000048
  | .pwrEvent => 0x0D00004C
  | .pwrLockstepCount => 0x0D000050
  | .pwrRingCtrl r => 0x0D100000 + 0x1000 * r.val
  | .pwrRingStatus r => 0x0D100004 + 0x1000 * r.val
  | .pwrRingThrottleUs r k => 0x0D100008 + 0x1000 * r.val + 4 * k.val
  | .pwrRingExcursion r => 0x0D100020 + 0x1000 * r.val
  | .secStatus => 0x0E000000
  | .secEpoch k => 0x0E000004 + 4 * k.val
  | .secDebugEpoch => 0x0E000014
  | .secRingDebug k => 0x0E000018 + 4 * k.val
  | .secTokenSrc k => 0x0E000038 + 4 * k.val
  | .secCtrl => 0x0E000040
  | .secResult => 0x0E000044
  | .secEvent => 0x0E000048
  | .secKeyRefused => 0x0E00004C
  | .dbgTraceCtrl c => 0x0F100000 + 0x1000 * c.val
  | .dbgTraceDump c => 0x0F100004 + 0x1000 * c.val
  | .dbgTraceWptr c => 0x0F100008 + 0x1000 * c.val
  | .dbgTraceLost c => 0x0F10000C + 0x1000 * c.val
  | .dbgRingCtrl r => 0x0F200000 + 0x1000 * r.val
  | .dbgAccAddr r k => 0x0F200008 + 0x1000 * r.val + 4 * k.val
  | .dbgAccData r => 0x0F200010 + 0x1000 * r.val
  | .dbgAccStatus r => 0x0F200014 + 0x1000 * r.val
  | .errDevFaultRecord k => 0x10000000 + 4 * k.val
  | .errDevFaultPop => 0x10000040
  | .errDevFaultStatus => 0x10000044
  | .errCoreEcc c => 0x10100000 + 0x1000 * c.val
  | .errSliceEcc m => 0x10200000 + 0x1000 * m.val
  | .errSliceScrub m => 0x10200004 + 0x1000 * m.val
  | .errRingFaultRecord r k => 0x10300000 + 0x1000 * r.val + 4 * k.val
  | .errRingFaultPop r => 0x10300040 + 0x1000 * r.val
  | .errRingFaultStatus r => 0x10300044 + 0x1000 * r.val
  | .errRingFaultCfg r => 0x10300048 + 0x1000 * r.val

/-- The register at offset `o` of an instance of block 0, window 1. -/
def Reg.atCore (c : Fin 16) (o : Nat) : Option Reg :=
  if o = 0x0 then some (.coreColwidth c) else
  if o = 0x4 then some (.coreArrayStatus c) else
  if h : 0x8 ≤ o ∧ o < 0x10 then
    if o % 4 = 0 then some (.coreArrayMacSlots c ⟨(o - 0x8) / 4, by omega⟩) else none
  else
  if o = 0x10 then some (.coreArrayHoldOperand c) else
  if o = 0x14 then some (.coreArrayHoldDrain c) else
  if o = 0x18 then some (.coreArrayPoisonTag c) else
  if o = 0x1C then some (.coreQuantStatus c) else
  if o = 0x20 then some (.coreQuantSaturated c) else
  if o = 0x24 then some (.coreQuantRedone c) else
  if o = 0x28 then some (.coreQuantEventTag c) else
  if o = 0x2C then some (.coreSeqStatus c) else
  if h : 0x30 ≤ o ∧ o < 0x44 then
    if o % 4 = 0 then some (.coreHeadTag c ⟨(o - 0x30) / 4, by omega⟩) else none
  else
  if o = 0x44 then some (.coreVecHold c) else
  if h : 0x48 ≤ o ∧ o < 0x50 then
    if o % 4 = 0 then some (.coreFlags c ⟨(o - 0x48) / 4, by omega⟩) else none
  else
  if o = 0x50 then some (.coreMemStatus c) else
  if o = 0x54 then some (.coreMemFrozen c) else
  if h : 0x58 ≤ o ∧ o < 0x6C then
    if o % 4 = 0 then some (.coreMemWaitMax c ⟨(o - 0x58) / 4, by omega⟩) else none
  else
  if o = 0x6C then some (.coreUnfoldStatus c) else
  if o = 0x70 then some (.coreUnfoldPadBlocks c) else
  if o = 0x74 then some (.coreUnfoldReadLines c) else
  if o = 0x78 then some (.coreUnfoldErrTag c) else
  none

/-- The register at offset `o` of an instance of block 1, window 1. -/
def Reg.atRing (r : Fin 8) (o : Nat) : Option Reg :=
  if o = 0x0 then some (.ringManifestStatus r) else
  if o = 0x4 then some (.ringResources r) else
  if o = 0x8 then some (.ringControl r) else
  if o = 0xC then some (.ringEvent r) else
  if o = 0x10 then some (.ringSeqStatus r) else
  if h : 0x14 ≤ o ∧ o < 0x34 then
    if o % 4 = 0 then some (.ringFlags r ⟨(o - 0x14) / 4, by omega⟩) else none
  else
  if o = 0x34 then some (.ringFlagWrite r) else
  if o = 0x38 then some (.ringInvokeDropped r) else
  if o = 0x3C then some (.ringHint r) else
  if o = 0x40 then some (.ringMwyRedirect r) else
  if o = 0x44 then some (.ringCtxCtrl r) else
  if h : 0x48 ≤ o ∧ o < 0x68 then
    if o % 4 = 0 then some (.ringCtxPool r ⟨(o - 0x48) / 4, by omega⟩) else none
  else
  if o = 0x68 then some (.ringCtxPoolMwy r) else
  if o = 0x6C then some (.ringCtxFree r) else
  if o = 0x70 then some (.ringCtxFreeMwy r) else
  if o = 0x74 then some (.ringCtxEvent r) else
  if o = 0x78 then some (.ringCtxPagesOut r) else
  if o = 0x7C then some (.ringCtxPagesIn r) else
  none

/-- The register at offset `o` of an instance of block 1, window 2. -/
def Reg.atCtx (x : Fin 4096) (o : Nat) : Option Reg :=
  if h : 0x0 ≤ o ∧ o < 0x40 then
    if o % 4 = 0 then some (.ringCtxDesc x ⟨(o - 0x0) / 4, by omega⟩) else none
  else
  if o = 0x40 then some (.ringCtxStatus x) else
  none

/-- The register at offset `o` of an instance of block 2, window 1. -/
def Reg.atSlice (m : Fin 8) (o : Nat) : Option Reg :=
  if o = 0x0 then some (.mwySliceStatus m) else
  if h : 0x4 ≤ o ∧ o < 0x14 then
    if o % 4 = 0 then some (.mwyWaitMax m ⟨(o - 0x4) / 4, by omega⟩) else none
  else
  none

/-- The register at offset `o` of an instance of block 4, window 0. -/
def Reg.atDdr (o : Nat) : Option Reg :=
  if o = 0x0 then some .ddrConfig else
  if o = 0x4 then some .ddrStatus else
  if o = 0x8 then some .ddrScrubCtrl else
  if h : 0x10 ≤ o ∧ o < 0x18 then
    if o % 4 = 0 then some (.ddrErrAddr ⟨(o - 0x10) / 4, by omega⟩) else none
  else
  if o = 0x18 then some .ddrErrInfo else
  none

/-- The register at offset `o` of an instance of block 4, window 1. -/
def Reg.atSub (u : Fin 8) (o : Nat) : Option Reg :=
  if o = 0x0 then some (.ddrErrCount0 u) else
  if o = 0x4 then some (.ddrErrCount1 u) else
  if o = 0x8 then some (.ddrEcsCount u) else
  if h : 0xC ≤ o ∧ o < 0x1C then
    if o % 4 = 0 then some (.ddrWaitMax u ⟨(o - 0xC) / 4, by omega⟩) else none
  else
  none

/-- The register at offset `o` of an instance of block 5, window 1. -/
def Reg.atRx (x : Fin 16) (o : Nat) : Option Reg :=
  if o = 0x0 then some (.feRxStatus x) else
  if o = 0x4 then some (.feRxDropped x) else
  none

/-- The register at offset `o` of an instance of block 5, window 2. -/
def Reg.atFe (x : Fin 64) (o : Nat) : Option Reg :=
  if h : 0x0 ≤ o ∧ o < 0x40 then
    if o % 4 = 0 then some (.feStreamDesc x ⟨(o - 0x0) / 4, by omega⟩) else none
  else
  if o = 0x40 then some (.feStreamCtrl x) else
  if o = 0x44 then some (.feStreamStatus x) else
  if o = 0x48 then some (.feStreamDropped x) else
  if o = 0x4C then some (.feStreamTsLate x) else
  if h : 0x2000 ≤ o ∧ o < 0x4000 then
    if o % 4 = 0 then some (.feIspParam x ⟨(o - 0x2000) / 4, by omega⟩) else none
  else
  none

/-- The register at offset `o` of an instance of block 6, window 1. -/
def Reg.atCdc (x : Fin 16) (o : Nat) : Option Reg :=
  if h : 0x0 ≤ o ∧ o < 0x20 then
    if o % 4 = 0 then some (.cdcSessionDesc x ⟨(o - 0x0) / 4, by omega⟩) else none
  else
  if o = 0x40 then some (.cdcSessionCtrl x) else
  if o = 0x44 then some (.cdcSessionStatus x) else
  if o = 0x48 then some (.cdcSessionWptr x) else
  if o = 0x4C then some (.cdcSessionRptr x) else
  if o = 0x50 then some (.cdcEncSkipped x) else
  none

/-- The register at offset `o` of an instance of block 7, window 1. -/
def Reg.atSmp (x : Fin 16) (o : Nat) : Option Reg :=
  if h : 0x0 ≤ o ∧ o < 0x40 then
    if o % 4 = 0 then some (.smpChanDesc x ⟨(o - 0x0) / 4, by omega⟩) else none
  else
  if o = 0x40 then some (.smpChanCtrl x) else
  if o = 0x44 then some (.smpChanStatus x) else
  if o = 0x48 then some (.smpChanCost x) else
  if o = 0x4C then some (.smpChanLastBudget x) else
  if o = 0x50 then some (.smpChanDelivered x) else
  if o = 0x54 then some (.smpChanRefused x) else
  if o = 0x58 then some (.smpChanLate x) else
  none

/-- The register at offset `o` of an instance of block 8, window 1. -/
def Reg.atEth (p : Fin 4) (o : Nat) : Option Reg :=
  if o = 0x0 then some (.ethPortStatus p) else
  if h : 0x4 ≤ o ∧ o < 0x18 then
    if o % 4 = 0 then some (.ethPortCount p ⟨(o - 0x4) / 4, by omega⟩) else none
  else
  none

/-- The register at offset `o` of an instance of block 9, window 0. -/
def Reg.atTrs (o : Nat) : Option Reg :=
  if o = 0x0 then some .trsEthertype else
  if o = 0x4 then some .trsIntBase else
  none

/-- The register at offset `o` of an instance of block 9, window 1. -/
def Reg.atEp (e : Fin 64) (o : Nat) : Option Reg :=
  if o = 0x0 then some (.trsEpConfig e) else
  if o = 0x4 then some (.trsEpStatus e) else
  if h : 0x8 ≤ o ∧ o < 0x10 then
    if o % 4 = 0 then some (.trsEpPeer e ⟨(o - 0x8) / 4, by omega⟩) else none
  else
  if h : 0x10 ≤ o ∧ o < 0x28 then
    if o % 4 = 0 then some (.trsEpCount e ⟨(o - 0x10) / 4, by omega⟩) else none
  else
  none

/-- The register at offset `o` of an instance of block 9, window 2. -/
def Reg.atRs (t : Fin 128) (o : Nat) : Option Reg :=
  if h : 0x0 ≤ o ∧ o < 0x20 then
    if o % 4 = 0 then some (.trsRstreamDesc t ⟨(o - 0x0) / 4, by omega⟩) else none
  else
  if o = 0x40 then some (.trsRstreamCtrl t) else
  if o = 0x44 then some (.trsRstreamStatus t) else
  if h : 0x48 ≤ o ∧ o < 0x58 then
    if o % 4 = 0 then some (.trsRstreamCount t ⟨(o - 0x48) / 4, by omega⟩) else none
  else
  none

/-- The register at offset `o` of an instance of block 9, window 3. -/
def Reg.atSlot (r : Fin 8) (o : Nat) : Option Reg :=
  if h : 0x0 ≤ o ∧ o < 0x100 then
    if o % 4 = 0 then some (.trsSlotState r ⟨(o - 0x0) / 4, by omega⟩) else none
  else
  none

/-- The register at offset `o` of an instance of block 10, window 0. -/
def Reg.atTrz (o : Nat) : Option Reg :=
  if o = 0x0 then some .trzSystemStatus else
  if o = 0x4 then some .trzSystemCtrl else
  if o = 0x8 then some .trzLagConfig else
  if h : 0xC ≤ o ∧ o < 0x1C then
    if o % 4 = 0 then some (.trzDistribution ⟨(o - 0xC) / 4, by omega⟩) else none
  else
  if o = 0x1C then some .trzLagEvent else
  if o = 0x20 then some .trzRemoteStatus else
  none

/-- The register at offset `o` of an instance of block 10, window 1. -/
def Reg.atPort (p : Fin 4) (o : Nat) : Option Reg :=
  if o = 0x0 then some (.trzPortStatus p) else
  if h : 0x4 ≤ o ∧ o < 0x18 then
    if o % 4 = 0 then some (.trzPortCount p ⟨(o - 0x4) / 4, by omega⟩) else none
  else
  none

/-- The register at offset `o` of an instance of block 10, window 2. -/
def Reg.atWin (w : Fin 256) (o : Nat) : Option Reg :=
  if h : 0x0 ≤ o ∧ o < 0x8 then
    if o % 4 = 0 then some (.trzWindowBase w ⟨(o - 0x0) / 4, by omega⟩) else none
  else
  if o = 0x8 then some (.trzWindowLength w) else
  if h : 0xC ≤ o ∧ o < 0x1C then
    if o % 4 = 0 then some (.trzWindowPermit w ⟨(o - 0xC) / 4, by omega⟩) else none
  else
  if o = 0x1C then some (.trzWindowAttr w) else
  if o = 0x20 then some (.trzWindowCtrl w) else
  if o = 0x24 then some (.trzWindowStatus w) else
  if h : 0x28 ≤ o ∧ o < 0x30 then
    if o % 4 = 0 then some (.trzWindowCount w ⟨(o - 0x28) / 4, by omega⟩) else none
  else
  none

/-- The register at offset `o` of an instance of block 11, window 0. -/
def Reg.atBoot (o : Nat) : Option Reg :=
  if o = 0x0 then some .bootStatus else
  if o = 0x4 then some .bootVersion else
  if h : 0x8 ≤ o ∧ o < 0x10 then
    if o % 4 = 0 then some (.bootSlotState ⟨(o - 0x8) / 4, by omega⟩) else none
  else
  if h : 0x10 ≤ o ∧ o < 0x18 then
    if o % 4 = 0 then some (.bootSlotVersion ⟨(o - 0x10) / 4, by omega⟩) else none
  else
  if h : 0x18 ≤ o ∧ o < 0x20 then
    if o % 4 = 0 then some (.bootSlotSeq ⟨(o - 0x18) / 4, by omega⟩) else none
  else
  if o = 0x20 then some .bootNet else
  if o = 0x24 then some .bootControl else
  if h : 0x28 ≤ o ∧ o < 0x30 then
    if o % 4 = 0 then some (.bootInstallSrc ⟨(o - 0x28) / 4, by omega⟩) else none
  else
  if o = 0x30 then some .bootInstallLen else
  if o = 0x34 then some .bootInstallStatus else
  if o = 0x38 then some .bootEvent else
  if o = 0x3C then some .bootRomReads else
  none

/-- The register at offset `o` of an instance of block 12, window 0. -/
def Reg.atFls (o : Nat) : Option Reg :=
  if o = 0x0 then some .flsStatus else
  if o = 0x4 then some .flsGeometry else
  if h : 0x8 ≤ o ∧ o < 0x1C then
    if o % 4 = 0 then some (.flsCount ⟨(o - 0x8) / 4, by omega⟩) else none
  else
  if o = 0x1C then some .flsCtrl else
  if h : 0x20 ≤ o ∧ o < 0x28 then
    if o % 4 = 0 then some (.flsRecordSrc ⟨(o - 0x20) / 4, by omega⟩) else none
  else
  if o = 0x28 then some .flsRecordStatus else
  none

/-- The register at offset `o` of an instance of block 13, window 0. -/
def Reg.atPwr (o : Nat) : Option Reg :=
  if o = 0x0 then some .pwrCap else
  if o = 0x4 then some .pwrStatus else
  if o = 0x8 then some .pwrThrottleCause else
  if o = 0xC then some .pwrPower else
  if o = 0x10 then some .pwrVcore else
  if o = 0x14 then some .pwrTemp else
  if h : 0x18 ≤ o ∧ o < 0x38 then
    if o % 4 = 0 then some (.pwrTrim ⟨(o - 0x18) / 4, by omega⟩) else none
  else
  if h : 0x38 ≤ o ∧ o < 0x40 then
    if o % 4 = 0 then some (.pwrUpdateSrc ⟨(o - 0x38) / 4, by omega⟩) else none
  else
  if o = 0x40 then some .pwrUpdateLen else
  if o = 0x44 then some .pwrUpdateCtrl else
  if o = 0x48 then some .pwrUpdateStatus else
  if o = 0x4C then some .pwrEvent else
  if o = 0x50 then some .pwrLockstepCount else
  none

/-- The register at offset `o` of an instance of block 13, window 1. -/
def Reg.atPwrRing (r : Fin 8) (o : Nat) : Option Reg :=
  if o = 0x0 then some (.pwrRingCtrl r) else
  if o = 0x4 then some (.pwrRingStatus r) else
  if h : 0x8 ≤ o ∧ o < 0x20 then
    if o % 4 = 0 then some (.pwrRingThrottleUs r ⟨(o - 0x8) / 4, by omega⟩) else none
  else
  if o = 0x20 then some (.pwrRingExcursion r) else
  none

/-- The register at offset `o` of an instance of block 14, window 0. -/
def Reg.atSec (o : Nat) : Option Reg :=
  if o = 0x0 then some .secStatus else
  if h : 0x4 ≤ o ∧ o < 0x14 then
    if o % 4 = 0 then some (.secEpoch ⟨(o - 0x4) / 4, by omega⟩) else none
  else
  if o = 0x14 then some .secDebugEpoch else
  if h : 0x18 ≤ o ∧ o < 0x38 then
    if o % 4 = 0 then some (.secRingDebug ⟨(o - 0x18) / 4, by omega⟩) else none
  else
  if h : 0x38 ≤ o ∧ o < 0x40 then
    if o % 4 = 0 then some (.secTokenSrc ⟨(o - 0x38) / 4, by omega⟩) else none
  else
  if o = 0x40 then some .secCtrl else
  if o = 0x44 then some .secResult else
  if o = 0x48 then some .secEvent else
  if o = 0x4C then some .secKeyRefused else
  none

/-- The register at offset `o` of an instance of block 15, window 1. -/
def Reg.atDbgCore (c : Fin 16) (o : Nat) : Option Reg :=
  if o = 0x0 then some (.dbgTraceCtrl c) else
  if o = 0x4 then some (.dbgTraceDump c) else
  if o = 0x8 then some (.dbgTraceWptr c) else
  if o = 0xC then some (.dbgTraceLost c) else
  none

/-- The register at offset `o` of an instance of block 15, window 2. -/
def Reg.atDbgRing (r : Fin 8) (o : Nat) : Option Reg :=
  if o = 0x0 then some (.dbgRingCtrl r) else
  if h : 0x8 ≤ o ∧ o < 0x10 then
    if o % 4 = 0 then some (.dbgAccAddr r ⟨(o - 0x8) / 4, by omega⟩) else none
  else
  if o = 0x10 then some (.dbgAccData r) else
  if o = 0x14 then some (.dbgAccStatus r) else
  none

/-- The register at offset `o` of an instance of block 16, window 0. -/
def Reg.atErr (o : Nat) : Option Reg :=
  if h : 0x0 ≤ o ∧ o < 0x40 then
    if o % 4 = 0 then some (.errDevFaultRecord ⟨(o - 0x0) / 4, by omega⟩) else none
  else
  if o = 0x40 then some .errDevFaultPop else
  if o = 0x44 then some .errDevFaultStatus else
  none

/-- The register at offset `o` of an instance of block 16, window 1. -/
def Reg.atErrCore (c : Fin 16) (o : Nat) : Option Reg :=
  if o = 0x0 then some (.errCoreEcc c) else
  none

/-- The register at offset `o` of an instance of block 16, window 2. -/
def Reg.atErrSlice (m : Fin 8) (o : Nat) : Option Reg :=
  if o = 0x0 then some (.errSliceEcc m) else
  if o = 0x4 then some (.errSliceScrub m) else
  none

/-- The register at offset `o` of an instance of block 16, window 3. -/
def Reg.atErrRing (r : Fin 8) (o : Nat) : Option Reg :=
  if h : 0x0 ≤ o ∧ o < 0x40 then
    if o % 4 = 0 then some (.errRingFaultRecord r ⟨(o - 0x0) / 4, by omega⟩) else none
  else
  if o = 0x40 then some (.errRingFaultPop r) else
  if o = 0x44 then some (.errRingFaultStatus r) else
  if o = 0x48 then some (.errRingFaultCfg r) else
  none

/-- The register that a control-space address holds, where it holds one (R311). -/
def Reg.ofAddr (a : Nat) : Option Reg :=
  let o := a % 0x100000
  match a / 0x100000 with
  | 1 => if h : o / 0x1000 < 16 then Reg.atCore ⟨o / 0x1000, h⟩ (o % 0x1000) else none
  | 17 => if h : o / 0x1000 < 8 then Reg.atRing ⟨o / 0x1000, h⟩ (o % 0x1000) else none
  | 18 => if h : o / 0x80 < 4096 then Reg.atCtx ⟨o / 0x80, h⟩ (o % 0x80) else none
  | 33 => if h : o / 0x1000 < 8 then Reg.atSlice ⟨o / 0x1000, h⟩ (o % 0x1000) else none
  | 64 => Reg.atDdr o
  | 65 => if h : o / 0x1000 < 8 then Reg.atSub ⟨o / 0x1000, h⟩ (o % 0x1000) else none
  | 81 => if h : o / 0x1000 < 16 then Reg.atRx ⟨o / 0x1000, h⟩ (o % 0x1000) else none
  | 82 => if h : o / 0x4000 < 64 then Reg.atFe ⟨o / 0x4000, h⟩ (o % 0x4000) else none
  | 97 => if h : o / 0x1000 < 16 then Reg.atCdc ⟨o / 0x1000, h⟩ (o % 0x1000) else none
  | 113 => if h : o / 0x1000 < 16 then Reg.atSmp ⟨o / 0x1000, h⟩ (o % 0x1000) else none
  | 129 => if h : o / 0x1000 < 4 then Reg.atEth ⟨o / 0x1000, h⟩ (o % 0x1000) else none
  | 144 => Reg.atTrs o
  | 145 => if h : o / 0x1000 < 64 then Reg.atEp ⟨o / 0x1000, h⟩ (o % 0x1000) else none
  | 146 => if h : o / 0x1000 < 128 then Reg.atRs ⟨o / 0x1000, h⟩ (o % 0x1000) else none
  | 147 => if h : o / 0x1000 < 8 then Reg.atSlot ⟨o / 0x1000, h⟩ (o % 0x1000) else none
  | 160 => Reg.atTrz o
  | 161 => if h : o / 0x1000 < 4 then Reg.atPort ⟨o / 0x1000, h⟩ (o % 0x1000) else none
  | 162 => if h : o / 0x1000 < 256 then Reg.atWin ⟨o / 0x1000, h⟩ (o % 0x1000) else none
  | 176 => Reg.atBoot o
  | 192 => Reg.atFls o
  | 208 => Reg.atPwr o
  | 209 => if h : o / 0x1000 < 8 then Reg.atPwrRing ⟨o / 0x1000, h⟩ (o % 0x1000) else none
  | 224 => Reg.atSec o
  | 241 => if h : o / 0x1000 < 16 then Reg.atDbgCore ⟨o / 0x1000, h⟩ (o % 0x1000) else none
  | 242 => if h : o / 0x1000 < 8 then Reg.atDbgRing ⟨o / 0x1000, h⟩ (o % 0x1000) else none
  | 256 => Reg.atErr o
  | 257 => if h : o / 0x1000 < 16 then Reg.atErrCore ⟨o / 0x1000, h⟩ (o % 0x1000) else none
  | 258 => if h : o / 0x1000 < 8 then Reg.atErrSlice ⟨o / 0x1000, h⟩ (o % 0x1000) else none
  | 259 => if h : o / 0x1000 < 8 then Reg.atErrRing ⟨o / 0x1000, h⟩ (o % 0x1000) else none
  | _ => none

/-- The bits that a write stores (R7: RW). -/
def Reg.rwMask : Reg → Word
  | .coreArrayHoldOperand _ => 0xFFFFFFFF
  | .coreArrayHoldDrain _ => 0xFFFFFFFF
  | .coreQuantSaturated _ => 0xFFFFFFFF
  | .coreQuantRedone _ => 0xFFFFFFFF
  | .coreVecHold _ => 0xFFFFFFFF
  | .coreMemFrozen _ => 0xFFFFFFFF
  | .coreMemWaitMax _ _ => 0x0000FFFF
  | .coreUnfoldPadBlocks _ => 0xFFFFFFFF
  | .coreUnfoldReadLines _ => 0xFFFFFFFF
  | .ringInvokeDropped _ => 0xFFFFFFFF
  | .ringHint _ => 0xFFFF0000
  | .ringMwyRedirect _ => 0xFFFFFFFF
  | .ringCtxPool _ _ => 0xFFFFFFFF
  | .ringCtxPoolMwy _ => 0xFFFFFFC0
  | .ringCtxPagesOut _ => 0xFFFFFFFF
  | .ringCtxPagesIn _ => 0xFFFFFFFF
  | .ringCtxDesc _ k => if k.val < 6 then 0xFFFFFFFF else 0
  | .mwyWaitMax _ _ => 0xFFFFFFFF
  | .ddrScrubCtrl => 0x8000FFFF
  | .ddrErrCount0 _ => 0xFFFFFFFF
  | .ddrErrCount1 _ => 0xFFFFFFFF
  | .ddrWaitMax _ _ => 0xFFFFFFFF
  | .feRxDropped _ => 0xFFFFFFFF
  | .feStreamDesc _ _ => 0xFFFFFFFF
  | .feStreamDropped _ => 0xFFFFFFFF
  | .feStreamTsLate _ => 0xFFFFFFFF
  | .feIspParam _ _ => 0xFFFFFFFF
  | .cdcSessionDesc _ _ => 0xFFFFFFFF
  | .cdcSessionWptr _ => 0xFFFFFFFF
  | .cdcSessionRptr _ => 0xFFFFFFFF
  | .cdcEncSkipped _ => 0xFFFFFFFF
  | .smpChanDesc _ _ => 0xFFFFFFFF
  | .smpChanDelivered _ => 0xFFFFFFFF
  | .smpChanRefused _ => 0xFFFFFFFF
  | .smpChanLate _ => 0xFFFFFFFF
  | .ethPortCount _ _ => 0xFFFFFFFF
  | .trsEpConfig _ => 0xF8000000
  | .trsEpCount _ _ => 0xFFFFFFFF
  | .trsRstreamDesc _ _ => 0xFFFFFFFF
  | .trsRstreamCount _ _ => 0xFFFFFFFF
  | .trzLagConfig => 0x00000003
  | .trzDistribution _ => 0xFFFFFFFF
  | .trzPortCount _ _ => 0xFFFFFFFF
  | .trzWindowBase _ k => if k.val = 0 then 0xFFFFFE00 else 0x8000001F
  | .trzWindowLength _ => 0xFFFFFFFF
  | .trzWindowPermit _ _ => 0xFFFFFFFF
  | .trzWindowAttr _ => 0xFFFF000F
  | .trzWindowCount _ _ => 0xFFFFFFFF
  | .bootInstallSrc k => if k.val = 0 then 0xFFFFF000 else 0x0000001F
  | .bootInstallLen => 0xFFFFFFFF
  | .bootRomReads => 0xFFFFFFFF
  | .flsCount _ => 0xFFFFFFFF
  | .flsRecordSrc k => if k.val = 0 then 0xFFFFFFC0 else 0x0000001F
  | .pwrCap => 0xFF0000FF
  | .pwrUpdateSrc k => if k.val = 0 then 0xFFFFF000 else 0x0000001F
  | .pwrUpdateLen => 0xFFFFFFFF
  | .pwrLockstepCount => 0xFFFFFFFF
  | .pwrRingCtrl _ => 0xC0000FFF
  | .pwrRingThrottleUs _ _ => 0xFFFFFFFF
  | .pwrRingExcursion _ => 0xFFFFFFFF
  | .secTokenSrc k => if k.val = 0 then 0xFFFFFFC0 else 0x0000001F
  | .secKeyRefused => 0xFFFFFFFF
  | .dbgTraceCtrl _ => 0xFFFFFFFE
  | .dbgTraceDump _ => 0xFFFFFF00
  | .dbgTraceLost _ => 0xFFFFFFFF
  | .dbgAccAddr _ k => if k.val = 0 then 0xFFFFFFFC else 0xFC00001F
  | .dbgAccData _ => 0xFFFFFFFF
  | .errDevFaultStatus => 0x00FFFF00
  | .errCoreEcc _ => 0xFFFFFFFF
  | .errSliceEcc _ => 0xFFFFFFFF
  | .errSliceScrub _ => 0xFFFFFFFF
  | .errRingFaultStatus _ => 0x00FFFF00
  | .errRingFaultCfg _ => 0xF8000000
  | _ => 0

/-- The bits that a written 1 clears (R7: W1C). -/
def Reg.w1cMask : Reg → Word
  | .coreArrayStatus _ => 0x00000F00
  | .coreQuantStatus _ => 0x000000FE
  | .coreSeqStatus _ => 0x00000018
  | .coreMemStatus _ => 0x000000C0
  | .coreUnfoldStatus _ => 0x0000001E
  | .ringEvent _ => 0x0000003F
  | .ringSeqStatus _ => 0x00180000
  | .ringCtxEvent _ => 0x0000007F
  | .ringCtxStatus _ => 0x00300000
  | .mwySliceStatus _ => 0x03000000
  | .ddrStatus => 0x00400000
  | .feRxStatus _ => 0x000001F8
  | .feStreamStatus _ => 0x0000000F
  | .smpChanStatus _ => 0x0000000E
  | .trsRstreamStatus _ => 0x00000003
  | .trzLagEvent => 0x01800000
  | .trzRemoteStatus => 0x00030000
  | .trzWindowStatus _ => 0x00000001
  | .bootEvent => 0x0000003F
  | .flsStatus => 0x0000000E
  | .pwrThrottleCause => 0x00003F00
  | .pwrEvent => 0x0000001F
  | .secEvent => 0x0000003F
  | .dbgAccStatus _ => 0x00000003
  | _ => 0

/-- A field of a register: its highest and lowest bit (R12). -/
structure Fld where
  hi : Nat
  lo : Nat
  deriving DecidableEq, Repr

/-- The value of a field. -/
def Fld.get (f : Fld) (w : Word) : Nat := w.toNat / 2 ^ f.lo % 2 ^ (f.hi + 1 - f.lo)

/-- The register word with a field replaced. -/
def Fld.put (f : Fld) (w : Word) (n : Nat) : Word :=
  BitVec.ofNat 32 (w.toNat - f.get w * 2 ^ f.lo + n % 2 ^ (f.hi + 1 - f.lo) * 2 ^ f.lo)

end Sys2Proof.Machine
end

