-- ==== Sys2Proof/Machine/Fields.lean ====
section
/-! DEFINITION. The fields of the registers, by the bit ranges of the register tables of spec/ (R12), and the values
that the tables give for reset (R9). A field's name is its register's name, an underscore and the field's own. -/

namespace Sys2Proof.Machine.F

/-- R80: bits 31 to 26. -/
abbrev coreColwidth_WIDTH : Fld := ⟨31, 26⟩
/-- R80: bit 25. -/
abbrev coreColwidth_RETIRED : Fld := ⟨25, 25⟩
/-- R80: bits 24 to 23. -/
abbrev coreColwidth_RETIRE_CAUSE : Fld := ⟨24, 23⟩
/-- R80: bit 22. -/
abbrev coreColwidth_BAD1_NEW : Fld := ⟨22, 22⟩
/-- R80: bit 21. -/
abbrev coreColwidth_BAD0_NEW : Fld := ⟨21, 21⟩
/-- R80: bit 20. -/
abbrev coreColwidth_BAD1_VALID : Fld := ⟨20, 20⟩
/-- R80: bits 19 to 15. -/
abbrev coreColwidth_BAD1_COL : Fld := ⟨19, 15⟩
/-- R80: bit 14. -/
abbrev coreColwidth_BAD0_VALID : Fld := ⟨14, 14⟩
/-- R80: bits 13 to 9. -/
abbrev coreColwidth_BAD0_COL : Fld := ⟨13, 9⟩
/-- R80: bits 31 to 16. -/
abbrev coreArrayStatus_SET_POISON : Fld := ⟨31, 16⟩
/-- R80: bit 11. -/
abbrev coreArrayStatus_ACC_PARITY : Fld := ⟨11, 11⟩
/-- R80: bit 10. -/
abbrev coreArrayStatus_OPERAND_PARITY : Fld := ⟨10, 10⟩
/-- R80: bit 9. -/
abbrev coreArrayStatus_ACC_NAN : Fld := ⟨9, 9⟩
/-- R80: bit 8. -/
abbrev coreArrayStatus_ACC_OVF : Fld := ⟨8, 8⟩
/-- R80: bits 6 to 4. -/
abbrev coreArrayStatus_RX_FREE : Fld := ⟨6, 4⟩
/-- R80: bit 3. -/
abbrev coreArrayStatus_LOAD_VALID : Fld := ⟨3, 3⟩
/-- R80: bit 2. -/
abbrev coreArrayStatus_DRAIN_BUSY : Fld := ⟨2, 2⟩
/-- R80: bit 1. -/
abbrev coreArrayStatus_HELD : Fld := ⟨1, 1⟩
/-- R80: bit 0. -/
abbrev coreArrayStatus_ACTIVE : Fld := ⟨0, 0⟩
/-- R80: bits 31 to 0. -/
abbrev coreArrayMacSlots_COUNT_LO : Fld := ⟨31, 0⟩
/-- R80: bits 31 to 0. -/
abbrev coreArrayMacSlots_COUNT_HI : Fld := ⟨31, 0⟩
/-- R80: bits 31 to 0. -/
abbrev coreArrayHoldOperand_SLOTS : Fld := ⟨31, 0⟩
/-- R80: bits 31 to 0. -/
abbrev coreArrayHoldDrain_SLOTS : Fld := ⟨31, 0⟩
/-- R80: bits 31 to 0. -/
abbrev coreArrayPoisonTag_TAG : Fld := ⟨31, 0⟩
/-- R103: bit 7. -/
abbrev coreQuantStatus_NAN_SEEN : Fld := ⟨7, 7⟩
/-- R103: bit 6. -/
abbrev coreQuantStatus_INF_SEEN : Fld := ⟨6, 6⟩
/-- R103: bit 5. -/
abbrev coreQuantStatus_UNDERUSE : Fld := ⟨5, 5⟩
/-- R103: bit 4. -/
abbrev coreQuantStatus_OVERFLOW : Fld := ⟨4, 4⟩
/-- R103: bit 3. -/
abbrev coreQuantStatus_SATURATED : Fld := ⟨3, 3⟩
/-- R103: bit 2. -/
abbrev coreQuantStatus_REDONE : Fld := ⟨2, 2⟩
/-- R103: bit 1. -/
abbrev coreQuantStatus_RECORD_ERR : Fld := ⟨1, 1⟩
/-- R103: bit 0. -/
abbrev coreQuantStatus_BUSY : Fld := ⟨0, 0⟩
/-- R103: bits 31 to 0. -/
abbrev coreQuantSaturated_COUNT : Fld := ⟨31, 0⟩
/-- R103: bits 31 to 0. -/
abbrev coreQuantRedone_COUNT : Fld := ⟨31, 0⟩
/-- R103: bits 31 to 0. -/
abbrev coreQuantEventTag_TAG : Fld := ⟨31, 0⟩
/-- R138: bits 20 to 16. -/
abbrev coreSeqStatus_EMPTY : Fld := ⟨20, 16⟩
/-- R138: bits 15 to 11. -/
abbrev coreSeqStatus_WAITING : Fld := ⟨15, 11⟩
/-- R138: bits 10 to 6. -/
abbrev coreSeqStatus_HELD : Fld := ⟨10, 6⟩
/-- R138: bit 5. -/
abbrev coreSeqStatus_FROZEN : Fld := ⟨5, 5⟩
/-- R138: bit 4. -/
abbrev coreSeqStatus_TOKEN_MISMATCH : Fld := ⟨4, 4⟩
/-- R138: bit 3. -/
abbrev coreSeqStatus_FLAG_OVERRUN : Fld := ⟨3, 3⟩
/-- R138: bit 2. -/
abbrev coreSeqStatus_EXEC_WAIT : Fld := ⟨2, 2⟩
/-- R138: bit 1. -/
abbrev coreSeqStatus_ACCESS_WAIT : Fld := ⟨1, 1⟩
/-- R138: bit 0. -/
abbrev coreSeqStatus_ACTIVE : Fld := ⟨0, 0⟩
/-- R138: bits 31 to 0. -/
abbrev coreHeadTag_TAG : Fld := ⟨31, 0⟩
/-- R138: bits 31 to 0. -/
abbrev coreVecHold_SLOTS : Fld := ⟨31, 0⟩
/-- R138: bits 31 to 0. -/
abbrev coreFlags_FLAGS_LO : Fld := ⟨31, 0⟩
/-- R138: bits 31 to 0. -/
abbrev coreFlags_FLAGS_HI : Fld := ⟨31, 0⟩
/-- R173: bit 8. -/
abbrev coreMemStatus_INIT_DONE : Fld := ⟨8, 8⟩
/-- R173: bit 7. -/
abbrev coreMemStatus_POISON_READ : Fld := ⟨7, 7⟩
/-- R173: bit 6. -/
abbrev coreMemStatus_PROMOTED : Fld := ⟨6, 6⟩
/-- R173: bits 3 to 0. -/
abbrev coreMemStatus_GATHER_USED : Fld := ⟨3, 0⟩
/-- R173: bits 31 to 0. -/
abbrev coreMemFrozen_CYCLES : Fld := ⟨31, 0⟩
/-- R173: bits 15 to 0. -/
abbrev coreMemWaitMax_CYCLES : Fld := ⟨15, 0⟩
/-- R213: bits 11 to 8. -/
abbrev coreUnfoldStatus_GEOM_CAUSE : Fld := ⟨11, 8⟩
/-- R213: bit 4. -/
abbrev coreUnfoldStatus_PAD_ONLY : Fld := ⟨4, 4⟩
/-- R213: bit 3. -/
abbrev coreUnfoldStatus_EXP_MISMATCH : Fld := ⟨3, 3⟩
/-- R213: bit 2. -/
abbrev coreUnfoldStatus_NAN_SEEN : Fld := ⟨2, 2⟩
/-- R213: bit 1. -/
abbrev coreUnfoldStatus_GEOM_ERR : Fld := ⟨1, 1⟩
/-- R213: bit 0. -/
abbrev coreUnfoldStatus_BUSY : Fld := ⟨0, 0⟩
/-- R213: bits 31 to 0. -/
abbrev coreUnfoldPadBlocks_COUNT : Fld := ⟨31, 0⟩
/-- R213: bits 31 to 0. -/
abbrev coreUnfoldReadLines_COUNT : Fld := ⟨31, 0⟩
/-- R213: bits 31 to 0. -/
abbrev coreUnfoldErrTag_TAG : Fld := ⟨31, 0⟩
/-- R55: bits 31 to 28. -/
abbrev ringManifestStatus_STATE : Fld := ⟨31, 28⟩
/-- R55: bits 27 to 24. -/
abbrev ringManifestStatus_CAUSE : Fld := ⟨27, 24⟩
/-- R55: bits 23 to 22. -/
abbrev ringManifestStatus_MODE : Fld := ⟨23, 22⟩
/-- R55: bits 21 to 20. -/
abbrev ringManifestStatus_PLACEMENT : Fld := ⟨21, 20⟩
/-- R55: bits 19 to 14. -/
abbrev ringManifestStatus_WIDTH : Fld := ⟨19, 14⟩
/-- R55: bit 13. -/
abbrev ringManifestStatus_SEALED : Fld := ⟨13, 13⟩
/-- R55: bit 12. -/
abbrev ringManifestStatus_AUDIT : Fld := ⟨12, 12⟩
/-- R55: bits 31 to 16. -/
abbrev ringResources_CORES : Fld := ⟨31, 16⟩
/-- R55: bits 15 to 8. -/
abbrev ringResources_SLICES : Fld := ⟨15, 8⟩
/-- R55: bits 31 to 24. -/
abbrev ringControl_KEY : Fld := ⟨31, 24⟩
/-- R55: bits 3 to 0. -/
abbrev ringControl_REQ : Fld := ⟨3, 0⟩
/-- R55: bit 5. -/
abbrev ringEvent_REFUSED : Fld := ⟨5, 5⟩
/-- R55: bit 4. -/
abbrev ringEvent_FAULTED : Fld := ⟨4, 4⟩
/-- R55: bit 3. -/
abbrev ringEvent_STOPPED : Fld := ⟨3, 3⟩
/-- R55: bit 2. -/
abbrev ringEvent_PARKED : Fld := ⟨2, 2⟩
/-- R55: bit 1. -/
abbrev ringEvent_RUNNING : Fld := ⟨1, 1⟩
/-- R55: bit 0. -/
abbrev ringEvent_FAILED : Fld := ⟨0, 0⟩
/-- R139: bit 31. -/
abbrev ringSeqStatus_RUNNING : Fld := ⟨31, 31⟩
/-- R139: bits 30 to 26. -/
abbrev ringSeqStatus_SLOT : Fld := ⟨30, 26⟩
/-- R139: bits 25 to 21. -/
abbrev ringSeqStatus_PENDING : Fld := ⟨25, 21⟩
/-- R139: bit 20. -/
abbrev ringSeqStatus_FLAG_OVERRUN : Fld := ⟨20, 20⟩
/-- R139: bit 19. -/
abbrev ringSeqStatus_DROPPED : Fld := ⟨19, 19⟩
/-- R139: bits 31 to 0. -/
abbrev ringFlags_FLAGS : Fld := ⟨31, 0⟩
/-- R139: bits 31 to 24. -/
abbrev ringFlagWrite_KEY : Fld := ⟨31, 24⟩
/-- R139: bit 8. -/
abbrev ringFlagWrite_OP : Fld := ⟨8, 8⟩
/-- R139: bits 7 to 0. -/
abbrev ringFlagWrite_INDEX : Fld := ⟨7, 0⟩
/-- R139: bits 31 to 0. -/
abbrev ringInvokeDropped_COUNT : Fld := ⟨31, 0⟩
/-- R139: bits 31 to 16. -/
abbrev ringHint_LATE : Fld := ⟨31, 16⟩
/-- R139: bit 3. -/
abbrev ringHint_ACTIVE : Fld := ⟨3, 3⟩
/-- R139: bits 2 to 0. -/
abbrev ringHint_CLASS : Fld := ⟨2, 0⟩
/-- R174: bits 31 to 0. -/
abbrev ringMwyRedirect_COUNT : Fld := ⟨31, 0⟩
/-- R238: bits 31 to 24. -/
abbrev ringCtxCtrl_KEY : Fld := ⟨31, 24⟩
/-- R238: bits 19 to 16. -/
abbrev ringCtxCtrl_OP : Fld := ⟨19, 16⟩
/-- R238: bits 11 to 0. -/
abbrev ringCtxCtrl_CONTEXT : Fld := ⟨11, 0⟩
/-- R238: bits 31 to 16. -/
abbrev ringCtxPool_BASE : Fld := ⟨31, 16⟩
/-- R238: bits 15 to 0. -/
abbrev ringCtxPool_UNITS : Fld := ⟨15, 0⟩
/-- R238: bits 31 to 19. -/
abbrev ringCtxPoolMwy_BASE : Fld := ⟨31, 19⟩
/-- R238: bits 18 to 6. -/
abbrev ringCtxPoolMwy_FRAMES : Fld := ⟨18, 6⟩
/-- R238: bits 21 to 0. -/
abbrev ringCtxFree_FRAMES : Fld := ⟨21, 0⟩
/-- R238: bits 12 to 0. -/
abbrev ringCtxFreeMwy_FRAMES : Fld := ⟨12, 0⟩
/-- R238: bit 6. -/
abbrev ringCtxEvent_SPILL_FULL : Fld := ⟨6, 6⟩
/-- R238: bit 5. -/
abbrev ringCtxEvent_POOL_SHORT : Fld := ⟨5, 5⟩
/-- R238: bit 4. -/
abbrev ringCtxEvent_LOST : Fld := ⟨4, 4⟩
/-- R238: bit 3. -/
abbrev ringCtxEvent_SWAPPED_IN : Fld := ⟨3, 3⟩
/-- R238: bit 2. -/
abbrev ringCtxEvent_PREEMPTED : Fld := ⟨2, 2⟩
/-- R238: bit 1. -/
abbrev ringCtxEvent_INVOKE_REFUSED : Fld := ⟨1, 1⟩
/-- R238: bit 0. -/
abbrev ringCtxEvent_REFUSED : Fld := ⟨0, 0⟩
/-- R238: bits 31 to 0. -/
abbrev ringCtxPagesOut_COUNT : Fld := ⟨31, 0⟩
/-- R238: bits 31 to 0. -/
abbrev ringCtxPagesIn_COUNT : Fld := ⟨31, 0⟩
/-- R238: bits 31 to 29. -/
abbrev ringCtxStatus_STATE : Fld := ⟨31, 29⟩
/-- R238: bits 28 to 25. -/
abbrev ringCtxStatus_CAUSE : Fld := ⟨28, 25⟩
/-- R238: bits 24 to 22. -/
abbrev ringCtxStatus_PRIORITY : Fld := ⟨24, 22⟩
/-- R238: bit 21. -/
abbrev ringCtxStatus_HOT_SHORT : Fld := ⟨21, 21⟩
/-- R238: bit 20. -/
abbrev ringCtxStatus_ABSENT_READ : Fld := ⟨20, 20⟩
/-- R174: bit 31. -/
abbrev mwySliceStatus_RETIRED : Fld := ⟨31, 31⟩
/-- R174: bit 30. -/
abbrev mwySliceStatus_OWNED : Fld := ⟨30, 30⟩
/-- R174: bits 29 to 27. -/
abbrev mwySliceStatus_RING : Fld := ⟨29, 27⟩
/-- R174: bit 26. -/
abbrev mwySliceStatus_INIT_DONE : Fld := ⟨26, 26⟩
/-- R174: bit 25. -/
abbrev mwySliceStatus_POISON_READ : Fld := ⟨25, 25⟩
/-- R174: bit 24. -/
abbrev mwySliceStatus_PROMOTED : Fld := ⟨24, 24⟩
/-- R174: bits 31 to 16. -/
abbrev mwyWaitMax_READ_CYCLES : Fld := ⟨31, 16⟩
/-- R174: bits 15 to 0. -/
abbrev mwyWaitMax_WRITE_CYCLES : Fld := ⟨15, 0⟩
/-- R195: bits 31 to 29. -/
abbrev ddrConfig_GRADE : Fld := ⟨31, 29⟩
/-- R195: bits 28 to 25. -/
abbrev ddrConfig_CHANNELS : Fld := ⟨28, 25⟩
/-- R195: bits 24 to 23. -/
abbrev ddrConfig_DENSITY : Fld := ⟨24, 23⟩
/-- R195: bits 22 to 21. -/
abbrev ddrConfig_WIDTH : Fld := ⟨22, 21⟩
/-- R195: bit 20. -/
abbrev ddrConfig_RANKS : Fld := ⟨20, 20⟩
/-- R195: bits 19 to 6. -/
abbrev ddrConfig_CAPACITY : Fld := ⟨19, 6⟩
/-- R195: bit 31. -/
abbrev ddrStatus_READY : Fld := ⟨31, 31⟩
/-- R195: bit 30. -/
abbrev ddrStatus_FAILED : Fld := ⟨30, 30⟩
/-- R195: bit 29. -/
abbrev ddrStatus_DOWNGRADED : Fld := ⟨29, 29⟩
/-- R195: bit 28. -/
abbrev ddrStatus_TRAINING_REUSED : Fld := ⟨28, 28⟩
/-- R195: bits 27 to 24. -/
abbrev ddrStatus_FAILED_CH : Fld := ⟨27, 24⟩
/-- R195: bit 23. -/
abbrev ddrStatus_HOT : Fld := ⟨23, 23⟩
/-- R195: bit 22. -/
abbrev ddrStatus_SCRUB_PASS : Fld := ⟨22, 22⟩
/-- R195: bit 31. -/
abbrev ddrScrubCtrl_ENABLE : Fld := ⟨31, 31⟩
/-- R195: bits 15 to 0. -/
abbrev ddrScrubCtrl_PERIOD : Fld := ⟨15, 0⟩
/-- R195: bits 31 to 0. -/
abbrev ddrErrAddr_ADDR_LO : Fld := ⟨31, 0⟩
/-- R195: bits 4 to 0. -/
abbrev ddrErrAddr_ADDR_HI : Fld := ⟨4, 0⟩
/-- R195: bits 31 to 28. -/
abbrev ddrErrInfo_KIND : Fld := ⟨31, 28⟩
/-- R195: bits 27 to 20. -/
abbrev ddrErrInfo_OWNER_READ : Fld := ⟨27, 20⟩
/-- R195: bits 19 to 17. -/
abbrev ddrErrInfo_RING : Fld := ⟨19, 17⟩
/-- R195: bit 16. -/
abbrev ddrErrInfo_REQ_RING : Fld := ⟨16, 16⟩
/-- R195: bits 15 to 13. -/
abbrev ddrErrInfo_SUBCHANNEL : Fld := ⟨15, 13⟩
/-- R195: bits 31 to 16. -/
abbrev ddrErrCount0_CORRECTED : Fld := ⟨31, 16⟩
/-- R195: bits 15 to 0. -/
abbrev ddrErrCount0_UNCORRECTABLE : Fld := ⟨15, 0⟩
/-- R195: bits 31 to 16. -/
abbrev ddrErrCount1_GUARD : Fld := ⟨31, 16⟩
/-- R195: bits 15 to 8. -/
abbrev ddrErrCount1_TAG_FIXED : Fld := ⟨15, 8⟩
/-- R195: bits 7 to 0. -/
abbrev ddrErrCount1_STALE : Fld := ⟨7, 0⟩
/-- R195: bits 31 to 0. -/
abbrev ddrEcsCount_COUNT : Fld := ⟨31, 0⟩
/-- R195: bits 31 to 0. -/
abbrev ddrWaitMax_CYCLES : Fld := ⟨31, 0⟩
/-- R280: bits 31 to 30. -/
abbrev feRxStatus_MODE : Fld := ⟨31, 30⟩
/-- R280: bits 29 to 28. -/
abbrev feRxStatus_LANES : Fld := ⟨29, 28⟩
/-- R280: bits 27 to 19. -/
abbrev feRxStatus_RATE : Fld := ⟨27, 19⟩
/-- R280: bit 8. -/
abbrev feRxStatus_SOT_ERR : Fld := ⟨8, 8⟩
/-- R280: bit 7. -/
abbrev feRxStatus_OVERFLOW : Fld := ⟨7, 7⟩
/-- R280: bit 6. -/
abbrev feRxStatus_ECC_FIXED : Fld := ⟨6, 6⟩
/-- R280: bit 5. -/
abbrev feRxStatus_ECC_BAD : Fld := ⟨5, 5⟩
/-- R280: bit 4. -/
abbrev feRxStatus_CRC_ERR : Fld := ⟨4, 4⟩
/-- R280: bit 3. -/
abbrev feRxStatus_UNBOUND : Fld := ⟨3, 3⟩
/-- R280: bit 0. -/
abbrev feRxStatus_ACTIVE : Fld := ⟨0, 0⟩
/-- R280: bits 31 to 0. -/
abbrev feRxDropped_COUNT : Fld := ⟨31, 0⟩
/-- R280: bits 31 to 24. -/
abbrev feStreamCtrl_KEY : Fld := ⟨31, 24⟩
/-- R280: bits 3 to 0. -/
abbrev feStreamCtrl_OP : Fld := ⟨3, 0⟩
/-- R280: bits 31 to 30. -/
abbrev feStreamStatus_STATE : Fld := ⟨31, 30⟩
/-- R280: bits 29 to 27. -/
abbrev feStreamStatus_REFUSE_CAUSE : Fld := ⟨29, 27⟩
/-- R280: bits 26 to 24. -/
abbrev feStreamStatus_LAST_DROP : Fld := ⟨26, 24⟩
/-- R280: bits 23 to 20. -/
abbrev feStreamStatus_FILLED : Fld := ⟨23, 20⟩
/-- R280: bit 3. -/
abbrev feStreamStatus_TS_MISSING : Fld := ⟨3, 3⟩
/-- R280: bit 2. -/
abbrev feStreamStatus_MARKED : Fld := ⟨2, 2⟩
/-- R280: bit 1. -/
abbrev feStreamStatus_DROPPED : Fld := ⟨1, 1⟩
/-- R280: bit 0. -/
abbrev feStreamStatus_REFUSED : Fld := ⟨0, 0⟩
/-- R280: bits 31 to 0. -/
abbrev feStreamDropped_COUNT : Fld := ⟨31, 0⟩
/-- R280: bits 31 to 0. -/
abbrev feStreamTsLate_COUNT : Fld := ⟨31, 0⟩
/-- R280: bits 31 to 24. -/
abbrev cdcSessionCtrl_KEY : Fld := ⟨31, 24⟩
/-- R280: bits 3 to 0. -/
abbrev cdcSessionCtrl_OP : Fld := ⟨3, 0⟩
/-- R280: bits 31 to 30. -/
abbrev cdcSessionStatus_STATE : Fld := ⟨31, 30⟩
/-- R280: bits 29 to 26. -/
abbrev cdcSessionStatus_CAUSE : Fld := ⟨29, 26⟩
/-- R280: bits 25 to 23. -/
abbrev cdcSessionStatus_RING : Fld := ⟨25, 23⟩
/-- R280: bits 31 to 0. -/
abbrev cdcSessionWptr_OFFSET : Fld := ⟨31, 0⟩
/-- R280: bits 31 to 0. -/
abbrev cdcSessionRptr_OFFSET : Fld := ⟨31, 0⟩
/-- R280: bits 31 to 0. -/
abbrev cdcEncSkipped_COUNT : Fld := ⟨31, 0⟩
/-- R295: bits 31 to 24. -/
abbrev smpChanCtrl_KEY : Fld := ⟨31, 24⟩
/-- R295: bits 3 to 0. -/
abbrev smpChanCtrl_OP : Fld := ⟨3, 0⟩
/-- R295: bits 31 to 30. -/
abbrev smpChanStatus_STATE : Fld := ⟨31, 30⟩
/-- R295: bit 29. -/
abbrev smpChanStatus_MODE : Fld := ⟨29, 29⟩
/-- R295: bits 28 to 27. -/
abbrev smpChanStatus_OPEN_CAUSE : Fld := ⟨28, 27⟩
/-- R295: bits 26 to 23. -/
abbrev smpChanStatus_LAST_REASON : Fld := ⟨26, 23⟩
/-- R295: bits 22 to 16. -/
abbrev smpChanStatus_OCCUPANCY : Fld := ⟨22, 16⟩
/-- R295: bits 15 to 13. -/
abbrev smpChanStatus_RING : Fld := ⟨15, 13⟩
/-- R295: bit 3. -/
abbrev smpChanStatus_LATE : Fld := ⟨3, 3⟩
/-- R295: bit 2. -/
abbrev smpChanStatus_REFUSED : Fld := ⟨2, 2⟩
/-- R295: bit 1. -/
abbrev smpChanStatus_OPEN_REFUSED : Fld := ⟨1, 1⟩
/-- R295: bit 0. -/
abbrev smpChanStatus_BUSY : Fld := ⟨0, 0⟩
/-- R295: bits 31 to 16. -/
abbrev smpChanCost_AVG : Fld := ⟨31, 16⟩
/-- R295: bits 31 to 0. -/
abbrev smpChanLastBudget_CYCLES : Fld := ⟨31, 0⟩
/-- R295: bits 31 to 0. -/
abbrev smpChanDelivered_COUNT : Fld := ⟨31, 0⟩
/-- R295: bits 31 to 0. -/
abbrev smpChanRefused_COUNT : Fld := ⟨31, 0⟩
/-- R295: bits 31 to 0. -/
abbrev smpChanLate_COUNT : Fld := ⟨31, 0⟩
/-- R323: bit 31. -/
abbrev ethPortStatus_ENABLED : Fld := ⟨31, 31⟩
/-- R323: bit 30. -/
abbrev ethPortStatus_LINK : Fld := ⟨30, 30⟩
/-- R323: bit 29. -/
abbrev ethPortStatus_ROLE : Fld := ⟨29, 29⟩
/-- R323: bits 28 to 26. -/
abbrev ethPortStatus_QUALITY : Fld := ⟨28, 26⟩
/-- R323: bit 25. -/
abbrev ethPortStatus_PAUSED : Fld := ⟨25, 25⟩
/-- R323: bits 31 to 0. -/
abbrev ethPortCount_COUNT : Fld := ⟨31, 0⟩
/-- R324: bits 15 to 0. -/
abbrev trsEthertype_TYPE : Fld := ⟨15, 0⟩
/-- R324: bits 15 to 0. -/
abbrev trsIntBase_UNIT : Fld := ⟨15, 0⟩
/-- R324: bits 31 to 30. -/
abbrev trsEpConfig_CHUNK : Fld := ⟨31, 30⟩
/-- R324: bits 29 to 27. -/
abbrev trsEpConfig_PCP : Fld := ⟨29, 27⟩
/-- R324: bit 31. -/
abbrev trsEpStatus_BOUND : Fld := ⟨31, 31⟩
/-- R324: bit 30. -/
abbrev trsEpStatus_INTERNAL : Fld := ⟨30, 30⟩
/-- R324: bit 29. -/
abbrev trsEpStatus_SECURED : Fld := ⟨29, 29⟩
/-- R324: bit 28. -/
abbrev trsEpStatus_KEY_LIVE : Fld := ⟨28, 28⟩
/-- R324: bit 27. -/
abbrev trsEpStatus_PEER_KNOWN : Fld := ⟨27, 27⟩
/-- R324: bits 26 to 21. -/
abbrev trsEpStatus_CHANNEL : Fld := ⟨26, 21⟩
/-- R324: bits 19 to 18. -/
abbrev trsEpStatus_PORT : Fld := ⟨19, 18⟩
/-- R324: bits 17 to 12. -/
abbrev trsEpStatus_REASSEMBLY : Fld := ⟨17, 12⟩
/-- R324: bits 11 to 0. -/
abbrev trsEpStatus_VLAN : Fld := ⟨11, 0⟩
/-- R324: bits 31 to 0. -/
abbrev trsEpPeer_MAC_LO : Fld := ⟨31, 0⟩
/-- R324: bits 15 to 0. -/
abbrev trsEpPeer_MAC_HI : Fld := ⟨15, 0⟩
/-- R324: bits 31 to 0. -/
abbrev trsEpCount_COUNT : Fld := ⟨31, 0⟩
/-- R324: bits 31 to 24. -/
abbrev trsRstreamCtrl_KEY : Fld := ⟨31, 24⟩
/-- R324: bits 3 to 0. -/
abbrev trsRstreamCtrl_OP : Fld := ⟨3, 0⟩
/-- R324: bit 31. -/
abbrev trsRstreamStatus_ENABLED : Fld := ⟨31, 31⟩
/-- R324: bits 30 to 29. -/
abbrev trsRstreamStatus_REFUSE_CAUSE : Fld := ⟨30, 29⟩
/-- R324: bit 28. -/
abbrev trsRstreamStatus_HELD : Fld := ⟨28, 28⟩
/-- R324: bit 1. -/
abbrev trsRstreamStatus_OVERWROTE : Fld := ⟨1, 1⟩
/-- R324: bit 0. -/
abbrev trsRstreamStatus_REFUSED : Fld := ⟨0, 0⟩
/-- R324: bits 31 to 0. -/
abbrev trsRstreamCount_COUNT : Fld := ⟨31, 0⟩
/-- R324: bits 31 to 0. -/
abbrev trsSlotState_STATES : Fld := ⟨31, 0⟩
/-- R344: bits 31 to 29. -/
abbrev trzSystemStatus_STATE : Fld := ⟨31, 29⟩
/-- R344: bits 28 to 27. -/
abbrev trzSystemStatus_ROLE : Fld := ⟨28, 27⟩
/-- R344: bits 26 to 20. -/
abbrev trzSystemStatus_DEVICE : Fld := ⟨26, 20⟩
/-- R344: bits 19 to 12. -/
abbrev trzSystemStatus_COUNT : Fld := ⟨19, 12⟩
/-- R344: bits 11 to 9. -/
abbrev trzSystemStatus_DEPTH : Fld := ⟨11, 9⟩
/-- R344: bits 8 to 7. -/
abbrev trzSystemStatus_UPLINK : Fld := ⟨8, 7⟩
/-- R344: bits 31 to 24. -/
abbrev trzSystemCtrl_KEY : Fld := ⟨31, 24⟩
/-- R344: bits 3 to 0. -/
abbrev trzSystemCtrl_OP : Fld := ⟨3, 0⟩
/-- R344: bit 1. -/
abbrev trzLagConfig_POLICY : Fld := ⟨1, 1⟩
/-- R344: bit 0. -/
abbrev trzLagConfig_ENABLE : Fld := ⟨0, 0⟩
/-- R344: bits 31 to 0. -/
abbrev trzDistribution_DEVICES : Fld := ⟨31, 0⟩
/-- R344: bits 31 to 25. -/
abbrev trzLagEvent_DEVICE : Fld := ⟨31, 25⟩
/-- R344: bit 24. -/
abbrev trzLagEvent_REMOVED : Fld := ⟨24, 24⟩
/-- R344: bit 23. -/
abbrev trzLagEvent_REPORTED : Fld := ⟨23, 23⟩
/-- R344: bits 31 to 28. -/
abbrev trzRemoteStatus_STATUS : Fld := ⟨31, 28⟩
/-- R344: bits 27 to 25. -/
abbrev trzRemoteStatus_RING : Fld := ⟨27, 25⟩
/-- R344: bits 24 to 18. -/
abbrev trzRemoteStatus_DEVICE : Fld := ⟨24, 18⟩
/-- R344: bit 17. -/
abbrev trzRemoteStatus_LOST : Fld := ⟨17, 17⟩
/-- R344: bit 16. -/
abbrev trzRemoteStatus_DENIED : Fld := ⟨16, 16⟩
/-- R344: bits 31 to 29. -/
abbrev trzPortStatus_STATE : Fld := ⟨31, 29⟩
/-- R344: bits 28 to 27. -/
abbrev trzPortStatus_PORT_ROLE : Fld := ⟨28, 27⟩
/-- R344: bits 26 to 20. -/
abbrev trzPortStatus_FIRST : Fld := ⟨26, 20⟩
/-- R344: bits 19 to 13. -/
abbrev trzPortStatus_LAST : Fld := ⟨19, 13⟩
/-- R344: bit 12. -/
abbrev trzPortStatus_SUBTREE_VALID : Fld := ⟨12, 12⟩
/-- R344: bits 31 to 0. -/
abbrev trzPortCount_COUNT : Fld := ⟨31, 0⟩
/-- R345: bits 31 to 9. -/
abbrev trzWindowBase_ADDR_LO : Fld := ⟨31, 9⟩
/-- R345: bit 31. -/
abbrev trzWindowBase_DRAM : Fld := ⟨31, 31⟩
/-- R345: bits 4 to 0. -/
abbrev trzWindowBase_ADDR_HI : Fld := ⟨4, 0⟩
/-- R345: bits 31 to 0. -/
abbrev trzWindowLength_UNITS : Fld := ⟨31, 0⟩
/-- R345: bits 31 to 0. -/
abbrev trzWindowPermit_DEVICES : Fld := ⟨31, 0⟩
/-- R345: bits 31 to 24. -/
abbrev trzWindowAttr_REMOTE_RINGS : Fld := ⟨31, 24⟩
/-- R345: bits 23 to 16. -/
abbrev trzWindowAttr_FLAG : Fld := ⟨23, 16⟩
/-- R345: bit 3. -/
abbrev trzWindowAttr_LAG : Fld := ⟨3, 3⟩
/-- R345: bit 2. -/
abbrev trzWindowAttr_SET_FLAG : Fld := ⟨2, 2⟩
/-- R345: bit 1. -/
abbrev trzWindowAttr_WRITE : Fld := ⟨1, 1⟩
/-- R345: bit 0. -/
abbrev trzWindowAttr_READ : Fld := ⟨0, 0⟩
/-- R345: bits 31 to 24. -/
abbrev trzWindowCtrl_KEY : Fld := ⟨31, 24⟩
/-- R345: bits 3 to 0. -/
abbrev trzWindowCtrl_OP : Fld := ⟨3, 0⟩
/-- R345: bits 31 to 30. -/
abbrev trzWindowStatus_STATE : Fld := ⟨31, 30⟩
/-- R345: bits 29 to 27. -/
abbrev trzWindowStatus_RING : Fld := ⟨29, 27⟩
/-- R345: bits 26 to 25. -/
abbrev trzWindowStatus_REFUSE_CAUSE : Fld := ⟨26, 25⟩
/-- R345: bit 0. -/
abbrev trzWindowStatus_REFUSED : Fld := ⟨0, 0⟩
/-- R345: bits 31 to 0. -/
abbrev trzWindowCount_COUNT : Fld := ⟨31, 0⟩
/-- R368: bits 31 to 29. -/
abbrev bootStatus_STAGE : Fld := ⟨31, 29⟩
/-- R368: bit 28. -/
abbrev bootStatus_SLOT : Fld := ⟨28, 28⟩
/-- R368: bit 27. -/
abbrev bootStatus_TRIAL : Fld := ⟨27, 27⟩
/-- R368: bit 26. -/
abbrev bootStatus_RECOVERY : Fld := ⟨26, 26⟩
/-- R368: bit 25. -/
abbrev bootStatus_CONFIRMING : Fld := ⟨25, 25⟩
/-- R368: bit 24. -/
abbrev bootStatus_TIE : Fld := ⟨24, 24⟩
/-- R368: bits 23 to 20. -/
abbrev bootStatus_HALT_CAUSE : Fld := ⟨23, 20⟩
/-- R368: bits 31 to 0. -/
abbrev bootVersion_VERSION : Fld := ⟨31, 0⟩
/-- R368: bits 31 to 29. -/
abbrev bootSlotState_STATE : Fld := ⟨31, 29⟩
/-- R368: bit 28. -/
abbrev bootSlotState_VALID : Fld := ⟨28, 28⟩
/-- R368: bits 27 to 24. -/
abbrev bootSlotState_INVALID_CAUSE : Fld := ⟨27, 24⟩
/-- R368: bits 23 to 22. -/
abbrev bootSlotState_TRIALS : Fld := ⟨23, 22⟩
/-- R368: bits 21 to 18. -/
abbrev bootSlotState_FAIL_CAUSE : Fld := ⟨21, 18⟩
/-- R368: bits 31 to 0. -/
abbrev bootSlotVersion_VALUE : Fld := ⟨31, 0⟩
/-- R368: bits 31 to 0. -/
abbrev bootSlotSeq_VALUE : Fld := ⟨31, 0⟩
/-- R368: bit 31. -/
abbrev bootNet_ARMED : Fld := ⟨31, 31⟩
/-- R368: bits 15 to 0. -/
abbrev bootNet_REMAIN : Fld := ⟨15, 0⟩
/-- R368: bits 31 to 24. -/
abbrev bootControl_KEY : Fld := ⟨31, 24⟩
/-- R368: bits 3 to 0. -/
abbrev bootControl_OP : Fld := ⟨3, 0⟩
/-- R368: bits 31 to 12. -/
abbrev bootInstallSrc_ADDR_LO : Fld := ⟨31, 12⟩
/-- R368: bits 4 to 0. -/
abbrev bootInstallSrc_ADDR_HI : Fld := ⟨4, 0⟩
/-- R368: bits 31 to 0. -/
abbrev bootInstallLen_BYTES : Fld := ⟨31, 0⟩
/-- R368: bits 31 to 30. -/
abbrev bootInstallStatus_STATE : Fld := ⟨31, 30⟩
/-- R368: bits 29 to 26. -/
abbrev bootInstallStatus_CAUSE : Fld := ⟨29, 26⟩
/-- R368: bit 5. -/
abbrev bootEvent_FELL_BACK : Fld := ⟨5, 5⟩
/-- R368: bit 4. -/
abbrev bootEvent_ROM_READ : Fld := ⟨4, 4⟩
/-- R368: bit 3. -/
abbrev bootEvent_REVOKE_REFUSED : Fld := ⟨3, 3⟩
/-- R368: bit 2. -/
abbrev bootEvent_INSTALL_REFUSED : Fld := ⟨2, 2⟩
/-- R368: bit 1. -/
abbrev bootEvent_INSTALLED : Fld := ⟨1, 1⟩
/-- R368: bit 0. -/
abbrev bootEvent_CONFIRMED : Fld := ⟨0, 0⟩
/-- R368: bits 31 to 0. -/
abbrev bootRomReads_COUNT : Fld := ⟨31, 0⟩
/-- R387: bit 31. -/
abbrev flsStatus_READY : Fld := ⟨31, 31⟩
/-- R387: bit 30. -/
abbrev flsStatus_INHIBIT : Fld := ⟨30, 30⟩
/-- R387: bits 29 to 27. -/
abbrev flsStatus_ANCHORS : Fld := ⟨29, 27⟩
/-- R387: bit 26. -/
abbrev flsStatus_TABLE_VALID : Fld := ⟨26, 26⟩
/-- R387: bit 25. -/
abbrev flsStatus_SCRUBBING : Fld := ⟨25, 25⟩
/-- R387: bit 3. -/
abbrev flsStatus_INTERRUPTED : Fld := ⟨3, 3⟩
/-- R387: bit 2. -/
abbrev flsStatus_RETIRED : Fld := ⟨2, 2⟩
/-- R387: bit 1. -/
abbrev flsStatus_UNCORRECTABLE : Fld := ⟨1, 1⟩
/-- R387: bits 31 to 30. -/
abbrev flsGeometry_DEVICES : Fld := ⟨31, 30⟩
/-- R387: bits 29 to 27. -/
abbrev flsGeometry_PAGES_LOG : Fld := ⟨29, 27⟩
/-- R387: bits 15 to 0. -/
abbrev flsGeometry_BAD : Fld := ⟨15, 0⟩
/-- R387: bits 31 to 0. -/
abbrev flsCount_COUNT : Fld := ⟨31, 0⟩
/-- R387: bits 31 to 24. -/
abbrev flsCtrl_KEY : Fld := ⟨31, 24⟩
/-- R387: bits 3 to 0. -/
abbrev flsCtrl_OP : Fld := ⟨3, 0⟩
/-- R387: bits 31 to 6. -/
abbrev flsRecordSrc_ADDR_LO : Fld := ⟨31, 6⟩
/-- R387: bits 4 to 0. -/
abbrev flsRecordSrc_ADDR_HI : Fld := ⟨4, 0⟩
/-- R387: bits 31 to 30. -/
abbrev flsRecordStatus_STATE : Fld := ⟨31, 30⟩
/-- R387: bits 29 to 27. -/
abbrev flsRecordStatus_CAUSE : Fld := ⟨29, 27⟩
/-- R416: bits 31 to 24. -/
abbrev pwrCap_WARN_CAP_W : Fld := ⟨31, 24⟩
/-- R416: bits 7 to 0. -/
abbrev pwrCap_CAP_W : Fld := ⟨7, 0⟩
/-- R416: bit 31. -/
abbrev pwrStatus_THERMAL_EMERGENCY : Fld := ⟨31, 31⟩
/-- R416: bit 30. -/
abbrev pwrStatus_DROOP_EMERGENCY : Fld := ⟨30, 30⟩
/-- R416: bit 29. -/
abbrev pwrStatus_SUPPLY_EMERGENCY : Fld := ⟨29, 29⟩
/-- R416: bit 28. -/
abbrev pwrStatus_CRITICAL : Fld := ⟨28, 28⟩
/-- R416: bit 27. -/
abbrev pwrStatus_CAP_EXCEEDED : Fld := ⟨27, 27⟩
/-- R416: bit 26. -/
abbrev pwrStatus_COLD_START : Fld := ⟨26, 26⟩
/-- R416: bit 25. -/
abbrev pwrStatus_LIVE_IMAGE : Fld := ⟨25, 25⟩
/-- R416: bit 24. -/
abbrev pwrStatus_TELEMETRY : Fld := ⟨24, 24⟩
/-- R416: bits 13 to 8. -/
abbrev pwrThrottleCause_SEEN : Fld := ⟨13, 8⟩
/-- R416: bits 5 to 0. -/
abbrev pwrThrottleCause_NOW : Fld := ⟨5, 0⟩
/-- R416: bits 31 to 16. -/
abbrev pwrPower_TOTAL : Fld := ⟨31, 16⟩
/-- R416: bits 15 to 0. -/
abbrev pwrPower_CORE : Fld := ⟨15, 0⟩
/-- R416: bits 31 to 16. -/
abbrev pwrVcore_REQUESTED : Fld := ⟨31, 16⟩
/-- R416: bits 15 to 0. -/
abbrev pwrVcore_MEASURED : Fld := ⟨15, 0⟩
/-- R416: bits 20 to 16. -/
abbrev pwrTemp_SENSOR : Fld := ⟨20, 16⟩
/-- R416: bits 15 to 0. -/
abbrev pwrTemp_HOTTEST : Fld := ⟨15, 0⟩
/-- R416: bit 31. -/
abbrev pwrTrim_DISABLED : Fld := ⟨31, 31⟩
/-- R416: bits 30 to 24. -/
abbrev pwrTrim_STEPS : Fld := ⟨30, 24⟩
/-- R416: bits 23 to 12. -/
abbrev pwrTrim_CEIL : Fld := ⟨23, 12⟩
/-- R416: bits 11 to 0. -/
abbrev pwrTrim_FLOOR : Fld := ⟨11, 0⟩
/-- R416: bits 31 to 12. -/
abbrev pwrUpdateSrc_ADDR_LO : Fld := ⟨31, 12⟩
/-- R416: bits 4 to 0. -/
abbrev pwrUpdateSrc_ADDR_HI : Fld := ⟨4, 0⟩
/-- R416: bits 31 to 0. -/
abbrev pwrUpdateLen_BYTES : Fld := ⟨31, 0⟩
/-- R416: bits 31 to 24. -/
abbrev pwrUpdateCtrl_KEY : Fld := ⟨31, 24⟩
/-- R416: bits 3 to 0. -/
abbrev pwrUpdateCtrl_OP : Fld := ⟨3, 0⟩
/-- R416: bits 31 to 29. -/
abbrev pwrUpdateStatus_STATE : Fld := ⟨31, 29⟩
/-- R416: bits 28 to 25. -/
abbrev pwrUpdateStatus_CAUSE : Fld := ⟨28, 25⟩
/-- R416: bit 24. -/
abbrev pwrUpdateStatus_ADOPTED : Fld := ⟨24, 24⟩
/-- R416: bits 23 to 16. -/
abbrev pwrUpdateStatus_COUNT : Fld := ⟨23, 16⟩
/-- R416: bit 4. -/
abbrev pwrEvent_UPDATE_REJECTED : Fld := ⟨4, 4⟩
/-- R416: bit 3. -/
abbrev pwrEvent_UPDATE_DONE : Fld := ⟨3, 3⟩
/-- R416: bit 2. -/
abbrev pwrEvent_TRIM_CHANGED : Fld := ⟨2, 2⟩
/-- R416: bit 1. -/
abbrev pwrEvent_AGEING_LIMIT : Fld := ⟨1, 1⟩
/-- R416: bit 0. -/
abbrev pwrEvent_LOCKSTEP : Fld := ⟨0, 0⟩
/-- R416: bits 31 to 0. -/
abbrev pwrLockstepCount_COUNT : Fld := ⟨31, 0⟩
/-- R417: bits 31 to 30. -/
abbrev pwrRingCtrl_MODE : Fld := ⟨31, 30⟩
/-- R417: bits 11 to 0. -/
abbrev pwrRingCtrl_FIXED_MHZ : Fld := ⟨11, 0⟩
/-- R417: bits 31 to 20. -/
abbrev pwrRingStatus_FREQ_MHZ : Fld := ⟨31, 20⟩
/-- R417: bits 19 to 16. -/
abbrev pwrRingStatus_LIMIT : Fld := ⟨19, 16⟩
/-- R417: bits 15 to 8. -/
abbrev pwrRingStatus_POWER : Fld := ⟨15, 8⟩
/-- R417: bits 31 to 0. -/
abbrev pwrRingThrottleUs_US : Fld := ⟨31, 0⟩
/-- R417: bits 31 to 0. -/
abbrev pwrRingExcursion_US : Fld := ⟨31, 0⟩
/-- R440: bits 31 to 29. -/
abbrev secStatus_LIFECYCLE : Fld := ⟨31, 29⟩
/-- R440: bit 28. -/
abbrev secStatus_FULL : Fld := ⟨28, 28⟩
/-- R440: bit 27. -/
abbrev secStatus_KEY_READY : Fld := ⟨27, 27⟩
/-- R440: bit 26. -/
abbrev secStatus_RECORD_VALID : Fld := ⟨26, 26⟩
/-- R440: bits 25 to 24. -/
abbrev secStatus_POWER : Fld := ⟨25, 24⟩
/-- R440: bits 23 to 20. -/
abbrev secStatus_REVOKED : Fld := ⟨23, 20⟩
/-- R440: bit 19. -/
abbrev secStatus_KEY_CLASS : Fld := ⟨19, 19⟩
/-- R440: bits 15 to 0. -/
abbrev secEpoch_EPOCH : Fld := ⟨15, 0⟩
/-- R440: bits 31 to 0. -/
abbrev secDebugEpoch_EPOCH : Fld := ⟨31, 0⟩
/-- R440: bits 31 to 30. -/
abbrev secRingDebug_LEVEL : Fld := ⟨31, 30⟩
/-- R440: bits 29 to 26. -/
abbrev secRingDebug_DBG_RING : Fld := ⟨29, 26⟩
/-- R440: bits 25 to 23. -/
abbrev secRingDebug_DBG_EP : Fld := ⟨25, 23⟩
/-- R440: bits 7 to 0. -/
abbrev secRingDebug_KEYS_LIVE : Fld := ⟨7, 0⟩
/-- R440: bits 31 to 6. -/
abbrev secTokenSrc_ADDR_LO : Fld := ⟨31, 6⟩
/-- R440: bits 4 to 0. -/
abbrev secTokenSrc_ADDR_HI : Fld := ⟨4, 0⟩
/-- R440: bits 31 to 24. -/
abbrev secCtrl_KEY : Fld := ⟨31, 24⟩
/-- R440: bits 11 to 8. -/
abbrev secCtrl_ARG : Fld := ⟨11, 8⟩
/-- R440: bits 3 to 0. -/
abbrev secCtrl_OP : Fld := ⟨3, 0⟩
/-- R440: bits 31 to 30. -/
abbrev secResult_STATE : Fld := ⟨31, 30⟩
/-- R440: bits 29 to 26. -/
abbrev secResult_OP : Fld := ⟨29, 26⟩
/-- R440: bits 25 to 22. -/
abbrev secResult_CAUSE : Fld := ⟨25, 22⟩
/-- R440: bit 5. -/
abbrev secEvent_STORE_HELD : Fld := ⟨5, 5⟩
/-- R440: bit 4. -/
abbrev secEvent_LIFECYCLE_CHANGED : Fld := ⟨4, 4⟩
/-- R440: bit 3. -/
abbrev secEvent_DEBUG_ENDED : Fld := ⟨3, 3⟩
/-- R440: bit 2. -/
abbrev secEvent_TOKEN_INSTALLED : Fld := ⟨2, 2⟩
/-- R440: bit 1. -/
abbrev secEvent_KEY_REFUSED : Fld := ⟨1, 1⟩
/-- R440: bit 0. -/
abbrev secEvent_KEY_INSTALLED : Fld := ⟨0, 0⟩
/-- R440: bits 31 to 0. -/
abbrev secKeyRefused_COUNT : Fld := ⟨31, 0⟩
/-- R457: bits 31 to 29. -/
abbrev dbgTraceCtrl_MODE : Fld := ⟨31, 29⟩
/-- R457: bit 28. -/
abbrev dbgTraceCtrl_FREEZE : Fld := ⟨28, 28⟩
/-- R457: bits 27 to 25. -/
abbrev dbgTraceCtrl_SYNC_LOG : Fld := ⟨27, 25⟩
/-- R457: bits 24 to 20. -/
abbrev dbgTraceCtrl_QUEUES : Fld := ⟨24, 20⟩
/-- R457: bit 19. -/
abbrev dbgTraceCtrl_DEBUG : Fld := ⟨19, 19⟩
/-- R457: bits 18 to 16. -/
abbrev dbgTraceCtrl_ENDPOINT : Fld := ⟨18, 16⟩
/-- R457: bits 15 to 1. -/
abbrev dbgTraceCtrl_EVENTS : Fld := ⟨15, 1⟩
/-- R457: bits 31 to 16. -/
abbrev dbgTraceDump_DUMP_UNIT : Fld := ⟨31, 16⟩
/-- R457: bits 15 to 8. -/
abbrev dbgTraceDump_DUMP_UNITS : Fld := ⟨15, 8⟩
/-- R457: bits 31 to 0. -/
abbrev dbgTraceWptr_OFFSET : Fld := ⟨31, 0⟩
/-- R457: bits 31 to 0. -/
abbrev dbgTraceLost_COUNT : Fld := ⟨31, 0⟩
/-- R457: bits 31 to 24. -/
abbrev dbgRingCtrl_KEY : Fld := ⟨31, 24⟩
/-- R457: bits 16 to 12. -/
abbrev dbgRingCtrl_QUEUES : Fld := ⟨16, 12⟩
/-- R457: bits 11 to 4. -/
abbrev dbgRingCtrl_CORE : Fld := ⟨11, 4⟩
/-- R457: bits 3 to 0. -/
abbrev dbgRingCtrl_OP : Fld := ⟨3, 0⟩
/-- R457: bits 31 to 2. -/
abbrev dbgAccAddr_ADDR_LO : Fld := ⟨31, 2⟩
/-- R457: bits 31 to 30. -/
abbrev dbgAccAddr_TARGET : Fld := ⟨31, 30⟩
/-- R457: bits 29 to 26. -/
abbrev dbgAccAddr_CORE : Fld := ⟨29, 26⟩
/-- R457: bits 4 to 0. -/
abbrev dbgAccAddr_ADDR_HI : Fld := ⟨4, 0⟩
/-- R457: bits 31 to 0. -/
abbrev dbgAccData_DATA : Fld := ⟨31, 0⟩
/-- R457: bit 31. -/
abbrev dbgAccStatus_HALTED : Fld := ⟨31, 31⟩
/-- R457: bit 1. -/
abbrev dbgAccStatus_REFUSED : Fld := ⟨1, 1⟩
/-- R457: bit 0. -/
abbrev dbgAccStatus_POISON : Fld := ⟨0, 0⟩
/-- R456: bits 31 to 0. -/
abbrev errDevFaultRecord_WORD : Fld := ⟨31, 0⟩
/-- R456: bits 31 to 0. -/
abbrev errDevFaultPop_SEQ : Fld := ⟨31, 0⟩
/-- R456: bits 31 to 24. -/
abbrev errDevFaultStatus_HELD : Fld := ⟨31, 24⟩
/-- R456: bits 23 to 8. -/
abbrev errDevFaultStatus_LOST : Fld := ⟨23, 8⟩
/-- R456: bit 0. -/
abbrev errDevFaultStatus_FAULTING : Fld := ⟨0, 0⟩
/-- R456: bits 31 to 16. -/
abbrev errCoreEcc_CORRECTED : Fld := ⟨31, 16⟩
/-- R456: bits 15 to 0. -/
abbrev errCoreEcc_UNCORRECTABLE : Fld := ⟨15, 0⟩
/-- R456: bits 31 to 16. -/
abbrev errSliceEcc_CORRECTED : Fld := ⟨31, 16⟩
/-- R456: bits 15 to 0. -/
abbrev errSliceEcc_UNCORRECTABLE : Fld := ⟨15, 0⟩
/-- R456: bits 31 to 0. -/
abbrev errSliceScrub_FIXED : Fld := ⟨31, 0⟩
/-- R456: bits 31 to 0. -/
abbrev errRingFaultRecord_WORD : Fld := ⟨31, 0⟩
/-- R456: bits 31 to 0. -/
abbrev errRingFaultPop_SEQ : Fld := ⟨31, 0⟩
/-- R456: bits 31 to 24. -/
abbrev errRingFaultStatus_HELD : Fld := ⟨31, 24⟩
/-- R456: bits 23 to 8. -/
abbrev errRingFaultStatus_LOST : Fld := ⟨23, 8⟩
/-- R456: bit 0. -/
abbrev errRingFaultStatus_FAULTING : Fld := ⟨0, 0⟩
/-- R456: bit 31. -/
abbrev errRingFaultCfg_PUSH : Fld := ⟨31, 31⟩
/-- R456: bit 30. -/
abbrev errRingFaultCfg_DEBUG : Fld := ⟨30, 30⟩
/-- R456: bits 29 to 27. -/
abbrev errRingFaultCfg_ENDPOINT : Fld := ⟨29, 27⟩

end Sys2Proof.Machine.F

namespace Sys2Proof.Machine

/-- The control space after reset: every register whose reset value in the tables is not 0 (R9). -/
def regsReset : SparseMap 32 :=
  [(0x04000008, 0x80000018), (0x0A00000C, 0xFFFFFFFF), (0x0A000010, 0xFFFFFFFF), (0x0A000014, 0xFFFFFFFF), (0x0A000018, 0xFFFFFFFF), (0x0D000000, 0x28000096), (0x0D100000, 0x400007D0), (0x0D101000, 0x400007D0), (0x0D102000, 0x400007D0), (0x0D103000, 0x400007D0), (0x0D104000, 0x400007D0), (0x0D105000, 0x400007D0)] ++
  [(0x0D106000, 0x400007D0), (0x0D107000, 0x400007D0), (0x0F100000, 0x17F0FFFA), (0x0F101000, 0x17F0FFFA), (0x0F102000, 0x17F0FFFA), (0x0F103000, 0x17F0FFFA), (0x0F104000, 0x17F0FFFA), (0x0F105000, 0x17F0FFFA), (0x0F106000, 0x17F0FFFA), (0x0F107000, 0x17F0FFFA), (0x0F108000, 0x17F0FFFA), (0x0F109000, 0x17F0FFFA)] ++
  [(0x0F10A000, 0x17F0FFFA), (0x0F10B000, 0x17F0FFFA), (0x0F10C000, 0x17F0FFFA), (0x0F10D000, 0x17F0FFFA), (0x0F10E000, 0x17F0FFFA), (0x0F10F000, 0x17F0FFFA)]

end Sys2Proof.Machine
end

