-- ==== Sys2Proof/Machine/State/Core.lean ====
section
/-! DEFINITION. The state of one compute core that software does not reach as a register (R58 to R63, R97, R104 to
R109, R118, R124, R134, R144, R154, R228, R450). The core's registers stand in the control space (State.lean).
The bracket that ends a field's docstring gives its rules, the files of spec/ that hold them, its width and its value
after reset. -/

namespace Sys2Proof.Machine

/-- What the command at the head of a queue, or of a sequencer, waits for (R129, R131). `busy` is a wait that does
not count as blocked: an occupied engine, a busy drain path, a wait on an event flag. -/
inductive WaitKind where
  | flag | dataQueue | fullQueue | gate | busy
  deriving DecidableEq, Repr

/-- A waiting command: its tag, the kind and the index of R131; for kind 3 the queue into which it waits to push and the
cores whose queue is full (R109, R129); for kind 1 whether the wait consumes the flag (R126). -/
structure Wait where
  tag     : Tag
  kind    : WaitKind
  index   : Nat
  queue   : Nat
  full    : BitVec 16 := 0
  consume : Bool := false
  deriving DecidableEq, Repr

/-- How far a unit's test of a flag beyond a crossing has come (R127): none is out, it is on its way or waits at the flag,
or its answer has come back with the flag's value. -/
inductive Probe where
  | idle | asked
  | answered (v : Bool)
  deriving DecidableEq, Repr

/-- What a test asks of a flag (R125, R126): a wait, a wait that consumes, or a SKIP's look, which never waits. -/
inductive TestKind where
  | wait | consume | look
  deriving DecidableEq, Repr

/-- An operation on a core flag that reaches it in a slot (R126, R127): the slot, the flag, and whether it sets. -/
structure FlagOp where
  slot : Nat
  flag : Fin 64
  set  : Bool
  deriving DecidableEq, Repr

/-- One engine queue of a core (R104, R105). -/
structure EngineQueue where
  /-- The tags of the commands in the queue, head first. [R104 R138 | 05 | 64 entries of 32 bits | empty] -/
  tags    : List Tag := []
  /-- What the head of the queue waits for. [R105 R129 | 05 | kind and index | none] -/
  wait    : Option Wait := none
  /-- The slot in which the occupancy of the queue's last command ends. [R105 | 05 | a slot number | 0] -/
  free    : Nat := 0
  /-- The next command is the first of its invocation in this queue. [R105 | 05 | 1 bit | 1] -/
  fresh   : Bool := true
  /-- The queue has passed END in this invocation. [R114 | 05 | 1 bit | 0] -/
  ended   : Bool := false
  /-- The programmed position of the end of the queue's last command. [R117 | 05 | a slot count | 0] -/
  prog    : Nat := 0
  /-- A STEP of a halted ring lets the queue issue its next command. [R455 | 19 | 1 bit | 0] -/
  stepNow : Bool := false
  /-- The head's test of a ring flag. [R127 | 05 | none, out or answered | none] -/
  probe   : Probe := .idle
  deriving DecidableEq, Repr

/-- A sequencer or a ringmaster (R107, R109). -/
structure Sequencer where
  /-- The repetitions left of each loop that is running, innermost first. [R111 R482 | 05 | depth 4, 24 bits each | empty] -/
  loops : List Nat := []
  /-- What the sequencer waits for. [R129 R138 | 05 | kind and index | none] -/
  wait  : Option Wait := none
  /-- The stream has passed END, or its last command, in this invocation. [R111 R114 | 05 | 1 bit | 0] -/
  ended : Bool := false
  /-- The command's test of a flag beyond a crossing. [R127 | 05 | none, out or answered | none] -/
  probe : Probe := .idle
  deriving DecidableEq, Repr

/-- A receive entry of the vector engine (R72, R73); its 4 KiB stand in the operand space. -/
structure RxEntry where
  /-- Reserved by a DRAIN, or full and not released. [R73 | 03 | 1 bit | 0] -/
  held     : Bool := false
  /-- The slot from which a vector command may read it. [R72 | 03 | a slot number | 0] -/
  readable : Nat := 0
  /-- The slot from which a DRAIN may name it. [R73 | 03 | a slot number | 0] -/
  free     : Nat := 0
  /-- The drain delivered poisoned values. [R79 | 03 | 1 bit | 0] -/
  poisoned : Bool := false
  deriving DecidableEq, Repr

/-- A write of an accumulator set that is not yet visible (R65): the set, the slot from which it is visible, its
1,024 values, whether the set is poisoned by it, whether it replaces the set (an OVERWRITE STEP or an ACC_LOAD), so
that a clean one clears the set's poison (R79), and whether it writes an overflow or a NaN (R78). -/
structure AccWrite where
  set      : Nat
  slot     : Nat
  values   : List Word
  poisoned : Bool
  replaces : Bool
  ovf      : Bool
  nan      : Bool
  deriving DecidableEq, Repr

/-- A write of vector registers that is not yet visible (R118): the first register, the slot, and the 128 lanes of
each register. -/
structure VecWrite where
  reg  : Nat
  slot : Nat
  data : List (List Word)
  deriving DecidableEq, Repr

/-- What the shadow scoreboard holds of an issued command (R117, R121): its tag, its programmed position, the class
of R66 (1 a 1-slot STEP, 2 a 4-slot STEP, 3 an ACC_LOAD; 0 on the vector engine), the first set or register that it
writes, how many, and the distance from which the write is visible. -/
structure AuditRec where
  tag   : Tag
  pos   : Nat
  cls   : Nat
  first : Nat
  count : Nat
  vis   : Nat
  deriving DecidableEq, Repr

/-- An entry of the gathering buffer (R154): its line, its bytes (byte i in bits 8i+7 to 8i) and their valid mask. -/
structure GatherEntry where
  line : Nat
  data : BitVec 512
  mask : BitVec 64
  deriving DecidableEq, Repr

/-- An end of a transfer whose address has been resolved (R111, R149, R167, R228, R339): rows of a sequence page lie at
`base + (first + i) * pitch + offset`, `per` bytes of each; `gone` is an ABSENT page. -/
inductive Place where
  | cm (addr : Nat) (pat : Pattern)
  | mwy (addr : Nat)
  | dram (addr : Nat)
  | buf (b : FillBuf) (addr : Nat)
  | rows (dram : Bool) (base first pitch offset per : Nat)
  | gone
  | remote (device window : Byte) (offset : Nat) (setFlag : Bool)
  deriving DecidableEq, Repr

/-- A transfer (R111): its resolved ends, its length, the generation that its writes stamp and the one that its reads
expect (R183), how many of its bytes a remote transfer has asked for (R339), and the 16-bit format of which the exponents
go with the blocks that it fills (R88). -/
structure Transfer where
  src       : Place
  dst       : Place
  bytes     : Nat
  gen       : BitVec 16
  expectGen : Option (BitVec 16)
  asked     : Nat
  fill      : Option ArrFmt
  deriving DecidableEq, Repr

/-- A command that an access-side engine has started and not completed (R108, R141, R152): its tag, the marks and the
completion still due, how many remote replies it waits for, and its transfer where it is remote (R339). -/
structure EngineBusy where
  tag   : Tag
  marks : Option (Buf × BitVec 16)
  done  : Completion
  wait  : Nat
  job   : Option Transfer
  /-- Its work is done, and the engine waits to push its READY token (R108, R129). -/
  finished : Bool := false
  deriving DecidableEq, Repr

/-- An entry of a local DMA engine's translation cache (R228): a context, a logical page and its page-table entry. -/
structure Translation where
  ctx   : Nat
  page  : Nat
  entry : DWord
  deriving DecidableEq, Repr

/-- A scale record in the record cache (R97): its core-memory address and its 64 bytes. -/
structure CachedRecord where
  addr  : Nat
  bytes : List Byte
  deriving DecidableEq, Repr

/-- A power hint in force (R134, R135): its class, the slot of its issue and the slot in which its phase ends. -/
structure ActiveHint where
  cls  : Nat
  at_  : Nat
  stop : Nat
  deriving DecidableEq, Repr

/-- A trace record (R450): 16 bytes of tag, count, event and operand. -/
structure TraceRec where
  tag     : Tag
  count   : Count48
  event   : BitVec 16
  operand : Word
  deriving DecidableEq, Repr

/-- One compute core. -/
structure Core where
  /-- The operand space: W-buffer 0x00000, A-buffer 0x40000, exponent files of W 0x80000 and A 0x84000, drain-scale file 0x88000, load latch 0x89000, receive entry e at 0x8A000 + 0x1000 e. [R59 R62 R72 R73 | 03 | 568 KiB of bytes | every byte 0: DESIGN CHOICE, log 4 (the spec gives no contents)] -/
  opnd : SparseMap 8 := []
  /-- The parity of an operand-space byte does not match (1), so that R79 applies. [R79 R443 | 03 19 | 1 bit per byte | 0] -/
  opndBad : SparseMap 1 := []
  /-- The accumulators: value (r, c) of set s at 1024 s + 32 r + c. [R61 | 03 | 16 sets of 1,024 FP32 | +0.0 by R61] -/
  acc : SparseMap 32 := []
  /-- Mismatched parity bits of an accumulator, one for each byte. [R61 R79 | 03 | 4 bits per accumulator | 0] -/
  accBad : SparseMap 4 := []
  /-- Accumulator sets that are poisoned (SET_POISON). [R79 R80 | 03 | 16 bits | 0 by R80 SET_POISON] -/
  setPoison : BitVec 16 := 0
  /-- Accumulator writes in the pipeline, in issue order. [R64 R65 | 03 | a list | empty] -/
  accPend : List AccWrite := []
  /-- Valid marks of the W-buffer's regions. [R59 R69 R147 | 03 06 | 16 bits | every region invalid by R147] -/
  wValid : BitVec 16 := 0
  /-- Valid marks of the A-buffer's regions. [R59 R69 R147 | 03 06 | 16 bits | every region invalid by R147] -/
  aValid : BitVec 16 := 0
  /-- Valid marks of the drain-scale file's groups of 16 entries. [R69 R73 | 03 | 4 bits | invalid: DESIGN CHOICE, log 4] -/
  dsValid : BitVec 4 := 0
  /-- The load latch is marked valid, from slot `latchFrom` on. [R62 R69 R80 | 03 | 1 bit | 0 by R80 LOAD_VALID] -/
  latchValid : Bool := false
  /-- The slot from which the latch's mark stands. [R111 | 05 | a slot number | 0] -/
  latchFrom : Nat := 0
  /-- The four receive entries. [R73 R80 | 03 | 4 entries | all free by R80 RX_FREE] -/
  rx : Vector RxEntry 4 := .replicate 4 {}
  /-- The slot from which the drain path is free. [R73 | 03 | a slot number | 0] -/
  drainFree : Nat := 0
  /-- The first slot in which no STEP is in the pipeline any more. [R64 R80 | 03 | a slot number | 0] -/
  pipeUntil : Nat := 0
  /-- The first slot after the last slot that a STEP occupies. [R80 | 03 | a slot number | 0] -/
  macUntil : Nat := 0
  /-- The slot from which no REQUANT or SCALE_CLOSE is in progress. [R103 | 04 | a slot number | 0] -/
  quantUntil : Nat := 0
  /-- The vector registers: lane l of v(n) at 128 n + l. [R118 | 05 | 64 registers of 128 lanes of 32 bits | every lane 0: DESIGN CHOICE, log 4 (the spec gives none)] -/
  vregs : SparseMap 32 := []
  /-- Vector-register writes not yet visible, in issue order. [R118 | 05 | a list | empty] -/
  vPend : List VecWrite := []
  /-- The vector engine's NaN flag: a result has been a NaN. [R218 | 09 | 1 bit | 0: DESIGN CHOICE, log 116] -/
  vecNan : Bool := false
  /-- The present slot of the execute side, counted from reset. [R63 | 03 | a count | 0] -/
  slot : Nat := 0
  /-- The five engine queues: DMA, unfold, store, array, vector. [R104 | 05 | 5 queues of 64 | empty by R138 EMPTY] -/
  queues : Vector EngineQueue 5 := .replicate 5 {}
  /-- The access sequencer. [R107 | 05 | one sequencer | idle] -/
  access : Sequencer := {}
  /-- The execute sequencer. [R107 | 05 | one sequencer | idle] -/
  execute : Sequencer := {}
  /-- The data queues DQ0 to DQ7, head first. [R108 | 05 | 8 queues of 32 entries of 32 bits | empty] -/
  dqs : Vector (List DqEntry) 8 := .replicate 8 []
  /-- The core flags. [R124 R138 | 05 | 64 bits | 0 by R138 CORE_FLAGS] -/
  flags : BitVec 64 := 0
  /-- Sets and clears of core flags that have been issued and have not reached the flag, in issue order. [R126 R127 | 05 | a list | empty] -/
  flagPend : List FlagOp := []
  /-- The ringmaster's wait that has arrived at a core flag: the flag, and whether it consumes. [R125 R127 | 05 | one test | none] -/
  masterTest : Option (Fin 64 × Bool) := none
  /-- The shadow scoreboard over accumulator sets, latest command first. [R121 | 05 | a list | empty] -/
  auditArr : List AuditRec := []
  /-- The shadow scoreboard over vector registers, latest command first. [R121 | 05 | a list | empty] -/
  auditVec : List AuditRec := []
  /-- Core memory. [R144 R147 | 06 | 8 MiB of bytes | 0 by R147] -/
  mem : SparseMap 8 := []
  /-- Poisoned 32-byte words of core memory. [R146 R443 | 06 19 | 1 bit per word | 0] -/
  memBad : SparseMap 1 := []
  /-- Error masks of the symbols of core-memory words: symbol i of word w at 36 w + i, the 4 check symbols last; a code as written has none. [R140 R146 | 06 | 8 bits per symbol | 0] -/
  memFlips : SparseMap 8 := []
  /-- Words that the decoder has corrected (false) or found uncorrectable (true) in the present command and that are still to be counted (the model's own field: empty between commands). [R442 | 19 | a list | empty] -/
  ecc : List (Nat × Bool) := []
  /-- The gathering buffer, from the entry written longest ago. [R154 R155 | 06 | 8 entries of a 64-byte line, its address and a 64-bit mask | empty by R173 GATHER_USED] -/
  gather : List GatherEntry := []
  /-- The quantiser's record cache, latest use first. [R97 | 04 | 4 records of 64 bytes | empty] -/
  recs : List CachedRecord := []
  /-- The DMA engine's translation cache, latest fill first. [R228 | 09 | 64 entries | empty] -/
  tlb : List Translation := []
  /-- The DMA command in flight. [R111 R130 | 05 | one command | none] -/
  dmaBusy : Option EngineBusy := none
  /-- The unfold-engine command in flight. [R196 R213 | 08 | one command | none] -/
  unfoldBusy : Option EngineBusy := none
  /-- The store-engine command in flight. [R152 | 06 | one command | none] -/
  storeBusy : Option EngineBusy := none
  /-- The power hint in force on the core. [R134 R135 | 05 | class and phase | none] -/
  hint : Option ActiveHint := none
  /-- The trace records held, oldest first. [R450 | 19 | 4,096 records of 16 bytes | empty] -/
  trace : List TraceRec := []
  /-- Records lost since the previous LOST record. [R451 | 19 | a count | 0] -/
  traceLost : Nat := 0
  /-- The core's count in which its buffer last took a record, and the records that it took in that cycle. [R450 | 19 | 48 bits and 0 to 2 | 0] -/
  traceAt : BitVec 48 := 0
  /-- See `traceAt`. [R450 | 19 | 0 to 2 | 0] -/
  traceIn : Nat := 0
  /-- The number of the last batch that STREAM sent. [R452 | 19 | 32 bits | 0] -/
  traceBatch : Nat := 0
  deriving DecidableEq, Repr

end Sys2Proof.Machine
end

