-- ==== Sys2Proof/Machine/State/Ring.lean ====
section
/-! DEFINITION. The state of one ring (R36 to R57, R112 to R114, R124, R221 to R237, R306, R314 to R316, R447) that
software does not reach as a register. -/

namespace Sys2Proof.Machine

/-- A program slot of a ring (R46, R112, R113): its trigger, and the variant loaded, by width, offset and length. -/
structure Program where
  slot   : Nat
  kind   : Nat
  arg    : Nat
  width  : Nat
  offset : Nat
  length : Nat
  deriving DecidableEq, Repr

/-- The Tirsa message that an answer goes to (R305): its endpoint, TYPE, MSG_ID, GEN and ID. -/
structure Asker where
  endpoint : Fin 8
  type     : Byte
  msgId    : BitVec 16
  gen      : Byte
  id       : Word
  deriving DecidableEq, Repr

/-- An invocation (R114): its program slot, its 256-byte parameter block, its source timestamp (R316), the INVOKE
that asked for it where one did, and whether its sequence contexts are admitted (R231). -/
structure Invocation where
  slot     : Nat
  params   : List Byte
  stamp    : DWord
  asker    : Option Asker
  admitted : Bool
  deriving DecidableEq, Repr

/-- The state of a result slot (R315 to R318). -/
inductive SlotState where
  | empty | pending | ready | taken
  deriving DecidableEq, Repr

/-- A result slot (R315, R316, R319): its state, SERIAL, stream, length, TRUNCATED, timestamp, invocation ID, whether
RESULT or RESULT_NOTICE has gone out for it, and whether it is being sent. -/
structure ResultSlot where
  state     : SlotState
  serial    : Word
  stream    : Nat
  length    : Nat
  truncated : Bool
  stamp     : DWord
  invId     : Word
  notified  : Bool
  deriving DecidableEq, Repr

/-- A register write that a parked ring holds until RESUME (R51, R313). -/
structure HeldWrite where
  who   : Who
  addr  : Word
  value : Word
  deriving DecidableEq, Repr

/-- A PARAM_WRITE whose DONE_FLAG and reply a parked ring holds until RESUME (R51, R313). -/
structure HeldParam where
  asker : Asker
  flag  : Nat
  deriving DecidableEq, Repr

/-- A fault record (R445): 64 bytes; `ringByte` is the byte at 0x07 and `area` the bytes from 0x20. -/
structure FaultRec where
  tag      : Tag
  cause    : Byte
  island   : Byte
  inst     : Byte
  ringByte : Byte
  seq      : Word
  count    : Count48
  addr     : DWord
  area     : List Byte
  deriving DecidableEq, Repr

/-- The admission of the invocation at the head of the pending list (R231): the contexts it lists, and whether their
frames are reserved (step 6), and the candidates that it has passed over (R232). -/
structure Admission where
  ctxs     : List Nat
  reserved : Bool
  skipped  : List Nat
  deriving DecidableEq, Repr

/-- A page on its way to or from a spill target (R232, R233, R235): its logical page, whether it leaves, its frame (a
midway frame or a DRAM frame), whether the host holds it, how often it was asked for, the MSG_ID and GEN in use. -/
structure PageMove where
  page  : Nat
  out   : Bool
  tier  : Bool
  frame : Nat
  host  : Bool
  tries : Nat
  msgId : BitVec 16
  gen   : Byte
  deriving DecidableEq, Repr

/-- What the booth holds of a sequence context besides its registers (R223, R231 to R235): the endpoint that opened it,
the part of its reservation not used, the reservation of the admitted step that waits to start, the pages on the move,
whether CLOSE waits for the step or the pages in flight to end, whether the swap-out is to end after the pages in
flight, whether an admission waits for it, and whether its swap-in is a PREFETCH. -/
structure CtxInfo where
  endpoint : Option (Fin 8)
  reserve  : Nat
  next     : Nat
  moves    : List PageMove
  closing  : Bool
  ending   : Bool
  awaited  : Bool
  prefetch : Bool
  deriving DecidableEq, Repr

/-- A wait that has arrived at a ring flag and waits there (R126, R127): its unit, the flag, and whether it consumes. -/
structure FlagTest where
  unit    : SeqUnit
  flag    : Fin 256
  consume : Bool
  deriving DecidableEq, Repr

/-- One ring. -/
structure Ring where
  /-- The manifest as loaded, empty for an absent ring. [R42 R428 | 02 18 | 256 bytes | empty] -/
  manifest : List Byte := []
  /-- The ring's resources are bound to it. [R36 R49 R52 | 02 | 1 bit | 0] -/
  bound : Bool := false
  /-- STOP came while the ring was LOADING; PARK, RESUME and START in progress are told by STATE. [R54 | 02 | 1 bit | 0] -/
  abandon : Bool := false
  /-- The load in progress came of START, so that the ring runs when it is loaded. [R49 | 02 | 1 bit | 0] -/
  starting : Bool := false
  /-- The program slots loaded. [R46 R112 R113 | 02 05 | 32 slots | empty] -/
  programs : List Program := []
  /-- The invocation in progress. [R114 | 05 | one invocation | none by R139 RUNNING] -/
  current : Option Invocation := none
  /-- The pending list, head first. [R114 | 05 | 16 entries | empty by R139 PENDING] -/
  waiting : List Invocation := []
  /-- The admission in progress. [R231 | 09 | one | none] -/
  admission : Option Admission := none
  /-- The ring flags. [R124 R128 R139 | 05 | 256 bits | 0 by R139 RING_FLAGS] -/
  flags : BitVec 256 := 0
  /-- Waits of the ring's units that have arrived at their ring flags. [R126 R127 | 05 | a list | empty] -/
  tests : List FlagTest := []
  /-- The ringmaster that drives the ring. [R109 | 05 | one sequencer | idle] -/
  master : Sequencer := {}
  /-- What each of the ringmaster's four push ports waits for. [R109 R129 | 05 | 4 ports | none] -/
  ports : Vector (Option Wait) 4 := .replicate 4 none
  /-- The sequence contexts' open counter. [R223 | 09 | 32 bits | 1, its start at each ring load by R223] -/
  openCount : Word := 1
  /-- The next SERIAL of a result slot. [R315 | 13 | 32 bits | 1, its start at ring load by R315] -/
  serial : Word := 1
  /-- The number of the last stall. [R131 | 05 | 32 bits | 0: DESIGN CHOICE, log 4 (the spec gives no start)] -/
  stallSeq : Word := 0
  /-- The result slots that are not EMPTY, by slot number. [R314 R324 | 13 | 1,024 slots | every slot EMPTY by R324] -/
  slots : List (Nat × ResultSlot) := []
  /-- The slot that each result stream claimed last. [R315 | 13 | 16 of 10 bits | none] -/
  claimed : Vector (Option Nat) 16 := .replicate 16 none
  /-- Register writes held while the ring is parked, in arrival order. [R51 R313 | 02 13 | 256 operations | empty] -/
  held : List HeldWrite := []
  /-- PARAM_WRITEs whose flag and reply wait for RESUME. [R51 R313 | 02 13 | a list | empty] -/
  heldParams : List HeldParam := []
  /-- Page-table entries and swaps: the sequence contexts in use, by context number. [R221 to R233 | 09 | a list | empty] -/
  ctxs : List (Nat × CtxInfo) := []
  /-- The fault queue, head first. [R447 | 19 | 128 records of 64 bytes | empty by R456] -/
  faults : List FaultRec := []
  /-- The ring is halted by invasive debug. [R455 R457 | 19 | 1 bit | 0 by R457 HALTED] -/
  halted : Bool := false
  deriving DecidableEq, Repr

end Sys2Proof.Machine
end

