-- ==== Sys2Proof/Machine/State/Io.lean ====
section
/-! DEFINITION. The state of the units that bring data in and carry results out: stream contexts and codecs (R258 to
R279), sample channels (R281 to R294), Tirsa endpoints (R301 to R322), trapeze links (R327 to R342), DRAM (R177 to
R193), that software does not reach as a register. -/

namespace Sys2Proof.Machine

/-- A frame that a stream context is receiving, or has received and not delivered (R261 to R268): its buffer, its
CSI_FRAME and START_COUNT, its timestamp, STATUS, BAD_LINES and LINES, the input lines of an ISP frame and the rows of each
plane written so far, the ranges of an ETH payload, OUT_BYTES, whether an image line and an embedded-data packet have come,
whether it waits for a host timestamp, and whether its view has been written. -/
structure OpenFrame where
  buffer   : Nat
  number   : BitVec 16
  start    : Count48
  stamp    : Option DWord
  status   : BitVec 16
  bad      : Nat
  count    : Nat
  lines    : List (List Byte)
  rows     : Nat
  got      : List (Nat × Nat)
  outBytes : Nat
  sawLine  : Bool
  sawEmb   : Bool
  waitTs   : Bool
  view     : Bool
  deriving DecidableEq, Repr

/-- A view buffer that the encoder has not read yet (R277): its index and its frame's timestamp and FRAME_SEQ. -/
structure ViewFrame where
  buffer : Nat
  stamp  : DWord
  seq    : Word
  deriving DecidableEq, Repr

/-- One stream context (R258); its descriptor, its shadow parameter set and its registers stand in the control space. -/
structure StreamCtx where
  /-- Frames delivered since ENABLE. [R260 R263 | 11 | 32 bits | 0: DESIGN CHOICE, log 4 (ENABLE sets it to 0)] -/
  frameSeq : Word := 0
  /-- The frame being received. [R262 R267 | 11 | one frame | none] -/
  opened : Option OpenFrame := none
  /-- Frames received whose delivery is due, oldest first. [R264 R268 | 11 | a list | empty] -/
  ready : List OpenFrame := []
  /-- FRAME_TIME entries held, oldest first. [R268 | 11 | 8 of a frame number and a timestamp | empty] -/
  times : List (BitVec 16 × DWord) := []
  /-- The frame numbers of the frames delivered since the numbers last fell, latest first. [R268 | 11 | 16 bits each |
  empty] -/
  delivered : List (BitVec 16) := []
  /-- The front end's count at the last accepted Frame Start. [R266 | 11 | 48 bits | none] -/
  lastStart : Option Count48 := none
  /-- A COMMIT waits for the next Frame Start. [R271 | 11 | 1 bit | 0] -/
  commit : Bool := false
  /-- The active ISP parameter set. [R271 | 11 | 8 KiB | every byte 0: DESIGN CHOICE, log 4 (the spec gives none)] -/
  ispActive : SparseMap 8 := []
  /-- View buffers filled and not yet read, oldest first. [R277 | 11 | a list | empty] -/
  views : List ViewFrame := []
  deriving DecidableEq, Repr

/-- A picture that a decoder holds until its turn in display order (R273, R278): its unit's timestamp, its decode sequence
number, its bytes and whether it is DAMAGED. -/
structure Picture where
  stamp   : DWord
  seq     : BitVec 16
  bytes   : List Byte
  damaged : Bool
  deriving DecidableEq, Repr

/-- One codec session (R274 to R278); its descriptor and registers stand in the control space. -/
structure CodecSession where
  /-- The next header sets SKIPPED_BEFORE. [R277 | 11 | 1 bit | 0] -/
  skipped : Bool := false
  /-- The next unit is encoded as intra. [R277 | 11 | 1 bit | 0] -/
  intra : Bool := false
  /-- Pictures are marked DAMAGED until the next random access point. [R278 | 11 | 1 bit | 0] -/
  damaged : Bool := false
  /-- The decode sequence number of the next picture. [R263 | 11 | 16 bits | 0: DESIGN CHOICE, log 4] -/
  seq : BitVec 16 := 0
  /-- Decoded pictures whose turn in display order has not come, in decode order. [R273 | 11 | a list | empty] -/
  held : List Picture := []
  /-- Pictures due in display order that wait for a free buffer, first in front. [R273 R278 | 11 | a list | empty] -/
  due : List Picture := []
  deriving DecidableEq, Repr

/-- A staged sample (R284 to R290): its staging slot, its message, its 64-byte header and augmentation record, the
payload ranges received, the buffer and the budget once the decoder or the copy engine has taken it. -/
structure Sample where
  slot   : Nat
  msgId  : BitVec 16
  header : List Byte
  aug    : List Byte
  got    : List (Nat × Nat)
  taken  : Option Nat
  budget : Nat
  deriving DecidableEq, Repr

/-- One sample channel (R281); its descriptor and registers stand in the control space. -/
structure Channel where
  /-- The staged samples and the sample in progress, in the order in which their headers passed. [R285 R287 | 12 | 64 slots | empty] -/
  samples : List Sample := []
  /-- The cost history, oldest first. [R283 R288 | 12 | 16 counts | empty (OPEN fills it)] -/
  history : List Nat := []
  /-- Samples delivered since OPEN. [R283 R290 | 12 | 32 bits | 0: DESIGN CHOICE, log 4 (OPEN sets it to 0)] -/
  seq : Word := 0
  deriving DecidableEq, Repr

/-- A message being reassembled (R307): its header fields, the ranges received, the end that the LAST chunk names, and
the bytes kept; for PARAM_WRITE the bytes go straight to memory and `addr` and `total` say where, and for SAMPLE_DATA `total`
names the staging slot. A message that has been refused is kept until its last chunk. -/
structure Reassembly where
  msgId : BitVec 16
  gen   : Byte
  type  : Byte
  id    : Word
  stamp : DWord
  got   : List (Nat × Nat)
  last  : Option Nat
  body  : SparseMap 8
  addr  : DWord
  total : Nat
  flag  : Nat
  refused : Bool
  deriving DecidableEq, Repr

/-- A message that the L9 sends (R303, R305, R321): its header fields, its body, its class (0 replies and
SAMPLE_STATUS, 1 page messages, 2 results and MEM_READ data), the places of its poisoned bytes, and how many bytes of the
body have passed on already. -/
structure Msg where
  cls      : Nat
  type     : Byte
  msgId    : BitVec 16
  gen      : Byte
  reply    : Bool
  bad      : List Nat
  status   : Nat
  id       : Word
  stamp    : DWord
  body     : List Byte
  offset   : Nat
  deriving DecidableEq, Repr

/-- A frame passed to an Ethernet MAC (R299, R301, R303): destination, source, VID and PCP of its C-tag, packet number of
its SecTAG, EtherType, and payload; a MACsec frame's payload stands here before encryption. -/
structure TxFrame where
  dst       : BitVec 48
  src       : BitVec 48
  tag       : Option (Nat × Nat)
  packet    : Option DWord
  etherType : BitVec 16
  payload   : List Byte
  deriving DecidableEq, Repr

/-- One Tirsa endpoint, instance 8 × ring + endpoint (R299); its registers stand in the control space. -/
structure Endpoint where
  /-- LAST[id] of every message ID. [R306 | 13 | 65,536 bytes | 0: DESIGN CHOICE, log 4 (zeroed when the ring loads)] -/
  last : SparseMap 8 := []
  /-- The MSG_ID counter of the L9's own messages. [R306 | 13 | 16 bits | 0: DESIGN CHOICE, log 4 (the spec gives no start)] -/
  msgId : BitVec 16 := 0
  /-- The GEN of the L9's own messages. [R306 | 13 | 8 bits | 1, its start at ring load by R306] -/
  gen : Byte := 1
  /-- The messages being reassembled. [R307 | 13 | 16 | none by R324 REASSEMBLY] -/
  reasm : List Reassembly := []
  /-- The CAK and its CKN. [R301 R430 R432 | 13 18 | 32 and 32 bytes | none] -/
  cak : Option (List Byte × List Byte) := none
  /-- Frames secured under the live SAK: the next packet number. [R301 | 13 | 64 bits | 1: PRESUMED (IEEE 802.1AE), log 19] -/
  pn : DWord := 1
  /-- Frames received under the live SAK: the packet number after the highest accepted one. [R301 | 13 | 64 bits | 1: PRESUMED (IEEE 802.1AE), log 19] -/
  rxNext : DWord := 1
  /-- MKPDUs sent (the model's record of its output). [R301 | 13 | a count | 0] -/
  mkpdus : Nat := 0
  /-- Messages that wait for a peer address, for traffic or for room. [R317 R321 R322 | 13 | a list | empty] -/
  queue : List Msg := []
  /-- Messages passed to the MAC, or to the internal endpoint's outbound area, in order (the model's record of its output). [R321 R322 | 13 | a list | empty] -/
  sent : List Msg := []
  deriving DecidableEq, Repr

/-- A remote request that waits for its reply (R339, R340): its transaction number, the core and tag of its command,
direction, target, length, and the place of its bytes in the transfer. -/
structure RemoteReq where
  txn    : BitVec 16
  core   : Fin 16
  tag    : Tag
  write  : Bool
  device : Byte
  window : Byte
  offset : Nat
  bytes  : Nat
  pos    : Nat
  deriving DecidableEq, Repr

/-- A packet on its way out: its KIND and its contents (R328). -/
structure TxPacket where
  kind : Nat
  body : Packet
  deriving DecidableEq, Repr

/-- One trapeze port (R327 to R330). -/
structure TrzPort where
  /-- The training is complete: the lanes are locked and the roles of both ends fit. [R327 R335 | 14 | 1 bit | 0] -/
  linkUp : Bool := false
  /-- The lanes are locked and the FEC is aligned in the training under way. [R327 | 14 | 1 bit | 0] -/
  locked : Bool := false
  /-- HELLO has gone out in that training. [R327 R332 | 14 | 1 bit | 0] -/
  helloSent : Bool := false
  /-- The role that the other end's HELLO gave in that training. [R327 R332 | 14 | 8 bits | none] -/
  peer : Option Nat := none
  /-- The port is EXCLUDED until the next numbering, whatever its link does meanwhile. [R333 | 14 | 1 bit | 0] -/
  excluded : Bool := false
  /-- The link has been DOWN since the last numbering, so that it carries only HELLO. [R335 | 14 | 1 bit | 0] -/
  helloOnly : Bool := false
  /-- The SEQ of the next packet sent. [R330 | 14 | 16 bits | 0: DESIGN CHOICE, log 4 (the spec gives no start)] -/
  txSeq : BitVec 16 := 0
  /-- The SEQ that is expected next from the other end. [R330 | 14 | 16 bits | 0: DESIGN CHOICE, log 4 (the spec gives no start)] -/
  expect : BitVec 16 := 0
  /-- A NAK has gone out since the last accepted packet. [R330 | 14 | 1 bit | 0] -/
  nakSent : Bool := false
  /-- The replay buffer, oldest first. [R330 | 14 | 256 packets | empty] -/
  replay : List TxPacket := []
  /-- How often each packet of the replay buffer has been resent since the last retrain. [R330 | 14 | 256 of 0 to 8 | empty] -/
  resends : List Nat := []
  /-- Consecutive retrains with that packet unacknowledged. [R330 | 14 | 0 to 3 | 0] -/
  retrains : Nat := 0
  /-- Credit held for the other end's buffers, by virtual channel. [R329 | 14 | 3 of 512 flits | 512: DEDUCED, log 20] -/
  credit : Vector Nat 3 := .replicate 3 512
  /-- Credit to return to the other end. [R329 | 14 | 3 counts | 0] -/
  owed : Vector Nat 3 := .replicate 3 0
  /-- Packets received for another device that wait for the handshake FIFO towards the port they leave by, with that port.
  [R329 R331 | 14 | 512 flits for each virtual channel | empty] -/
  rx : List (Fin 4 × TxPacket) := []
  /-- The device's own packets that wait for credit or for the port. [R329 | 14 | a list | empty] -/
  waiting : List TxPacket := []
  /-- Packets sent, in order (the model's record of its output). [R328 | 14 | a list | empty] -/
  sent : List TxPacket := []
  deriving DecidableEq, Repr

/-- What the booth holds of a worker for lag measurement (R342): its arrivals (booth cycles, oldest first), the steps
decided for it, and its streak: its start and whether it was reported. -/
structure LagWorker where
  device   : Nat
  arrivals : List Nat
  decided  : Nat
  streak   : Option (Nat × Bool)
  deriving DecidableEq, Repr

/-- A QUOTE_REQUEST that waits for a worker's answer (R341): the device asked, the ring and the message to answer, and
what of the reply body has come. -/
structure QuoteRelay where
  device : Byte
  ring   : Fin 8
  asker  : Asker
  body   : List Byte
  deriving DecidableEq, Repr

/-- The trapeze block beyond its ports. -/
structure Trz where
  /-- The four ports. [R325 R327 | 14 | 4 ports | idle] -/
  ports : Vector TrzPort 4 := .replicate 4 {}
  /-- Remote requests outstanding. [R339 | 14 | 1,024 | none] -/
  remotes : List RemoteReq := []
  /-- The transaction number of the next request. [R328 | 14 | 16 bits | 0: DESIGN CHOICE, log 4 (the spec gives no start)] -/
  nextTxn : BitVec 16 := 0
  /-- The downlink whose NUMBERED is awaited. [R333 | 14 | a port | none] -/
  numbering : Option (Fin 4) := none
  /-- The next FIRST to give. [R333 | 14 | 8 bits | 0] -/
  nextFirst : Nat := 0
  /-- The LIMIT in force. [R333 | 14 | 8 bits | 0] -/
  limit : Nat := 0
  /-- Relayed QUOTE_REQUESTs. [R341 | 14 | a list | empty] -/
  relays : List QuoteRelay := []
  /-- Lag measurement, worker by worker. [R342 | 14 | a list | empty] -/
  workers : List LagWorker := []
  /-- The times t_1, t_2, … that have formed. [R342 | 14 | booth cycles | empty] -/
  stepTimes : List Nat := []
  /-- Workers removed. [R342 | 14 | 32 bits | 0] -/
  removals : Nat := 0
  deriving DecidableEq, Repr

/-- DRAM behind the four controllers. -/
structure Dram where
  /-- The line data. [R177 R179 | 07 | up to 128 GiB of bytes | every byte 0: DESIGN CHOICE, log 5 (the spec gives no contents)] -/
  data : SparseMap 8 := []
  /-- OWNER of the lines of a 16 MiB unit that `tag` does not list; their FLAGS and GEN are 0. [R181 R186 | 07 | 8 bits per unit | 0xFF, unowned: DESIGN CHOICE, log 5] -/
  unitOwner : SparseMap 8 := []
  /-- Line tags, by line: OWNER (7:0), FLAGS (15:8), GEN (31:16), and bit 32 set. [R181 | 07 | 32 bits per line | that of the unit] -/
  tag : SparseMap 33 := []
  /-- Bits of a burst that differ from what was written: burst byte b of line n at 80 n + b. [R179 R180 R184 | 07 | 80 bytes per line | 0] -/
  flips : SparseMap 8 := []
  /-- Lines queued for write-back. [R184 R190 R193 | 07 | a list | empty] -/
  writeBack : List Nat := []
  /-- Lines found bad by the running scrub pass. [R193 | 07 | a list | empty] -/
  scrubBad : List Nat := []
  deriving DecidableEq, Repr

/-- An operation on its way through a crossing (R23, R127, R331): a set or clear of a ring flag; a ringmaster's set or clear
of a core flag of every core of a mask; a unit's test of a ring flag, or a ringmaster's of a core flag, and its answer; a
hint; a trigger; a packet that a trapeze port forwards; a sync marker with the concourse's count (R453). -/
inductive CrossOp where
  | setFlag (ring : Fin 8) (n : Fin 256)
  | clearFlag (ring : Fin 8) (n : Fin 256)
  | coreFlag (ring : Fin 8) (cores : BitVec 16) (n : Fin 64) (set : Bool)
  | test (ring : Fin 8) (unit : SeqUnit) (n : Fin 256) (kind : TestKind)
  | coreTest (ring : Fin 8) (core : Fin 16) (n : Fin 64) (kind : TestKind)
  | answer (ring : Fin 8) (unit : SeqUnit) (v : Bool)
  | hint (ring : Fin 8) (core : Fin 16) (cls : Nat) (late : Bool)
  | trigger (ring : Fin 8) (kind arg : Nat) (stamp : DWord)
  | packet (p : TxPacket)
  | sync (count : BitVec 48)
  deriving DecidableEq, Repr

end Sys2Proof.Machine
end

