-- ==== Sys2Proof/Machine/State/Booth.lean ====
section
/-! DEFINITION. The state of the management side: boot (R350 to R367), boot flash (R369 to R386), booth power control
(R389 to R415), security processor (R418 to R438), pins and TAP (R459 to R476). -/

namespace Sys2Proof.Machine

/-- How far the security processor is after a restart (R350, R365, R472, R474): held in reset; stopped in Scrapped; the
ROM waits for the security store or for a slot header to be written (R385, R423); the recovery listener; handed over; Deep
standby. -/
inductive BootPhase where
  | inReset | stopped | romHeld | listener | handedOver | deepStandby
  deriving DecidableEq, Repr

/-- A recovery session (R366): its number, the image length and the next expected offset. -/
structure RecSession where
  session : BitVec 16
  total   : Nat
  next    : Nat
  deriving DecidableEq, Repr

/-- An install in progress (R363): the slot, the length and the version of the set, its INSTALL_SEQ. -/
structure InstallJob where
  slot    : Fin 2
  length  : Nat
  version : Word
  seq     : Word
  deriving DecidableEq, Repr

/-- What the security processor and the booth hold of the running image set (R350 to R367). -/
structure Boot where
  /-- Where the security processor stands. [R350 R471 R474 | 15 20 | one of six | in reset: PORESET_N is asserted, log 7] -/
  phase : BootPhase := .inReset
  /-- The raise of DEBUG_EPOCH that this start owes has not been made. [R424 | 18 | 1 bit | 0] -/
  owesEpoch : Bool := false
  /-- The ROM is locked. [R351 | 15 | 1 bit | 0] -/
  romLocked : Bool := false
  /-- The SHA-256 of the SEC_STAGE header. [R350 R428 | 15 18 | 32 bytes | empty] -/
  mSec : List Byte := []
  /-- The SHA-256 of the slot's BOOTH header. [R350 R428 | 15 18 | 32 bytes | empty] -/
  mBoothSlot : List Byte := []
  /-- The SHA-256 of the running booth image's header. [R411 R428 | 17 18 | 32 bytes | empty] -/
  mBoothRun : List Byte := []
  /-- The SHA-256 of the DEPLOYMENT header. [R350 R428 | 15 18 | 32 bytes | empty] -/
  mDeploy : List Byte := []
  /-- The length of the DEPLOYMENT copied into DRAM. [R360 R361 | 15 | bytes | 0] -/
  deployLen : Nat := 0
  /-- CONFIRM_RINGS of the running DEPLOYMENT. [R347 R359 | 15 | 8 bits | 0] -/
  confirmRings : Byte := 0
  /-- The integrator keys that verified the running DEPLOYMENT. [R435 | 18 | 388 bytes each | empty] -/
  deployKeys : List (List Byte) := []
  /-- The deployment directory has failed, so the internal endpoint carries nothing. [R361 | 15 | 1 bit | 0] -/
  dirBad : Bool := false
  /-- Application cores A0 to A7 run. [R360 R361 | 15 | 1 bit | 0] -/
  appRunning : Bool := false
  /-- The DRAM address at which A0 to A7 were started: APP_ENTRY in application-core region 0. [R361 | 15 | 64 bits | 0: DESIGN CHOICE, log 4 (set at their start)] -/
  appStart : BitVec 64 := 0
  /-- The TRIAL_S in force, and the oscillator cycles that the net still has. [R357 R368 | 15 | cycles | 0] -/
  netLeft : Nat := 0
  /-- The net is stopped and waits with CONFIRM. [R358 | 15 | 1 bit | 0] -/
  netStopped : Bool := false
  /-- A CONFIRM waits: 1 for the security store, 2 for the header write. [R358 | 15 | 2 bits | 0] -/
  confirmStep : Nat := 0
  /-- The MAC addresses of the ports in the port record. [R297 | 13 | 4 of 48 bits | 0: DESIGN CHOICE, log 4 (loaded at boot)] -/
  macs : Vector (BitVec 48) 4 := .replicate 4 0
  /-- The lane order of each receiver in the front-end record. [R255 R256 | 11 | 16 permutations | empty: DESIGN CHOICE, log
  4 (loaded at boot)] -/
  rxOrder : Vector (List Nat) 16 := .replicate 16 []
  /-- The lane polarity of each receiver in the front-end record. [R255 R256 | 11 | 16 of a bit per lane | empty: DESIGN
  CHOICE, log 4 (loaded at boot)] -/
  rxPolarity : Vector (List Bool) 16 := .replicate 16 []
  /-- The install in progress. [R363 | 15 | one | none] -/
  install : Option InstallJob := none
  /-- The recovery session. [R366 | 15 | one | none] -/
  session : Option RecSession := none
  /-- CAUSE of the recovery announcement. [R366 | 15 | 1 to 3 | 0] -/
  recCause : Nat := 0
  /-- The latest read of the locked ROM: its requester and the value that it was given (the model's record of its output).
  [R351 | 15 | one | none] -/
  romReply : Option (DWord × Word) := none
  deriving DecidableEq, Repr

/-- A slot header (R353, R378). -/
structure SlotHeader where
  state      : Nat
  trials     : Nat
  cause      : Nat
  version    : Word
  installSeq : Word
  hseq       : Word
  length     : Word
  deriving DecidableEq, Repr

/-- What follows once a slot header is written: nothing, the end of a confirmation (R358), of an install's copy (R363),
the reset of the safety net (R357), the restart after a DEPLOYMENT that fails (R362); in the ROM, the trial of a PENDING
slot, or a new choice after a slot has failed (R350, R356). -/
inductive HeaderNext where
  | plain | confirmed | installed | expired
  | restart (slot : Fin 2) (cause : Nat)
  | trial (slot : Fin 2) (tie : Bool)
  | fallen (slot : Fin 2) (cause : Nat)
  deriving DecidableEq, Repr

/-- What follows once a record is appended: nothing, the end of a WRITE_RECORD (R383), the reset of the safety net
(R357), the restart of R362. -/
inductive AppendNext where
  | plain | record | reset | restart
  deriving DecidableEq, Repr

/-- A write that waits for the flash, in the order of precedence of R386: a slot header; one page of an install; the
pages still to be appended to an area written as a ring of blocks (journal, trim journal, table, log), in a block of their
own where `fresh` says so; the erase of a block; the refresh of a block, which for a rescue ends in its retirement (R381,
R382). -/
inductive FlashJob where
  | header (slot : Fin 2) (h : SlotHeader) (next : HeaderNext)
  | install (index : Nat) (bytes : List Byte)
  | append (area : Nat) (pages : List (List Byte)) (fresh : Bool) (next : AppendNext)
  | erase (block : Nat)
  | refresh (block : Nat) (rescue : Bool)
  deriving DecidableEq, Repr

/-- An operation on the flash (R386): a page programmed with its tag; a block's pages copied to a free block; a block
erased. -/
inductive FlashStep where
  | program (page : Nat) (tag : BitVec 192) (bytes : List Byte)
  | copy (src dst : Nat)
  | erase (block : Nat)
  deriving DecidableEq, Repr

/-- The boot flash and its controller. A block has 128 places for its 64 or 128 pages: page p of block b is page
128 b + p. -/
structure Flash where
  /-- The main areas: byte a of page p at 4096 p + a. [R369 R370 | 16 | up to 16 GiB of bytes | every byte 0xFF: DESIGN CHOICE, log 5 (an erased part)] -/
  main : SparseMap 8 := []
  /-- The page tags, by page. [R371 R372 | 16 | 24 bytes per page | all ones: DESIGN CHOICE, log 5 (an erased part)] -/
  tags : SparseMap 192 := []
  /-- Error masks of the symbols of pages: symbol i of codeword k of page p at 884 (4 p + k) + i, the 60 check symbols
  last. [R371 | 16 | 10 bits per symbol | 0] -/
  flips : SparseMap 10 := []
  /-- Pages that a cut program or erase has left uncorrectable. [R373 R385 | 16 | a list | empty] -/
  unreadable : List Nat := []
  /-- The interface runs octal 8D-8D-8D; the part starts in 1S-1S-1S. [R369 | 16 | 1 bit | 0 by R369] -/
  octal : Bool := false
  /-- The part's JESD216 parameter table has been read. [R369 | 16 | 1 bit | 0] -/
  jesd216 : Bool := false
  /-- The part's on-die ECC is on. [R369 | 16 | 1 bit | 1: DESIGN CHOICE, log 5 (the L9 switches it off at start)] -/
  onDieEcc : Bool := true
  /-- Blocks with the factory bad-block mark: byte 0 of the spare area of page 0 was not 0xFF as the part was delivered.
  [R369 | 16 | a list | empty] -/
  factoryBad : List Nat := []
  /-- Blocks set in the bad-block table. [R380 R381 | 16 | 1 bit per block | empty] -/
  badBlocks : List Nat := []
  /-- Reads of a block since its last erase, from boot onward. [R382 | 16 | counts | 0] -/
  reads : SparseMap 32 := []
  /-- Erases of a block. [R372 R381 | 16 | counts | 0: DESIGN CHOICE, log 5 (a part never erased)] -/
  erases : SparseMap 32 := []
  /-- Blocks of which an erase was cut off, to be erased again before use. [R381 R385 | 16 | a list | empty] -/
  partials : List Nat := []
  /-- Writes that wait for the flash. [R386 | 16 | a list | empty] -/
  queue : List FlashJob := []
  /-- The operation in progress, with the write of which it is a step. [R386 | 16 | one | none] -/
  running : Option (FlashJob × FlashStep) := none
  /-- The operation that waits has been counted in FLS_COUNT k = 3. [R385 | 16 | 1 bit | 0] -/
  held : Bool := false
  /-- The governing anchor record. [R374 R375 | 16 | 128 bytes | empty] -/
  anchor : List Byte := []
  /-- Log entries pending. [R384 R385 | 16 | 128 of 32 bytes | empty] -/
  logPending : List (List Byte) := []
  /-- The SEQ of the next log entry. [R384 | 16 | 32 bits | 0: DESIGN CHOICE, log 4 (the spec gives no start)] -/
  logSeq : Word := 0
  /-- Log entries dropped while writes were inhibited. [R385 | 16 | a count | 0] -/
  logDropped : Nat := 0
  /-- VDD_IO18 is below 1.70 V. [R385 | 16 | 1 bit | 0] -/
  io18Low : Bool := false
  /-- PWR_WARN_N was deasserted, or the rail came back, less than 10 ms ago. [R385 | 16 | 1 bit | 0] -/
  resuming : Bool := false
  /-- The SEQ that the next record of an area takes at least, by AREA, from those given since boot. [R380 R383 | 16 | 8 of 32
  bits | 0] -/
  seqs : List Nat := List.replicate 8 0
  /-- A record write of R383 waits: its type. [R383 | 16 | one | none] -/
  record : Option Nat := none
  deriving DecidableEq, Repr

/-- What the booth holds for power and thermal control. -/
structure Power where
  /-- The thermal ceiling in MHz. [R403 | 17 | 400 to 2,300 | 2,300: DESIGN CHOICE, log 4 (the spec gives no start)] -/
  ceiling : Nat := 2300
  /-- Frequencies that wait for the voltage to settle, ring by ring; 0 for none. [R394 | 17 | 8 of MHz | 0] -/
  raise : Vector Nat 8 := .replicate 8 0
  /-- The targets of the last division, in mW. [R396 | 17 | 8 | 0] -/
  target : Vector Nat 8 := .replicate 8 0
  /-- PWR_RING_CTRL of each ring as the last power loop, or the start of the ring, took it. [R397 R417 | 17 | 8 of 32 bits | the
  reset value of PWR_RING_CTRL] -/
  ctrl : Vector Word 8 := .replicate 8 0x400007D0
  /-- Current limit and droop have throttled a ring in this period. [R406 R416 | 17 | 1 bit | 0] -/
  slowed : Bool := false
  /-- The droop allowance D in mV. [R398 | 17 | 0 to 35 | 0] -/
  droopD : Nat := 0
  /-- V_req in µV, as last requested. [R393 R464 | 17 20 | µV | 0 (PWR_VCORE.REQUESTED reads 0 by R416)] -/
  vReq : Nat := 0
  /-- V_req has been raised and the regulator has not reported it settled. [R394 | 17 | 1 bit | 0] -/
  settling : Bool := false
  /-- Hints that have reached the booth and wait for its handler: ring, core, class. [R398 | 17 | a list | empty] -/
  arrived : List (Fin 8 × Fin 16 × Nat) := []
  /-- The class in force of each core's hint, as the booth has it. [R135 R398 | 05 17 | 16 of 0 to 7 | 0] -/
  hints : Vector Nat 16 := .replicate 16 0
  /-- Cores that a droop detector stretches. [R400 | 17 | 16 bits | 0] -/
  droop : BitVec 16 := 0
  /-- The current limiter stretches every running core. [R401 | 17 | 1 bit | 0] -/
  current : Bool := false
  /-- Rings limited to 0.8 GHz by a thermal emergency. [R404 | 17 | 1 bit | 0] -/
  hotLimit : Bool := false
  /-- Power loops that the running image has run. [R412 | 17 | 32 bits | 0] -/
  loops : Nat := 0
  /-- Loops left in which a cold-started image grants no boost. [R414 | 17 | 10,000 loops are 1 s | 0] -/
  coldLoops : Nat := 0
  /-- Consecutive loops without an emergency. [R415 | 17 | a count | 0] -/
  stable : Nat := 0
  /-- Lockstep mismatches within 60 s of the first. [R389 | 17 | 0 to 3 | 0] -/
  mismatches : Nat := 0
  /-- The booth cores do not run: halted after a mismatch, or restarted. [R389 R413 | 17 | 1 bit | 0] -/
  halted : Bool := false
  /-- The hardware limits every ring to 1.0 GHz after a lockstep mismatch. [R389 | 17 | 1 bit | 0] -/
  lockLimit : Bool := false
  /-- The clocks of cores, ringmasters and slices are stopped until reset. [R389 R404 | 17 | 1 bit | 0] -/
  tripped : Bool := false
  /-- The active program memory: the BOOTH container it was loaded from. [R388 | 17 | 512 KiB | empty] -/
  active : List Byte := []
  /-- The shadow program memory. [R388 R411 | 17 | 512 KiB | empty] -/
  shadow : List Byte := []
  /-- The handoff record in the data memory. [R412 | 17 | up to 64 KiB of the 256 KiB data memory | empty] -/
  handoff : List Byte := []
  /-- Points whose trim is not written to the trim journal. [R410 | 17 | 8 bits | 0] -/
  unwritten : Byte := 0
  /-- The PMBus rail that the next thermal loop reads, in the order of R408's table. [R408 | 17 | 3 bits | 0: DESIGN CHOICE,
  log 4 (the spec gives no start)] -/
  rail : Fin 8 := 0
  /-- The PMBus rails that did not answer when they were last read. [R408 | 17 | 8 bits | 0] -/
  deaf : Byte := 0
  deriving DecidableEq, Repr

/-- A lifecycle request that waits for VDD_AON (R426). -/
structure SecRequest where
  op  : Nat
  deriving DecidableEq, Repr

/-- The security processor. -/
structure Security where
  /-- The security store. [R422 R423 | 18 | 16,384 bytes | every byte 0: a Blank device by R423, DESIGN CHOICE, log 5] -/
  store : SparseMap 8 := []
  /-- The governing copy of the signed device record. [R420 R421 | 18 | 11,840 bytes | empty] -/
  record : List Byte := []
  /-- The digests of the last 8 quotes issued, newest first. [R429 | 18 | 8 of 32 bytes | empty] -/
  quotes : List (List Byte) := []
  /-- VDD_AON is below 0.76 V. [R358 R423 | 15 18 | 1 bit | 0] -/
  aonLow : Bool := false
  /-- The lifecycle request that waits for VDD_AON. [R426 | 18 | one | none] -/
  request : Option SecRequest := none
  deriving DecidableEq, Repr

/-- The pins, the detectors behind them, and the TAP. -/
structure Pins where
  /-- PORESET_N is asserted. [R459 R471 | 20 | 1 bit | 1: the reset that this state is in, log 7] -/
  poreset : Bool := true
  /-- SYSRESET_N is asserted. [R459 R471 | 20 | 1 bit | 0] -/
  sysreset : Bool := false
  /-- PWR_WARN_N is asserted. [R462 | 20 | 1 bit | 0] -/
  warn : Bool := false
  /-- Rails below their detector's threshold: VDD_AON, VDD_IO18, VDD_SOC, VDD_SRAM, VDD_CORE. [R465 | 20 | 5 bits | 0] -/
  rails : BitVec 5 := 0
  /-- Consecutive bad REFCLK windows, while the reset of R470 is not held. [R470 | 20 | 0 to 2 | 0] -/
  refBad : Nat := 0
  /-- Consecutive good REFCLK windows, while it is held. [R470 | 20 | 0 to 10 | 0] -/
  refGood : Nat := 0
  /-- The REFCLK check holds the device in reset. [R470 | 20 | 1 bit | 0] -/
  refReset : Bool := false
  /-- SAFE_STATE_N is asserted. [R462 | 20 | 1 bit | 0] -/
  safeState : Bool := false
  /-- DSTBY_N is asserted. [R462 R474 | 20 | 1 bit | 0] -/
  dstby : Bool := false
  /-- A lockstep recovery asserts ALERT_N. [R389 R462 | 17 20 | 1 bit | 0] -/
  lockAlert : Bool := false
  /-- DnS_RESET_N is asserted. [R459 R471 | 20 | 1 bit | 1 by R459] -/
  dramReset : Bool := true
  /-- FLASH_RESET_N is asserted. [R459 R472 | 20 | 1 bit | 1 by R459] -/
  flashReset : Bool := true
  /-- The TAP's instruction register. [R475 R471 | 20 | 8 bits | 0x01, IDCODE: PRESUMED (IEEE 1149.1 Test-Logic-Reset), log 19] -/
  tapIr : Byte := 0x01
  /-- The data register that the instruction in force selects, as TDO shifts it out: IDCODE, or 0 for the others. [R475 | 20 | 32 bits | 0x1A39_09C7 with IDCODE] -/
  tapData : Word := 0x1A3909C7
  /-- A deassertion of PORESET_N or SYSRESET_N waits for the TAP. [R476 | 20 | 2 bits | 0] -/
  deferred : BitVec 2 := 0
  deriving DecidableEq, Repr

end Sys2Proof.Machine
end

