-- ==== Sys2Proof/Machine/State.lean ====
section
/-! DEFINITION. The state of the L9 as plain data, the reasons a command can stop, and the state after reset.
INVENTORY.md lists every field. The bracket that ends a field's docstring gives its rules, the files of spec/ that
hold them, its width and its value after reset. -/

namespace Sys2Proof.Machine

/-- The state of the block. -/
structure State where
  /-- The commands that wait, first in, first out (the model's own field). [— | — | a list | empty] -/
  pending : List Instr
  /-- The control space: every register and descriptor, by byte address (Regs.lean). [R5 R6 R310 R311 | 00 13 | 32 bits each | the table's value, or 0 where it gives none or `loaded` (R9), log 9] -/
  regs : SparseMap 32
  /-- Shadow copies of high words, latched by a read of the low word; by the high word's address. [R11 | 00 | 32 bits each | none] -/
  shadows : List (Nat × Word)
  /-- Low words written and held until the high word is written; by the low word's address. [R11 | 00 | 32 bits each | none] -/
  heldLow : List (Nat × Word)
  /-- The cycle counters of the islands: C0 to C15 at 0, ringmasters Q0 to Q3 at 16, M0 to M7 at 20, concourse 28, D0 to D3 at 29, front end 33, codecs 34, application cores 35, Ethernet 36, T0 to T3 at 37, booth 41, security processor 42. [R22 R25 | 01 | 43 counters of 48 bits | 0 by R25] -/
  cycles : Vector Count48 43
  /-- The compute cores C0 to C15. [R20 | 01 | 16 cores | see below] -/
  cores : Vector Core 16
  /-- The rings 0 to 7. [R36 | 02 | 8 rings | see below] -/
  rings : Vector Ring 8
  /-- The midway: byte o of slice Mm at 33,554,432 m + o. [R140 R147 R161 | 06 | 8 slices of 32 MiB | 0 by R147] -/
  mwy : SparseMap 8
  /-- Poisoned 32-byte words of the midway. [R140 R443 | 06 19 | 1 bit per word | 0] -/
  mwyBad : SparseMap 1
  /-- Error masks of the symbols of midway words: symbol i of word w at 36 w + i, the 4 check symbols last. [R140 R146 | 06 | 8 bits per symbol | 0] -/
  mwyFlips : SparseMap 8
  /-- DRAM. [R175 R177 | 07 | up to 128 GiB | see below] -/
  dram : Dram
  /-- The stream contexts 0 to 63. [R258 | 11 | 64 contexts | see below] -/
  streams : Vector StreamCtx 64
  /-- The codec sessions 0 to 15. [R274 | 11 | 16 sessions | see below] -/
  sessions : Vector CodecSession 16
  /-- The sample channels 0 to 15. [R281 | 12 | 16 channels | see below] -/
  chans : Vector Channel 16
  /-- The channel that the JPEG decoder looks at first. [R287 | 12 | 4 bits | 0: DESIGN CHOICE, log 4] -/
  smpNext : Nat
  /-- The Tirsa endpoints, endpoint e of ring r at 8 r + e. [R299 | 13 | 64 endpoints | see below] -/
  eps : Vector Endpoint 64
  /-- The frames passed to the MACs of E0 to E3, in order (the model's record of its output). [R298 R299 R321 | 13 | 4 lists | empty] -/
  wire : Vector (List TxFrame) 4
  /-- For each port, the endpoint instance at which it goes on serving. [R321 | 13 | 0 to 64 | 0: DESIGN CHOICE, log 4] -/
  ethTurn : Vector Nat 4
  /-- The trapeze block. [R325 | 14 | one block | see below] -/
  trz : Trz
  /-- Boot. [R346 to R367 | 15 | one block | see below] -/
  boot : Boot
  /-- The boot flash. [R369 to R386 | 16 | one block | see below] -/
  flash : Flash
  /-- Booth power and thermal control. [R388 to R415 | 17 | one block | see below] -/
  power : Power
  /-- The security processor. [R418 to R438 | 18 | one block | see below] -/
  sec : Security
  /-- Pins, detectors and TAP. [R459 to R476 | 20 | one block | see below] -/
  pins : Pins
  /-- The device fault queue, head first. [R447 | 19 | 64 records of 64 bytes | empty by R456] -/
  devFaults : List FaultRec
  /-- The SEQ of the next fault record. [R445 | 19 | 32 bits | 1 by R445] -/
  faultSeq : Word
  /-- The crossings between islands, each crossing's entries in the order they were written. [R23 R24 R127 | 01 05 | 8 entries per crossing | empty] -/
  cross : List (Crossing × CrossOp)
  /-- What senders hold back for a crossing that is full, in order. [R24 | 01 | a list | empty] -/
  heldBack : List (Crossing × CrossOp)
  /-- How many free values the model has drawn (the model's own field). [— | — | a count | 0: DESIGN CHOICE, log 47] -/
  fresh : Nat
  deriving DecidableEq, Repr

/-- Why the machine stops with a fault. -/
inductive Fault where
  /-- A flash block that the spec says does not exist (R370), beyond both devices: raised by FLASH_OP_DONE, a report that
  the flash controller cannot make, where it names one. Safe: the hardware has no such block. -/
  | noSuchAddress
  deriving DecidableEq, Repr

/-- Why a command has no meaning. -/
inductive Refusal where
  /-- Raised by an arm of `exec` that has no meaning yet. Safe. -/
  | notModelled (mnemonic : String)
  /-- Raised by a command whose operands are no form of its class, so that no such command exists (R60, R62, R111,
  R134, R149, R196, R228, R325; log 10). Safe: the hardware has no such command. -/
  | illFormed (mnemonic : String)
  deriving DecidableEq, Repr

/-- The machine in reset, with PORESET_N asserted and nothing placed (R9, R61, R147, R456, R459; log 4, 5 and 7). -/
def State.reset : State where
  pending := []
  regs := regsReset
  shadows := []
  heldLow := []
  cycles := .replicate 43 0
  cores := .replicate 16 {}
  rings := .replicate 8 {}
  mwy := []
  mwyBad := []
  mwyFlips := []
  dram := {}
  streams := .replicate 64 {}
  sessions := .replicate 16 {}
  chans := .replicate 16 {}
  smpNext := 0
  eps := .replicate 64 {}
  wire := .replicate 4 []
  ethTurn := .replicate 4 0
  trz := {}
  boot := {}
  flash := {}
  power := {}
  sec := {}
  pins := {}
  devFaults := []
  faultSeq := 1
  cross := []
  heldBack := []
  fresh := 0

end Sys2Proof.Machine
end

