-- ==== Sys2Proof/Machine/Bytes.lean ====
section
/-! DEFINITION. Bytes: the byte orders of R12, values that carry poison (R443), the CRC-32C of R182 and the RS(36,32)
code of R140 and R180. -/

namespace Sys2Proof.Machine

/-- A byte on its way, with its poison mark (R443). -/
abbrev PByte := Byte × Bool

/-- A byte string without poison. -/
def cleanBytes (l : List Byte) : List PByte := l.map fun b => (b, false)

/-- The bytes alone. -/
def rawBytes (l : List PByte) : List Byte := l.map fun p => p.1

/-- A byte of the string is poisoned. -/
def anyPoison (l : List PByte) : Bool := l.any fun p => p.2

/-- The places of the poisoned bytes of a string that begins at `base`. -/
def badPlaces (base : Nat) (l : List PByte) : List Nat := (l.zipIdx base).filterMap fun p => if p.1.2 then some p.2 else none

/-- The little-endian value of a byte string (R12). -/
def leVal : List Byte → Nat
  | [] => 0
  | b :: t => b.toNat + 256 * leVal t

/-- The big-endian value of a byte string (R12). -/
def beVal (l : List Byte) : Nat := leVal l.reverse

/-- `n` bytes of a value, little-endian. -/
def leBytes : Nat → Nat → List Byte
  | 0, _ => []
  | n + 1, v => BitVec.ofNat 8 v :: leBytes n (v / 256)

/-- `n` bytes of a value, big-endian. -/
def beBytes (n v : Nat) : List Byte := (leBytes n v).reverse

/-- `n` elements from position `o` on. -/
def part {α : Type} (l : List α) (o n : Nat) : List α := (l.drop o).take n

/-- The little-endian value of `n` bytes at offset `o`. -/
def leAt (l : List Byte) (o n : Nat) : Nat := leVal (part l o n)

/-- The big-endian value of `n` bytes at offset `o`. -/
def beAt (l : List Byte) (o n : Nat) : Nat := beVal (part l o n)

/-- Bit `i` of a number. -/
def bitAt (v i : Nat) : Bool := v / 2 ^ i % 2 == 1

/-- Bits `lo` to `hi` of a number. -/
def bitsAt (v lo hi : Nat) : Nat := v / 2 ^ lo % 2 ^ (hi + 1 - lo)

/-- A number lies between two bounds. -/
def within (lo hi n : Nat) : Bool := decide (lo ≤ n) && decide (n ≤ hi)

/-- A Bool as a number. -/
def bitNat (b : Bool) : Nat := if b then 1 else 0

/-- The quotient rounded up. -/
def ceilDiv (a b : Nat) : Nat := (a + b - 1) / b

/-- A list padded with a value to a length. -/
def padTo {α : Type} (n : Nat) (v : α) (l : List α) : List α := l.take n ++ List.replicate (n - l.length) v

/-- The pieces of a list, `n` elements each, the last one shorter; `k` bounds their number. -/
def chunksOf {α : Type} (n : Nat) : Nat → List α → List (List α)
  | 0, _ => []
  | _ + 1, [] => []
  | k + 1, l => l.take n :: chunksOf n k (l.drop n)

/-- Eight steps of the reflected CRC-32C (R182). -/
def crcBits : Nat → Word → Word
  | 0, c => c
  | n + 1, c => crcBits n (if c.getLsbD 0 then (c >>> 1) ^^^ 0x82F63B78 else c >>> 1)

/-- The CRC-32C register after a byte string. -/
def crcFold : List Byte → Word → Word
  | [], c => c
  | b :: t, c => crcFold t (crcBits 8 (c ^^^ b.setWidth 32))

/-- CRC-32C: polynomial 0x1EDC_6F41 reflected, initial value and final XOR all ones (R182). -/
def crc32c (l : List Byte) : Word := crcFold l 0xFFFFFFFF ^^^ 0xFFFFFFFF

/-- Multiplication by α = 0x02 in GF(2^8) with x^8 + x^4 + x^3 + x^2 + 1 (R180). -/
def gfDouble (a : Byte) : Byte := if a.getLsbD 7 then (a <<< 1) ^^^ 0x1D else a <<< 1

/-- Multiplication in GF(2^8) over the low `n` bits of the first factor. -/
def gfMulBits : Nat → Byte → Byte → Byte
  | 0, _, _ => 0
  | n + 1, a, b => (if a.getLsbD 0 then b else 0) ^^^ gfMulBits n (a >>> 1) (gfDouble b)

/-- Multiplication in GF(2^8) (R180). -/
def gfMul (a b : Byte) : Byte := gfMulBits 8 a b

/-- α to a power (R180). -/
def gfAlpha : Nat → Byte
  | 0 => 1
  | n + 1 => gfDouble (gfAlpha n)

/-- A power in GF(2^8). -/
def gfPow (a : Byte) : Nat → Byte
  | 0 => 1
  | n + 1 => gfMul a (gfPow a n)

/-- The quotient in GF(2^8); a divisor of 0 gives 0. -/
def gfDiv (a b : Byte) : Byte := gfMul a (gfPow b 254)

/-- Syndrome `j` of an error pattern of 36 symbols, the first the coefficient of x^35 (R180): the value at α^j, by
Horner's rule. -/
def rsSyndrome (e : List Byte) (j : Nat) : Byte := e.foldl (fun a x => gfMul a (gfAlpha j) ^^^ x) 0

/-- The pattern with symbol `v` added at degree `p`. -/
def rsFlip (e : List Byte) (p : Nat) (v : Byte) : List Byte :=
  e.set (35 - p) ((e.getD (35 - p) 0) ^^^ v)

/-- What is left of an error pattern after the decoder has corrected up to two symbols: none where it cannot (R180). -/
def rsResidual (e : List Byte) : Option (List Byte) :=
  let s0 := rsSyndrome e 0
  let s1 := rsSyndrome e 1
  let s2 := rsSyndrome e 2
  let s3 := rsSyndrome e 3
  if s0 == 0 && s1 == 0 && s2 == 0 && s3 == 0 then some e
  else
    let det := gfMul s1 s1 ^^^ gfMul s0 s2
    if det == 0 then
      match (List.range 36).find? fun p =>
          s0 != 0 && gfMul s0 (gfAlpha p) == s1 && gfMul s1 (gfAlpha p) == s2 && gfMul s2 (gfAlpha p) == s3 with
      | some p => some (rsFlip e p s0)
      | none => none
    else
      let a1 := gfDiv (gfMul s0 s3 ^^^ gfMul s1 s2) det
      let a2 := gfDiv (gfMul s2 s2 ^^^ gfMul s1 s3) det
      match (List.range 36).filter fun p =>
          let x := gfAlpha p
          (gfMul x x ^^^ gfMul a1 x ^^^ a2) == 0 with
      | [p, q] =>
        let x := gfAlpha p
        let v := gfDiv (s1 ^^^ gfMul x s0) (x ^^^ gfAlpha q)
        some (rsFlip (rsFlip e q v) p (s0 ^^^ v))
      | _ => none

end Sys2Proof.Machine
end

