-- ==== Sys2Proof/Machine/Ops.lean ====
section
/-! DEFINITION. The named operations over the parts of State: cores, rings, registers and counters, the resources of a
ring (R36, R42, R55), and the midway and DRAM addresses of R161 and R177. -/

namespace Sys2Proof.Machine

/-! ## Registers -/

/-- The stored word of a register. -/
def State.reg (s : State) (r : Reg) : Word := smGet 0 s.regs r.addr

/-- The state with a register's word stored. -/
def State.setReg (s : State) (r : Reg) (v : Word) : State := { s with regs := smSet 0 s.regs r.addr v }

/-- A field of a register. -/
def State.fld (s : State) (r : Reg) (f : Fld) : Nat :=
  f.get (s.reg r)

/-- The state with a field of a register set by the hardware. -/
def State.setFld (s : State) (r : Reg) (f : Fld) (n : Nat) : State := s.setReg r (f.put (s.reg r) n)

/-- The state with a counter field raised by `n`, saturating at the field's maximum. -/
def State.bump (s : State) (r : Reg) (f : Fld) (n : Nat) : State :=
  s.setFld r f (min (f.get (s.reg r) + n) (2 ^ (f.hi + 1 - f.lo) - 1))

/-- The state with a list of registers written, in order. -/
def State.setRegs (s : State) : List (Reg × Word) → State
  | [] => s
  | (r, v) :: t => (s.setReg r v).setRegs t

/-! ## Parts -/

/-- A core. -/
def State.core (s : State) (c : Fin 16) : Core := s.cores[c]

/-- The state with a core replaced. -/
def State.setCore (s : State) (c : Fin 16) (k : Core) : State := { s with cores := s.cores.set c k }

/-- The state with a core changed. -/
def State.onCore (s : State) (c : Fin 16) (f : Core → Core) : State := s.setCore c (f (s.core c))

/-- A ring. -/
def State.ring (s : State) (r : Fin 8) : Ring := s.rings[r]

/-- The state with a ring replaced. -/
def State.setRing (s : State) (r : Fin 8) (k : Ring) : State := { s with rings := s.rings.set r k }

/-- The state with a ring changed. -/
def State.onRing (s : State) (r : Fin 8) (f : Ring → Ring) : State := s.setRing r (f (s.ring r))

/-- A Tirsa endpoint, by instance. -/
def State.ep (s : State) (e : Fin 64) : Endpoint := s.eps[e]

/-- The state with an endpoint changed. -/
def State.onEp (s : State) (e : Fin 64) (f : Endpoint → Endpoint) : State := { s with eps := s.eps.set e (f s.eps[e]) }

/-- The instance of endpoint `e` of ring `r` (R310). -/
def epIx (r : Fin 8) (e : Fin 8) : Fin 64 := ⟨8 * r.val + e.val, by omega⟩

/-- The ring of an endpoint instance. -/
def epRing (e : Fin 64) : Fin 8 := ⟨e.val / 8, by omega⟩

/-- The instance of result stream `t` of ring `r` (R310). -/
def rsIx (r : Fin 8) (t : Fin 16) : Fin 128 := ⟨16 * r.val + t.val, by omega⟩

/-- The ring of a result-stream instance. -/
def rsRing (t : Fin 128) : Fin 8 := ⟨t.val / 16, by omega⟩

/-- A stream context. -/
def State.stream (s : State) (x : Fin 64) : StreamCtx := s.streams[x]

/-- The state with a stream context changed. -/
def State.onStream (s : State) (x : Fin 64) (f : StreamCtx → StreamCtx) : State :=
  { s with streams := s.streams.set x (f s.streams[x]) }

/-- The state with a codec session changed. -/
def State.onSession (s : State) (x : Fin 16) (f : CodecSession → CodecSession) : State :=
  { s with sessions := s.sessions.set x (f s.sessions[x]) }

/-- A sample channel. -/
def State.chan (s : State) (x : Fin 16) : Channel := s.chans[x]

/-- The state with a sample channel changed. -/
def State.onChan (s : State) (x : Fin 16) (f : Channel → Channel) : State :=
  { s with chans := s.chans.set x (f s.chans[x]) }

/-- The state with a trapeze port changed. -/
def State.onPort (s : State) (p : Fin 4) (f : TrzPort → TrzPort) : State :=
  { s with trz := { s.trz with ports := s.trz.ports.set p (f s.trz.ports[p]) } }

/-! ## Cycle counters (R25) -/

/-- The counter of a core's island. -/
def coreIsland (c : Fin 16) : Fin 43 := ⟨c.val, by omega⟩

/-- The count of an island. -/
def State.count (s : State) (i : Fin 43) : Count48 := s.cycles[i]

/-- The state with an island's counter moved on; it wraps (R25). -/
def State.tick (s : State) (i : Fin 43) (n : Nat) : State :=
  { s with cycles := s.cycles.set i (s.cycles[i] + BitVec.ofNat 48 n) }

/-- The island of the booth. -/
def boothIsland : Fin 43 := 41

/-- The island of the concourse. -/
def concourseIsland : Fin 43 := 28

/-! ## Rings and their resources -/

/-- A ring's STATE (R48). -/
def State.ringState (s : State) (r : Fin 8) : Nat := F.ringManifestStatus_STATE.get (s.reg (.ringManifestStatus r))

/-- The states of R48. -/
abbrev stAbsent : Nat := 0
abbrev stLoading : Nat := 1
abbrev stLoaded : Nat := 2
abbrev stRunning : Nat := 3
abbrev stParking : Nat := 4
abbrev stParked : Nat := 5
abbrev stStopping : Nat := 6
abbrev stStopped : Nat := 7
abbrev stFailed : Nat := 8
abbrev stFaulted : Nat := 9

/-- The state with a ring's STATE and CAUSE set (R48, R55). -/
def State.setRingState (s : State) (r : Fin 8) (st cause : Nat) : State :=
  (s.setFld (.ringManifestStatus r) F.ringManifestStatus_STATE st).setFld (.ringManifestStatus r)
    F.ringManifestStatus_CAUSE cause

/-- The state with a ring's STATE set and CAUSE kept. -/
def State.moveRing (s : State) (r : Fin 8) (st : Nat) : State :=
  s.setFld (.ringManifestStatus r) F.ringManifestStatus_STATE st

/-- The ring's core mask (R55). -/
def State.ringMask (s : State) (r : Fin 8) : Nat := F.ringResources_CORES.get (s.reg (.ringResources r))

/-- The ring's cores, ascending. -/
def State.coresOf (s : State) (r : Fin 8) : List (Fin 16) :=
  (List.finRange 16).filter fun c => bitAt (s.ringMask r) c.val

/-- The ring's midway slices, ascending (R55, R161). -/
def State.slicesOf (s : State) (r : Fin 8) : List Nat :=
  (List.range 8).filter fun m => bitAt (F.ringResources_SLICES.get (s.reg (.ringResources r))) m

/-- The ring that a core belongs to (R36). -/
def State.ringOfCore (s : State) (c : Fin 16) : Option (Fin 8) :=
  (List.finRange 8).find? fun r => (s.ring r).bound && bitAt (s.ringMask r) c.val

/-- The ring works in ringmaster mode (R37, R55). -/
def State.masterMode (s : State) (r : Fin 8) : Bool := F.ringManifestStatus_MODE.get (s.reg (.ringManifestStatus r)) == 2

/-- The lowest-numbered core of a ring; C0 for a ring without cores. -/
def State.lowCore (s : State) (r : Fin 8) : Fin 16 := (s.coresOf r).headD 0

/-- The ringmaster that drives a ring: that of its lowest quad (R37). -/
def State.masterOf (s : State) (r : Fin 8) : Fin 4 := ⟨(s.lowCore r).val / 4, by omega⟩

/-- The island of a ringmaster. -/
def masterIsland (q : Fin 4) : Fin 43 := ⟨16 + q.val, by omega⟩

/-- The timing audit is on (R55, R121). -/
def State.auditOn (s : State) (r : Fin 8) : Bool := F.ringManifestStatus_AUDIT.get (s.reg (.ringManifestStatus r)) == 1

/-- A field of the ring's manifest (R42). -/
def State.manifest (s : State) (r : Fin 8) (o n : Nat) : Nat := leAt (s.ring r).manifest o n

/-- DRAM region `i` of a manifest: base and length in 16 MiB units, and its flag byte (R42). -/
def regionOf (m : List Byte) (i : Nat) : Nat × Nat × Nat :=
  (leAt m (0x50 + 8 * i) 2, leAt m (0x52 + 8 * i) 2, leAt m (0x54 + 8 * i) 1)

/-- The VALID regions of a manifest: base, length, flags. -/
def regionsOf (m : List Byte) : List (Nat × Nat × Nat) :=
  ((List.range 8).map (regionOf m)).filter fun t => bitAt t.2.2 0

/-- The flags of the region of a ring that holds a 16 MiB unit (R42). -/
def State.unitFlags (s : State) (r : Fin 8) (u : Nat) : Option Nat :=
  if (s.ring r).bound then
    ((regionsOf (s.ring r).manifest).find? fun t => decide (t.1 ≤ u) && decide (u < t.1 + t.2.1)).map fun t => t.2.2
  else none

/-- Bytes per 16 MiB unit. -/
abbrev unitBytes : Nat := 16777216

/-- A byte range of DRAM lies in units of which each satisfies `p`. -/
def unitsAll (p : Nat → Bool) (a n : Nat) : Bool :=
  (List.range ((a + n - 1) / unitBytes + 1 - a / unitBytes)).all fun i => p (a / unitBytes + i)

/-- A range lies in the ring's own DRAM regions, SPILL apart (R57, R187). -/
def State.inRegions (s : State) (r : Fin 8) (a n : Nat) : Bool :=
  unitsAll (fun u => match s.unitFlags r u with | some f => !bitAt f 2 | none => false) a n

/-- A range lies in the ring's SPILL region (R44, R187). -/
def State.inSpill (s : State) (r : Fin 8) (a n : Nat) : Bool :=
  unitsAll (fun u => match s.unitFlags r u with | some f => bitAt f 2 | none => false) a n

/-- A range lies in the ring's INGEST regions (R44). -/
def State.inIngest (s : State) (r : Fin 8) (a n : Nat) : Bool :=
  unitsAll (fun u => match s.unitFlags r u with | some f => bitAt f 1 && !bitAt f 2 | none => false) a n

/-- The size of a ring's midway space (R161). -/
def State.mwySize (s : State) (r : Fin 8) : Nat := 33554432 * (s.slicesOf r).length

/-- The flat midway address of a ring's midway address (R161). -/
def State.mwyPlace (s : State) (r : Fin 8) (a : Nat) : Nat :=
  let l := s.slicesOf r
  let n := l.length
  33554432 * l.getD (a / 512 % n) 0 + (a / (512 * n) * 512 + a % 512)

/-- Capacity in use, in bytes (R195). -/
def State.dramSize (s : State) : Nat := unitBytes * F.ddrConfig_CAPACITY.get (s.reg .ddrConfig)

/-- The populated subchannels of R177, as places in the list D0A, D1A, D2A, D3A, D0B, D1B, D2B, D3B. -/
def State.subs (s : State) : List Nat :=
  (List.range 8).filter fun i => bitAt (F.ddrConfig_CHANNELS.get (s.reg .ddrConfig)) (i % 4)

/-- The subchannel of a DRAM address (R177). -/
def State.subOf (s : State) (a : Nat) : Nat := s.subs.getD (a / 256 % s.subs.length) 0

/-- The subchannel as a register instance. -/
def subFin (n : Nat) : Fin 8 := ⟨n % 8, by omega⟩

/-- The ring names the internal endpoint in its manifest: its endpoint number (R299). -/
def State.internalEp (s : State) (r : Fin 8) : Option (Fin 8) :=
  (List.finRange 8).find? fun e =>
    F.trsEpStatus_BOUND.get (s.reg (.trsEpStatus (epIx r e))) == 1 &&
      F.trsEpStatus_INTERNAL.get (s.reg (.trsEpStatus (epIx r e))) == 1

/-- The ring is in a state in which its cores run commands (R49, R50): RUNNING or PARKING. -/
def State.ringLive (s : State) (r : Fin 8) : Bool := s.ringState r == stRunning || s.ringState r == stParking

/-- The ring's cores and ringmaster have their clocks and run commands: no trip has stopped the clocks (R389, R404). -/
def State.ringClocked (s : State) (r : Fin 8) : Bool := s.ringLive r && !s.power.tripped

/-! ## Ticks -/

/-- The device is held in reset: a pin, the REFCLK check, or a detector (R465, R470, R471). -/
def State.heldReset (s : State) : Bool := s.pins.poreset || s.pins.sysreset || s.pins.refReset || s.pins.rails != 0

/-- An island's clock runs: none in reset or in Deep standby; the security processor's from step 1 of R472, the others' from
step 4, which also releases FLASH_RESET_N; in Standby those of the booth and the security processor (R438); a core's only in
a RUNNING, PARKING or FAULTED ring, and a ringmaster's only where it drives such a ring (R27, R38, R48). That the clocks of
a ring's cores and of its ringmaster stand in LOADING and STOPPING too is the model's choice (log 107). -/
def State.clockRuns (s : State) (i : Fin 43) : Bool :=
  if s.heldReset || s.boot.phase == .inReset || s.boot.phase == .deepStandby then false
  else if i.val = 42 then true
  else if s.pins.flashReset then false
  else if F.secStatus_POWER.get (s.reg .secStatus) == 2 then i.val == 41
  else if h : i.val < 16 then
    !s.power.tripped && (match s.ringOfCore ⟨i.val, h⟩ with
      | some r => s.ringLive r || s.ringState r == stFaulted
      | none => false)
  else if i.val < 20 then
    !s.power.tripped && (List.finRange 8).any fun r =>
      (s.ring r).bound && s.masterMode r && (s.ringLive r || s.ringState r == stFaulted) && (s.masterOf r).val + 16 == i.val
  else if i.val < 28 then !s.power.tripped
  else true

/-- Every running island's cycle counter moves on by one (R25). -/
def State.ticked (s : State) : State :=
  { s with cycles := Vector.ofFn fun i => if s.clockRuns i then s.cycles[i] + 1 else s.cycles[i] }

/-- A limiter stretches the cycles of a core of the ring (R400, R401). -/
def State.stretched (s : State) (r : Fin 8) : Bool :=
  s.ringClocked r && (s.power.current || (s.coresOf r).any fun c => s.power.droop.getLsbD c.val)

/-- A ring's frequency in MHz (R417). -/
def State.freq (s : State) (r : Fin 8) : Nat := s.fld (.pwrRingStatus r) F.pwrRingStatus_FREQ_MHZ

/-- MODE of a ring, as it is in force (R417). -/
def State.ringMode (s : State) (r : Fin 8) : Nat := F.pwrRingCtrl_MODE.get s.power.ctrl[r]

/-- FIXED_MHZ of a ring, as it is in force (R417). -/
def State.fixedMhz (s : State) (r : Fin 8) : Nat := F.pwrRingCtrl_FIXED_MHZ.get s.power.ctrl[r]

/-- A ring works in mode FIXED (R417). -/
def State.fixedMode (s : State) (r : Fin 8) : Bool := s.ringMode r == 2

/-- Bit `k` set in a field. -/
def State.raiseBit (s : State) (r : Reg) (f : Fld) (k : Nat) : State := s.setFld r f (s.fld r f ||| 2 ^ k)

/-- A microsecond of a running ring counted: a fixed ring's while a limiter acts on it or it runs below FIXED_MHZ, another
ring's while a core of it is stretched (R404, R406, R417). -/
def State.microsecond (s : State) (r : Fin 8) : State :=
  if !s.ringClocked r then s
  else if s.fixedMode r then
    if s.stretched r || s.power.hotLimit || decide (s.freq r < s.fixedMhz r) then
      s.bump (.pwrRingExcursion r) F.pwrRingExcursion_US 1
    else s
  else if s.stretched r then
    let s1 := (s.bump (.pwrRingThrottleUs r 2) F.pwrRingThrottleUs_US 1).raiseBit .pwrThrottleCause F.pwrThrottleCause_SEEN 2
    { s1 with power := { s1.power with slowed := true } }
  else s

/-- The safety net counts: it is armed, CONFIRM has not stopped it, and the device is in Run, Ring-park or Standby (R357,
R358). -/
def State.netCounts (s : State) : Bool :=
  s.fld .bootNet F.bootNet_ARMED == 1 && !s.boot.netStopped && s.boot.phase == .handedOver

/-- What hardware counts in the booth's 800th cycle, and the net's oscillator count (R357, R406). -/
def State.timed (s : State) : State :=
  let s1 := if s.clockRuns boothIsland && (s.count boothIsland).toNat % 800 == 0 then
    (List.finRange 8).foldl State.microsecond s else s
  if s1.netCounts then
    { s1 with boot := { s1.boot with netLeft := s1.boot.netLeft - 1 } }
  else s1

/-- The step of a block to which no command waits: a cycle passes in every running island (R25; log 1). -/
def idleTick (s : State) : State := s.ticked.timed

end Sys2Proof.Machine
end

