-- ==== Sys2Proof/Machine/Memory.lean ====
section
/-! DEFINITION. The memories: operand space (R59, R79), core memory with its gathering buffer (R144 to R156), the
midway (R161, R162), and DRAM lines with their codes, guard and tag (R179 to R184). -/

namespace Sys2Proof.Machine

/-! ## Bytes with poison by word -/

/-- Bytes written from an address on, each at its place. -/
def bytesPut (place : Nat → Nat) : Nat → List PByte → SparseMap 8 → SparseMap 8
  | _, [], m => m
  | a, (b, _) :: t, m => bytesPut place (a + 1) t (smSet 0 m (place a) b)

/-- The poison marks of the 32-byte words that a write touches: a word with a poisoned byte is poisoned, a word
written whole without one is clean, any other keeps its mark (R146, R443). -/
def marksPut (place : Nat → Nat) (a : Nat) (d : List PByte) (bad : SparseMap 1) : SparseMap 1 :=
  (List.range ((a + d.length + 31) / 32 - a / 32)).foldl (fun m i =>
    let w := a / 32 + i
    let lo := max a (32 * w)
    let hi := min (a + d.length) (32 * w + 32)
    if anyPoison (part d (lo - a) (hi - lo)) then smSet 0 m (place (32 * w) / 32) 1
    else if hi - lo = 32 then smSet 0 m (place (32 * w) / 32) 0
    else m) bad

/-- `n` bytes from an address on, each with the mark of its word. -/
def bytesGet (place : Nat → Nat) (m : SparseMap 8) (bad : SparseMap 1) (a n : Nat) : List PByte :=
  (List.range n).map fun i => (smGet 0 m (place (a + i)), smGet 0 bad (place (a + i) / 32) == 1)

/-! ## Core memory and the gathering buffer -/

/-- Bytes of core memory. -/
abbrev coreBytes : Nat := 8388608

/-- The bytes of a gathering-buffer entry that are valid, with their offsets in the line. -/
def entryBytes (g : GatherEntry) : List (Nat × Byte) :=
  (List.range 64).filterMap fun i => if g.mask.getLsbD i then some (i, g.data.extractLsb' (8 * i) 8) else none

/-- The 32-byte words that a range of bytes touches. -/
def wordsOf (a n : Nat) : List Nat := (List.range ((a + n + 31) / 32 - a / 32)).map fun i => a / 32 + i

/-- The words that a range touches and does not cover whole: a write of it reads them first (R146). -/
def partWords (a n : Nat) : List Nat :=
  (wordsOf a n).filter fun w => !(decide (a ≤ 32 * w) && decide (32 * w + 32 ≤ a + n))

/-- What the decoder of a 32-byte word finds: it corrects up to two symbols and detects three; that it detects more than
three as well is the model's choice (R140; log 122). -/
def eccOf (flips : SparseMap 8) (w : Nat) : EccOutcome :=
  match (smRead 0 flips (36 * w) 36).countP fun e => e != 0 with
  | 0 => .clean
  | 1 => .corrected
  | 2 => .corrected
  | _ => .uncorrectable

/-- A word as its symbols stand in the memory. -/
def rawWord (m flips : SparseMap 8) (w : Nat) : List Byte :=
  List.zipWith (· ^^^ ·) (smRead 0 m (32 * w) 32) (smRead 0 flips (36 * w) 32)

/-- A word of core memory decoded, as every read and every read-modify-write does: an uncorrectable one is marked poisoned
and keeps its symbols; a mark is not decoded again (R140, R146). What the decoder finds waits in `ecc` (R442). -/
def decodeWord (k : Core) (w : Nat) : Core :=
  if (smGet 0 k.memBad w).getLsbD 0 then k
  else match eccOf k.memFlips w with
    | .clean => k
    | .corrected => { k with ecc := k.ecc ++ [(w, false)] }
    | .uncorrectable => { k with
        mem := smWrite 0 k.mem (32 * w) (rawWord k.mem k.memFlips w), memBad := smSet 0 k.memBad w 1
        memFlips := smClear k.memFlips (36 * w) (36 * w + 36), ecc := k.ecc ++ [(w, true)] }

/-- The error symbols of words that are written, gone. -/
def freshWords (l : List Nat) (flips : SparseMap 8) : SparseMap 8 :=
  l.foldl (fun m w => smClear m (36 * w) (36 * w + 36)) flips

/-- An entry flushed: fully valid words are written directly, the others by read-modify-write (R146, R155). -/
def flushEntry (k : Core) (g : GatherEntry) : Core :=
  let some_ := [0, 1].filter fun w => g.mask.extractLsb' (32 * w) 32 != 0
  let whole := some_.filter fun w => g.mask.extractLsb' (32 * w) 32 == 0xFFFFFFFF
  let k' := ((some_.filter fun w => !whole.contains w).map fun w => 2 * g.line + w).foldl decodeWord k
  { k' with
    mem := (entryBytes g).foldl (fun m p => smSet 0 m (64 * g.line + p.1) p.2) k'.mem
    memBad := whole.foldl (fun m w => smSet 0 m (2 * g.line + w) 0) k'.memBad
    memFlips := freshWords (some_.map fun w => 2 * g.line + w) k'.memFlips }

/-- The entries that satisfy `p` flushed, oldest first (R155). -/
def flushWhere (p : GatherEntry → Bool) (k : Core) : Core :=
  let k' := (k.gather.filter p).foldl flushEntry k
  { k' with gather := k.gather.filter fun g => !p g }

/-- Every entry flushed (R155). -/
def flushAll (k : Core) : Core := flushWhere (fun _ => true) k

/-- The entries that hold bytes of a range flushed. -/
def flushRange (a n : Nat) (k : Core) : Core :=
  flushWhere (fun g => decide (a / 64 ≤ g.line) && decide (64 * g.line < a + n)) k

/-- Pieces of one line put into the gathering buffer: into the line's entry, or into a new one for which the entry
written longest ago is flushed where none is free; a full entry is flushed (R154, R155). -/
def gatherPut (line : Nat) (bytes : List (Nat × Byte)) (k : Core) : Core :=
  let put (g : GatherEntry) : GatherEntry := bytes.foldl (fun g p =>
    { g with
      data := (g.data &&& ~~~((0xFF#512) <<< (8 * p.1))) ||| ((p.2.setWidth 512).shiftLeft (8 * p.1))
      mask := g.mask ||| (1#64).shiftLeft p.1 }) g
  let old := k.gather.find? fun g => g.line == line
  let rest := k.gather.filter fun g => g.line != line
  let k1 := if old.isNone && decide (8 ≤ rest.length)
    then match rest with
      | [] => k
      | g :: t => { flushEntry k g with gather := t }
    else { k with gather := rest }
  let g := put (old.getD ⟨line, 0, 0⟩)
  if g.mask == BitVec.allOnes 64 then flushEntry k1 g else { k1 with gather := k1.gather ++ [g] }

/-- Core memory read as it stands. -/
def coreGet (k : Core) (a n : Nat) : List PByte := bytesGet id k.mem k.memBad a n

/-- Core memory written; an entry of the gathering buffer that holds bytes of the range is flushed first, so that
every read returns the last bytes written (R146, R156; log 23). -/
def corePut (a : Nat) (d : List PByte) (k : Core) : Core :=
  let k' := (partWords a d.length).foldl decodeWord (flushRange a d.length k)
  { k' with
    mem := smWrite 0 k'.mem a (rawBytes d), memBad := marksPut id a d k'.memBad
    memFlips := freshWords (wordsOf a d.length) k'.memFlips }

/-- The lines and words of a range made ready for a read: entries of the gathering buffer that hold bytes of it are flushed,
and its words pass the decoder (R146, R155). -/
def readyRange (a n : Nat) (k : Core) : Core := (wordsOf a n).foldl decodeWord (flushRange a n k)

/-- A range of core memory exists (R57, R144). -/
def inCore (a n : Nat) : Bool := decide (a + n ≤ coreBytes)

/-! ## The operand space -/

/-- Places in the operand space. -/
abbrev opW : Nat := 0x00000
abbrev opA : Nat := 0x40000
abbrev opWexp : Nat := 0x80000
abbrev opAexp : Nat := 0x84000
abbrev opDs : Nat := 0x88000
abbrev opLatch : Nat := 0x89000
abbrev opRx : Nat := 0x8A000

/-- The operand space written; a poisoned byte gets inverted parity (R443). -/
def opPut (a : Nat) (d : List PByte) (k : Core) : Core :=
  { k with
    opnd := smWrite 0 k.opnd a (rawBytes d)
    opndBad := smWrite 0 k.opndBad a (d.map fun p => if p.2 then 1 else 0) }

/-- The operand space read. -/
def opGet (k : Core) (a n : Nat) : List PByte :=
  (List.range n).map fun i => (smGet 0 k.opnd (a + i), smGet 0 k.opndBad (a + i) == 1)

/-! ## DRAM lines -/

/-- The first four bytes of a line's tag: OWNER, FLAGS, GEN (R181). -/
def lineTag (d : Dram) (n : Nat) : Word :=
  let t := smGet 0 d.tag n
  if t.getLsbD 32 then t.setWidth 32 else (smGet 0xFF d.unitOwner (n / 262144)).setWidth 32

/-- A line's data as written. -/
def lineData (d : Dram) (n : Nat) : List Byte := smRead 0 d.data (64 * n) 64

/-- The line with data and tag written: its burst is then as written, and a queued write-back is discarded (R190). -/
def linePut (d : Dram) (n : Nat) (bytes : List Byte) (tag : Word) : Dram :=
  { d with
    data := smWrite 0 d.data (64 * n) bytes
    tag := smSet 0 d.tag n (tag.setWidth 33 ||| 0x100000000)
    flips := smClear d.flips (80 * n) (80 * n + 80)
    writeBack := d.writeBack.filter fun m => m != n }

/-- The error mask of line byte `i` (R179). -/
def dataFlip (d : Dram) (n i : Nat) : Byte := smGet 0 d.flips (80 * n + 5 * (i / 4) + i % 4)

/-- The error mask of the byte that CB0 to CB7 carry in beat `b` (R179). -/
def checkFlip (d : Dram) (n b : Nat) : Byte := smGet 0 d.flips (80 * n + 5 * b + 4)

/-- The error pattern of codeword `c` of a line: 32 data symbols and 4 check symbols (R179). -/
def wordErrors (d : Dram) (n c : Nat) : List Byte :=
  ((List.range 32).map fun i => dataFlip d n (32 * c + i)) ++ (List.range 4).map fun i => checkFlip d n (4 * c + i)

/-- The bytes of a burst of a line all read as written. -/
def lineClean (d : Dram) (n : Nat) : Bool :=
  d.flips.all fun e => decide (e.1 < 80 * n) || decide (80 * n + 80 ≤ e.1)

/-- The guard of a line (R182): CRC-32C of its address, tag bytes 0 to 3 and data. -/
def guardOf (n : Nat) (tag : Word) (bytes : List Byte) : Word :=
  crc32c (leBytes 8 (64 * n) ++ leBytes 4 tag.toNat ++ bytes)

/-- What a read of a line finds (R184): KIND (0 where it delivers the line), whether a tag bit was fixed, whether
symbols were corrected, the data, and the tag after a fix. -/
structure Verdict where
  kind      : Nat
  tagFixed  : Bool
  corrected : Bool
  data      : List Byte
  tag       : Word
  deriving DecidableEq, Repr

/-- The rows of R184 below the guard: owner, poison, generation, correction. -/
def ownerRows (code : Nat) (gen : Option (BitVec 16)) (fixed corrected : Bool) (data : List Byte) (tag : Word) : Verdict :=
  let kind :=
    if tag.toNat % 256 ≠ code then 3
    else if tag.getLsbD 8 then 5
    else match gen with
      | some g => if g.toNat ≠ tag.toNat / 65536 then 4 else 0
      | none => 0
  ⟨kind, fixed, corrected, data, tag⟩

/-- The check of a line against a reader's owner code and an expected generation, in the order of R184. -/
def checkLine (d : Dram) (n code : Nat) (gen : Option (BitVec 16)) : Verdict :=
  let data := lineData d n
  let tag := lineTag d n
  if lineClean d n then ownerRows code gen false false data tag
  else
    let e0 := wordErrors d n 0
    let e1 := wordErrors d n 1
    let bad := List.zipWith (· ^^^ ·) data (e0.take 32 ++ e1.take 32)
    let flip (j : Nat) : Word := (List.range 4).foldl (fun a i =>
      a ||| ((checkFlip d n (8 + j + i)).setWidth 32 <<< (8 * i))) 0
    let tagRead := tag ^^^ flip 0
    match rsResidual e0, rsResidual e1 with
    | some r0, some r1 =>
      let got := List.zipWith (· ^^^ ·) data (r0.take 32 ++ r1.take 32)
      let corrected := r0 != e0 || r1 != e1
      let guardRead := guardOf n tag data ^^^ flip 4
      if guardOf n tagRead got == guardRead then ownerRows code gen false corrected got tagRead
      else
        match (List.range 64).find? fun i =>
            if i < 32 then guardOf n (tagRead ^^^ ((1 : Word) <<< i)) got == guardRead
            else guardOf n tagRead got == guardRead ^^^ ((1 : Word) <<< (i - 32)) with
        | some i =>
          ownerRows code gen true corrected got (if i < 32 then tagRead ^^^ ((1 : Word) <<< i) else tagRead)
        | none => ⟨2, false, false, got, tagRead⟩
    | _, _ => ⟨1, false, false, bad, tagRead⟩

/-- A byte of DRAM as the controller delivers it to a reader with an owner code: corrected where the line can be, zero where
the read is refused (R57, R184). -/
def deliverByte (d : Dram) (code a : Nat) : Byte :=
  let n := a / 64
  if lineClean d n then (if (lineTag d n).toNat % 256 = code then smGet 0 d.data a else 0)
  else
    let v := checkLine d n code none
    if v.kind = 3 then 0 else v.data.getD (a % 64) 0

/-- Bytes of DRAM as the controller delivers them. -/
def deliver (d : Dram) (code a n : Nat) : List Byte := (List.range n).map fun i => deliverByte d code (a + i)

/-! ## The deployment image's copy (R360, R361) -/

/-- The first byte of the verified copy of DEPLOYMENT: the unit after the page table (R360). -/
abbrev deployBase : Nat := unitBytes

/-- Bytes of the deployment image's copy, as the booth reads them (R184; log 123). -/
def State.deployBytes (s : State) (o n : Nat) : List Byte := deliver s.dram 0x80 (deployBase + o) n

/-- A field of the deployment image's copy, little-endian (R361). -/
def State.deploy (s : State) (o n : Nat) : Nat := leVal (s.deployBytes o n)

/-- The sections of the verified copy, the directory first: offset and length (R347, R361). -/
def State.sections (s : State) : List (Nat × Nat) :=
  (List.range (s.deploy 0xA 1)).map fun i => (s.deploy (0x20 + 40 * i) 4, s.deploy (0x24 + 40 * i) 4)

/-- The byte range lies wholly within a section other than the directory (R361). -/
def State.inSections (s : State) (o n : Nat) : Bool :=
  (s.sections.drop 1).any fun t => decide (t.1 ≤ o) && decide (o + n ≤ t.1 + t.2)

/-- The offset of the deployment directory: the first section (R361). -/
def State.dirBase (s : State) : Nat := (s.sections.headD (0, 0)).1

/-- A field of the deployment directory (R361). -/
def State.dir (s : State) (o n : Nat) : Nat := s.deploy (s.dirBase + o) n

/-- The application cores' regions of the deployment directory, base and length in units (R361). -/
def State.appRegions (s : State) : List (Nat × Nat) :=
  if s.boot.dirBad || s.boot.deployLen == 0 then []
  else (List.range (s.dir 0x7 1)).map fun i => (s.dir (0x24 + 8 * i) 2, s.dir (0x26 + 8 * i) 2)

/-- A unit lies in an application-core region. -/
def State.appUnit (s : State) (u : Nat) : Bool :=
  s.appRegions.any fun t => decide (t.1 ≤ u) && decide (u < t.1 + t.2)

end Sys2Proof.Machine
end

