-- ==== Sys2Proof/Machine/Records.lean ====
section
/-! DEFINITION. The booth's log entries (R384, R449) and fault records (R445 to R447), as far as they stand in the
queues: who is told of them is in Report.lean. -/

namespace Sys2Proof.Machine

/-! ## The log -/

/-- A log entry of 32 bytes (R384); `source` 0 ROM, 1 security stage, 2 booth. -/
def logEntry (seq : Word) (source code arg0 arg1 : Nat) : List Byte :=
  let b := leBytes 4 seq.toNat ++ leBytes 1 source ++ leBytes 1 code ++ leBytes 2 0 ++ leBytes 8 arg0 ++ leBytes 8 arg1
  b ++ leBytes 4 (crc32c b).toNat ++ leBytes 4 0

/-- A log entry made pending; beyond 128 pending entries the newest are dropped (R384, R385). -/
def State.log (s : State) (source code arg0 arg1 : Nat) : State :=
  if s.flash.logPending.length < 128 then
    { s with flash := { s.flash with
        logPending := s.flash.logPending ++ [logEntry s.flash.logSeq source code arg0 arg1]
        logSeq := s.flash.logSeq + 1 } }
  else { s with flash := { s.flash with logDropped := s.flash.logDropped + 1 } }

/-- The log's source codes (R384). -/
abbrev logBooth : Nat := 2

/-! ## Fault records -/

/-- The causes of R55 and R446. -/
abbrev cauHost : Nat := 1
abbrev cauNoPlacement : Nat := 2
abbrev cauWidth : Nat := 3
abbrev cauSize : Nat := 4
abbrev cauFormat : Nat := 5
abbrev cauConflict : Nat := 6
abbrev cauPoison : Nat := 7
abbrev cauIsolation : Nat := 8
abbrev cauStall : Nat := 9
abbrev cauAudit : Nat := 10
abbrev cauParkTimeout : Nat := 11
abbrev cauPower : Nat := 12
abbrev cauRemote : Nat := 13
abbrev cauMemory : Nat := 14
abbrev cauLockstep : Nat := 15
abbrev cauThermal : Nat := 16

/-- The 64 bytes of a fault record (R445). -/
def recordBytes (f : FaultRec) : List Byte :=
  leBytes 4 f.tag.toNat ++ [f.cause, f.island, f.inst, f.ringByte] ++ leBytes 4 f.seq.toNat ++ leBytes 4 0 ++
    leBytes 8 f.count.toNat ++ leBytes 8 f.addr.toNat ++ padTo 32 0 f.area

/-- The record made a ring enter FAULTED (R445). -/
def recFaulting (f : FaultRec) : Bool := f.ringByte.getLsbD 6

/-- A record put into a queue of `cap`, and how many records that loses (R447): a full queue drops a non-faulting
record, and a faulting one displaces the oldest non-faulting record. -/
def enqueueRecord (cap : Nat) (l : List FaultRec) (f : FaultRec) : List FaultRec × Nat :=
  if l.length < cap then (l ++ [f], 0)
  else if recFaulting f then
    match l.findIdx? fun g => !recFaulting g with
    | some i => (l.eraseIdx i ++ [f], 1)
    | none => (l ++ [f], 0)
  else (l, 1)

/-- The island codes of R445. -/
abbrev isCore : Nat := 0
abbrev isMaster : Nat := 1
abbrev isSlice : Nat := 2
abbrev isConcourse : Nat := 3
abbrev isDdr : Nat := 4
abbrev isFrontEnd : Nat := 5
abbrev isCodecs : Nat := 6
abbrev isApp : Nat := 7
abbrev isEth : Nat := 8
abbrev isTrz : Nat := 9
abbrev isBooth : Nat := 10
abbrev isSec : Nat := 11

/-- The cycle counter of an island code and instance. -/
def islandOf (island inst : Nat) : Fin 43 :=
  match island with
  | 0 => ⟨inst % 16, by omega⟩
  | 1 => ⟨16 + inst % 4, by omega⟩
  | 2 => ⟨20 + inst % 8, by omega⟩
  | 3 => 28
  | 4 => ⟨29 + inst % 4, by omega⟩
  | 5 => 33
  | 6 => 34
  | 7 => 35
  | 8 => 36
  | 9 => ⟨37 + inst % 4, by omega⟩
  | 10 => 41
  | _ => 42

/-- What a fault record holds besides SEQ and COUNT. -/
structure FaultInfo where
  tag    : Tag
  cause  : Nat
  island : Nat
  inst   : Nat
  addr   : Nat
  area   : List Byte
  deriving DecidableEq, Repr

/-- The byte at 0x07 of a record (R445). -/
def recRingByte (ring : Option (Fin 8)) (faulting : Bool) : Byte :=
  match ring with
  | some r => BitVec.ofNat 8 (0x80 + 0x40 * bitNat faulting + r.val)
  | none => 0

/-- The record that the next SEQ gives (R445). -/
def State.newRecord (s : State) (ring : Option (Fin 8)) (faulting : Bool) (i : FaultInfo) : FaultRec :=
  ⟨i.tag, BitVec.ofNat 8 i.cause, BitVec.ofNat 8 i.island, BitVec.ofNat 8 i.inst, recRingByte ring faulting,
    s.faultSeq, s.count (islandOf i.island i.inst), BitVec.ofNat 64 i.addr, i.area⟩

/-- A core by number. -/
def coreFin (n : Nat) : Fin 16 := ⟨n % 16, by omega⟩

/-- A record lost from a ring's queue, or from the device's, is counted and logged (R447, R449). -/
def State.recordLost (s : State) (ring : Option (Fin 8)) : State :=
  match ring with
  | some r =>
    let s1 := s.bump (.errRingFaultStatus r) F.errRingFaultStatus_LOST 1
    s1.log logBooth 0x84 r.val (s1.fld (.errRingFaultStatus r) F.errRingFaultStatus_LOST)
  | none =>
    let s1 := s.bump .errDevFaultStatus F.errDevFaultStatus_LOST 1
    s1.log logBooth 0x84 0xFF (s1.fld .errDevFaultStatus F.errDevFaultStatus_LOST)

/-- The tag of a device record without a ring (R445). -/
abbrev deviceTag : Tag := 0x1FFFFFFF

/-- The tag of a record that no command caused (R132). -/
def noCommand (r : Fin 8) : Tag := BitVec.ofNat 32 (r.val * 0x20000000 + 0x1FFFFFFF)

/-- The area of an ISOLATION record (R446): the row of R57, the access, the OWNER byte found, the length. -/
def isolationArea (row access owner len : Nat) : List Byte :=
  [BitVec.ofNat 8 row, BitVec.ofNat 8 access, BitVec.ofNat 8 owner, 0] ++ leBytes 4 len

/-- A record put into its queue, with what that loses (R447). -/
def State.storeRecord (s : State) (ring : Option (Fin 8)) (f : FaultRec) : State :=
  match ring with
  | some r =>
    let q := enqueueRecord 128 (s.ring r).faults f
    let s1 := s.onRing r fun k => { k with faults := q.1 }
    if q.2 = 0 then s1 else s1.recordLost ring
  | none =>
    let q := enqueueRecord 64 s.devFaults f
    let s1 := { s with devFaults := q.1 }
    if q.2 = 0 then s1 else s1.recordLost ring

/-- The booth's log entry of a faulting episode, which its first record begins, or of a device record (R448, R449). -/
def State.logRecord (s : State) (ring : Option (Fin 8)) (faulting : Bool) (i : FaultInfo) (seq : Word) : State :=
  match ring with
  | some r =>
    if faulting ∧ s.ringState r ≠ stFaulted then s.log logBooth 0x80 (i.cause + 256 * r.val) (seq.toNat + 0x100000000 * i.tag.toNat) else s
  | none =>
    if i.cause = cauLockstep then s.log logBooth 0x81 (s.fld .pwrLockstepCount F.pwrLockstepCount_COUNT) 0
    else if i.cause = cauThermal then s.log logBooth 0x82 (leAt i.area 0 1) (leAt i.area 2 2)
    else s

/-- A device record written, without a ring: it takes the next SEQ and enters the device's queue (R447, R449). -/
def State.deviceRecord (s : State) (i : FaultInfo) : State :=
  let f := s.newRecord none false i
  (({ s with faultSeq := s.faultSeq + 1 } : State).storeRecord none f).logRecord none false i f.seq

end Sys2Proof.Machine
end

