-- ==== Sys2Proof/Machine/Lines.lean ====
section
/-! DEFINITION. The checked access to a DRAM line: reads by R184 and read-modify-writes by R183, with their counters,
DDR_ERR_INFO and record; and the L9's own access to the lines of the application cores and of the booth. What an error
further does (whose queue, which ring faults) is the parameter `rep` of each function: true for KIND 3. -/

namespace Sys2Proof.Machine

/-- A requester of DRAM (R170, R181, R187): a ring; a window of a ring for a remote L9; the application cores; the
booth; the booth for a ring under the ring's code; the booth's swap path at a ring's SPILL region. -/
inductive Requester where
  | ring (r : Fin 8)
  | window (w : Fin 256) (r : Fin 8)
  | app
  | booth
  | boothFor (r : Fin 8)
  | spill (r : Fin 8)
  deriving DecidableEq, Repr

/-- The owner code of a requester (R181, R187). -/
def Requester.code : Requester → Nat
  | .ring r => r.val
  | .window _ r => r.val
  | .app => 0x40
  | .booth => 0x80
  | .boothFor r => r.val
  | .spill _ => 0x40

/-- The ring in whose queue a requester's records go. -/
def Requester.recRing : Requester → Option (Fin 8)
  | .ring r => some r
  | .window _ r => some r
  | .app => none
  | .booth => none
  | .boothFor r => some r
  | .spill r => some r

/-- A unit that the application cores reach: their own regions and the SPILL region of a ring whose host they are
(R170, R187). -/
def State.appReach (s : State) (u : Nat) : Bool :=
  s.appUnit u || (List.finRange 8).any fun r =>
    (s.internalEp r).isSome && (match s.unitFlags r u with | some f => bitAt f 2 | none => false)

/-- The address range lies where the requester may go (R57, R170, R185, R187). -/
def State.dramAllowed (s : State) (q : Requester) (a n : Nat) : Bool :=
  decide (a + n ≤ s.dramSize) && match q with
    | .ring r => s.inRegions r a n
    | .window _ r => s.inRegions r a n
    | .app => unitsAll s.appReach a n
    | .booth => true
    | .boothFor r => s.inRegions r a n
    | .spill r => s.inSpill r a n

/-- The tag that a requester's records carry where no command made the request (R132, R445). -/
def Requester.noTag : Requester → Tag
  | .ring r => noCommand r
  | .window _ r => noCommand r
  | .app => deviceTag
  | .booth => deviceTag
  | .boothFor r => noCommand r
  | .spill r => noCommand r

/-- An address in the form of BUF_BASE that lies in DRAM (R259). -/
def dramForm (a : Nat) : Nat := 0x8000000000000000 + a

/-- DDR_ERR_ADDR and DDR_ERR_INFO show an error (R195). -/
def State.ddrShow (s : State) (q : Requester) (a kind owner : Nat) : State :=
  let ring : Nat := match q with | .ring r => r.val | _ => 0
  let isRing : Nat := match q with | .ring _ => 1 | _ => 0
  (s.setReg (.ddrErrAddr 0) (BitVec.ofNat 32 a)).setReg (.ddrErrAddr 1) (BitVec.ofNat 32 (a / 4294967296))
    |>.setReg .ddrErrInfo (BitVec.ofNat 32
      (kind * 2 ^ 28 + owner * 2 ^ 20 + ring * 2 ^ 17 + isRing * 2 ^ 16 + s.subOf a * 2 ^ 13))

/-- The record of an error of KIND 1 to 5 at a line (R446): ISOLATION for KIND 3, else MEMORY. -/
def ddrInfo (sub : Nat) (tag : Tag) (a kind access : Nat) (lineTag : Word) : FaultInfo :=
  let owner := lineTag.toNat % 256
  if kind = 3 then ⟨tag, cauIsolation, isDdr, sub % 4, dramForm a, isolationArea 3 access owner 64⟩
  else ⟨tag, cauMemory, isDdr, sub % 4, dramForm a,
    [3, BitVec.ofNat 8 kind, BitVec.ofNat 8 owner, BitVec.ofNat 8 sub] ++ leBytes 2 (lineTag.toNat / 65536)⟩

/-- What a check of a line counts, queues, shows and records (R184, R195). -/
def State.ddrCount (s : State) (n : Nat) (v : Verdict) : State :=
  let u := subFin (s.subOf (64 * n))
  let s1 := if v.kind = 1 then s.bump (.ddrErrCount0 u) F.ddrErrCount0_UNCORRECTABLE 1
    else if v.kind = 2 then s.bump (.ddrErrCount1 u) F.ddrErrCount1_GUARD 1
    else if v.kind = 4 then s.bump (.ddrErrCount1 u) F.ddrErrCount1_STALE 1
    else if v.kind = 0 ∧ v.corrected then s.bump (.ddrErrCount0 u) F.ddrErrCount0_CORRECTED 1
    else s
  let s2 := if v.tagFixed then s1.bump (.ddrErrCount1 u) F.ddrErrCount1_TAG_FIXED 1 else s1
  if (v.tagFixed || (v.kind == 0 && v.corrected)) && !(s2.dram.writeBack.contains n) then
    { s2 with dram := { s2.dram with writeBack := s2.dram.writeBack ++ [n] } }
  else s2

/-- The error of a line shown, and told to `rep` (R183, R184, R446). -/
def State.lineError (rep : Bool → FaultInfo → State → State) (s : State) (q : Requester) (tag : Tag) (n access : Nat)
    (v : Verdict) : State :=
  if v.kind = 0 then s
  else rep (v.kind == 3) (ddrInfo (s.subOf (64 * n)) tag (64 * n) v.kind access v.tag)
    (s.ddrShow q (64 * n) v.kind (v.tag.toNat % 256))

/-- One line read by R184: none where the read is refused. -/
def State.lineReadBy (rep : Bool → FaultInfo → State → State) (s : State) (q : Requester) (tag : Tag)
    (gen : Option (BitVec 16)) (n : Nat) : State × Option (List PByte) :=
  let v := checkLine s.dram n q.code gen
  let s1 := State.lineError rep (s.ddrCount n v) q tag n 0 v
  (s1, if v.kind = 3 then none else some (v.data.map fun b => (b, v.kind != 0)))

/-- Lines read one after the other, up to the first that is refused. -/
def State.linesReadBy (rep : Bool → FaultInfo → State → State) (q : Requester) (tag : Tag) (gen : Option (BitVec 16)) :
    Nat → Nat → State → State × Option (List PByte)
  | 0, _, s => (s, some [])
  | k + 1, n, s =>
    match State.lineReadBy rep s q tag gen n with
    | (s1, none) => (s1, none)
    | (s1, some d) =>
      match State.linesReadBy rep q tag gen k (n + 1) s1 with
      | (s2, none) => (s2, none)
      | (s2, some t) => (s2, some (d ++ t))

/-- The bytes of a range read line by line. -/
def State.rangeReadBy (rep : Bool → FaultInfo → State → State) (s : State) (q : Requester) (tag : Tag)
    (gen : Option (BitVec 16)) (a n : Nat) : State × Option (List PByte) :=
  match State.linesReadBy rep q tag gen ((a + n + 63) / 64 - a / 64) (a / 64) s with
  | (s1, none) => (s1, none)
  | (s1, some d) => (s1, some (part d (a % 64) n))

/-- The tag that a write gives a line (R181, R183). -/
def writeTag (code : Nat) (poison : Bool) (gen : BitVec 16) : Word :=
  BitVec.ofNat 32 (code + 256 * bitNat poison + 65536 * gen.toNat)

/-- One line written by R183: `at_` is the place of the first byte in the line. False where it is refused. -/
def State.lineWriteBy (rep : Bool → FaultInfo → State → State) (s : State) (q : Requester) (tag : Tag) (gen : BitVec 16)
    (n at_ : Nat) (d : List PByte) : State × Bool :=
  if at_ = 0 ∧ d.length = 64 then
    ({ s with dram := linePut s.dram n (rawBytes d) (writeTag q.code (anyPoison d) gen) }, true)
  else
    let v := checkLine s.dram n q.code none
    let s1 := State.lineError rep (s.ddrCount n v) q tag n 1 v
    if v.kind = 3 then (s1, false)
    else
      let merged := v.data.take at_ ++ rawBytes d ++ v.data.drop (at_ + d.length)
      ({ s1 with dram := linePut s1.dram n merged (writeTag q.code (anyPoison d || v.kind != 0) gen) }, true)

/-- Lines written one after the other, up to the first that is refused; `k` bounds their number. -/
def State.linesWriteBy (rep : Bool → FaultInfo → State → State) (q : Requester) (tag : Tag) (gen : BitVec 16) :
    Nat → Nat → List PByte → State → State × Bool
  | 0, _, _, s => (s, true)
  | k + 1, a, d, s =>
    if d.isEmpty then (s, true)
    else
      let len := min d.length (64 - a % 64)
      match State.lineWriteBy rep s q tag gen (a / 64) (a % 64) (d.take len) with
      | (s1, false) => (s1, false)
      | (s1, true) => State.linesWriteBy rep q tag gen k (a + len) (d.drop len) s1

/-! ## The L9's own access -/

/-- A range of the application cores' or the booth's lines read by the L9 itself; what the controller refuses is empty
(R184, R185). -/
def State.ownRead (s : State) (q : Requester) (a n : Nat) : State × List Byte :=
  let (s1, d) := State.rangeReadBy (fun _ i t => t.deviceRecord i) s q q.noTag none a n
  (s1, rawBytes (d.getD []))

/-- Bytes of such lines written by the L9 itself, with generation 0 (R183). -/
def State.ownWrite (s : State) (q : Requester) (a : Nat) (d : List Byte) : State :=
  (State.linesWriteBy (fun _ i t => t.deviceRecord i) q q.noTag 0 (d.length / 64 + 2) a (cleanBytes d) s).1

end Sys2Proof.Machine
end

