-- ==== Sys2Proof/Machine/Report.lean ====
section
/-! DEFINITION. What the L9 reports: messages to the hosts (R303, R321, R322), log entries (R384, R449), trace records
(R450 to R452), fault records and entering FAULTED (R53, R445 to R448). -/

namespace Sys2Proof.Machine

/-- The device record counts (R421). -/
def State.recordValid (s : State) : Bool := !s.sec.record.isEmpty

/-! ## Messages -/

/-- The chunk size of an endpoint (R324). -/
def State.chunkSize (s : State) (e : Fin 64) : Nat :=
  match s.fld (.trsEpConfig e) F.trsEpConfig_CHUNK with
  | 1 => 8192
  | 2 => 1024
  | _ => 1408

/-- The endpoint is bound (R299). -/
def State.epBound (s : State) (e : Fin 64) : Bool := s.fld (.trsEpStatus e) F.trsEpStatus_BOUND == 1

/-- The endpoint is the internal one (R299). -/
def State.epInternal (s : State) (e : Fin 64) : Bool := s.fld (.trsEpStatus e) F.trsEpStatus_INTERNAL == 1

/-- The endpoint is secured (R302). -/
def State.epSecured (s : State) (e : Fin 64) : Bool := s.fld (.trsEpStatus e) F.trsEpStatus_SECURED == 1

/-- The Ethernet port of an endpoint. -/
def State.epPort (s : State) (e : Fin 64) : Fin 4 :=
  ⟨s.fld (.trsEpStatus e) F.trsEpStatus_PORT % 4, by omega⟩

/-- A message of a TYPE may leave on the endpoint now: a bound endpoint with a peer, with traffic (R302, R321), and
without a PAUSE on its port (R298); the internal endpoint always, once the directory is in force (R322, R361). -/
def State.epOpen (s : State) (e : Fin 64) (type : Byte) : Bool :=
  s.epBound e &&
    if s.epInternal e then !s.boot.dirBad
    else s.fld (.trsEpStatus e) F.trsEpStatus_PEER_KNOWN == 1 &&
      (!s.epSecured e || s.fld (.trsEpStatus e) F.trsEpStatus_KEY_LIVE == 1 || type == 0x10 || type == 0x11) &&
      s.fld (.ethPortStatus (s.epPort e)) F.ethPortStatus_PAUSED == 0

/-- The 32 header bytes of one chunk of a message, with its CRC (R303). -/
def chunkHeader (e : Fin 64) (m : Msg) (len : Nat) (last : Bool) (crc : Word) : List Byte :=
  [0x01, m.type, BitVec.ofNat 8 (e.val / 8), BitVec.ofNat 8 (e.val % 8)] ++ beBytes 2 m.msgId.toNat ++
    [m.gen, BitVec.ofNat 8 (bitNat last + 2 * bitNat m.reply + 4 * bitNat (m.bad.any fun i => decide (m.offset ≤ i) && decide (i < m.offset + len)))] ++
    beBytes 2 len ++ beBytes 2 m.status ++ beBytes 4 m.id.toNat ++ beBytes 8 m.stamp.toNat ++
    beBytes 4 m.offset ++ beBytes 4 crc.toNat

/-- The payload of a message's next chunk (R307, R321). -/
def State.nextPayload (s : State) (e : Fin 64) (m : Msg) : List Byte := part m.body m.offset (s.chunkSize e)

/-- The next chunk ends the message. -/
def State.lastOf (s : State) (e : Fin 64) (m : Msg) : Bool :=
  decide (m.body.length ≤ m.offset + (s.nextPayload e m).length)

/-- The Tirsa frame of a message's next chunk: a plain endpoint's carries the CRC-32C of header and payload, any other's a
CRC of zero (R303, R304). -/
def State.frameBytes (s : State) (e : Fin 64) (m : Msg) : List Byte :=
  let payload := s.nextPayload e m
  let header := chunkHeader e m payload.length (s.lastOf e m)
  header (if s.epSecured e || s.epInternal e then 0 else crc32c (header 0 ++ payload)) ++ payload

/-- What is left of a message after its next chunk: none once the last one has gone. -/
def State.msgRest (s : State) (e : Fin 64) (m : Msg) : Option Msg :=
  if s.lastOf e m then none else some { m with offset := m.offset + (s.nextPayload e m).length }

/-! ### On a port -/

/-- A frame passed to a port's MAC (R298). -/
def State.toWire (s : State) (p : Fin 4) (f : TxFrame) : State := { s with wire := s.wire.set p (s.wire[p] ++ [f]) }

/-- The frame in which an endpoint sends bytes (R299, R301): to an address, from its port's, with its VLAN and PCP or
untagged for VID 0, under MACsec where `secure` asks for it and a SAK is live. -/
def State.framed (s : State) (e : Fin 64) (dst : BitVec 48) (etherType : BitVec 16) (secure : Bool) (payload : List Byte) :
    TxFrame where
  dst := dst
  src := s.boot.macs[s.epPort e]
  tag := match s.fld (.trsEpStatus e) F.trsEpStatus_VLAN with
    | 0 => none
    | vid => some (vid, s.fld (.trsEpConfig e) F.trsEpConfig_PCP)
  packet := if secure && s.fld (.trsEpStatus e) F.trsEpStatus_KEY_LIVE == 1 then some (s.ep e).pn else none
  etherType := etherType
  payload := payload

/-- The peer address of an endpoint (R321). -/
def State.peerOf (s : State) (e : Fin 64) : BitVec 48 :=
  ((s.reg (.trsEpPeer e 1)).setWidth 16).append (s.reg (.trsEpPeer e 0))

/-- A message's next frame passed to the MAC of its port; under a live SAK it takes a packet number (R301, R321). -/
def State.portFrame (s : State) (e : Fin 64) (m : Msg) : State :=
  let f := s.framed e (s.peerOf e) (BitVec.ofNat 16 (s.fld .trsEthertype F.trsEthertype_TYPE)) true (s.frameBytes e m)
  let s1 := (s.toWire (s.epPort e) f).onEp e fun k => { k with pn := if f.packet.isSome then k.pn + 1 else k.pn }
  { s1 with ethTurn := s1.ethTurn.set (s.epPort e) (e.val + 1) }

/-! ### On the internal endpoint -/

/-- The bytes of an area of the internal endpoint. -/
abbrev areaBytes : Nat := 8388608

/-- Where an entry of `n` bytes goes in the outbound area, with the new WRITE and whether a skip is marked: none where
it does not fit (R322). -/
def areaPlace (write read n : Nat) : Option (Nat × Nat × Bool) :=
  if write + n ≤ areaBytes then
    let next := (write + n) % areaBytes
    if next = read || (decide (write < read) && decide (read ≤ write + n)) then none else some (write, next, false)
  else if decide (write < read) || decide (read ≤ n) then none
  else some (0, n, true)

/-- The first DRAM address of the internal endpoint's unit (R322). -/
def State.intBase (s : State) : Nat := unitBytes * s.fld .trsIntBase F.trsIntBase_UNIT

/-- The two words of a control line of the internal endpoint read, WRITE first (R322). -/
def State.intLine (s : State) (o : Nat) : State × Nat × Nat :=
  let (s1, d) := s.ownRead .app (s.intBase + o) 8
  (s1, leAt d 0 4, leAt d 4 4)

/-- A message's next frame written to the outbound area as an entry of a multiple of 64 bytes; false where it does not fit
(R322). -/
def State.areaEntry (s : State) (e : Fin 64) (m : Msg) : State × Bool :=
  let (s1, write, read) := s.intLine 0x40
  let entry := s.frameBytes e m
  let padded := padTo (64 * ceilDiv entry.length 64) 0 entry
  match areaPlace write read padded.length with
  | none => (s1, false)
  | some (at_, next, skip) =>
    let s2 := if skip then s1.ownWrite .app (s.intBase + areaBytes + write) [0x01, 0x00] else s1
    ((s2.ownWrite .app (s.intBase + areaBytes + at_) padded).ownWrite .app (s.intBase + 0x40) (leBytes 4 next), true)

/-! ### One frame after another -/

/-- The result slot that a RESULT sends: slot and SERIAL of its prefix; stream 0xFF and 0xFE carry none (R319). -/
def Msg.slot (m : Msg) : Option (Nat × Word) :=
  if m.type = 0x20 ∧ beAt m.body 0 1 < 16 then some (beAt m.body 2 2, BitVec.ofNat 32 (beAt m.body 4 4)) else none

/-- A slot of a ring that is not EMPTY. -/
def slotOf (k : Ring) (n : Nat) : Option ResultSlot := (k.slots.find? fun p => p.1 == n).map fun p => p.2

/-- A slot of a ring set; none is EMPTY. -/
def slotPut (n : Nat) (v : Option ResultSlot) (k : Ring) : Ring :=
  let rest := k.slots.filter fun p => p.1 != n
  { k with slots := match v with
    | some x => (rest.filter fun p => decide (p.1 < n)) ++ [(n, x)] ++ rest.filter fun p => decide (n < p.1)
    | none => rest }

/-- The last chunk of a message has passed: a slot that it pushes becomes TAKEN (R317). -/
def State.passed (s : State) (e : Fin 64) (m : Msg) : State :=
  let s1 := s.onEp e fun k => { k with sent := k.sent ++ [{ m with offset := 0 }] }
  match m.slot with
  | some (n, serial) => s1.onRing (epRing e) fun k => match slotOf k n with
    | some v => if v.serial = serial ∧ v.state = .ready then slotPut n (some { v with state := .taken }) k else k
    | none => k
  | none => s1

/-- The frames that a message still makes. -/
def State.framesOf (s : State) (e : Fin 64) (m : Msg) : Nat := max 1 (ceilDiv (m.body.length - m.offset) (s.chunkSize e))

/-- The place of the first message of the lowest class in a list (R321). -/
def nextMsg (l : List Msg) : Option Nat :=
  let best (c : Nat) : Option Nat := l.findIdx? fun m => m.cls == c
  (best 0).orElse fun _ => (best 1).orElse fun _ => best 2

/-- The message whose frame an endpoint sends next: the first of the lowest class among those that may leave (R321). -/
def State.nextOn (s : State) (e : Fin 64) : Option Msg :=
  let l := (s.ep e).queue.filter fun m => s.epOpen e m.type
  (nextMsg l).bind fun i => l[i]?

/-- One frame of an endpoint sent; false where none may leave. A message goes on in front of those of its class. -/
def State.sendOne (s : State) (e : Fin 64) : State × Bool :=
  match s.nextOn e with
  | none => (s, false)
  | some m =>
    let (s1, left) := if s.epInternal e then s.areaEntry e m else (s.portFrame e m, true)
    if !left then (s1, false)
    else
      let s2 := s1.onEp e fun k => { k with queue := k.queue.erase m }
      match s.msgRest e m with
      | none => (s2.passed e m, true)
      | some m1 => (s2.onEp e fun k => { k with queue := m1 :: k.queue }, true)

/-- The frames that the waiting messages of an endpoint make. -/
def State.framesLeft (s : State) (e : Fin 64) : Nat := ((s.ep e).queue.map (s.framesOf e)).sum

/-- The waiting messages of an endpoint sent while they may leave. -/
def State.pump (e : Fin 64) : Nat → State → State
  | 0, s => s
  | fuel + 1, s =>
    match s.sendOne e with
    | (s1, true) => State.pump e fuel s1
    | (s1, false) => s1

/-- The waiting messages of an endpoint sent. -/
def State.pumpEp (s : State) (e : Fin 64) : State := State.pump e (s.framesLeft e) s

/-- The endpoints of a port, from the one after the endpoint that it served last (R321). -/
def State.portTurn (s : State) (p : Fin 4) : List (Fin 64) :=
  let t := s.ethTurn[p]
  (((List.finRange 64).filter fun e => decide (t ≤ e.val)) ++ (List.finRange 64).filter fun e => decide (e.val < t)).filter
    fun e => s.epBound e && s.epPort e == p && !s.epInternal e

/-- A port serves its endpoints in turn, one frame at a time, while they have one to send (R321). -/
def State.servePort (p : Fin 4) : Nat → State → State
  | 0, s => s
  | fuel + 1, s =>
    match (s.portTurn p).find? fun e => (s.nextOn e).isSome with
    | some e => State.servePort p fuel (s.sendOne e).1
    | none => s

/-- The messages that wait on the endpoints of a port sent. -/
def State.pumpPortEps (s : State) (p : Fin 4) : State :=
  State.servePort p ((s.portTurn p).map s.framesLeft).sum s

/-- A message handed to its endpoint: it leaves, or it waits (R317, R321, R322). An endpoint that is not bound has no
one to send to. -/
def State.send (s : State) (e : Fin 64) (m : Msg) : State :=
  if s.epBound e then (s.onEp e fun k => { k with queue := k.queue ++ [m] }).pumpEp e else s

/-- A message of the L9's own: it takes the endpoint's next MSG_ID and GEN (R306). -/
def State.sendOwn (s : State) (e : Fin 64) (cls : Nat) (type : Byte) (id : Word) (stamp : DWord) (bad : List Nat)
    (body : List Byte) : State :=
  let k := s.ep e
  let next := k.msgId + 1
  (s.onEp e fun k => { k with msgId := next, gen := if next == 0 then k.gen + 1 else k.gen }).send e
    ⟨cls, type, k.msgId, k.gen, false, bad, 0, id, stamp, body, 0⟩

/-- A reply: it carries the TYPE, MSG_ID and GEN of its request (R305). -/
def State.reply (s : State) (r : Fin 8) (a : Asker) (cls status : Nat) (stamp : DWord) (bad : List Nat)
    (body : List Byte) : State :=
  s.send (epIx r a.endpoint) ⟨cls, a.type, a.msgId, a.gen, true, bad, status, a.id, stamp, body, 0⟩

/-- A reply that is a status alone. -/
def State.replyStatus (s : State) (r : Fin 8) (a : Asker) (status : Nat) : State := s.reply r a 0 status 0 [] []

/-- The result prefix (R319): STREAM, FLAGS, SLOT, SERIAL, LENGTH. -/
def resultPrefix (stream flags slot : Nat) (serial : Word) (length : Nat) : List Byte :=
  beBytes 1 stream ++ beBytes 1 flags ++ beBytes 2 slot ++ beBytes 4 serial.toNat ++ beBytes 4 length ++ beBytes 4 0

/-- The status codes of R312. -/
abbrev stOk : Nat := 0
abbrev stAccessSize : Nat := 1
abbrev stAccessRing : Nat := 2
abbrev stAccessFlag : Nat := 3
abbrev stAccessRange : Nat := 4
abbrev stAccessNone : Nat := 5
abbrev stRingParked : Nat := 6
abbrev stCtxState : Nat := 7
abbrev stFeState : Nat := 8
abbrev stSmpState : Nat := 9
abbrev stSeqContext : Nat := 10
abbrev stSeqLost : Nat := 11
abbrev stSeqPoolShort : Nat := 12
abbrev stNotReady : Nat := 13
abbrev stEmptySlot : Nat := 14
abbrev stStaleSlot : Nat := 15
abbrev stPendingFull : Nat := 16
abbrev stRepeated : Nat := 17
abbrev stBusy : Nat := 18
abbrev stIncomplete : Nat := 19
abbrev stNoProgram : Nat := 20
abbrev stRingState : Nat := 21
abbrev stRsState : Nat := 22
abbrev stFormat : Nat := 23

/-! ## Debug levels -/

/-- FULL is in force: a token of that level, or a Blank device (R433). -/
def State.debugFull (s : State) : Bool := s.fld .secStatus F.secStatus_FULL == 1

/-- The effective debug level of a ring: 0 NONE, 1 TRACE, 2 INVASIVE, 3 FULL (R433). -/
def State.debugLevel (s : State) (r : Fin 8) : Nat :=
  if s.debugFull then 3 else s.fld (.secRingDebug r) F.secRingDebug_LEVEL

/-- The debug endpoint of a ring; the internal endpoint is that of the ring itself (R435, R440). -/
def State.debugEp (s : State) (r : Fin 8) : Option (Fin 64) :=
  let g := s.fld (.secRingDebug r) F.secRingDebug_DBG_RING
  if g = 15 then (s.internalEp r).map (epIx r)
  else if h : g < 8 then some (epIx ⟨g, h⟩ ⟨s.fld (.secRingDebug r) F.secRingDebug_DBG_EP % 8, by omega⟩)
  else none

/-! ## Records sent -/

/-- Where PUSH sends a ring's records: its ENDPOINT, or its debug endpoint at level TRACE or higher (R448). -/
def State.pushEp (s : State) (r : Fin 8) : Option (Fin 64) :=
  if s.fld (.errRingFaultCfg r) F.errRingFaultCfg_PUSH = 1 then
    if s.fld (.errRingFaultCfg r) F.errRingFaultCfg_DEBUG = 1 then
      (if 1 ≤ s.debugLevel r then s.debugEp r else none)
    else some (epIx r ⟨s.fld (.errRingFaultCfg r) F.errRingFaultCfg_ENDPOINT % 8, by omega⟩)
  else none

/-- A ring's record sent as it is written (R448). -/
def State.pushRecord (s : State) (ring : Option (Fin 8)) (f : FaultRec) : State :=
  match ring with
  | some r =>
    match s.pushEp r with
    | some e => s.sendOwn e 2 0x20 0 0 [] (resultPrefix 0xFE 0 0xFFFF f.seq 64 ++ recordBytes f)
    | none => s
  | none => s

/-- A record that has its SEQ, in its queue, sent where PUSH asks for it, and logged by the booth. -/
def State.fileRecord (s : State) (ring : Option (Fin 8)) (faulting : Bool) (i : FaultInfo) (f : FaultRec) : State :=
  ((s.storeRecord ring f).pushRecord ring f).logRecord ring faulting i f.seq

/-- A record of an error outside the cores, which no core traces. -/
def State.recordUnseen (s : State) (ring : Option (Fin 8)) (i : FaultInfo) : State :=
  ({ s with faultSeq := s.faultSeq + 1 } : State).fileRecord ring false i (s.newRecord ring false i)

/-! ## Trace -/

/-- The trace events of R451. -/
abbrev evMark : Nat := 1
abbrev evIssue : Nat := 2
abbrev evHold : Nat := 3
abbrev evWait : Nat := 4
abbrev evDone : Nat := 5
abbrev evQuant : Nat := 6
abbrev evToken : Nat := 7
abbrev evGeom : Nat := 8
abbrev evExpMismatch : Nat := 9
abbrev evFault : Nat := 10
abbrev evInvoke : Nat := 11
abbrev evEnd : Nat := 12
abbrev evSync : Nat := 13
abbrev evLost : Nat := 14
abbrev evFreq : Nat := 15

/-- The 16 bytes of a trace record (R450). -/
def traceBytes (t : TraceRec) : List Byte :=
  leBytes 4 t.tag.toNat ++ leBytes 6 t.count.toNat ++ leBytes 2 t.event.toNat ++ leBytes 4 t.operand.toNat

/-- The endpoint of a core's STREAM records: the ring's, or its debug endpoint at level TRACE or higher (R452). -/
def State.traceEp (s : State) (r : Fin 8) (c : Fin 16) : Option (Fin 64) :=
  if s.fld (.dbgTraceCtrl c) F.dbgTraceCtrl_DEBUG = 1 then (if 1 ≤ s.debugLevel r then s.debugEp r else none)
  else some (epIx r ⟨s.fld (.dbgTraceCtrl c) F.dbgTraceCtrl_ENDPOINT % 8, by omega⟩)

/-- The first `n` records held sent as one STREAM batch (R452). -/
def State.traceBatchOut (s : State) (r : Fin 8) (c : Fin 16) (n : Nat) : State :=
  let k := s.core c
  let bytes := (k.trace.take n).flatMap traceBytes
  let s1 := s.setCore c { k with trace := k.trace.drop n, traceBatch := k.traceBatch + 1 }
  match s.traceEp r c with
  | none => s1
  | some e => s1.sendOwn e 2 0x20 0 0 []
      (resultPrefix 0xFF 0 c.val (BitVec.ofNat 32 (k.traceBatch + 1)) bytes.length ++ bytes)

/-- The first `n` records held written to the DUMP area, with OWNER the ring (R452). -/
def State.traceDumpOut (s : State) (r : Fin 8) (c : Fin 16) (n : Nat) : State :=
  let k := s.core c
  let size := unitBytes * s.fld (.dbgTraceDump c) F.dbgTraceDump_DUMP_UNITS
  let off := s.fld (.dbgTraceWptr c) F.dbgTraceWptr_OFFSET
  let bytes := (k.trace.take n).flatMap traceBytes
  let base := unitBytes * s.fld (.dbgTraceDump c) F.dbgTraceDump_DUMP_UNIT
  let put (s : State) (o : Nat) (d : List Byte) : State :=
    (State.linesWriteBy (fun _ i s => s.recordUnseen (some r) i) (.boothFor r) (noCommand r) 0 (d.length / 64 + 2) (base + o)
      (cleanBytes d) s).1
  ((put (put (s.setCore c { k with trace := k.trace.drop n }) off (bytes.take (size - off))) 0
    (bytes.drop (size - off))).setFld (.dbgTraceWptr c) F.dbgTraceWptr_OFFSET ((off + bytes.length) % max size 1))

/-- Recording is on for a core: a mode, a ring that runs, and no FREEZE at a fault (R439, R452). -/
def State.tracing (s : State) (r : Fin 8) (c : Fin 16) : Bool :=
  s.fld (.dbgTraceCtrl c) F.dbgTraceCtrl_MODE != 0 &&
    (s.ringLive r || (s.ringState r == stFaulted && s.fld (.dbgTraceCtrl c) F.dbgTraceCtrl_FREEZE == 0))

/-- An event code is enabled, and its queue where the event is ISSUE or HOLD (R451). -/
def State.traceWants (s : State) (c : Fin 16) (event q : Nat) : Bool :=
  (s.reg (.dbgTraceCtrl c)).getLsbD event &&
    (!(event == evIssue || event == evHold) || bitAt (s.fld (.dbgTraceCtrl c) F.dbgTraceCtrl_QUEUES) q)

/-- The records that a core's buffer has taken in this cycle of the core (R450). -/
def Core.traceTaken (k : Core) (now : BitVec 48) : Nat := if k.traceAt = now then k.traceIn else 0

/-- A record that a core's buffer cannot keep is counted (R450, R452). -/
def State.traceLose (s : State) (c : Fin 16) : State :=
  (s.onCore c fun k => { k with traceLost := k.traceLost + 1 }).bump (.dbgTraceLost c) F.dbgTraceLost_COUNT 1

/-- A record put into a core's buffer, which takes up to 2 in each core cycle (R450, R452). -/
def State.traceStore (s : State) (r : Fin 8) (c : Fin 16) (t : TraceRec) : State :=
  let taken := (s.core c).traceTaken t.count
  let k := { s.core c with traceAt := t.count, traceIn := taken + 1 }
  let full := decide (4096 ≤ k.trace.length)
  match s.fld (.dbgTraceCtrl c) F.dbgTraceCtrl_MODE with
  | 1 => if 2 ≤ taken then s.traceLose c
    else s.setCore c { k with trace := (if full then k.trace.drop 1 else k.trace) ++ [t] }
  | mode =>
    if full || decide (2 ≤ taken) then s.traceLose c
    else
      let lost : List TraceRec :=
        if k.traceLost > 0 && mode != 2 && s.traceWants c evLost 0
          then [⟨noCommand r, t.count, BitVec.ofNat 16 evLost, BitVec.ofNat 32 k.traceLost⟩] else []
      let s1 := s.setCore c { k with
        trace := k.trace ++ lost ++ [t], traceLost := if mode != 2 then 0 else k.traceLost }
      if mode = 3 ∧ 256 ≤ (s1.core c).trace.length then s1.traceDumpOut r c 256
      else if mode = 4 ∧ 64 ≤ (s1.core c).trace.length then s1.traceBatchOut r c 64
      else s1

/-- A trace record of a core (R450, R451); `q` is the queue of ISSUE and HOLD. -/
def State.trace (s : State) (c : Fin 16) (event : Nat) (tag : Tag) (operand : Nat) (q : Nat := 0) : State :=
  match s.ringOfCore c with
  | none => s
  | some r =>
    if s.tracing r c && s.traceWants c event q then
      s.traceStore r c ⟨tag, s.count (coreIsland c), BitVec.ofNat 16 event, BitVec.ofNat 32 operand⟩
    else s

/-- What DUMP and STREAM still hold goes out when the ring faults (R452: FREEZE). -/
def State.traceDrain (s : State) (r : Fin 8) : State :=
  (s.coresOf r).foldl (fun s c =>
    let n := (s.core c).trace.length
    if s.fld (.dbgTraceCtrl c) F.dbgTraceCtrl_FREEZE = 0 ∨ n = 0 then s
    else match s.fld (.dbgTraceCtrl c) F.dbgTraceCtrl_MODE with
      | 3 => s.traceDumpOut r c n
      | 4 => (List.range (ceilDiv n 64)).foldl (fun s _ => s.traceBatchOut r c 64) s
      | _ => s) s

/-- A fault record written: it takes the next SEQ and enters the ring's queue, or the device's, is sent where PUSH asks
for it, and is logged by the booth; a core's record is traced there (R445, R447, R448, R449, R451). -/
def State.record (s : State) (ring : Option (Fin 8)) (faulting : Bool) (i : FaultInfo) : State :=
  let f := s.newRecord ring faulting i
  let s0 := { s with faultSeq := s.faultSeq + 1 }
  let s1 := if i.island = isCore then s0.trace (coreFin i.inst) evFault i.tag f.seq.toNat else s0
  s1.fileRecord ring faulting i f

/-- Every pending invocation removed, each INVOKE among them answered with a status; none waits for a slot then (R52, R53,
R324). -/
def State.dropPending (s : State) (r : Fin 8) (status : Nat) : State :=
  (s.ring r).waiting.foldl (fun s i => match i.asker with
    | some a => s.replyStatus r a status
    | none => s) (((List.finRange 16).foldl (fun s t => s.setFld (.trsRstreamStatus (rsIx r t)) F.trsRstreamStatus_HELD 0) s).onRing
      r fun k => { k with waiting := [], admission := none })

/-- The states of a sequence context (R222). -/
abbrev ctxFree : Nat := 0
abbrev ctxOpen : Nat := 1
abbrev ctxActive : Nat := 2
abbrev ctxOut : Nat := 3
abbrev ctxSwapped : Nat := 4
abbrev ctxIn : Nat := 5
abbrev ctxClosing : Nat := 6
abbrev ctxLost : Nat := 7

/-- A sequence context by number. -/
def ctxFin (n : Nat) : Fin 4096 := ⟨n % 4096, by omega⟩

/-- The state of a sequence context (R222). -/
def State.ctxState (s : State) (x : Fin 4096) : Nat := s.fld (.ringCtxStatus x) F.ringCtxStatus_STATE

/-- The state with a sequence context's state set. -/
def State.setCtxState (s : State) (x : Fin 4096) (st : Nat) : State :=
  s.setFld (.ringCtxStatus x) F.ringCtxStatus_STATE st

/-- The state with what the booth holds of a context changed. -/
def State.onCtx (s : State) (r : Fin 8) (x : Fin 4096) (f : CtxInfo → CtxInfo) : State :=
  s.onRing r fun k => { k with ctxs := k.ctxs.map fun p => if p.1 == x.val then (p.1, f p.2) else p }

/-- Every ACTIVE context of a ring returns to OPEN, and every reservation is released (R231, R237). -/
def State.contextsBack (s : State) (r : Fin 8) : State :=
  (s.ring r).ctxs.foldl (fun s p =>
    let s1 := s.onCtx r (ctxFin p.1) fun i => { i with reserve := 0, next := 0, awaited := false }
    if s.ctxState (ctxFin p.1) = ctxActive then s1.setCtxState (ctxFin p.1) ctxOpen else s1) s

/-- A ring enters FAULTED: STATE, CAUSE and RING_EVENT.FAULTED are set, its pending list is emptied, its ACTIVE contexts
return to OPEN (R53, R55, R237). -/
def State.enterFaulted (s : State) (r : Fin 8) (cause : Nat) : State :=
  ((((s.setRingState r stFaulted cause).setFld (.ringEvent r) F.ringEvent_FAULTED 1).traceDrain r).dropPending r
    stRingState).contextsBack r

/-- The ring may enter FAULTED: it holds its resources and is neither FAULTED nor being stopped (R52, R53). -/
def State.mayFault (s : State) (r : Fin 8) : Bool :=
  (s.ring r).bound && s.ringState r != stFaulted && s.ringState r != stStopping

/-- An error of a FAULTED ring detected in the same cycle of the same island as the first faulting record, while its queue
has room for one (R447; log 142). -/
def State.sameCycle (s : State) (r : Fin 8) (i : FaultInfo) : Bool :=
  let l := (s.ring r).faults
  s.ringState r == stFaulted && (decide (l.length < 128) || l.any fun f => !recFaulting f) &&
    match l.find? recFaulting with
    | some f => f.island.toNat == i.island && f.inst.toNat == i.inst && f.count == s.count (islandOf i.island i.inst)
    | none => false

/-- A faulting record and the ring's entry into FAULTED; a ring that is FAULTED gains no further one, but for those of the
first one's cycle and island (R53, R447). -/
def State.faultRing (s : State) (r : Fin 8) (i : FaultInfo) : State :=
  if s.mayFault r then (s.record (some r) true i).enterFaulted r i.cause
  else if s.sameCycle r i then s.record (some r) true i
  else s

/-- An isolation fault of a ring (R57). -/
def State.isolation (s : State) (r : Fin 8) (tag : Tag) (island inst row access len addr : Nat) : State :=
  s.faultRing r ⟨tag, cauIsolation, island, inst, addr, isolationArea row access 0xFF len⟩

/-- A ring consumes poison (R444, R446): LEVEL and QUEUE. -/
def State.poisoned (s : State) (r : Fin 8) (tag sourceTag : Tag) (island inst level queue addr : Nat) : State :=
  s.faultRing r ⟨tag, cauPoison, island, inst, addr,
    leBytes 4 sourceTag.toNat ++ [BitVec.ofNat 8 level, BitVec.ofNat 8 queue]⟩

/-- ALERT_N is asserted (R448, R462, R470): a reset of the REFCLK check, a DRAM halt, a lockstep recovery, a thermal
emergency, or a device record; Deep standby releases it (R474). -/
def State.alert (s : State) : Bool :=
  s.boot.phase != .deepStandby && (s.pins.refReset || s.fld .bootStatus F.bootStatus_HALT_CAUSE == 1 || s.pins.lockAlert ||
    s.power.hotLimit || !s.devFaults.isEmpty)

end Sys2Proof.Machine
end

