-- ==== Sys2Proof/Machine/OnChip.lean ====
section
/-! DEFINITION. The ports to core memory and to the midway (R155, R156, R161, R166): reads and writes through the decoders
of R140, with the counters of R442 and the MEMORY records of R446. -/

namespace Sys2Proof.Machine

/-- The AREA of a MEMORY record of an on-chip word (R446): its level and its bank. -/
def eccArea (level bank : Nat) : List Byte := [BitVec.ofNat 8 level, 1, 0xFF, BitVec.ofNat 8 bank] ++ leBytes 2 0

/-! ## Core memory -/

/-- A word that a core's decoder has corrected or found uncorrectable: counted, and recorded for the command that asked for
it where it is uncorrectable (R441, R442, R446). -/
def State.coreEcc (s : State) (tag : Tag) (c : Fin 16) (w : Nat) (bad : Bool) : State :=
  if bad then
    (s.bump (.errCoreEcc c) F.errCoreEcc_UNCORRECTABLE 1).record (s.ringOfCore c) false
      ⟨tag, cauMemory, isCore, c.val, 0, eccArea 1 (w / 2 % 32)⟩
  else s.bump (.errCoreEcc c) F.errCoreEcc_CORRECTED 1

/-- The state with a core's memory accessed by a command, and what its decoder found counted and recorded. -/
def State.onMem (s : State) (tag : Tag) (c : Fin 16) (f : Core → Core) : State :=
  let k := f (s.core c)
  k.ecc.foldl (fun s e => s.coreEcc tag c e.1 e.2) (s.setCore c { k with ecc := [] })

/-- The tag of what no command of a core asked for (R132). -/
def State.coreTag (s : State) (c : Fin 16) : Tag :=
  match s.ringOfCore c with
  | some r => noCommand r
  | none => deviceTag

/-- A port's read of core memory: entries of the lines read are flushed, the words decoded, POISON_READ is set by a poisoned
word (R146, R155, R156, R173). -/
def State.cmRead (s : State) (tag : Tag) (c : Fin 16) (a n : Nat) : State × List PByte :=
  let s1 := s.onMem tag c (readyRange a n)
  let d := coreGet (s1.core c) a n
  (if anyPoison d then s1.setFld (.coreMemStatus c) F.coreMemStatus_POISON_READ 1 else s1, d)

/-- A port's write of core memory. -/
def State.cmWrite (s : State) (tag : Tag) (c : Fin 16) (a : Nat) (d : List PByte) : State := s.onMem tag c (corePut a d)

/-- A write of 4 bytes that the ringmaster or the booth sends over the remote path goes through the gathering buffer
(R154). -/
def State.remoteWrite (s : State) (tag : Tag) (c : Fin 16) (a : Nat) (bytes : List Byte) : State :=
  s.onMem tag c (gatherPut (a / 64) (bytes.zipIdx.map fun p => (a % 64 + p.2, p.1)))

/-! ## The midway -/

/-- An uncorrectable word of a slice poisoned, counted and recorded (R146, R442, R446). -/
def State.sliceBad (s : State) (ring : Option (Fin 8)) (tag : Tag) (n : Nat) : State :=
  let m := subFin (n / 1048576)
  let s1 := { s.bump (.errSliceEcc m) F.errSliceEcc_UNCORRECTABLE 1 with
    mwy := smWrite 0 s.mwy (32 * n) (rawWord s.mwy s.mwyFlips n), mwyBad := smSet 0 s.mwyBad n 1
    mwyFlips := smClear s.mwyFlips (36 * n) (36 * n + 36) }
  s1.record ring false ⟨tag, cauMemory, isSlice, m.val, 0, eccArea 2 (n / 4 % 64)⟩

/-- A word of the midway decoded, as every read and every read-modify-write does (R140, R146, R442). -/
def State.sliceDecode (s : State) (r : Fin 8) (tag : Tag) (n : Nat) : State :=
  if (smGet 0 s.mwyBad n).getLsbD 0 then s
  else match eccOf s.mwyFlips n with
    | .clean => s
    | .corrected => s.bump (.errSliceEcc (subFin (n / 1048576))) F.errSliceEcc_CORRECTED 1
    | .uncorrectable => s.sliceBad (some r) tag n

/-- The flat numbers of words of a ring's midway space. -/
def State.mwyWords (s : State) (r : Fin 8) (l : List Nat) : List Nat := l.map fun w => s.mwyPlace r (32 * w) / 32

/-- A ring's midway space read; POISON_READ of a slice is set by a poisoned word (R161, R174). -/
def State.mwyRead (s : State) (r : Fin 8) (tag : Tag) (a n : Nat) : State × List PByte :=
  let s1 := (s.mwyWords r (wordsOf a n)).foldl (fun t w => t.sliceDecode r tag w) s
  let d := bytesGet (s.mwyPlace r) s1.mwy s1.mwyBad a n
  (((List.range n).filter fun i => (d.getD i (0, false)).2).foldl (fun t i =>
    t.setFld (.mwySliceStatus (subFin (s.mwyPlace r (a + i) / 33554432))) F.mwySliceStatus_POISON_READ 1) s1, d)

/-- A ring's midway space written; a word that is not written whole is read first (R146, R161). -/
def State.mwyWrite (s : State) (r : Fin 8) (tag : Tag) (a : Nat) (d : List PByte) : State :=
  let s1 := (s.mwyWords r (partWords a d.length)).foldl (fun t w => t.sliceDecode r tag w) s
  { s1 with
    mwy := bytesPut (s.mwyPlace r) a d s1.mwy, mwyBad := marksPut (s.mwyPlace r) a d s1.mwyBad
    mwyFlips := freshWords (s.mwyWords r (wordsOf a d.length)) s1.mwyFlips }

end Sys2Proof.Machine
end

