-- ==== Sys2Proof/Machine/DramPort.lean ====
section
/-! DEFINITION. Checked access to DRAM: who may reach which region (R57, R170, R185, R187), reads by R184 and writes by
R183, with their counters, DDR_ERR_INFO and records; and addresses in the form of BUF_BASE (R259). -/

namespace Sys2Proof.Machine

/-- The ring that an access of the requester can fault (R57, R183). -/
def Requester.faults : Requester → Option (Fin 8)
  | .ring r => some r
  | .window _ _ => none
  | .app => none
  | .booth => none
  | .boothFor _ => none
  | .spill _ => none

/-- What an error or a refusal of a requester's access writes: an isolation error of a ring faults it; any other is a record
(R57, R183, R446). -/
def Requester.report (q : Requester) (isolation : Bool) (i : FaultInfo) (s : State) : State :=
  match isolation, q.faults with
  | true, some r => s.faultRing r i
  | _, _ => s.record q.recRing false i

/-- One line read by R184: none where the read is refused. -/
def State.lineRead (s : State) (q : Requester) (tag : Tag) (gen : Option (BitVec 16)) (n : Nat) :
    State × Option (List PByte) := State.lineReadBy q.report s q tag gen n

/-- A refusal for an address outside the requester's reach (R57, R185, R187): the record with the offending tag, and the
ring that it faults. -/
def State.ddrOutside (s : State) (q : Requester) (tag : Tag) (a n access : Nat) : State :=
  q.report true ⟨tag, cauIsolation, isDdr, s.subOf a % 4, dramForm a, isolationArea 3 access 0xFF n⟩ s

/-- A DRAM read: none where it is refused (R57, R184). -/
def State.dramRead (s : State) (q : Requester) (tag : Tag) (gen : Option (BitVec 16)) (a n : Nat) :
    State × Option (List PByte) :=
  if n = 0 then (s, some [])
  else if s.dramAllowed q a n then State.rangeReadBy q.report s q tag gen a n
  else (s.ddrOutside q tag a n 0, none)

/-- A DRAM write: false where it is refused (R57, R183). -/
def State.dramWrite (s : State) (q : Requester) (tag : Tag) (gen : BitVec 16) (a : Nat) (d : List PByte) : State × Bool :=
  if d.isEmpty then (s, true)
  else if s.dramAllowed q a d.length then State.linesWriteBy q.report q tag gen (d.length / 64 + 2) a d s
  else (s.ddrOutside q tag a d.length 1, false)

/-! ## Addresses in the form of BUF_BASE -/

/-- The address lies in DRAM (R259: bit 63). -/
def bufDram (a : DWord) : Bool := a.getLsbD 63

/-- The DRAM address in bits 36 to 0 (R259). -/
def bufAddr (a : DWord) : Nat := if bufDram a then a.toNat % 2 ^ 37 else a.toNat

/-- A range lies in the ring's midway space, or in its DRAM regions outside SPILL (R313, R314). -/
def State.bufInside (s : State) (r : Fin 8) (a : DWord) (n : Nat) : Bool :=
  if bufDram a then decide (bufAddr a + n ≤ s.dramSize) && s.inRegions r (bufAddr a) n
  else decide (bufAddr a + n ≤ s.mwySize r)

/-- A range read by the L9 for a ring, at an address in the form of BUF_BASE (R313). -/
def State.bufRead (s : State) (r : Fin 8) (a : DWord) (o n : Nat) : State × Option (List PByte) :=
  if bufDram a then s.dramRead (.boothFor r) (noCommand r) none (bufAddr a + o) n
  else
    let (s1, d) := s.mwyRead r (noCommand r) (bufAddr a + o) n
    (s1, some d)

/-- Bytes written by the L9 for a ring, at an address in the form of BUF_BASE (R313). -/
def State.bufWrite (s : State) (r : Fin 8) (a : DWord) (o : Nat) (d : List PByte) : State × Bool :=
  if bufDram a then s.dramWrite (.boothFor r) (noCommand r) 0 (bufAddr a + o) d
  else (s.mwyWrite r (noCommand r) (bufAddr a + o) d, true)

/-- A 64-bit register or descriptor field, low word first (R11). -/
def State.reg64 (s : State) (lo hi : Reg) : DWord := (s.reg hi).append (s.reg lo)

/-- The site of a DRAM address within its subchannel's devices (R177, R178): the bank group, the bank within it, the rank,
the row and the column at which the line's burst starts. No command of the table names a site: it shows at the balls. -/
def State.dramSite (s : State) (a : Nat) : Nat × Nat × Nat × Nat × Nat :=
  let width := F.ddrConfig_WIDTH.get (s.reg .ddrConfig)
  let groups := if width = 2 then 4 else 8
  let ranks := F.ddrConfig_RANKS.get (s.reg .ddrConfig) + 1
  let page := if width = 0 then 8192 else 4096
  let j := a / 256 / s.subs.length
  let q := j / (4 * groups) / ranks
  (j % groups, j / groups % 4, j / (4 * groups) % ranks, q / (page / 256),
    16 * (4 * (q % (page / 256)) + a % 256 / 64))

end Sys2Proof.Machine
end

