-- ==== Sys2Proof/Machine/Flags.lean ====
section
/-! DEFINITION. Flags (R124 to R128): core flags, ring flags, the crossings to them (R23, R127), and what a ring flag's
set brings about: result posts (R316) and FLAG triggers (R113, R114). -/

namespace Sys2Proof.Machine

/-! ## Core flags (R124 to R127) -/

/-- An operation takes effect on the core flags; a set of a flag that is set is an overrun (R126). -/
def flagStep (a : BitVec 64 × Bool) (o : FlagOp) : BitVec 64 × Bool :=
  let bit := (1#64).shiftLeft o.flag
  if o.set then (a.1 ||| bit, a.2 || a.1.getLsbD o.flag) else (a.1 &&& ~~~bit, a.2)

/-- The order in which operations take effect: slot by slot, and in one slot the clears before the sets (R126). -/
def opKey (o : FlagOp) : Nat := 2 * o.slot + bitNat o.set

/-- An operation put among those that have not reached their flag, behind its equals. -/
def insertOp (o : FlagOp) : List FlagOp → List FlagOp
  | [] => [o]
  | x :: t => if opKey x ≤ opKey o then x :: insertOp o t else o :: x :: t

/-- The core flags as a wait in slot `u` finds them, and whether a set that reached them by then was an overrun (R126,
R127). -/
def flagsBy (u : Nat) (k : Core) : BitVec 64 × Bool := (k.flagPend.filter fun o => decide (o.slot ≤ u)).foldl flagStep (k.flags, false)

/-- The core flags as a unit in a later cycle finds them: every operation issued has reached its flag (R127). -/
def flagsAfter (k : Core) : BitVec 64 × Bool := k.flagPend.foldl flagStep (k.flags, false)

/-- The operations of which `p` holds have reached their flags. -/
def State.reachFlags (s : State) (c : Fin 16) (v : BitVec 64 × Bool) (p : FlagOp → Bool) : State :=
  let s1 := s.onCore c fun k => { k with flags := v.1, flagPend := k.flagPend.filter fun o => !p o }
  if v.2 then s1.setFld (.coreSeqStatus c) F.coreSeqStatus_FLAG_OVERRUN 1 else s1

/-- The core's flags brought up to a slot. -/
def State.flagsTo (s : State) (c : Fin 16) (u : Nat) : State :=
  s.reachFlags c (flagsBy u (s.core c)) fun o => decide (o.slot ≤ u)

/-- The core's flags brought up to date for a unit whose cycles are no slots: the access side and the sequencers
(log 108). -/
def State.flagsNow (s : State) (c : Fin 16) : State := s.reachFlags c (flagsAfter (s.core c)) fun _ => true

/-- An operation of a unit of the core, which reaches its flag in the next core cycle (R127). `exec` tells a unit of the
execute side. -/
def State.pendFlag (s : State) (c : Fin 16) (exec : Bool) (n : Fin 64) (set : Bool) : State :=
  let s1 := if exec then s else s.flagsNow c
  s1.onCore c fun k => { k with flagPend := insertOp ⟨k.slot + 1, n, set⟩ k.flagPend }

/-- An operation that reaches a core flag in the present cycle: the ringmaster's (R125, R127). -/
def State.flagArrives (s : State) (c : Fin 16) (n : Fin 64) (set : Bool) : State :=
  s.reachFlags c (flagStep ((s.core c).flags, false) ⟨0, n, set⟩) fun _ => false

/-- A passing wait with CONSUME clears the flag in one action (R125). -/
def State.consumeCore (s : State) (c : Fin 16) (exec : Bool) (n : Fin 64) : State :=
  (if exec then s else s.flagsNow c).onCore c fun k => { k with flags := k.flags &&& ~~~ (1#64).shiftLeft n }

/-- A recorded wait consumes a core flag. -/
def consumes (n : Fin 64) (w : Option Wait) : Bool :=
  (w.map fun x => x.kind == .flag && x.index == n.val && x.consume).getD false

/-- Units of a core before a rank wait to consume a flag, so that they pass first: the queues by number, then the access
sequencer (5), then the execute sequencer (6) (R126). -/
def outranked (k : Core) (rank : Nat) (n : Fin 64) : Bool :=
  ((List.finRange 5).any fun q => decide (q.val < rank) && consumes n k.queues[q].wait) ||
    (decide (5 < rank) && consumes n k.access.wait) || (decide (6 < rank) && consumes n k.execute.wait)

/-- The cores of a mask, ascending. -/
def maskCores (m : BitVec 16) : List (Fin 16) := (List.finRange 16).filter fun c => m.getLsbD c

/-! ## Crossings (R23, R24) -/

/-- The entries of a crossing, in order. -/
def State.crossOf (s : State) (x : Crossing) : List CrossOp := (s.cross.filter fun e => e.1 == x).map fun e => e.2

/-- The crossing takes no further entry: its 8 places are taken (R23). -/
def State.crossFull (s : State) (x : Crossing) : Bool := decide (8 ≤ (s.crossOf x).length)

/-- The sender holds entries back for the crossing. -/
def State.holdsBack (s : State) (x : Crossing) : Bool := s.heldBack.any fun e => e.1 == x

/-- An entry written into a crossing. A full one holds back its sender, which keeps the entry until a place is free; its
other paths go on (R23, R24). -/
def State.crossPut (s : State) (x : Crossing) (o : CrossOp) : State :=
  if s.crossFull x || s.holdsBack x then { s with heldBack := s.heldBack ++ [(x, o)] }
  else { s with cross := s.cross ++ [(x, o)] }

/-- The oldest entry of a crossing taken out of a list. -/
def takeCross (x : Crossing) : List (Crossing × CrossOp) → Option (CrossOp × List (Crossing × CrossOp))
  | [] => none
  | e :: t => if e.1 = x then some (e.2, t) else (takeCross x t).map fun p => (p.1, e :: p.2)

/-- The receiver has taken the oldest entry; the freed place goes to the oldest one that the sender holds back (R23). -/
def State.crossTaken (s : State) (x : Crossing) (rest : List (Crossing × CrossOp)) : State :=
  match takeCross x s.heldBack with
  | some (o, back) => { s with cross := rest ++ [(x, o)], heldBack := back }
  | none => { s with cross := rest }

/-- An entry of a crossing is a ring's. -/
def CrossOp.ofRing (r : Fin 8) : CrossOp → Bool
  | .setFlag g _ => g == r
  | .clearFlag g _ => g == r
  | .coreFlag g _ _ _ => g == r
  | .test g _ _ _ => g == r
  | .coreTest g _ _ _ => g == r
  | .answer g _ _ => g == r
  | .hint g _ _ _ => g == r
  | .trigger _ _ _ _ => false
  | .packet _ => false
  | .sync _ => false

/-- The ring's crossings have drained (R50). -/
def State.drained (s : State) (r : Fin 8) : Bool := !((s.cross ++ s.heldBack).any fun e => e.2.ofRing r)

/-- The crossing leads to a core or to a ringmaster. -/
def toUnits : Crossing → Bool
  | .concourseToCore _ => true
  | .concourseToRingmaster _ => true
  | _ => false

/-- The ring's crossings towards the concourse, and from it towards the booth, have drained (R52). -/
def State.flagsDrained (s : State) (r : Fin 8) : Bool :=
  !((s.cross ++ s.heldBack).any fun e => e.2.ofRing r && !toUnits e.1)

/-- The entries of a ring taken out of every crossing; those that its senders held back behind them move up. -/
def State.dropEntries (s : State) (r : Fin 8) : State :=
  let other (e : Crossing × CrossOp) : Bool := !e.2.ofRing r
  (s.heldBack.filter other).foldl (fun s e => s.crossPut e.1 e.2) { s with cross := s.cross.filter other, heldBack := [] }

/-! ## Triggers (R113, R114) -/

/-- The parameter block of a trigger's invocation (R114). -/
def triggerBlock (kind arg : Nat) (stamp : DWord) : List Byte :=
  padTo 256 0 ([BitVec.ofNat 8 kind, BitVec.ofNat 8 arg] ++ leBytes 6 0 ++ leBytes 8 stamp.toNat)

/-- The ring takes triggers into its pending list: RUNNING, PARKING or PARKED (R53, R313). -/
def State.takesTriggers (s : State) (r : Fin 8) : Bool := s.ringLive r || s.ringState r == stParked

/-- The pending list has room: 16 entries (R114). -/
def State.pendingRoom (s : State) (r : Fin 8) : Bool := decide ((s.ring r).waiting.length < 16)

/-- A trigger queued, or dropped and counted where the list is full; a ring that takes none discards it (R114). -/
def State.queueTrigger (s : State) (r : Fin 8) (slot kind arg : Nat) (stamp : DWord) : State :=
  if !s.takesTriggers r then s
  else if s.pendingRoom r then
    s.onRing r fun k => { k with waiting := k.waiting ++ [⟨slot, triggerBlock kind arg stamp, stamp, none, false⟩] }
  else (s.bump (.ringInvokeDropped r) F.ringInvokeDropped_COUNT 1).setFld (.ringSeqStatus r) F.ringSeqStatus_DROPPED 1

/-- Every program with a trigger of the kind and argument invoked, in ascending program slot (R113, R114). -/
def State.fire (s : State) (r : Fin 8) (kind arg : Nat) (stamp : DWord) : State :=
  (List.range 32).foldl (fun s slot =>
    if (s.ring r).programs.any fun p => p.slot == slot && p.kind == kind && (kind == 1 || p.arg == arg)
    then s.queueTrigger r slot kind (match (s.ring r).programs.find? fun p => p.slot == slot with
      | some p => p.arg
      | none => arg) stamp
    else s) s

/-! ## Result posts (R316) -/

/-- Fields of a result stream's descriptor (R314). -/
def State.rsProgram (s : State) (t : Fin 128) : Nat := (s.reg (.trsRstreamDesc t 0)).toNat % 256
def State.rsEndpoint (s : State) (t : Fin 128) : Nat := (s.reg (.trsRstreamDesc t 0)).toNat / 256 % 256
def State.rsFlags (s : State) (t : Fin 128) : Nat := (s.reg (.trsRstreamDesc t 0)).toNat / 65536 % 256
def State.rsPostFlag (s : State) (t : Fin 128) : Nat := (s.reg (.trsRstreamDesc t 0)).toNat / 16777216
def State.rsFirst (s : State) (t : Fin 128) : Nat := (s.reg (.trsRstreamDesc t 1)).toNat % 65536
def State.rsSlots (s : State) (t : Fin 128) : Nat := (s.reg (.trsRstreamDesc t 1)).toNat / 65536
def State.rsBase (s : State) (t : Fin 128) : DWord := s.reg64 (.trsRstreamDesc t 2) (.trsRstreamDesc t 3)
def State.rsStride (s : State) (t : Fin 128) : Nat := (s.reg (.trsRstreamDesc t 4)).toNat
def State.rsCursor (s : State) (t : Fin 128) : DWord := s.reg64 (.trsRstreamDesc t 6) (.trsRstreamDesc t 7)

/-- The stream is enabled (R324). -/
def State.rsEnabled (s : State) (t : Fin 128) : Bool := s.fld (.trsRstreamStatus t) F.trsRstreamStatus_ENABLED == 1

/-- The offset of a slot's buffer from BUF_BASE (R315). -/
def State.slotOffset (s : State) (t : Fin 128) (n : Nat) : Nat := (n - s.rsFirst t) * s.rsStride t

/-- A result slot in its PENDING state, by stream. -/
def pendingSlot (k : Ring) (stream : Nat) : Option (Nat × ResultSlot) :=
  k.slots.find? fun p => p.2.stream == stream && p.2.state == .pending

/-- POST_FLAG of a stream has been set (R316). -/
def State.post (s : State) (r : Fin 8) (stream : Fin 16) : State :=
  let t := rsIx r stream
  match pendingSlot (s.ring r) stream with
  | none => s.bump (.trsRstreamCount t 3) F.trsRstreamCount_COUNT 1
  | some (n, slot) =>
    let (s1, d) := s.bufRead r (s.rsBase t) (s.slotOffset t n) 4
    let len := leVal (rawBytes (d.getD []))
    let room := s.rsStride t - 64
    (s1.onRing r (slotPut n (some { slot with
      state := .ready, length := min len room, truncated := decide (room < len) }))).bump
      (.trsRstreamCount t 0) F.trsRstreamCount_COUNT 1

/-- The enabled streams of a ring whose POST_FLAG a flag is (R314). -/
def State.postStreams (s : State) (r : Fin 8) (n : Fin 256) : List (Fin 16) :=
  (List.finRange 16).filter fun t => s.rsEnabled (rsIx r t) && s.rsPostFlag (rsIx r t) == n.val

/-! ## Ring flags -/

/-- A ring flag is set. -/
def State.ringFlag (s : State) (r : Fin 8) (n : Fin 256) : Bool := (s.ring r).flags.getLsbD n

/-- A ring flag cleared (R126). -/
def State.clearRingFlag (s : State) (r : Fin 8) (n : Fin 256) : State :=
  s.onRing r fun k => { k with flags := k.flags &&& ~~~ (1#256).shiftLeft n }

/-- A program of the ring has the flag as its FLAG trigger (R113). -/
def State.flagTrigger (s : State) (r : Fin 8) (n : Fin 256) : Bool :=
  (s.ring r).programs.any fun p => p.kind == 3 && p.arg == n.val

/-! ## Tests of flags beyond a crossing (R125 to R127) -/

/-- How far a unit's test has come. -/
def State.probeOf (s : State) : SeqUnit → Probe
  | .queue c q _ => (s.core c).queues[q].probe
  | .access c => (s.core c).access.probe
  | .execute c => (s.core c).execute.probe
  | .ringmaster r => (s.ring r).master.probe

/-- The state with a unit's test as far as `p`. -/
def State.setProbe (s : State) (u : SeqUnit) (p : Probe) : State :=
  match u with
  | .queue c q _ => s.onCore c fun k => { k with queues := k.queues.set q { k.queues[q] with probe := p } }
  | .access c => s.onCore c fun k => { k with access := { k.access with probe := p } }
  | .execute c => s.onCore c fun k => { k with execute := { k.execute with probe := p } }
  | .ringmaster r => s.onRing r fun k => { k with master := { k.master with probe := p } }

/-- The crossing from a unit towards the concourse. -/
def crossFrom : SeqUnit → Crossing
  | .queue c _ _ => .coreToConcourse c
  | .access c => .coreToConcourse c
  | .execute c => .coreToConcourse c
  | .ringmaster r => .ringmasterToConcourse r

/-- The crossing from the concourse to a unit. -/
def crossBack : SeqUnit → Crossing
  | .queue c _ _ => .concourseToCore c
  | .access c => .concourseToCore c
  | .execute c => .concourseToCore c
  | .ringmaster r => .concourseToRingmaster r

/-- The order in which consuming waits pass: the lowest-numbered core first, within a core the queues by number, then the
access and the execute sequencer, and the ringmaster after every core (R126). -/
def unitRank : SeqUnit → Nat
  | .queue c q _ => 8 * c.val + q.val
  | .access c => 8 * c.val + 5
  | .execute c => 8 * c.val + 6
  | .ringmaster _ => 128

/-- A unit sends its test, and waits for the answer. -/
def State.ask (s : State) (u : SeqUnit) (o : CrossOp) : State := (s.setProbe u .asked).crossPut (crossFrom u) o

/-- The answer to a test starts on its way back from the concourse. -/
def State.answerTo (s : State) (r : Fin 8) (u : SeqUnit) (v : Bool) : State := s.crossPut (crossBack u) (.answer r u v)

/-- The waits at a ring flag that is set: each that does not consume passes, and of those that consume the first in order,
which clears the flag (R126). -/
def State.serveTests (s : State) (r : Fin 8) (n : Fin 256) : State :=
  if !s.ringFlag r n then s
  else
    let here := (s.ring r).tests.filter fun t => t.flag == n
    let first := here.foldl (fun m t =>
      if t.consume then (match m with
        | some x => if unitRank t.unit < unitRank x.unit then some t else some x
        | none => some t) else m) (none : Option FlagTest)
    let pass (t : FlagTest) : Bool := t.flag == n && (!t.consume || some t == first)
    let s1 := (here.filter pass).foldl (fun s t => s.answerTo r t.unit true) s
    let s2 := s1.onRing r fun k => { k with tests := k.tests.filter fun t => !pass t }
    if first.isSome then s2.clearRingFlag r n else s2

/-- A set reaches a ring flag (R126): an overrun where it is set already; a POST_FLAG posts its stream's result, a FLAG
trigger queues its invocations, and the L9's own clear of the flag then follows through a crossing (R113, R126, R316); the
waits at the flag are evaluated after the set. -/
def State.setRingFlag (s : State) (r : Fin 8) (n : Fin 256) : State :=
  let s1 := if s.ringFlag r n then s.setFld (.ringSeqStatus r) F.ringSeqStatus_FLAG_OVERRUN 1 else s
  let s2 := s1.onRing r fun k => { k with flags := k.flags ||| (1#256).shiftLeft n }
  let ts := s2.postStreams r n
  let s3 := ts.foldl (fun s t => s.post r t) s2
  let s4 := if ts.isEmpty then s3 else s3.crossPut .ethToConcourse (.clearFlag r n)
  let s5 := if s4.flagTrigger r n then (s4.fire r 3 n.val 0).crossPut .boothToConcourse (.clearFlag r n) else s4
  s5.serveTests r n

/-- A test reaches its ring flag: a SKIP's is answered with the flag's value, a wait's stays there until it passes (R127).
A test of a unit that has been cancelled meanwhile is dropped (log 109). -/
def State.testArrives (s : State) (r : Fin 8) (u : SeqUnit) (n : Fin 256) (kind : TestKind) : State :=
  if s.probeOf u ≠ .asked then s
  else match kind with
    | .look => s.answerTo r u (s.ringFlag r n)
    | .wait => (s.onRing r fun k => { k with tests := k.tests ++ [⟨u, n, false⟩] }).serveTests r n
    | .consume => (s.onRing r fun k => { k with tests := k.tests ++ [⟨u, n, true⟩] }).serveTests r n

/-- The ringmaster's wait at a core flag passes where the flag is set and no unit of the core consumes it before (R125,
R126). -/
def State.serveMaster (s : State) (r : Fin 8) (c : Fin 16) : State :=
  match (s.core c).masterTest with
  | none => s
  | some (n, consume) =>
    if (flagsAfter (s.core c)).1.getLsbD n && !(consume && outranked (s.core c) 7 n) then
      let s1 := if consume then s.consumeCore c false n else s
      (s1.onCore c fun k => { k with masterTest := none }).crossPut (.coreToConcourse c) (.answer r (.ringmaster r) true)
    else s

/-- The ringmaster's test reaches a core flag (R125, R127). -/
def State.coreTestArrives (s : State) (r : Fin 8) (c : Fin 16) (n : Fin 64) (kind : TestKind) : State :=
  if s.probeOf (.ringmaster r) ≠ .asked then s
  else match kind with
    | .look => s.crossPut (.coreToConcourse c) (.answer r (.ringmaster r) ((flagsAfter (s.core c)).1.getLsbD n))
    | .wait => (s.onCore c fun k => { k with masterTest := some (n, false) }).serveMaster r c
    | .consume => (s.onCore c fun k => { k with masterTest := some (n, true) }).serveMaster r c

/-- An answer reaches its unit, which takes it where it still waits for one. -/
def State.answerArrives (s : State) (u : SeqUnit) (v : Bool) : State :=
  if s.probeOf u = .asked then s.setProbe u (.answered v) else s

/-! ## References -/

/-- The flag number of WAIT records and stall records: core flags 0 to 63, ring flags from 0x100 (R131, R451). -/
def flagIndex : FlagRef → Nat
  | .core n _ => n.val
  | .ring n => 256 + n.val

/-- The flag is an event flag (R124, R129). -/
def isEventFlag : FlagRef → Bool
  | .core _ _ => false
  | .ring n => decide (192 ≤ n.val)

/-- A unit of a core sets a flag: its core's in the next core cycle, its ring's through the crossing (R127). -/
def State.setByCore (s : State) (r : Fin 8) (c : Fin 16) (exec : Bool) : FlagRef → State
  | .core n _ => s.pendFlag c exec n true
  | .ring n => s.crossPut (.coreToConcourse c) (.setFlag r n)

/-- A unit of a core clears a flag. -/
def State.clearByCore (s : State) (r : Fin 8) (c : Fin 16) (exec : Bool) : FlagRef → State
  | .core n _ => s.pendFlag c exec n false
  | .ring n => s.crossPut (.coreToConcourse c) (.clearFlag r n)

end Sys2Proof.Machine
end

