-- ==== Sys2Proof/Config.lean ====
section
/-! DEFINITION. The values that the spec leaves to standards it only names, to Dolvar's firmware records or to no one,
as constants without a body: nothing can be proved of what they are. Each is a free value of the assumption log. -/

namespace Sys2Proof

/-- A receiver in a front-end record (R255, R256): MODE, the data lanes or trios, the rate in 10 Mb/s or 10 Msym/s, the
order of the lanes and their polarity. -/
structure RxRecord where
  mode     : Nat
  lanes    : Nat
  rate     : Nat
  order    : List Nat
  polarity : List Bool
  deriving DecidableEq, Repr

/-- The colour filter patterns of R269. -/
inductive Cfa where
  | rggb
  | grbg
  | gbrg
  | bggr
  | rccb
  | mono
  deriving DecidableEq, Repr, Inhabited

/-- An ISP parameter set (R269): 16 decompanding segments, 4 black levels, the defect threshold, 4 shading grids, 4 FP16
gains, the pattern, the colour matrix row by row and its offsets, the YCbCr matrix, and 3 tone curves. -/
structure IspParams where
  segments  : List (Rat × Rat × Rat)
  black     : List Rat
  threshold : Rat
  grids     : List (List (List Rat))
  gains     : List (BitVec 16)
  pattern   : Cfa
  matrix    : List Rat
  offsets   : List Rat
  bt709     : Bool
  curves    : List (List Rat)
  deriving DecidableEq, Repr, Inhabited

end Sys2Proof

namespace Sys2Proof.Config

/-- The values of VFUNC that the spec does not state: the reciprocal of a zero, the logarithm and the reciprocal square root
of a value that is not positive; by lane format, function and lane (R111, R102; log 13). -/
opaque vfuncValue : VFmt → VFn → Word → Word

/-- The byte values under the poison of a remote read that has lost its data, by place in the transfer (R340; log 30). -/
opaque lostByte : Nat → Byte

/-- The core-memory lines that a POOL, RESIZE, CROP or WARP reads, by its tag and CORE_UNFOLD_READ_LINES before it: R205
states the reads of UNFOLD alone (R213; log 33). -/
opaque unfoldLines : Word → Word → Nat

/-- The code that POOL writes where a pad tap is NaN beside in-map taps that are not, by format and taps: code, exponent,
whether in the map (R207, R208; log 34). -/
opaque poolPadNan : ArrFmt → List (Nat × Nat × Bool) → Nat

/-- Byte `i` of an element of `n` bytes that STRIDE writes from a source element of another size (R152; log 37). -/
opaque strideByte : List Byte → Nat → Nat → Byte

/-- The CAUSE of a context request that the context's state does not accept, by request and state, one of those that occur
(7 stands for 8 SPILL_FULL; R223, R238; log 40). -/
opaque ctxCause : Nat → Nat → Fin 8

/-- The bytes of the access stream among the encoded streams of a variant for a ring of one or two cores (R107, R112; log
50). -/
opaque accessBytes : List Byte → Nat

/-- The contents of operand space after a park, which does not keep them: by draw and place (R50; log 47). -/
opaque parkedByte : Nat → Nat → Byte

/-- A field of a SAMPLE_STATUS report to which the spec gives no value, by report and field (0 the outcome of a change of
mode, 1 the buffer, 2 the cycles, 3 the budget of a sample without them): channel, outcome, field (R293, R305; log 54). -/
opaque sampleField : Nat → Nat → Nat → Word

/-- SHA-256 of a byte string, first byte in bits 255 to 248 (R347, R418, R429; log 15). -/
opaque sha256 : List Byte → BitVec 256

/-- RSASSA-PSS verification under a modulus with exponent 65,537: modulus, message, signature (R348; log 15). -/
opaque pssVerify : List Byte → List Byte → List Byte → Bool

/-- The ROM's SHA-256 hash of vendor root key `i` (R349; log 15). -/
opaque rootHash : Nat → BitVec 256

/-- The 256-bit seed that the fuzzy extractor forms from the helper data of the device record (R418; log 15). -/
opaque pufSeed : List Byte → BitVec 256

/-- The modulus of the attestation key that a seed gives in a key class (R419; log 15). -/
opaque attestModulus : BitVec 256 → Nat → BitVec 3072

/-- The attestation signature of a message: seed, class, message (R429; log 15). -/
opaque attestSign : BitVec 256 → Nat → List Byte → BitVec 3072

/-- RSAES-OAEP decryption with label L9-CAK: seed, class, cipher text (R430; log 15). -/
opaque oaepDecrypt : BitVec 256 → Nat → List Byte → Option (BitVec 256)

/-- What an 8 KiB ISP parameter set says, in the places that the firmware gives it (R269, R271; log 14). -/
opaque ispParams : List Byte → IspParams

/-- The fraction bits that a stage of the image signal pipeline keeps (R269; log 14). -/
opaque ispFraction : Nat → Nat

/-- The value of an input sample: descriptor, input format, input lines, row, column, component; YCbCr and RGB from 0 to 1,
colour differences centred on 0 (R257, R269, R273; log 14). -/
opaque ispInput : List Byte → Nat → List (List Byte) → Nat → Nat → Nat → Rat

/-- The row or column that stands for one that may lie beyond the edge of a frame, by its size (R269; log 14). -/
opaque ispEdge : Nat → Int → Nat

/-- The place of a row or column in the 32 × 32 shading grid, by the frame's size (R269; log 14). -/
opaque ispGrid : Nat → Nat → Rat

/-- The white-balance gain of an FP16 code that is not finite (R269; log 14). -/
opaque ispGain : BitVec 16 → Rat

/-- The demosaic: pattern, width, height, frame, then colour, row and column (R269; log 14). -/
opaque ispDemosaic : Cfa → Nat → Nat → (Nat → Nat → Rat) → Nat → Nat → Nat → Rat

/-- The value that a tone curve gives (R269; log 14). -/
opaque ispTone : List Rat → Rat → Rat

/-- The taps of the scaler and their weights: horizontal or not, size before, size after, place after (R269; log 14). -/
opaque ispTaps : Bool → Nat → Nat → Nat → List (Int × Rat)

/-- The rows of each output plane that the lines received so far complete, by descriptor and lines (R28; log 131). -/
opaque ispRows : List Byte → Nat → Nat

/-- The sample that byte `i` of a view belongs to: component, row, column, and whether it is the high byte; by the view's
size and depth (R269; log 14). -/
opaque viewPlace : Nat → Nat → Bool → Nat → Fin 3 × Nat × Nat × Bool

/-- The luma bin of a pixel after stage 5: parameters, width, height, colours, row, column (R272; log 14). -/
opaque lumaBin : IspParams → Nat → Nat → (Nat → Nat → Nat → Rat) → Nat → Nat → Fin 64

/-- The zone and the colour whose mean byte `i` of the 192 means is (R272; log 14). -/
opaque zonePlace : Fin 192 → Fin 64 × Fin 3

/-- The byte of a mean (R272; log 14). -/
opaque zoneByte : Rat → Byte

/-- The bytes of a programmed page beyond the record that it holds (R378, R380, R383; log 16). -/
opaque pagePad : Nat → Byte

/-- The voltage in µV that the booth's first AVSBus write asks for, before any ring runs: R393 takes it from the running
rings and keeps it at or below 0.85 V (R464; log 141). -/
opaque firstVolt : Fin 850001

/-- Whether an operation that the floor has cut off leaves its page or block uncorrectable, by draw; else as it was before
(R385; log 16). -/
opaque cutUnreadable : Nat → Bool

/-- The speed grade, populated channels, density, width and ranks, in the codes of DDR_CONFIG, that a memory record
describes, or none where it describes none of R176 (R191, R192; log 59). -/
opaque memoryRecord : List Byte → Option (Nat × Nat × Nat × Nat × Nat)

/-- What a front-end record says of a receiver, none where it omits it (R256; log 59). -/
opaque frontEndRecord : List Byte → Nat → Option RxRecord

/-- ENABLED, the PHY role and the MAC address of a port in a port record (R297; log 59). -/
opaque portRecord : List Byte → Nat → Bool × Bool × BitVec 48

/-- The Tirsa EtherType of a port record, 0 where it leaves it so (R297; log 59). -/
opaque portEtherType : List Byte → BitVec 16

/-- The ROLE (0 to 2), the uplink port and the downlink mask of a trapeze record (R326; log 59). -/
opaque trapezeRecord : List Byte → Nat × Nat × Nat

/-- The DRAM training results that the booth stores, by the device's serial number and its memory record (R191; log 59). -/
opaque trainingResults : Nat → List Byte → List Byte

/-- The CODE of the log entry that records a disabled operating point (R384, R409; log 66). -/
opaque ageingLogCode : Fin 256

/-- FORMAT of the handoff record (R412; log 67). -/
opaque handoffFormat : Nat

/-- The body of a section of a handoff record, by draw and ID (R412; log 67). -/
opaque handoffBody : Nat → Nat → List Byte

end Sys2Proof.Config
end

