-- ==== Sys2Proof/Machine/Operands.lean ====
section
/-! DEFINITION. Number formats and operand forms: FP32, BF16, FP16, FP8, int8 and the code grids (R60, R81 to R85), the
16-bit split (R88), the exact dot product (R87, R89), roundings (R94, R102), exponents (R88, R98) and lanes (R481). -/

namespace Sys2Proof.Machine

/-- A value before rounding: sign, magnitude and power of two of a finite value, an infinity, or a NaN. -/
inductive Num where
  | fin (neg : Bool) (m : Nat) (e : Int)
  | inf (neg : Bool)
  | nan
  deriving DecidableEq, Repr

/-- The number of bits of a natural number. -/
def bitLen (n : Nat) : Nat := if n = 0 then 0 else Nat.log2 n + 1

/-- m × 2^k rounded to an integer, to nearest with ties to even. -/
def roundShift (m : Nat) (k : Int) : Nat :=
  if 0 ≤ k then m * 2 ^ k.toNat
  else
    let d := 2 ^ (-k).toNat
    let q := m / d
    let r := m % d
    if 2 * r > d || (2 * r == d && q % 2 == 1) then q + 1 else q

/-- A binary floating-point format: exponent bits and fraction bits. -/
structure FloatFmt where
  eb : Nat
  fb : Nat
  deriving DecidableEq, Repr

/-- FP32. -/
def f32 : FloatFmt := ⟨8, 23⟩
/-- bfloat16 (R81). -/
def bf16 : FloatFmt := ⟨8, 7⟩
/-- IEEE 754 binary16 (R81). -/
def f16 : FloatFmt := ⟨5, 10⟩
/-- OCP FP8 E5M2 (R81). -/
def e5m2 : FloatFmt := ⟨5, 2⟩

/-- The exponent of the smallest normal value. -/
def FloatFmt.emin (f : FloatFmt) : Int := 2 - 2 ^ (f.eb - 1)

/-- The bits of positive infinity. -/
def FloatFmt.infBits (f : FloatFmt) : Nat := (2 ^ f.eb - 1) * 2 ^ f.fb

/-- The sign bit. -/
def FloatFmt.sign (f : FloatFmt) : Nat := 2 ^ (f.eb + f.fb)

/-- The canonical quiet NaN (R480). -/
def FloatFmt.nanBits (f : FloatFmt) : Nat := f.infBits + 2 ^ (f.fb - 1)

/-- The value of a bit pattern. -/
def FloatFmt.decode (f : FloatFmt) (w : Nat) : Num :=
  let neg := w / f.sign % 2 == 1
  let ex := w / 2 ^ f.fb % 2 ^ f.eb
  let fr := w % 2 ^ f.fb
  if ex = 2 ^ f.eb - 1 then (if fr = 0 then .inf neg else .nan)
  else if ex = 0 then .fin neg fr (f.emin - f.fb)
  else .fin neg (fr + 2 ^ f.fb) (f.emin - f.fb + (ex - 1 : Nat))

/-- The bits of m × 2^e rounded to nearest, ties to even, with gradual underflow; at least infinity's on overflow. -/
def FloatFmt.roundMag (f : FloatFmt) (m : Nat) (e : Int) : Nat :=
  if m = 0 then 0
  else
    let top := max (e + bitLen m - 1) f.emin
    let n := roundShift m (e - (top - f.fb))
    min ((top - f.emin).toNat * 2 ^ f.fb + n) f.infBits

/-- The bit pattern of a value, rounded once (R102, R480). -/
def FloatFmt.encode (f : FloatFmt) : Num → Nat
  | .fin neg m e => (if neg then f.sign else 0) + f.roundMag m e
  | .inf neg => (if neg then f.sign else 0) + f.infBits
  | .nan => f.nanBits

/-- A value as an integer multiple of 2^k, for k at or below its own exponent. -/
def fixAt (k : Int) (neg : Bool) (m : Nat) (e : Int) : Int :=
  let v : Int := (m * 2 ^ (e - k).toNat : Nat)
  if neg then -v else v

/-- An exact sum or product of finite values as a Num; an exact zero is +0.0. -/
def ofInt (v : Int) (e : Int) : Num := .fin (decide (v < 0)) v.natAbs e

/-- The sign that IEEE 754 gives an exact zero sum of two zeros or of opposite values. -/
def zeroSum (n1 : Bool) (m1 : Nat) (n2 : Bool) (m2 : Nat) : Bool := n1 && n2 && m1 == 0 && m2 == 0

/-- The exact sum of two values, with IEEE 754's infinities, NaNs and zeros. -/
def numAdd : Num → Num → Num
  | .nan, _ => .nan
  | _, .nan => .nan
  | .inf a, .inf b => if a == b then .inf a else .nan
  | .inf a, .fin _ _ _ => .inf a
  | .fin _ _ _, .inf b => .inf b
  | .fin n1 m1 e1, .fin n2 m2 e2 =>
    let k := min e1 e2
    let v := fixAt k n1 m1 e1 + fixAt k n2 m2 e2
    if v = 0 then .fin (zeroSum n1 m1 n2 m2) 0 0 else ofInt v k

/-- The negative of a value. -/
def numNeg : Num → Num
  | .fin n m e => .fin (!n) m e
  | .inf n => .inf (!n)
  | .nan => .nan

/-- The exact product of two values. -/
def numMul : Num → Num → Num
  | .nan, _ => .nan
  | _, .nan => .nan
  | .inf a, .inf b => .inf (a != b)
  | .inf a, .fin n m _ => if m = 0 then .nan else .inf (a != n)
  | .fin n m _, .inf b => if m = 0 then .nan else .inf (n != b)
  | .fin n1 m1 e1, .fin n2 m2 e2 => .fin (n1 != n2) (m1 * m2) (e1 + e2)

/-- The value × 2^k. -/
def numScale (k : Int) : Num → Num
  | .fin n m e => .fin n m (e + k)
  | .inf n => .inf n
  | .nan => .nan

/-- a < b of two values, neither a NaN; −0.0 and +0.0 are equal. -/
def numLt : Num → Num → Bool
  | .fin n1 m1 e1, .fin n2 m2 e2 => decide (fixAt (min e1 e2) n1 m1 e1 < fixAt (min e1 e2) n2 m2 e2)
  | .inf a, .inf b => a && !b
  | .inf a, .fin _ _ _ => a
  | .fin _ _ _, .inf b => !b
  | .nan, _ => false
  | _, .nan => false

/-- a = b by IEEE 754, neither a NaN. -/
def numEq (a b : Num) : Bool := !numLt a b && !numLt b a

/-- The value is a NaN. -/
def isNan : Num → Bool
  | .nan => true
  | .fin _ _ _ => false
  | .inf _ => false

/-- The value is an infinity. -/
def isInf : Num → Bool
  | .inf _ => true
  | .fin _ _ _ => false
  | .nan => false

/-- The sign of a value. -/
def isNeg : Num → Bool
  | .fin n _ _ => n
  | .inf n => n
  | .nan => false

/-- The value is a zero of either sign. -/
def isZero : Num → Bool
  | .fin _ m _ => m == 0
  | .inf _ => false
  | .nan => false

/-! ## Storage formats (R81 to R85) -/

/-- The code4 grid in units of 1/256 (R82). -/
def code4Grid : List Int := [-256, -200, -156, -120, -88, -56, -28, 0, 24, 48, 72, 100, 128, 160, 200, 256]

/-- The code8 magnitude of an index in units of 1/256 (R83). -/
def code8Mag (m : Nat) : Nat :=
  if m ≤ 71 then m
  else if m ≤ 103 then 2 * (m - 36)
  else if m ≤ 119 then 4 * (m - 70)
  else 8 * (m - 95)

/-- The value of an FP8 E4M3 code (R81, R85). -/
def decodeE4m3 (w : Nat) : Num :=
  let neg := w / 128 % 2 == 1
  let ex := w / 8 % 16
  let fr := w % 8
  if w % 128 = 127 then .nan
  else if ex = 0 then .fin neg fr (-9)
  else .fin neg (fr + 8) ((ex : Int) - 10)

/-- The value that a narrow code expands to (R85); the array's zeros carry no sign, code8 0x80 expands to zero. -/
def expand (f : ArrFmt) (w : Nat) : Num :=
  match f with
  | .code4 => ofInt (code4Grid.getD w 0) (-8)
  | .code8 => .fin (w / 128 % 2 == 1) (code8Mag (w % 128)) (-8)
  | .int8 => ofInt (if w < 128 then (w : Int) else (w : Int) - 256) 0
  | .e4m3 => decodeE4m3 w
  | .e5m2 => e5m2.decode w
  | .fp16 => f16.decode w
  | .bf16 => bf16.decode w

/-- The format is a 16-bit one (R60). -/
def is16 : ArrFmt → Bool
  | .fp16 => true
  | .bf16 => true
  | .code4 => false
  | .code8 => false
  | .int8 => false
  | .e4m3 => false
  | .e5m2 => false

/-! ## EX14 (R84, R85, R88) -/

/-- An EX14 code: sign in bit 13, exponent field in bits 12 to 7, fraction in bits 6 to 0 (R84). -/
abbrev Ex14 := BitVec 14

/-- The EX14 code of a value with at most 8 significant bits in the format's range; a zero has no sign, and the NaN is
0x1FFF (R84, R85). -/
def ex14 : Num → Ex14
  | .fin n m e =>
    if m = 0 then 0
    else BitVec.ofNat 14 (8192 * bitNat n + (e + bitLen m + 30).toNat * 128 + (roundShift m (8 - (bitLen m : Int)) - 128))
  | .inf n => BitVec.ofNat 14 (8192 * bitNat n + 0x1F80)
  | .nan => 0x1FFF

/-- The value of an EX14 code (R84). -/
def Ex14.value (w : Ex14) : Num :=
  let neg := w.getLsbD 13
  let ex := w.toNat / 128 % 64
  let fr := w.toNat % 128
  if ex = 0 then .fin false 0 0
  else if ex = 63 then (if fr = 0 then .inf neg else .nan)
  else .fin neg (128 + fr) ((ex : Int) - 38)

/-- An operand element at the array: a NaN, an infinity, or an integer multiple of 2^-37, which every EX14 value is
(R84). -/
inductive Elem where
  | val (v : Int)
  | inf (neg : Bool)
  | nan
  deriving DecidableEq, Repr

/-- An EX14 code as the units multiply it. -/
def ex14Elem (w : Ex14) : Elem :=
  match w.value with
  | .fin n m e => .val (fixAt (-37) n m e)
  | .inf n => .inf n
  | .nan => .nan

/-- The element that a value expands to (R85). -/
def elemOf (x : Num) : Elem := ex14Elem (ex14 x)

/-- The high part of a 16-bit element's y in units of 2^-7, truncated towards zero (R88 step 3). -/
def splitHigh (m : Nat) (e : Int) : Nat :=
  if 0 ≤ e + 7 then m * 2 ^ (e + 7).toNat else m / 2 ^ (-(e + 7)).toNat

/-- The low part in units of 2^-37: the rest rounded to 8 significant bits, and zero below 2^-30 (R88 step 4). -/
def splitLow (m : Nat) (e : Int) : Nat :=
  if 0 ≤ e + 7 then 0
  else
    let rest := m % 2 ^ (-(e + 7)).toNat
    let drop := bitLen rest - 8
    let n := roundShift rest (-(drop : Int))
    let k := e + drop
    if (bitLen n : Int) - 1 + k < -30 then 0 else roundShift n (k + 37)

/-- The high and the low EX14 part of a 16-bit element under its block's exponent E (R88). -/
def splitParts (expE : Nat) : Num → Ex14 × Ex14
  | .fin n m e =>
    let e' := e + (127 - (expE : Int))
    if 1 ≤ e' + bitLen m - 1 && m != 0 then (ex14 (.inf n), 0)
    else (ex14 (.fin n (splitHigh m e') (-7)), ex14 (.fin n (splitLow m e') (-37)))
  | .inf n => (ex14 (.inf n), 0)
  | .nan => (ex14 .nan, 0)

/-- A 16-bit element as the four partial sums of R89 add it up: both parts together (log 24). -/
def split16 (expE : Nat) (x : Num) : Elem :=
  let p := splitParts expE x
  match ex14Elem p.1, ex14Elem p.2 with
  | .val a, .val b => .val (a + b)
  | a, _ => a

/-- The exponent that a block's fill derives (R88 step 1): from its largest finite nonzero magnitude; 127 without one. -/
def deriveExp (l : List Num) : Nat :=
  let tops := l.filterMap fun x => match x with
    | .fin _ m e => if m = 0 then none else some (e + bitLen m - 1)
    | .inf _ => none
    | .nan => none
  match tops with
  | [] => 127
  | t :: ts => (max 0 (ts.foldl max t + 127)).toNat

/-- The exact sum of the products of two blocks in units of 2^-74, with R78's infinities and NaNs. -/
structure DotSum where
  sum : Int
  pos : Bool
  neg : Bool
  nan : Bool
  deriving DecidableEq, Repr

/-- One product added to a sum (R78, R87). -/
def dotStep (s : DotSum) (p : Elem × Elem) : DotSum :=
  match p with
  | (.nan, _) => { s with nan := true }
  | (_, .nan) => { s with nan := true }
  | (.inf a, .inf b) => if a == b then { s with pos := true } else { s with neg := true }
  | (.inf a, .val v) =>
    if v = 0 then { s with nan := true } else if a == decide (v < 0) then { s with pos := true } else { s with neg := true }
  | (.val v, .inf b) =>
    if v = 0 then { s with nan := true } else if b == decide (v < 0) then { s with pos := true } else { s with neg := true }
  | (.val a, .val b) => { s with sum := s.sum + a * b }

/-- S of R87 for two blocks, scaled by the combined block scale 2^(Ew + Ea − 254). -/
def dotProduct (w a : List Elem) (ew ea : Nat) : Num :=
  let s := (w.zip a).foldl dotStep ⟨0, false, false, false⟩
  if s.nan || (s.pos && s.neg) then .nan
  else if s.pos then .inf false
  else if s.neg then .inf true
  else ofInt s.sum ((ew : Int) + ea - 254 - 74)

/-- What a unit of the array writes, and whether it sets ACC_OVF and ACC_NAN (R78, R87). -/
def accumulate (acc : Option Word) (s : Num) : Word × Bool × Bool :=
  let v := match acc with
    | none => s
    | some w => numAdd (f32.decode w.toNat) s
  match v with
  | .nan => (BitVec.ofNat 32 f32.nanBits, false, true)
  | .inf n => (BitVec.ofNat 32 (f32.encode (.inf n)), false, false)
  | .fin n m e =>
    let bits := f32.encode (.fin n m e)
    (BitVec.ofNat 32 bits, f32.roundMag m e == f32.infBits, false)

/-- A value on its way through the drain: multiplied by its row's FP16 scale and rounded, or unchanged (R72, R480). -/
def drainValue (scale : Option Num) (w : Word) : Word :=
  match scale with
  | none => w
  | some k => BitVec.ofNat 32 (f32.encode (numMul (f32.decode w.toNat) k))

/-! ## The quantiser's narrowing (R94, R95, R98) -/

/-- The quantiser's formats by FMT (R96); none above 4. -/
def quantFmt : Nat → Option ArrFmt
  | 0 => some .code4
  | 1 => some .code8
  | 2 => some .int8
  | 3 => some .e4m3
  | 4 => some .e5m2
  | _ => none

/-- G of R81. -/
def fmtMax : ArrFmt → Nat
  | .code4 => 1
  | .code8 => 1
  | .int8 => 127
  | .e4m3 => 448
  | .e5m2 => 57344
  | .fp16 => 65504
  | .bf16 => 1

/-- The zero code of R81. -/
def zeroCode : ArrFmt → Nat
  | .code4 => 7
  | .code8 => 0
  | .int8 => 0
  | .e4m3 => 0
  | .e5m2 => 0
  | .fp16 => 0
  | .bf16 => 0

/-- |x| ≤ |y| of finite magnitudes. -/
def magLe (m1 : Nat) (e1 : Int) (m2 : Nat) (e2 : Int) : Bool :=
  let k := min e1 e2
  decide (m1 * 2 ^ (e1 - k).toNat ≤ m2 * 2 ^ (e2 - k).toNat)

/-- The nearest of a list of grid points in units of 1/256 to a value, by absolute distance, ties to the even index;
indices count from `i`, and `best` is the index and distance so far. -/
def nearestIn (k : Nat) (q : Int) : Nat → List Int → Nat × Nat → Nat
  | _, [], best => best.1
  | i, v :: t, best =>
    let d := (q - v * 2 ^ k).natAbs
    let better := decide (d < best.2) || (d == best.2 && i % 2 == 0 && best.1 % 2 == 1)
    nearestIn k q (i + 1) t (if better then (i, d) else best)

/-- The index of the nearest grid point to m × 2^e, the grid being in units of 1/256 and beginning with `g0`. -/
def nearest (grid : List Int) (neg : Bool) (m : Nat) (e : Int) : Nat :=
  let k := (-(e + 8)).toNat
  let q := fixAt (-8 - (k : Int)) neg m e
  match grid with
  | [] => 0
  | v :: t => nearestIn k q 1 t (0, (q - v * 2 ^ k).natAbs)

/-- The largest finite code of a sign (R95). -/
def satCode (f : ArrFmt) (neg : Bool) : Nat :=
  match f with
  | .code4 => if neg then 0x0 else 0xF
  | .code8 => if neg then 0xFF else 0x7F
  | .int8 => if neg then 0x80 else 0x7F
  | .e4m3 => if neg then 0xFE else 0x7E
  | .e5m2 => if neg then 0xFB else 0x7B
  | .fp16 => if neg then 0xFBFF else 0x7BFF
  | .bf16 => if neg then 0xFF7F else 0x7F7F

/-- FP8 E4M3 magnitudes rounded to nearest, ties to even mantissa, subnormals included. -/
def e4m3Mag (m : Nat) (e : Int) : Nat :=
  if m = 0 then 0
  else
    let top := max (e + bitLen m - 1) (-6)
    (top + 6).toNat * 8 + roundShift m (e - (top - 3))

/-- A magnitude saturates (R95). -/
def saturates (f : ArrFmt) (neg : Bool) (m : Nat) (e : Int) : Bool :=
  !magLe m e (if f == .int8 && neg then 128 else fmtMax f) 0

/-- A finite value narrowed to a format under a block exponent, and whether it saturates (R94, R95). -/
def narrow (f : ArrFmt) (expE : Nat) (neg : Bool) (m : Nat) (e0 : Int) : Nat × Bool :=
  let e := e0 + (127 - (expE : Int))
  if saturates f neg m e then (satCode f neg, true)
  else
    let code := match f with
      | .code4 => nearest code4Grid neg m e
      | .code8 =>
        let i := nearest ((List.range 128).map fun i => (code8Mag i : Int)) false m e
        if i = 0 then 0 else i + 128 * bitNat neg
      | .int8 =>
        let n := roundShift m e
        if neg then (256 - n) % 256 else n
      | .e4m3 => let n := e4m3Mag m e; if n = 0 then 0 else n + 128 * bitNat neg
      | .e5m2 => let n := e5m2.roundMag m e; if n = 0 then 0 else n + 128 * bitNat neg
      | .fp16 => f16.encode (.fin neg m e)
      | .bf16 => bf16.encode (.fin neg m e)
    (code, false)

/-- The code of an FP32 input, whether it saturates (R94, R95). -/
def quantise (f : ArrFmt) (expE : Nat) (w : Word) : Nat × Bool :=
  match f32.decode w.toNat with
  | .fin n m e => narrow f expE n m e
  | .inf n => (satCode f n, true)
  | .nan => (match f with
      | .e4m3 => 0x7F
      | .e5m2 => 0x7E
      | .code4 => 7
      | .code8 => 0
      | .int8 => 0
      | .fp16 => f16.nanBits
      | .bf16 => bf16.nanBits, false)

/-- The exponent derived from a magnitude: the smallest E from 0 to 255 with G × 2^(E − 127) at least as large, else 255
(R98). Read so, a negative value gives 0 and a NaN 255 (log 121). -/
def derivedExp (f : ArrFmt) (w : Word) : Nat :=
  match f32.decode w.toNat with
  | .fin n m e =>
    if n then 0 else ((List.range 256).find? fun (E : Nat) => magLe m e (fmtMax f) ((E : Int) - 127)).getD 255
  | .inf _ => 255
  | .nan => 255

/-! ## Lanes (R118, R481) -/

/-- The floating-point format of lanes. -/
def laneFmt : VFmt → FloatFmt
  | .f32 => f32
  | .bf16 => bf16
  | .f16 => f16

/-- Bytes of an element of lanes in memory. -/
def laneBytes : VFmt → Nat
  | .f32 => 4
  | .bf16 => 2
  | .f16 => 2

/-- The value in a lane. -/
def laneNum (f : VFmt) (w : Word) : Num := (laneFmt f).decode (w.toNat % 2 ^ (8 * laneBytes f))

/-- A lane that holds a value, rounded once (R102, R480). -/
def laneOf (f : VFmt) (x : Num) : Word := BitVec.ofNat 32 ((laneFmt f).encode x)

/-- 1.0 or +0.0 in a lane (R481). -/
def laneBool (f : VFmt) (b : Bool) : Word := if b then laneOf f (.fin false 1 0) else 0

/-- The bits of a lane that hold its value; bits 31 to 16 are zero in a 16-bit format (R481). -/
def laneBits (f : VFmt) (w : Word) : Word := BitVec.ofNat 32 (w.toNat % 2 ^ (8 * laneBytes f))

/-- Minimum of two lanes: the canonical NaN with a NaN operand, −0.0 below +0.0 (R481). -/
def laneMin (f : VFmt) (a b : Word) : Word :=
  let x := laneNum f a
  let y := laneNum f b
  if isNan x || isNan y then laneOf f .nan
  else if numLt x y then laneBits f a
  else if numLt y x then laneBits f b
  else laneBits f (if isNeg x then a else b)

/-- Maximum of two lanes (R481). -/
def laneMax (f : VFmt) (a b : Word) : Word :=
  let x := laneNum f a
  let y := laneNum f b
  if isNan x || isNan y then laneOf f .nan
  else if numLt x y then laneBits f b
  else if numLt y x then laneBits f a
  else laneBits f (if isNeg x then b else a)

/-- Sum of two lanes. -/
def laneAdd (f : VFmt) (a b : Word) : Word := laneOf f (numAdd (laneNum f a) (laneNum f b))

/-- A compare of two lanes: a NaN makes every predicate false but not-equal (R481). -/
def laneCmp (f : VFmt) (p : Num → Num → Bool) (nanResult : Bool) (a b : Word) : Word :=
  let x := laneNum f a
  let y := laneNum f b
  laneBool f (if isNan x || isNan y then nanResult else p x y)

/-- VOP on one lane (R111, R481). -/
def laneOp (op : VOpKind) (f : VFmt) (a b c : Word) : Word :=
  match op with
  | .add => laneAdd f a b
  | .sub => laneOf f (numAdd (laneNum f a) (numNeg (laneNum f b)))
  | .mul => laneOf f (numMul (laneNum f a) (laneNum f b))
  | .min => laneMin f a b
  | .max => laneMax f a b
  | .lt => laneCmp f numLt false a b
  | .le => laneCmp f (fun x y => !numLt y x) false a b
  | .eq => laneCmp f numEq false a b
  | .ne => laneCmp f (fun x y => !numEq x y) true a b
  | .gt => laneCmp f (fun x y => numLt y x) false a b
  | .ge => laneCmp f (fun x y => !numLt x y) false a b
  | .select => if isZero (laneNum f a) then c else b

/-- VFMA on one lane, with a single rounding (R111). -/
def laneFma (f : VFmt) (a b c : Word) : Word :=
  laneOf f (numAdd (numMul (laneNum f a) (laneNum f b)) (laneNum f c))

/-- VCONV on one lane (R102, R480). -/
def laneConv (src dst : VFmt) (a : Word) : Word := laneOf dst (laneNum src a)

/-- The integer square root by binary digits from 2^n down. -/
def sqrtBits : Nat → Nat → Nat → Nat
  | 0, n, r => if (r + 1) * (r + 1) ≤ n then r + 1 else r
  | k + 1, n, r =>
    let t := r + 2 ^ (k + 1)
    sqrtBits k n (if t * t ≤ n then t else r)

/-- A quotient or root as a value to round: its first bits and a sticky bit. -/
def stickyNum (neg : Bool) (q : Nat) (exact : Bool) (e : Int) : Num := .fin neg (2 * q + bitNat (!exact)) (e - 1)

/-- 1 / x of a finite nonzero value, to enough bits that one rounding gives the nearest value. -/
def numRecip (neg : Bool) (m : Nat) (e : Int) : Num :=
  let k := 40 + bitLen m
  stickyNum neg (2 ^ k / m) (2 ^ k % m == 0) (-(k : Int) - e)

/-- 1 / √x of a positive finite value, to enough bits that one rounding gives the nearest value. -/
def numRsqrt (m : Nat) (e : Int) : Num :=
  let m' := if e % 2 = 0 then m else 2 * m
  let e' := if e % 2 = 0 then e else e - 1
  let k := 40 + bitLen m'
  let n := 2 ^ (2 * k) / m'
  let q := sqrtBits (k + 1) n 0
  stickyNum false q (q * q * m' == 2 ^ (2 * k)) (-(k : Int) - e' / 2)

/-! ## Elementary functions (R102, R111)

Fixed-point values with 256 fraction bits: far more than tells on which side of a tie the value of a lane lies. -/

/-- The fixed-point product. -/
def mulFix (a b : Int) : Int := a * b / 2 ^ 256

/-- The terms z^(2i + 1) / (2i + 1) from term `i` on; `p` is the power of `z` and `sq` its square. -/
def atanhTerms : Nat → Nat → Int → Int → Int
  | 0, _, _, _ => 0
  | fuel + 1, i, sq, p => p / (2 * i + 1 : Nat) + atanhTerms fuel (i + 1) sq (mulFix p sq)

/-- The inverse hyperbolic tangent of a magnitude up to 1/3. -/
def atanhFix (z : Int) : Int := atanhTerms 96 0 (mulFix z z) z

/-- The natural logarithm of 2. -/
def ln2Fix : Int := 2 * atanhFix (2 ^ 256 / 3)

/-- The terms r^i / i! from term `i` on; `p` is the term itself. -/
def expTerms : Nat → Nat → Int → Int → Int
  | 0, _, _, _ => 0
  | fuel + 1, i, r, p => p + expTerms fuel (i + 1) r (mulFix p r / (i + 1 : Nat))

/-- The exponential of m × 2^e or of its negative, below 2^12 in magnitude, as q × 2^k. -/
def expParts (neg : Bool) (m : Nat) (e : Int) : Nat × Int :=
  let x : Int := roundShift m (e + 256)
  let v := if neg then -x else x
  let n := v / ln2Fix
  ((expTerms 64 0 (v - n * ln2Fix) (2 ^ 256)).toNat, n - 256)

/-- A magnitude of 2^n or more. -/
def atLeastPow (m : Nat) (e n : Int) : Bool := decide (n < e + bitLen m)

/-- The exponential of a finite value; of 0 it is 1 exactly. -/
def numExp (neg : Bool) (m : Nat) (e : Int) : Num :=
  if m = 0 then .fin false 1 0
  else if atLeastPow m e 12 then .fin false 1 (if neg then -8192 else 8192)
  else
    let p := expParts neg m e
    stickyNum false p.1 false p.2

/-- The natural logarithm of a positive finite value; of 1 it is 0 exactly. -/
def numLog (m : Nat) (e : Int) : Num :=
  let low := 2 ^ (bitLen m - 1)
  let h := if 3 * low < 2 * m then 2 * low else low
  let z : Int := ((m : Int) - h) * 2 ^ 256 / (m + h)
  let k : Int := e + bitLen m - (if 3 * low < 2 * m then 0 else 1)
  let v := k * ln2Fix + 2 * atanhFix z
  if m = h && k == 0 then .fin false 0 0 else stickyNum (decide (v < 0)) v.natAbs false (-256)

/-- A quotient of naturals to 200 bits behind the point, to be rounded. -/
def quotNum (neg : Bool) (a b : Nat) : Num := stickyNum neg (a * 2 ^ 200 / b) false (-200)

/-- The hyperbolic tangent of a finite value: just below the value itself where that is tiny, just below 1 where it is
large. -/
def numTanh (neg : Bool) (m : Nat) (e : Int) : Num :=
  if m = 0 then .fin neg 0 0
  else if !atLeastPow m e (-40) then .fin neg (m * 2 ^ 64 - 1) (e - 64)
  else if atLeastPow m e 6 then .fin neg (2 ^ 80 - 1) (-80)
  else
    let p := expParts false m (e + 1)
    let one := 2 ^ (-p.2).toNat
    quotNum neg (p.1 - one) (p.1 + one)

/-- The logistic function 1 / (1 + exp(−x)) of a finite value. -/
def numLogistic (neg : Bool) (m : Nat) (e : Int) : Num :=
  if atLeastPow m e 12 then (if neg then .fin false 1 (-8192) else .fin false (2 ^ 80 - 1) (-80))
  else
    let p := expParts true m e
    let one := 2 ^ (-p.2).toNat
    if neg then stickyNum false (p.1 * 2 ^ (200 + (-p.2).toNat) / (p.1 + one)) false (p.2 - 200)
    else quotNum false one (p.1 + one)

/-- An unstated VFUNC value as a lane: the free value, a NaN canonical (R480; log 13). -/
def laneFree (f : VFmt) (fn : VFn) (a : Word) : Word :=
  let v := Config.vfuncValue f fn a
  if isNan (laneNum f v) then laneOf f .nan else BitVec.ofNat 32 (v.toNat % 2 ^ (8 * laneBytes f))

/-- The value of VFUNC before it is rounded, an infinity by its limit: none where the spec states no result, the
reciprocals of a zero, and logarithm and reciprocal square root of a value that is not positive (R102, R111, R216,
R480; log 13). -/
def numFunc : VFn → Num → Option Num
  | _, .nan => some .nan
  | .exp, .fin n m e => some (numExp n m e)
  | .exp, .inf n => some (if n then .fin false 0 0 else .inf false)
  | .log, .fin n m e => if m = 0 || n then none else some (numLog m e)
  | .log, .inf n => if n then none else some (.inf false)
  | .recip, .fin n m e => if m = 0 then none else some (numRecip n m e)
  | .recip, .inf n => some (.fin n 0 0)
  | .rsqrt, .fin n m e => if m = 0 || n then none else some (numRsqrt m e)
  | .rsqrt, .inf n => if n then none else some (.fin false 0 0)
  | .tanh, .fin n m e => some (numTanh n m e)
  | .tanh, .inf n => some (.fin n 1 0)
  | .logistic, .fin n m e => some (numLogistic n m e)
  | .logistic, .inf n => some (if n then .fin false 0 0 else .fin false 1 0)

/-- VFUNC on one lane: its value rounded once, or a free value (R102, R111; log 13). -/
def laneFunc (fn : VFn) (f : VFmt) (a : Word) : Word :=
  match numFunc fn (laneNum f a) with
  | some x => laneOf f x
  | none => laneFree f fn a

/-- VREDUCE over lanes in ascending order, rounding after each addition (R481). -/
def laneReduce (op : VRed) (f : VFmt) : List Word → Word
  | [] => 0
  | [a] => (match op with
    | .sum => if isNan (laneNum f a) then laneOf f .nan else a
    | .min => laneMin f a a
    | .max => laneMax f a a)
  | a :: t => t.foldl (fun x y => match op with
    | .sum => laneAdd f x y
    | .min => laneMin f x y
    | .max => laneMax f x y) a

end Sys2Proof.Machine
end

