-- ==== Sys2Proof/Machine/Queue.lean ====
section
/-! DEFINITION. The engine queues (R104 to R106, R110): how a command comes to issue, waits or is held, the slots of
the execute side (R63, R105), writes that become visible later (R65, R118), and the timing audit (R117, R121 to R123). -/

namespace Sys2Proof.Machine

/-! ## Queues -/

/-- Queue numbers (R104). -/
abbrev qDma : Fin 5 := 0
abbrev qUnfold : Fin 5 := 1
abbrev qStore : Fin 5 := 2
abbrev qArray : Fin 5 := 3
abbrev qVector : Fin 5 := 4

/-- The queue of the array or the vector engine. -/
def execQueue (vector : Bool) : Fin 5 := if vector then qVector else qArray

/-- The queue belongs to the execute side (R104). -/
def isExecQueue (q : Fin 5) : Bool := decide (3 ≤ q.val)

/-- An engine queue of a core. -/
def State.queue (s : State) (c : Fin 16) (q : Fin 5) : EngineQueue := (s.core c).queues[q]

/-- The state with an engine queue changed. -/
def State.onQueue (s : State) (c : Fin 16) (q : Fin 5) (f : EngineQueue → EngineQueue) : State :=
  s.onCore c fun k => { k with queues := k.queues.set q (f k.queues[q]) }

/-- The push port of the ringmaster that feeds a queue: 0 array, 1 vector, 2 DMA, 3 unfold and store (R109). -/
def pushPort (q : Fin 5) : Fin 4 :=
  match q.val with
  | 3 => 0
  | 4 => 1
  | 0 => 2
  | _ => 3

/-- What the feeder of a queue waits for: the core's own sequencer, or the ringmaster's port to such queues, whose other
ports go on (R107, R109). -/
def State.feederWaits (s : State) (r : Fin 8) (c : Fin 16) (q : Fin 5) (w : Option Wait) : State :=
  if s.masterMode r then s.onRing r fun k => { k with ports := k.ports.set (pushPort q) w }
  else if isExecQueue q then s.onCore c fun k => { k with execute := { k.execute with wait := w } }
  else s.onCore c fun k => { k with access := { k.access with wait := w } }

/-! ## Writes that become visible later -/

/-- The pending writes due by a slot, ordered by slot and then by issue, and the others: `slot` reads an entry's. -/
def dueBy {α : Type} (slot : α → Nat) (u : Nat) (l : List α) : List α × List α :=
  let due := l.filter fun w => decide (slot w ≤ u)
  ((List.range (due.length)).foldl (fun (acc : List α × List α) _ =>
      match acc.2 with
      | [] => acc
      | x :: t =>
        let m := t.foldl (fun m w => min m (slot w)) (slot x)
        match acc.2.findIdx? fun w => slot w == m with
        | some i => (match acc.2[i]? with
          | some w => (acc.1 ++ [w], acc.2.eraseIdx i)
          | none => acc)
        | none => acc) ([], due)).1 |> fun sorted => (sorted, l.filter fun w => !decide (slot w ≤ u))

/-- An accumulator write takes effect, and with it the set's poison (R65, R79). -/
def accCommit (k : Core) (w : AccWrite) : Core :=
  let bit := (1#16).shiftLeft w.set
  { k with
    acc := smWrite 0 k.acc (1024 * w.set) w.values
    accBad := smFill 0 k.accBad (1024 * w.set) 0 1024
    setPoison := if w.poisoned then k.setPoison ||| bit else if w.replaces then k.setPoison &&& ~~~bit else k.setPoison }

/-- A vector-register write takes effect (R118). -/
def vecCommit (k : Core) (w : VecWrite) : Core :=
  { k with vregs := smWrite 0 k.vregs (128 * w.reg) (w.data.flatMap (padTo 128 0)) }

/-- The core with every write due by a slot in effect (R65, R118). -/
def settle (u : Nat) (k : Core) : Core :=
  let (a, aRest) := dueBy AccWrite.slot u k.accPend
  let (v, vRest) := dueBy VecWrite.slot u k.vPend
  { v.foldl vecCommit (a.foldl accCommit k) with accPend := aRest, vPend := vRest }

/-- The 1,024 values of a set as a read in a slot finds them (R65). -/
def readSet (k : Core) (u set : Nat) : List Word := smRead 0 (settle u k).acc (1024 * set) 1024

/-- The 128 lanes of a vector register as a read in a slot finds them (R118). -/
def readVec (k : Core) (u n : Nat) : List Word := smRead 0 (settle u k).vregs (128 * n) 128

/-! ## Issue -/

/-- What happens to a presented command before its own conditions are judged: its ring and its slot where it stands at
the head of its queue and may issue; else the state in which it waits in line, or is not taken at all. -/
inductive Front where
  | ready (r : Fin 8) (u : Nat)
  | not (s : State)
  deriving DecidableEq, Repr

/-- The ring that a tag names (R132). -/
def tagRing (t : Tag) : Fin 8 := ⟨t.toNat / 0x20000000 % 8, by omega⟩

/-- The ring's queues issue: an invocation in progress in a ring that runs and is not halted, or a STEP of invasive
debug for this queue (R114, R455). -/
def State.issuing (s : State) (r : Fin 8) (c : Fin 16) (q : Fin 5) : Bool :=
  s.ringClocked r && (s.ring r).current.isSome && (!(s.ring r).halted || (s.queue c q).stepNow) && !(s.queue c q).ended

/-- The cores that a command is meant for: its own in a paired-stream ring, also those of the mask in a push of the
ringmaster (R107, R109). -/
def State.pushCores (s : State) (r : Fin 8) (c : Fin 16) (mask : BitVec 16) : List (Fin 16) :=
  if s.masterMode r then (List.finRange 16).filter fun x => x == c || mask.getLsbD x else [c]

/-- The mask of a list of cores. -/
def coreMask (l : List (Fin 16)) : BitVec 16 := BitVec.ofNat 16 (l.foldl (fun n c => n ||| 2 ^ c.val) 0)

/-- A command put behind the others of every queue that it is meant for, at once; while one of them is full its feeder
waits for room (R104, R107, R109). -/
def State.lineUp (s : State) (r : Fin 8) (c : Fin 16) (q : Fin 5) (tag : Tag) (cores : List (Fin 16)) : State :=
  match cores.filter fun x => decide (64 ≤ (s.queue x q).tags.length) with
  | [] => (cores.foldl (fun s x => s.onQueue x q fun k => { k with tags := k.tags ++ [tag] }) s).feederWaits r c q none
  | x :: l => s.feederWaits r c q (some ⟨tag, .fullQueue, x.val, q.val, coreMask (x :: l), false⟩)

/-- The isolation fault of a ringmaster's command that names a core outside its ring (R57, row 1). -/
def State.foreignCore (s : State) (t : Tag) (c : Fin 16) : State :=
  if s.masterMode (tagRing t) && s.ringLive (tagRing t) then s.isolation (tagRing t) t isCore c.val 1 1 0 0 else s

/-- A command presented to a queue of a core (R57, R104, R105, R109). A push to several cores puts it into all their queues;
each core's copy is then presented when it stands at the head (log 110). -/
def State.front (s : State) (c : Fin 16) (q : Fin 5) (tag : Tag) (gap : Nat) (mask : BitVec 16) : Front :=
  match s.ringOfCore c with
  | none => .not (s.foreignCore tag c)
  | some r =>
    if tagRing tag ≠ r then .not (s.foreignCore tag c)
    else
      let cores := s.pushCores r c mask
      match cores.filter fun x => s.ringOfCore x != some r with
      | x :: _ => .not (s.foreignCore tag x)
      | [] =>
        if !s.issuing r c q then .not s
        else
          let k := s.queue c q
          match k.tags with
          | [] =>
            if cores.length = 1 then .ready r (if k.fresh then (s.core c).slot else max (s.core c).slot (k.free + gap))
            else .not (s.lineUp r c q tag cores)
          | t :: _ =>
            if t = tag then .ready r (if k.fresh then (s.core c).slot else max (s.core c).slot (k.free + gap))
            else .not (s.lineUp r c q tag cores)

/-- Bits of CORE_ARRAY_STATUS that a command sets. -/
def State.arrayEvents (s : State) (c : Fin 16) (ovf nan opParity accParity : Bool) : State :=
  s.setReg (.coreArrayStatus c) (s.reg (.coreArrayStatus c) ||| BitVec.ofNat 32
    (256 * bitNat ovf + 512 * bitNat nan + 1024 * bitNat opParity + 2048 * bitNat accParity))

/-- ACC_OVF and ACC_NAN are set as the writes that are due by a slot take effect (R64, R78). -/
def State.writesDue (s : State) (c : Fin 16) (u : Nat) : State :=
  let due := (s.core c).accPend.filter fun w => decide (w.slot ≤ u)
  if due.any fun w => w.ovf || w.nan then s.arrayEvents c (due.any AccWrite.ovf) (due.any AccWrite.nan) false false else s

/-- The core's slots move on to a slot, its cycle counter with them, and what is due by then takes effect: writes of sets
and of vector registers, and operations on its flags (R25, R63, R65, R118, R127). -/
def State.toSlot (s : State) (c : Fin 16) (u : Nat) : State :=
  (((s.writesDue c u).tick (coreIsland c) (u - (s.core c).slot)).onCore c fun k => { settle u k with slot := u }).flagsTo c u

/-- The command waits at the head of its queue for what `kind` and `index` name; on the execute side a slot passes, and
the hold is traced with the failing condition (R70, R105, R106, R451). -/
def State.holdAt (s : State) (c : Fin 16) (q : Fin 5) (tag : Tag) (kind : WaitKind) (index cond u : Nat) : State :=
  let s1 := s.onQueue c q fun k =>
    { k with tags := (if k.tags.isEmpty then [tag] else k.tags), wait := some ⟨tag, kind, index, q.val, 0, false⟩ }
  let s2 := if isExecQueue q then (s1.toSlot c u) else s1
  let s3 := if cond = 0 then s2 else s2.trace c evHold tag (q.val + 256 * cond) q.val
  if isExecQueue q then s3.toSlot c (u + 1) else s3

/-- The command issues in slot `u`: it leaves the queue, occupies `occ` slots, and counts `prog` in programmed
distances (R104, R105, R117, R451). -/
def State.issueAt (s : State) (c : Fin 16) (q : Fin 5) (tag : Tag) (gap occ prog u : Nat) : State :=
  let s1 := if isExecQueue q then s.toSlot c u else s
  (s1.onQueue c q fun k =>
    { k with
      tags := (match k.tags with | t :: l => if t = tag then l else t :: l | [] => [])
      wait := none
      free := u + occ
      fresh := false
      prog := k.prog + gap + prog
      stepNow := false
      probe := .idle }).trace c evIssue tag q.val q.val

/-- An access-side engine has a command under way, so that its queue's next command waits (R105; log 27). -/
def State.engineBusy (s : State) (c : Fin 16) (q : Fin 5) : Bool :=
  match q.val with
  | 0 => (s.core c).dmaBusy.isSome
  | 1 => (s.core c).unfoldBusy.isSome
  | 2 => (s.core c).storeBusy.isSome
  | _ => false

/-- The programmed position of the command that issues next in a queue (R117). -/
def State.position (s : State) (c : Fin 16) (q : Fin 5) (gap : Nat) : Nat := (s.queue c q).prog + gap

/-! ## The timing audit -/

/-- A violation that the audit finds (R123). -/
structure Violation where
  earlier    : Tag
  check      : Nat
  resource   : Nat
  required   : Nat
  programmed : Nat
  deriving DecidableEq, Repr

/-- The violation that governs among those of one pair: the lowest CHECK, then the lowest RESOURCE, then the largest
distance required (R123). -/
def worst : List Violation → Option Violation
  | [] => none
  | v :: t => match worst t with
    | none => some v
    | some w =>
      if v.check < w.check || (v.check == w.check && v.resource < w.resource) ||
          (v.check == w.check && v.resource == w.resource && w.required ≤ v.required) then some v else some w

/-- The violation against the nearest earlier command, the list being latest first (R123). -/
def nearestViolation (f : AuditRec → List Violation) : List AuditRec → Option Violation
  | [] => none
  | e :: t => match worst (f e) with
    | some v => some v
    | none => nearestViolation f t

/-- A pair of R66 or R119: a violation where the programmed distance is below the required one. -/
def pairCheck (e : AuditRec) (pos check resource required : Nat) : List Violation :=
  if pos - e.pos < required then [⟨e.tag, check, resource, required, pos - e.pos⟩] else []

/-- The pairs of R66 between an earlier array command and one at `pos` that reads the sets `reads` and, as an ACC_LOAD,
writes `loads`. -/
def arrayPairs (pos : Nat) (reads loads : List Nat) (e : AuditRec) : List Violation :=
  (reads.filter fun x => x == e.first).flatMap (fun x => pairCheck e pos 1 x e.vis) ++
    (loads.filter fun x => x == e.first).flatMap (fun x => pairCheck e pos 2 x (e.vis - 4))

/-- The pairs of R119 between an earlier vector command and one at `pos` that reads registers at slot offsets `reads`
and writes `count` registers from `first` on, visible from distance `vis`. -/
def vectorPairs (pos : Nat) (reads : List (Nat × Nat)) (first count vis : Nat) (e : AuditRec) : List Violation :=
  let wrote (n : Nat) : Bool := decide (e.first ≤ n) && decide (n < e.first + e.count)
  (reads.filter fun p => wrote p.1).flatMap (fun p => pairCheck e pos 3 p.1 (e.vis - p.2)) ++
    ((List.range count).filter fun i => wrote (first + i)).flatMap (fun i => pairCheck e pos 4 (first + i) (e.vis - vis))

/-- The area of an AUDIT record (R123). -/
def auditArea (v : Violation) (q : Nat) (c : Fin 16) (count : Count48) : List Byte :=
  leBytes 4 v.earlier.toNat ++ [BitVec.ofNat 8 v.check, BitVec.ofNat 8 q, BitVec.ofNat 8 v.resource,
    BitVec.ofNat 8 c.val] ++ leBytes 2 v.required ++ leBytes 2 v.programmed ++ leBytes 4 count.toNat

/-- The audit withholds a command: its record, and the ring enters FAULTED (R122, R123). -/
def State.auditFault (s : State) (r : Fin 8) (c : Fin 16) (q : Fin 5) (tag : Tag) (v : Violation) : State :=
  s.faultRing r ⟨tag, cauAudit, isCore, c.val, 0, auditArea v q.val c (s.count (coreIsland c))⟩

/-- The command that the audit withholds stays at the head of its queue, in the slot in which it would have issued. -/
def State.withhold (s : State) (r : Fin 8) (c : Fin 16) (q : Fin 5) (tag : Tag) (u : Nat) (v : Violation) : State :=
  let s1 := s.onQueue c q fun k => { k with tags := if k.tags.isEmpty then [tag] else k.tags }
  (if isExecQueue q then s1.toSlot c u else s1).auditFault r c q tag v

/-- An array command enters the shadow scoreboard (R121). -/
def State.noteArray (s : State) (c : Fin 16) (e : AuditRec) : State :=
  s.onCore c fun k => { k with auditArr := e :: k.auditArr }

/-- A vector command enters the shadow scoreboard (R121). -/
def State.noteVector (s : State) (c : Fin 16) (e : AuditRec) : State :=
  s.onCore c fun k => { k with auditVec := e :: k.auditVec }

end Sys2Proof.Machine
end

