-- ==== Sys2Proof/Machine/Array.lean ====
section
/-! DEFINITION. The dot-product array: STEP, DRAIN and ACC_LOAD (R58 to R75, R78, R79, R87, R89). -/

namespace Sys2Proof.Machine

/-- What a command comes to: its effect, or the refusal of operands that are no form of its class (log 10). -/
def onForm (i : Instr) (mnemonic : String) (effect : State) : Host.Outcome State Fault Refusal :=
  if formOk i then .next effect else .refused (.illFormed mnemonic)

/-! ## Operands -/

/-- The lines that a side of a STEP names exist, and a pair begins at an even line (R57, R60). -/
def operandExists (o : ArrOperand) : Bool :=
  if is16 o.fmt then o.line % 2 == 0 && decide (o.line + 1 < 256) else decide (o.line < 256)

/-- The region of a line (R59). -/
def lineRegion (line : Nat) : Nat := line / 16

/-- Where element `k` of block `b` begins, as an offset in the operand buffer (R60). -/
def elemPlace (o : ArrOperand) (b k : Nat) : Nat :=
  match o.fmt with
  | .code4 => 1024 * o.line + 512 * o.half.val + 16 * b + k / 2
  | .fp16 => 1024 * (o.line + k / 16) + 32 * b + 2 * (k % 16)
  | .bf16 => 1024 * (o.line + k / 16) + 32 * b + 2 * (k % 16)
  | .code8 => 1024 * o.line + 32 * b + k
  | .int8 => 1024 * o.line + 32 * b + k
  | .e4m3 => 1024 * o.line + 32 * b + k
  | .e5m2 => 1024 * o.line + 32 * b + k

/-- The exponent entry of a side of a STEP (R60). -/
def expEntry (o : ArrOperand) : Nat :=
  match o.fmt with
  | .code4 => 2 * o.line + o.half.val
  | .code8 => 2 * o.line
  | .int8 => 2 * o.line
  | .e4m3 => 2 * o.line
  | .e5m2 => 2 * o.line
  | .fp16 => 2 * o.line
  | .bf16 => 2 * o.line

/-- The code of element `k` of block `b` (R60): low nibble for even k in code4, two bytes in a 16-bit format. -/
def elemCode (k : Core) (base : Nat) (o : ArrOperand) (b i : Nat) : Nat :=
  let byte (j : Nat) : Nat := (smGet 0 k.opnd (base + elemPlace o b i + j)).toNat
  if is16 o.fmt then byte 0 + 256 * byte 1
  else if o.fmt = .code4 then (if i % 2 = 0 then byte 0 % 16 else byte 0 / 16)
  else byte 0

/-- The exponent byte of block `b`. -/
def blockExpOf (k : Core) (expBase : Nat) (o : ArrOperand) (b : Nat) : Nat :=
  (smGet 0 k.opnd (expBase + 32 * expEntry o + b)).toNat

/-- The elements of block `b` as the array expands them (R85, R88). -/
def blockElems (k : Core) (base expBase : Nat) (o : ArrOperand) (b : Nat) : List Elem :=
  (List.range 32).map fun i =>
    let x := expand o.fmt (elemCode k base o b i)
    if is16 o.fmt then split16 (blockExpOf k expBase o b) x else elemOf x

/-- A byte that block `b` of a side reads has a parity error (R79). -/
def blockBad (k : Core) (base expBase : Nat) (o : ArrOperand) (b : Nat) : Bool :=
  smGet 0 k.opndBad (expBase + 32 * expEntry o + b) == 1 ||
    (List.range 32).any fun i =>
      smGet 0 k.opndBad (base + elemPlace o b i) == 1 ||
        (is16 o.fmt && smGet 0 k.opndBad (base + elemPlace o b i + 1) == 1)

/-- The logical columns that a core presents (R75, R80). -/
def State.width (s : State) (c : Fin 16) : Nat := s.fld (.coreColwidth c) F.coreColwidth_WIDTH

/-! ## The step -/

/-- What the 1,024 units write, with ACC_OVF and ACC_NAN (R58, R75, R78, R87): the units of logical columns from the
width on do not exist. -/
def stepValues (k : Core) (width : Nat) (w a : ArrOperand) (old : Option (List Word)) : List (Word × Bool × Bool) :=
  let wBlocks := (List.range 32).map fun r => (blockElems k opW opWexp w r, blockExpOf k opWexp w r)
  let aBlocks := (List.range width).map fun c => (blockElems k opA opAexp a c, blockExpOf k opAexp a c)
  (List.range 1024).map fun i =>
    match wBlocks[i / 32]?, aBlocks[i % 32]? with
    | some (we, wx), some (ae, ax) => accumulate (old.map fun l => l.getD i 0) (dotProduct we ae wx ax)
    | _, _ => (0, false, false)

/-- A byte that the array reads of the operands of a STEP has a parity error (R79). -/
def operandBad (k : Core) (width : Nat) (w a : ArrOperand) : Bool :=
  ((List.range 32).any fun r => blockBad k opW opWexp w r) || (List.range width).any fun b => blockBad k opA opAexp a b

/-- Slots of a STEP: 4 with a 16-bit operand on either side, else 1 (R60). -/
def stepSlots (w a : ArrOperand) : Nat := if is16 w.fmt || is16 a.fmt then 4 else 1

/-- The slots after its issue from which a STEP's write is visible (R65). -/
def stepLatency (w a : ArrOperand) : Nat := if is16 w.fmt || is16 a.fmt then 17 else 14

/-- A set is marked poisoned by a command (R79). -/
def State.poisonTag (s : State) (c : Fin 16) (tag : Tag) : State := s.setReg (.coreArrayPoisonTag c) tag

/-- An accumulator of a set has a parity error (R79). -/
def setParity (k : Core) (set : Nat) : Bool :=
  k.accBad.any fun e => decide (1024 * set ≤ e.1) && decide (e.1 < 1024 * set + 1024)

/-- The slots of a STEP counted; a read shows those that it has occupied by then (R80). -/
def State.macSlots (s : State) (c : Fin 16) (n : Nat) : State :=
  let v := (s.reg64 (.coreArrayMacSlots c 0) (.coreArrayMacSlots c 1)).toNat + n
  (s.setReg (.coreArrayMacSlots c 0) (BitVec.ofNat 32 v)).setReg (.coreArrayMacSlots c 1) (BitVec.ofNat 32 (v / 2 ^ 32))

/-! ## The drain -/

/-- The FP16 scale of a row of a drain-scale entry (R72, R73). -/
def rowScale (k : Core) (entry row : Nat) : Num :=
  f16.decode ((smGet 0 k.opnd (opDs + 64 * entry + 2 * row)).toNat +
    256 * (smGet 0 k.opnd (opDs + 64 * entry + 2 * row + 1)).toNat)

/-- A drain-scale entry has a parity error. -/
def scaleBad (k : Core) (scale : Option Nat) : Bool :=
  match scale with
  | none => false
  | some n => (List.range 64).any fun i => smGet 0 k.opndBad (opDs + 64 * n + i) == 1

/-- The 4,096 bytes that a drain of a set delivers (R72, R75). -/
def drainBytes (k : Core) (width u : Nat) (d : DrainOrder) : List Byte :=
  let vals := readSet k u d.set.val
  (List.range 1024).flatMap fun i =>
    let v := if i % 32 < width then drainValue (d.scale.map fun n => rowScale k n (i / 32)) (vals.getD i 0) else 0
    leBytes 4 v.toNat

/-- A DRAIN, or a drain order, in its issue slot: the snapshot goes to the receive entry, which is reserved until the
vector engine releases it; the path is busy for 8 slots (R72, R73, R79). That it reads its drain-scale entry in that slot,
and sets OPERAND_PARITY and ACC_PARITY then, is the model's choice (logs 117, 118). -/
def State.drainNow (s : State) (c : Fin 16) (tag : Tag) (u : Nat) (d : DrainOrder) : State :=
  let k := s.core c
  let k0 := settle u k
  let parity := setParity k0 d.set.val
  let bad := scaleBad k d.scale
  let poison := k0.setPoison.getLsbD d.set || parity || bad
  let k1 := opPut (opRx + 4096 * d.entry.val) (cleanBytes (drainBytes k (s.width c) u d)) k
  let k2 := { k1 with
    rx := k1.rx.set d.entry ⟨true, u + 9, 0, poison⟩
    drainFree := u + 8
    setPoison := if parity then k1.setPoison ||| (1#16).shiftLeft d.set else k1.setPoison }
  let s1 := (s.setCore c k2).arrayEvents c false false bad parity
  if parity then s1.poisonTag c tag else s1

/-! ## The gate (R69) -/

/-- What the gate waits for: the kind and index of R131, and which condition of R69 fails, from 1. -/
structure GateHold where
  kind  : WaitKind
  index : Nat
  cond  : Nat
  deriving DecidableEq, Repr

/-- The first condition of R69 that fails for operand regions of A and W, a drain-scale entry, the load latch, and a
drain order, in slot `u`. -/
def arrayGate (k : Core) (u : Nat) (aRegion wRegion : Option Nat) (latch : Bool) (d : Option DrainOrder) : Option GateHold :=
  let aBad := match aRegion with | some i => !k.aValid.getLsbD i | none => false
  let wBad := match wRegion with | some i => !k.wValid.getLsbD i | none => false
  let group := d.bind fun o => o.scale.map fun n => n / 16
  let dsBad := match group with | some g => !k.dsValid.getLsbD g | none => false
  if aBad then some ⟨.gate, aRegion.getD 0, 1⟩
  else if wBad then some ⟨.gate, 0x10 + wRegion.getD 0, 1⟩
  else if dsBad then some ⟨.gate, 0x20 + group.getD 0, 2⟩
  else if latch && !(k.latchValid && decide (k.latchFrom ≤ u)) then some ⟨.gate, 0x30, 3⟩
  else match d with
    | none => none
    | some o =>
      if u < k.drainFree then some ⟨.busy, 0, 4⟩
      else if (k.rx[o.entry]).held || u < (k.rx[o.entry]).free then some ⟨.gate, 0x40 + o.entry.val, 4⟩
      else none

/-- The array's command is held for a slot, which its hold counter counts (R70). -/
def State.arrayHold (s : State) (c : Fin 16) (tag : Tag) (u : Nat) (g : GateHold) : State :=
  let s1 := s.holdAt c qArray tag g.kind g.index g.cond u
  if g.cond = 4 then s1.bump (.coreArrayHoldDrain c) F.coreArrayHoldDrain_SLOTS 1
  else s1.bump (.coreArrayHoldOperand c) F.coreArrayHoldOperand_SLOTS 1

/-- A drain-scale entry that a drain names exists (R57). -/
def scaleExists (d : Option DrainOrder) : Bool :=
  match d with
  | some o => (match o.scale with | some n => decide (n < 64) | none => true)
  | none => true

/-- An array command that passes its gate and the audit, in slot `u`: `go` is its effect; else it is held, or withheld,
or its ring faults for an address that does not exist (R57, R69, R121). -/
def State.arrayCommand (s : State) (e : Eng) (exists_ : Bool) (gate : Nat → Option GateHold)
    (pairs : Nat → AuditRec → List Violation) (go : Fin 8 → Nat → State) : State :=
  match s.front e.core qArray e.tag e.gap.toNat e.mask with
  | .not s' => s'
  | .ready r u =>
    if !exists_ then (s.toSlot e.core u).isolation r e.tag isCore e.core.val 9 0 0 0
    else match gate u with
      | some g => s.arrayHold e.core e.tag u g
      | none =>
        match (if s.auditOn r then
            nearestViolation (pairs (s.position e.core qArray e.gap.toNat)) (s.core e.core).auditArr else none) with
        | some v => s.withhold r e.core qArray e.tag u v
        | none => go r u

/-! ## The commands -/

/-- The effect of a STEP that issues in slot `u` (R58, R62, R64, R65, R79). What it reads poisoned it writes poisoned; that
OPERAND_PARITY, ACC_PARITY and CORE_ARRAY_POISON_TAG change at issue is the model's choice (log 117). -/
def State.stepNow (s : State) (e : Eng) (w a : ArrOperand) (set : Fin 16) (overwrite : Bool)
    (drain : Option DrainOrder) (u : Nat) : State :=
  let c := e.core
  let pos := s.position c qArray e.gap.toNat
  let n := stepSlots w a
  let s1 := s.issueAt c qArray e.tag e.gap.toNat n n u
  let k := s1.core c
  let old := if overwrite then none else some (readSet k u set.val)
  let vals := stepValues k (s.width c) w a old
  let opBad := operandBad k (s.width c) w a
  let accBad := !overwrite && setParity k set.val
  let carried := !overwrite && k.setPoison.getLsbD set
  let s2 := match drain with
    | some d => s1.drainNow c e.tag u d
    | none => s1
  let s3 := (s2.arrayEvents c false false opBad accBad).macSlots c n
  let s4 := if opBad || accBad then s3.poisonTag c e.tag else s3
  let s5 := s4.onCore c fun k => { k with
    accPend := k.accPend ++ [⟨set.val, u + stepLatency w a, vals.map fun v => v.1, opBad || accBad || carried, overwrite,
      vals.any fun v => v.2.1, vals.any fun v => v.2.2⟩]
    macUntil := u + n
    pipeUntil := max k.pipeUntil (u + stepLatency w a) }
  s5.noteArray c ⟨e.tag, pos, if n = 4 then 2 else 1, set.val, 1, stepLatency w a⟩

/-- STEP. -/
def execStep (e : Eng) (w a : ArrOperand) (set : Fin 16) (overwrite : Bool) (drain : Option DrainOrder) (s : State) :
    Host.Outcome State Fault Refusal :=
  onForm (.step e w a set overwrite drain) "STEP"
    (s.arrayCommand e (operandExists w && operandExists a && scaleExists drain)
      (fun u => arrayGate (s.core e.core) u (some (lineRegion a.line)) (some (lineRegion w.line)) false drain)
      (fun pos => arrayPairs pos ((if overwrite then [] else [set.val]) ++
        (match drain with | some d => [d.set.val] | none => [])) [])
      (fun _ u => s.stepNow e w a set overwrite drain u))

/-- DRAIN. -/
def execDrain (e : Eng) (d : DrainOrder) (s : State) : Host.Outcome State Fault Refusal :=
  onForm (.drain e d) "DRAIN"
    (s.arrayCommand e (scaleExists (some d)) (fun u => arrayGate (s.core e.core) u none none false (some d))
      (fun pos => arrayPairs pos [d.set.val] [])
      (fun _ u => (s.issueAt e.core qArray e.tag e.gap.toNat 1 1 u).drainNow e.core e.tag u d))

/-- The effect of an ACC_LOAD that issues in slot `u`: the latch is copied into the set and marked invalid (R62, R65,
R79). -/
def State.accLoadNow (s : State) (e : Eng) (set : Fin 16) (u : Nat) : State :=
  let c := e.core
  let pos := s.position c qArray e.gap.toNat
  let s1 := s.issueAt c qArray e.tag e.gap.toNat 1 1 u
  let d := opGet (s1.core c) opLatch 4096
  let bad := anyPoison d
  let vals := (chunksOf 4 1025 (rawBytes d)).map fun b => BitVec.ofNat 32 (leVal b)
  let s2 := s1.arrayEvents c false false bad false
  let s3 := if bad then s2.poisonTag c e.tag else s2
  (s3.onCore c fun k => { k with
    accPend := k.accPend ++ [⟨set.val, u + 4, vals, bad, true, false, false⟩]
    latchValid := false }).noteArray c ⟨e.tag, pos, 3, set.val, 1, 4⟩

/-- ACC_LOAD. -/
def execAccLoad (e : Eng) (set : Fin 16) (s : State) : Host.Outcome State Fault Refusal :=
  onForm (.accLoad e set) "ACC_LOAD"
    (s.arrayCommand e true (fun u => arrayGate (s.core e.core) u none none true none)
      (fun pos => arrayPairs pos [] [set.val]) (fun _ u => s.accLoadNow e set u))

end Sys2Proof.Machine
end

