-- ==== Sys2Proof/Machine/Access.lean ====
section
/-! DEFINITION. Who may ask what of a ring (R36, R51, R56, R313): the right of an endpoint to an instance of a ring, and
the writes that a parked ring holds. -/

namespace Sys2Proof.Machine

/-- The ring's manifest names the application cores' internal endpoint (R42, R56, R299): also while nothing is bound. -/
def State.namesInternal (s : State) (r : Fin 8) : Bool :=
  (List.range 8).any fun e =>
    let w := s.manifest r (0x30 + 4 * e) 4
    bitAt w 31 && w % 4096 == 0xFFF

/-- The writer is the application cores' internal endpoint, under whichever ring's name it sends (R299, R322). -/
def State.viaInternal (s : State) : Who → Bool
  | .ep g e => s.epInternal (epIx g e)
  | .internal => true
  | .booth => false

/-- The ring's own endpoints, the internal endpoint where its manifest names it, and the booth (R56). -/
def State.ownAccess (s : State) (r : Fin 8) : Who → Bool
  | .ep g e => g == r || (s.epInternal (epIx g e) && s.namesInternal r)
  | .internal => s.namesInternal r
  | .booth => true

/-- The endpoint is the ring's debug endpoint (R433, R436). -/
def State.isDebugEp (s : State) (r : Fin 8) : Who → Bool
  | .ep g e => (match s.debugEp r with
    | some x => x == epIx g e || (s.epInternal x && s.epInternal (epIx g e))
    | none => false)
  | .internal => (match s.debugEp r with | some e => s.epInternal e | none => false)
  | .booth => false

/-- The debug endpoint, with at least a level in force (R433). -/
def State.debugRight (s : State) (r : Fin 8) (level : Nat) (who : Who) : Bool :=
  decide (level ≤ s.debugLevel r) && s.isDebugEp r who

/-- The endpoint writes the ring's registers: its own, or the debug endpoint at level INVASIVE or FULL (R56, R433). -/
def State.ringAccess (s : State) (r : Fin 8) (who : Who) : Bool := s.ownAccess r who || s.debugRight r 2 who

/-- The endpoint reads the ring's registers: its own, or the debug endpoint from level TRACE on (R433). -/
def State.readAccess (s : State) (r : Fin 8) (who : Who) : Bool := s.ownAccess r who || s.debugRight r 1 who

/-- The device is in Standby (R438). -/
def State.inStandby (s : State) : Bool := s.fld .secStatus F.secStatus_POWER == 2

/-- A debug access in Standby is answered RING_STATE (R439). -/
def State.debugAsleep (s : State) (r : Fin 8) (who : Who) : Bool := s.inStandby && !s.ownAccess r who && s.debugRight r 1 who

/-- The ring holds register writes: PARKING or PARKED (R51, R313). -/
def State.holdsWrites (s : State) (r : Fin 8) : Bool := s.ringState r == stParking || s.ringState r == stParked

/-- A write held until RESUME, in arrival order, up to 256; beyond that RING_PARKED (R313). -/
def State.holdWrite (s : State) (r : Fin 8) (who : Who) (addr value : Word) : State × Nat :=
  if (s.ring r).held.length < 256 then
    (s.onRing r fun k => { k with held := k.held ++ [⟨who, addr, value⟩] }, stOk)
  else (s, stRingParked)

/-- A write to an instance of a ring: refused, held, or performed (R56, R311, R313, R439). -/
def State.request (s : State) (r : Fin 8) (who : Who) (addr value : Word) (act : State → State × Nat) : State × Nat :=
  if s.debugAsleep r who then (s, stRingState)
  else if !s.ringAccess r who then (s, stAccessRing)
  else if s.holdsWrites r && who != .booth then s.holdWrite r who addr value
  else act s

/-- The endpoint number under which a writer reaches a ring. -/
def State.endpointOf (s : State) (r : Fin 8) : Who → Option (Fin 8)
  | .ep g e => if g = r then some e else if s.epInternal (epIx g e) then s.internalEp r else none
  | .internal => s.internalEp r
  | .booth => none

/-- A KEY register's write of an operation (R55, R238, R263, R324 and others): KEY 0xA5, the operation in bits 3 to 0. -/
def keyWord (op : Nat) : Word := BitVec.ofNat 32 (0xA5000000 + op)

/-- KEY is 0xA5 (R55). -/
def keyed (w : Word) : Bool := w.toNat / 2 ^ 24 == 0xA5

end Sys2Proof.Machine
end

