-- ==== Sys2Proof/Machine/FlashCode.lean ====
section
/-! DEFINITION. The page code of the boot flash (R371 to R373): GF(2^10), the codewords of a page, how they lie in its main
and spare areas, page tags, and what one read of a page finds. -/

namespace Sys2Proof.Machine

/-! ## RS(884,824) over GF(2^10) (R371) -/

/-- Multiplication by α = 0x002 with the field polynomial x^10 + x^3 + 1. -/
def gf10Double (a : BitVec 10) : BitVec 10 := if a.getLsbD 9 then (a <<< 1) ^^^ 0x009 else a <<< 1

/-- Multiplication over the low `n` bits of the first factor. -/
def gf10MulBits : Nat → BitVec 10 → BitVec 10 → BitVec 10
  | 0, _, _ => 0
  | n + 1, a, b => (if a.getLsbD 0 then b else 0) ^^^ gf10MulBits n (a >>> 1) (gf10Double b)

/-- Multiplication in GF(2^10). -/
def gf10Mul (a b : BitVec 10) : BitVec 10 := gf10MulBits 10 a b

/-- α to a power. -/
def gf10Alpha : Nat → BitVec 10
  | 0 => 1
  | n + 1 => gf10Double (gf10Alpha n)

/-- A polynomial, the highest coefficient first, multiplied by x + r. -/
def timesRoot (p : List (BitVec 10)) (r : BitVec 10) : List (BitVec 10) :=
  List.zipWith (· ^^^ ·) (p ++ [0]) (0 :: p.map (gf10Mul r))

/-- The generator (x + α^0)(x + α^1)…(x + α^(n-1)): n + 1 coefficients, that of x^n first. -/
def flashGenerator (n : Nat) : List (BitVec 10) := (List.range n).foldl (fun p i => timesRoot p (gf10Alpha i)) [1]

/-- One step of the division by the generator: `r` is the remainder so far, the highest coefficient first. -/
def checkStep (g r : List (BitVec 10)) (d : BitVec 10) : List (BitVec 10) :=
  List.zipWith (· ^^^ ·) (r.drop 1 ++ [0]) ((g.drop 1).map (gf10Mul (r.headD 0 ^^^ d)))

/-- The `n` check symbols of data symbols, the first of which is the highest coefficient (log 138). -/
def checkSymbols (n : Nat) (data : List (BitVec 10)) : List (BitVec 10) :=
  data.foldl (checkStep (flashGenerator n)) (List.replicate n 0)

/-- The value at α^j of a word of symbols, the first of which is the highest coefficient. -/
def syndrome10 (w : List (BitVec 10)) (j : Nat) : BitVec 10 := w.foldl (fun a x => gf10Mul a (gf10Alpha j) ^^^ x) 0

/-- The first `n` symbols of a byte string: bit j of the string is bit j mod 10 of symbol ⌊j / 10⌋. -/
def symbolsOf (n : Nat) (b : List Byte) : List (BitVec 10) := (List.range n).map fun i => BitVec.ofNat 10 (leVal b / 2 ^ (10 * i))

/-- The `n` bytes of a string of symbols. -/
def symbolBytes (n : Nat) (l : List (BitVec 10)) : List Byte := leBytes n (l.foldr (fun x v => x.toNat + 1024 * v) 0)

/-! ## Page tags (R372) -/

/-- The number of page `p` of block `b`. -/
def pageNo (b p : Nat) : Nat := 128 * b + p

/-- The first `n` main bytes of a page, as they were written. -/
def State.pageMain (s : State) (pg n : Nat) : List Byte := smRead 0xFF s.flash.main (4096 * pg) n

/-- The tag of a page that is not programmed. -/
abbrev erasedTag : BitVec 192 := BitVec.allOnes 192

/-- A page's tag. -/
def State.pageTag (s : State) (pg : Nat) : BitVec 192 := smGet erasedTag s.flash.tags pg

/-- The fields of a tag (R372). -/
def tagArea (t : BitVec 192) : Nat := t.toNat % 256
/-- LOGICAL. -/
def tagLogical (t : BitVec 192) : Nat := t.toNat / 2 ^ 16 % 2 ^ 32
/-- SEQ. -/
def tagSeq (t : BitVec 192) : Nat := t.toNat / 2 ^ 48 % 2 ^ 32

/-- A tag with its reserved bytes zero (R372). -/
def mkTag (area logical seq erases : Nat) : BitVec 192 :=
  BitVec.ofNat 192 (area + 2 ^ 16 * (logical % 2 ^ 32) + 2 ^ 48 * (seq % 2 ^ 32) + 2 ^ 80 * (erases % 2 ^ 32))

/-! ## The cells of a page (R371) -/

/-- Symbols of a codeword, of its data, and of a page. -/
abbrev codeSymbols : Nat := 884
abbrev dataSymbols : Nat := 824
abbrev pageSymbols : Nat := 3536

/-- The 1,030 data bytes of codeword `k`: 1,024 main bytes, then 6 bytes of the page tag. -/
def codeData (main : List Byte) (tag : BitVec 192) (k : Nat) : List Byte :=
  part main (1024 * k) 1024 ++ part (leBytes 24 tag.toNat) (6 * k) 6

/-- Codeword `k` of a page as it was written; every cell of a page that is not programmed is one. -/
def State.written (s : State) (pg k : Nat) : List (BitVec 10) :=
  if s.pageTag pg = erasedTag then List.replicate codeSymbols 0x3FF
  else
    let d := symbolsOf dataSymbols (codeData (s.pageMain pg 4096) (s.pageTag pg) k)
    d ++ checkSymbols 60 d

/-- Codeword `k` of a page as its cells hold it. -/
def State.cells (s : State) (pg k : Nat) : List (BitVec 10) :=
  List.zipWith (· ^^^ ·) (s.written pg k) (smRead 0 s.flash.flips (pageSymbols * pg + codeSymbols * k) codeSymbols)

/-- The 4,096 bytes of the main area as its cells hold them. -/
def State.mainCells (s : State) (pg : Nat) : List Byte :=
  (List.range 4).flatMap fun k => (symbolBytes 1030 ((s.cells pg k).take dataSymbols)).take 1024

/-- Spare bytes 0 to 323: for each codeword its share of the tag at 81 k, then its check bytes. Those from 324 on are written
as 0xFF. -/
def State.spareCells (s : State) (pg : Nat) : List Byte :=
  (List.range 4).flatMap fun k =>
    (symbolBytes 1030 ((s.cells pg k).take dataSymbols)).drop 1024 ++ symbolBytes 75 ((s.cells pg k).drop dataSymbols)

/-- The bits that are 0 in a byte string. -/
def zeroBits (l : List Byte) : Nat := l.foldl (fun n b => n + (List.range 8).countP fun i => !b.getLsbD i) 0

/-- The errors of a page's cells, by symbol of the page. -/
def State.pageFlips (s : State) (pg : Nat) : List (Nat × BitVec 10) :=
  (s.flash.flips.filter fun e => decide (pageSymbols * pg ≤ e.1) && decide (e.1 < pageSymbols * (pg + 1))).map fun e =>
    (e.1 - pageSymbols * pg, e.2)

/-- The bits that are wrong in a list of errors. -/
def flippedBits (l : List (Nat × BitVec 10)) : Nat := l.foldl (fun n e => n + (List.range 10).countP e.2.getLsbD) 0

/-- A page reads as erased: at most 64 bits of its main area and of spare bytes 0 to 323 are zero (R373). The zero bits of
the tag alone settle it for most pages. -/
def State.pageErased (s : State) (pg : Nat) : Bool :=
  let wrong := flippedBits (s.pageFlips pg)
  !(s.flash.unreadable.contains pg) &&
    if s.pageTag pg = erasedTag then decide (wrong ≤ 64)
    else decide (zeroBits (leBytes 24 (s.pageTag pg).toNat) ≤ 64 + wrong) &&
      decide (zeroBits (s.mainCells pg ++ s.spareCells pg) ≤ 64)

/-! ## One read of a page (R371, R373) -/

/-- The error mask of a symbol in a list of errors. -/
def maskOf (l : List (Nat × BitVec 10)) (i : Nat) : BitVec 10 := l.foldl (fun m e => if e.1 = i then m ^^^ e.2 else m) 0

/-- The symbols of codeword `k` that a list of errors makes wrong. -/
def wrongSymbols (l : List (Nat × BitVec 10)) (k : Nat) : Nat :=
  ((l.map Prod.fst).eraseDups.filter fun i => i / codeSymbols == k && maskOf l i != 0).length

/-- A read with errors of its own: the symbols corrected in each codeword, where every codeword decodes. A codeword corrects
any 30 symbols; more are not corrected (log 138). -/
def State.readTry (s : State) (pg : Nat) (noise : List (Nat × BitVec 10)) : Option (List Nat) :=
  let n := (List.range 4).map (wrongSymbols (s.pageFlips pg ++ noise))
  if s.pageTag pg ≠ erasedTag ∧ !s.flash.unreadable.contains pg ∧ (n.all fun c => decide (c ≤ 30)) then some n else none

/-- A page is programmed and decodes with the AREA that is read (R373). -/
def State.pageGood (s : State) (area pg : Nat) : Bool :=
  (s.readTry pg []).isSome && !s.pageErased pg && tagArea (s.pageTag pg) == area

end Sys2Proof.Machine
end

