-- ==== Sys2Proof/Machine/Flash.lean ====
section
/-! DEFINITION. The boot flash as its readers find it (R369, R370, R374 to R380, R383): the areas and their maps, the journal,
the table, slot headers and containers, the anchors; a page programmed, a block erased, a block copied. -/

namespace Sys2Proof.Machine

/-! ## Geometry and areas (R374 to R377) -/

/-- PAGES_LOG of the governing anchor. -/
def State.pagesLog (s : State) : Nat := leAt s.flash.anchor 0x07 1

/-- Pages per block. -/
def State.pagesPerBlock (s : State) : Nat := 2 ^ s.pagesLog

/-- Flash blocks on both devices (R370); the most that R369 supports before the anchor is read. -/
def State.flashBlocks (s : State) : Nat :=
  if s.flash.anchor.isEmpty then 65536 else leAt s.flash.anchor 0x06 1 * leAt s.flash.anchor 0x08 4

/-- The areas by their AREA code (R372). -/
abbrev arTable : Nat := 2
abbrev arRecord : Nat := 5
abbrev arJournal : Nat := 6
abbrev arLog : Nat := 7

/-- The AREA of a slot. -/
def slotArea (k : Fin 2) : Nat := 3 + k.val

/-- FIRST_BLOCK and COUNT of an area in an anchor record (R375). -/
def areaRange (m : List Byte) (area : Nat) : Nat × Nat := (leAt m (0x10 + 8 * (area - 2)) 4, leAt m (0x14 + 8 * (area - 2)) 4)

/-- The blocks that the anchors may use: the first 16 of device 0 without the factory mark (R374). -/
def State.anchorBlocks (s : State) : List Nat :=
  ((List.range (16 + s.flash.factoryBad.length)).filter fun b => !(s.flash.factoryBad.contains b)).take 16

/-- The good blocks of an area (R374). -/
def State.goodBlocks (s : State) (area : Nat) : List Nat :=
  let r := areaRange s.flash.anchor area
  ((List.range r.2).map fun i => r.1 + i).filter fun b => !(s.flash.factoryBad.contains b || s.flash.badBlocks.contains b)

/-- The MAGIC of the signed device record (R420). -/
abbrev recordMagic : Nat := 0x4C394452

/-- A block of the device-record area holds a copy of the signed record (R380). -/
def State.recordBlock (s : State) (b : Nat) : Bool :=
  s.pageGood arRecord (pageNo b 0) && leVal (s.pageMain (pageNo b 0) 4) == recordMagic

/-- The blocks of an area that its logical space uses: a slot's header blocks and the copies of the device record apart
(R378, R380). -/
def State.dataBlocks (s : State) (area : Nat) : List Nat :=
  if area = 3 ∨ area = 4 then (s.goodBlocks area).drop 2
  else if area = arRecord then (s.goodBlocks area).filter fun b => !s.recordBlock b
  else s.goodBlocks area

/-- A block in use: its logical block and its SEQ, from the tag of its page 0 (R377). -/
structure BlockUse where
  block   : Nat
  logical : Nat
  seq     : Nat
  deriving DecidableEq, Repr

/-- The blocks of an area whose page 0 decodes. -/
def State.blockUses (s : State) (area : Nat) : List BlockUse :=
  (s.dataBlocks area).filterMap fun b =>
    if s.pageGood area (pageNo b 0) && !(s.flash.partials.contains b) then
      some ⟨b, tagLogical (s.pageTag (pageNo b 0)) / s.pagesPerBlock, tagSeq (s.pageTag (pageNo b 0))⟩
    else none

/-- The blocks that govern: for each logical block that with the highest SEQ (R377). -/
def State.governing (s : State) (area : Nat) : List BlockUse :=
  let l := s.blockUses area
  l.filter fun u => l.all fun v => v.logical != u.logical || decide (v.seq < u.seq) || (v.seq == u.seq && decide (u.block ≤ v.block))

/-- Where a logical page of an area lies (R377). -/
def State.logicalPlace (s : State) (area n : Nat) : Option Nat :=
  ((s.governing area).find? fun u => u.logical == n / s.pagesPerBlock).map fun u => pageNo u.block (n % s.pagesPerBlock)

/-- A logical page of an area; none where it does not decode. -/
def State.logicalPage (s : State) (area n : Nat) : Option (List Byte) :=
  (s.logicalPlace area n).bind fun pg => if s.pageGood area pg then some (s.pageMain pg 4096) else none

/-- The free blocks of an area: erased, and not left half erased (R377, R381). -/
def State.freeBlocks (s : State) (area : Nat) : List Nat :=
  (s.dataBlocks area).filter fun b => s.pageErased (pageNo b 0) && !(s.flash.partials.contains b)

/-- The erases of a block. -/
def State.erasesOf (s : State) (b : Nat) : Nat := (smGet 0 s.flash.erases b).toNat

/-- The free block of an area with the lowest ERASES; of equals the lowest (R382). -/
def State.pickFree (s : State) (area : Nat) : Option Nat :=
  (s.freeBlocks area).find? fun b => (s.freeBlocks area).all fun c => decide (s.erasesOf b ≤ s.erasesOf c)

/-- The blocks of an area that are neither free nor governing (R377). -/
def State.unusedBlocks (s : State) (area : Nat) : List Nat :=
  (s.dataBlocks area).filter fun b =>
    !((s.governing area).any fun u => u.block == b) && !((s.freeBlocks area).contains b)

/-- The area whose range holds a block; 1 for the anchors. -/
def State.areaOf (s : State) (b : Nat) : Nat :=
  ((List.range 6).find? fun i =>
    let r := areaRange s.flash.anchor (i + 2)
    decide (r.1 ≤ b) && decide (b < r.1 + r.2)).map (fun i => i + 2) |>.getD 1

/-! ## Operations on pages and blocks -/

/-- A page's 4,096 bytes around a record at its start. -/
def pageOf (bytes : List Byte) : List Byte :=
  (bytes.take 4096) ++ (List.range (4096 - bytes.length)).map fun i => Config.pagePad (bytes.length + i)

/-- A page programmed: its cells hold what is written (log 138). -/
def State.programPage (s : State) (pg : Nat) (tag : BitVec 192) (bytes : List Byte) : State :=
  { s with flash := { s.flash with
      main := smWrite 0xFF s.flash.main (4096 * pg) (pageOf bytes), tags := smSet erasedTag s.flash.tags pg tag
      flips := smClear s.flash.flips (pageSymbols * pg) (pageSymbols * (pg + 1)) } }

/-- A block erased: every page reads as erased, its ERASES is one higher, its reads are zero (R372, R382). -/
def State.eraseBlock (s : State) (b : Nat) : State :=
  { s with flash := { s.flash with
      main := smClear s.flash.main (4096 * pageNo b 0) (4096 * pageNo (b + 1) 0)
      tags := smClear s.flash.tags (pageNo b 0) (pageNo (b + 1) 0)
      flips := smClear s.flash.flips (pageSymbols * pageNo b 0) (pageSymbols * pageNo (b + 1) 0)
      unreadable := s.flash.unreadable.filter fun p => p / 128 != b
      erases := smSet 0 s.flash.erases b (smGet 0 s.flash.erases b + 1)
      reads := smSet 0 s.flash.reads b 0
      partials := s.flash.partials.filter fun c => c != b } }

/-- The blocks that an AREA's pages may lie in. -/
def State.areaBlocks (s : State) (area : Nat) : List Nat := if area = 1 then s.anchorBlocks else s.goodBlocks area

/-- The program sequence of the next block that is written in an area (R372). -/
def State.nextBlockSeq (s : State) (area : Nat) : Nat :=
  (((s.areaBlocks area).filter fun b => s.pageGood area (pageNo b 0)).foldl (fun n b =>
    max n (tagSeq (s.pageTag (pageNo b 0)))) 0) + 1

/-- The SEQ of a page to be written: its block's, which page 0 begins (R372). -/
def State.pageSeq (s : State) (area pg : Nat) : Nat :=
  if pg % 128 = 0 then s.nextBlockSeq area else tagSeq (s.pageTag (pageNo (pg / 128) 0))

/-- A block's pages copied to a free block of its area with a new SEQ; what does not decode is left missing (R381,
R382). -/
def State.copyBlock (s : State) (src dst : Nat) : State :=
  let area := s.areaOf src
  let seq := s.nextBlockSeq area
  (List.range s.pagesPerBlock).foldl (fun s p =>
    if s.pageGood area (pageNo src p) then
      s.programPage (pageNo dst p) (mkTag area (tagLogical (s.pageTag (pageNo src p))) seq (s.erasesOf dst))
        (s.pageMain (pageNo src p) 4096)
    else s) s

/-! ## Write inhibition (R385) -/

/-- No program or erase starts (R385). -/
def State.inhibited (s : State) : Bool := s.pins.warn || s.flash.io18Low || s.flash.resuming

/-- FLS_STATUS.INHIBIT shows it. -/
def State.showInhibit (s : State) : State := s.setFld .flsStatus F.flsStatus_INHIBIT (bitNat s.inhibited)

/-- An operation held is counted (R387). -/
def State.countHeld (s : State) : State := s.bump (.flsCount 3) F.flsCount_COUNT 1

/-! ## Areas written as rings of blocks (R382) -/

/-- Where the next page of such an area goes: a page with its LOGICAL, or a block to erase first. -/
inductive RingPlace where
  | page (pg logical : Nat)
  | erase (b : Nat)
  | none
  deriving DecidableEq, Repr

/-- The block of a list of uses with the least SEQ. -/
def oldestUse (l : List BlockUse) : Option BlockUse := l.find? fun u => l.all fun v => decide (u.seq ≤ v.seq)

/-- The block of a list of uses with the greatest SEQ. -/
def newestUse (l : List BlockUse) : Option BlockUse := l.find? fun u => l.all fun v => decide (v.seq ≤ u.seq)

/-- The first erased page of a block in use. -/
def State.openPage (s : State) (b : Nat) : Option Nat :=
  (List.range s.pagesPerBlock).find? fun p => s.pageErased (pageNo b p)

/-- A new block of the ring: a free one while two more are left free; else a block no longer used, then the oldest, is
erased first, unless the oldest still `holds` something that governs (R377, R382, R384). -/
def State.newRingBlock (s : State) (area : Nat) (holds : Bool) : RingPlace :=
  let l := s.governing area
  let logical := l.foldl (fun n u => max n (u.logical + 1)) 0
  let fresh := match s.pickFree area with
    | some b => RingPlace.page (pageNo b 0) (s.pagesPerBlock * logical)
    | none => .none
  if 2 < (s.freeBlocks area).length then fresh
  else match s.unusedBlocks area, oldestUse l with
    | b :: _, _ => .erase b
    | [], some u => if holds then fresh else .erase u.block
    | [], none => fresh

/-- The place of the next page; in a new block where `fresh` asks for one. -/
def State.ringPlace (s : State) (area : Nat) (fresh holds : Bool) : RingPlace :=
  match if fresh then none else newestUse (s.governing area) with
  | some u =>
    match s.openPage u.block with
    | some p => .page (pageNo u.block p) (s.pagesPerBlock * u.logical + p)
    | none => s.newRingBlock area holds
  | none => s.newRingBlock area holds

/-! ## The configuration journal and the trim journal (R383) -/

/-- The pages of an area in logical order, each with its block. -/
def State.areaPages (s : State) (area : Nat) : List (Nat × List Byte) :=
  let l := (s.governing area).mergeSort fun u v => decide (u.logical ≤ v.logical)
  l.flatMap fun u => (List.range s.pagesPerBlock).filterMap fun p =>
    if s.pageErased (pageNo u.block p) then none
    else some (u.block, if s.pageGood area (pageNo u.block p) then s.pageMain (pageNo u.block p) 4096
      else List.replicate 4096 0xFF)

/-- A journal entry: TYPE, SEQ, its bytes, the block in which it begins. -/
structure JournalEntry where
  type  : Nat
  seq   : Nat
  bytes : List Byte
  block : Nat
  deriving DecidableEq, Repr

/-- An entry's CRC: over the header with CRC zero, followed by the body (R383). -/
def entryCrc (e : List Byte) : Nat := (crc32c (e.take 8 ++ leBytes 4 0 ++ e.drop 12)).toNat

/-- The bytes of an entry are well-formed (R383). -/
def entrySound (e : List Byte) : Bool :=
  decide (16 ≤ e.length) && decide (leAt e 2 2 ≤ 8192) && e.length == 16 + leAt e 2 2 && leAt e 12 4 == 0 &&
    leAt e 8 4 == entryCrc e

/-- The entries in a run of 64-byte pieces. -/
def entriesIn : Nat → List (Nat × List Byte) → List JournalEntry
  | _, [] => []
  | skip + 1, _ :: t => entriesIn skip t
  | 0, (b, c) :: t =>
    let n := 16 + leAt c 2 2
    let e := ((c :: (t.take (ceilDiv n 64)).map fun p => p.2).flatten).take n
    if decide (1 ≤ leAt c 0 1) && decide (leAt c 0 1 ≤ 7) && entrySound e then
      ⟨leAt c 0 1, leAt c 4 4, e, b⟩ :: entriesIn (ceilDiv n 64 - 1) t
    else entriesIn 0 t

/-- The counting entries of an area (R383). -/
def State.entries (s : State) (area : Nat) : List JournalEntry :=
  entriesIn 0 ((s.areaPages area).flatMap fun p => (chunksOf 64 64 p.2).map fun c => (p.1, c))

/-- The governing entry of a TYPE (R383); of an entry and its copies the newest. -/
def State.governingEntry (s : State) (area type : Nat) : Option JournalEntry :=
  let l := ((s.entries area).filter fun e => e.type == type).reverse
  l.find? fun e => l.all fun f => decide (f.seq ≤ e.seq)

/-- The body of the governing record of a TYPE in the configuration journal (R383). -/
def State.configRecord (s : State) (type : Nat) : Option (List Byte) :=
  (s.governingEntry arJournal type).map fun e => e.bytes.drop 16

/-- The pages of the governing entries that begin in the oldest block of a journal: what is copied forward before its erase
(R383). -/
def State.keepPages (s : State) (area : Nat) : List (List Byte) :=
  if area = arJournal ∨ area = arRecord then
    match oldestUse (s.governing area) with
    | some u => (((List.range 8).filterMap fun t => s.governingEntry area t).filter fun e => e.block == u.block).flatMap fun e =>
        chunksOf 4096 4 e.bytes
    | none => []
  else []

/-- The bytes of an entry with a SEQ (R383). -/
def journalBytes (type format seq : Nat) (body : List Byte) : List Byte :=
  let e := leBytes 1 type ++ leBytes 1 format ++ leBytes 2 body.length ++ leBytes 4 seq ++ leBytes 4 0 ++ leBytes 4 0 ++ body
  e.take 8 ++ leBytes 4 (entryCrc e) ++ e.drop 12

/-! ## The bad-block table (R380, R381) -/

/-- A table record (R380; log 16). -/
def tableBytes (blocks seq : Nat) (bad : List Nat) : List Byte :=
  let bitmap := (List.range (ceilDiv blocks 8)).map fun i =>
    BitVec.ofNat 8 ((List.range 8).foldl (fun n j => n + if bad.contains (8 * i + j) then 2 ^ j else 0) 0)
  let b := leBytes 4 0x4C394242 ++ leBytes 4 1 ++ leBytes 4 seq ++ leBytes 4 bad.length ++ bitmap
  b ++ leBytes 4 (crc32c b).toNat

/-- The table records that a page starts: SEQ and the blocks set (R380). -/
def State.tableAt (s : State) (n : Nat) : Option (Nat × List Nat) :=
  let bytes := ((List.range 3).filterMap fun i => s.logicalPage arTable (n + i)).flatten
  let len := 16 + ceilDiv s.flashBlocks 8
  let b := bytes.take len
  if leAt b 0 4 == 0x4C394242 && b.length == len && leAt bytes len 4 == (crc32c b).toNat then
    some (leAt b 8 4, (List.range s.flashBlocks).filter fun i => bitAt (leAt b (16 + i / 8) 1) (i % 8))
  else none

/-- The governing table record (R380). -/
def State.tableRecord (s : State) : Option (Nat × List Nat) :=
  let l := ((s.governing arTable).flatMap fun u => (List.range s.pagesPerBlock).map fun p =>
    s.pagesPerBlock * u.logical + p).filterMap s.tableAt
  l.find? fun e => l.all fun f => decide (f.1 ≤ e.1)

/-! ## Slot headers (R378, R379) -/

/-- The 64 bytes of a slot header. -/
def headerBytes (h : SlotHeader) : List Byte :=
  let b := leBytes 4 0x4C395348 ++ leBytes 2 1 ++ leBytes 1 h.state ++ leBytes 1 h.trials ++ leBytes 1 h.cause ++ leBytes 3 0 ++
    leBytes 4 h.version.toNat ++ leBytes 4 h.installSeq.toNat ++ leBytes 4 h.hseq.toNat ++ leBytes 4 h.length.toNat ++
    leBytes 32 0
  b ++ leBytes 4 (crc32c b).toNat

/-- A header read from 64 bytes: MAGIC, FORMAT, ranges, reserved bytes and CRC hold. -/
def readHeader (b : List Byte) : Option SlotHeader :=
  let h : SlotHeader := ⟨leAt b 6 1, leAt b 7 1, leAt b 8 1, BitVec.ofNat 32 (leAt b 0xC 4), BitVec.ofNat 32 (leAt b 0x10 4),
    BitVec.ofNat 32 (leAt b 0x14 4), BitVec.ofNat 32 (leAt b 0x18 4)⟩
  if decide (h.state ≤ 4) && decide (h.trials ≤ 3) && decide (h.cause ≤ 4) && b == headerBytes h then some h else none

/-- The two header blocks of a slot. -/
def State.headerBlocks (s : State) (k : Fin 2) : List Nat := (s.goodBlocks (slotArea k)).take 2

/-- The header pages of a slot that count: page and header (R379). -/
def State.headerPages (s : State) (k : Fin 2) : List (Nat × SlotHeader) :=
  (s.headerBlocks k).flatMap fun b => (List.range s.pagesPerBlock).filterMap fun p =>
    if s.pageGood (slotArea k) (pageNo b p) then (readHeader (s.pageMain (pageNo b p) 64)).map fun h => (pageNo b p, h)
    else none

/-- The header in force, with its page: the highest HSEQ (R379). -/
def State.headerOf (s : State) (k : Fin 2) : Option (Nat × SlotHeader) :=
  (s.headerPages k).find? fun e => (s.headerPages k).all fun f => decide (f.2.hseq.toNat ≤ e.2.hseq.toNat)

/-! ## Containers in a slot (R378, R379) -/

/-- `n` bytes of a slot's logical space from `a` on; none where a page is missing. -/
def State.imagePart (s : State) (k : Fin 2) (a n : Nat) : Option (List Byte) :=
  if n = 0 then some []
  else
    let lo := a / 4096
    ((List.range ((a + n - 1) / 4096 + 1 - lo)).mapM fun i => s.logicalPage (slotArea k) (lo + i)).map fun l =>
      part l.flatten (a % 4096) n

/-- Where `n` bytes of a slot's logical space from `a` on lie. -/
def State.imagePages (s : State) (k : Fin 2) (a n : Nat) : List Nat :=
  if n = 0 then []
  else (List.range ((a + n - 1) / 4096 + 1 - a / 4096)).filterMap fun i => s.logicalPlace (slotArea k) (a / 4096 + i)

/-- The usable capacity of a slot, in bytes (R377). -/
def State.slotCapacity (s : State) (k : Fin 2) : Nat := ((s.goodBlocks (slotArea k)).length - 4) * (s.pagesPerBlock * 4096)

/-- The blocks of an area that no logical block uses any longer: also those of a slot beyond the LENGTH of its set (R377,
R378). -/
def State.staleBlocks (s : State) (area : Nat) : List Nat :=
  s.unusedBlocks area ++
    match ([0, 1] : List (Fin 2)).find? fun k => slotArea k == area with
    | some k => match s.headerOf k with
      | some (_, h) =>
        if h.state = 1 then []
        else ((s.governing area).filter fun u => decide (ceilDiv h.length.toNat (s.pagesPerBlock * 4096) ≤ u.logical)).map
          fun u => u.block
      | none => []
    | none => []

/-! ## The anchors (R374 to R376) -/

/-- The minimum block counts of the areas, AREA 2 first (R376). -/
def minBlocks : List Nat := [4, 8, 8, 4, 8, 4]

/-- A device of an anchor record holds 1 Gbit to 64 Gbit (R369). -/
def densityOk (m : List Byte) : Bool := within 134217728 8589934592 (leAt m 8 4 * (2 ^ leAt m 7 1 * 4096))

/-- An anchor record passes its CRC and the range rules of R376, and describes devices within R369 (log 138). -/
def State.anchorOk (s : State) (m : List Byte) : Bool :=
  let total := leAt m 6 1 * leAt m 8 4
  let areas := (List.range 6).map fun i => areaRange m (i + 2)
  leAt m 0 4 == 0x4C394641 && leAt m 4 2 == 1 && within 1 2 (leAt m 6 1) && within 6 7 (leAt m 7 1) && densityOk m &&
    (part m 0x40 60).all (fun b => b == 0) && leAt m 0x7C 4 == (crc32c (m.take 0x7C)).toNat &&
    (areas.all fun r => decide (r.1 + r.2 ≤ total) && s.anchorBlocks.all fun b => decide (b < r.1) || decide (r.1 + r.2 ≤ b)) &&
    ((areas.zip minBlocks).all fun p => decide (p.2 ≤ p.1.2)) &&
    ((List.range 6).all fun i => (List.range i).all fun j =>
      let a := areas.getD i (0, 0)
      let b := areas.getD j (0, 0)
      decide (a.1 + a.2 ≤ b.1) || decide (b.1 + b.2 ≤ a.1))

/-- The counting anchor copies: block and record (R374). -/
def State.anchorCopies (s : State) : List (Nat × List Byte) :=
  s.anchorBlocks.filterMap fun b =>
    if s.pageGood 1 (pageNo b 0) && s.anchorOk (s.pageMain (pageNo b 0) 128) then some (b, s.pageMain (pageNo b 0) 128) else none

/-- The governing anchor record: the highest ANCHOR_SEQ, of equals the lowest block (R374). -/
def State.anchorRecord (s : State) : Option (List Byte) :=
  (s.anchorCopies.find? fun e => s.anchorCopies.all fun f => decide (leAt f.2 0xC 4 ≤ leAt e.2 0xC 4)).map fun e => e.2


end Sys2Proof.Machine
end

