-- ==== Sys2Proof/Machine/FlashJobs.lean ====
section
/-! DEFINITION. The boot flash's queue of writes (R363, R378 to R386): what each waiting write does next, the block and page
it goes to, which of them comes next, and what puts writes into the queue: the log, the table, refresh and rescue, and
WRITE_RECORD (log 16). -/

namespace Sys2Proof.Machine

/-! ## The queue (R385, R386) -/

/-- The precedence of a waiting write (R386). -/
def FlashJob.rank : FlashJob → Nat
  | .header _ _ _ => 1
  | .install _ _ => 2
  | .append _ _ _ _ => 3
  | .erase _ => 4
  | .refresh _ _ => 4

/-- A write put at the end of the queue; while writes are inhibited it is held and counted (R385). -/
def State.pushJob (s : State) (j : FlashJob) : State :=
  let s1 := { s with flash := { s.flash with queue := s.flash.queue ++ [j] } }
  if s1.inhibited then { s1.countHeld with flash := { s1.countHeld.flash with held := true } } else s1

/-- A waiting write taken from the queue. -/
def State.dropJob (s : State) (j : FlashJob) : State := { s with flash := { s.flash with queue := s.flash.queue.erase j } }

/-- A waiting write in the place of another. -/
def State.replaceJob (s : State) (j k : FlashJob) : State :=
  { s with flash := { s.flash with queue := s.flash.queue.replace j k } }

/-- A block waits for its refresh or rescue. -/
def State.scheduled (s : State) (b : Nat) : Bool :=
  s.flash.queue.any fun j => match j with
    | .refresh c _ => c == b
    | _ => false

/-- A block scheduled for refresh or rescue, once: a rescue also behind a refresh that waits (R373). -/
def State.schedule (s : State) (b : Nat) (rescue : Bool) : State :=
  if s.flash.queue.contains (.refresh b true) ∨ (!rescue && s.scheduled b) then s else s.pushJob (.refresh b rescue)

/-- The booth has built the area maps and owns the flash (R377, R387). -/
def State.mapsBuilt (s : State) : Bool := s.boot.phase == .handedOver && s.fld .flsStatus F.flsStatus_READY == 1

/-- The erases in the background: of the blocks that no logical block uses any longer, but for those to be rescued (R377). -/
def State.backgroundErases (s : State) : List FlashJob :=
  ([2, 3, 4, 5, 6, 7].flatMap s.staleBlocks).filterMap fun b => if s.scheduled b then none else some (.erase b)

/-- The queue with the erases that are due in the background. -/
def State.tidyQueue (s : State) : State :=
  if s.mapsBuilt then
    { s with flash := { s.flash with queue := (s.flash.queue.filter fun j => match j with
        | .erase _ => false
        | _ => true) ++ s.backgroundErases } }
  else s

/-! ## The next operation of each write -/

/-- The active header block of a slot: that of the header in force, else the first (R379). -/
def State.activeHeader (s : State) (k : Fin 2) : Nat :=
  match s.headerOf k with
  | some e => e.1 / 128
  | none => (s.headerBlocks k).headD 0

/-- A page of a header block programmed with a header, HSEQ one higher (R379). -/
def State.headerPage (s : State) (k : Fin 2) (h : SlotHeader) (pg : Nat) : FlashStep :=
  let h1 := { h with hseq := match s.headerOf k with
    | some e => e.2.hseq + 1
    | none => 1 }
  .program pg (mkTag (slotArea k) (pg % 128) (s.pageSeq (slotArea k) pg) (s.erasesOf (pg / 128))) (headerBytes h1)

/-- The header written into the other header block: erased first, after what a data block held there is copied away
(R379; log 16). -/
def State.otherHeader (s : State) (k : Fin 2) (h : SlotHeader) : Option FlashStep :=
  match (s.headerBlocks k).find? fun b => b != s.activeHeader k with
  | none => none
  | some b =>
    if s.openPage b = some 0 ∧ !s.flash.partials.contains b then some (s.headerPage k h (pageNo b 0))
    else if s.pageGood (slotArea k) (pageNo b 0) && (readHeader (s.pageMain (pageNo b 0) 64)).isNone then
      match s.pickFree (slotArea k) with
      | some f => if (s.logicalPlace (slotArea k) (tagLogical (s.pageTag (pageNo b 0)))).isNone then some (.copy b f)
        else some (.erase b)
      | none => some (.erase b)
    else some (.erase b)

/-- A slot header: into the next erased page of the active block, else into the other block (R379). -/
def State.headerStep (s : State) (k : Fin 2) (h : SlotHeader) : Option FlashStep :=
  let b := s.activeHeader k
  if s.flash.partials.contains b then some (.erase b)
  else match s.openPage b with
    | some p => some (s.headerPage k h (pageNo b p))
    | none => s.otherHeader k h

/-- Page `n` of an install: into its logical block's page; a block is begun while two more stay free, else a block no longer
used, then one of the set that is replaced, is erased first (R363, R377). -/
def State.installStep (s : State) (k : Fin 2) (n : Nat) (bytes : List Byte) : Option FlashStep :=
  let area := slotArea k
  let at_ (b : Nat) : FlashStep :=
    let pg := pageNo b (n % s.pagesPerBlock)
    .program pg (mkTag area n (s.pageSeq area pg) (s.erasesOf b)) bytes
  if n % s.pagesPerBlock = 0 then
    if 2 < (s.freeBlocks area).length then (s.pickFree area).map at_
    else match s.unusedBlocks area with
      | b :: _ => some (.erase b)
      | [] =>
        match (s.governing area).find? fun u => decide (n / s.pagesPerBlock ≤ u.logical) with
        | some u => some (.erase u.block)
        | none => (s.pickFree area).map at_
  else ((s.governing area).find? fun u => u.logical == n / s.pagesPerBlock).map fun u => at_ u.block

/-- The next page appended to an area written as a ring of blocks (R382). -/
def State.appendStep (s : State) (area : Nat) (page : List Byte) (fresh : Bool) : Option FlashStep :=
  match s.ringPlace area fresh (!(s.keepPages area).isEmpty) with
  | .page pg logical => some (.program pg (mkTag area logical (s.pageSeq area pg) (s.erasesOf (pg / 128))) page)
  | .erase b => some (.erase b)
  | .none => none

/-- The anchor record rewritten with ANCHOR_SEQ + 1 (R376). -/
def State.nextAnchor (s : State) : List Byte :=
  let m := s.flash.anchor
  let m1 := m.take 0xC ++ leBytes 4 (leAt m 0xC 4 + 1) ++ part m 0x10 0x6C
  m1 ++ leBytes 4 (crc32c m1).toNat

/-- An anchor copy written into a block, which is erased first (R376). -/
def State.anchorStep (s : State) (b : Nat) : FlashStep :=
  if s.pageErased (pageNo b 0) && !s.flash.partials.contains b then
    .program (pageNo b 0) (mkTag 1 0 (s.nextBlockSeq 1) (s.erasesOf b)) s.nextAnchor
  else .erase b

/-- A block that may take the copy of a rescued anchor (R374, R381). -/
def State.freeAnchor (s : State) (b : Nat) : Option Nat :=
  s.anchorBlocks.find? fun c => c != b && !(s.flash.badBlocks.contains c) && !(s.anchorCopies.any fun e => e.1 == c)

/-- The slot of which a block is a header block (R378). -/
def State.headerSlot (s : State) (b : Nat) : Option (Fin 2) := ([0, 1] : List (Fin 2)).find? fun k => (s.headerBlocks k).contains b

/-- The blocks that hold a copy of the device record (R380). -/
def State.recordBlocks (s : State) : List Nat := (s.goodBlocks arRecord).filter s.recordBlock

/-- A block lost one of the two copies of the device record (R380, R381). -/
def State.lostRecord (s : State) (b : Nat) : Bool :=
  s.areaOf b == arRecord && !((s.governing arRecord).any fun u => u.block == b) && decide (s.recordBlocks.length < 2)

/-- The block whose pages are copied for a block that is refreshed or rescued: the other copy of the device record, else the
block itself (R381). -/
def State.rescueSource (s : State) (b : Nat) (rescue : Bool) : Nat :=
  if rescue && s.lostRecord b then (s.recordBlocks.find? fun c => c != b).getD b else b

/-- The refresh or rescue of a block (R376, R379, R381, R382): an anchor copy in place, or rescued, in another block; the
header in force moves to the other header block; what governs is copied; then, or where nothing in it governs, the block is
erased. -/
def State.refreshStep (s : State) (b : Nat) (rescue : Bool) : Option FlashStep :=
  let area := s.areaOf b
  if area = 1 then
    if rescue || s.flash.badBlocks.contains b then
      match s.freeAnchor b with
      | some c => some (s.anchorStep c)
      | none => if s.flash.badBlocks.contains b then none else some (.erase b)
    else some (s.anchorStep b)
  else match s.headerSlot b with
    | some k =>
      match s.headerOf k with
      | some (pg, h) => if pg / 128 = b then s.otherHeader k h else some (.erase b)
      | none => some (.erase b)
    | none =>
      if ((s.governing area).any fun u => u.block == b) || (rescue && s.lostRecord b) ||
          (s.recordBlocks.contains b && decide (s.recordBlocks.length ≤ 2)) then
        match s.pickFree area, s.unusedBlocks area with
        | some f, _ => some (.copy b f)
        | none, c :: _ => some (.erase c)
        | none, [] => none
      else some (.erase b)

/-- The next operation of a waiting write. -/
def State.stepOf (s : State) : FlashJob → Option FlashStep
  | .header k h _ => s.headerStep k h
  | .install n bytes => match s.boot.install with
    | some i => s.installStep i.slot n bytes
    | none => none
  | .append area (p :: _) fresh _ => s.appendStep area p fresh
  | .append _ [] _ _ => none
  | .erase b => some (.erase b)
  | .refresh b rescue => s.refreshStep b rescue

/-- A block of a slot is not refreshed while an install writes that slot (R386). -/
def State.mayRun (s : State) : FlashJob → Bool
  | .refresh b _ => match s.boot.install with
    | some i => s.areaOf b != slotArea i.slot
    | none => true
  | _ => true

/-- The write that comes next, with its operation: the first of the least rank that has one (R386). -/
def State.nextStep (s : State) : Option (FlashJob × FlashStep) :=
  let l := (s.flash.queue.filter s.mayRun).filterMap fun j => (s.stepOf j).map fun op => (j, op)
  l.find? fun p => l.all fun q => decide (p.1.rank ≤ q.1.rank)

/-- The next operation issued, where none is in progress; while writes are inhibited it is held and counted once (R385,
R386). -/
def State.flashIssue (s : State) : State :=
  if s.flash.running.isSome then s
  else match s.tidyQueue.nextStep with
    | none => s.tidyQueue
    | some p =>
      let t := s.tidyQueue
      if t.inhibited then
        if t.flash.held then t else { t.countHeld with flash := { t.countHeld.flash with held := true } }
      else { t with flash := { t.flash with running := some p, held := false } }

/-- A write put into the queue, and issued where it can be. -/
def State.enqueueFlash (s : State) (j : FlashJob) : State := (s.pushJob j).flashIssue

/-! ## Records of the areas written as rings of blocks (R380, R383, R384) -/

/-- The SEQ that the next record of an area takes, which then is taken (R380, R383; log 16). -/
def State.takeSeq (s : State) (area top : Nat) : State × Nat :=
  let n := max top (s.flash.seqs.getD area 0)
  ({ s with flash := { s.flash with seqs := s.flash.seqs.set area (n + 1) } }, n)

/-- Pages put into the queue for an area; an area that has no block holds nothing. -/
def State.pushPages (s : State) (area : Nat) (bytes : List Byte) (fresh : Bool) (next : AppendNext) : State :=
  if (s.goodBlocks area).isEmpty then s else s.pushJob (.append area (chunksOf 4096 4 bytes) fresh next)

/-- A journal entry put into the queue under the next SEQ (R383). -/
def State.pushEntry (s : State) (area type : Nat) (body : List Byte) (next : AppendNext) : State :=
  let (s1, seq) := s.takeSeq area ((s.entries area).foldl (fun n e => max n (e.seq + 1)) 0)
  s1.pushPages area (journalBytes type 1 seq body) false next

/-- A journal entry appended (R383). -/
def State.appendEntry (s : State) (area type : Nat) (body : List Byte) : State := (s.pushEntry area type body .plain).flashIssue

/-- The table put into the queue for two different blocks (R380). -/
def State.writeTable (s : State) : State :=
  let (s1, seq) := s.takeSeq arTable (((s.tableRecord).map fun e => e.1 + 1).getD 1)
  let b := tableBytes s1.flashBlocks seq s1.flash.badBlocks
  (s1.pushPages arTable b false .plain).pushPages arTable b true .plain

/-- A block retired: set in the table, counted, logged (R381, R387). -/
def State.retireBlock (s : State) (b : Nat) : State :=
  if s.flash.badBlocks.contains b then s
  else
    let s1 := { s with flash := { s.flash with badBlocks := s.flash.badBlocks ++ [b] } }
    let s2 := ((s1.bump (.flsCount 2) F.flsCount_COUNT 1).bump .flsGeometry F.flsGeometry_BAD 1).setFld .flsStatus
      F.flsStatus_RETIRED 1
    (s2.log logBooth 5 b 0).writeTable

/-- A block erased, or retired where its ERASES has reached 50,000 (R381). -/
def State.eraseOrRetire (s : State) (b : Nat) : State := if 50000 ≤ s.erasesOf b then s.retireBlock b else s.eraseBlock b

/-! ## The log (R384, R385) -/

/-- The pending log entries programmed as one page, up to 128 (R384). -/
def State.programLog (s : State) : State :=
  let page := (s.flash.logPending.take 128).flatten
  let s1 := { s with flash := { s.flash with logPending := s.flash.logPending.drop 128 } }
  (s1.pushPages arLog page false .plain).flashIssue

/-- LOG_PAGE_PROGRAM: nothing pending, or no log area, is nothing to program; while writes are inhibited it is held (R385). -/
def execLogPageProgram (s : State) : Host.Outcome State Fault Refusal :=
  .next (if s.flash.logPending.isEmpty ∨ (s.goodBlocks arLog).isEmpty then s else if s.inhibited then s.countHeld else s.programLog)

/-- An entry of the security processor, in a page of its own (R384); while writes are inhibited it is pending as any other
(R385). -/
def State.logSecurity (s : State) (source code arg0 arg1 : Nat) : State :=
  if s.inhibited then s.log source code arg0 arg1
  else
    let e := logEntry s.flash.logSeq source code arg0 arg1
    (({ s with flash := { s.flash with logSeq := s.flash.logSeq + 1 } } : State).pushPages arLog e false .plain).flashIssue

/-! ## Reads (R373, R382) -/

/-- An entry by whoever owns the flash: the ROM before hand-over, then the booth (R384). -/
def State.logRead (s : State) (code arg0 arg1 : Nat) : State :=
  if s.boot.phase = .handedOver then s.log logBooth code arg0 arg1 else s.logSecurity 0 code arg0 arg1

/-- A page read fails: counted, shown, logged with the block and the page (R373, R384; log 16). -/
def State.readFailed (s : State) (pg : Nat) : State :=
  ((s.bump (.flsCount 1) F.flsCount_COUNT 1).setFld .flsStatus F.flsStatus_UNCORRECTABLE 1).logRead 6
    (pg / 128 + 2 ^ 32 * (pg % 128)) 0

/-- A read counted for its block, which is refreshed after 100,000; the booth counts from boot onward (R382). -/
def State.countRead (s : State) (b : Nat) : State :=
  if s.boot.phase = .handedOver then
    let n := smGet 0 s.flash.reads b + 1
    let s1 := { s with flash := { s.flash with reads := smSet 0 s.flash.reads b n } }
    if 100000 ≤ n.toNat then s1.schedule b false else s1
  else s

/-- A page read for an area ends (R373): by the first of the reads that decodes. -/
def State.readEnds (s : State) (area : Nat) (noise : List (List (Nat × BitVec 10))) (pg : Nat) : State :=
  let s1 := s.countRead (pg / 128)
  if s1.pageErased pg then s1
  else match noise.findSome? (s1.readTry pg) with
    | none => (s1.readFailed pg).schedule (pg / 128) true
    | some n =>
      let s2 := s1.bump (.flsCount 0) F.flsCount_COUNT (n.countP fun c => decide (0 < c))
      let s3 := if n.any fun c => decide (20 ≤ c) then s2.schedule (pg / 128) false else s2
      if tagArea (s1.pageTag pg) = area then s3 else s3.readFailed pg

/-- Pages of an area read, whose cells alone decide what each read finds. -/
def State.readPages (s : State) (area : Nat) (l : List Nat) : State := l.foldl (fun t pg => t.readEnds area [[]] pg) s

/-- Page 0 of every good block of an area: what builds its map (R377). -/
def State.mapPages (s : State) (area : Nat) : List Nat := (s.goodBlocks area).map fun b => pageNo b 0

/-- The programmed pages of blocks. -/
def State.programmedPages (s : State) (l : List Nat) : List Nat :=
  l.flatMap fun b => ((List.range s.pagesPerBlock).map (pageNo b)).filter fun pg => !s.pageErased pg

/-- FLASH_SCAN (R382): every programmed page of every area is read. -/
def execFlashScan (s : State) : Host.Outcome State Fault Refusal :=
  .next (((s.flash.tags.map fun e => e.1).filter fun pg => !s.pageErased pg).foldl (fun t pg =>
    t.readEnds (t.areaOf (pg / 128)) [[]] pg) s).flashIssue

/-! ## WRITE_RECORD (R359, R383, R387) -/

/-- The endpoint is one of R359: the internal one, or one of a ring that CONFIRM_RINGS of the running DEPLOYMENT names. -/
def State.mayManage (s : State) : Who → Bool
  | .ep g e => s.boot.confirmRings.getLsbD g.val || s.epInternal (epIx g e)
  | .internal => true
  | .booth => true

/-- Who stages: the internal endpoint stages in the application cores' regions, under whichever ring's name it sends. -/
def State.stager (s : State) (who : Who) : Who := if s.viaInternal who then .internal else who

/-- A staged source lies within the requester's regions (R363, R383, R436). -/
def State.stagedOk (s : State) (who : Who) (a n : Nat) : Bool :=
  decide (a + n ≤ s.dramSize) && match s.stager who with
    | .ep g _ => s.inRegions g a n
    | .internal => unitsAll s.appUnit a n
    | .booth => true

/-- The requester under which staged bytes are read. -/
def stagedBy : Who → Requester
  | .ep g _ => .boothFor g
  | .internal => .app
  | .booth => .booth

/-- Staged bytes read: none where they lie outside the requester's regions. -/
def State.staged (s : State) (who : Who) (a n : Nat) : State × Option (List Byte) :=
  if s.stagedOk who a n then
    match s.dramRead (stagedBy (s.stager who)) deviceTag none a n with
    | (s1, some d) => (s1, some (rawBytes d))
    | (s1, none) => (s1, none)
  else (s, none)

/-- FLS_RECORD_STATUS. -/
def State.recordStatus (s : State) (state cause : Nat) : State :=
  (s.setFld .flsRecordStatus F.flsRecordStatus_STATE state).setFld .flsRecordStatus F.flsRecordStatus_CAUSE cause

/-- A record write ends. -/
def State.recordDone (s : State) (cause : Nat) : State :=
  let s1 := s.recordStatus 2 cause
  { s1 with flash := { s1.flash with record := none } }

/-- A checked entry is on its way to the journal (R383). -/
def State.writeRecordNow (s : State) (type : Nat) (body : List Byte) : State :=
  let s1 := s.recordStatus 1 0
  if (s1.goodBlocks arJournal).isEmpty then s1.recordDone 3
  else (({ s1 with flash := { s1.flash with record := some type } } : State).pushEntry arJournal type body .record).flashIssue

/-- WRITE_RECORD in effect (R383): RANGE, then FORMAT. -/
def State.recordRequest (s : State) (who : Who) : State :=
  if s.flash.record.isSome then s.setFld .flsRecordStatus F.flsRecordStatus_CAUSE 4
  else
    let a := (s.reg64 (.flsRecordSrc 0) (.flsRecordSrc 1)).toNat
    match s.staged who a 16 with
    | (s1, none) => s1.recordStatus 2 2
    | (s1, some h) =>
      if leAt h 2 2 > 8192 then s1.recordStatus 2 1
      else match s1.staged who a (16 + leAt h 2 2) with
        | (s2, none) => s2.recordStatus 2 2
        | (s2, some e) =>
          if within 1 4 (leAt e 0 1) && entrySound e then s2.writeRecordNow (leAt e 0 1) (e.drop 16)
          else s2.recordStatus 2 1

/-- FLS_CTRL by an endpoint of R359 (R387): OP 1, other values ignored. -/
def State.flsControl (s : State) (who : Who) (op : Nat) : State × Nat :=
  if !s.mayManage who then (s, stAccessRing)
  else (if op = 1 then s.recordRequest who else s, stOk)

/-- WRITE_RECORD. -/
def execWriteRecord (who : Who) (s : State) : Host.Outcome State Fault Refusal := .next (s.flsControl who 1).1

end Sys2Proof.Machine
end

