-- ==== Sys2Proof/Machine/Container.lean ====
section
/-! DEFINITION. What the security processor checks and keeps: the security store (R422 to R424), signature blocks and
Shorad containers (R346 to R349), the signed device record (R420, R421). -/

namespace Sys2Proof.Machine

/-- A SHA-256 digest as 32 bytes. -/
def shaBytes (m : List Byte) : List Byte := beBytes 32 (Config.sha256 m).toNat

/-! ## The security store (R422, R423) -/

/-- The lifecycle states (R422). -/
abbrev lcBlank : Nat := 0
abbrev lcProvisioned : Nat := 1
abbrev lcDeployed : Nat := 2
abbrev lcReturned : Nat := 3
abbrev lcScrapped : Nat := 4

/-- A state record: SEQ, LIFECYCLE, REVOKED, the four EPOCHs, DEBUG_EPOCH. -/
structure StoreRec where
  seq        : Nat
  lifecycle  : Nat
  revoked    : Nat
  epochs     : List Nat
  debugEpoch : Nat
  deriving DecidableEq, Repr

/-- The 64 bytes of a state record (R422). -/
def stateBytes (r : StoreRec) : List Byte :=
  let b := leBytes 4 r.seq ++ leBytes 1 r.lifecycle ++ leBytes 1 r.revoked ++ leBytes 2 0 ++
    (List.range 4).flatMap (fun i => leBytes 2 (r.epochs.getD i 0)) ++ leBytes 4 r.debugEpoch ++ leBytes 40 0
  b ++ leBytes 4 (crc32c b).toNat

/-- A state record read from 64 bytes: the CRC passes and the fields lie in range (R423). -/
def readStore (b : List Byte) : Option StoreRec :=
  let r : StoreRec := ⟨leAt b 0 4, leAt b 4 1, leAt b 5 1, (List.range 4).map fun i => leAt b (8 + 2 * i) 2, leAt b 0x10 4⟩
  if decide (r.lifecycle ≤ 4) && decide (r.revoked < 16) && b == stateBytes r then some r else none

/-- The bytes of copy `k` of the state record. -/
def State.storeCopy (s : State) (k : Nat) : List Byte := smRead 0 s.sec.store (0x100 + 64 * k) 64

/-- The MAGIC of the store is present (R422). -/
def State.storeMagic (s : State) : Bool := leVal (smRead 0 s.sec.store 0 4) == 0x4C395353

/-- The governing copy: its number and its record (R423). -/
def State.storeCopyInForce (s : State) : Option (Nat × StoreRec) :=
  match readStore (s.storeCopy 0), readStore (s.storeCopy 1) with
  | some a, some b => if a.seq < b.seq then some (1, b) else some (0, a)
  | some a, none => some (0, a)
  | none, some b => some (1, b)
  | none, none => none

/-- The condition of the store (R423): a store of zero bytes is Blank; no valid copy under the MAGIC, or bytes without it,
is Scrapped. -/
def State.storeRec (s : State) : StoreRec :=
  if s.sec.store.isEmpty then ⟨0, lcBlank, 0, [0, 0, 0, 0], 0⟩
  else match s.storeMagic, s.storeCopyInForce with
    | true, some p => p.2
    | _, _ => ⟨0, lcScrapped, 0, [0, 0, 0, 0], 0⟩

/-- The store can be written: it is Blank, or a copy governs (R423). -/
def State.storeSound (s : State) : Bool := s.sec.store.isEmpty || (s.storeMagic && s.storeCopyInForce.isSome)

/-- A record lowers nothing that may not fall (R423). -/
def storeRises (a b : StoreRec) : Bool :=
  decide (a.lifecycle ≤ b.lifecycle) && decide (a.debugEpoch ≤ b.debugEpoch) && (a.revoked &&& b.revoked) == a.revoked &&
    (List.range 4).all fun i => decide (a.epochs.getD i 0 ≤ b.epochs.getD i 0)

/-- The store written: the other copy, with SEQ + 1; a write that would lower a field is refused (R423). -/
def State.storeWrite (s : State) (r : StoreRec) : State :=
  if s.storeSound && storeRises s.storeRec r then
    let at_ := match s.storeCopyInForce with
      | some (0, _) => 0x140
      | _ => 0x100
    let m := smWrite 0 (smWrite 0 s.sec.store 0 (leBytes 4 0x4C395353 ++ leBytes 2 1)) at_
      (stateBytes { r with seq := s.storeRec.seq + 1 })
    { s with sec := { s.sec with store := m } }
  else s

/-- The registers that show the store (R440). -/
def State.showStore (s : State) : State :=
  let r := s.storeRec
  let s1 := (s.setFld .secStatus F.secStatus_LIFECYCLE r.lifecycle).setFld .secStatus F.secStatus_REVOKED r.revoked
  let s2 := s1.setReg .secDebugEpoch (BitVec.ofNat 32 r.debugEpoch)
  (List.finRange 4).foldl (fun s k => s.setReg (.secEpoch k) (BitVec.ofNat 32 (r.epochs.getD k.val 0))) s2

/-! ## Signature blocks (R348, R349) -/

/-- A signature block of 1,600 bytes is laid out by R348. -/
def sigLayout (b : List Byte) : Bool :=
  let signer := leAt b 0 1
  decide (signer ≤ 1) && decide (leAt b 1 1 ≤ 3) && zeroRange b 2 2 && leAt b 0x184 4 == 65537 && zeroRange b 0x610 48 &&
    decide (leAt b 0x30C 4 < 4) &&
    (if signer = 0 then zeroRange b 0x188 0x184 && zeroRange b 0x310 384 else leAt b 0x308 4 == 65537)
where
  /-- `n` bytes from `o` on are zero. -/
  zeroRange (b : List Byte) (o n : Nat) : Bool := (part b o n).all fun x => x == 0

/-- The root that a signature block names is the ROM's (R349). -/
def rootKnown (b : List Byte) : Bool := Config.sha256 (part b 4 388) == Config.rootHash (leAt b 1 1)

/-- A signature block verifies a message (R349 step 2); `scope` is the INT_SCOPE bit that an integrator key needs, if any
admits it. -/
def sigVerifies (b msg : List Byte) (scope : Option Nat) : Bool :=
  rootKnown b &&
    if leAt b 0 1 = 0 then Config.pssVerify (part b 4 384) msg (part b 0x490 384)
    else (match scope with | some i => bitAt (leAt b 0x30C 4) i | none => false) &&
      Config.pssVerify (part b 4 384) (part b 0x188 0x188) (part b 0x310 384) &&
      Config.pssVerify (part b 0x188 384) msg (part b 0x490 384)

/-- The root that a block names is live (R349 step 3). -/
def rootLive (revoked : Nat) (b : List Byte) : Bool := !bitAt revoked (leAt b 1 1)

/-- The key of an integrator block: modulus and exponent (R435). -/
def integratorKey (b : List Byte) : Option (List Byte) := if leAt b 0 1 = 1 then some (part b 0x188 388) else none

/-! ## Containers (R346, R347, R349) -/

/-- The INT_SCOPE bit that a KIND needs of an integrator key (R346, R348). -/
def scopeOfKind (kind : Nat) : Option Nat := if kind = 3 then some 0 else if kind = 4 then some 1 else none

/-- The signature blocks of a container. -/
def ctBlocks (c : List Byte) : List (List Byte) := (List.range (leAt c 7 1)).map fun i => part c (0x200 + 1600 * i) 1600

/-- The sections of a container: OFFSET, LENGTH, DIGEST. -/
def ctSections (c : List Byte) : List (Nat × Nat × List Byte) :=
  (List.range (leAt c 0xA 1)).map fun i => (leAt c (0x20 + 40 * i) 4, leAt c (0x24 + 40 * i) 4, part c (0x28 + 40 * i) 32)

/-- The bytes of a container. -/
def ctLength (c : List Byte) : Nat := leAt c 0x18 4

/-- The header and signature blocks' bytes. -/
def ctHead (c : List Byte) : Nat := 512 + 1600 * leAt c 7 1

/-- Bytes of a header are zero. -/
def ctZero (c : List Byte) (o n : Nat) : Bool := (part c o n).all fun x => x == 0

/-- The sections lie on 64-byte boundaries after the signature blocks, within TOTAL_LENGTH, and apart (R347). -/
def ctPlaced (c : List Byte) : Bool :=
  let l := ctSections c
  (l.all fun x => x.1 % 64 == 0 && decide (ctHead c ≤ x.1) && decide (x.1 + x.2.1 ≤ ctLength c)) &&
    (List.range l.length).all fun i => (List.range i).all fun j =>
      let a := l.getD i (0, 0, [])
      let b := l.getD j (0, 0, [])
      decide (a.1 + a.2.1 ≤ b.1) || decide (b.1 + b.2.1 ≤ a.1)

/-- Step 1 of R349. -/
def ctFormat (kind : Nat) (c : List Byte) : Bool :=
  leAt c 0 4 == 0x44524853 && leAt c 4 2 == 1 && leAt c 6 1 == kind && within 1 2 (leAt c 7 1) && leAt c 8 2 == 9 &&
    within 1 8 (leAt c 0xA 1) && (if kind = 1 then decide (leAt c 0xB 1 < 16) else leAt c 0xB 1 == 0) &&
    (if kind = 1 ∨ kind = 4 then leAt c 0x14 2 == 0 || within 10 600 (leAt c 0x14 2) else leAt c 0x14 2 == 0) &&
    (kind == 3 || leAt c 0x16 1 == 0) && ctZero c 0x17 1 && ctZero c 0x1C 4 &&
    ctZero c (0x20 + 40 * leAt c 0xA 1) (40 * (8 - leAt c 0xA 1)) && ctZero c 0x160 160 && ctPlaced c &&
    (ctBlocks c).all sigLayout &&
    (kind != 2 || decide (((ctSections c).foldl (fun n x => n + x.2.1) 0) ≤ 524288)) &&
    (kind != 4 || leAt c 0xA 1 == 2)

/-- The blocks of a container that pass step 2 of R349; `vendor` admits vendor roots alone (R350, R425). -/
def ctPassing (kind : Nat) (vendor : Bool) (c : List Byte) : List (List Byte) :=
  (ctBlocks c).filter fun b => sigVerifies b (c.take 512) (if vendor then none else scopeOfKind kind)

/-- The first failing cause of a container, by the codes of R353: 3 FORMAT, 4 SIGNATURE, 5 REVOKED, 6 EPOCH; 0 where it is
valid (R349). `c` holds header and signature blocks. -/
def ctCause (st : StoreRec) (kind : Nat) (vendor : Bool) (c : List Byte) : Nat :=
  if !ctFormat kind c then 3
  else if (ctPassing kind vendor c).isEmpty then 4
  else if !((ctPassing kind vendor c).any (rootLive st.revoked)) then 5
  else if leAt c 0x10 2 < st.epochs.getD (kind - 1) 0 || leAt c 0x10 2 < leAt c 0x12 2 then 6
  else 0

/-- A section's bytes match its DIGEST. -/
def digestOk (bytes : List Byte) (x : Nat × Nat × List Byte) : Bool := shaBytes (part bytes x.1 x.2.1) == x.2.2

/-- Every section of a whole container matches its DIGEST. -/
def ctDigests (c : List Byte) : Bool := decide (512 ≤ c.length) && (ctSections c).all (digestOk c)

/-- TRIAL_S in seconds: 0 stands for 120 (R347). -/
def trialSeconds (c : List Byte) : Nat := if leAt c 0x14 2 = 0 then 120 else leAt c 0x14 2

/-- The start of the container after one that begins at `o` and has a length: the next multiple of 4,096 (R363). -/
def nextStart (o n : Nat) : Nat := 4096 * ceilDiv (o + n) 4096

/-- The three containers of a set, through a reader of its bytes: header and signature blocks, and where each begins. -/
def setContainers (read : Nat → Nat → Option (List Byte)) : Option (List (Nat × List Byte)) :=
  let one (o : Nat) : Option (List Byte) := read o 3712
  match one 0 with
  | none => none
  | some a =>
    let oB := nextStart 0 (ctLength a)
    match one oB with
    | none => none
    | some b =>
      let oD := nextStart oB (ctLength b)
      (one oD).map fun d => [(0, a), (oB, b), (oD, d)]

/-- The cause of a set of containers: the first container cause, else 7 where a SET_VERSION differs from `version` (R353,
R363). -/
def setCause (st : StoreRec) (version : Nat) (l : List (Nat × List Byte)) : Nat :=
  let causes := (l.zip [1, 2, 3]).map fun p => ctCause st p.2 false p.1.2
  let worst := (causes.filter fun c => c != 0).foldl min 99
  if worst ≠ 99 then worst
  else if l.all fun p => leAt p.2 0xC 4 == version then 0 else 7

/-! ## The device record (R420, R421) -/

/-- The bytes of the device record. -/
abbrev recordLength : Nat := 11840

/-- The fields of a device record lie within range (R420, R392, R401). -/
def recordFields (m : List Byte) : Bool :=
  leAt m 0 4 == recordMagic && leAt m 4 2 == 1 && ctZero m 6 2 && decide (leAt m 0x10 1 ≤ 1) && decide (leAt m 0x11 1 ≤ 200) &&
    ctZero m 0x12 2 && ctZero m 0x94 108 && ctZero m 0x504 252 && within 1 4096 (leAt m 0x500 2) &&
    within 1 4096 (leAt m 0x502 2) &&
    ((List.range 16).all fun c => leAt m (0x17 + 4 * c) 1 == 0) &&
    (List.range 8).all fun k => within 550 850 (leAt m (0x54 + 8 * k) 2) && within 550 850 (leAt m (0x56 + 8 * k) 2) &&
      ctZero m (0x5A + 8 * k) 2

/-- A copy of the record counts (R421). -/
def recordCounts (revoked : Nat) (m : List Byte) : Bool :=
  let b := part m 0x2600 1600
  m.length == recordLength && recordFields m && sigLayout b && leAt b 0 1 == 0 &&
    sigVerifies b (m.take 0x2600) none && rootLive revoked b

/-- The copies of the device record in the flash, in block order (R380). -/
def State.recordCopies (s : State) : List (List Byte) :=
  s.recordBlocks.filterMap fun b =>
    ((List.range 3).mapM fun p => if s.pageGood arRecord (pageNo b p) then some (s.pageMain (pageNo b p) 4096) else none).map
      fun l => l.flatten.take recordLength

/-- The governing copy: the first that counts (R421). -/
def State.recordInForce (s : State) : List Byte :=
  ((s.recordCopies.find? (recordCounts s.storeRec.revoked))).getD []

/-- The serial number; zero without a record (R365, R421). -/
def State.serial (s : State) : Nat := if s.recordValid then leAt s.sec.record 8 8 else 0

/-- The lifecycle state (R425). -/
def State.lifecycle (s : State) : Nat := s.storeRec.lifecycle

end Sys2Proof.Machine
end

