-- ==== Sys2Proof/Machine/Freq.lean ====
section
/-! DEFINITION. Frequencies and the core voltage: the operating points of R392, the request of R393, a ring's granted
frequency (R391, R417). -/

namespace Sys2Proof.Machine

/-- The frequencies of the eight operating points, in MHz (R392). -/
def pointMhz : List Nat := [800, 1000, 1200, 1400, 1600, 1800, 2000, 2300]

/-- An operating point by number. -/
def pointFin (k : Nat) : Fin 8 := ⟨k % 8, by omega⟩

/-- A point is enabled (R409, R416). -/
def State.pointOn (s : State) (k : Nat) : Bool := s.fld (.pwrTrim (pointFin k)) F.pwrTrim_DISABLED == 0

/-- V(k) before CEIL limits it, in µV (R392). -/
def State.pointRaw (s : State) (k : Nat) : Nat :=
  1000 * s.fld (.pwrTrim (pointFin k)) F.pwrTrim_FLOOR + 2500 * s.fld (.pwrTrim (pointFin k)) F.pwrTrim_STEPS

/-- CEIL(k) in µV. -/
def State.pointCeil (s : State) (k : Nat) : Nat := 1000 * s.fld (.pwrTrim (pointFin k)) F.pwrTrim_CEIL

/-- V(k) in µV (R392); 0.85 V where no device record counts (R421). -/
def State.pointV (s : State) (k : Nat) : Nat := if s.recordValid then min (s.pointRaw k) (s.pointCeil k) else 850000

/-- The enabled points, ascending. -/
def State.pointsOn (s : State) : List Nat := (List.range 8).filter s.pointOn

/-- The frequency of the highest enabled point, 400 MHz where none is; at most 1.4 GHz where no device record counts
(R392, R421; log 68). -/
def State.topMhz (s : State) : Nat :=
  min (s.pointsOn.foldl (fun n k => max n (pointMhz.getD k 0)) 400) (if s.recordValid then 2300 else 1400)

/-- A voltage rounded up to a multiple of 2.5 mV, from a fraction of µV. -/
def roundVolt (num den : Nat) : Nat := 2500 * ceilDiv num (2500 * den)

/-- V(f) in µV: V(0) below 0.8 GHz, a point's own voltage, or the interpolation of the enabled points on either side
(R392; log 68). -/
def State.voltAt (s : State) (f : Nat) : Nat :=
  if f < 800 then s.pointV 0
  else
    match (s.pointsOn.filter fun k => decide (pointMhz.getD k 0 ≤ f)).getLast?,
        (s.pointsOn.filter fun k => decide (f ≤ pointMhz.getD k 0)).head? with
    | some a, some b =>
      let fa := pointMhz.getD a 0
      let fb := pointMhz.getD b 0
      if fa = fb then s.pointV a else roundVolt (s.pointV a * (fb - f) + s.pointV b * (f - fa)) (fb - fa)
    | some a, none => s.pointV a
    | none, some b => s.pointV b
    | none, none => s.pointV 0

/-- The rings that run: RUNNING or PARKING, with their clocks (R393). -/
def State.runningRings (s : State) : List (Fin 8) := (List.finRange 8).filter s.ringClocked

/-- The V_req that frequencies ask for, in µV; none without a running ring (R393; log 68). -/
def State.voltFor (s : State) (f : Fin 8 → Nat) : Option Nat :=
  if s.runningRings.isEmpty then none
  else some (min 850000 (s.runningRings.foldl (fun n r => max n (s.voltAt (f r))) 0 + 1000 * s.power.droopD))

/-- V_req requested and shown (R393, R416). -/
def State.requestVolt (s : State) (v : Nat) : State :=
  { (s.setFld .pwrVcore F.pwrVcore_REQUESTED (v / 1000)) with power := { s.power with vReq := v } }

/-- A higher V_req requested at once: the regulator has still to settle (R394, R398). -/
def State.raiseVolt (s : State) (v : Nat) : State :=
  if s.power.vReq < v then
    let s1 := s.requestVolt v
    { s1 with power := { s1.power with settling := true } }
  else s

/-- The frequency that a ring has: every core of it and its ringmaster change at once (R391, R451). -/
def State.setFreq (s : State) (r : Fin 8) (f : Nat) : State :=
  if s.freq r = f then s
  else (s.coresOf r).foldl (fun s c => s.trace c evFreq (noCommand r) f)
    (s.setFld (.pwrRingStatus r) F.pwrRingStatus_FREQ_MHZ f)

/-- FREQ_MHZ as it is read: 0 while the ring's clocks are stopped (R417). -/
def State.freqShown (s : State) (r : Fin 8) : Nat :=
  if (s.ringLive r || s.ringState r == stFaulted) && !s.power.tripped then s.freq r else 0

/-- The hardware's limit on every ring: 0.8 GHz in a thermal emergency, 1.0 GHz after a lockstep mismatch (R389, R404). -/
def State.hardLimit (s : State) : Nat :=
  min (if s.power.hotLimit then 800 else 2300) (if s.power.lockLimit then 1000 else 2300)

/-- PWR_RING_CTRL of a ring comes into force (R417). -/
def State.takeCtrl (s : State) (r : Fin 8) : State :=
  { s with power := { s.power with ctrl := s.power.ctrl.set r (s.reg (.pwrRingCtrl r)) } }

/-- A ring that starts or resumes begins at 1.4 GHz or at FIXED_MHZ, within what is granted (R397; log 68). -/
def State.startFreq (s0 : State) (r : Fin 8) : State :=
  let s := s0.takeCtrl r
  let f := if s.fixedMode r then s.fixedMhz r else 1400
  let s1 := s.setFreq r (min (min f s.topMhz) s.hardLimit)
  match s1.voltFor s1.freq with
  | some v => s1.raiseVolt v
  | none => s1

end Sys2Proof.Machine
end

