-- ==== Sys2Proof/Machine/Results.lean ====
section
/-! DEFINITION. Result streams and slots: ENABLE and DISABLE (R314), claims (R315), unposted claims (R316), RESULT and
RESULT_NOTICE (R317), and the reads and releases of the host (R318, R319). -/

namespace Sys2Proof.Machine

/-- The last slot number after a stream's own. -/
def State.rsEnd (s : State) (t : Fin 128) : Nat := s.rsFirst t + s.rsSlots t

/-- The ring flags, endpoint, policy and delivery of a descriptor (R314). -/
def State.rsKeepLatest (s : State) (t : Fin 128) : Bool := bitAt (s.rsFlags t) 0
def State.rsNotice (s : State) (t : Fin 128) : Bool := bitAt (s.rsFlags t) 1

/-- An endpoint number. -/
def epFin (n : Nat) : Fin 8 := ⟨n % 8, by omega⟩

/-- The endpoint of a stream. -/
def State.rsEp (s : State) (r : Fin 8) (stream : Fin 16) : Fin 64 := epIx r (epFin (s.rsEndpoint (rsIx r stream)))

/-- An endpoint of the ring is VALID in its manifest (R42). -/
def State.epValid (s : State) (r : Fin 8) (e : Nat) : Bool := decide (e < 8) && bitAt (s.manifest r (0x30 + 4 * e) 4) 31

/-! ## ENABLE and DISABLE (R314) -/

/-- The fields of a descriptor lie in their ranges. -/
def State.rsFields (s : State) (r : Fin 8) (t : Fin 128) : Bool :=
  decide (s.rsProgram t ≤ 31) && s.epValid r (s.rsEndpoint t) && decide (s.rsFlags t < 4) &&
    decide (s.rsPostFlag t ≤ 191) && decide (s.rsFirst t ≤ 1022) && decide (2 ≤ s.rsSlots t) &&
    decide (s.rsSlots t ≤ 1024) && decide (s.rsEnd t ≤ 1024) && s.rsStride t % 64 == 0 && decide (128 ≤ s.rsStride t) &&
    decide (s.rsStride t ≤ 16777216) && s.reg (.trsRstreamDesc t 5) == 0

/-- The buffers and the cursor lie in the ring's midway space and regions, outside SPILL. -/
def State.rsInside (s : State) (r : Fin 8) (t : Fin 128) : Bool :=
  s.bufInside r (s.rsBase t) (s.rsSlots t * s.rsStride t) && s.bufInside r (s.rsCursor t) 8

/-- The slots or POST_FLAG are shared with another enabled stream of the ring. -/
def State.rsOverlap (s : State) (r : Fin 8) (stream : Fin 16) : Bool :=
  let t := rsIx r stream
  (List.finRange 16).any fun o =>
    let u := rsIx r o
    o != stream && s.rsEnabled u && (s.rsPostFlag u == s.rsPostFlag t ||
      (decide (s.rsFirst u < s.rsEnd t) && decide (s.rsFirst t < s.rsEnd u)))

/-- The REFUSE_CAUSE of an ENABLE, 0 where it passes. -/
def State.rsCause (s : State) (r : Fin 8) (stream : Fin 16) : Nat :=
  if !s.rsFields r (rsIx r stream) then 1
  else if !s.rsInside r (rsIx r stream) then 2
  else if s.rsOverlap r stream then 3
  else 0

/-- ENABLE; of an enabled stream it changes nothing (log 42). -/
def State.rsEnableNow (s : State) (r : Fin 8) (stream : Fin 16) : State :=
  let t := rsIx r stream
  if s.rsEnabled t then s
  else match s.rsCause r stream with
    | 0 => (s.setFld (.trsRstreamStatus t) F.trsRstreamStatus_ENABLED 1).onRing r fun k =>
        { k with claimed := k.claimed.set stream none }
    | cause => (s.setFld (.trsRstreamStatus t) F.trsRstreamStatus_REFUSE_CAUSE cause).setFld (.trsRstreamStatus t)
        F.trsRstreamStatus_REFUSED 1

/-- Every slot of a stream EMPTY. -/
def emptyStream (stream : Nat) (k : Ring) : Ring := { k with slots := k.slots.filter fun p => p.2.stream != stream }

/-- DISABLE. -/
def State.rsDisableNow (s : State) (r : Fin 8) (stream : Fin 16) : State :=
  let t := rsIx r stream
  if s.rsEnabled t then
    ((s.onRing r (emptyStream stream.val)).setFld (.trsRstreamStatus t) F.trsRstreamStatus_ENABLED 0).setFld
      (.trsRstreamStatus t) F.trsRstreamStatus_HELD 0
  else s

/-- TRS_RSTREAM_CTRL: 1 ENABLE, 2 DISABLE (R324). -/
def State.rsRequest (s : State) (r : Fin 8) (stream : Fin 16) (op : Nat) : State :=
  match op with
  | 1 => s.rsEnableNow r stream
  | 2 => s.rsDisableNow r stream
  | _ => s

/-- A request through TRS_RSTREAM_CTRL (R56, R313). -/
def State.rsControl (s : State) (r : Fin 8) (who : Who) (stream : Fin 16) (op : Nat) : State × Nat :=
  s.request r who (BitVec.ofNat 32 (Reg.trsRstreamCtrl (rsIx r stream)).addr) (keyWord op) fun s =>
    (s.rsRequest r stream op, stOk)

/-- RSTREAM_ENABLE. -/
def execRstreamEnable (ring : Fin 8) (stream : Fin 16) (who : Who) (s : State) : Host.Outcome State Fault Refusal :=
  .next (s.rsControl ring who stream 1).1

/-- RSTREAM_DISABLE. -/
def execRstreamDisable (ring : Fin 8) (stream : Fin 16) (who : Who) (s : State) : Host.Outcome State Fault Refusal :=
  .next (s.rsControl ring who stream 2).1

/-! ## Claims (R315) -/

/-- The slots of a stream in cyclic order after the one it claimed last. -/
def State.rsCyclic (s : State) (r : Fin 8) (stream : Fin 16) : List Nat :=
  let t := rsIx r stream
  let first := s.rsFirst t
  let n := s.rsSlots t
  let start := match (s.ring r).claimed[stream] with
    | some l => l + 1 - first
    | none => 0
  (List.range n).map fun i => first + (start + i) % n

/-- A slot's RESULT waits on an endpoint of the ring, or has gone in part (R315). -/
def State.beingSent (s : State) (r : Fin 8) (n : Nat) (slot : ResultSlot) : Bool :=
  (List.finRange 8).any fun e => (s.ep (epIx r e)).queue.any fun m => m.slot == some (n, slot.serial)

/-- The READY or TAKEN slot of a stream with the lowest SERIAL that is not being sent (R315, R318). -/
def State.oldestSlot (s : State) (r : Fin 8) (stream : Nat) : Option Nat :=
  let l := (s.ring r).slots.filter fun p =>
    p.2.stream == stream && (p.2.state == .ready || p.2.state == .taken) && !s.beingSent r p.1 p.2
  match l with
  | [] => none
  | a :: t => some (t.foldl (fun m p => if p.2.serial.toNat < m.2.serial.toNat then p else m) a).1

/-- The slot that a stream claims, and whether that overwrites it; none holds the invocation (log 43). -/
def State.rsPick (s : State) (r : Fin 8) (stream : Fin 16) : Option (Nat × Bool) :=
  match (s.rsCyclic r stream).find? fun n => (slotOf (s.ring r) n).isNone with
  | some n => some (n, false)
  | none => if s.rsKeepLatest (rsIx r stream) then (s.oldestSlot r stream.val).map fun n => (n, true) else none

/-- The enabled streams of a program. -/
def State.programStreams (s : State) (r : Fin 8) (slot : Nat) : List (Fin 16) :=
  (List.finRange 16).filter fun t => s.rsEnabled (rsIx r t) && s.rsProgram (rsIx r t) == slot

/-- A slot claimed: PENDING with the ring's next SERIAL, the overwrite counted, the cursor word written. -/
def State.claimSlot (s : State) (r : Fin 8) (inv : Invocation) (stream : Fin 16) (n : Nat) (overwrite : Bool) : State :=
  let t := rsIx r stream
  let serial := (s.ring r).serial
  let s1 := if overwrite then (s.bump (.trsRstreamCount t 1) F.trsRstreamCount_COUNT 1).setFld (.trsRstreamStatus t)
    F.trsRstreamStatus_OVERWROTE 1 else s
  let slot : ResultSlot :=
    { state := .pending, serial := serial, stream := stream.val, length := 0, truncated := false, stamp := inv.stamp
      invId := ((inv.asker.map fun a => a.id).getD 0), notified := false }
  let s2 := s1.onRing r fun k =>
    { slotPut n (some slot) k with claimed := k.claimed.set stream (some n), serial := serial + 1 }
  (s2.bufWrite r (s2.rsCursor t) 0 (cleanBytes (leBytes 2 n ++ leBytes 2 0 ++ leBytes 4 serial.toNat))).1

/-- Every enabled stream of the program can claim a slot. -/
def State.canClaim (s : State) (r : Fin 8) (slot : Nat) : Bool :=
  (s.programStreams r slot).all fun t => (s.rsPick r t).isSome

/-- HELD of the streams of a program (R324). -/
def State.markHeld (s : State) (r : Fin 8) (slot : Nat) : State :=
  (s.programStreams r slot).foldl (fun s t =>
    s.setFld (.trsRstreamStatus (rsIx r t)) F.trsRstreamStatus_HELD (bitNat (s.rsPick r t).isNone)) s

/-- The slots of an invocation that is about to start claimed, stream by stream. -/
def State.claimAll (s : State) (r : Fin 8) (inv : Invocation) : State :=
  (s.programStreams r inv.slot).foldl (fun s t => match s.rsPick r t with
    | some (n, overwrite) => s.claimSlot r inv t n overwrite
    | none => s) (s.markHeld r inv.slot)

/-- The slots still PENDING at the end of an invocation return to EMPTY and are counted (R316). -/
def State.dropUnposted (s : State) (r : Fin 8) : State :=
  ((s.ring r).slots.filter fun p => p.2.state == .pending).foldl (fun s p =>
    (s.onRing r (slotPut p.1 none)).bump (.trsRstreamCount (rsIx r ⟨p.2.stream % 16, by omega⟩) 2)
      F.trsRstreamCount_COUNT 1) s

/-! ## Results sent (R317, R319) -/

/-- The content of a slot's buffer; lines that the controller refuses travel poisoned (R313; log 30). -/
def State.slotBytes (s : State) (r : Fin 8) (n : Nat) (slot : ResultSlot) : State × List PByte :=
  let t := rsIx r ⟨slot.stream % 16, by omega⟩
  match s.bufRead r (s.rsBase t) (s.slotOffset t n + 64) slot.length with
  | (s1, some d) => (s1, d)
  | (s1, none) => (s1, (List.range slot.length).map fun i => (Config.lostByte i, true))

/-- The result prefix of a slot. -/
def slotPrefix (n : Nat) (slot : ResultSlot) (duplicate : Bool) : List Byte :=
  resultPrefix slot.stream (bitNat duplicate + 2 * bitNat slot.truncated) n slot.serial slot.length

/-- The next slot that goes out on an endpoint: READY, not sent or announced, of the lowest SERIAL. -/
def State.nextResult (s : State) (r : Fin 8) (e : Fin 64) : Option (Nat × ResultSlot) :=
  let l := (s.ring r).slots.filter fun p =>
    p.2.state == .ready && !p.2.notified && s.rsEp r ⟨p.2.stream % 16, by omega⟩ == e
  match l with
  | [] => none
  | a :: t => some (t.foldl (fun m p => if p.2.serial.toNat < m.2.serial.toNat then p else m) a)

/-- The slot that RESULT or RESULT_NOTICE of a stream sends now, on an endpoint that may send (R302, R317, R321). -/
def State.dueResult (s : State) (r : Fin 8) (stream : Fin 16) (notice : Bool) : Option (Nat × ResultSlot) :=
  let e := s.rsEp r stream
  if s.epOpen e 0x20 && s.rsNotice (rsIx r stream) == notice then
    (s.nextResult r e).filter fun p => p.2.stream == stream.val
  else none

/-- A READY slot of a PUSH stream handed to its endpoint: it becomes TAKEN when its last chunk has passed (R317). -/
def State.pushResult (s : State) (r : Fin 8) (stream : Fin 16) (n : Nat) (slot : ResultSlot) : State :=
  let (s1, d) := s.slotBytes r n slot
  (s1.onRing r (slotPut n (some { slot with notified := true }))).sendOwn (s1.rsEp r stream) 2 0x20
    slot.invId slot.stamp (badPlaces 16 d) (slotPrefix n slot false ++ rawBytes d)

/-- RESULT: without a result that is due, nothing is sent. -/
def execResult (ring : Fin 8) (stream : Fin 16) (s : State) : Host.Outcome State Fault Refusal :=
  .next (match s.dueResult ring stream false with
    | some (n, slot) => s.pushResult ring stream n slot
    | none => s)

/-- A READY slot of a NOTICE stream announced; it stays READY (R317). -/
def State.noticeResult (s : State) (r : Fin 8) (stream : Fin 16) (n : Nat) (slot : ResultSlot) : State :=
  (s.onRing r (slotPut n (some { slot with notified := true }))).sendOwn (s.rsEp r stream) 2 0x21 slot.invId slot.stamp
    [] (slotPrefix n slot false)

/-- RESULT_NOTICE: without a result that is due, nothing is sent. -/
def execResultNotice (ring : Fin 8) (stream : Fin 16) (s : State) : Host.Outcome State Fault Refusal :=
  .next (match s.dueResult ring stream true with
    | some (n, slot) => s.noticeResult ring stream n slot
    | none => s)

/-! ## Reads and releases of the host (R318) -/

/-- The slot that a RESULT_READ names, or the status that answers it. -/
def State.readTarget (s : State) (r : Fin 8) (stream slot : Nat) : Nat ⊕ Nat :=
  let k := s.ring r
  if slot = 0xFFFF then
    let mine := k.slots.filter fun p => p.2.stream == stream
    match mine.filter fun p => p.2.state == .ready with
    | a :: t => .inl (t.foldl (fun m p => if p.2.serial.toNat < m.2.serial.toNat then p else m) a).1
    | [] => .inr (if mine.any fun p => p.2.state == .pending then stNotReady else stEmptySlot)
  else match slotOf k slot with
    | none => .inr stEmptySlot
    | some v => if v.state = .pending then .inr stNotReady else .inl slot

/-- RESULT_READ answered: the content with REPLY set, DUPLICATE where the slot was TAKEN, or a status (R318; log 44). -/
def State.readResult (s : State) (r : Fin 8) (a : Asker) (stream slot : Nat) : State :=
  match s.readTarget r stream slot with
  | .inr status => s.replyStatus r a status
  | .inl n =>
    match slotOf (s.ring r) n with
    | none => s.replyStatus r a stEmptySlot
    | some v =>
      let (s1, d) := s.slotBytes r n v
      (s1.onRing r (slotPut n (some { v with state := .taken, notified := true }))).reply r
        { a with type := 0x20, id := v.invId } 2 0 v.stamp (badPlaces 16 d) (slotPrefix n v (v.state == .taken) ++ rawBytes d)

/-- RESULT_RELEASE: the status, and the state after it (R318; log 45: a SERIAL that differs is STALE_SLOT in any state). -/
def State.releaseSlot (s : State) (r : Fin 8) (slot : Nat) (serial : Word) : State × Nat :=
  match slotOf (s.ring r) slot with
  | none => (s, stEmptySlot)
  | some v =>
    if v.serial ≠ serial then (s, stStaleSlot)
    else if v.state = .pending then (s, stNotReady)
    else (s.onRing r (slotPut slot none), stOk)

end Sys2Proof.Machine
end

