-- ==== Sys2Proof/Machine/Load.lean ====
section
/-! DEFINITION. Loading a ring: the deployment directory (R361), manifests and placements (R37 to R47), programs (R112,
R113), the sweep (R186), the load list (R361), and the binding of endpoints, channels and windows (R299, R302, R336). -/

namespace Sys2Proof.Machine

/-! ## The deployment image (R347, R361) -/

/-- The bytes of manifest `i`. -/
def State.manifestBytes (s : State) (i : Nat) : List Byte := s.deployBytes (s.dir 0x8 4 + 256 * i) 256

/-- The manifests of a ring, by their place in the directory. -/
def State.manifestsOf (s : State) (r : Nat) : List Nat :=
  if s.boot.deployLen = 0 then []
  else (List.range (s.dir 0x6 1)).filter fun i => leAt (s.manifestBytes i) 2 1 == r

/-- The manifest of a ring, where exactly one names it. -/
def State.imageManifest (s : State) (r : Nat) : Option (List Byte) :=
  match s.manifestsOf r with
  | [i] => some (s.manifestBytes i)
  | _ => none

/-- The bytes from `lo` to `hi` of a record are zero. -/
def zeroBytes (m : List Byte) (lo hi : Nat) : Bool := (part m lo (hi + 1 - lo)).all fun b => b == 0

/-! ## Manifests (R37, R41, R42, R44) -/

/-- The legal core sets of a size (R37). -/
def legalSets (n : Nat) : List Nat :=
  match n with
  | 1 => (List.range 16).map fun i => 2 ^ i
  | 2 => (List.range 8).map fun i => 3 * 4 ^ i
  | 4 => (List.range 4).map fun i => 15 * 16 ^ i
  | 8 => [0x00FF, 0xFF00]
  | 16 => [0xFFFF]
  | _ => []

/-- A placement entry: core mask, slice mask, reserved byte (R42). -/
def placementOf (m : List Byte) (i : Nat) : Nat × Nat × Nat := (leAt m (8 + 4 * i) 2, leAt m (10 + 4 * i) 1, leAt m (11 + 4 * i) 1)

/-- One endpoint entry is well-formed (R42, R299). -/
def endpointOk (w : Nat) : Bool :=
  let vid := w % 4096
  bitsAt w 12 27 == 0 && !bitAt w 30 &&
    (!bitAt w 31 || (vid == 0xFFF && bitsAt w 28 29 == 0) || decide (vid ≤ 4094))

/-- One DRAM region entry is well-formed (R42). -/
def regionOk (m : List Byte) (i : Nat) : Bool :=
  let t := regionOf m i
  decide (t.2.2 < 8) && leAt m (0x55 + 8 * i) 3 == 0 && (!bitAt t.2.2 0 || decide (1 ≤ t.2.1))

/-- The placements of a manifest are legal (R37, R41, R42; log 46). -/
def placementsOk (m : List Byte) : Bool :=
  let n := leAt m 5 1
  (List.range 4).all fun i =>
    let p := placementOf m i
    if i < n then
      (legalSets (leAt m 3 1)).contains p.1 && p.2.2 == 0 &&
        (p.2.1 != 0 || (leAt m 6 1 == 0 && bitAt (leAt m 4 1) 1))
    else leAt m (8 + 4 * i) 4 == 0

/-- A manifest's fields lie in their ranges and its reserved bits are zero (R42, R44). -/
def manifestOk (m : List Byte) : Bool :=
  leAt m 0 2 == 9 && decide (leAt m 2 1 < 8) && [1, 2, 4, 8, 16].contains (leAt m 3 1) && decide (leAt m 4 1 < 16) &&
    within 1 4 (leAt m 5 1) && decide (leAt m 6 1 ≤ 8) && decide (leAt m 7 1 ≤ 150) && placementsOk m &&
    decide (leAt m 0x18 2 ≤ 10000) && decide (leAt m 0x1A 2 ≤ 4095) && decide (leAt m 0x1C 2 ≤ 4096) &&
    decide (leAt m 0x1A 2 + leAt m 0x1C 2 ≤ 4096) && decide (leAt m 0x1E 2 ≤ 256) &&
    ((List.range 8).all fun e => endpointOk (leAt m (0x30 + 4 * e) 4)) && ((List.range 8).all fun i => regionOk m i) &&
    decide (((regionsOf m).filter fun t => bitAt t.2.2 2).length ≤ 1) && within 1 32 (leAt m 0x90 1) &&
    zeroBytes m 0x91 0x93 && zeroBytes m 0x98 0xFF

/-! ## Conflicts (R43, R360, R361) -/

/-- The units of a manifest's regions. -/
def unitsOf (m : List Byte) : List Nat := (regionsOf m).flatMap fun t => (List.range t.2.1).map fun i => t.1 + i

/-- The port-and-VLAN pairs of a manifest's external endpoints (R299). -/
def pairsOf (m : List Byte) : List Nat :=
  (List.range 8).filterMap fun e =>
    let w := leAt m (0x30 + 4 * e) 4
    if bitAt w 31 && w % 4096 != 0xFFF then some (bitsAt w 28 29 * 4096 + w % 4096) else none

/-- Two manifests claim a resource in common (R43). -/
def claimsMeet (a b : List Byte) : Bool :=
  (leAt a 0x20 8 &&& leAt b 0x20 8) != 0 || (leAt a 0x28 8 &&& leAt b 0x28 8) != 0 ||
    (decide (0 < leAt a 0x1C 2) && decide (0 < leAt b 0x1C 2) &&
      decide (leAt a 0x1A 2 < leAt b 0x1A 2 + leAt b 0x1C 2) && decide (leAt b 0x1A 2 < leAt a 0x1A 2 + leAt a 0x1C 2)) ||
    ((unitsOf a).any fun u => (unitsOf b).contains u) || (pairsOf a).any fun p => (pairsOf b).contains p

/-- The well-formed manifests of the image, by ring. -/
def State.goodManifest (s : State) (r : Nat) : Option (List Byte) := (s.imageManifest r).filter manifestOk

/-- The rings that fail by their window quota, from the highest number downward (R43). -/
def quotaFails (quota : Nat → Nat) (r : Nat) : Bool :=
  decide (256 < ((List.range 8).filter fun g => g ≤ r).foldl (fun n g => n + quota g) 0)

/-- The first unit after the booth's region (R360). -/
def State.boothUnits (s : State) : Nat := 1 + ceilDiv s.boot.deployLen unitBytes

/-- A resource of the manifest is claimed by a lower-numbered ring, the booth or the application cores (R43, R360, R361;
log 46). -/
def State.conflicts (s : State) (r : Fin 8) (m : List Byte) : Bool :=
  ((List.range r.val).any fun g => match s.goodManifest g with
    | some o => claimsMeet m o
    | none => false) ||
    ((unitsOf m).any fun u => decide (u < s.boothUnits) || s.appUnit u) ||
    quotaFails (fun g => match s.goodManifest g with
      | some o => leAt o 0x1E 2
      | none => 0) r.val

/-! ## Placement (R40, R41, R45) -/

/-- The cores that other rings hold. R40 names the lower-numbered rings; that a bound ring of a higher number keeps its
cores, and its slices, where a lower one is loaded again is the model's choice (log 115). -/
def State.takenCores (s : State) (r : Fin 8) : Nat :=
  (List.finRange 8).foldl (fun n g => if g != r && (s.ring g).bound then n ||| s.ringMask g else n) 0

/-- The slices that other rings hold (log 115). -/
def State.takenSlices (s : State) (r : Fin 8) : Nat :=
  (List.finRange 8).foldl (fun n g =>
    if g != r && (s.ring g).bound then n ||| F.ringResources_SLICES.get (s.reg (.ringResources g)) else n) 0

/-- A core is healthy and at a width that a ring can use (R45, R77). -/
def State.coreHealthy (s : State) (c : Fin 16) : Bool :=
  s.fld (.coreColwidth c) F.coreColwidth_RETIRED == 0 && decide (30 ≤ s.fld (.coreColwidth c) F.coreColwidth_WIDTH)

/-- A slice is retired (R166). -/
def State.sliceRetired (s : State) (m : Fin 8) : Bool := s.fld (.mwySliceStatus m) F.mwySliceStatus_RETIRED == 1

/-- The slices of a placement that remain, where it qualifies (R40, R41; log 46). -/
def State.qualifies (s : State) (r : Fin 8) (m : List Byte) (p : Nat × Nat × Nat) : Option Nat :=
  let cores := (List.finRange 16).filter fun c => bitAt p.1 c.val
  let healthy := ((List.finRange 8).filter fun i => bitAt p.2.1 i.val && !s.sliceRetired i)
  let named := ((List.finRange 8).filter fun i => bitAt p.2.1 i.val)
  let mask := healthy.foldl (fun n i => n + 2 ^ i.val) 0
  if !(cores.all s.coreHealthy) || (p.1 &&& s.takenCores r) != 0 || (p.2.1 &&& s.takenSlices r) != 0 then none
  else if healthy.length = named.length then some mask
  else if healthy.isEmpty then (if bitAt (leAt m 4 1) 1 then some 0 else none)
  else if leAt m 6 1 ≤ healthy.length then some mask
  else none

/-- The first placement that qualifies: its index, core mask and slice mask (R40). -/
def State.placement (s : State) (r : Fin 8) (m : List Byte) : Option (Nat × Nat × Nat) :=
  (List.range (leAt m 5 1)).findSome? fun i =>
    (s.qualifies r m (placementOf m i)).map fun mask => (i, (placementOf m i).1, mask)

/-- The width of a set of cores (R45). -/
def State.widthOf (s : State) (mask : Nat) : Nat :=
  (List.finRange 16).foldl (fun w c => if bitAt mask c.val then min w (s.fld (.coreColwidth c) F.coreColwidth_WIDTH) else w) 32

/-! ## Programs (R46, R107, R109, R112, R113) -/

/-- A program table entry. -/
def State.programEntry (s : State) (m : List Byte) (slot : Nat) : List Byte := s.deployBytes (leAt m 0x94 4 + 32 * slot) 32

/-- A variant of an entry: offset and length. -/
def variantOf (e : List Byte) (i : Nat) : Nat × Nat := (leAt e (8 + 8 * i) 4, leAt e (12 + 8 * i) 4)

/-- A trigger argument lies in the range that its kind names (R113). -/
def triggerOk (kind arg : Nat) : Bool :=
  match kind with
  | 0 => true
  | 1 => true
  | 2 => decide (arg ≤ 63)
  | 3 => decide (192 ≤ arg)
  | 4 => decide (arg ≤ 31)
  | _ => false

/-- The encoded streams of a variant fit the command stores: in a ring of one or two cores the access and the execute
stream each have a store of 128 KiB, in a larger ring the one stream has 512 KiB (R107, R109). Where the access stream
ends among the encoded bytes is not in the spec (log 50). -/
def streamsFit (cores : Nat) (d : List Byte) : Bool :=
  if cores ≤ 2 then
    let access := min (Config.accessBytes d) d.length
    decide (d.length ≤ 131072) || (decide (access ≤ 131072) && decide (d.length - access ≤ 131072))
  else decide (d.length ≤ 524288)

/-- A program table entry is well-formed for a ring of `n` cores (R112, R113, R361). -/
def State.entryOk (s : State) (n : Nat) (e : List Byte) : Bool :=
  leAt e 0 2 == 9 && triggerOk (leAt e 3 1) (leAt e 4 1) && zeroBytes e 5 7 &&
    (List.range 3).all fun i =>
      let v := variantOf e i
      v == (0, 0) || (s.inSections v.1 v.2 && streamsFit n (s.deployBytes v.1 v.2))

/-- The variant of an entry for a width (R46): its width, offset and length. -/
def pickVariant (e : List Byte) (width : Nat) : Option (Nat × Nat × Nat) :=
  (List.range 3).findSome? fun i =>
    if variantOf e i != (0, 0) && decide (32 - i ≤ width) then some (32 - i, variantOf e i) else none

/-- The programs of a manifest at a width; none where a program has no variant for it (R46). -/
def State.pickPrograms (s : State) (m : List Byte) (width : Nat) : Option (List Program) :=
  (List.range (leAt m 0x90 1)).mapM fun slot =>
    let e := s.programEntry m slot
    (pickVariant e width).map fun v => ⟨slot, leAt e 3 1, leAt e 4 1, v.1, v.2.1, v.2.2⟩

/-- What the checks before placement find: a cause, or 0 (R39, R42, R43, R112, R192, R361). -/
def State.manifestCause (s : State) (r : Fin 8) (m : List Byte) : Nat :=
  let n := leAt m 0x90 1
  let entries := (List.range n).map (s.programEntry m)
  if !manifestOk m || !(s.inSections (leAt m 0x94 4) (32 * n)) ||
      (regionsOf m).any (fun t => decide (s.dramSize < unitBytes * (t.1 + t.2.1))) ||
      !(entries.all (s.entryOk (leAt m 3 1))) then cauFormat
  else if entries.any fun e => leAt e 2 1 != leAt m 3 1 then cauSize
  else if s.conflicts r m then cauConflict
  else 0

/-! ## Release and binding (R36, R174, R299, R302, R336) -/

/-- The cores of a ring as they stand for a fresh load: no invocation, empty queues. -/
def idleCore (k : Core) : Core :=
  { k with
    queues := k.queues.map fun q =>
      { q with tags := [], wait := none, fresh := true, ended := false, stepNow := false, probe := .idle }
    access := {}, execute := {}, flagPend := [], masterTest := none, dqs := .replicate 8 []
    dmaBusy := none, unfoldBusy := none, storeBusy := none, hint := none, tlb := [] }

/-- The status and the state of a ring's endpoints with nothing bound (R52, R299). -/
def State.unbindEndpoints (s : State) (r : Fin 8) : State :=
  (List.finRange 8).foldl (fun s e =>
    (s.setReg (.trsEpStatus (epIx r e)) 0).onEp (epIx r e) fun k =>
      { k with reasm := [], cak := none, pn := 1, queue := [] }) s

/-- The secure channel of an endpoint: the lowest of MACSEC_MASK that no lower external endpoint has taken (R302). -/
def channelOf (m : List Byte) (e : Nat) : Option Nat :=
  let external (i : Nat) : Bool := bitAt (leAt m (0x30 + 4 * i) 4) 31 && leAt m (0x30 + 4 * i) 4 % 4096 != 0xFFF
  if external e then
    ((List.range 64).filter fun i => bitAt (leAt m 0x28 8) i)[((List.range e).filter external).length]?
  else none

/-- The status of a bound endpoint (R299, R302, R322). -/
def endpointStatus (m : List Byte) (e : Nat) : Word :=
  let w := leAt m (0x30 + 4 * e) 4
  let internal := w % 4096 == 0xFFF
  let ch := channelOf m e
  if bitAt w 31 then
    BitVec.ofNat 32 (2 ^ 31 + bitNat internal * 2 ^ 30 + bitNat ch.isSome * 2 ^ 29 + bitNat internal * 2 ^ 27 +
      ch.getD 0 * 2 ^ 21 + bitsAt w 28 29 * 2 ^ 18 + w % 4096)
  else 0

/-- The endpoints of a ring bound, with LAST zeroed and GEN 1 (R299, R302, R306). -/
def State.bindEndpoints (s : State) (r : Fin 8) (m : List Byte) : State :=
  (List.finRange 8).foldl (fun s e =>
    ((s.setReg (.trsEpStatus (epIx r e)) (endpointStatus m e.val)).setRegs
      [(.trsEpPeer (epIx r e) 0, 0), (.trsEpPeer (epIx r e) 1, 0)]).onEp (epIx r e) fun k =>
        { k with last := [], gen := 1, reasm := [], cak := none, pn := 1, queue := [] }) s

/-- The windows of a ring, by the quotas of the lower-numbered manifests (R336). -/
def State.quotaBase (s : State) (r : Fin 8) : Nat :=
  (List.range r.val).foldl (fun n g => n + (match s.imageManifest g with | some m => leAt m 0x1E 2 | none => 0)) 0

/-- The windows of a ring given to it, CLOSED. -/
def State.assignWindows (s : State) (r : Fin 8) (m : List Byte) : State :=
  (List.finRange 256).foldl (fun s w =>
    if decide (s.quotaBase r ≤ w.val) && decide (w.val < s.quotaBase r + leAt m 0x1E 2) then
      (s.setFld (.trzWindowStatus w) F.trzWindowStatus_STATE 0).setFld (.trzWindowStatus w) F.trzWindowStatus_RING r.val
    else s) s

/-- The window belongs to the ring (R336). -/
def State.ownsWindow (s : State) (r : Fin 8) (w : Fin 256) : Bool :=
  (s.ring r).bound && decide (s.quotaBase r ≤ w.val) && decide (w.val < s.quotaBase r + s.manifest r 0x1E 2)

/-- The slices of a ring marked in MWY_SLICE_STATUS (R174). -/
def State.ownSlices (s : State) (r : Fin 8) (own : Bool) : State :=
  (s.slicesOf r).foldl (fun s m =>
    (s.setFld (.mwySliceStatus (subFin m)) F.mwySliceStatus_OWNED (bitNat own)).setFld (.mwySliceStatus (subFin m))
      F.mwySliceStatus_RING (if own then r.val else 0)) s

/-- A ring's resources return to no ring (R36, R54). -/
def State.releaseRing (s : State) (r : Fin 8) : State :=
  let cores := s.coresOf r
  let s1 := (s.ownSlices r false).unbindEndpoints r
  let s2 := cores.foldl (fun s c => s.onCore c idleCore) s1
  ((s2.setReg (.ringResources r) 0).setReg (.ringManifestStatus r)
    (s2.reg (.ringManifestStatus r) &&& 0xFF000000)).onRing r fun k =>
      { k with
        bound := false, abandon := false, programs := [], current := none, waiting := [], admission := none, tests := []
        ports := .replicate 4 none }

/-- The counters of a core zeroed (R80, R103, R138, R173, R213, R457). -/
def coreCounters (c : Fin 16) : List (Reg × Word) :=
  ([.coreArrayMacSlots c 0, .coreArrayMacSlots c 1, .coreArrayHoldOperand c, .coreArrayHoldDrain c, .coreQuantSaturated c,
    .coreQuantRedone c, .coreVecHold c, .coreMemFrozen c, .coreMemWaitMax c 0, .coreMemWaitMax c 1, .coreMemWaitMax c 2,
    .coreMemWaitMax c 3, .coreMemWaitMax c 4, .coreUnfoldPadBlocks c, .coreUnfoldReadLines c, .dbgTraceLost c,
    .dbgTraceWptr c] : List Reg).map fun x => (x, 0)

/-- The counters of a ring zeroed (R139, R174, R238, R324, R417). -/
def ringCounters (r : Fin 8) : List (Reg × Word) :=
  (([.ringInvokeDropped r, .ringMwyRedirect r, .ringCtxPagesOut r, .ringCtxPagesIn r, .pwrRingExcursion r] : List Reg) ++
    (List.finRange 6).map (fun k => Reg.pwrRingThrottleUs r k) ++
    (List.finRange 8).flatMap (fun e => (List.finRange 6).map fun k => Reg.trsEpCount (epIx r e) k) ++
    (List.finRange 16).flatMap (fun t => (List.finRange 4).map fun k => Reg.trsRstreamCount (rsIx r t) k)).map fun x =>
      (x, 0)

/-- A ring's result streams DISABLED and its slots EMPTY, as a load finds them (R315, R324; log 42). -/
def State.clearStreams (s : State) (r : Fin 8) : State :=
  ((List.finRange 16).foldl (fun s t => s.setReg (.trsRstreamStatus (rsIx r t)) 0) s).onRing r fun k =>
    { k with slots := [], claimed := .replicate 16 none, serial := 1 }

/-- The ring enters LOADING: its fault queue is cleared and its counters are zeroed (R48, R139, R447). -/
def State.enterLoading (s : State) (r : Fin 8) : State :=
  let s1 := (s.setRingState r stLoading 0).onRing r fun k => { k with faults := [], openCount := 1 }
  (s1.setRegs (ringCounters r)).setFld (.ringHint r) F.ringHint_LATE 0

/-! ## The sweep (R186) -/

/-- The lines of the sparse maps that lie in a unit. -/
def lineInUnit (u n : Nat) : Bool := n / 262144 == u

/-- The lines of a unit that one of the maps lists. -/
def listedLines (u : Nat) (d : Dram) : List Nat :=
  let all : List Nat := d.tag.map (fun e => e.1) ++ d.data.map (fun e => e.1 / 64) ++ d.flips.map fun e => e.1 / 80
  (all.filter (lineInUnit u)).eraseDups

/-- The sweep reads a line: what R184 counts is counted, and a line that is uncorrectable or fails its guard is shown and
recorded (R184, R186; log 125). -/
def State.sweepRead (s : State) (r : Fin 8) (n : Nat) : State :=
  let v := checkLine s.dram n r.val none
  let s1 := s.ddrCount n v
  if v.kind = 1 ∨ v.kind = 2 then
    State.lineError (Requester.boothFor r).report s1 (.boothFor r) (noCommand r) n 0 v
  else s1

/-- A unit swept for a ring: its own lines that pass R184 keep their content, every other line is zero data of the ring;
in a SPILL region every line is zero data with OWNER 0x40. -/
def sweepUnit (r : Fin 8) (spill : Bool) (u : Nat) (d : Dram) : Dram :=
  let keeps (n : Nat) : Bool := !spill && (checkLine d n r.val none).kind == 0
  let drop := (listedLines u d).filter fun n => !keeps n
  let code : Byte := if spill then 0x40 else BitVec.ofNat 8 r.val
  { d with
    data := d.data.filter fun e => !(lineInUnit u (e.1 / 64)) || !drop.contains (e.1 / 64)
    tag := d.tag.filter fun e => !(lineInUnit u e.1) || !drop.contains e.1
    flips := d.flips.filter fun e => !(lineInUnit u (e.1 / 80)) || !drop.contains (e.1 / 80)
    unitOwner := smSet 0xFF d.unitOwner u code
    writeBack := d.writeBack.filter fun n => !drop.contains n }

/-- A unit of a ring read and swept (R186). -/
def State.sweepNow (s : State) (r : Fin 8) (spill : Bool) (u : Nat) : State :=
  let s1 := if spill then s else (listedLines u s.dram).foldl (fun s n => s.sweepRead r n) s
  { s1 with dram := sweepUnit r spill u s1.dram }

/-- The regions of a ring swept (R186). -/
def State.sweep (s : State) (r : Fin 8) : State :=
  (regionsOf (s.ring r).manifest).foldl (fun s t =>
    (List.range t.2.1).foldl (fun s i => s.sweepNow r (bitAt t.2.2 2) (t.1 + i)) s) s

/-! ## The load list (R361) -/

/-- A load entry. -/
def State.loadEntry (s : State) (i : Nat) : List Byte := s.deployBytes (s.dir 0xC 4 + 32 * i) 32

/-- The load entries of a ring, in table order. -/
def State.loadEntries (s : State) (r : Fin 8) : List (List Byte) :=
  ((List.range (s.dir 0x10 4)).map s.loadEntry).filter fun e => leAt e 0 1 == r.val

/-- A load entry's own fields are well-formed (R361). -/
def State.loadEntryOk (s : State) (e : List Byte) : Bool :=
  let kind := leAt e 1 1
  let n := leAt e 8 4
  leAt e 3 1 == 0 && leAt e 0xC 4 == 0 && decide (kind ≤ 2) && decide (n ≠ 0) && n % 64 == 0 && leAt e 0x10 8 % 64 == 0 &&
    (kind != 2 || decide (0x100 ≤ leAt e 0x10 8)) && (kind == 2 || leAt e 2 1 == 0) && (kind == 0 || leAt e 0x18 8 == 0) &&
    s.inSections (leAt e 4 4) n

/-- The cores that a load entry of KIND 2 names, by ring position (R214, R361). -/
def State.loadCores (s : State) (r : Fin 8) (position : Nat) : List (Fin 16) :=
  if position = 0xFF then s.coresOf r else ((s.coresOf r)[position]?).toList

/-- Bytes copied to DRAM for a ring; none where they lie outside its regions. -/
def State.loadDram (s : State) (r : Fin 8) (a : Nat) (d : List Byte) : Option State :=
  if decide (a + d.length ≤ s.dramSize) && s.inRegions r a d.length then
    some (s.dramWrite (.boothFor r) (noCommand r) 0 a (cleanBytes d)).1
  else none

/-- One load entry copied; none where it fails the ring (R361). -/
def State.loadOne (s : State) (r : Fin 8) (e : List Byte) : Option State :=
  let n := leAt e 8 4
  let dest := leAt e 0x10 8
  let d := s.deployBytes (leAt e 4 4) n
  if !(s.loadEntryOk e) then none
  else match leAt e 1 1 with
    | 0 =>
      if dest + n ≤ s.mwySize r then some (s.mwyWrite r (noCommand r) dest (cleanBytes d))
      else if leAt e 0x18 8 = 0 then none
      else (s.loadDram r (leAt e 0x18 8) d).map fun s1 => s1
    | 1 => s.loadDram r dest d
    | _ =>
      let cores := s.loadCores r (leAt e 2 1)
      if cores.isEmpty || !inCore dest n then none
      else some (cores.foldl (fun s c => s.cmWrite (noCommand r) c dest (cleanBytes d)) s)

/-- The load list of a ring copied in table order; none where an entry fails the ring. -/
def State.loadList (r : Fin 8) : List (List Byte) → State → Option State
  | [], s => some s
  | e :: t, s =>
    match s.loadOne r e with
    | none => none
    | some s1 => State.loadList r t s1

/-! ## The load -/

/-- The ring bound to its placement (R36, R45, R55). -/
def State.bindRing (s : State) (r : Fin 8) (m : List Byte) (p : Nat × Nat × Nat) (programs : List Program) : State :=
  let width := s.widthOf p.2.1
  let mode := if leAt m 3 1 ≤ 2 then 1 else 2
  let status : Word := (s.reg (.ringManifestStatus r) &&& 0xFF000000) ||| BitVec.ofNat 32
    (mode * 2 ^ 22 + p.1 * 2 ^ 20 + width * 2 ^ 14 + bitNat (p.2.2 == 0) * 2 ^ 13 + bitNat (bitAt (leAt m 4 1) 2) * 2 ^ 12)
  let s1 := (s.setReg (.ringManifestStatus r) status).setReg (.ringResources r)
    (BitVec.ofNat 32 (p.2.1 * 65536 + p.2.2 * 256))
  let s2 := s1.onRing r fun k =>
    { k with
      manifest := m, bound := true, programs := programs, current := none, waiting := [], admission := none
      flags := 0, tests := [], master := {}, ports := .replicate 4 none, held := [], heldParams := [], ctxs := [], halted := false }
  let s3 := (s2.coresOf r).foldl (fun s c => (s.onCore c idleCore).setRegs (coreCounters c)) (s2.ownSlices r true)
  let s4 := (s3.slicesOf r).foldl (fun s k =>
    s.setRegs ((List.finRange 4).map fun i => (.mwyWaitMax (subFin k) i, 0))) s3
  { (s4.clearStreams r) with sec := { s4.sec with quotes := [] } }

/-- The load of a ring: its new state, with a cause where it fails (R40, R46, R186, R361). -/
def State.loadNow (s : State) (r : Fin 8) : State × Nat :=
  match s.imageManifest r.val with
  | none => (s, cauFormat)
  | some m =>
    let s0 := s.onRing r fun k => { k with manifest := m }
    match s0.manifestCause r m with
    | 0 =>
      match s0.placement r m with
      | none => (s0, cauNoPlacement)
      | some p =>
        match s0.pickPrograms m (s0.widthOf p.2.1) with
        | none => (s0, cauWidth)
        | some programs =>
          let s1 := (s0.bindRing r m p programs).sweep r
          match State.loadList r (s1.loadEntries r) s1 with
          | none => (s1, cauFormat)
          | some s2 => ((s2.bindEndpoints r m).assignWindows r m, 0)
    | cause => (s0, cause)

end Sys2Proof.Machine
end

