-- ==== Sys2Proof/Machine/Stream.lean ====
section
/-! DEFINITION. The commands of the sequencers and of every queue: LOOP, ENDLOOP, SKIP, PUSH, POP, WAIT, SET, CLEAR,
IDLE, MARK, END, RELEASE and HINT (R107 to R111, R124 to R127, R134, R135, R482). -/

namespace Sys2Proof.Machine

/-! ## Sequencers -/

/-- The sequencer of a unit; a queue has none. -/
def State.seq (s : State) : SeqUnit → Sequencer
  | .queue _ _ _ => {}
  | .access c => (s.core c).access
  | .execute c => (s.core c).execute
  | .ringmaster r => (s.ring r).master

/-- The state with a unit's sequencer changed. -/
def State.onSeq (s : State) (u : SeqUnit) (f : Sequencer → Sequencer) : State :=
  match u with
  | .queue _ _ _ => s
  | .access c => s.onCore c fun k => { k with access := f k.access }
  | .execute c => s.onCore c fun k => { k with execute := f k.execute }
  | .ringmaster r => s.onRing r fun k => { k with master := f k.master }

/-- The ring whose stream a sequencer runs: a core's own sequencers in a paired-stream ring, the ringmaster in a ring of
four or more (R37, R107, R109). -/
def State.seqRing (s : State) : SeqUnit → Option (Fin 8)
  | .queue _ _ _ => none
  | .access c => (s.ringOfCore c).filter fun r => !s.masterMode r
  | .execute c => (s.ringOfCore c).filter fun r => !s.masterMode r
  | .ringmaster r => if (s.ring r).bound && s.masterMode r then some r else none

/-- A sequencer's command is taken: its ring runs an invocation, the tag is of that ring, and the stream has not passed
END (R107, R114, R132). -/
def State.seqTakes (s : State) (u : SeqUnit) (tag : Tag) : Option (Fin 8) :=
  (s.seqRing u).filter fun r =>
    s.ringClocked r && (s.ring r).current.isSome && tagRing tag == r && !(s.seq u).ended

/-- A sequencer's command in effect, where it is taken. -/
def State.seqDo (s : State) (u : SeqUnit) (tag : Tag) (go : Fin 8 → State) : State :=
  match s.seqTakes u tag with
  | none => s
  | some r => go r

/-- The sequencer waits (R129). -/
def State.seqWait (s : State) (u : SeqUnit) (tag : Tag) (kind : WaitKind) (index : Nat) : State :=
  s.onSeq u fun q => { q with wait := some ⟨tag, kind, index, 0xFF, 0, false⟩ }

/-- The sequencer moves on. -/
def State.seqGo (s : State) (u : SeqUnit) : State := s.onSeq u fun q => { q with wait := none }

/-- The unit's number in records: 5 for the access sequencer, 6 for the execute sequencer, 0xFF for the ringmaster
(R131). -/
def unitNumber : SeqUnit → Nat
  | .queue _ q _ => q.val
  | .access _ => 5
  | .execute _ => 6
  | .ringmaster _ => 0xFF

/-- The core of a unit; the lowest core of its ring for a ringmaster. -/
def State.unitCore (s : State) : SeqUnit → Fin 16
  | .queue c _ _ => c
  | .access c => c
  | .execute c => c
  | .ringmaster r => s.lowCore r

/-! ## Loops -/

/-- The count of a LOOP: from the command, or bits 23 to 0 of a word of the parameter block, which a core's sequencer
reads from core memory and the ringmaster from its own copy (R111, R114); with the poison found. -/
def State.loopCount (s : State) (tag : Tag) (u : SeqUnit) (r : Fin 8) : LoopCount → State × Nat × Bool
  | .imm n => (s, n, false)
  | .param off =>
    match u with
    | .ringmaster _ =>
      (s, leAt ((s.ring r).current.map fun i => i.params).toList.flatten off 3, false)
    | _ =>
      let (s1, d) := s.cmRead tag (s.unitCore u) off 4
      (s1, leVal ((rawBytes d).take 3), anyPoison d)

/-- A loop entered: a count of 0 skips the body; a fifth level does not exist (R111). -/
def enterLoop (n : Nat) (q : Sequencer) : Sequencer :=
  if n = 0 ∨ 4 ≤ q.loops.length then q else { q with loops := n :: q.loops }

/-- ENDLOOP: the innermost loop repeats or ends; that of a loop never entered has no effect (R111, R482). -/
def endLoop (q : Sequencer) : Sequencer :=
  match q.loops with
  | [] => q
  | n :: t => { q with loops := if 2 ≤ n then (n - 1) :: t else t }

/-- The loops after a skipped span: `d` loops opened in the span are still open there. An ENDLOOP of a running loop ends
it; a LOOP whose ENDLOOP lies beyond the span is never entered, which a frame of 0 records (R482). -/
def skipSpan : List SpanItem → Nat → List Nat → List Nat
  | [], d, l => List.replicate d 0 ++ l
  | .other :: t, d, l => skipSpan t d l
  | .loop :: t, d, l => skipSpan t (d + 1) l
  | .endloop :: t, 0, l => skipSpan t 0 (l.drop 1)
  | .endloop :: t, d + 1, l => skipSpan t d l

/-- LOOP. -/
def execLoop (u : SeqUnit) (tag : Tag) (count : LoopCount) (s : State) : Host.Outcome State Fault Refusal :=
  onForm (.loop u tag count) "LOOP"
    (s.seqDo u tag fun r =>
      let (s1, n, poison) := s.loopCount tag u r count
      if poison then s1.poisoned r tag 0 isCore (s.unitCore u).val 1 (unitNumber u) 0
      else (s1.seqGo u).onSeq u (enterLoop n))

/-- ENDLOOP. -/
def execEndloop (u : SeqUnit) (tag : Tag) (s : State) : Host.Outcome State Fault Refusal :=
  onForm (.endloop u tag) "ENDLOOP" (s.seqDo u tag fun _ => (s.seqGo u).onSeq u endLoop)

/-! ## Flags -/

/-- The core whose flag a unit tests: its own, or the one that a ringmaster names (R125). -/
def State.flagCore (s : State) (u : SeqUnit) : FlagRef → Fin 16
  | .ring _ => s.unitCore u
  | .core _ on => match u with
    | .ringmaster _ => (maskCores on).headD 0
    | .queue c _ _ => c
    | .access c => c
    | .execute c => c

/-- A ringmaster names only cores of its ring (R57, R125). -/
def State.reaches (s : State) (u : SeqUnit) (r : Fin 8) : FlagRef → Bool
  | .ring _ => true
  | .core _ on => match u with
    | .ringmaster _ => (maskCores on).all fun c => (s.coresOf r).contains c
    | .queue _ _ _ => true
    | .access _ => true
    | .execute _ => true

/-- The isolation fault of a reach that R125 does not give: at ring control, row 8 of R57 (log 25). -/
def State.reachFault (s : State) (r : Fin 8) (tag : Tag) (access : Nat) : State :=
  s.isolation r tag isMaster (s.masterOf r).val 8 access 0 0

/-- What a sequencer knows of the flag that its command tests (R125, R127): the flag's value, where it is its own core's or
the answer has come; else none, with the state in which its test is on its way, or waits for a place in the crossing. -/
def State.seqLooks (s : State) (u : SeqUnit) (r : Fin 8) (flag : FlagRef) (kind : TestKind) : State × Option Bool :=
  let far (o : CrossOp) (s : State) : State × Option Bool :=
    match s.probeOf u with
    | .answered v => (s.setProbe u .idle, some v)
    | .asked => (s, none)
    | .idle => (if s.crossFull (crossFrom u) then s else s.ask u o, none)
  match flag, u with
  | .ring n, _ => far (.test r u n kind) s
  | .core n _, .ringmaster _ =>
    let c := s.flagCore u flag
    far (.coreTest r c n kind) (s.serveMaster r c)
  | .core n _, .queue c _ _ => (s, some ((flagsAfter (s.core c)).1.getLsbD n))
  | .core n _, .access c => (s, some ((flagsAfter (s.core c)).1.getLsbD n))
  | .core n _, .execute c => (s, some ((flagsAfter (s.core c)).1.getLsbD n))

/-- The effect of a SKIP whose flag's value is known: a span skipped, with the loops that it cuts (R111, R482). -/
def State.skipWith (s : State) (u : SeqUnit) (whenSet v : Bool) (span : List SpanItem) : State :=
  if v == whenSet then (s.seqGo u).onSeq u fun q => { q with loops := skipSpan span 0 q.loops } else s.seqGo u

/-- SKIP: the stream waits for the answer of a test that crosses (R127). -/
def execSkip (u : SeqUnit) (tag : Tag) (flag : FlagRef) (whenSet : Bool) (span : List SpanItem) (s : State) :
    Host.Outcome State Fault Refusal :=
  onForm (.skip u tag flag whenSet span) "SKIP"
    (s.seqDo u tag fun r =>
      if !s.reaches u r flag then s.reachFault r tag 0
      else match s.seqLooks u r flag .look with
        | (s1, some v) => s1.skipWith u whenSet v span
        | (s1, none) => s1.seqWait u tag .busy 0)

/-! ## Data queues -/

/-- A data queue of a core (R108). -/
def State.dq (s : State) (c : Fin 16) (n : Fin 8) : List DqEntry := (s.core c).dqs[n]

/-- The state with a data queue changed. -/
def State.onDq (s : State) (c : Fin 16) (n : Fin 8) (f : List DqEntry → List DqEntry) : State :=
  s.onCore c fun k => { k with dqs := k.dqs.set n (f k.dqs[n]) }

/-- A data queue has room: 32 entries (R108). -/
def State.dqRoom (s : State) (c : Fin 16) (n : Fin 8) : Bool := decide ((s.dq c n).length < 32)

/-- An entry as the operand of a TOKEN record: a value, or the region of a token (R451; log 26). -/
def entryOperand : DqEntry → Nat
  | .ready r => r.toNat
  | .release r => r.toNat
  | .value v => v.toNat

/-- PUSH. -/
def execPush (u : SeqUnit) (tag : Tag) (dq : Fin 8) (entry : DqEntry) (s : State) : Host.Outcome State Fault Refusal :=
  onForm (.push u tag dq entry) "PUSH"
    (s.seqDo u tag fun _ =>
      if s.dqRoom (s.unitCore u) dq then (s.seqGo u).onDq (s.unitCore u) dq fun l => l ++ [entry]
      else s.seqWait u tag .dataQueue dq.val)

/-- A POP takes the entry at the head; where it expected another, that is an event (R108). -/
def State.popNow (s : State) (u : SeqUnit) (tag : Tag) (dq : Fin 8) (expect : Option DqEntry) (found : DqEntry) : State :=
  let c := s.unitCore u
  let s1 := (s.seqGo u).onDq c dq fun l => l.drop 1
  if expect.isSome && expect != some found then
    (s1.setFld (.coreSeqStatus c) F.coreSeqStatus_TOKEN_MISMATCH 1).trace c evToken tag (entryOperand found)
  else s1

/-- POP. -/
def execPop (u : SeqUnit) (tag : Tag) (dq : Fin 8) (expect : Option DqEntry) (s : State) :
    Host.Outcome State Fault Refusal :=
  onForm (.pop u tag dq expect) "POP"
    (s.seqDo u tag fun _ =>
      match s.dq (s.unitCore u) dq with
      | [] => s.seqWait u tag .dataQueue dq.val
      | found :: _ => s.popNow u tag dq expect found)

/-! ## Commands of every queue -/

/-- What keeps a queue's command from issuing in a slot: the wait of R131 and, for a condition of the gate, its place in
R106, from 1. -/
def State.queueHold (s : State) (c : Fin 16) (q : Fin 5) (tag : Tag) (u : Nat) (g : GateHold) : State :=
  let s1 := s.holdAt c q tag g.kind g.index g.cond u
  if q == qVector && g.cond != 0 then s1.bump (.coreVecHold c) F.coreVecHold_SLOTS 1 else s1

/-- A queue's command: held for `gate`, or issued with `occ` slots; `go` is its effect after the issue (R104 to R106). -/
def State.queueCommand (s : State) (c : Fin 16) (q : Fin 5) (tag : Tag) (gap occ : Nat) (mask : BitVec 16)
    (gate : Fin 8 → Nat → Option GateHold) (go : Fin 8 → Nat → State → State) : State :=
  match s.front c q tag gap mask with
  | .not s' => s'
  | .ready r u =>
    if s.engineBusy c q then s.queueHold c q tag u ⟨.busy, 0, 0⟩
    else match gate r u with
      | some g => s.queueHold c q tag u g
      | none => go r u (s.issueAt c q tag gap occ occ u)

/-- The core flags that a queue finds in slot `u`: on the execute side what has reached them by then (R127; log 108). -/
def queueFlags (q : Fin 5) (u : Nat) (k : Core) : BitVec 64 :=
  if isExecQueue q then (flagsBy u k).1 else (flagsAfter k).1

/-- What keeps a queue's WAIT: a core flag that is clear, or that a unit before it consumes; a ring flag of which the answer
has not come (R126, R127). -/
def State.flagGate (s : State) (c : Fin 16) (q : Fin 5) (flag : FlagRef) (consume : Bool) (_r : Fin 8) (u : Nat) :
    Option GateHold :=
  match flag with
  | .core n _ =>
    if (queueFlags q u (s.core c)).getLsbD n && !(consume && outranked (s.core c) q.val n) then none
    else some ⟨.flag, flagIndex flag, 0⟩
  | .ring _ =>
    match (s.queue c q).probe with
    | .answered _ => none
    | .asked => some ⟨.flag, flagIndex flag, 0⟩
    | .idle => if s.crossFull (.coreToConcourse c) then some ⟨.busy, 0, 0⟩ else some ⟨.flag, flagIndex flag, 0⟩

/-- The record of a wait names that it consumes, so that later units let it pass first (R126). -/
def State.noteConsume (s : State) (c : Fin 16) (q : Fin 5) (consume : Bool) : State :=
  s.onQueue c q fun k => { k with wait := k.wait.map fun w => { w with consume := consume && w.kind == .flag } }

/-- A queue's WAIT that waits: its test of a ring flag goes out once (R127). -/
def State.queueAsks (s : State) (r : Fin 8) (c : Fin 16) (q : Fin 5) (mask : BitVec 16) (flag : FlagRef) (consume : Bool) :
    State :=
  match flag with
  | .core _ _ => s
  | .ring n =>
    if (s.queue c q).probe = .idle ∧ !s.crossFull (.coreToConcourse c) then
      s.ask (.queue c q mask) (.test r (.queue c q mask) n (if consume then .consume else .wait))
    else s

/-- A wait passes: CONSUME clears a core flag now, a ring flag was cleared where the wait passed; the pass is traced (R125,
R127, R451). -/
def State.waitPassed (s : State) (u : SeqUnit) (tag : Tag) (flag : FlagRef) (consume : Bool) : State :=
  let clear (c : Fin 16) (exec : Bool) : State :=
    match flag with
    | .core n _ => if consume then s.consumeCore c exec n else s
    | .ring _ => s
  match u with
  | .ringmaster _ => s
  | .queue c q _ => (clear c (isExecQueue q)).trace c evWait tag (flagIndex flag)
  | .access c => (clear c false).trace c evWait tag (flagIndex flag)
  | .execute c => (clear c false).trace c evWait tag (flagIndex flag)

/-- WAIT by a queue (R105, R125 to R127). -/
def State.queueWaitFlag (s : State) (c : Fin 16) (q : Fin 5) (mask : BitVec 16) (tag : Tag) (gap : Nat) (flag : FlagRef)
    (consume : Bool) : State :=
  match s.front c q tag gap mask with
  | .not s' => s'
  | .ready r u =>
    if s.engineBusy c q then s.queueHold c q tag u ⟨.busy, 0, 0⟩
    else match s.flagGate c q flag consume r u with
      | some g => ((s.queueHold c q tag u g).noteConsume c q consume).queueAsks r c q mask flag consume
      | none => (s.issueAt c q tag gap 1 1 u).waitPassed (.queue c q mask) tag flag consume

/-- A consuming wait of a sequencer gives way to a unit of its core that passes first (R126). -/
def State.seqYields (s : State) (u : SeqUnit) (flag : FlagRef) (consume : Bool) : Bool :=
  match flag, u with
  | .core n _, .access c => consume && outranked (s.core c) 5 n
  | .core n _, .execute c => consume && outranked (s.core c) 6 n
  | _, _ => false

/-- WAIT by a sequencer or the ringmaster. -/
def State.seqWaitFlag (s : State) (u : SeqUnit) (tag : Tag) (flag : FlagRef) (consume : Bool) : State :=
  s.seqDo u tag fun r =>
    if !s.reaches u r flag then s.reachFault r tag 0
    else match s.seqLooks u r flag (if consume then .consume else .wait) with
      | (s1, v) =>
        if v = some true ∧ !s1.seqYields u flag consume then (s1.seqGo u).waitPassed u tag flag consume
        else (s1.seqWait u tag .flag (flagIndex flag)).onSeq u fun q =>
          { q with wait := q.wait.map fun w => { w with consume := consume } }

/-- WAIT. -/
def execWait (u : SeqUnit) (tag : Tag) (gap : Byte) (flag : FlagRef) (consume : Bool) (s : State) :
    Host.Outcome State Fault Refusal :=
  onForm (.wait u tag gap flag consume) "WAIT"
    (match u with
    | .queue c q mask => s.queueWaitFlag c q mask tag gap.toNat flag consume
    | .access _ => s.seqWaitFlag u tag flag consume
    | .execute _ => s.seqWaitFlag u tag flag consume
    | .ringmaster _ => s.seqWaitFlag u tag flag consume)

/-- A ring-flag operation of a core waits for a place in its crossing (R23, R24). -/
def State.crossGate (s : State) (c : Fin 16) (flag : FlagRef) (_r : Fin 8) (_u : Nat) : Option GateHold :=
  match flag with
  | .core _ _ => none
  | .ring _ => if s.crossFull (.coreToConcourse c) then some ⟨.busy, 0, 0⟩ else none

/-- A ringmaster sets or clears a flag: that flag of every named core, or a ring flag, through its crossing to the concourse
(R23, R125). -/
def State.masterFlag (s : State) (r : Fin 8) (tag : Tag) (flag : FlagRef) (set : Bool) : State :=
  s.seqDo (.ringmaster r) tag fun _ =>
    if !s.reaches (.ringmaster r) r flag then s.reachFault r tag 1
    else if s.crossFull (.ringmasterToConcourse r) then s.seqWait (.ringmaster r) tag .busy 0
    else (s.seqGo (.ringmaster r)).crossPut (.ringmasterToConcourse r)
      (match flag with
      | .core n on => .coreFlag r on n set
      | .ring n => if set then .setFlag r n else .clearFlag r n)

/-- SET. -/
def execSet (u : SeqUnit) (tag : Tag) (gap : Byte) (flag : FlagRef) (s : State) : Host.Outcome State Fault Refusal :=
  onForm (.set u tag gap flag) "SET"
    (match u with
    | .queue c q mask =>
      s.queueCommand c q tag gap.toNat 1 mask (s.crossGate c flag) fun r _ s1 => s1.setByCore r c (isExecQueue q) flag
    | .ringmaster r => s.masterFlag r tag flag true
    | .access _ => s
    | .execute _ => s)

/-- CLEAR. -/
def execClear (u : SeqUnit) (tag : Tag) (gap : Byte) (flag : FlagRef) (s : State) : Host.Outcome State Fault Refusal :=
  onForm (.clear u tag gap flag) "CLEAR"
    (match u with
    | .queue c q mask =>
      s.queueCommand c q tag gap.toNat 1 mask (s.crossGate c flag) fun r _ s1 => s1.clearByCore r c (isExecQueue q) flag
    | .ringmaster r => s.masterFlag r tag flag false
    | .access _ => s
    | .execute _ => s)

/-- No gate. -/
def noGate (_r : Fin 8) (_u : Nat) : Option GateHold := none

/-- IDLE. -/
def execIdle (e : Eng) (vector : Bool) (n : Nat) (s : State) : Host.Outcome State Fault Refusal :=
  onForm (.idle e vector n) "IDLE"
    (s.queueCommand e.core (execQueue vector) e.tag e.gap.toNat n e.mask noGate fun _ _ s1 => s1)

/-- MARK. -/
def execMark (u : SeqUnit) (tag : Tag) (gap : Byte) (operand : Word) (s : State) : Host.Outcome State Fault Refusal :=
  onForm (.mark u tag gap operand) "MARK"
    (match u with
    | .queue c q mask => s.queueCommand c q tag gap.toNat 1 mask noGate fun _ _ s1 => s1.trace c evMark tag operand.toNat
    | .access _ => s
    | .execute _ => s
    | .ringmaster _ => s)

/-- END. A stream that runs past its last command without END has passed END there: for a sequencer or a ringmaster this
command, with the tag of no command, stands for that too (R111, R114; log 111). -/
def execEndStream (u : SeqUnit) (tag : Tag) (gap : Byte) (s : State) : Host.Outcome State Fault Refusal :=
  onForm (.endStream u tag gap) "END"
    (match u with
    | .queue c q mask =>
      s.queueCommand c q tag gap.toNat 1 mask noGate fun _ _ s1 => s1.onQueue c q fun k => { k with ended := true }
    | .access _ => s.seqDo u tag fun _ => s.onSeq u fun q => { q with ended := true, wait := none }
    | .execute _ => s.seqDo u tag fun _ => s.onSeq u fun q => { q with ended := true, wait := none }
    | .ringmaster _ => s.seqDo u tag fun _ => s.onSeq u fun q => { q with ended := true, wait := none })

/-! ## RELEASE and HINT -/

/-- A region of a buffer has a valid mark: 16 regions, or the 4 groups of the drain-scale file (R59, R73). -/
def markExists (b : Buf) (region : Nat) : Bool :=
  match b with
  | .w => decide (region < 16)
  | .a => decide (region < 16)
  | .ds => decide (region < 4)

/-- A valid mark set or cleared (R59, R73, R108). -/
def markPut (b : Buf) (region : Nat) (v : Bool) (k : Core) : Core :=
  match b with
  | .w =>
    let bit := (1#16).shiftLeft region
    { k with wValid := if v then k.wValid ||| bit else k.wValid &&& ~~~bit }
  | .a =>
    let bit := (1#16).shiftLeft region
    { k with aValid := if v then k.aValid ||| bit else k.aValid &&& ~~~bit }
  | .ds =>
    let bit := (1#4).shiftLeft region
    { k with dsValid := if v then k.dsValid ||| bit else k.dsValid &&& ~~~bit }

/-- RELEASE waits for room in the data queue that it names, the fourth condition of R106, or for its flag's crossing. -/
def State.releaseGate (s : State) (c : Fin 16) (sink : ReleaseTo) (r : Fin 8) (u : Nat) : Option GateHold :=
  match sink with
  | .none => none
  | .dq n => if s.dqRoom c n then none else some ⟨.dataQueue, n.val, 4⟩
  | .flag f => s.crossGate c f r u

/-- The core works in a ring without data queues (R109). -/
def State.noDataQueues (s : State) (c : Fin 16) : Bool :=
  match s.ringOfCore c with
  | some r => s.masterMode r
  | none => false

/-- A region as a token names it: as RESOURCE of CHECK 5 (R108, R123). -/
def regionCode (b : Buf) (region : Nat) : Byte :=
  match b with
  | .a => BitVec.ofNat 8 region
  | .w => BitVec.ofNat 8 (16 + region)
  | .ds => BitVec.ofNat 8 (32 + region)

/-- The effect of a RELEASE that issues: the mark is cleared, and the token or the flag follows in the same slot
(R108, R109). -/
def State.releaseNow (s : State) (r : Fin 8) (c : Fin 16) (buf : Buf) (region : Fin 16) (sink : ReleaseTo) : State :=
  let s1 := s.onCore c (markPut buf region.val false)
  match sink with
  | .none => s1
  | .dq n => s1.onDq c n fun l => l ++ [.release (regionCode buf region.val)]
  | .flag f => s1.setByCore r c true f

/-- RELEASE. -/
def execRelease (e : Eng) (vector : Bool) (buf : Buf) (region : Fin 16) (sink : ReleaseTo) (s : State) :
    Host.Outcome State Fault Refusal :=
  if (match sink with | .dq _ => s.noDataQueues e.core | .none => false | .flag _ => false) then
    .refused (.illFormed "RELEASE")
  else
    onForm (.release e vector buf region sink) "RELEASE"
      (s.queueCommand e.core (execQueue vector) e.tag e.gap.toNat 1 e.mask (s.releaseGate e.core sink) fun r _ s1 =>
        if markExists buf region.val then s1.releaseNow r e.core buf region sink
        else s1.isolation r e.tag isCore e.core.val 9 1 0 0)

/-- The power hint of a core after a HINT that issues in slot `u`: a class of 0 ends the announcement (R134, R135). -/
def hintOf (cls lead duration u : Nat) : Option ActiveHint :=
  if cls = 0 then none else some ⟨cls, u, u + lead + 1024 * duration⟩

/-- HINT: the hint is in force from its issue, and travels to the booth through the core's crossing (R23, R134, R135,
R398). -/
def execHint (e : Eng) (cls : Fin 8) (lead duration : Nat) (s : State) : Host.Outcome State Fault Refusal :=
  onForm (.hint e cls lead duration) "HINT"
    (s.queueCommand e.core qArray e.tag e.gap.toNat 1 e.mask (s.crossGate e.core (.ring 0)) fun r u s1 =>
      let s2 := (s1.onCore e.core fun k => { k with hint := hintOf cls.val lead duration u }).crossPut
        (.coreToConcourse e.core) (.hint r e.core cls.val (decide (lead < 20000)))
      if lead < 20000 then s2.bump (.ringHint r) F.ringHint_LATE 1 else s2)

end Sys2Proof.Machine
end

