-- ==== Sys2Proof/Machine/Vector.lean ====
section
/-! DEFINITION. The vector engine: VLOAD, VSTORE, VOP, VFMA, VCONV, VFUNC, VREDUCE and VLATCH (R73, R79, R106, R111,
R118 to R120, R154, R155, R480, R481). -/

namespace Sys2Proof.Machine

/-! ## Issue -/

/-- The latencies of R118. -/
abbrev latRx : Nat := 2
abbrev latCm : Nat := 9
abbrev latVconv : Nat := 3
abbrev latVop : Nat := 4
abbrev latVfma : Nat := 5
abbrev latVreduce : Nat := 8
abbrev latVfunc : Nat := 12

/-- A vector-queue command: held for `gate`, withheld by the audit of the registers that it reads, with their slot
offsets, and writes, or issued with `occ` slots; `go` is its effect after the issue (R106, R119, R121). -/
def State.vectorCommand (s : State) (e : Eng) (occ : Nat) (gate : Nat → Option GateHold) (reads : List (Nat × Nat))
    (first count vis : Nat) (go : Fin 8 → Nat → State → State) : State :=
  let c := e.core
  match s.front c qVector e.tag e.gap.toNat e.mask with
  | .not s' => s'
  | .ready r u =>
    match gate u with
    | some g => s.queueHold c qVector e.tag u g
    | none =>
      let pos := s.position c qVector e.gap.toNat
      match (if s.auditOn r then nearestViolation (vectorPairs pos reads first count vis) (s.core c).auditVec else none) with
      | some v => s.withhold r c qVector e.tag u v
      | none =>
        let s1 := s.issueAt c qVector e.tag e.gap.toNat occ occ u
        go r u (if count = 0 then s1 else s1.noteVector c ⟨e.tag, pos, 0, first, count, vis⟩)

/-- A vector command without a gate of its own. -/
def openGate (_u : Nat) : Option GateHold := none

/-- The gate for a receive entry: valid, from its slot on, else the second condition of R106. -/
def State.rxGate (s : State) (c : Fin 16) (entry : Fin 4) (u : Nat) : Option GateHold :=
  let x := (s.core c).rx[entry]
  if x.held && decide (x.readable ≤ u) then none else some ⟨.gate, 0x40 + entry.val, 2⟩

/-- Vector registers written, visible from a slot (R118). -/
def State.vecWrite (s : State) (c : Fin 16) (reg slot : Nat) (data : List (List Word)) : State :=
  s.onCore c fun k => { k with vPend := k.vPend ++ [⟨reg, slot, data⟩] }

/-- A NaN stands among results (R218). -/
def nanIn (fmt : VFmt) (data : List (List Word)) : Bool := data.any fun l => l.any fun w => isNan (laneNum fmt w)

/-- Results of arithmetic written: a NaN among them sets the vector engine's NaN flag (R218; log 116). -/
def State.vecResult (s : State) (c : Fin 16) (fmt : VFmt) (reg slot : Nat) (data : List (List Word)) : State :=
  let s1 := s.vecWrite c reg slot data
  if nanIn fmt data then s1.onCore c fun k => { k with vecNan := true } else s1

/-- A receive entry released: a DRAIN that names it may issue from slot `free` (R73). -/
def State.rxRelease (s : State) (c : Fin 16) (entry : Fin 4) (free : Nat) : State :=
  s.onCore c fun k => { k with rx := k.rx.set entry ⟨false, 0, free, false⟩ }

/-- A vector-queue command consumes poison (R79, R444): LEVEL 0 from the array, 1 from core memory. -/
def State.vecPoison (s : State) (r : Fin 8) (c : Fin 16) (tag : Tag) (level : Nat) : State :=
  s.poisoned r tag (if level = 0 then s.reg (.coreArrayPoisonTag c) else 0) isCore c.val level 4 0

/-! ## Sources -/

/-- The lanes of source register `j` of a command that issues in slot `u` (R111, R118): a register, one lane broadcast,
or lane r of a register for tile row r. -/
def srcLanes (k : Core) (u j : Nat) : VSrc → List Word
  | .reg v => readVec k (u + j) (v.val + j)
  | .lane v l => List.replicate 128 ((readVec k u v.val).getD l.val 0)
  | .rowb v =>
    let x := readVec k u v.val
    (List.range 128).map fun l => x.getD (4 * j + l / 32) 0

/-- The registers that a source reads, with their slot offsets (R118). -/
def srcReads (L : Nat) : VSrc → List (Nat × Nat)
  | .reg v => (List.range L).map fun j => (v.val + j, j)
  | .lane v _ => [(v.val, 0)]
  | .rowb v => [(v.val, 0)]

/-! ## Loads and stores -/

/-- The lanes of `n` elements of memory: 4 bytes each, or 2 bytes with bits 31 to 16 zero (R481). -/
def laneWords (sz : Nat) (d : List Byte) : List Word := (chunksOf sz (d.length + 1) d).map fun b => BitVec.ofNat 32 (leVal b)

/-- The effect of a VLOAD from a receive entry that issues in slot `u` (R73, R79, R481). -/
def State.loadRx (s : State) (r : Fin 8) (e : Eng) (dst : Fin 64) (L : Nat) (entry : Fin 4) (first : Nat) (release : Bool)
    (u : Nat) : State :=
  let c := e.core
  if ((s.core c).rx[entry]).poisoned then s.vecPoison r c e.tag 0
  else
    let d := rawBytes (opGet (s.core c) (opRx + 4096 * entry.val + 512 * first) (512 * L))
    let s1 := s.vecWrite c dst.val (u + L + latRx - 1) (chunksOf 128 (L + 1) (laneWords 4 d))
    if release then s1.rxRelease c entry (u + L) else s1

/-- The effect of a VLOAD from core memory that issues in slot `u` (R57, R79, R156, R481). -/
def State.loadCm (s : State) (r : Fin 8) (e : Eng) (dst : Fin 64) (L addr : Nat) (fmt : VFmt) (u : Nat) : State :=
  let c := e.core
  let n := 128 * L * laneBytes fmt
  if !inCore addr n then s.isolation r e.tag isCore c.val 9 0 n 0
  else
    let (s1, d) := s.cmRead e.tag c addr n
    if anyPoison d then s1.vecPoison r c e.tag 1
    else s1.vecWrite c dst.val (u + L + latCm - 1) (chunksOf 128 (L + 1) (laneWords (laneBytes fmt) (rawBytes d)))

/-- VLOAD. -/
def execVload (e : Eng) (dst : Fin 64) (L : Nat) (src : VLoadSrc) (s : State) : Host.Outcome State Fault Refusal :=
  onForm (.vload e dst L src) "VLOAD"
    (match src with
    | .rx entry first release =>
      s.vectorCommand e L (s.rxGate e.core entry) [] dst.val L (L + latRx - 1) fun r u s1 =>
        s1.loadRx r e dst L entry first release u
    | .cm addr fmt =>
      s.vectorCommand e L openGate [] dst.val L (L + latCm - 1) fun r u s1 => s1.loadCm r e dst L addr fmt u)

/-- The bytes of a VSTORE with their byte enables, in address order (R481): each lane's 32 bits, or its bits 15 to 0. -/
def storeBytes (k : Core) (u L : Nat) (src : Fin 64) (fmt : VFmt) (mask : BitVec 128) : List (Byte × Bool) :=
  (List.range L).flatMap fun j =>
    let x := readVec k (u + j) (src.val + j)
    (List.range 128).flatMap fun l =>
      (leBytes (laneBytes fmt) (x.getD l 0).toNat).map fun b => (b, mask.getLsbD l)

/-- One line of a VSTORE: a line that is covered completely goes straight to core memory and discards an entry for it;
any other goes to the gathering buffer (R154). -/
def storeLine (k : Core) (line : Nat) (bytes : List (Nat × Byte)) : Core :=
  if bytes.isEmpty then k
  else if bytes.length = 64 then
    corePut (64 * line) (cleanBytes (bytes.map fun p => p.2)) { k with gather := k.gather.filter fun g => g.line != line }
  else gatherPut line bytes k

/-- The lines of a VSTORE, in ascending order. -/
def storeLines (k : Core) (addr : Nat) (d : List (Byte × Bool)) : Core :=
  (List.range ((addr + d.length + 63) / 64 - addr / 64)).foldl (fun k i =>
    let line := addr / 64 + i
    storeLine k line ((List.range 64).filterMap fun o =>
      if addr ≤ 64 * line + o then
        match d[64 * line + o - addr]? with
        | some (b, true) => some (o, b)
        | _ => none
      else none)) k

/-- A completion names a data queue that has no room (R108; log 28), or a ring flag whose crossing is full. -/
def State.doneGate (s : State) (c : Fin 16) (done : Completion) (r : Fin 8) (u : Nat) : Option GateHold :=
  match done.dq.filter fun n => !s.dqRoom c n with
  | some n => some ⟨.dataQueue, n.val, 0⟩
  | none => (done.ready.toList ++ done.flag.toList).findSome? fun f => s.crossGate c f r u

/-- The flag that a completion names is set, where it names one (R127). -/
def State.setNamed (s : State) (r : Fin 8) (c : Fin 16) (exec : Bool) : Option FlagRef → State
  | some f => s.setByCore r c exec f
  | none => s

/-- A completion: the READY token is pushed, or the flag set that stands for it under a ringmaster, then the flag of the
command's own is set (R108, R109, R127, R152). -/
def State.complete (s : State) (r : Fin 8) (c : Fin 16) (exec : Bool) (done : Completion) : State :=
  let s1 := match done.dq with
    | some n => s.onDq c n fun l => l ++ [DqEntry.ready done.region]
    | none => s
  (s1.setNamed r c exec done.ready).setNamed r c exec done.flag

/-- A completion names something. -/
def completes (done : Completion) : Bool := done.dq.isSome || done.ready.isSome || done.flag.isSome

/-- The effect of a VSTORE that issues in slot `u` (R57, R154, R155). -/
def State.vstoreNow (s : State) (r : Fin 8) (e : Eng) (src : Fin 64) (L addr : Nat) (fmt : VFmt) (mask : BitVec 128)
    (done : Completion) (u : Nat) : State :=
  let c := e.core
  let n := 128 * L * laneBytes fmt
  if addr % 8 != 0 || !inCore addr n then s.isolation r e.tag isCore c.val 9 1 n 0
  else
    let s1 := s.onMem e.tag c fun k => storeLines k addr (storeBytes k u L src fmt mask)
    let s2 := if completes done then s1.onMem e.tag c (flushRange addr n) else s1
    s2.complete r c true done

/-- A completion asks for a data queue in a ring that has none (R109). -/
def State.badCompletion (s : State) (c : Fin 16) (done : Completion) : Bool := done.dq.isSome && s.noDataQueues c

/-- VSTORE. -/
def execVstore (e : Eng) (src : Fin 64) (L : Nat) (addr : Nat) (fmt : VFmt) (mask : BitVec 128) (done : Completion)
    (s : State) : Host.Outcome State Fault Refusal :=
  if s.badCompletion e.core done then .refused (.illFormed "VSTORE")
  else onForm (.vstore e src L addr fmt mask done) "VSTORE"
    (s.vectorCommand e L (fun u => s.doneGate e.core done 0 u) (srcReads L (.reg src)) 0 0 0 fun r u s1 =>
      s1.vstoreNow r e src L addr fmt mask done u)

/-! ## Arithmetic -/

/-- Three sources combined lane by lane, register by register. -/
def mapLanes (k : Core) (u L : Nat) (f : Word → Word → Word → Word) (a b c : VSrc) : List (List Word) :=
  (List.range L).map fun j =>
    let x := srcLanes k u j a
    let y := srcLanes k u j b
    let z := srcLanes k u j c
    (List.range 128).map fun l => f (x.getD l 0) (y.getD l 0) (z.getD l 0)

/-- VOP. -/
def execVop (e : Eng) (op : VOpKind) (dst : Fin 64) (L : Nat) (a b c : VSrc) (fmt : VFmt) (s : State) :
    Host.Outcome State Fault Refusal :=
  onForm (.vop e op dst L a b c fmt) "VOP"
    (s.vectorCommand e L openGate
      (srcReads L a ++ srcReads L b ++ (if op = .select then srcReads L c else [])) dst.val L (L + latVop - 1)
      fun _ u s1 =>
        let data := mapLanes (s1.core e.core) u L (laneOp op fmt) a b c
        if op = .select then s1.vecWrite e.core dst.val (u + L + latVop - 1) data
        else s1.vecResult e.core fmt dst.val (u + L + latVop - 1) data)

/-- VFMA. -/
def execVfma (e : Eng) (dst : Fin 64) (L : Nat) (a b c : VSrc) (fmt : VFmt) (s : State) :
    Host.Outcome State Fault Refusal :=
  onForm (.vfma e dst L a b c fmt) "VFMA"
    (s.vectorCommand e L openGate (srcReads L a ++ srcReads L b ++ srcReads L c) dst.val L (L + latVfma - 1)
      fun _ u s1 =>
        s1.vecResult e.core fmt dst.val (u + L + latVfma - 1) (mapLanes (s1.core e.core) u L (laneFma fmt) a b c))

/-- VCONV. -/
def execVconv (e : Eng) (dst : Fin 64) (L : Nat) (a : VSrc) (src dstFmt : VFmt) (s : State) :
    Host.Outcome State Fault Refusal :=
  onForm (.vconv e dst L a src dstFmt) "VCONV"
    (s.vectorCommand e L openGate (srcReads L a) dst.val L (L + latVconv - 1) fun _ u s1 =>
      s1.vecResult e.core dstFmt dst.val (u + L + latVconv - 1)
        (mapLanes (s1.core e.core) u L (fun x _ _ => laneConv src dstFmt x) a a a))

/-- VFUNC. -/
def execVfunc (e : Eng) (fn : VFn) (dst : Fin 64) (L : Nat) (a : VSrc) (fmt : VFmt) (s : State) :
    Host.Outcome State Fault Refusal :=
  onForm (.vfunc e fn dst L a fmt) "VFUNC"
    (s.vectorCommand e L openGate (srcReads L a) dst.val L (L + latVfunc - 1) fun _ u s1 =>
      s1.vecResult e.core fmt dst.val (u + L + latVfunc - 1)
        (mapLanes (s1.core e.core) u L (fun x _ _ => laneFunc fn fmt x) a a a))

/-- The destination register of a VREDUCE: the result over all lanes of source register j in lane j, or that of segment
s in lane 4j + s; every other lane +0.0 (R481). -/
def reduceLanes (k : Core) (u L : Nat) (op : VRed) (a : Fin 64) (segments : Bool) (fmt : VFmt) : List Word :=
  let results := (List.range L).flatMap fun j =>
    let x := readVec k (u + j) (a.val + j)
    if segments then (List.range 4).map fun i => laneReduce op fmt (part x (32 * i) 32) else [laneReduce op fmt x]
  padTo 128 0 results

/-- VREDUCE. -/
def execVreduce (e : Eng) (op : VRed) (dst : Fin 64) (L : Nat) (a : Fin 64) (segments : Bool) (fmt : VFmt) (s : State) :
    Host.Outcome State Fault Refusal :=
  onForm (.vreduce e op dst L a segments fmt) "VREDUCE"
    (s.vectorCommand e L openGate (srcReads L (.reg a)) dst.val 1 (L + latVreduce - 1) fun _ u s1 =>
      s1.vecResult e.core fmt dst.val (u + L + latVreduce - 1) [reduceLanes (s1.core e.core) u L op a segments fmt])

/-- VLATCH's gate: the load latch is not marked valid, the third condition of R106. -/
def State.latchGate (s : State) (c : Fin 16) (_u : Nat) : Option GateHold :=
  if (s.core c).latchValid then some ⟨.gate, 0x30, 3⟩ else none

/-- VLATCH. -/
def execVlatch (e : Eng) (k : Fin 64) (s : State) : Host.Outcome State Fault Refusal :=
  onForm (.vlatch e k) "VLATCH"
    (s.vectorCommand e 8 (s.latchGate e.core) (srcReads 8 (.reg k)) 0 0 0 fun _ u s1 =>
      s1.onCore e.core fun kc =>
        let d := (List.range 8).flatMap fun j => (readVec kc (u + j) (k.val + j)).flatMap fun w => leBytes 4 w.toNat
        { opPut opLatch (cleanBytes d) kc with latchValid := true, latchFrom := u + 8 })

end Sys2Proof.Machine
end

