-- ==== Sys2Proof/Machine/Quant.lean ====
section
/-! DEFINITION. The quantiser: REQUANT, SCALE_CLOSE, SCALE_SET, scale records and the record cache (R93 to R101). -/

namespace Sys2Proof.Machine

/-! ## Scale records (R96) -/

/-- A field of a record, little-endian. -/
def recGet (b : List Byte) (o n : Nat) : Nat := leAt b o n

/-- The record with a field written. -/
def recSet (o n v : Nat) (b : List Byte) : List Byte := b.take o ++ leBytes n v ++ b.drop (o + n)

/-- The record with a counter raised, saturating. -/
def recAdd (o n v : Nat) (b : List Byte) : List Byte := recSet o n (min (recGet b o n + v) (256 ^ n - 1)) b

/-- The history length N (R96). -/
def recN (b : List Byte) : Nat := bitsAt (recGet b 1 1) 2 4 + 1

/-- The record is of a per-channel tensor. -/
def recPerChannel (b : List Byte) : Bool := bitAt (recGet b 1 1) 1

/-- The policy is REDO. -/
def recRedo (b : List Byte) : Bool := bitAt (recGet b 1 1) 0

/-- The record is valid by itself (R96). -/
def recValid (b : List Byte) : Bool :=
  decide (recGet b 0 1 ≤ 4) && decide (recGet b 1 1 < 32) && decide (recGet b 6 1 < 2) && decide (recGet b 7 1 = 0) &&
    decide (recGet b 4 1 ≤ recN b) && decide (recGet b 5 1 < recN b) && decide (recGet b 0x3C 2 < 32) &&
    decide (recGet b 0x3E 2 = 0)

/-- A record as the quantiser has it: from its cache, or from core memory, with poison (R97). -/
def State.recPeek (s : State) (tag : Tag) (c : Fin 16) (a : Nat) : State × List Byte × Bool :=
  match (s.core c).recs.find? fun r => r.addr == a with
  | some r => (s, r.bytes, false)
  | none =>
    let (s1, d) := s.cmRead tag c a 64
    (s1, rawBytes d, anyPoison d)

/-- A record put into the cache as the latest used; the oldest of four is evicted and written back (R97; log 22). -/
def State.recKeep (s : State) (tag : Tag) (c : Fin 16) (a : Nat) (b : List Byte) : State :=
  let rest := (s.core c).recs.filter fun r => r.addr != a
  let s1 := match rest[3]? with
    | some old => s.cmWrite tag c old.addr (cleanBytes old.bytes)
    | none => s
  s1.onCore c fun k => { k with recs := ⟨a, b⟩ :: rest.take 3 }

/-- Every cached record written back to core memory (R50, R97). -/
def State.recsBack (s : State) (tag : Tag) (c : Fin 16) : State :=
  (s.core c).recs.foldl (fun s r => s.cmWrite tag c r.addr (cleanBytes r.bytes)) s

/-! ## Groups -/

/-- What the quantiser measures in a group and finds of it (R95, R101): its largest finite magnitude as FP32, its NaN and
infinite inputs, and whether it overflows or is under-used. -/
structure GroupStat where
  max   : Word
  nans  : Nat
  infs  : Bool
  tooBig  : Bool
  tooSmall : Bool
  deriving DecidableEq, Repr

/-- The largest finite magnitude of a list of FP32 values, as FP32 (R101). -/
def largest (l : List Word) : Word :=
  l.foldl (fun m w =>
    let a := w &&& 0x7FFFFFFF
    if a.toNat < 0x7F800000 && m.toNat < a.toNat then a else m) 0

/-- A group measured under an exponent (R98, R101). -/
def measure (f : ArrFmt) (expE : Nat) (l : List Word) : GroupStat :=
  let m := largest l
  match f32.decode m.toNat with
  | .fin _ mm me =>
    let k : Int := (expE : Int) - 127
    ⟨m, (l.filter fun w => isNan (f32.decode w.toNat)).length, l.any fun w => isInf (f32.decode w.toNat),
      !magLe mm me (fmtMax f) (k + 1), mm != 0 && !magLe (fmtMax f) (k - 4) mm me⟩
  | _ => ⟨m, 0, false, false, false⟩

/-- A group written: its exponent, its codes, and how many of them saturated. -/
structure GroupOut where
  expE  : Nat
  codes : List Nat
  sats  : Nat
  deriving DecidableEq, Repr

/-- A group quantised under an exponent (R94, R95). -/
def quantGroup (f : ArrFmt) (expE : Nat) (l : List Word) : GroupOut :=
  let q := l.map (quantise f expE)
  ⟨expE, q.map fun p => p.1, (q.filter fun p => p.2).length⟩

/-- The bytes of a group's codes: two code4 codes to a byte, the even one low (R60, R93; log 29). -/
def codeBytes (f : ArrFmt) (codes : List Nat) : List Byte :=
  if f = .code4 then (chunksOf 2 17 codes).map fun p => BitVec.ofNat 8 (p.getD 0 0 + 16 * p.getD 1 0)
  else codes.map fun c => BitVec.ofNat 8 c

/-- Group `g` of a unit of 1,024 values: row g in ROW orientation, column g in COLUMN (R93). -/
def groupValues (v : List Word) (column : Bool) (g : Nat) : List Word :=
  if column then (List.range 32).map fun i => v.getD (32 * i + g) 0 else part v (32 * g) 32

/-- A record after a REQUANT has quantised some groups against it (R96, R101): `redone` when a group of it was redone. -/
def recUpdate (stats : List GroupStat) (sats : Nat) (redone : Bool) (b : List Byte) : List Byte :=
  let m := stats.foldl (fun (m : Nat) st => max m st.max.toNat) (recGet b 0x28 4)
  let infs := stats.any fun st => st.infs
  b |> recSet 0x28 4 m
    |> recAdd 0x2C 4 sats
    |> recAdd 0x30 2 (stats.filter fun st => st.tooBig).length
    |> recAdd 0x32 2 (stats.filter fun st => st.tooSmall).length
    |> recAdd 0x34 2 (bitNat redone)
    |> recAdd 0x36 2 (stats.foldl (fun n st => n + st.nans) 0)
    |> recSet 6 1 (recGet b 6 1 ||| bitNat infs)

/-! ## REQUANT -/

/-- The 1,024 values of a REQUANT that issues in slot `u` (R93). -/
def quantValues (k : Core) (u : Nat) : QuantSrc → List Word
  | .rx entry _ => (chunksOf 4 1025 (rawBytes (opGet k (opRx + 4096 * entry.val) 4096))).map fun b => BitVec.ofNat 32 (leVal b)
  | .reg v => (List.range 8).flatMap fun j => readVec k (u + j) (v.val + j)

/-- The receive entry that a REQUANT releases, if any. -/
def quantRelease : QuantSrc → Option (Fin 4)
  | .rx entry true => some entry
  | .rx _ false => none
  | .reg _ => none

/-- The records of a REQUANT, in group order: one, or the 32 of a per-channel tensor (R93); none where a record is
invalid or no quantiser format names it (R96). -/
def quantRecords (first : List Byte) (others : List (List Byte)) (column : Bool) : Option (ArrFmt × List (List Byte)) :=
  match quantFmt (recGet first 0 1) with
  | none => none
  | some f =>
    if !recValid first || (recPerChannel first && column) then none
    else if recPerChannel first then
      (if others.all fun b => recValid b && recPerChannel b && recGet b 0 1 == recGet first 0 1 then some (f, others) else none)
    else some (f, [first])

/-- The state with records peeked at 64-byte steps from an address, `n` of them. -/
def State.recPeeks (s : State) (tag : Tag) (c : Fin 16) (a n : Nat) : State × List (List Byte) × Bool :=
  (List.range n).foldl (fun (acc : State × List (List Byte) × Bool) i =>
    let (s1, b, p) := acc.1.recPeek tag c (a + 64 * i)
    (s1, acc.2.1 ++ [b], acc.2.2 || p)) (s, [], false)

/-- A command names an invalid record (R96). -/
def State.recordErr (s : State) (c : Fin 16) (tag : Tag) : State :=
  (s.setFld (.coreQuantStatus c) F.coreQuantStatus_RECORD_ERR 1).setReg (.coreQuantEventTag c) tag

/-- Bits of CORE_QUANT_STATUS that a REQUANT sets (R103). -/
def State.quantEvents (s : State) (c : Fin 16) (nan inf tooSmall tooBig sat redone : Bool) : State :=
  s.setReg (.coreQuantStatus c) (s.reg (.coreQuantStatus c) ||| BitVec.ofNat 32
    (128 * bitNat nan + 64 * bitNat inf + 32 * bitNat tooSmall + 16 * bitNat tooBig + 8 * bitNat sat + 4 * bitNat redone))

/-- The results of a REQUANT: for every group its measure, what is written, and whether it was redone (R101). -/
def quantResults (f : ArrFmt) (recs : List (List Byte)) (v : List Word) (column : Bool) :
    List (GroupStat × GroupOut × Bool) :=
  (List.range 32).map fun g =>
    let b := (recs[g]?).getD (recs.headD [])
    let l := groupValues v column g
    let st := measure f (recGet b 3 1) l
    let redo := recRedo b && (st.tooBig || st.tooSmall)
    (st, quantGroup f (if redo then derivedExp f st.max else recGet b 3 1) l, redo)

/-- The effect of a REQUANT whose records are valid (R93 to R101). -/
def State.requantWrite (s : State) (c : Fin 16) (tag : Tag) (record codes expmap : Nat) (f : ArrFmt)
    (recs : List (List Byte)) (res : List (GroupStat × GroupOut × Bool)) : State :=
  let stats := res.map fun p => p.1
  let outs := res.map fun p => p.2.1
  let sats := outs.foldl (fun n o => n + o.sats) 0
  let redone := res.any fun p => p.2.2
  let tooBig := (stats.filter fun st => st.tooBig).length
  let tooSmall := (stats.filter fun st => st.tooSmall).length
  let s1 := s.cmWrite tag c codes (cleanBytes (outs.flatMap fun o => codeBytes f o.codes))
  let s2 := s1.cmWrite tag c expmap (cleanBytes (outs.map fun o => BitVec.ofNat 8 o.expE))
  let s3 := if recs.length = 1 then s2.recKeep tag c record (recUpdate stats sats redone (recs.headD []))
    else (List.range 32).foldl (fun s g =>
      match recs[g]?, res[g]? with
      | some b, some (st, o, rd) => s.recKeep tag c (record + 64 * g) (recUpdate [st] o.sats rd b)
      | _, _ => s) s2
  let s4 := s3.quantEvents c (stats.any fun st => decide (0 < st.nans)) (stats.any fun st => st.infs)
    (decide (0 < tooSmall)) (decide (0 < tooBig)) (decide (0 < sats)) redone
  let s5 := (s4.bump (.coreQuantSaturated c) F.coreQuantSaturated_COUNT sats).bump (.coreQuantRedone c)
    F.coreQuantRedone_COUNT (bitNat redone)
  if 0 < tooBig ∨ 0 < tooSmall then (s5.setReg (.coreQuantEventTag c) tag).trace c evQuant tag (256 * tooBig + tooSmall) else s5

/-- A REQUANT or SCALE_CLOSE issues: it is in progress for the slots that it occupies, and counts `prog` in programmed
distances (R103, R105). -/
def State.quantIssue (s : State) (e : Eng) (occ prog u : Nat) : State :=
  (s.issueAt e.core qVector e.tag e.gap.toNat occ prog u).onCore e.core fun k => { k with quantUntil := u + occ }

/-- Bytes that a REQUANT writes as codes. -/
def codeSpan (f : ArrFmt) : Nat := if f = .code4 then 512 else 1024

/-- The effect of a REQUANT that issues in slot `u`; `s0` is the state before its issue, in which the redo that its
occupancy depends on is judged (R93, R101, R105). -/
def State.requantNow (s : State) (r : Fin 8) (e : Eng) (src : QuantSrc) (record codes expmap : Nat) (column : Bool)
    (u : Nat) : State :=
  let c := e.core
  let release (n : Nat) (s : State) : State := match quantRelease src with
    | some x => s.rxRelease c x (u + n)
    | none => s
  if !inCore record 64 then (s.quantIssue e 8 8 u).isolation r e.tag isCore c.val 9 0 64 0
  else if (match src with | .rx x _ => ((s.core c).rx[x]).poisoned | .reg _ => false) then
    (s.quantIssue e 8 8 u).vecPoison r c e.tag 0
  else
    let (s1, first, p1) := s.recPeek e.tag c record
    let n := if recPerChannel first then 32 else 0
    let (s2, others, p2) := if inCore record (64 * n) then s1.recPeeks e.tag c record n else (s1, [], false)
    if p1 || p2 then (s2.quantIssue e 8 8 u).vecPoison r c e.tag 1
    else match quantRecords first others column with
      | none => (release 8 (s2.quantIssue e 8 8 u)).recordErr c e.tag
      | some (f, recs) =>
        if !inCore codes (codeSpan f) || !inCore expmap 32 || !inCore record (64 * n) then
          (s2.quantIssue e 8 8 u).isolation r e.tag isCore c.val 9 1 (codeSpan f) 0
        else
          let res := quantResults f recs (quantValues (s2.core c) u src) column
          let occ := if res.any fun p => p.2.2 then 16 else 8
          release occ ((s2.quantIssue e occ 8 u).requantWrite c e.tag record codes expmap f recs res)

/-- A quantiser command: gate and audit as for any vector command, then its effect in slot `u` (R93, R106, R121). -/
def State.quantCommand (s : State) (e : Eng) (gate : Nat → Option GateHold) (reads : List (Nat × Nat))
    (go : Fin 8 → Nat → State) : State :=
  let c := e.core
  match s.front c qVector e.tag e.gap.toNat e.mask with
  | .not s' => s'
  | .ready r u =>
    match gate u with
    | some g => s.queueHold c qVector e.tag u g
    | none =>
      match (if s.auditOn r then
          nearestViolation (vectorPairs (s.position c qVector e.gap.toNat) reads 0 0 0) (s.core c).auditVec else none) with
      | some v => s.withhold r c qVector e.tag u v
      | none => go r u

/-- REQUANT. -/
def execRequant (e : Eng) (src : QuantSrc) (record codes expmap : Nat) (column : Bool) (s : State) :
    Host.Outcome State Fault Refusal :=
  onForm (.requant e src record codes expmap column) "REQUANT"
    (s.quantCommand e (match src with | .rx x _ => s.rxGate e.core x | .reg _ => openGate)
      (match src with | .rx _ _ => [] | .reg v => srcReads 8 (.reg v))
      fun r u => s.requantNow r e src record codes expmap column u)

/-! ## SCALE_CLOSE and SCALE_SET -/

/-- The larger of two FP32 values by value; the first of them where a NaN is among them (log 121). -/
def fpMax (a b : Word) : Word := if numLt (f32.decode a.toNat) (f32.decode b.toNat) then b else a

/-- The STEP fields cleared (R99). -/
def recClearStep (b : List Byte) : List Byte :=
  b |> recSet 6 1 0 |> recSet 0x28 4 0 |> recSet 0x2C 4 0 |> recSet 0x30 2 0 |> recSet 0x32 2 0 |> recSet 0x34 2 0
    |> recSet 0x36 2 0

/-- LAST_FLAGS from the STEP fields (R96). -/
def lastFlags (b : List Byte) : Nat :=
  bitNat (recGet b 0x30 2 != 0) + 2 * bitNat (recGet b 0x32 2 != 0) + 4 * bitNat (recGet b 0x34 2 != 0) +
    8 * bitNat (recGet b 0x36 2 != 0) + 16 * bitNat (bitAt (recGet b 6 1) 0)

/-- A record after SCALE_CLOSE (R99). -/
def recClose (ringMax : Option Word) (b : List Byte) : List Byte :=
  let n := recN b
  let m := (ringMax.map fun w => w.toNat).getD (recGet b 0x28 4)
  let next := recGet b 5 1
  let count := min n (recGet b 4 1 + 1)
  let b1 := b |> recSet (8 + 4 * next) 4 m |> recSet 5 1 ((next + 1) % n) |> recSet 4 1 count
  let r := (List.range count).foldl (fun x i => fpMax x (BitVec.ofNat 32 (recGet b1 (8 + 4 * i) 4)))
    (BitVec.ofNat 32 (recGet b1 8 4))
  let curExp := if isZero (f32.decode r.toNat) then recGet b 2 1
    else derivedExp ((quantFmt (recGet b 0 1)).getD .code4) r
  b1 |> recSet 3 1 curExp |> recSet 0x38 4 (recGet b 0x2C 4) |> recSet 0x3C 2 (lastFlags b) |> recClearStep

/-- A record after SCALE_SET (R93). -/
def recScaleSet (exp : Byte) (b : List Byte) : List Byte :=
  b |> recSet 3 1 exp.toNat |> recSet 4 1 0 |> recSet 5 1 0 |> recClearStep

/-- The effect of SCALE_CLOSE or SCALE_SET on a record, with `occ` slots; SCALE_CLOSE writes it back (R96, R97, R99). -/
def State.scaleNow (s : State) (r : Fin 8) (e : Eng) (record occ : Nat) (f : List Byte → List Byte) (back : Bool)
    (u : Nat) : State :=
  let c := e.core
  let s0 := if back then s.quantIssue e occ occ u else s.issueAt c qVector e.tag e.gap.toNat occ occ u
  if !inCore record 64 then s0.isolation r e.tag isCore c.val 9 1 64 0
  else
    let (s1, b, poison) := s0.recPeek e.tag c record
    if poison then s1.vecPoison r c e.tag 1
    else if !recValid b then s1.recordErr c e.tag
    else
      let s2 := s1.recKeep e.tag c record (f b)
      if back then s2.cmWrite e.tag c record (cleanBytes (f b)) else s2

/-- SCALE_CLOSE. -/
def execScaleClose (e : Eng) (record : Nat) (ringMax : Option Word) (s : State) : Host.Outcome State Fault Refusal :=
  onForm (.scaleClose e record ringMax) "SCALE_CLOSE"
    (s.quantCommand e openGate [] fun r u => s.scaleNow r e record 2 (recClose ringMax) true u)

/-- SCALE_SET. -/
def execScaleSet (e : Eng) (record : Nat) (exp : Byte) (s : State) : Host.Outcome State Fault Refusal :=
  onForm (.scaleSet e record exp) "SCALE_SET"
    (s.quantCommand e openGate [] fun r u => s.scaleNow r e record 1 (recScaleSet exp) false u)

end Sys2Proof.Machine
end

