-- ==== Sys2Proof/Machine/Isp.lean ====
section
/-! DEFINITION. The arithmetic of the image signal pipeline: its stages and their narrowing (R102, R269) and its statistics
(R272), over exact rationals. What the spec does not state of a stage (the layout of the parameter set, the widths between
the stages, the interpolation of the demosaic, the weights of the scaler) stands in Config (log 14). -/

namespace Sys2Proof.Machine

/-- One component of an image, by row and column. -/
abbrev Plane := Nat → Nat → Rat

/-- Where a frame enters the pipeline, and its components: RAW data at stage 1, YCbCr and RGB at stage 7 (R269). -/
inductive IspInput where
  | raw
  | ycc
  | rgb
  deriving DecidableEq, Repr

/-- A frame as the pipeline takes it: its parameters, where it enters, the sizes of R259, and its input samples, a line,
a column and a component. -/
structure IspJob where
  par   : IspParams
  enter : IspInput
  inW   : Nat
  inH   : Nat
  outW  : Nat
  outH  : Nat
  input : Nat → Nat → Nat → Rat

/-! ## Narrowing (R102) -/

/-- A value rounded to the nearest integer, ties to even. -/
def roundEven (r : Rat) : Int :=
  let f := r.floor
  let d := r - (f : Rat)
  if d < 1 / 2 then f else if 1 / 2 < d then f + 1 else if f % 2 = 0 then f else f + 1

/-- What a stage keeps of its result: the nearest value of its fraction bits, ties to even. -/
def narrowAt (stage : Nat) (r : Rat) : Rat :=
  (roundEven (r * 2 ^ Config.ispFraction stage) : Rat) / 2 ^ Config.ispFraction stage

/-- A value held between two bounds. -/
def clampRat (lo hi r : Rat) : Rat := max lo (min hi r)

/-- The exact value of a number, `other` for one that is not finite. -/
def ratOf (other : Rat) : Num → Rat
  | .fin neg m e => (if neg then -1 else 1) * m * (if 0 ≤ e then 2 ^ e.toNat else 1 / 2 ^ (-e).toNat)
  | .inf _ => other
  | .nan => other

/-- A plane read at a place that may lie beyond its edge. -/
def edgeAt (w h : Nat) (p : Plane) (y x : Int) : Rat := p (Config.ispEdge h y) (Config.ispEdge w x)

/-! ## Stages 1 to 5: RAW data (R269) -/

/-- The place of a pixel in the 2 × 2 pattern: its CFA colour, row by row. -/
def cfaPlace (y x : Nat) : Nat := 2 * (y % 2) + x % 2

/-- Stage 1: piecewise-linear expansion to 20-bit linear. A segment holds its start, its value there and its slope. -/
def decompand (par : IspParams) (v : Rat) : Rat :=
  match (par.segments.take 16).reverse.find? fun g => decide (g.1 ≤ v) with
  | some (a, b, slope) => clampRat 0 1048575 (roundEven (b + slope * (v - a)))
  | none => 0

/-- Stage 2: the black level of the pixel's CFA colour subtracted, clamped at 0. -/
def blackLevel (par : IspParams) (p : Plane) : Plane := fun y x =>
  narrowAt 2 (max 0 (p y x - par.black.getD (cfaPlace y x) 0))

/-- The eight neighbours of a pixel of its own colour: two places away, one in a MONO frame. -/
def sameColour (par : IspParams) (w h : Nat) (p : Plane) (y x : Nat) : List Rat :=
  let d : Int := if par.pattern = .mono then 1 else 2
  [(-d, -d), (-d, 0), (-d, d), (0, -d), (0, d), (d, -d), (d, 0), (d, d)].map fun o => edgeAt w h p (y + o.1) (x + o.2)

/-- The median of eight values: the mean of the middle two. -/
def median8 (l : List Rat) : Rat :=
  let m := l.mergeSort fun a b => decide (a ≤ b)
  (m.getD 3 0 + m.getD 4 0) / 2

/-- Stage 3: a pixel that differs from all 8 same-colour neighbours by more than the threshold takes their median. -/
def defects (par : IspParams) (w h : Nat) (p : Plane) : Plane := fun y x =>
  let l := sameColour par w h p y x
  if l.all fun n => decide (par.threshold < n - p y x) || decide (par.threshold < p y x - n) then narrowAt 3 (median8 l)
  else p y x

/-- A 32 × 32 grid interpolated bilinearly. -/
def gridGain (g : List (List Rat)) (y x : Rat) : Rat :=
  let at_ (i j : Int) : Rat := (g.getD (min 31 i.toNat) []).getD (min 31 j.toNat) 0
  let i := y.floor
  let j := x.floor
  let fy := y - i
  let fx := x - j
  (1 - fy) * ((1 - fx) * at_ i j + fx * at_ i (j + 1)) + fy * ((1 - fx) * at_ (i + 1) j + fx * at_ (i + 1) (j + 1))

/-- Stage 4: lens shading, a gain per CFA colour. -/
def lensShading (par : IspParams) (w h : Nat) (p : Plane) : Plane := fun y x =>
  narrowAt 4 (p y x * gridGain (par.grids.getD (cfaPlace y x) []) (Config.ispGrid h y) (Config.ispGrid w x))

/-- Stage 5: white balance, an FP16 gain per CFA colour. -/
def whiteBalance (par : IspParams) (p : Plane) : Plane := fun y x =>
  let g := par.gains.getD (cfaPlace y x) 0
  narrowAt 5 (p y x * ratOf (Config.ispGain g) (f16.decode g.toNat))

/-- A RAW frame after stage 5. -/
def IspJob.balanced (j : IspJob) : Plane :=
  let p1 : Plane := fun y x => decompand j.par (j.input y x 0)
  whiteBalance j.par (lensShading j.par j.inW j.inH (defects j.par j.inW j.inH (blackLevel j.par p1)))

/-! ## Stages 6 to 8: colour and tone (R269) -/

/-- The frame has one plane: RAW with CFA pattern MONO. -/
def IspJob.mono (j : IspJob) : Bool := j.enter == .raw && j.par.pattern == .mono

/-- The weights of red and blue in luma: BT.601 or BT.709. -/
def lumaWeights (bt709 : Bool) : Rat × Rat := if bt709 then (2126 / 10000, 722 / 10000) else (299 / 1000, 114 / 1000)

/-- YCbCr, 0 to 1 and centred on 0, converted to red, green and blue. -/
def yccToRgb (bt709 : Bool) (v : Nat → Rat) : Nat → Rat := fun c =>
  let (kr, kb) := lumaWeights bt709
  let r := v 0 + 2 * (1 - kr) * v 2
  let b := v 0 + 2 * (1 - kb) * v 1
  match c with
  | 0 => r
  | 1 => (v 0 - kr * r - kb * b) / (1 - kr - kb)
  | _ => b

/-- Red, green and blue before the matrix of stage 7: demosaiced (stage 6), converted, or as they came. -/
def IspJob.colours (j : IspJob) (c : Nat) : Plane :=
  match j.enter with
  | .raw => fun y x => narrowAt 6 (Config.ispDemosaic j.par.pattern j.inW j.inH j.balanced c y x)
  | .ycc => fun y x => yccToRgb j.par.bt709 (j.input y x) c
  | .rgb => fun y x => j.input y x c

/-- Stage 7: a 3 × 3 matrix with offsets. -/
def IspJob.matrixed (j : IspJob) (c : Nat) : Plane := fun y x =>
  let m (k : Nat) : Rat := j.par.matrix.getD (3 * c + k) 0
  narrowAt 7 (m 0 * j.colours 0 y x + m 1 * j.colours 1 y x + m 2 * j.colours 2 y x + j.par.offsets.getD c 0)

/-- Stage 8: the channel's curve of 1,024 entries, mapping to v from 0 to 1; a MONO frame skips stages 6 and 7. -/
def IspJob.toned (j : IspJob) (c : Nat) : Plane := fun y x =>
  let v := if j.mono then j.balanced y x else j.matrixed c y x
  narrowAt 8 (clampRat 0 1 (Config.ispTone ((j.par.curves.getD c []).take 1024) v))

/-! ## Stages 9 and 10: scaling and output (R269) -/

/-- A plane scaled: at most 8 taps horizontally and 6 vertically. -/
def scaled (w h ow oh : Nat) (p : Plane) : Plane := fun y x =>
  narrowAt 9 (((Config.ispTaps false h oh y).take 6).foldl (fun s a =>
    s + a.2 * ((Config.ispTaps true w ow x).take 8).foldl (fun s b => s + b.2 * edgeAt w h p a.1 b.1) 0) 0)

/-- A code in `n` bits of the nearest integer. -/
def codeOf (n : Nat) (r : Rat) : Nat := (roundEven r).toNat % 2 ^ n

/-- Stage 10: INT8 is round(255 v) − 128, FP16 is v; little-endian. -/
def ispElement (fp16 : Bool) (v : Rat) : List Byte :=
  if fp16 then
    leBytes 2 (f16.encode (.fin (decide (v < 0)) (v.num.natAbs * 2 ^ Config.ispFraction 9 / v.den) (-Config.ispFraction 9)))
  else [BitVec.ofInt 8 (roundEven (255 * v) - 128)]

/-- Row `y` of output plane `p`, without its pitch's rest. -/
def IspJob.row (j : IspJob) (fp16 : Bool) (p y : Nat) : List Byte :=
  (List.range j.outW).flatMap fun x => ispElement fp16 (scaled j.inW j.inH j.outW j.outH (j.toned p) y x)

/-- The VIEW tap after stage 8 in BT.709: luma, or a colour difference. -/
def IspJob.viewYcc (j : IspJob) (comp : Nat) : Plane := fun y x =>
  let v (c : Nat) : Rat := if j.mono then j.toned 0 y x else j.toned c y x
  let (kr, kb) := lumaWeights true
  let l := kr * v 0 + (1 - kr - kb) * v 1 + kb * v 2
  match comp with
  | 0 => l
  | 1 => (v 2 - l) / (2 * (1 - kb))
  | _ => (v 0 - l) / (2 * (1 - kr))

/-- A sample of the view: limited range, 8 or 10 bits, chroma at half the size each way (4:2:0). -/
def IspJob.viewSample (j : IspJob) (w h : Nat) (ten : Bool) (comp y x : Nat) : Nat :=
  let s : Rat := if ten then 4 else 1
  if comp = 0 then codeOf 10 (s * (16 + 219 * scaled j.inW j.inH w h (j.viewYcc 0) y x))
  else codeOf 10 (s * (128 + 224 * scaled j.inW j.inH (w / 2) (h / 2) (j.viewYcc comp) y x))

/-- Byte `i` of the view: one of the bytes of one of its samples. -/
def IspJob.viewByte (j : IspJob) (w h : Nat) (ten : Bool) (i : Nat) : Byte :=
  let q := Config.viewPlace w h ten i
  BitVec.ofNat 8 (j.viewSample w h ten q.1.val q.2.1 q.2.2.1 / (if q.2.2.2 then 256 else 1))

/-! ## Statistics (R272) -/

/-- The colour that the pixel at a place of the pattern counts for: clear pixels stand where green ones do. -/
def cfaColour (p : Cfa) (place : Nat) : Option Nat :=
  let l : List Nat := match p with
    | .rggb => [0, 1, 1, 2]
    | .grbg => [1, 0, 2, 1]
    | .gbrg => [1, 2, 0, 1]
    | .bggr => [2, 1, 1, 0]
    | .rccb => [0, 1, 1, 2]
    | .mono => []
  l[place]?

/-- What a pixel after stage 5 counts in the means of a colour, none where it has another colour. A MONO pixel counts for
each; a frame that enters at stage 7 counts as it enters. -/
def IspJob.statAt (j : IspJob) (c y x : Nat) : Option Rat :=
  match j.enter with
  | .raw => match cfaColour j.par.pattern (cfaPlace y x) with
    | some k => if k = c then some (j.balanced y x) else none
    | none => some (j.balanced y x)
  | .ycc => some (j.colours c y x)
  | .rgb => some (j.colours c y x)

/-- The pixels of a frame, row by row. -/
def IspJob.pixels (j : IspJob) : List (Nat × Nat) :=
  (List.range j.inH).flatMap fun y => (List.range j.inW).map fun x => (y, x)

/-- The count of the luma histogram's bin `b`: every pixel stands in one of the 64 bins. -/
def IspJob.bin (j : IspJob) (b : Nat) : Nat :=
  (j.pixels.filter fun q => (Config.lumaBin j.par j.inW j.inH
    (fun c y x => (j.statAt c y x).getD 0) q.1 q.2).val == b).length

/-- The mean of a colour in one of the 8 × 8 zones, 0 where the zone has no pixel of it. -/
def IspJob.zoneMean (j : IspJob) (zone c : Nat) : Rat :=
  let l := (j.pixels.filter fun q => 8 * q.1 / j.inH == zone / 8 && 8 * q.2 / j.inW == zone % 8).filterMap fun q =>
    j.statAt c q.1 q.2
  l.foldl (· + ·) 0 / max 1 (l.length : Rat)

/-- The 448 bytes of statistics: 64 counts, then 192 means. -/
def IspJob.stats (j : IspJob) : List Byte :=
  ((List.range 64).flatMap fun b => leBytes 4 (j.bin b)) ++
    (List.finRange 192).map fun i => Config.zoneByte (j.zoneMean (Config.zonePlace i).1.val (Config.zonePlace i).2.val)

end Sys2Proof.Machine
end

