-- ==== Sys2Proof/Machine/FrontEnd.lean ====
section
/-! DEFINITION. The sensor front end: receivers (R255 to R257), stream contexts and their checks (R258 to R260), frame
buffers and delivery (R261 to R266), malformed input (R267), timestamps (R268), the image pipeline (R269 to R272). -/

namespace Sys2Proof.Machine

/-! ## Descriptors (R259) -/

/-- The descriptor of a stream context as bytes. -/
def State.feDesc (s : State) (x : Fin 64) : List Byte :=
  (List.finRange 16).flatMap fun k => leBytes 4 (s.reg (.feStreamDesc x k)).toNat

/-- A field of the descriptor. -/
def State.feAt (s : State) (x : Fin 64) (o n : Nat) : Nat := leAt (s.feDesc x) o n

def State.feSource (s : State) (x : Fin 64) : Nat := s.feAt x 0x00 1
def State.feUnit (s : State) (x : Fin 64) : Nat := s.feAt x 0x01 1
def State.feVc (s : State) (x : Fin 64) : Nat := s.feAt x 0x02 1
def State.feDt (s : State) (x : Fin 64) : Nat := s.feAt x 0x03 1
def State.feFlags (s : State) (x : Fin 64) : Nat := s.feAt x 0x04 1
def State.feBuffers (s : State) (x : Fin 64) : Nat := s.feAt x 0x05 1
def State.feDone (s : State) (x : Fin 64) : Nat := s.feAt x 0x06 1
def State.feRelease (s : State) (x : Fin 64) : Nat := s.feAt x 0x07 1
def State.feInW (s : State) (x : Fin 64) : Nat := s.feAt x 0x08 2
def State.feInH (s : State) (x : Fin 64) : Nat := s.feAt x 0x0A 2
def State.feOutW (s : State) (x : Fin 64) : Nat := s.feAt x 0x0C 2
def State.feOutH (s : State) (x : Fin 64) : Nat := s.feAt x 0x0E 2
def State.feFps (s : State) (x : Fin 64) : Nat := s.feAt x 0x10 1
def State.feFmt (s : State) (x : Fin 64) : Nat := s.feAt x 0x11 1
def State.feExp (s : State) (x : Fin 64) : Nat := s.feAt x 0x12 1
def State.feTsOffset (s : State) (x : Fin 64) : Nat := s.feAt x 0x13 1
def State.feTsWait (s : State) (x : Fin 64) : Nat := s.feAt x 0x14 2
def State.feStride (s : State) (x : Fin 64) : Nat := s.feAt x 0x20 4
def State.fePlane (s : State) (x : Fin 64) : Nat := s.feAt x 0x24 4
def State.feView (s : State) (x : Fin 64) : Nat := s.feAt x 0x28 8
def State.feViewStride (s : State) (x : Fin 64) : Nat := s.feAt x 0x30 4
def State.feViewW (s : State) (x : Fin 64) : Nat := s.feAt x 0x34 2
def State.feViewH (s : State) (x : Fin 64) : Nat := s.feAt x 0x36 2
def State.feViewFmt (s : State) (x : Fin 64) : Nat := s.feAt x 0x38 1

/-- BUF_BASE. -/
def State.feBase (s : State) (x : Fin 64) : DWord := BitVec.ofNat 64 (s.feAt x 0x18 8)

/-- FLAGS: ISP_ENABLE, VIEW_ENABLE, ON_ERROR DROP, TS_SOURCE, TS_BIG_ENDIAN. -/
def State.feIsp (s : State) (x : Fin 64) : Bool := bitAt (s.feFlags x) 0
def State.feViewOn (s : State) (x : Fin 64) : Bool := bitAt (s.feFlags x) 1
def State.feDropBad (s : State) (x : Fin 64) : Bool := bitAt (s.feFlags x) 2
def State.feTsSource (s : State) (x : Fin 64) : Nat := bitsAt (s.feFlags x) 3 4
def State.feTsBig (s : State) (x : Fin 64) : Bool := bitAt (s.feFlags x) 5

/-- The sources of R258. -/
abbrev srcCsi : Nat := 0
abbrev srcEth : Nat := 1
abbrev srcCodec : Nat := 2

/-- The states of FE_STREAM_STATUS (R280). -/
abbrev feDisabled : Nat := 0
abbrev feEnabled : Nat := 1
abbrev feDisabling : Nat := 2

/-- The state of a stream context. -/
def State.feState (s : State) (x : Fin 64) : Nat := s.fld (.feStreamStatus x) F.feStreamStatus_STATE

/-- The ring that owns a stream context (R258). -/
def State.streamRing (s : State) (x : Fin 64) : Option (Fin 8) :=
  (List.finRange 8).find? fun r => (s.ring r).bound && bitAt (s.manifest r 0x20 8) x.val

/-- The bits of a pixel of a CSI-2 data type (R257; log 19 for the codes), 0 for a type that is no image data. -/
def pixelBits (dt : Nat) : Nat :=
  match dt with
  | 0x1E => 16
  | 0x24 => 24
  | 0x2A => 8
  | 0x2B => 10
  | 0x2C => 12
  | 0x2D => 14
  | 0x2E => 16
  | _ => if 0x30 ≤ dt ∧ dt ≤ 0x37 then 8 else 0

/-- RAW data types. -/
def isRaw (dt : Nat) : Bool := within 0x2A 0x2E dt

/-- The bytes of an input line. -/
def State.feLineBytes (s : State) (x : Fin 64) : Nat := ceilDiv (s.feInW x * pixelBits (s.feDt x)) 8

/-- The bytes of an output element: 1 for INT8, 2 for FP16 (R261). -/
def State.feElem (s : State) (x : Fin 64) : Nat := if s.feFmt x = 1 then 2 else 1

/-- The row pitch of a plane (R261). -/
def State.fePitch (s : State) (x : Fin 64) : Nat := 64 * ceilDiv (s.feOutW x * s.feElem x) 64

/-- The ISP parameter set in force, as bytes. -/
def State.ispSet (s : State) (x : Fin 64) : List Byte := smRead 0 (s.stream x).ispActive 0 8192

/-- The shadow parameter set, as bytes (R271). -/
def State.ispShadow (s : State) (x : Fin 64) : List Byte :=
  (List.finRange 2048).flatMap fun k => leBytes 4 (s.reg (.feIspParam x k)).toNat

/-- The frame is RAW with CFA pattern MONO, so that it yields one plane and skips stages 6 and 7 (R269; log 14). -/
def State.feMono (s : State) (x : Fin 64) : Bool :=
  s.feSource x == srcCsi && isRaw (s.feDt x) && (Config.ispParams (s.ispSet x)).pattern == .mono

/-- The planes of a buffer: one under COPY, whose payload stands where plane 0 does (R261). -/
def State.fePlanes (s : State) (x : Fin 64) : Nat := if s.feIsp x && !s.feMono x then 3 else 1

/-- The place of buffer `k` from BUF_BASE (R261). -/
def State.feBuffer (s : State) (x : Fin 64) (k : Nat) : Nat := k * s.feStride x

/-- The bytes of a payload that a buffer takes under COPY (log 51). -/
def State.feRoom (s : State) (x : Fin 64) : Nat := s.feStride x - 512

/-! ## ENABLE, DISABLE and COMMIT (R260, R271) -/

/-- The fields that every ENABLE checks lie in their ranges (R259, R260). -/
def State.feFields (s : State) (x : Fin 64) : Bool :=
  let src := s.feSource x
  decide (src ≤ 2) && decide (s.feUnit x < if src = srcEth then 8 else 16) &&
    (src != srcCsi || (decide (s.feVc x ≤ 3) && decide (0 < pixelBits (s.feDt x)))) &&
    decide (s.feFlags x < 64) && decide (s.feTsSource x < 3) && within 2 8 (s.feBuffers x) &&
    decide (192 ≤ s.feDone x) && decide (s.feRelease x + s.feBuffers x ≤ 192) &&
    (src != srcEth || (s.feInW x == 0 && s.feInH x == 0 && !s.feViewOn x)) && within 1 240 (s.feFps x) &&
    decide (s.feFmt x ≤ 2) && decide (s.feTsOffset x ≤ 248) && decide (s.feTsWait x ≤ 10000) && s.feAt x 0x16 2 == 0 &&
    s.feStride x % 512 == 0 && s.fePlane x % 512 == 0 && s.feAt x 0x39 7 == 0

/-- The output and input sizes (R259, R260, R270). -/
def State.feSizes (s : State) (x : Fin 64) : Bool :=
  if s.feIsp x then
    s.feFmt x != 2 && s.feSource x != srcEth && within 64 8192 (s.feInW x) && within 64 8192 (s.feInH x) &&
      within 16 4096 (s.feOutW x) && within 16 4096 (s.feOutH x) && decide (s.feOutW x ≤ s.feInW x) &&
      decide (s.feOutH x ≤ s.feInH x) && decide (s.feInW x ≤ 8 * s.feOutW x) && decide (s.feInH x ≤ 8 * s.feOutH x) &&
      (!(s.feSource x == srcCsi && isRaw (s.feDt x)) || s.feMono x || decide (s.feInW x ≤ 4096))
  else s.feFmt x == 2 && s.feOutW x == 0 && s.feOutH x == 0

/-- The view fields, where VIEW_ENABLE is set (R259). -/
def State.feViewOk (s : State) (x : Fin 64) : Bool :=
  !s.feViewOn x || (s.feViewStride x % 512 == 0 && s.feViewW x % 2 == 0 && s.feViewH x % 2 == 0 &&
    within 64 8192 (s.feViewW x) && within 64 8192 (s.feViewH x) && decide (s.feViewW x ≤ s.feInW x) &&
    decide (s.feViewH x ≤ s.feInH x) && decide (s.feViewFmt x ≤ 1))

/-- The bytes of a view: 8-bit 4:2:0, or 10-bit 4:2:0 in two bytes a sample (log 14). -/
def State.feViewBytes (s : State) (x : Fin 64) : Nat :=
  s.feViewW x * s.feViewH x * 3 / 2 * (if s.feViewFmt x = 1 then 2 else 1)

/-- A range lies in the ring's midway space or in its INGEST regions (R260). -/
def State.ingestInside (s : State) (r : Fin 8) (a n : Nat) : Bool :=
  if bufDram (BitVec.ofNat 64 a) then s.inIngest r (bufAddr (BitVec.ofNat 64 a)) n else decide (a + n ≤ s.mwySize r)

/-- Every buffer, plane and view buffer lies where R260 wants it. -/
def State.feRanges (s : State) (r : Fin 8) (x : Fin 64) : Bool :=
  let used := max 512 (if s.feIsp x then 512 + (s.fePlanes x - 1) * s.fePlane x + s.feOutH x * s.fePitch x else 512)
  decide (512 + s.fePlanes x * s.fePlane x ≤ s.feStride x) &&
    ((List.range (s.feBuffers x)).all fun k =>
      s.ingestInside r ((s.feBase x).toNat + s.feBuffer x k) (max used (s.feStride x * bitNat (s.feFmt x == 2))) &&
      (!s.feViewOn x || s.inIngest r (s.feView x + k * s.feViewStride x) (s.feViewBytes x)))

/-- Two contexts name the same source. -/
def State.sameSource (s : State) (x y : Fin 64) : Bool :=
  s.feSource x == s.feSource y && s.feUnit x == s.feUnit y &&
    (s.feSource x != srcCsi || (s.feVc x == s.feVc y && s.feDt x == s.feDt y)) &&
    (s.feSource x != srcEth || s.streamRing x == s.streamRing y)

/-- The codec session is a decode session that is open for a ring (R260, R274). -/
def State.sessionOf (s : State) (r : Fin 8) (n : Nat) : Bool :=
  let x : Fin 16 := ⟨n % 16, by omega⟩
  (s.reg (.cdcSessionDesc x 0)).toNat % 256 == 2 && s.fld (.cdcSessionStatus x) F.cdcSessionStatus_STATE != 0 && s.fld (.cdcSessionStatus x) F.cdcSessionStatus_RING == r.val

/-- The source is busy, or the endpoint or the decode session is not the ring's own (R260). -/
def State.feBusy (s : State) (r : Fin 8) (x : Fin 64) : Bool :=
  ((List.finRange 64).any fun y => y != x && s.feState y == feEnabled && s.sameSource x y) ||
    (s.feSource x == srcEth && !s.epValid r (s.feUnit x)) || (s.feSource x == srcCodec && !s.sessionOf r (s.feUnit x))

/-- The enabled ISP contexts. -/
def State.ispContexts (s : State) : List (Fin 64) := (List.finRange 64).filter fun y => s.feState y == feEnabled && s.feIsp y

/-- The declared pixel rate of a context. -/
def State.feRate (s : State) (x : Fin 64) : Nat := s.feInW x * s.feInH x * s.feFps x

/-- The REFUSE_CAUSE of an ENABLE, 0 where it passes; the first failing row governs (R260). -/
def State.feCause (s : State) (x : Fin 64) : Nat :=
  match s.streamRing x with
  | none => 7
  | some r =>
    if s.feState x ≠ feDisabled then 7
    else if !(s.feFields x && s.feSizes x && s.feViewOk x) then 1
    else if !s.feRanges r x then 5
    else if s.feBusy r x then 4
    else if s.feIsp x ∧ 48 ≤ s.ispContexts.length then 2
    else if s.feIsp x ∧ 12000000000 < s.ispContexts.foldl (fun n y => n + s.feRate y) (s.feRate x) then 3
    else 0

/-- The release flags of a context. -/
def State.feReleases (s : State) (x : Fin 64) : List (Fin 256) :=
  (List.range (s.feBuffers x)).map fun k => ⟨(s.feRelease x + k) % 256, by omega⟩

/-- The front end sets a ring flag through its crossing (R23, R127). -/
def State.feSet (s : State) (r : Fin 8) (n : Fin 256) : State := s.crossPut .feToConcourse (.setFlag r n)

/-- A buffer of a context is free again. -/
def State.freeBuffer (s : State) (x : Fin 64) (k : Nat) : State :=
  match s.streamRing x with
  | some r => s.feSet r ⟨(s.feRelease x + k) % 256, by omega⟩
  | none => s

/-- A stream context ENABLED: its release flags set, FRAME_SEQ and its counters 0 (R260, R280). -/
def State.enableStream (s : State) (r : Fin 8) (x : Fin 64) : State :=
  ((s.feReleases x).foldl (fun s n => s.feSet r n)
    ((s.setFld (.feStreamStatus x) F.feStreamStatus_STATE feEnabled).setRegs
      [(.feStreamDropped x, 0), (.feStreamTsLate x, 0)])).onStream x fun k =>
        { k with frameSeq := 0, opened := none, ready := [], times := [], delivered := [], lastStart := none, views := [] }

/-- ENABLE. -/
def State.feEnable (s : State) (x : Fin 64) : State :=
  match s.feCause x, s.streamRing x with
  | 0, some r => s.enableStream r x
  | cause, _ => (s.setFld (.feStreamStatus x) F.feStreamStatus_REFUSE_CAUSE cause).setFld (.feStreamStatus x)
      F.feStreamStatus_REFUSED 1

/-- The receiver has a frame open (R280). -/
def State.rxActive (s : State) (rx : Fin 16) : State :=
  s.setFld (.feRxStatus rx) F.feRxStatus_ACTIVE (bitNat ((List.finRange 64).any fun x =>
    s.feState x == feEnabled && s.feSource x == srcCsi && s.feUnit x == rx.val && (s.stream x).opened.isSome))

/-- ACTIVE of a context's receiver brought up to date. -/
def State.rxOf (s : State) (x : Fin 64) : State :=
  if s.feSource x = srcCsi then s.rxActive ⟨s.feUnit x % 16, by omega⟩ else s

/-- Every frame of a context abandoned: its buffer is free (R260). -/
def State.abandonFrames (s : State) (x : Fin 64) : State :=
  let k := s.stream x
  let held := k.ready ++ k.opened.toList
  (held.foldl (fun s f => s.freeBuffer x f.buffer) (s.onStream x fun k => { k with opened := none, ready := [] })).rxOf x

/-- DISABLE. -/
def State.feDisable (s : State) (x : Fin 64) : State :=
  if s.feState x = feEnabled then
    (s.abandonFrames x).setFld (.feStreamStatus x) F.feStreamStatus_STATE feDisabling
  else s

/-- COMMIT: the shadow takes effect at the next Frame Start (R271). -/
def State.feCommit (s : State) (x : Fin 64) : State := s.onStream x fun k => { k with commit := true }

/-- FE_STREAM_CTRL: 1 ENABLE, 2 DISABLE, 3 COMMIT (R280). -/
def State.feRequest (s : State) (x : Fin 64) (op : Nat) : State :=
  match op with
  | 1 => s.feEnable x
  | 2 => s.feDisable x
  | 3 => s.feCommit x
  | _ => s

/-- A request through FE_STREAM_CTRL (R56, R260, R313): a context of no ring refuses ENABLE with STATE. -/
def State.feControl (s : State) (who : Who) (x : Fin 64) (op : Nat) : State × Nat :=
  match s.streamRing x with
  | some r => s.request r who (BitVec.ofNat 32 (Reg.feStreamCtrl x).addr) (keyWord op) fun s => (s.feRequest x op, stOk)
  | none => (s.feRequest x op, stOk)

/-- STREAM_ENABLE. -/
def execStreamEnable (ctx : Fin 64) (who : Who) (s : State) : Host.Outcome State Fault Refusal :=
  .next (s.feControl who ctx 1).1

/-- STREAM_DISABLE. -/
def execStreamDisable (ctx : Fin 64) (who : Who) (s : State) : Host.Outcome State Fault Refusal :=
  .next (s.feControl who ctx 2).1

/-- STREAM_COMMIT. -/
def execStreamCommit (ctx : Fin 64) (who : Who) (s : State) : Host.Outcome State Fault Refusal :=
  .next (s.feControl who ctx 3).1

/-- The context is DISABLED: its outstanding writes are complete (R260). -/
def State.streamOff (s : State) (x : Fin 64) : State := s.setFld (.feStreamStatus x) F.feStreamStatus_STATE feDisabled

/-- STREAM_DISABLE_DONE: a context that is not DISABLING stays as it is. -/
def execStreamDisableDone (ctx : Fin 64) (s : State) : Host.Outcome State Fault Refusal :=
  .next (if s.feState ctx = feDisabling then s.streamOff ctx else s)

/-! ## Drops (R266) -/

/-- A frame dropped: LAST_DROP, DROPPED, the count. -/
def State.dropFrame (s : State) (x : Fin 64) (cause : Nat) : State :=
  ((s.setFld (.feStreamStatus x) F.feStreamStatus_LAST_DROP cause).setFld (.feStreamStatus x)
    F.feStreamStatus_DROPPED 1).bump (.feStreamDropped x) F.feStreamDropped_COUNT 1

/-- STATUS with a bit set. -/
def OpenFrame.mark (f : OpenFrame) (bit : Nat) : OpenFrame := { f with status := f.status ||| (1#16).shiftLeft bit }

/-- A frame that carries a mark: STATUS bits 1 to 6 (R280). -/
def OpenFrame.marked (f : OpenFrame) : Bool := f.status.extractLsb' 1 6 != 0

/-- A condition of R267 marks the frame: STATUS bits 1 to 5; DAMAGED is the mark of R278. -/
def OpenFrame.malformed (f : OpenFrame) : Bool := f.status.extractLsb' 1 5 != 0

/-- The bits of STATUS (R263). -/
abbrev fsTsMissing : Nat := 0
abbrev fsCrc : Nat := 1
abbrev fsShort : Nat := 2
abbrev fsMissing : Nat := 3
abbrev fsExtra : Nat := 4
abbrev fsNoEnd : Nat := 5
abbrev fsDamaged : Nat := 6

/-! ## Buffers (R261, R262) -/

/-- Bytes written into buffer `k` of a context at an offset (R261, R265). -/
def State.fePut (s : State) (x : Fin 64) (k o : Nat) (d : List Byte) : State :=
  match s.streamRing x with
  | some r => (s.bufWrite r (s.feBase x) (s.feBuffer x k + o) (cleanBytes d)).1
  | none => s

/-- Payload bytes written under COPY; what exceeds the buffer is discarded (R261; log 51). -/
def State.payloadPut (s : State) (x : Fin 64) (k o : Nat) (d : List Byte) : State :=
  s.fePut x k (512 + o) (d.take (s.feRoom x - o))

/-- The buffer of the next frame: FRAME_SEQ mod BUFFERS, counted past the frames that wait for delivery (R262). -/
def State.nextBuffer (s : State) (x : Fin 64) : Nat :=
  ((s.stream x).frameSeq.toNat + (s.stream x).ready.length) % s.feBuffers x

/-- The release flag of a buffer. -/
def State.bufferFlag (s : State) (x : Fin 64) (k : Nat) : Fin 256 := ⟨(s.feRelease x + k) % 256, by omega⟩

/-! ## The end of a frame (R267, R269, R272) -/

/-- Where a context's frames enter the pipeline (R269): RAW at stage 1; a codec's pictures and YUV422 as YCbCr; RGB888, and
user-defined types (log 14), as they come. -/
def State.ispEnter (s : State) (x : Fin 64) : IspInput :=
  if s.feSource x = srcCsi then
    if isRaw (s.feDt x) then .raw else if s.feDt x = 0x1E then .ycc else .rgb
  else .ycc

/-- The format of a context's input: its data type, or 256 and the depth of its decode session (R273, R275). -/
def State.inputFormat (s : State) (x : Fin 64) : Nat :=
  if s.feSource x = srcCsi then s.feDt x
  else 256 + (s.reg (.cdcSessionDesc ⟨s.feUnit x % 16, by omega⟩ 0)).toNat / 65536 % 256

/-- The lines of a frame as the pipeline takes them. -/
def State.ispJob (s : State) (x : Fin 64) (lines : List (List Byte)) : IspJob :=
  ⟨Config.ispParams (s.ispSet x), s.ispEnter x, s.feInW x, s.feInH x, s.feOutW x, s.feOutH x,
    Config.ispInput (s.feDesc x) (s.inputFormat x) lines⟩

/-- Row `y` of plane `p` of an ISP frame, at its pitch. -/
def State.rowPut (s : State) (x : Fin 64) (f : OpenFrame) (p y : Nat) : State :=
  s.fePut x f.buffer (512 + p * s.fePlane x + y * s.fePitch x) ((s.ispJob x f.lines).row (s.feFmt x == 1) p y)

/-- The rows below `n` that have not been written yet, of every plane: they land as the frame comes in (R28). -/
def State.rowsPut (s : State) (x : Fin 64) (f : OpenFrame) (n : Nat) : State × OpenFrame :=
  let n := min n (s.feOutH x)
  (((List.range (n - f.rows)).map (f.rows + ·)).foldl (fun s y =>
    (List.range (s.fePlanes x)).foldl (fun s p => s.rowPut x f p y) s) s, { f with rows := max n f.rows })

/-- The rows that are left and the statistics of an ISP frame (R269, R272). -/
def State.ispPut (s : State) (x : Fin 64) (f : OpenFrame) : State :=
  (s.rowsPut x f (s.feOutH x)).1.fePut x f.buffer 64 (s.ispJob x f.lines).stats

/-- The encode session that reads a context's views (R275, R277). -/
def State.encoderOf (s : State) (x : Fin 64) : Option (Fin 16) :=
  (List.finRange 16).find? fun c =>
    s.fld (.cdcSessionStatus c) F.cdcSessionStatus_STATE == 1 && (s.reg (.cdcSessionDesc c 0)).toNat % 256 == 1 &&
      (s.reg (.cdcSessionDesc c 0)).toNat / 16777216 == x.val

/-- The view of an ISP frame: written, or skipped where the encoder has not read its buffer yet (R269, R277). -/
def State.viewPut (s : State) (x : Fin 64) (f : OpenFrame) : State × Bool :=
  if !s.feViewOn x then (s, false)
  else if (s.stream x).views.any fun v => v.buffer == f.buffer then
    (match s.encoderOf x with
      | some c => (s.bump (.cdcEncSkipped c) F.cdcEncSkipped_COUNT 1).onSession c fun k => { k with skipped := true }
      | none => s, false)
  else match s.streamRing x with
    | some r =>
      let j := s.ispJob x f.lines
      let d := (List.range (s.feViewBytes x)).map fun i => j.viewByte (s.feViewW x) (s.feViewH x) (s.feViewFmt x == 1) i
      ((s.dramWrite (.boothFor r) (noCommand r) 0 (s.feView x + f.buffer * s.feViewStride x) (cleanBytes d)).1, true)
    | none => (s, false)

/-- The timestamp entry that a frame takes, and the entries left (R268: HOST). -/
def takeTime (number : BitVec 16) (l : List (BitVec 16 × DWord)) : Option DWord × List (BitVec 16 × DWord) :=
  if number = 0 then (l.head?.map fun e => e.2, l.drop 1)
  else match l.findIdx? fun e => e.1 == number with
    | some i => (l[i]?.map fun e => e.2, l.drop (i + 1))
    | none => (none, l)

/-- A received frame with its timestamp, or waiting for the host's (R268). -/
def State.stampFrame (s : State) (x : Fin 64) (f : OpenFrame) : State × OpenFrame :=
  if s.feTsSource x = 1 then
    match takeTime f.number (s.stream x).times with
    | (some t, rest) => (s.onStream x fun k => { k with times := rest }, { f with stamp := some t })
    | (none, _) => (s, { f with stamp := none, waitTs := decide (0 < s.feTsWait x) })
  else (s, f)

/-- ON_ERROR drops a frame that a condition of R267 marks (R266). -/
def State.dropsFrame (s : State) (x : Fin 64) (f : OpenFrame) : Bool := s.feDropBad x && f.malformed

/-- A frame that is complete goes to delivery (R264, R267). -/
def State.closeFrame (s : State) (x : Fin 64) (f : OpenFrame) : State :=
  let s0 := s.onStream x fun k => { k with opened := none }
  let s1 := if s.feIsp x then s0.ispPut x f else s0
  let (s2, seen) := if s.feIsp x then s1.viewPut x f else (s1, false)
  let (s3, g) := s2.stampFrame x { f with view := seen }
  s3.onStream x fun k => { k with ready := k.ready ++ [g] }

/-- The lines that a CSI frame lacks are zero (R267). -/
def State.fillLines (s : State) (x : Fin 64) (f : OpenFrame) : State × OpenFrame :=
  let miss := s.feInH x - f.count
  let n := s.feLineBytes x
  if miss = 0 then (s, f)
  else
    let g := { f.mark fsMissing with
      bad := f.bad + miss
      lines := if s.feIsp x then f.lines ++ List.replicate miss (List.replicate n 0) else f.lines
      outBytes := if s.feIsp x then 0 else min (s.feInH x * n) (s.feRoom x) }
    (if s.feIsp x then s else s.payloadPut x f.buffer (f.count * n) (List.replicate (miss * n) 0), g)

/-- The parts of `0` to `n` that no received range covers, in byte numbers. -/
def gapBytes (n : Nat) (got : List (Nat × Nat)) : List Nat :=
  (List.range n).filter fun i => !(got.any fun g => decide (g.1 ≤ i) && decide (i < g.2))

/-- The missing bytes of an ETH frame are zero (R267). -/
def State.fillGaps (s : State) (x : Fin 64) (f : OpenFrame) : State × OpenFrame :=
  let gaps := gapBytes f.outBytes f.got
  if gaps.isEmpty then (s, f)
  else (gaps.foldl (fun s i => s.payloadPut x f.buffer i [0]) s, f.mark fsMissing)

/-- How a frame ends: at Frame End or its last chunk, without one, or because the line buffer overflowed (R266, R267). -/
inductive FrameEnd where
  | ended
  | noEnd
  | overflow
  deriving DecidableEq, Repr

/-- The LAST_DROP of a frame that its end drops. -/
def FrameEnd.cause : FrameEnd → Nat
  | .ended => 3
  | .noEnd => 3
  | .overflow => 5

/-- The open frame of a context with what it lacks zero-filled; an overflow shows as MISSING_DATA (R266, R267; log 132). -/
def State.fillFrame (s : State) (x : Fin 64) (how : FrameEnd) (f : OpenFrame) : State × OpenFrame :=
  let f1 := match how with
    | .ended => f
    | .noEnd => f.mark fsNoEnd
    | .overflow => f.mark fsMissing
  if s.feSource x = srcCsi then s.fillLines x f1 else s.fillGaps x f1

/-- The open frame of a context ends: it goes to delivery, or is dropped and its buffer is the context's again, which is
returned (R264, R266, R267). -/
def State.finishFrame (s : State) (x : Fin 64) (how : FrameEnd) : State × Option Nat :=
  match (s.stream x).opened with
  | none => (s, none)
  | some f =>
    let (s1, g) := s.fillFrame x how f
    if s.dropsFrame x g then
      (((s1.onStream x fun k => { k with opened := none }).dropFrame x how.cause).rxOf x, some g.buffer)
    else ((s1.closeFrame x g).rxOf x, none)

/-- The open frame of a context ends; a dropped one's buffer is free (R266). -/
def State.endFrame (s : State) (x : Fin 64) (how : FrameEnd) : State :=
  match s.finishFrame x how with
  | (s1, some k) => s1.freeBuffer x k
  | (s1, none) => s1

/-! ## The start of a frame (R262, R266, R271) -/

/-- A COMMIT takes effect (R271). -/
def State.applyCommit (s : State) (x : Fin 64) : State :=
  if (s.stream x).commit then
    let l := s.ispShadow x
    s.onStream x fun k => { k with commit := false, ispActive := smWrite 0 k.ispActive 0 l }
  else s

/-- A frame start comes too early after the previous accepted one (R266). -/
def State.tooEarly (s : State) (x : Fin 64) : Bool :=
  match (s.stream x).lastStart with
  | some t => decide ((s.count 33 - t).toNat * s.feFps x < 1140000000)
  | none => false

/-- The cause for which a frame is dropped at its start, 0 where it is accepted: no free buffer, too early, a parked ring
(R266). A buffer that the context holds itself, of the frame that this start has ended, needs no flag (R267). -/
def State.startCause (s : State) (r : Fin 8) (x : Fin 64) (kept : Bool) : Nat :=
  if !kept && !s.ringFlag r (s.bufferFlag x (s.nextBuffer x)) then 1
  else if s.tooEarly x then 2
  else if s.holdsWrites r then 4
  else 0

/-- A frame begins in the next buffer, whose release flag is cleared (R262). -/
def State.beginFrame (s : State) (r : Fin 8) (x : Fin 64) (number : BitVec 16) (stamp : Option DWord) : State :=
  let k := s.nextBuffer x
  ((s.clearRingFlag r (s.bufferFlag x k)).onStream x fun c =>
    { c with
      lastStart := some (s.count 33)
      opened := some
        { buffer := k, number := number, start := s.count 33, stamp := stamp, status := 0, bad := 0
          count := 0, lines := [], rows := 0, got := [], outBytes := 0, sawLine := false, sawEmb := false, waitTs := false, view := false } }).rxOf x

/-- Frame Start on a context: an open frame ends, a COMMIT takes effect, and the frame begins or is dropped. The buffer of an
open frame that is dropped is the next buffer, and the new frame takes it (R266, R267). -/
def State.startFrame (s : State) (x : Fin 64) (number : BitVec 16) (stamp : Option DWord) : State :=
  let (s0, kept) := s.finishFrame x .noEnd
  let s1 := s0.applyCommit x
  match s1.streamRing x with
  | none => s1
  | some r => match s1.startCause r x kept.isSome, kept with
    | 0, _ => s1.beginFrame r x number stamp
    | cause, none => s1.dropFrame x cause
    | cause, some k => (s1.dropFrame x cause).freeBuffer x k

/-! ## CSI-2 packets (R257, R267) -/

/-- The receiver is on (R256). -/
def State.rxOn (s : State) (rx : Fin 16) : Bool := s.fld (.feRxStatus rx) F.feRxStatus_MODE != 0

/-- The enabled contexts of a packet's virtual channel: none where its extension bits are nonzero (R257). -/
def State.vcContexts (s : State) (rx : Fin 16) (h : CsiHead) : List (Fin 64) :=
  (List.finRange 64).filter fun x => !h.vcExt &&
    s.feState x == feEnabled && s.feSource x == srcCsi && s.feUnit x == rx.val && s.feVc x == h.vc.val

/-- A packet discarded and counted (R257, R267). -/
def State.rxDiscard (s : State) (rx : Fin 16) : State := s.bump (.feRxDropped rx) F.feRxDropped_COUNT 1

/-- A packet that no enabled context names (R257). -/
def State.rxUnbound (s : State) (rx : Fin 16) : State :=
  (s.rxDiscard rx).setFld (.feRxStatus rx) F.feRxStatus_UNBOUND 1

/-- A flag of FE_RX_STATUS set under a condition. -/
def State.rxFlag (s : State) (rx : Fin 16) (f : Fld) (b : Bool) : State :=
  if b then s.setFld (.feRxStatus rx) f 1 else s

/-- A packet whose header is used, one bit of it corrected or none (R267). -/
def State.rxHead (s : State) (rx : Fin 16) (h : CsiHead) : State := s.rxFlag rx F.feRxStatus_ECC_FIXED h.fixed

/-- A Frame Start on a virtual channel. -/
def State.frameStart (s : State) (rx : Fin 16) (h : CsiHead) (frame : BitVec 16) : State :=
  match s.vcContexts rx h with
  | [] => (s.rxHead rx h).rxUnbound rx
  | l => l.foldl (fun s x => s.startFrame x frame none) (s.rxHead rx h)

/-- CSI_FRAME_START: a receiver that is off sees nothing (R256). -/
def execCsiFrameStart (rx : Fin 16) (head : CsiHead) (frame : BitVec 16) (s : State) : Host.Outcome State Fault Refusal :=
  .next (if s.rxOn rx then s.frameStart rx head frame else s)

/-- An image line of an open frame (R267). -/
def State.takeLine (s : State) (x : Fin 64) (f : OpenFrame) (payload : List Byte) (crcOk : Bool) : State :=
  let n := s.feLineBytes x
  let f0 := { f with sawLine := true, count := f.count + 1 }
  if s.feInH x ≤ f.count then
    (s.onStream x fun k => { k with opened := some (f0.mark fsExtra) }).rxDiscard ⟨s.feUnit x % 16, by omega⟩
  else
    let short := decide (payload.length < n)
    let line := padTo n 0 payload
    let f1 := if crcOk then f0 else f0.mark fsCrc
    let f2 := if short then f1.mark fsShort else f1
    let g := { f2 with
      bad := f2.bad + bitNat (short || !crcOk)
      lines := if s.feIsp x then f2.lines ++ [line] else f2.lines
      outBytes := if s.feIsp x then 0 else min ((f.count + 1) * n) (s.feRoom x) }
    if s.feIsp x then
      let (s1, h) := s.rowsPut x g (Config.ispRows (s.feDesc x) (f.count + 1))
      s1.onStream x fun k => { k with opened := some h }
    else (s.onStream x fun k => { k with opened := some g }).payloadPut x f.buffer (f.count * n) line

/-- A line that finds its line buffer full, because ingest writes back up, is lost and ends its frame (R265, R266). -/
def State.lineLost (s : State) (rx : Fin 16) (x : Fin 64) : State :=
  (s.rxFlag rx F.feRxStatus_OVERFLOW true).endFrame x .overflow

/-- A long packet of image data: the line of the frame open on its context, or discarded. -/
def State.longPacket (s : State) (rx : Fin 16) (h : CsiHead) (dt : Byte) (payload : List Byte) (check : LineCheck) : State :=
  let s1 := (s.rxHead rx h).rxFlag rx F.feRxStatus_CRC_ERR (!check.crcOk)
  match (s.vcContexts rx h).find? fun x => s.feDt x == dt.toNat with
  | none => s1.rxUnbound rx
  | some x => match (s1.stream x).opened with
    | some f => if check.overflow then s1.lineLost rx x else s1.takeLine x f payload check.crcOk
    | none => s1

/-- CSI_LONG_PACKET. -/
def execCsiLongPacket (rx : Fin 16) (vc : Fin 4) (vcExt fixed : Bool) (dt : Byte) (payload : List Byte) (check : LineCheck)
    (s : State) : Host.Outcome State Fault Refusal :=
  .next (if s.rxOn rx then s.longPacket rx ⟨vc, vcExt, fixed⟩ dt payload check else s)

/-- The timestamp that an embedded-data packet holds for a context: none where the packet is too short (R268). -/
def State.embeddedStamp (s : State) (x : Fin 64) (d : List Byte) : Option DWord :=
  let b := part d (s.feTsOffset x) 8
  if b.length < 8 then none
  else some (BitVec.ofNat 64 (if s.feTsBig x then beVal b else leVal b))

/-- The first embedded-data packet of a frame before its first image line gives the timestamp (R268). -/
def State.embeddedData (s : State) (rx : Fin 16) (h : CsiHead) (d : List Byte) (crcOk : Bool) : State :=
  let s1 := (s.rxHead rx h).rxFlag rx F.feRxStatus_CRC_ERR (!crcOk)
  match s1.vcContexts rx h with
  | [] => s1.rxUnbound rx
  | l => l.foldl (fun s x => match (s.stream x).opened with
    | some f =>
      if s.feTsSource x = 0 ∧ !f.sawLine ∧ !f.sawEmb then
        s.onStream x fun k => { k with opened := some { f with stamp := s.embeddedStamp x d, sawEmb := true } }
      else s
    | none => s) s1

/-- CSI_EMBEDDED_DATA. -/
def execCsiEmbeddedData (rx : Fin 16) (head : CsiHead) (bytes : List Byte) (crcOk : Bool) (s : State) :
    Host.Outcome State Fault Refusal :=
  .next (if s.rxOn rx then s.embeddedData rx head bytes crcOk else s)

/-- A Frame End on a virtual channel. -/
def State.frameEnd (s : State) (rx : Fin 16) (h : CsiHead) : State :=
  match s.vcContexts rx h with
  | [] => (s.rxHead rx h).rxUnbound rx
  | l => l.foldl (fun s x => s.endFrame x .ended) (s.rxHead rx h)

/-- CSI_FRAME_END. -/
def execCsiFrameEnd (rx : Fin 16) (head : CsiHead) (s : State) : Host.Outcome State Fault Refusal :=
  .next (if s.rxOn rx then s.frameEnd rx head else s)

/-- A burst discarded at the PHY (R267). -/
def State.sotError (s : State) (rx : Fin 16) : State := (s.rxFlag rx F.feRxStatus_SOT_ERR true).rxDiscard rx

/-- CSI_SOT_ERROR. -/
def execCsiSotError (rx : Fin 16) (s : State) : Host.Outcome State Fault Refusal :=
  .next (if s.rxOn rx then s.sotError rx else s)

/-- A packet whose header has two bits in error (R267). -/
def State.eccBad (s : State) (rx : Fin 16) : State := (s.rxFlag rx F.feRxStatus_ECC_BAD true).rxDiscard rx

/-- CSI_ECC_BAD. -/
def execCsiEccBad (rx : Fin 16) (s : State) : Host.Outcome State Fault Refusal :=
  .next (if s.rxOn rx then s.eccBad rx else s)

/-- FRAME_END_TIMEOUT: two frame periods have passed since Frame Start (R267); without an open frame nothing happens. -/
def execFrameEndTimeout (ctx : Fin 64) (s : State) : Host.Outcome State Fault Refusal :=
  .next (if s.feState ctx = feEnabled then s.endFrame ctx .noEnd else s)

/-! ## Host timestamps (R268) -/

/-- A FRAME_TIME for an enabled context of a ring: it ends the wait of its frame, is discarded after its frame's delivery,
or is held. -/
def State.holdTime (s : State) (x : Fin 64) (number : BitVec 16) (stamp : DWord) : State :=
  let k := s.stream x
  match k.ready.findIdx? fun f => f.waitTs && (f.number == number || f.number == 0) with
  | some i => s.onStream x fun k =>
      { k with ready := k.ready.modify i fun f => { f with stamp := some stamp, waitTs := false } }
  | none =>
    if k.delivered.contains number then s.bump (.feStreamTsLate x) F.feStreamTsLate_COUNT 1
    else if 8 ≤ k.times.length then
      (s.onStream x fun k => { k with times := k.times.drop 1 ++ [(number, stamp)] }).bump (.feStreamTsLate x)
        F.feStreamTsLate_COUNT 1
    else s.onStream x fun k => { k with times := k.times ++ [(number, stamp)] }

/-- The wait of the oldest frame that waits for a timestamp ends. -/
def State.endWait (s : State) (x : Fin 64) : State :=
  match (s.stream x).ready.findIdx? fun f => f.waitTs with
  | some i => s.onStream x fun k => { k with ready := k.ready.modify i fun f => { f with waitTs := false } }
  | none => s

/-- TS_WAIT_EXPIRY. -/
def execTsWaitExpiry (ctx : Fin 64) (s : State) : Host.Outcome State Fault Refusal := .next (s.endWait ctx)

/-! ## Delivery (R263, R264) -/

/-- PLANE_EXP of the record: bytes 0 to 2 (R263). -/
def State.planeExp (s : State) (x : Fin 64) : Nat := (if s.feFmt x = 0 then s.feExp x else 127) * 0x010101

/-- The STATUS of a frame as it is delivered. -/
def OpenFrame.finalStatus (f : OpenFrame) : BitVec 16 := if f.stamp.isNone then (f.mark fsTsMissing).status else f.status

/-- The frame numbers delivered since they last fell, with one more; a camera that sends 0 does not number its frames (R268;
log 133). -/
def noteNumberOf (number : BitVec 16) (l : List (BitVec 16)) : List (BitVec 16) :=
  if number = 0 then l
  else match l with
    | n :: _ => if n.toNat < number.toNat then number :: l else [number]
    | [] => [number]

/-- The 64-byte frame record (R263), the last write of its frame: END_COUNT is the counter as it is issued. -/
def State.frameRecord (s : State) (x : Fin 64) (f : OpenFrame) : List Byte :=
  leBytes 8 (f.stamp.getD 0).toNat ++ leBytes 4 (s.stream x).frameSeq.toNat ++ leBytes 2 f.number.toNat ++
    leBytes 2 f.finalStatus.toNat ++ leBytes 4 f.bad ++ leBytes 4 f.count ++ leBytes 8 f.start.toNat ++
    leBytes 4 (s.planeExp x) ++ leBytes 4 f.outBytes ++ leBytes 8 (s.count 33).toNat ++ List.replicate 16 0

/-- The view of a delivered frame waits for the encoder (R277). -/
def State.queueView (s : State) (x : Fin 64) (f : OpenFrame) : State :=
  if f.view && (s.encoderOf x).isSome then
    s.onStream x fun k => { k with views := k.views ++ [⟨f.buffer, f.stamp.getD 0, k.frameSeq⟩] }
  else s

/-- A frame delivered: its record, then DONE_FLAG, then the FRAME trigger, in that order through the crossings (R264). -/
def State.deliverFrame (s : State) (r : Fin 8) (x : Fin 64) (f : OpenFrame) : State :=
  let s1 := s.fePut x f.buffer 0 (s.frameRecord x f)
  let s2 := (s1.queueView x f).onStream x fun k =>
    { k with ready := k.ready.drop 1, frameSeq := k.frameSeq + 1, delivered := noteNumberOf f.number k.delivered }
  let s3 := if f.stamp.isNone then s2.setFld (.feStreamStatus x) F.feStreamStatus_TS_MISSING 1 else s2
  let s4 := if f.marked then s3.setFld (.feStreamStatus x) F.feStreamStatus_MARKED 1 else s3
  (s4.feSet r ⟨s.feDone x % 256, by omega⟩).crossPut .feToConcourse (.trigger r 2 x.val (f.stamp.getD 0))

/-- FRAME_DELIVER: the oldest frame received, unless it waits for its timestamp. -/
def execFrameDeliver (ctx : Fin 64) (s : State) : Host.Outcome State Fault Refusal :=
  .next (match s.streamRing ctx, (s.stream ctx).ready with
    | some r, f :: _ => if f.waitTs then s else s.deliverFrame r ctx f
    | _, _ => s)

/-! ## ETH frames (R308) -/

/-- The enabled ETH context of an endpoint. -/
def State.ethContext (s : State) (r e : Fin 8) : Option (Fin 64) :=
  (List.finRange 64).find? fun x =>
    s.feState x == feEnabled && s.feSource x == srcEth && s.feUnit x == e.val && s.streamRing x == some r

/-- The timestamp of a frame's first chunk (R268: MESSAGE). -/
def State.messageStamp (s : State) (x : Fin 64) (stamp : DWord) : Option DWord :=
  if s.feTsSource x = 2 then some stamp else none

/-- A chunk of an ETH frame written at its place (R261, R307). -/
def State.ethBytes (s : State) (x : Fin 64) (o : Nat) (d : List Byte) : State :=
  match (s.stream x).opened with
  | none => s
  | some f =>
    let stop := min (o + d.length) (s.feRoom x)
    (s.payloadPut x f.buffer o d).onStream x fun k => { k with opened := some { f with
      got := f.got ++ [(o, stop)], outBytes := max f.outBytes stop } }

end Sys2Proof.Machine
end

