-- ==== Sys2Proof/Machine/Codec.lean ====
section
/-! DEFINITION. Codec sessions: OPEN and CLOSE (R273 to R275), the bitstream buffer (R276), encoding (R277) and decoding
(R278). -/

namespace Sys2Proof.Machine

/-! ## Descriptors (R275) -/

/-- A field of a session's descriptor. -/
def State.cdcAt (s : State) (c : Fin 16) (o n : Nat) : Nat :=
  leAt ((List.finRange 8).flatMap fun k => leBytes 4 (s.reg (.cdcSessionDesc c k)).toNat) o n

def State.cdcKind (s : State) (c : Fin 16) : Nat := s.cdcAt c 0x00 1
def State.cdcCodec (s : State) (c : Fin 16) : Nat := s.cdcAt c 0x01 1
def State.cdcContext (s : State) (c : Fin 16) : Nat := s.cdcAt c 0x03 1
def State.cdcWidth (s : State) (c : Fin 16) : Nat := s.cdcAt c 0x04 2
def State.cdcHeight (s : State) (c : Fin 16) : Nat := s.cdcAt c 0x06 2
def State.cdcFps (s : State) (c : Fin 16) : Nat := s.cdcAt c 0x08 1
def State.cdcDone (s : State) (c : Fin 16) : Nat := s.cdcAt c 0x0B 1
def State.cdcUnit (s : State) (c : Fin 16) : Nat := s.cdcAt c 0x14 2
def State.cdcUnits (s : State) (c : Fin 16) : Nat := s.cdcAt c 0x16 2

/-- The states of a session (R280). -/
abbrev cdcClosed : Nat := 0
abbrev cdcOpened : Nat := 1
abbrev cdcError : Nat := 2

/-- The state of a session. -/
def State.cdcState (s : State) (c : Fin 16) : Nat := s.fld (.cdcSessionStatus c) F.cdcSessionStatus_STATE

/-- The state with a session's state set. -/
def State.setCdc (s : State) (c : Fin 16) (st : Nat) : State :=
  s.setFld (.cdcSessionStatus c) F.cdcSessionStatus_STATE st

/-- The state with a session's CAUSE set. -/
def State.setCdcCause (s : State) (c : Fin 16) (cause : Nat) : State :=
  s.setFld (.cdcSessionStatus c) F.cdcSessionStatus_CAUSE cause

/-- The ring that a session belongs to while it is not CLOSED (R274). -/
def State.cdcRing (s : State) (c : Fin 16) : Fin 8 := ⟨s.fld (.cdcSessionStatus c) F.cdcSessionStatus_RING % 8, by omega⟩

/-- The ring for which an endpoint opens a session or a channel: its own; the lowest ring that names the internal endpoint
(log 52). -/
def State.whoRing (s : State) : Who → Option (Fin 8)
  | .ep g _ => some g
  | .internal => (List.finRange 8).find? fun r => (s.internalEp r).isSome
  | .booth => none

/-! ## OPEN and CLOSE (R273 to R275) -/

/-- The fields of a session's descriptor lie in their ranges (R273, R275). -/
def State.cdcFields (s : State) (c : Fin 16) : Bool :=
  let encode := s.cdcKind c == 1
  within 1 2 (s.cdcKind c) && decide (s.cdcCodec c ≤ 1) && [8, 10].contains (s.cdcAt c 0x02 1) &&
    decide (s.cdcContext c < 64) && within 64 8192 (s.cdcWidth c) && within 64 8192 (s.cdcHeight c) &&
    decide (s.cdcWidth c * s.cdcHeight c ≤ 8912896) && within 1 120 (s.cdcFps c) && decide (192 ≤ s.cdcDone c) &&
    (!encode || (decide (s.cdcAt c 0x09 1 ≤ 2) && decide (s.cdcAt c 0x0A 1 ≤ (if s.cdcCodec c = 0 then 51 else 255)) &&
      within 1 1024 (s.cdcAt c 0x10 2))) &&
    s.cdcAt c 0x12 2 == 0 && decide (1 ≤ s.cdcUnits c) && s.cdcAt c 0x18 8 == 0

/-- The stream context and the buffer are the ring's own (R274). -/
def State.cdcRange (s : State) (r : Fin 8) (c : Fin 16) : Bool :=
  s.streamRing ⟨s.cdcContext c % 64, by omega⟩ == some r &&
    s.inRegions r (unitBytes * s.cdcUnit c) (unitBytes * s.cdcUnits c)

/-- The luma samples per second that a session declares. -/
def State.cdcRate (s : State) (c : Fin 16) : Nat := s.cdcWidth c * s.cdcHeight c * s.cdcFps c

/-- The limit of a direction (R274). -/
def cdcLimit (kind : Nat) : Nat := if kind = 1 then 1990656000 else 3981312000

/-- The luma samples per second of the open sessions of a direction. -/
def State.cdcLoad (s : State) (kind : Nat) : Nat :=
  ((List.finRange 16).filter fun d => s.cdcState d == cdcOpened && s.cdcKind d == kind).foldl (fun n d => n + s.cdcRate d) 0

/-- The CAUSE of a refused OPEN, 0 where it passes (R274, R280; log 53 for the order). -/
def State.cdcCheck (s : State) (r : Fin 8) (c : Fin 16) : Nat :=
  if !s.cdcFields c then 5
  else if !s.cdcRange r c then 4
  else if cdcLimit (s.cdcKind c) < s.cdcLoad (s.cdcKind c) + s.cdcRate c then 1
  else 0

/-- A session OPEN for a ring: its counter is 0 and nothing is encoded or decoded yet (R280). -/
def State.openSession (s : State) (r : Fin 8) (c : Fin 16) : State :=
  ((((s.setCdc c cdcOpened).setCdcCause c 0).setFld (.cdcSessionStatus c) F.cdcSessionStatus_RING r.val).setReg
    (.cdcEncSkipped c) 0).onSession c fun _ => {}

/-- OPEN; of a session that is not CLOSED it changes nothing (log 53). -/
def State.cdcOpenNow (s : State) (r : Fin 8) (c : Fin 16) : State :=
  if s.cdcState c ≠ cdcClosed then s
  else match s.cdcCheck r c with
    | 0 => s.openSession r c
    | cause => s.setCdcCause c cause

/-- The context whose views a session reads waits for no encoder any more. -/
def State.dropViews (s : State) (c : Fin 16) : State :=
  if s.cdcKind c = 1 then s.onStream ⟨s.cdcContext c % 64, by omega⟩ fun k => { k with views := [] } else s

/-- CLOSE. -/
def State.cdcCloseNow (s : State) (c : Fin 16) : State :=
  if s.cdcState c = cdcClosed then s else (s.dropViews c).setCdc c cdcClosed

/-- CDC_SESSION_CTRL: 1 OPEN, 2 CLOSE (R280). -/
def State.cdcRequest (s : State) (r : Fin 8) (c : Fin 16) (op : Nat) : State :=
  match op with
  | 1 => s.cdcOpenNow r c
  | 2 => s.cdcCloseNow c
  | _ => s

/-- A request through CDC_SESSION_CTRL: an open session takes only its ring's (R56, R274, R280, R313). -/
def State.cdcControl (s : State) (who : Who) (c : Fin 16) (op : Nat) : State × Nat :=
  match if s.cdcState c = cdcClosed then s.whoRing who else some (s.cdcRing c) with
  | some r => s.request r who (BitVec.ofNat 32 (Reg.cdcSessionCtrl c).addr) (keyWord op) fun s => (s.cdcRequest r c op, stOk)
  | none => (s, stAccessRing)

/-- CDC_OPEN. -/
def execCdcOpen (session : Fin 16) (who : Who) (s : State) : Host.Outcome State Fault Refusal :=
  .next (s.cdcControl who session 1).1

/-- CDC_CLOSE. -/
def execCdcClose (session : Fin 16) (who : Who) (s : State) : Host.Outcome State Fault Refusal :=
  .next (s.cdcControl who session 2).1

/-! ## The bitstream buffer (R276) -/

/-- The bytes of a session's buffer. -/
def State.cdcSize (s : State) (c : Fin 16) : Nat := unitBytes * s.cdcUnits c

/-- WPTR and RPTR. -/
def State.cdcW (s : State) (c : Fin 16) : Nat := (s.reg (.cdcSessionWptr c)).toNat
def State.cdcR (s : State) (c : Fin 16) : Nat := (s.reg (.cdcSessionRptr c)).toNat

/-- Where an entry of `n` bytes goes in a circular buffer, the new WPTR, and whether the end is abandoned with a WRAP: none
where it would reach RPTR. -/
def circlePlace (size write read n : Nat) : Option (Nat × Nat × Bool) :=
  if write + n ≤ size then
    let next := (write + n) % size
    if next = read || (decide (write < read) && decide (read ≤ write + n)) then none else some (write, next, false)
  else if decide (write < read) || decide (read ≤ n) then none
  else some (0, n, true)

/-- The header of an access unit (R276). -/
def unitHeader (stamp : DWord) (seq : Word) (length type status : Nat) : List Byte :=
  leBytes 8 stamp.toNat ++ leBytes 4 seq.toNat ++ leBytes 4 length ++ leBytes 1 type ++ leBytes 1 status ++
    List.replicate 14 0

/-- Bytes written to the buffer for the ring (R276). -/
def State.cdcPut (s : State) (c : Fin 16) (o : Nat) (d : List Byte) : State :=
  (s.dramWrite (.boothFor (s.cdcRing c)) (noCommand (s.cdcRing c)) 0 (unitBytes * s.cdcUnit c + o) (cleanBytes d)).1

/-- Bytes read from the buffer for the ring; bytes of a refused read are zero (R57). -/
def State.cdcGet (s : State) (c : Fin 16) (o n : Nat) : State × List Byte :=
  let (s1, d) := s.dramRead (.boothFor (s.cdcRing c)) (noCommand (s.cdcRing c)) none (unitBytes * s.cdcUnit c + o) n
  (s1, rawBytes (d.getD (List.replicate n (0, false))))

/-! ## Encoding (R277) -/

/-- The header of the next unit says that frames or units before it were skipped. -/
def State.cdcSkip (s : State) (c : Fin 16) : State :=
  (s.bump (.cdcEncSkipped c) F.cdcEncSkipped_COUNT 1).onSession c fun k => { k with skipped := true }

/-- A unit stored: its bytes, its header, then WPTR, then DONE_FLAG (R276, R277). -/
def State.storeUnit (s : State) (c : Fin 16) (v : ViewFrame) (au : CodecUnit) (place : Nat × Nat × Bool) : State :=
  let k := s.sessions[c]
  let status := bitNat au.damaged + 2 * bitNat k.skipped
  let header := unitHeader v.stamp v.seq au.bytes.length (if au.intra || k.intra then 0 else 1) status
  let s1 := if place.2.2 then s.cdcPut c (s.cdcW c) (unitHeader 0 0 0 2 0) else s
  let body := padTo (32 * ceilDiv au.bytes.length 32) 0 au.bytes
  let s2 := (s1.cdcPut c (place.1 + 32) body).cdcPut c place.1 header
  ((s2.setReg (.cdcSessionWptr c) (BitVec.ofNat 32 place.2.1)).onSession c fun k =>
    { k with skipped := false, intra := false }).feSet (s.cdcRing c) ⟨s.cdcDone c % 256, by omega⟩

/-- The encoder has read a view and completed its unit: stored, or discarded for want of space (R277). -/
def State.encodeUnit (s : State) (c : Fin 16) (x : Fin 64) (v : ViewFrame) (au : CodecUnit) : State :=
  let s1 := s.onStream x fun k => { k with views := k.views.drop 1 }
  match circlePlace (s.cdcSize c) (s.cdcW c) (s.cdcR c) (32 + 32 * ceilDiv au.bytes.length 32) with
  | some place => s1.storeUnit c v au place
  | none => (s1.cdcSkip c).onSession c fun k => { k with intra := true }

/-- ENCODE_UNIT_DONE: without an open encode session and a filled view buffer there is no unit. -/
def execEncodeUnitDone (session : Fin 16) (au : CodecUnit) (s : State) : Host.Outcome State Fault Refusal :=
  .next (
    let x : Fin 64 := ⟨s.cdcContext session % 64, by omega⟩
    match (s.stream x).views with
    | v :: _ => if s.cdcState session = cdcOpened ∧ s.cdcKind session = 1 then s.encodeUnit session x v au else s
    | [] => s)

/-! ## Decoding (R278) -/

/-- The bytes from RPTR that hold whole entries: up to WPTR, or up to the buffer's end. -/
def State.cdcAvail (s : State) (c : Fin 16) : Nat :=
  if s.cdcR c ≤ s.cdcW c then s.cdcW c - s.cdcR c else s.cdcSize c - s.cdcR c

/-- The state with RPTR moved. -/
def State.setRptr (s : State) (c : Fin 16) (o : Nat) : State := s.setReg (.cdcSessionRptr c) (BitVec.ofNat 32 o)

/-- A header is a unit's that lies before WPTR: its type 0 or 1, its reserved bytes zero (R278; log 53). -/
def headerOk (avail : Nat) (h : List Byte) : Bool :=
  decide (leAt h 16 1 ≤ 1) && decide (leAt h 17 1 < 4) && zeroTail h &&
    decide (32 + 32 * ceilDiv (leAt h 12 4) 32 ≤ avail)
where
  /-- The 14 reserved bytes. -/
  zeroTail (h : List Byte) : Bool := (part h 18 14).all fun b => b == 0

/-- The frame of a decoded picture handed to its context, with its unit's timestamp (R261, R268, R278). -/
def State.handPicture (s : State) (r : Fin 8) (x : Fin 64) (p : Picture) : State :=
  let s1 := (s.applyCommit x).beginFrame r x p.seq (s.messageStamp x p.stamp)
  match (s1.stream x).opened with
  | none => s1
  | some f =>
    let g : OpenFrame := { f with
      lines := if s.feIsp x then [p.bytes] else []
      count := s.feInH x
      outBytes := if s.feIsp x then 0 else min p.bytes.length (s.feRoom x) }
    let h := if p.damaged then g.mark fsDamaged else g
    (if s.feIsp x then s1 else s1.payloadPut x f.buffer 0 p.bytes).closeFrame x h

/-- The next buffer of a context cannot take a picture: it is not free, in a ring that is not parked (R278). -/
def State.pictureWaits (s : State) (r : Fin 8) (x : Fin 64) : Bool :=
  !s.holdsWrites r && !s.ringFlag r (s.bufferFlag x (s.nextBuffer x))

/-- A picture whose turn has come: handed over, or dropped where it comes too early or the ring is parked (R266, R278; log
134). -/
def State.showPicture (s : State) (r : Fin 8) (x : Fin 64) (p : Picture) : State :=
  if s.holdsWrites r then s.dropFrame x 4 else if s.tooEarly x then s.dropFrame x 2 else s.handPicture r x p

/-- The pictures that are due, handed over in display order until one waits for a free buffer (R273, R278). -/
def State.showDue (r : Fin 8) (c : Fin 16) (x : Fin 64) : List Picture → State → State
  | [], s => s.onSession c fun k => { k with due := [] }
  | p :: l, s =>
    if s.pictureWaits r x then s.onSession c fun k => { k with due := p :: l }
    else State.showDue r c x l (s.showPicture r x p)

/-- A unit decoded: its damage, its picture held with its own timestamp, and RPTR past it. The pictures that leave in display
order, by their places among those held, are due then (R273, R278). -/
def State.takeUnit (s : State) (c : Fin 16) (h picture : List Byte) (syntaxOk : Bool) (shown : List Nat) : State :=
  let damaged := !syntaxOk || (s.sessions[c].damaged && leAt h 16 1 != 0)
  (s.onSession c fun k =>
    let held := k.held ++ [⟨BitVec.ofNat 64 (leAt h 0 8), k.seq, picture, damaged⟩]
    { k with
      damaged := damaged
      seq := k.seq + 1
      held := (held.zipIdx.filter fun p => !shown.contains p.2).map fun p => p.1
      due := k.due ++ shown.eraseDups.filterMap fun i => held[i]? }).setRptr c
    ((s.cdcR c + 32 + 32 * ceilDiv (leAt h 12 4) 32) % s.cdcSize c)

/-- The context that a decode session feeds: enabled, with that session as its source. -/
def State.pictureContext (s : State) (c : Fin 16) : Option (Fin 64) :=
  let x : Fin 64 := ⟨s.cdcContext c % 64, by omega⟩
  if s.feState x = feEnabled ∧ s.feSource x = srcCodec ∧ s.feUnit x = c.val then some x else none

/-- The unit at RPTR with its header in hand (R278). A unit that would show a picture waits while the context's next buffer
is not free. -/
def State.decodeAt (s : State) (c : Fin 16) (h picture : List Byte) (supported syntaxOk : Bool) (shown : List Nat) : State :=
  if !headerOk (s.cdcAvail c) h then (s.setRptr c (s.cdcW c)).setCdcCause c 3
  else if !supported then (s.setCdc c cdcError).setCdcCause c 2
  else match s.pictureContext c with
    | none => s
    | some x =>
      let r := s.cdcRing c
      if !shown.isEmpty && s.pictureWaits r x then s
      else
        let s1 := s.takeUnit c h picture syntaxOk shown
        State.showDue r c x s1.sessions[c].due s1

/-- The next unit of a decode session; a WRAP header continues at offset 0 (R276). -/
def State.decodeUnitAt (s : State) (c : Fin 16) (picture : List Byte) (supported syntaxOk : Bool) (shown : List Nat) :
    State :=
  if s.cdcR c = s.cdcW c then s
  else
    let (s1, h) := s.cdcGet c (s.cdcR c) 32
    if leAt h 16 1 = 2 ∧ part h 0 16 = List.replicate 16 0 ∧ part h 17 15 = List.replicate 15 0 then
      let s2 := s1.setRptr c 0
      if s2.cdcR c = s2.cdcW c then s2
      else
        let (s3, h2) := s2.cdcGet c 0 32
        s3.decodeAt c h2 picture supported syntaxOk shown
    else s1.decodeAt c h picture supported syntaxOk shown

/-- The decoder goes on: pictures that waited for a buffer go first, and while one still waits it takes no unit (R278). -/
def State.decodeNext (s : State) (c : Fin 16) (picture : List Byte) (supported syntaxOk : Bool) (shown : List Nat) : State :=
  match s.sessions[c].due, s.pictureContext c with
  | [], _ => s.decodeUnitAt c picture supported syntaxOk shown
  | _, none => s
  | l, some x =>
    let s1 := State.showDue (s.cdcRing c) c x l s
    if s1.sessions[c].due.isEmpty then s1.decodeUnitAt c picture supported syntaxOk shown else s1

/-- DECODE_UNIT: a session that is not an open decode session takes nothing. -/
def execDecodeUnit (session : Fin 16) (picture : List Byte) (check : UnitCheck) (shown : List Nat) (s : State) :
    Host.Outcome State Fault Refusal :=
  .next (if s.cdcState session = cdcOpened ∧ s.cdcKind session = 2 then
    s.decodeNext session picture check.supported check.syntaxOk shown else s)

end Sys2Proof.Machine
end

