-- ==== Sys2Proof/Machine/Sample.lean ====
section
/-! DEFINITION. The sample pipeline: channels (R281 to R283), samples and their checks (R284 to R286), the order of work
and the decode budget (R287 to R289), delivery (R290, R291), modes and reports (R292, R293), and where events meet (R294). -/

namespace Sys2Proof.Machine

/-! ## Descriptors (R282) -/

/-- A field of a channel's descriptor. -/
def State.smpAt (s : State) (c : Fin 16) (o n : Nat) : Nat :=
  leAt ((List.finRange 16).flatMap fun k => leBytes 4 (s.reg (.smpChanDesc c k)).toNat) o n

def State.smpEndpoint (s : State) (c : Fin 16) : Nat := s.smpAt c 0x00 1
def State.smpAsk (s : State) (c : Fin 16) : Bool := bitAt (s.smpAt c 0x01 1) 0
def State.smpBuffers (s : State) (c : Fin 16) : Nat := s.smpAt c 0x02 1
def State.smpDone (s : State) (c : Fin 16) : Nat := s.smpAt c 0x03 1
def State.smpRelease (s : State) (c : Fin 16) : Nat := s.smpAt c 0x04 1
def State.smpSlots (s : State) (c : Fin 16) : Nat := s.smpAt c 0x05 1
def State.smpHigh (s : State) (c : Fin 16) : Nat := s.smpAt c 0x06 1
def State.smpLow (s : State) (c : Fin 16) : Nat := s.smpAt c 0x07 1
def State.smpStage (s : State) (c : Fin 16) : Nat := unitBytes * s.smpAt c 0x08 2
def State.smpSlotBytes (s : State) (c : Fin 16) : Nat := 65536 * s.smpAt c 0x0A 2
def State.smpMult (s : State) (c : Fin 16) : Nat := s.smpAt c 0x0C 1
def State.smpInit (s : State) (c : Fin 16) : Nat := s.smpAt c 0x0E 2
def State.smpFloor (s : State) (c : Fin 16) : Nat := s.smpAt c 0x10 4
def State.smpStride (s : State) (c : Fin 16) : Nat := s.smpAt c 0x14 4
def State.smpPlane (s : State) (c : Fin 16) : Nat := s.smpAt c 0x20 4

/-- BUF_BASE. -/
def State.smpBase (s : State) (c : Fin 16) : DWord := BitVec.ofNat 64 (s.smpAt c 0x18 8)

/-- The states of a channel (R295). -/
abbrev smpClosed : Nat := 0
abbrev smpOpened : Nat := 1
abbrev smpClosing : Nat := 2

/-- The state of a channel. -/
def State.smpState (s : State) (c : Fin 16) : Nat := s.fld (.smpChanStatus c) F.smpChanStatus_STATE

/-- The ring that a channel belongs to while it is not CLOSED (R281). -/
def State.smpRing (s : State) (c : Fin 16) : Fin 8 := ⟨s.fld (.smpChanStatus c) F.smpChanStatus_RING % 8, by omega⟩

/-- The reasons of R285 and R286. -/
abbrev smpLengthBad : Nat := 6
abbrev smpDecodeBad : Nat := 12
abbrev smpLateBad : Nat := 13
abbrev smpIncomplete : Nat := 14
abbrev smpAbandoned : Nat := 15

/-! ## OPEN (R283) -/

/-- The fields of a descriptor lie in their ranges. -/
def State.smpFields (s : State) (c : Fin 16) : Bool :=
  decide (s.smpAt c 0x01 1 ≤ 1) && within 2 8 (s.smpBuffers c) && decide (192 ≤ s.smpDone c) &&
    decide (s.smpRelease c + s.smpBuffers c ≤ 192) && within 1 64 (s.smpSlots c) && within 1 (s.smpSlots c) (s.smpHigh c) &&
    decide (s.smpLow c < s.smpHigh c) && within 1 256 (s.smpAt c 0x0A 2) && within 2 64 (s.smpMult c) &&
    s.smpAt c 0x0D 1 == 0 && decide (1 ≤ s.smpInit c) && within 100 100000 (s.smpFloor c) && s.smpStride c % 512 == 0 &&
    s.smpPlane c % 512 == 0 && s.smpAt c 0x24 28 == 0

/-- The staging area lies in one region that is not marked SPILL. -/
def State.stageInside (s : State) (r : Fin 8) (c : Fin 16) : Bool :=
  (regionsOf (s.ring r).manifest).any fun t =>
    !bitAt t.2.2 2 && decide (unitBytes * t.1 ≤ s.smpStage c) &&
      decide (s.smpStage c + s.smpSlots c * s.smpSlotBytes c ≤ unitBytes * (t.1 + t.2.1))

/-- The buffers lie in the ring's midway space or in its regions, those marked SPILL too. -/
def State.smpBuffersInside (s : State) (r : Fin 8) (c : Fin 16) : Bool :=
  let n := s.smpBuffers c * s.smpStride c
  if bufDram (s.smpBase c) then decide (bufAddr (s.smpBase c) + n ≤ s.dramSize) &&
    unitsAll (fun u => (s.unitFlags r u).isSome) (bufAddr (s.smpBase c)) n
  else decide (bufAddr (s.smpBase c) + n ≤ s.mwySize r)

/-- The staging area and the buffers lie where R283 wants them. -/
def State.smpRanges (s : State) (r : Fin 8) (c : Fin 16) : Bool :=
  s.stageInside r c && decide (512 + 3 * s.smpPlane c ≤ s.smpStride c) && s.smpBuffersInside r c

/-- The OPEN_CAUSE of a request for a ring, 0 where it passes. -/
def State.smpCause (s : State) (r : Fin 8) (c : Fin 16) : Nat :=
  if s.smpState c ≠ smpClosed ∨ !s.epValid r (s.smpEndpoint c) then 3
  else if !s.smpFields c then 1
  else if !s.smpRanges r c then 2
  else 0

/-- The sample pipeline sets a ring flag through its crossing (R23, R127). -/
def State.smpSet (s : State) (r : Fin 8) (n : Nat) : State := s.crossPut .smpToConcourse (.setFlag r ⟨n % 256, by omega⟩)

/-- A: the mean of the cost history, rounded down (R288). -/
def costMean (l : List Nat) : Nat := l.foldl (· + ·) 0 / 16

/-- SMP_CHAN_COST and OCCUPANCY brought up to date (R295). -/
def State.smpShow (s : State) (c : Fin 16) : State :=
  (s.setFld (.smpChanCost c) F.smpChanCost_AVG (min (costMean (s.chan c).history) 65535)).setFld (.smpChanStatus c)
    F.smpChanStatus_OCCUPANCY (s.chan c).samples.length

/-- A channel OPEN in mode DEVICE (R283, R295). -/
def State.openChannel (s : State) (r : Fin 8) (c : Fin 16) : State :=
  let status : Word := (s.reg (.smpChanStatus c) &&& 0x1F80000E) ||| BitVec.ofNat 32 (2 ^ 30 + r.val * 2 ^ 13)
  let s1 := (s.setReg (.smpChanStatus c) status).setRegs
    [(.smpChanDelivered c, 0), (.smpChanRefused c, 0), (.smpChanLate c, 0)]
  let s2 := s1.onChan c fun _ => { samples := [], history := List.replicate 16 (s.smpInit c), seq := 0 }
  ((List.range (s.smpBuffers c)).foldl (fun s k => s.smpSet r (s.smpRelease c + k)) s2).smpShow c

/-- OPEN. -/
def State.smpOpenNow (s : State) (r : Fin 8) (c : Fin 16) : State :=
  match s.smpCause r c with
  | 0 => s.openChannel r c
  | cause => (s.setFld (.smpChanStatus c) F.smpChanStatus_OPEN_CAUSE cause).setFld (.smpChanStatus c)
      F.smpChanStatus_OPEN_REFUSED 1

/-! ## Reports (R293) -/

/-- The mode is ASK_HOST (R292). -/
def State.smpAskHost (s : State) (c : Fin 16) : Bool := s.fld (.smpChanStatus c) F.smpChanStatus_MODE == 1

/-- What a report says of its sample. -/
structure SampleReport where
  outcome : Nat
  buffer  : Nat
  id      : Nat
  cycles  : Nat
  budget  : Nat
  resend  : Bool
  deriving DecidableEq, Repr

/-- The body of SAMPLE_STATUS (R305). -/
def State.reportBody (s : State) (c : Fin 16) (p : SampleReport) : List Byte :=
  let used := (s.chan c).samples.length
  beBytes 1 c.val ++ beBytes 1 p.outcome ++ beBytes 1 p.buffer ++ beBytes 1 (bitNat (s.smpAskHost c) + 2 * bitNat p.resend) ++
    beBytes 4 p.id ++ beBytes 4 p.cycles ++ beBytes 4 p.budget ++ beBytes 1 used ++ beBytes 1 (s.smpSlots c - used) ++
    beBytes 2 0

/-- SAMPLE_STATUS sent on the channel's endpoint. -/
def State.smpReport (s : State) (c : Fin 16) (p : SampleReport) : State :=
  s.sendOwn (epIx (s.smpRing c) (epFin (s.smpEndpoint c))) 0 0x22 (BitVec.ofNat 32 c.val) 0 [] (s.reportBody c p)

/-- The report of a sample that has neither buffer nor decode (log 54). -/
def plainReport (c : Fin 16) (reason id : Nat) : SampleReport :=
  ⟨reason, (Config.sampleField c.val reason 1).toNat, id, (Config.sampleField c.val reason 2).toNat,
    (Config.sampleField c.val reason 3).toNat, false⟩

/-- The mode after a change of occupancy; a change is reported (R292). -/
def State.smpMode (s : State) (c : Fin 16) : State :=
  let used := (s.chan c).samples.length
  let change (m : Nat) : State := (s.setFld (.smpChanStatus c) F.smpChanStatus_MODE m).smpReport c
    (plainReport c (Config.sampleField c.val m 0).toNat 0)
  if s.smpAskHost c then (if used ≤ s.smpLow c then change 0 else s)
  else if s.smpHigh c ≤ used then change 1
  else s

/-! ## Samples -/

/-- Fields of a sample header (R284). -/
def Sample.kind (m : Sample) : Nat := leAt m.header 0x02 1
def Sample.comps (m : Sample) : Nat := leAt m.header 0x03 1
def Sample.width (m : Sample) : Nat := leAt m.header 0x04 2
def Sample.height (m : Sample) : Nat := leAt m.header 0x06 2
def Sample.bytes (m : Sample) : Nat := leAt m.header 0x08 4
def Sample.id (m : Sample) : Nat := leAt m.header 0x0C 4
def Sample.resend (m : Sample) : Bool := bitAt (leAt m.header 0x18 1) 0

/-- The payload has arrived whole. -/
def Sample.whole (m : Sample) : Bool := (gapBytes m.bytes m.got).isEmpty

/-- The row pitch of a plane (R290). -/
def Sample.pitch (m : Sample) : Nat := 64 * ceilDiv m.width 64

/-- The sample is being decoded. -/
def Sample.decoding (m : Sample) : Bool := m.taken.isSome && m.kind == 0

/-- The sample that a channel is working on: its head, once taken (R287). -/
def State.smpCurrent (s : State) (c : Fin 16) : Option Sample :=
  (s.chan c).samples.head?.filter fun m => m.taken.isSome

/-- The counts and bits of a sample refused or abandoned (R295). -/
def State.smpCount (s : State) (c : Fin 16) (reason : Nat) : State :=
  let s1 := s.setFld (.smpChanStatus c) F.smpChanStatus_LAST_REASON reason
  if reason = smpLateBad then
    (s1.setFld (.smpChanStatus c) F.smpChanStatus_LATE 1).bump (.smpChanLate c) F.smpChanLate_COUNT 1
  else (s1.setFld (.smpChanStatus c) F.smpChanStatus_REFUSED 1).bump (.smpChanRefused c) F.smpChanRefused_COUNT 1

/-- The channel CLOSED, and without a sample in mode DEVICE (R292, R294). -/
def State.smpShut (s : State) (c : Fin 16) : State :=
  (((s.onChan c fun k => { k with samples := [] }).smpShow c).setFld (.smpChanStatus c) F.smpChanStatus_MODE 0).setFld
    (.smpChanStatus c) F.smpChanStatus_STATE smpClosed

/-- A staging slot freed: the sample leaves, occupancy falls, a CLOSING channel without a sample in progress closes. -/
def State.smpLeave (s : State) (c : Fin 16) (m : Sample) : State :=
  let s1 := ((s.onChan c fun k => { k with samples := k.samples.erase m }).smpShow c)
  let s2 := if m.taken.isSome then s1.setFld (.smpChanStatus c) F.smpChanStatus_BUSY 0 else s1
  let s3 := s2.smpMode c
  if s3.smpState c = smpClosing ∧ (s3.chan c).samples.isEmpty then s3.smpShut c else s3

/-- The report of a sample that leaves without delivery. -/
def State.leftReport (s : State) (c : Fin 16) (m : Sample) (reason : Nat) : SampleReport :=
  let p := plainReport c reason m.id
  match m.taken with
  | some k => { p with
      buffer := k, budget := m.budget, cycles := if reason = smpLateBad then m.budget else p.cycles
      resend := reason == smpLateBad && s.smpAsk c }
  | none => p

/-- A staged sample refused or abandoned: its reserved buffer and its slot are free, and then a report goes out (R286, R287,
R289, R291). -/
def State.smpDrop (s : State) (c : Fin 16) (m : Sample) (reason : Nat) : State :=
  let s1 := s.smpCount c reason
  let s2 := match m.taken with
    | some k => s1.smpSet (s.smpRing c) (s.smpRelease c + k)
    | none => s1
  (s2.smpLeave c m).smpReport c (s.leftReport c m reason)

/-! ## CLOSE (R294) -/

/-- CLOSE: every staged sample is abandoned; the sample in progress is finished (R294; log 54). -/
def State.smpCloseNow (s : State) (c : Fin 16) : State :=
  if s.smpState c ≠ smpOpened then s
  else
    let s1 := s.setFld (.smpChanStatus c) F.smpChanStatus_STATE smpClosing
    let s2 := ((s1.chan c).samples.filter fun m => m.taken.isNone).foldl (fun s m => s.smpDrop c m smpAbandoned) s1
    if s2.smpState c = smpClosing ∧ (s2.chan c).samples.isEmpty then s2.smpShut c else s2

/-- SMP_CHAN_CTRL: 1 OPEN, 2 CLOSE (R295). -/
def State.smpRequest (s : State) (r : Fin 8) (c : Fin 16) (op : Nat) : State :=
  match op with
  | 1 => s.smpOpenNow r c
  | 2 => s.smpCloseNow c
  | _ => s

/-- A request through SMP_CHAN_CTRL: a channel that is not CLOSED takes only its ring's (R56, R295, R313). -/
def State.smpControl (s : State) (who : Who) (c : Fin 16) (op : Nat) : State × Nat :=
  match if s.smpState c = smpClosed then s.whoRing who else some (s.smpRing c) with
  | some r => s.request r who (BitVec.ofNat 32 (Reg.smpChanCtrl c).addr) (keyWord op) fun s => (s.smpRequest r c op, stOk)
  | none => (s, stAccessRing)

/-- SMP_OPEN. -/
def execSmpOpen (chan : Fin 16) (who : Who) (s : State) : Host.Outcome State Fault Refusal :=
  .next (s.smpControl who chan 1).1

/-- SMP_CLOSE. -/
def execSmpClose (chan : Fin 16) (who : Who) (s : State) : Host.Outcome State Fault Refusal :=
  .next (s.smpControl who chan 2).1

/-- The channels of a ring that stops close at once, without reports (R286, R294). -/
def State.smpStopRing (s : State) (r : Fin 8) : State :=
  (List.finRange 16).foldl (fun s c =>
    if s.smpState c ≠ smpClosed ∧ s.smpRing c = r then
      (((s.chan c).samples.foldl (fun s _ => s.smpCount c smpAbandoned) s).setFld (.smpChanStatus c)
        F.smpChanStatus_BUSY 0).smpShut c
    else s) s

/-! ## Sample data (R284 to R286, R294) -/

/-- The augmentation record is as R251 wants it. -/
def augOk (a : List Byte) : Bool :=
  leAt a 0 2 == 1 && decide (leAt a 2 1 < 16) && leAt a 3 1 == 0 && leAt a 0x3C 4 == 0

/-- The sample header is well-formed (R284, R285). -/
def Sample.headerGood (m : Sample) : Bool :=
  leAt m.header 0 2 == 1 && decide (m.kind ≤ 1) && (m.comps == 1 || m.comps == 3) && decide (leAt m.header 0x18 1 ≤ 1) &&
    (part m.header 0x19 39).all fun b => b == 0

/-- The lowest free staging slot. -/
def State.freeStage (s : State) (c : Fin 16) : Option Nat :=
  (List.range (s.smpSlots c)).find? fun i => !((s.chan c).samples.any fun m => m.slot == i)

/-- The reason for which R285 refuses a sample, 0 where it passes. -/
def State.sampleReason (s : State) (c : Fin 16) (m : Sample) : Nat :=
  let p := m.width * m.height
  if !m.headerGood then 1
  else if !augOk m.aug then 2
  else if !within 1 16384 m.width || !within 1 16384 m.height then 3
  else if 67108864 < p then 4
  else if m.kind = 0 ∧ 512 * m.bytes < p then 5
  else if m.kind = 1 ∧ m.bytes ≠ p * m.comps then smpLengthBad
  else if s.smpSlotBytes c < m.bytes ∨ s.smpStride c < 512 + m.comps * s.smpPlane c ∨
      s.smpPlane c < m.height * m.pitch then 7
  else if (s.chan c).samples.any fun n => n.id == m.id then 8
  else if (s.freeStage c).isNone then 9
  else 0

/-- Payload bytes written to a sample's staging slot, and their range noted (R286). -/
def State.stagePut (s : State) (c : Fin 16) (m : Sample) (o : Nat) (d : List Byte) : State :=
  let s1 := (s.dramWrite (.boothFor (s.smpRing c)) (noCommand (s.smpRing c)) 0
    (s.smpStage c + m.slot * s.smpSlotBytes c + o) (cleanBytes d)).1
  s1.onChan c fun k =>
    { k with samples := k.samples.map fun n => if n == m then { n with got := n.got ++ [(o, o + d.length)] } else n }

/-- A chunk of a staged sample's payload: written, or the sample refused where it runs beyond BYTES (R286). -/
def State.stageChunk (s : State) (c : Fin 16) (m : Sample) (o : Nat) (d : List Byte) : State :=
  if m.bytes < o + d.length then s.smpDrop c m smpLengthBad else s.stagePut c m o d

/-- The status that answers sample data at once, 0 where the channel takes it (R51, R281, R294; log 54). -/
def State.sampleStatus (s : State) (r e : Fin 8) (c : Fin 16) : Nat :=
  if s.smpState c ≠ smpOpened ∨ s.smpRing c ≠ r ∨ s.smpEndpoint c ≠ e.val then stSmpState
  else if s.holdsWrites r then stRingParked
  else stOk

/-- The first chunk of a sample: header and augmentation record judged, a slot taken and named, or the sample refused
(R285). -/
def State.sampleFirst (s : State) (c : Fin 16) (msgId : BitVec 16) (d : List Byte) : State × Option Nat :=
  let m : Sample := ⟨0, msgId, part d 0 64, part d 64 64, [], none, 0⟩
  match s.sampleReason c m, s.freeStage c with
  | 0, some slot =>
    let n : Sample := { m with slot := slot }
    let s1 := ((s.onChan c fun k => { k with samples := k.samples ++ [n] }).smpShow c).smpMode c
    (s1.stageChunk c n 0 (d.drop 128), some slot)
  | reason, _ => ((s.smpCount c reason).smpReport c (plainReport c reason m.id), none)

/-- A chunk of a sample whose header has passed, at its offset in the message: its payload bytes are written, a repeated
chunk's again; of a sample that is no longer staged nothing is kept (R285, R307). -/
def State.sampleMore (s : State) (c : Fin 16) (msgId : BitVec 16) (slot o : Nat) (d : List Byte) : State × Bool :=
  match (s.chan c).samples.find? fun m => m.slot == slot && m.msgId == msgId with
  | some m => (s.stageChunk c m (o - 128) (d.drop (128 - o)), true)
  | none => (s, false)

/-- No chunk of a sample has come for 100 ms while its payload is short (R286). -/
def State.sampleStale (s : State) (c : Fin 16) (p : Sample → Bool) : State :=
  match (s.chan c).samples.reverse.find? fun m => p m && !m.whole with
  | some m => s.smpDrop c m smpIncomplete
  | none => s

/-- SAMPLE_CHUNK_TIMEOUT: a sample whose payload is whole, or that is not staged, is left alone. -/
def execSampleChunkTimeout (chan : Fin 16) (sampleId : Word) (s : State) : Host.Outcome State Fault Refusal :=
  .next (s.sampleStale chan fun m => m.id == sampleId.toNat)

/-! ## Taking samples (R287, R288) -/

/-- The buffer that the next delivery of a channel fills (R262, R287). -/
def State.smpBuffer (s : State) (c : Fin 16) : Nat := (s.chan c).seq.toNat % s.smpBuffers c

/-- The release flag of a channel's buffer. -/
def State.smpFlag (s : State) (c : Fin 16) (k : Nat) : Fin 256 := ⟨(s.smpRelease c + k) % 256, by omega⟩

/-- The channel's head is a whole sample of a kind, not taken, and its next buffer is free; a parked ring's staged samples
rest, and so do those of a CLOSING channel (R287, R294; log 54). -/
def State.canTake (s : State) (c : Fin 16) (kind : Nat) : Bool :=
  s.smpState c == smpOpened && !s.holdsWrites (s.smpRing c) &&
    s.ringFlag (s.smpRing c) (s.smpFlag c (s.smpBuffer c)) &&
    match (s.chan c).samples with
    | m :: _ => m.kind == kind && m.taken.isNone && m.whole
    | [] => false

/-- The decoder is at work. -/
def State.decoderBusy (s : State) : Bool := (List.finRange 16).any fun c => (s.chan c).samples.any Sample.decoding

/-- The channel that the decoder takes next (R287). -/
def State.decoderPick (s : State) : Option (Fin 16) :=
  ((List.range 16).map fun i => (⟨(s.smpNext + i) % 16, by omega⟩ : Fin 16)).find? fun c => s.canTake c 0

/-- B (R288). -/
def State.smpBudget (s : State) (c : Fin 16) (m : Sample) : Nat :=
  max (ceilDiv (s.smpMult c * costMean (s.chan c).history * (m.width * m.height)) 1024) (1000 * s.smpFloor c)

/-- The head of a channel taken: its buffer is reserved (R287). -/
def State.takeHead (s : State) (c : Fin 16) (budget : Nat) : State :=
  let k := s.smpBuffer c
  ((s.clearRingFlag (s.smpRing c) (s.smpFlag c k)).onChan c fun ch =>
    { ch with samples := ch.samples.modifyHead fun m => { m with taken := some k, budget := budget } }).setFld
      (.smpChanStatus c) F.smpChanStatus_BUSY 1

/-- The decoder takes a channel's head: it looks at the next channel first from now on (R287, R288). -/
def State.decoderTake (s : State) (c : Fin 16) : State :=
  let b := match (s.chan c).samples with
    | m :: _ => s.smpBudget c m
    | [] => 0
  let s1 := (s.takeHead c b).setReg (.smpChanLastBudget c) (BitVec.ofNat 32 b)
  { s1 with smpNext := (c.val + 1) % 16 }

/-- SAMPLE_TAKE by the decoder or by the copy engine; an engine that cannot take the channel's head now takes nothing. -/
def execSampleTake (jpeg : Bool) (chan : Fin 16) (s : State) : Host.Outcome State Fault Refusal :=
  .next (if jpeg then (if !s.decoderBusy && s.decoderPick == some chan then s.decoderTake chan else s)
    else if s.canTake chan 1 then s.takeHead chan 0
    else s)

/-! ## Delivery (R288, R290, R291) -/

/-- The sample record (R290). -/
def State.sampleRecord (s : State) (c : Fin 16) (m : Sample) (cycles : Nat) : List Byte :=
  part m.header 0x10 8 ++ part m.header 0x0C 4 ++ leBytes 2 m.width ++ leBytes 2 m.height ++ leBytes 1 m.kind ++
    leBytes 1 m.comps ++ leBytes 2 (bitNat m.resend) ++ leBytes 4 cycles ++ leBytes 4 m.budget ++ leBytes 4 m.pitch ++
    leBytes 4 0x7F7F7F ++ leBytes 4 (s.chan c).seq.toNat ++ List.replicate 24 0

/-- Bytes written into the buffer that a sample reserved. -/
def State.smpPut (s : State) (c : Fin 16) (k o : Nat) (d : List PByte) : State :=
  (s.bufWrite (s.smpRing c) (s.smpBase c) (k * s.smpStride c + o) d).1

/-- The columns and the rows that a chroma value covers (R279, R290). -/
def chromaCover : ChromaSub → Nat × Nat
  | .s444 => (1, 1)
  | .s422 => (2, 1)
  | .s420 => (2, 2)

/-- A decoded chroma plane of a width and height replicated to full resolution by copying (R290). -/
def chromaFull (sub : ChromaSub) (w h : Nat) (d : List Byte) : List Byte :=
  (List.range h).flatMap fun y => (List.range w).map fun x =>
    d.getD (y / (chromaCover sub).2 * ceilDiv w (chromaCover sub).1 + x / (chromaCover sub).1) 0

/-- The values that the JPEG decoder reconstructs, plane after plane at full resolution (R290). -/
def jpegPlanes (sub : ChromaSub) (m : Sample) (d : List Byte) : List Byte :=
  let n := m.width * m.height
  let c := ceilDiv m.width (chromaCover sub).1 * ceilDiv m.height (chromaCover sub).2
  if m.comps = 1 then d.take n
  else d.take n ++ chromaFull sub m.width m.height (part d n c) ++ chromaFull sub m.width m.height (part d (n + c) c)

/-- The planes of a sample: of JPEG the decoded values x as x - 128, of PLANAR8 the staged bytes (R290). -/
def State.samplePlanes (s : State) (c : Fin 16) (m : Sample) (sub : ChromaSub) (planes : List Byte) : State × List PByte :=
  if m.kind = 0 then (s, cleanBytes ((jpegPlanes sub m planes).map fun b => b - 128))
  else
    let (s1, d) := s.dramRead (.boothFor (s.smpRing c)) (noCommand (s.smpRing c)) none
      (s.smpStage c + m.slot * s.smpSlotBytes c) m.bytes
    (s1, d.getD (List.replicate m.bytes (0, false)))

/-- The planes written row by row at their pitch (R290). -/
def State.putPlanes (s : State) (c : Fin 16) (m : Sample) (k : Nat) (d : List PByte) : State :=
  (List.range m.comps).foldl (fun s p =>
    (List.range m.height).foldl (fun s y =>
      s.smpPut c k (512 + p * s.smpPlane c + y * m.pitch) (part d ((p * m.height + y) * m.width) m.width)) s) s

/-- The cost history with an entry for `cycles` (R288). -/
def newHistory (l : List Nat) (cycles pixels : Nat) : List Nat := l.drop 1 ++ [ceilDiv (1024 * cycles) pixels]

/-- The sample in progress delivered: its buffer written, then DONE_FLAG, then the slot freed, then the report (R291). -/
def State.deliverSample (s : State) (c : Fin 16) (m : Sample) (k cycles : Nat) (sub : ChromaSub) (planes : List Byte) :
    State :=
  let t := if m.kind = 0 then cycles else 0
  let (s0, d) := s.samplePlanes c m sub planes
  let s1 := (s0.putPlanes c m k d).smpPut c k 0
    (cleanBytes (s.sampleRecord c m t ++ m.aug ++ List.replicate 384 0))
  let s2 := s1.smpSet (s.smpRing c) (s.smpDone c)
  let s3 := (s2.onChan c fun ch => { ch with
    seq := ch.seq + 1
    history := if m.kind = 0 then newHistory ch.history cycles (m.width * m.height) else ch.history }).bump
      (.smpChanDelivered c) F.smpChanDelivered_COUNT 1
  (s3.smpLeave c m).smpReport c ⟨0, k, m.id, t, m.budget, false⟩

/-- The sample in progress comes to its last write: delivered before its count reaches B, abandoned otherwise (R288). -/
def State.finishSample (s : State) (c : Fin 16) (m : Sample) (k cycles : Nat) (sub : ChromaSub) (planes : List Byte) :
    State :=
  if m.kind = 0 ∧ m.budget ≤ cycles then s.smpDrop c m smpLateBad else s.deliverSample c m k cycles sub planes

/-- SAMPLE_DELIVER: without a sample in progress nothing is delivered. -/
def execSampleDeliver (chan : Fin 16) (cycles : Nat) (planes : SamplePlanes) (s : State) :
    Host.Outcome State Fault Refusal :=
  .next (match s.smpCurrent chan with
    | some m => (match m.taken with
      | some k => s.finishSample chan m k cycles planes.sub planes.bytes
      | none => s)
    | none => s)

/-- SAMPLE_LATE: the count of the sample being decoded reaches B (R288, R289). -/
def execSampleLate (chan : Fin 16) (s : State) : Host.Outcome State Fault Refusal :=
  .next (match s.smpCurrent chan with
    | some m => if m.kind = 0 then s.smpDrop chan m smpLateBad else s
    | none => s)

/-- SMP_DECODE: the decoder finds its sample unsupported (10), at odds with its header (11) or corrupt (12) (R286). -/
def execSmpDecode (chan : Fin 16) (reason : Byte) (s : State) : Host.Outcome State Fault Refusal :=
  if !within 10 12 reason.toNat then .refused (.illFormed "SMP_DECODE")
  else .next (match s.smpCurrent chan with
    | some m => if m.kind = 0 then s.smpDrop chan m reason.toNat else s
    | none => s)

end Sys2Proof.Machine
end

