-- ==== Sys2Proof/Machine/Pages.lean ====
section
/-! DEFINITION. Sequence contexts and their pages: the descriptor (R221), the page table (R226, R227) and the page pool
(R229, R230). -/

namespace Sys2Proof.Machine

/-! ## Descriptors (R221) -/

/-- A word of a context's descriptor. -/
def State.ctxWord (s : State) (x : Fin 4096) (k : Fin 16) : Nat := (s.reg (.ringCtxDesc x k)).toNat

/-- The number of streams S. -/
def State.ctxStreams (s : State) (x : Fin 4096) : Nat := s.ctxWord x 0 % 65536

/-- RB_LOG. -/
def State.ctxRbLog (s : State) (x : Fin 4096) : Nat := s.ctxWord x 0 / 65536 % 256

/-- PRIORITY. -/
def State.ctxPriority (s : State) (x : Fin 4096) : Nat := s.ctxWord x 0 / 16777216

/-- PT_BASE. -/
def State.ctxBase (s : State) (x : Fin 4096) : Nat := s.ctxWord x 1

/-- PT_COUNT. -/
def State.ctxCount (s : State) (x : Fin 4096) : Nat := s.ctxWord x 2

/-- STEP_PAGES. -/
def State.ctxStepPages (s : State) (x : Fin 4096) : Nat := s.ctxWord x 3 % 65536

/-- HOT_BLOCKS. -/
def State.ctxHot (s : State) (x : Fin 4096) : Nat := s.ctxWord x 3 / 65536

/-- OPAQUE. -/
def State.ctxOpaque (s : State) (x : Fin 4096) : DWord := s.reg64 (.ringCtxDesc x 4) (.ringCtxDesc x 5)

/-- AGE. -/
def State.ctxAge (s : State) (x : Fin 4096) : Nat := s.ctxWord x 6

/-- Tokens per page (R221). -/
def State.ctxTpp (s : State) (x : Fin 4096) : Nat := 2 ^ (16 - s.ctxRbLog x)

/-- A context lies in the ring's range (R221). -/
def State.ctxOwned (s : State) (r : Fin 8) (n : Nat) : Bool :=
  (s.ring r).bound && decide (s.manifest r 0x1A 2 ≤ n) && decide (n < s.manifest r 0x1A 2 + s.manifest r 0x1C 2)

/-- What the booth holds of a context. -/
def State.ctxInfo (s : State) (r : Fin 8) (x : Fin 4096) : Option CtxInfo :=
  ((s.ring r).ctxs.find? fun p => p.1 == x.val).map fun p => p.2

/-! ## The page table (R226, R227) -/

/-- Bytes of a page (R224). -/
abbrev pageBytes : Nat := 65536

/-- The address of entry `i`: the page table occupies the first unit of the booth's region (R226). -/
def ptAddr (i : Nat) : Nat := 8 * i

/-- The entry of logical page `n` of a context, as the booth reads it (R184; log 123). -/
def State.ptGet (s : State) (x : Fin 4096) (n : Nat) : DWord :=
  BitVec.ofNat 64 (leVal (deliver s.dram 0x80 (ptAddr (s.ctxBase x + n)) 8))

/-- The booth writes an entry, and with it drops every translation of the page that a DMA engine holds (R226, R228, R232;
log 31). -/
def State.ptPut (s : State) (x : Fin 4096) (n : Nat) (e : DWord) : State :=
  let s1 := s.ownWrite .booth (ptAddr (s.ctxBase x + n)) (leBytes 8 e.toNat)
  { s1 with cores := s1.cores.map fun k => { k with tlb := k.tlb.filter fun t => !(t.ctx == x.val && t.page == n) } }

/-- The states of an entry (R227). -/
abbrev ptAbsent : Nat := 0
abbrev ptResident : Nat := 1
abbrev ptSwapped : Nat := 2
abbrev ptMoving : Nat := 3

/-- The fields of an entry (R227). -/
def ptState (e : DWord) : Nat := bitsAt e.toNat 62 63
def ptTier (e : DWord) : Bool := e.getLsbD 61
def ptHost (e : DWord) : Bool := e.getLsbD 60
def ptGen (e : DWord) : Nat := bitsAt e.toNat 40 55
def ptLoc (e : DWord) : Nat := bitsAt e.toNat 0 31

/-- An entry of its fields (R227). -/
def ptMake (state : Nat) (tier host : Bool) (gen loc : Nat) : DWord :=
  BitVec.ofNat 64 (state * 2 ^ 62 + bitNat tier * 2 ^ 61 + bitNat host * 2 ^ 60 + gen % 65536 * 2 ^ 40 + loc % 2 ^ 32)

/-- The next generation: 65,535 is followed by 1 (R230). -/
def nextGen (g : Nat) : Nat := if g = 65535 then 1 else g + 1

/-- The logical pages of a context whose entry satisfies `p`, ascending. -/
def State.pagesWhere (s : State) (x : Fin 4096) (p : DWord → Bool) : List Nat :=
  (List.range (s.ctxCount x)).filter fun n => p (s.ptGet x n)

/-- The allocated pages. -/
def State.allocated (s : State) (x : Fin 4096) : List Nat := s.pagesWhere x fun e => ptState e != ptAbsent

/-- The resident pages. -/
def State.resident (s : State) (x : Fin 4096) : List Nat := s.pagesWhere x fun e => ptState e == ptResident

/-- The swapped pages. -/
def State.swapped (s : State) (x : Fin 4096) : List Nat := s.pagesWhere x fun e => ptState e == ptSwapped

/-! ## The pool (R229, R230) -/

/-- The DRAM frames of a ring's pool. -/
def State.poolFrames (s : State) (r : Fin 8) : List Nat :=
  (List.finRange 8).flatMap fun k =>
    (List.range (256 * s.fld (.ringCtxPool r k) F.ringCtxPool_UNITS)).map fun i =>
      256 * s.fld (.ringCtxPool r k) F.ringCtxPool_BASE + i

/-- The midway frames of a ring's pool. -/
def State.poolMwy (s : State) (r : Fin 8) : List Nat :=
  (List.range (s.fld (.ringCtxPoolMwy r) F.ringCtxPoolMwy_FRAMES)).map fun i =>
    s.fld (.ringCtxPoolMwy r) F.ringCtxPoolMwy_BASE + i

/-- The frames in use by a ring's contexts, as tier and frame: of resident pages and of pages on the move. -/
def State.usedFrames (s : State) (r : Fin 8) : List (Bool × Nat) :=
  (s.ring r).ctxs.flatMap fun p =>
    ((s.resident (ctxFin p.1)).map fun n => (ptTier (s.ptGet (ctxFin p.1) n), ptLoc (s.ptGet (ctxFin p.1) n))) ++
      p.2.moves.map fun m => (m.tier, m.frame)

/-- The free frames of a tier. -/
def State.freeFrames (s : State) (r : Fin 8) (tier : Bool) : List Nat :=
  let used := s.usedFrames r
  (if tier then s.poolMwy r else s.poolFrames r).filter fun f => !used.contains (tier, f)

/-- The lowest of a list. -/
def lowest : List Nat → Option Nat
  | [] => none
  | a :: t => some (t.foldl min a)

/-- The unused reservations of a ring's contexts (R231). -/
def State.reserved (s : State) (r : Fin 8) : Nat := (s.ring r).ctxs.foldl (fun n p => n + p.2.reserve + p.2.next) 0

/-- The page's token block is among the HOT_BLOCKS highest that the context has allocated (R230). -/
def State.isHot (s : State) (x : Fin 4096) (page : Nat) : Bool :=
  let S := max (s.ctxStreams x) 1
  let above := ((s.allocated x).map fun n => n / S).filter fun b => decide (page / S < b)
  decide (above.eraseDups.length < s.ctxHot x)

/-- A frame for a page, by R230: its tier and number, and whether a page due for the midway goes to DRAM. `open_` says
that a DRAM frame may be taken. -/
def State.pickFrame (s : State) (r : Fin 8) (x : Fin 4096) (page : Nat) (open_ : Bool) : Option (Bool × Nat × Bool) :=
  let hot := s.isHot x page
  let dram := (if open_ then lowest (s.freeFrames r false) else none).map fun f => (false, f, hot)
  if hot then
    match lowest (s.freeFrames r true) with
    | some f => some (true, f, false)
    | none => dram
  else dram

/-- A page given a frame: HOT_SHORT where it was due for the midway, and its entry with the next generation (R230). -/
def State.givePage (s : State) (x : Fin 4096) (page : Nat) (f : Bool × Nat × Bool) : State :=
  let s1 := if f.2.2 then s.setFld (.ringCtxStatus x) F.ringCtxStatus_HOT_SHORT 1 else s
  s1.ptPut x page (ptMake ptResident f.1 false (nextGen (ptGen (s.ptGet x page))) f.2.1)

/-- A page allocated by a step: charged against the context's reservation first, else from the frames that no reservation
holds; none where neither is left (R228, R230). -/
def State.allocPage (s : State) (r : Fin 8) (x : Fin 4096) (page : Nat) : Option State :=
  let left := ((s.ctxInfo r x).map fun i => i.reserve).getD 0
  let open_ := decide (0 < left) || decide (s.reserved r < (s.freeFrames r false).length)
  (s.pickFrame r x page open_).map fun f =>
    (s.givePage x page f).onCtx r x fun i => { i with reserve := i.reserve - 1 }

end Sys2Proof.Machine
end

