-- ==== Sys2Proof/Machine/Seq.lean ====
section
/-! DEFINITION. Sequence contexts: OPEN, CLOSE, PREFETCH and EVICT (R223), admission and pre-emption (R231, R232), swap-in
(R233), the spill targets and the page messages (R234, R235), and the end of a step (R230, R231, R237). -/

namespace Sys2Proof.Machine

/-! ## Names -/

/-- Fields of a context's descriptor that the hardware writes (R221). -/
def State.setAge (s : State) (x : Fin 4096) (v : Word) : State := s.setReg (.ringCtxDesc x 6) v

/-- PREEMPTS raised by one, saturating (R221, R232). -/
def State.bumpPreempts (s : State) (x : Fin 4096) : State :=
  s.setReg (.ringCtxDesc x 11) (BitVec.ofNat 32 (min (s.ctxWord x 11 + 1) 4294967295))

/-- The state with a context's CAUSE set (R238). -/
def State.setCtxCause (s : State) (x : Fin 4096) (c : Nat) : State := s.setFld (.ringCtxStatus x) F.ringCtxStatus_CAUSE c

/-- The SPILL region of a ring: base and length in units (R44). -/
def State.spillRegion (s : State) (r : Fin 8) : Option (Nat × Nat) :=
  ((regionsOf (s.ring r).manifest).find? fun t => bitAt t.2.2 2).map fun t => (t.1, t.2.1)

/-- The slots of a ring's SPILL region, as frames (R234). -/
def State.spillSlots (s : State) (r : Fin 8) : List Nat :=
  match s.spillRegion r with
  | some (b, n) => (List.range (256 * n)).map fun i => 256 * b + i
  | none => []

/-- The slots in use. -/
def State.usedSlots (s : State) (r : Fin 8) : List Nat :=
  (s.ring r).ctxs.flatMap fun p =>
    (s.pagesWhere (ctxFin p.1) fun e => ptState e == ptSwapped && !ptHost e).map fun n => ptLoc (s.ptGet (ctxFin p.1) n)

/-- The free slots. -/
def State.freeSlots (s : State) (r : Fin 8) : List Nat :=
  let used := s.usedSlots r
  (s.spillSlots r).filter fun f => !used.contains f

/-- The slots that swap-outs in progress will take. -/
def State.promisedSlots (s : State) (r : Fin 8) : Nat :=
  (s.ring r).ctxs.foldl (fun n p =>
    n + (p.2.moves.filter fun m => m.out && !m.host).length +
      (if s.ctxState (ctxFin p.1) = ctxOut ∧ !p.2.ending then (s.resident (ctxFin p.1)).length else 0)) 0

/-! ## Page contents -/

/-- The bytes of a page whose read is refused: poisoned (log 30). -/
def lostPage : List PByte := (List.range pageBytes).map fun i => (Config.lostByte i, true)

/-- The bytes of a frame (R229, R232). -/
def State.frameRead (s : State) (r : Fin 8) (tier : Bool) (frame : Nat) : State × List PByte :=
  if tier then s.mwyRead r (noCommand r) (pageBytes * frame) pageBytes
  else
    let (s1, d) := s.dramRead (.boothFor r) (noCommand r) none (pageBytes * frame) pageBytes
    (s1, d.getD lostPage)

/-- A frame written for the ring: OWNER the ring, and the page's generation (R233). -/
def State.frameWrite (s : State) (r : Fin 8) (tier : Bool) (frame gen : Nat) (d : List PByte) : State :=
  if tier then s.mwyWrite r (noCommand r) (pageBytes * frame) d
  else (s.dramWrite (.boothFor r) (noCommand r) (BitVec.ofNat 16 gen) (pageBytes * frame) d).1

/-- The CRC of a page (R235). -/
def pageCrc (x : Fin 4096) (n gen : Nat) (d : List Byte) : Word :=
  crc32c (leBytes 2 x.val ++ leBytes 4 n ++ leBytes 2 gen ++ d)

/-! ## Page messages (R235, R320) -/

/-- The page prefix (R320). -/
def pagePrefix (x : Fin 4096) (n gen : Nat) (poisoned : Bool) (crc : Word) (opaque_ : DWord) : List Byte :=
  beBytes 2 x.val ++ beBytes 2 0 ++ beBytes 4 n ++ beBytes 2 gen ++ beBytes 1 (bitNat poisoned) ++ beBytes 1 0 ++
    beBytes 4 crc.toNat ++ beBytes 8 opaque_.toNat

/-- The endpoint of a context's bulk channel (R234). -/
def State.bulkEp (s : State) (r : Fin 8) (x : Fin 4096) : Option (Fin 64) :=
  ((s.ctxInfo r x).bind fun i => i.endpoint).map (epIx r)

/-- A page message of its own numbers (R306). -/
def State.pageSend (s : State) (r : Fin 8) (x : Fin 4096) (type : Byte) (bad : List Nat) (body : List Byte) : State :=
  match s.bulkEp r x with
  | some e => s.sendOwn e 1 type (BitVec.ofNat 32 x.val) 0 bad body
  | none => s

/-- PAGE_OUT, PAGE_IN or PAGE_DROP as a body: the page of a PAGE_OUT follows its prefix. -/
def State.pageDrop (s : State) (r : Fin 8) (x : Fin 4096) (n gen : Nat) : State :=
  s.pageSend r x 0x25 [] (pagePrefix x n gen false 0 (s.ctxOpaque x))

/-- The body of PAGE_OUT for a page's bytes, and the places of its poisoned bytes. -/
def outBody (x : Fin 4096) (n gen : Nat) (opaque_ : DWord) (d : List PByte) : List Byte × List Nat :=
  (pagePrefix x n gen (anyPoison d) (pageCrc x n gen (rawBytes d)) opaque_ ++ rawBytes d, badPlaces 24 d)

/-- The numbers that the next message of a context's bulk channel takes. -/
def State.pageNumbers (s : State) (r : Fin 8) (x : Fin 4096) : BitVec 16 × Byte :=
  match s.bulkEp r x with
  | some e => ((s.ep e).msgId, (s.ep e).gen)
  | none => (0, 0)

/-- A message sent again with the numbers it had (R306). -/
def State.pageAgain (s : State) (r : Fin 8) (x : Fin 4096) (m : PageMove) (type : Byte) (bad : List Nat) (body : List Byte) :
    State :=
  match s.bulkEp r x with
  | some e => s.send e ⟨1, type, m.msgId, m.gen, false, bad, 0, BitVec.ofNat 32 x.val, 0, body, 0⟩
  | none => s

/-- PAGE_OUT of a page that is leaving: a first one, or again (R235). -/
def State.pageOut (s : State) (r : Fin 8) (x : Fin 4096) (m : PageMove) (again : Bool) : State :=
  let (s1, d) := s.frameRead r m.tier m.frame
  let b := outBody x m.page (ptGen (s1.ptGet x m.page)) (s1.ctxOpaque x) d
  if again then s1.pageAgain r x m 0x23 b.2 b.1 else s1.pageSend r x 0x23 b.2 b.1

/-- PAGE_IN of a page that returns: a first one, or again (R235). -/
def State.pageIn (s : State) (r : Fin 8) (x : Fin 4096) (m : PageMove) (again : Bool) : State :=
  let body := pagePrefix x m.page (ptGen (s.ptGet x m.page)) false 0 (s.ctxOpaque x)
  if again then s.pageAgain r x m 0x24 [] body else s.pageSend r x 0x24 [] body

/-! ## Pages on the move -/

/-- The state with a page's move added. -/
def State.addMove (s : State) (r : Fin 8) (x : Fin 4096) (m : PageMove) : State :=
  s.onCtx r x fun i => { i with moves := i.moves ++ [m] }

/-- The state with a page's move ended. -/
def State.endMove (s : State) (r : Fin 8) (x : Fin 4096) (n : Nat) : State :=
  s.onCtx r x fun i => { i with moves := i.moves.filter fun m => m.page != n }

/-- The move of a page. -/
def State.moveOf (s : State) (r : Fin 8) (x : Fin 4096) (n : Nat) : Option PageMove :=
  (s.ctxInfo r x).bind fun i => i.moves.find? fun m => m.page == n

/-- A page begins to leave: its entry is MOVING, and to a host its PAGE_OUT goes (R232, R235). -/
def State.startOut (s : State) (r : Fin 8) (x : Fin 4096) (n : Nat) : State :=
  let e := s.ptGet x n
  let host := (s.spillRegion r).isNone
  let num := s.pageNumbers r x
  let m : PageMove := ⟨n, true, ptTier e, ptLoc e, host, 1, num.1, num.2⟩
  let s1 := (s.ptPut x n (ptMake ptMoving (ptTier e) false (ptGen e) (ptLoc e))).addMove r x m
  if host then s1.pageOut r x m false else s1

/-- A page begins to return: it takes a frame, and from a host it is asked for (R230, R233, R235). -/
def State.startIn (s : State) (r : Fin 8) (x : Fin 4096) (n : Nat) (f : Bool × Nat × Bool) : State :=
  let host := ptHost (s.ptGet x n)
  let num := s.pageNumbers r x
  let m : PageMove := ⟨n, false, f.1, f.2.1, host, 1, num.1, num.2⟩
  let s1 := if f.2.2 then s.setFld (.ringCtxStatus x) F.ringCtxStatus_HOT_SHORT 1 else s
  let s2 := s1.addMove r x m
  if host then s2.pageIn r x m false else s2

/-- The ring's swaps run: they are suspended while it parks or is parked, and a STOP has cancelled them (R237). -/
def State.swapsRun (s : State) (r : Fin 8) : Bool := !s.holdsWrites r && s.ringState r != stStopping

/-- The swaps of a ring cancelled: no page of it is in flight any more (R237). -/
def State.cancelSwaps (s : State) (r : Fin 8) : State :=
  s.onRing r fun k => { k with ctxs := k.ctxs.map fun p => (p.1, { p.2 with moves := [] }) }

/-- The lowest SWAPPED page that is not on its way, with the frame it would take; a PREFETCH takes only frames that no
reservation holds (R223, R230, R233). -/
def State.nextIn (s : State) (r : Fin 8) (x : Fin 4096) (i : CtxInfo) : Option (Nat × (Bool × Nat × Bool)) :=
  match lowest ((s.swapped x).filter fun n => !(i.moves.any fun m => m.page == n)) with
  | none => none
  | some n =>
    let open_ := !i.prefetch || decide (s.reserved r < (s.freeFrames r false).length)
    (s.pickFrame r x n open_).map fun f => (n, f)

/-- Pages started while fewer than four are in flight (R232, R233). -/
def State.startMoves (r : Fin 8) (x : Fin 4096) : Nat → State → State
  | 0, s => s
  | fuel + 1, s =>
    match s.ctxInfo r x with
    | none => s
    | some i =>
      if i.closing || !s.swapsRun r || decide (4 ≤ i.moves.length) then s
      else if s.ctxState x = ctxOut ∧ !i.ending then
        match lowest (s.resident x) with
        | some n => State.startMoves r x fuel (s.startOut r x n)
        | none => s
      else if s.ctxState x = ctxIn then
        match s.nextIn r x i with
        | some (n, f) => State.startMoves r x fuel (s.startIn r x n f)
        | none => s
      else s

/-- A context released: PAGE_DROP for every page that the host holds, every entry ABSENT, its frames and slots free, the
context FREE (R223). -/
def State.freeContext (s : State) (r : Fin 8) (x : Fin 4096) : State :=
  let s1 := (s.pagesWhere x fun e => ptState e == ptSwapped && ptHost e).foldl (fun s n =>
    s.pageDrop r x n (ptGen (s.ptGet x n))) s
  let s2 := (s1.allocated x).foldl (fun s n => s.ptPut x n (ptMake ptAbsent false false (ptGen (s.ptGet x n)) 0)) s1
  (s2.onRing r fun k => { k with ctxs := k.ctxs.filter fun p => p.1 != x.val }).setCtxState x ctxFree

/-- What follows when no page of a context is in flight (R223, R232, R233). -/
def State.settleSwap (s : State) (r : Fin 8) (x : Fin 4096) : State :=
  match s.ctxInfo r x with
  | none => s
  | some i =>
    if !i.moves.isEmpty then s
    else if s.ctxState x = ctxClosing then s.freeContext r x
    else if s.ctxState x = ctxOut then
      if (s.resident x).isEmpty then
        (s.setCtxState x ctxSwapped).setFld (.ringCtxEvent r) F.ringCtxEvent_PREEMPTED 1
      else if i.ending then s.setCtxState x ctxSwapped
      else s
    else if s.ctxState x = ctxIn then
      if (s.swapped x).isEmpty then
        ((s.setCtxState x (if i.awaited then ctxActive else ctxOpen)).setFld (.ringCtxEvent r)
          F.ringCtxEvent_SWAPPED_IN 1).onCtx r x fun i => { i with prefetch := false }
      else if i.prefetch && s.swapsRun r then s.setCtxState x ctxSwapped
      else s
    else s

/-- A context's swap carried on (R232, R233). -/
def State.runMoves (s : State) (r : Fin 8) (x : Fin 4096) : State := (State.startMoves r x 4 s).settleSwap r x

/-- Every swap of a ring carried on (R237: at RESUME). -/
def State.runAllMoves (s : State) (r : Fin 8) : State :=
  (s.ring r).ctxs.foldl (fun s p => s.runMoves r (ctxFin p.1)) s

/-! ## Pages that arrive, leave or fail -/

/-- A page has left: SWAPPED at its slot or at the host, its frame free (R232). -/
def State.leftPage (s : State) (r : Fin 8) (x : Fin 4096) (n : Nat) (host : Bool) (loc : Nat) : State :=
  (((s.ptPut x n (ptMake ptSwapped false host (ptGen (s.ptGet x n)) loc)).endMove r x n).bump (.ringCtxPagesOut r)
    F.ringCtxPagesOut_COUNT 1).runMoves r x

/-- The last line of a page reaches its SPILL slot, the lowest free one (R232, R234). -/
def State.spilled (s : State) (r : Fin 8) (x : Fin 4096) (m : PageMove) : State :=
  match lowest (s.freeSlots r) with
  | none => s
  | some slot =>
    let (s1, d) := s.frameRead r m.tier m.frame
    let s2 := (s1.dramWrite (.spill r) (noCommand r) (BitVec.ofNat 16 (ptGen (s1.ptGet x m.page))) (pageBytes * slot) d).1
    s2.leftPage r x m.page false slot

/-- The host acknowledges a page: its CRC stands in LOC (R227, R232). -/
def State.pageAcked (s : State) (r : Fin 8) (x : Fin 4096) (m : PageMove) : State :=
  let (s1, d) := s.frameRead r m.tier m.frame
  s1.leftPage r x m.page true (pageCrc x m.page (ptGen (s1.ptGet x m.page)) (rawBytes d)).toNat

/-- A page stays RESIDENT, and its swap-out ends (R232). -/
def State.outFailed (s : State) (r : Fin 8) (x : Fin 4096) (m : PageMove) : State :=
  (((s.ptPut x m.page (ptMake ptResident m.tier false (ptGen (s.ptGet x m.page)) m.frame)).endMove r x m.page).onCtx r x
    fun i => { i with ending := true }).runMoves r x

/-- A page is back in its frame with a new generation; its slot is free, or the host may discard it (R233). -/
def State.returned (s : State) (r : Fin 8) (x : Fin 4096) (m : PageMove) (d : List PByte) : State :=
  let old := ptGen (s.ptGet x m.page)
  let gen := nextGen old
  let s1 := s.frameWrite r m.tier m.frame gen d
  let s2 := (s1.ptPut x m.page (ptMake ptResident m.tier false gen m.frame)).endMove r x m.page
  let s3 := if m.host then s2.pageDrop r x m.page old else s2
  (s3.bump (.ringCtxPagesIn r) F.ringCtxPagesIn_COUNT 1).runMoves r x

/-- The context list of an INVOKE's parameter block: 16 entries, VALID in bit 31 (R231). -/
def contextList (i : Invocation) : List Nat :=
  match i.asker with
  | none => []
  | some _ => ((List.range 16).filterMap fun k =>
      let w := leAt i.params (16 + 4 * k) 4
      if bitAt w 31 then some (w % 4096) else none).eraseDups

/-- The reservations of an admission released; a context that it made ACTIVE and the running step does not name returns
to OPEN (R231). -/
def State.dropAdmission (s : State) (r : Fin 8) (ctxs : List Nat) : State :=
  let running := ((s.ring r).current.map contextList).getD []
  (ctxs.foldl (fun s n =>
    let s1 := s.onCtx r (ctxFin n) fun i => { i with next := 0, awaited := false }
    if s1.ctxState (ctxFin n) = ctxActive ∧ !running.contains n then s1.setCtxState (ctxFin n) ctxOpen else s1) s).onRing r
    fun k => { k with admission := none }

/-- A pending invocation removed and its INVOKE answered; the admission in progress is the head's, and ends with the head
alone (R231). -/
def State.refuseInvocation (s : State) (r : Fin 8) (i : Invocation) (status : Nat) : State :=
  let s1 := if (s.ring r).waiting.head? = some i then s.dropAdmission r (contextList i) else s
  let s2 := s1.onRing r fun k => { k with waiting := k.waiting.erase i }
  match i.asker with
  | some a => s2.replyStatus r a status
  | none => s2

/-- A context is LOST: its cause, the event, and the pending invocations that name it removed (R235, R236). -/
def State.loseContext (s : State) (r : Fin 8) (x : Fin 4096) (n cause : Nat) : State :=
  let s1 := (((s.endMove r x n).setCtxState x ctxLost).setCtxCause x cause).setFld (.ringCtxEvent r) F.ringCtxEvent_LOST 1
  ((s1.ring r).waiting.filter fun i => (contextList i).contains x.val).foldl (fun s i => s.refuseInvocation r i stSeqLost) s1

/-- An attempt to get a page back fails: it is asked for again, up to four times in all (R235). -/
def State.inFailed (s : State) (r : Fin 8) (x : Fin 4096) (m : PageMove) (cause : Nat) : State :=
  if s.ctxState x = ctxClosing ∨ s.ctxState x = ctxLost then (s.endMove r x m.page).settleSwap r x
  else if m.tries < 4 then
    (s.onCtx r x fun i => { i with moves := i.moves.map fun k => if k.page == m.page then { k with tries := k.tries + 1 } else k
      }).pageIn r x m true
  else s.loseContext r x m.page cause

/-- PAGE_DATA for a page that was asked for: back in its frame, or a failed attempt (R233, R235). -/
def State.pageCame (s : State) (r : Fin 8) (x : Fin 4096) (m : PageMove) (gen : Nat) (crc : Word) (poisoned : Bool)
    (d : List Byte) : State :=
  let e := s.ptGet x m.page
  let real := pageCrc x m.page (ptGen e) d
  if gen = ptGen e ∧ crc = real ∧ real.toNat = ptLoc e then s.returned r x m (d.map fun b => (b, poisoned))
  else s.inFailed r x m 6

/-- No answer within 100 ms (R235). -/
def State.noAnswer (s : State) (r : Fin 8) (x : Fin 4096) (m : PageMove) : State :=
  if m.out then
    if m.tries < 4 then
      (s.onCtx r x fun i => { i with moves := i.moves.map fun k => if k.page == m.page then { k with tries := k.tries + 1 } else k
        }).pageOut r x m true
    else s.outFailed r x m
  else s.inFailed r x m 5

/-! ## Requests (R223) -/

/-- The OPEN check: 0 where it passes, else the cause of the first failing row. -/
def State.openCheck (s : State) (r : Fin 8) (x : Fin 4096) : Nat :=
  let b := s.ctxBase x
  let n := s.ctxCount x
  let inRegion := (regionsOf (s.ring r).manifest).any fun t => decide (256 * t.1 ≤ b) && decide (b + n ≤ 256 * (t.1 + t.2.1))
  let overlaps := (s.ring r).ctxs.any fun p =>
    decide (b < s.ctxBase (ctxFin p.1) + s.ctxCount (ctxFin p.1)) && decide (s.ctxBase (ctxFin p.1) < b + n)
  let S := s.ctxStreams x
  if !(s.ctxOwned r x.val) || !inRegion then 1
  else if overlaps then 2
  else if S < 1 ∨ 4096 < S ∨ s.ctxRbLog x < 5 ∨ 10 < s.ctxRbLog x ∨ 4096 < s.ctxHot x ∨ n = 0 ∨ n % S ≠ 0 ∨
      (s.poolFrames r).length < s.ctxStepPages x then 3
  else 0

/-- A request refused: REFUSED, and the context's CAUSE, whichever ring's range it lies in (R223). -/
def State.refuseCtx (s : State) (r : Fin 8) (x : Fin 4096) (cause : Nat) : State :=
  (s.setFld (.ringCtxEvent r) F.ringCtxEvent_REFUSED 1).setCtxCause x cause

/-- The CAUSE of a request that the context's state does not accept: one that occurs (R223, R238; log 40). -/
def ctxRefusal (op st : Nat) : Nat := if (Config.ctxCause op st).val = 7 then 8 else (Config.ctxCause op st).val

/-- The state with a context opened (R223; log 41: CAUSE is 0 then). -/
def State.openContext (s : State) (r : Fin 8) (x : Fin 4096) (endpoint : Option (Fin 8)) : State :=
  let s1 := (s.allocated x).foldl (fun s n => s.ptPut x n (ptMake ptAbsent false false (ptGen (s.ptGet x n)) 0)) s
  let s2 := (s1.setAge x (s1.ring r).openCount).setReg (.ringCtxDesc x 11) 0
  let s3 := s2.onRing r fun k =>
    { k with
      openCount := if k.openCount = 0xFFFFFFFF then k.openCount else k.openCount + 1
      ctxs := k.ctxs ++ [(x.val, ⟨endpoint, 0, 0, [], false, false, false, false⟩)] }
  (s3.setCtxState x ctxOpen).setCtxCause x 0

/-- OPEN. -/
def State.ctxOpenNow (s : State) (r : Fin 8) (x : Fin 4096) (who : Who) : State :=
  if s.ctxOwned r x.val ∧ s.ctxState x ≠ ctxFree then s.refuseCtx r x (ctxRefusal 1 (s.ctxState x))
  else match s.openCheck r x with
    | 0 => s.openContext r x (s.endpointOf r who)
    | cause => s.refuseCtx r x cause

/-- CLOSING entered: it ends when no page is in flight (R223). -/
def State.beginClose (s : State) (r : Fin 8) (x : Fin 4096) : State :=
  ((s.setCtxState x ctxClosing).onCtx r x fun i => { i with closing := true }).settleSwap r x

/-- CLOSE. -/
def State.ctxCloseNow (s : State) (r : Fin 8) (x : Fin 4096) : State :=
  if !(s.ctxOwned r x.val) || s.ctxState x == ctxFree || s.ctxState x == ctxClosing then
    s.refuseCtx r x (ctxRefusal 2 (s.ctxState x))
  else if s.ctxState x = ctxActive then s.onCtx r x fun i => { i with closing := true }
  else s.beginClose r x

/-- PREFETCH. -/
def State.ctxPrefetchNow (s : State) (r : Fin 8) (x : Fin 4096) : State :=
  if s.ctxOwned r x.val ∧ s.ctxState x = ctxSwapped then
    ((s.setCtxState x ctxIn).onCtx r x fun i => { i with prefetch := true, ending := false }).runMoves r x
  else s.refuseCtx r x (ctxRefusal 3 (s.ctxState x))

/-- A pre-emption (R232): none where the SPILL region lacks the slots. -/
def State.preempt (s : State) (r : Fin 8) (x : Fin 4096) : Option State :=
  if (s.spillRegion r).isSome ∧ (s.freeSlots r).length < (s.resident x).length + s.promisedSlots r then none
  else
    let s1 := (s.setCtxState x ctxOut).bumpPreempts x
    let s2 : State := { s1 with cores := s1.cores.map fun k => { k with tlb := k.tlb.filter fun t => t.ctx != x.val } }
    some ((s2.onCtx r x fun i => { i with ending := false, prefetch := false }).runMoves r x)

/-- A victim skipped for want of slots (R232, R238). -/
def State.spillFull (s : State) (r : Fin 8) (x : Fin 4096) : State :=
  (s.setFld (.ringCtxEvent r) F.ringCtxEvent_SPILL_FULL 1).setCtxCause x 8

/-- EVICT. -/
def State.ctxEvictNow (s : State) (r : Fin 8) (x : Fin 4096) : State :=
  if s.ctxOwned r x.val ∧ s.ctxState x = ctxOpen then (s.preempt r x).getD (s.spillFull r x)
  else s.refuseCtx r x (ctxRefusal 4 (s.ctxState x))

/-- A RING_CTX_CTRL request in effect: 1 OPEN, 2 CLOSE, 3 PREFETCH, 4 EVICT (R223, R238). -/
def State.ctxRequest (s : State) (r : Fin 8) (who : Who) (op : Nat) (x : Fin 4096) : State :=
  match op with
  | 1 => s.ctxOpenNow r x who
  | 2 => s.ctxCloseNow r x
  | 3 => s.ctxPrefetchNow r x
  | 4 => s.ctxEvictNow r x
  | _ => s

/-- The word of a RING_CTX_CTRL write. -/
def requestWord (op : Nat) (x : Fin 4096) : Word := BitVec.ofNat 32 (0xA5000000 + 65536 * op + x.val)

/-- A request through RING_CTX_CTRL, as R56 and R313 let it act. -/
def State.ctxControl (s : State) (r : Fin 8) (who : Who) (op : Nat) (x : Fin 4096) : State × Nat :=
  s.request r who (BitVec.ofNat 32 (Reg.ringCtxCtrl r).addr) (requestWord op x) fun s => (s.ctxRequest r who op x, stOk)

/-- CTX_OPEN. -/
def execCtxOpen (ring : Fin 8) (ctx : Fin 4096) (who : Who) (s : State) : Host.Outcome State Fault Refusal :=
  .next (s.ctxControl ring who 1 ctx).1

/-- CTX_CLOSE. -/
def execCtxClose (ring : Fin 8) (ctx : Fin 4096) (who : Who) (s : State) : Host.Outcome State Fault Refusal :=
  .next (s.ctxControl ring who 2 ctx).1

/-- CTX_PREFETCH. -/
def execCtxPrefetch (ring : Fin 8) (ctx : Fin 4096) (who : Who) (s : State) : Host.Outcome State Fault Refusal :=
  .next (s.ctxControl ring who 3 ctx).1

/-- CTX_EVICT. -/
def execCtxEvict (ring : Fin 8) (ctx : Fin 4096) (who : Who) (s : State) : Host.Outcome State Fault Refusal :=
  .next (s.ctxControl ring who 4 ctx).1

/-! ## Admission (R231) -/

/-- The status of step 1 for a listed context: none where it may be admitted. -/
def State.admitRefusal (s : State) (r : Fin 8) (n : Nat) : Option Nat :=
  let x := ctxFin n
  let closing := ((s.ctxInfo r x).map fun i => i.closing).getD false
  if !(s.ctxOwned r n) || s.ctxState x == ctxFree || s.ctxState x == ctxClosing || closing then some stSeqContext
  else if s.ctxState x = ctxLost then some stSeqLost
  else none

/-- The frames that pre-emptions in progress will release. -/
def State.comingFrames (s : State) (r : Fin 8) : Nat :=
  (s.ring r).ctxs.foldl (fun n p =>
    let x := ctxFin p.1
    if s.ctxState x = ctxOut then
      n + (p.2.moves.filter fun m => m.out && !m.tier).length +
        (if p.2.ending then 0 else ((s.resident x).filter fun k => !ptTier (s.ptGet x k)).length)
    else n) 0

/-- The candidates of step 4, in no order. -/
def State.victims (s : State) (r : Fin 8) (listed skipped : List Nat) : List Nat :=
  ((s.ring r).ctxs.map fun p => p.1).filter fun n =>
    let x := ctxFin n
    !listed.contains n && !skipped.contains n &&
      (s.ctxState x == ctxOpen || (s.ctxState x == ctxSwapped && !(s.resident x).isEmpty))

/-- The candidate that goes first: ascending PRIORITY, then descending AGE, then descending number. -/
def State.firstVictim (s : State) (l : List Nat) : Option Nat :=
  let before (a b : Nat) : Bool :=
    let x := ctxFin a
    let y := ctxFin b
    decide (s.ctxPriority x < s.ctxPriority y) ||
      (s.ctxPriority x == s.ctxPriority y && (decide (s.ctxAge y < s.ctxAge x) ||
        (s.ctxAge x == s.ctxAge y && decide (b < a))))
  match l with
  | [] => none
  | a :: t => some (t.foldl (fun m b => if before b m then b else m) a)

/-- The frames that an admission needs (step 3). -/
def State.needFrames (s : State) (r : Fin 8) (listed : List Nat) : Nat :=
  listed.foldl (fun n k =>
    let x := ctxFin k
    let moving := ((s.ctxInfo r x).map fun i => i.moves.map fun m => m.page).getD []
    n + s.ctxStepPages x + ((s.swapped x).filter fun p => !moving.contains p).length) 0

/-- The free frames of step 3. -/
def State.openFrames (s : State) (r : Fin 8) : Nat := (s.freeFrames r false).length - s.reserved r

/-- Step 4: candidates pre-empted until the frames suffice; those passed over are returned with the state. -/
def State.preemptFor (r : Fin 8) (listed : List Nat) : Nat → List Nat → State → State × List Nat
  | 0, skipped, s => (s, skipped)
  | fuel + 1, skipped, s =>
    if s.needFrames r listed ≤ s.openFrames r + s.comingFrames r then (s, skipped)
    else match s.firstVictim (s.victims r listed skipped) with
      | none => (s, skipped)
      | some n => match s.preempt r (ctxFin n) with
        | some s1 => State.preemptFor r listed fuel (n :: skipped) s1
        | none => State.preemptFor r listed fuel (n :: skipped) (s.spillFull r (ctxFin n))

/-- Step 6: frames reserved for each listed context, and its SWAPPED pages swapped in. -/
def State.reserveFor (s : State) (r : Fin 8) (listed : List Nat) : State :=
  listed.foldl (fun s n =>
    s.onCtx r (ctxFin n) fun i => { i with next := s.ctxStepPages (ctxFin n), awaited := true }) s

/-- The swap-ins that a reserved admission still needs. -/
def State.swapInFor (s : State) (r : Fin 8) (listed : List Nat) : State :=
  listed.foldl (fun s n =>
    let x := ctxFin n
    if s.ctxState x = ctxSwapped then
      ((s.setCtxState x ctxIn).onCtx r x fun i => { i with ending := false, prefetch := false }).runMoves r x
    else if s.ctxState x = ctxIn then (s.onCtx r x fun i => { i with prefetch := false }).runMoves r x
    else s) s

/-- Step 7: every listed context with all its pages resident is ACTIVE, and the invocation is admitted. -/
def State.activateFor (s : State) (r : Fin 8) (listed : List Nat) : State :=
  if listed.all fun n => s.ctxState (ctxFin n) == ctxOpen || s.ctxState (ctxFin n) == ctxActive then
    (listed.foldl (fun s n => (s.setCtxState (ctxFin n) ctxActive).onCtx r (ctxFin n) fun i => { i with awaited := false })
      s).onRing r fun k =>
        { k with admission := none, waiting := k.waiting.modifyHead fun i => { i with admitted := true } }
  else s

/-- Steps 3 to 7 for the head invocation. -/
def State.admitFrames (s : State) (r : Fin 8) (i : Invocation) (listed : List Nat) : State :=
  let adm := (s.ring r).admission.getD ⟨listed, false, []⟩
  if adm.reserved then (s.swapInFor r listed).activateFor r listed
  else
    let (s1, skipped) := State.preemptFor r listed ((s.ring r).ctxs.length + 1) adm.skipped s
    let need := s1.needFrames r listed
    let s2 := s1.onRing r fun k => { k with admission := some ⟨listed, false, skipped⟩ }
    if need ≤ s2.openFrames r then
      let s3 := (s2.reserveFor r listed).onRing r fun k => { k with admission := some ⟨listed, true, skipped⟩ }
      (s3.swapInFor r listed).activateFor r listed
    else if need ≤ s2.openFrames r + s2.comingFrames r ∨ (s2.ring r).current.isSome then s2
    else
      listed.foldl (fun s n => s.setCtxCause (ctxFin n) 4)
        ((s2.refuseInvocation r i stSeqPoolShort).setFld (.ringCtxEvent r) F.ringCtxEvent_POOL_SHORT 1)

/-- Step 2: swap-outs of listed contexts end after the pages in flight. -/
def State.endSwapOuts (s : State) (r : Fin 8) (listed : List Nat) : State :=
  listed.foldl (fun s n =>
    let x := ctxFin n
    if s.ctxState x = ctxOut then (s.onCtx r x fun i => { i with ending := true }).settleSwap r x else s) s

/-- The head invocation with its contexts judged (steps 1 and 2), then given its frames. -/
def State.admitHead (s : State) (r : Fin 8) (i : Invocation) : State :=
  let listed := contextList i
  match listed.findSome? (s.admitRefusal r) with
  | some status => (s.refuseInvocation r i status).setFld (.ringCtxEvent r) F.ringCtxEvent_INVOKE_REFUSED 1
  | none =>
    let s1 := s.endSwapOuts r listed
    if listed.any fun n => s1.ctxState (ctxFin n) == ctxOut then s1
    else if listed.isEmpty then
      s1.onRing r fun k => { k with waiting := k.waiting.modifyHead fun i => { i with admitted := true } }
    else s1.admitFrames r i listed

/-- SEQ_ADMIT: the booth carries on the admission of the head of the pending list (R231); a ring that does not run admits
nothing (R237). -/
def execSeqAdmit (ring : Fin 8) (s : State) : Host.Outcome State Fault Refusal :=
  .next (if s.ringState ring = stRunning then
    match (s.ring ring).waiting with
    | [] => s
    | i :: _ => if i.admitted then s else s.admitHead ring i
  else s)

/-- SWAP_OUT_PAGE_DONE: a page's copy into the SPILL region is complete; any other page changes nothing (R232). -/
def execSwapOutPageDone (ring : Fin 8) (ctx : Fin 4096) (page : Nat) (s : State) : Host.Outcome State Fault Refusal :=
  .next (match s.moveOf ring ctx page with
    | some m => if m.out && !m.host then s.spilled ring ctx m else s
    | none => s)

/-- A page's copy from its SPILL slot is complete (R233, R234). -/
def State.unspilled (s : State) (r : Fin 8) (x : Fin 4096) (m : PageMove) : State :=
  let (s1, d) := s.dramRead (.spill r) (noCommand r) none (pageBytes * ptLoc (s.ptGet x m.page)) pageBytes
  s1.returned r x m (d.getD lostPage)

/-- SWAP_IN_PAGE_DONE: a page's copy from the SPILL region is complete (R233). -/
def execSwapInPageDone (ring : Fin 8) (ctx : Fin 4096) (page : Nat) (s : State) : Host.Outcome State Fault Refusal :=
  .next (match s.moveOf ring ctx page with
    | some m => if !m.out && !m.host then s.unspilled ring ctx m else s
    | none => s)

/-- The answer to a page message has not come within 100 ms (R235). -/
def execPageAnswerTimeout (ring : Fin 8) (ctx : Fin 4096) (page : Nat) (s : State) : Host.Outcome State Fault Refusal :=
  .next (match s.moveOf ring ctx page with
    | some m => if m.host then s.noAnswer ring ctx m else s
    | none => s)

/-! ## The start and the end of a step (R230, R231, R237) -/

/-- A step starts: its contexts' reservations are its own now (R231). -/
def State.stepContexts (s : State) (r : Fin 8) (i : Invocation) : State :=
  (contextList i).foldl (fun s n => s.onCtx r (ctxFin n) fun k => { k with reserve := k.next, next := 0 }) s

/-- A midway page that has left the hot set moves to a DRAM frame, where one is free, reserved or not (R230; log 130). -/
def State.demote (s : State) (r : Fin 8) (x : Fin 4096) (n : Nat) : State :=
  let e := s.ptGet x n
  if !ptTier e || s.isHot x n then s
  else match lowest (s.freeFrames r false) with
    | none => s
    | some f =>
      let gen := nextGen (ptGen e)
      let (s1, d) := s.frameRead r true (ptLoc e)
      (s1.frameWrite r false f gen d).ptPut x n (ptMake ptResident false false gen f)

/-- Every midway page of a ring that has left its context's hot set, moved: contexts in ascending number, pages likewise
(R230). -/
def State.demoteAll (s : State) (r : Fin 8) : State :=
  (s.ring r).ctxs.foldl (fun s p => (s.resident (ctxFin p.1)).foldl (fun s n => s.demote r (ctxFin p.1) n) s) s

/-- A context after its step: reservation released, OPEN unless the admitted next step names it; a CLOSE that waited takes
effect (R223, R231). -/
def State.contextDone (s : State) (r : Fin 8) (keep : List Nat) (n : Nat) : State :=
  let x := ctxFin n
  let s1 := (s.onCtx r x fun i => { i with reserve := 0 })
  if s1.ctxState x ≠ ctxActive then s1
  else if ((s1.ctxInfo r x).map fun i => i.closing).getD false then s1.beginClose r x
  else if keep.contains n then s1
  else s1.setCtxState x ctxOpen

/-- A step ends: hot sets are restored, its contexts are released, and an admission that waited for the end returns to step
3, where a context once passed over is a candidate again (R230, R231). -/
def State.stepEnds (s : State) (r : Fin 8) (i : Invocation) : State :=
  let keep := match (s.ring r).waiting with
    | h :: _ => if h.admitted then contextList h else []
    | [] => []
  ((contextList i).foldl (fun s n => s.contextDone r keep n) (s.demoteAll r)).onRing r fun k =>
    { k with admission := k.admission.map fun a => { a with skipped := [] } }

/-- STOP releases every sequence context: PAGE_DROP for pages that the host holds, the SPILL region zeroised, every entry
ABSENT (R52, R237). -/
def State.releaseContexts (s : State) (r : Fin 8) : State :=
  let region := s.spillRegion r
  let s1 := (s.ring r).ctxs.foldl (fun s p => s.freeContext r (ctxFin p.1)) s
  match region with
  | some (b, n) =>
    { s1 with dram := { s1.dram with
      data := smClear s1.dram.data (unitBytes * b) (unitBytes * (b + n))
      tag := smClear s1.dram.tag (262144 * b) (262144 * (b + n))
      flips := smClear s1.dram.flips (80 * 262144 * b) (80 * 262144 * (b + n)) } }
  | none => s1

end Sys2Proof.Machine
end

