-- ==== Sys2Proof/Machine/Link.lean ====
section
/-! DEFINITION. Trapeze transport: routing (R334), credit and replay (R329, R330), the windows' answer to a request
(R338), and lag measurement (R342). -/

namespace Sys2Proof.Machine

/-! ## Packets and routes -/

/-- The packet kinds of R328. -/
abbrev kWrite : Nat := 1
abbrev kRead : Nat := 2
abbrev kReadData : Nat := 3
abbrev kWriteAck : Nat := 4
abbrev kMessage : Nat := 5
abbrev kLink : Nat := 6

/-- The STATUS codes of a reply (R328), and that of a timeout (R344). -/
abbrev rmOk : Nat := 0
abbrev rmClosed : Nat := 1
abbrev rmDenied : Nat := 2
abbrev rmRange : Nat := 3
abbrev rmUnreachable : Nat := 4
abbrev rmTimeout : Nat := 5

/-- The virtual channel of a kind (R329). -/
def vcOf (kind : Nat) : Fin 3 :=
  if kind = kWrite ∨ kind = kRead then 0 else if kind = kMessage then 2 else 1

/-- A packet's flits: its header and its data (R328). -/
def flitsOf (q : Packet) : Nat := 1 + q.flits.toNat

/-- A packet with its fields; SEQ, ACK and CREDIT are the port's, which fills them in (R328). -/
def mkPacket (src dst window attr : Nat) (txn : BitVec 16) (bytes offset status : Nat) (data : List Byte) : Packet :=
  { flits := BitVec.ofNat 8 (ceilDiv data.length 32), seq := 0, ack := 0, credit := 0
    src := BitVec.ofNat 8 src, dst := BitVec.ofNat 8 dst, window := BitVec.ofNat 8 window, attr := BitVec.ofNat 8 attr
    txn := txn, bytes := BitVec.ofNat 16 bytes, offset := BitVec.ofNat 64 offset, crc := 0
    status := BitVec.ofNat 8 status, reserved := 0, data := padTo (32 * ceilDiv data.length 32) 0 data, corrected := 0 }

/-- The 32-byte header of a packet, big-endian (R12, R328). -/
def packetHeader (kind : Nat) (q : Packet) (crc : Word) : List Byte :=
  beBytes 1 kind ++ beBytes 1 q.flits.toNat ++ beBytes 2 q.seq.toNat ++ beBytes 2 q.ack.toNat ++ beBytes 2 q.credit.toNat ++
    beBytes 1 q.src.toNat ++ beBytes 1 q.dst.toNat ++ beBytes 1 q.window.toNat ++ beBytes 1 q.attr.toNat ++
    beBytes 2 q.txn.toNat ++ beBytes 2 q.bytes.toNat ++ beBytes 8 q.offset.toNat ++ beBytes 4 crc.toNat ++
    beBytes 1 q.status.toNat ++ beBytes 3 q.reserved.toNat

/-- The CRC of a packet: over its header with CRC zero and its data flits (R182, R328). -/
def packetCrc (kind : Nat) (q : Packet) : Word := crc32c (packetHeader kind q 0 ++ q.data)

/-- A packet with its CRC, as it leaves. -/
def sealPacket (kind : Nat) (q : Packet) : Packet := { q with crc := packetCrc kind q }

/-- A packet has the form of R328, and its CRC passes (R330; log 136). -/
def packetOk (kind : Nat) (q : Packet) : Bool :=
  decide (q.flits.toNat ≤ 16) && q.data.length == 32 * q.flits.toNat && decide (q.bytes.toNat ≤ 512) &&
    decide (q.attr.toNat < 64) && (kind == kLink || !q.attr.getLsbD 5) && (kind != kLink || q.seq == 0) && q.reserved == 0 &&
    q.crc == packetCrc kind q

/-- The system's states (R344). -/
abbrev trzOff : Nat := 0
abbrev trzDiscovering : Nat := 1
abbrev trzReady : Nat := 2
abbrev trzDetached : Nat := 3

/-- The state of the system (R344). -/
def State.trzState (s : State) : Nat := s.fld .trzSystemStatus F.trzSystemStatus_STATE

/-- The device is the manager (R326). -/
def State.isManager (s : State) : Bool := s.fld .trzSystemStatus F.trzSystemStatus_ROLE == 1

/-- The device is a worker (R326). -/
def State.isWorker (s : State) : Bool := s.fld .trzSystemStatus F.trzSystemStatus_ROLE == 2

/-- The device's number (R333). -/
def State.deviceNo (s : State) : Nat := s.fld .trzSystemStatus F.trzSystemStatus_DEVICE

/-- The port states of R344. -/
abbrev ptOff : Nat := 0
abbrev ptTraining : Nat := 1
abbrev ptUp : Nat := 2
abbrev ptDown : Nat := 3
abbrev ptRoleErr : Nat := 4
abbrev ptExcluded : Nat := 5

/-- The state of a port (R327). -/
def State.portState (s : State) (p : Fin 4) : Nat := s.fld (.trzPortStatus p) F.trzPortStatus_STATE

/-- The state with a port's state set. -/
def State.setPortState (s : State) (p : Fin 4) (st : Nat) : State :=
  s.setFld (.trzPortStatus p) F.trzPortStatus_STATE st

/-- The port is a downlink (R326). -/
def State.isDownlink (s : State) (p : Fin 4) : Bool := s.fld (.trzPortStatus p) F.trzPortStatus_PORT_ROLE == 2

/-- A worker's uplink port (R326). -/
def State.uplink (s : State) : Fin 4 := ⟨s.fld .trzSystemStatus F.trzSystemStatus_UPLINK % 4, by omega⟩

/-- Where a packet goes: to the device itself, out of a port, or nowhere, with the port that it could not take (R334). -/
inductive Route where
  | here
  | out (p : Fin 4)
  | nowhere (p : Option (Fin 4))
  deriving DecidableEq, Repr

/-- The downlink whose subtree holds a device (R334). -/
def State.downlinkTo (s : State) (n : Nat) : Option (Fin 4) :=
  (List.finRange 4).find? fun p =>
    s.isDownlink p && s.fld (.trzPortStatus p) F.trzPortStatus_SUBTREE_VALID == 1 &&
      decide (s.fld (.trzPortStatus p) F.trzPortStatus_FIRST ≤ n) &&
      decide (n ≤ s.fld (.trzPortStatus p) F.trzPortStatus_LAST)

/-- A port that carries more than HELLO is a route while it is UP, and through a retrain, in which its packets wait (R330,
R334, R335). -/
def State.viaPort (s : State) (p : Fin 4) : Route :=
  if (s.portState p = ptUp ∨ s.portState p = ptTraining) ∧ !s.trz.ports[p].helloOnly ∧ !s.trz.ports[p].excluded then .out p
  else .nowhere (some p)

/-- The route of a packet for a device (R334). -/
def State.routeTo (s : State) (n : Nat) : Route :=
  if s.trzState ≠ trzReady then .nowhere none
  else if n = s.deviceNo then .here
  else if s.fld .trzSystemStatus F.trzSystemStatus_COUNT ≤ n then .nowhere none
  else match s.downlinkTo n with
    | some p => s.viaPort p
    | none => if s.isWorker then s.viaPort s.uplink else .nowhere none

/-! ## Ports -/

/-- The CREDIT field of the next packet: the first virtual channel with flits to return (R328, R329). -/
def creditField (owed : Vector Nat 3) : BitVec 16 :=
  match (List.finRange 3).find? fun v => decide (0 < owed[v]) with
  | some v => BitVec.ofNat 16 (16384 * v.val + min owed[v] 16383)
  | none => 0

/-- What is still owed after that packet. -/
def creditLeft (owed : Vector Nat 3) : Vector Nat 3 :=
  match (List.finRange 3).find? fun v => decide (0 < owed[v]) with
  | some v => owed.set v (owed[v] - min owed[v] 16383)
  | none => owed

/-- A packet can leave: credit for all its flits and a place in the replay buffer (R329, R330). -/
def canSend (k : TrzPort) (x : TxPacket) : Bool :=
  decide (flitsOf x.body ≤ k.credit[vcOf x.kind]) && decide (k.replay.length < 256)

/-- A packet sent with the next SEQ (R328 to R330). -/
def transmit (k : TrzPort) (x : TxPacket) : TrzPort :=
  let y : TxPacket := { x with body := sealPacket x.kind { x.body with
    seq := k.txSeq, ack := k.expect - 1, credit := creditField k.owed, corrected := 0 } }
  { k with
    txSeq := k.txSeq + 1
    replay := k.replay ++ [y]
    resends := k.resends ++ [0]
    sent := k.sent ++ [y]
    credit := k.credit.set (vcOf x.kind) (k.credit[vcOf x.kind] - flitsOf x.body)
    owed := creditLeft k.owed }

/-- The first waiting packet that can leave, each virtual channel in its order (R329). -/
def firstSendable (k : TrzPort) : List TxPacket → List (Fin 3) → Option TxPacket
  | [], _ => none
  | x :: t, blocked =>
    if blocked.contains (vcOf x.kind) then firstSendable k t blocked
    else if canSend k x then some x
    else firstSendable k t (vcOf x.kind :: blocked)

/-- Waiting packets sent while they can leave. -/
def pumpPort : Nat → TrzPort → TrzPort
  | 0, k => k
  | fuel + 1, k =>
    match firstSendable k k.waiting [] with
    | none => k
    | some x => pumpPort fuel (transmit { k with waiting := k.waiting.erase x } x)

/-- The transmitters are in electrical idle: in reset, Standby and Deep standby (R325). -/
def State.trzIdle (s : State) : Bool :=
  s.heldReset || s.boot.phase == .inReset || s.boot.phase == .deepStandby || s.fld .secStatus F.secStatus_POWER == 2

/-- The port sends packets: its link is up, UP or EXCLUDED (R327, R333). -/
def State.portTalks (s : State) (p : Fin 4) : Bool :=
  !s.trzIdle && (s.portState p == ptUp || (s.portState p == ptExcluded && s.trz.ports[p].linkUp))

/-- What waits at a port leaves as it can. -/
def State.pumpOut (s : State) (p : Fin 4) : State :=
  if s.portTalks p then s.onPort p fun k => pumpPort (k.waiting.length + 1) k else s

/-- A packet of the device handed to a port: it leaves, or it waits for credit or for the end of a retrain (R329). -/
def State.portSend (s : State) (p : Fin 4) (x : TxPacket) : State :=
  (s.onPort p fun k => { k with waiting := k.waiting ++ [x] }).pumpOut p

/-- A LINK packet: SEQ zero, with ACK, the credit due and, where asked, NAK (R328, R330). -/
def State.sendLink (s : State) (p : Fin 4) (nak : Bool) : State :=
  s.onPort p fun k =>
    { k with
      sent := k.sent ++ [⟨kLink, sealPacket kLink { mkPacket s.deviceNo 0 0 (if nak then 32 else 0) 0 0 0 0 [] with
        ack := k.expect - 1, credit := creditField k.owed }⟩]
      owed := creditLeft k.owed }

/-- TRZ_PORT_COUNT 4 of the port that a packet could not take (R334). -/
def State.countNowhere (s : State) (p : Option (Fin 4)) : State :=
  match p with
  | some p => s.bump (.trzPortCount p 4) F.trzPortCount_COUNT 1
  | none => s

/-! ## Lag measurement (R342) -/

/-- The booth's count, as the time of lag measurement. -/
def State.boothTime (s : State) : Nat := (s.count boothIsland).toNat

/-- Booth cycles from one count to a later one (R25). -/
def since (a b : Nat) : Nat := (b + 281474976710656 - a) % 281474976710656

/-- A device is in the distribution (R342, R344). -/
def State.inDistribution (s : State) (d : Nat) : Bool :=
  decide (d < 128) && (s.reg (.trzDistribution ⟨d / 32 % 4, by omega⟩)).getLsbD (d % 32)

/-- The measured workers: in the distribution, with at least one arrival. -/
def State.measured (s : State) : List LagWorker := s.trz.workers.filter fun w => s.inDistribution w.device

/-- The window that is open with LAG (R337). -/
def State.lagWindow (s : State) : Option (Fin 256) :=
  (List.finRange 256).find? fun w =>
    s.fld (.trzWindowStatus w) F.trzWindowStatus_STATE == 1 && s.fld (.trzWindowAttr w) F.trzWindowAttr_LAG == 1

/-- The ring of a window (R336). -/
def State.windowRing (s : State) (w : Fin 256) : Fin 8 :=
  ⟨s.fld (.trzWindowStatus w) F.trzWindowStatus_RING % 8, by omega⟩

/-- The first address of a window, in the form of BUF_BASE (R336). -/
def State.windowBase (s : State) (w : Fin 256) : DWord := s.reg64 (.trzWindowBase w 0) (.trzWindowBase w 1)

/-- The distribution record (R342): the mask in bytes 0 to 15, the removals in bytes 16 to 19, zeros. -/
def State.lagRecord (s : State) : List Byte :=
  (List.finRange 4).flatMap (fun k => leBytes 4 (s.reg (.trzDistribution k)).toNat) ++
    leBytes 4 s.trz.removals ++ List.replicate 44 0

/-- The booth writes the distribution record (R342). -/
def State.writeLagRecord (s : State) : State :=
  match s.lagWindow with
  | some w => (s.bufWrite (s.windowRing w) (s.windowBase w) 0 (cleanBytes s.lagRecord)).1
  | none => s

/-- The state with a worker of the measurement changed. -/
def State.onWorker (s : State) (d : Nat) (f : LagWorker → LagWorker) : State :=
  { s with trz := { s.trz with workers := s.trz.workers.map fun w => if w.device == d then f w else w } }

/-- A worker removed from the distribution: its bit, the record, and the LAG window's FLAG; its arrivals stay counted, so that
after it is restored its steps go on (R342). -/
def State.removeWorker (s : State) (d : Nat) : State :=
  let k : Fin 4 := ⟨d / 32 % 4, by omega⟩
  let s1 := s.setReg (.trzDistribution k) (s.reg (.trzDistribution k) &&& ~~~ ((1 : Word) <<< (d % 32)))
  let s2 := { s1 with trz := { s1.trz with
    removals := min (s1.trz.removals + 1) 4294967295 } }
  let s3 := (s2.setFld .trzLagEvent F.trzLagEvent_REMOVED 1).writeLagRecord
  match s3.lagWindow with
  | some w =>
    if h : 0 < s3.fld (.trzWindowAttr w) F.trzWindowAttr_FLAG ∧ s3.fld (.trzWindowAttr w) F.trzWindowAttr_FLAG < 256 then
      s3.crossPut .boothToConcourse (.setFlag (s3.windowRing w) ⟨s3.fld (.trzWindowAttr w) F.trzWindowAttr_FLAG, h.2⟩)
    else s3
  | none => s3

/-- A streak is reported, and under REMOVE its worker is removed (R342). -/
def State.reportLag (s : State) (d : Nat) : State :=
  let s1 := ((s.setFld .trzLagEvent F.trzLagEvent_REPORTED 1).setFld .trzLagEvent F.trzLagEvent_DEVICE d).onWorker d
    fun w => { w with streak := w.streak.map fun p => (p.1, true) }
  if s1.fld .trzLagConfig F.trzLagConfig_POLICY = 1 then s1.removeWorker d else s1

/-- The time t_k (R342). -/
def State.stepTime (s : State) (k : Nat) : Option Nat := if k = 0 then none else s.trz.stepTimes[k - 1]?

/-- The booth decides step `k` of a worker (R342). -/
def State.decideStep (s : State) (d k : Nat) (behind : Bool) : State :=
  match s.stepTime k, behind with
  | some t, true =>
    let s1 := s.onWorker d fun w => { w with decided := k, streak := some (w.streak.getD (t, false)) }
    match (s1.trz.workers.find? fun w => w.device == d).bind fun w => w.streak with
    | some (start, false) => if 400000000 < since start s1.boothTime then s1.reportLag d else s1
    | _ => s1
  | _, _ => s.onWorker d fun w => { w with decided := k, streak := none }

/-- Arrivals of step `k` among the measured workers. -/
def State.arrivalsOf (s : State) (k : Nat) : Nat := (s.measured.filter fun w => decide (k ≤ w.arrivals.length)).length

/-- t_(j) forms: the workers that have not arrived for step j − 1 are decided (R342). -/
def State.formStep (s : State) : State :=
  let j := s.trz.stepTimes.length + 1
  let s1 := { s with trz := { s.trz with stepTimes := s.trz.stepTimes ++ [s.boothTime] } }
  (s1.measured.filter fun w => decide (w.arrivals.length < j - 1) && decide (w.decided < j - 1)).foldl
    (fun s w => s.decideStep w.device (j - 1) true) s1

/-- The times that the arrivals so far let form; `n` bounds their number. -/
def State.formSteps : Nat → State → State
  | 0, s => s
  | fuel + 1, s =>
    let need := ceilDiv s.measured.length 2
    if 0 < need ∧ need ≤ s.arrivalsOf (s.trz.stepTimes.length + 1) then State.formSteps fuel s.formStep else s

/-- A worker that arrives at a time after t_k by more than a tenth of P_k is behind (R342). -/
def State.lateAt (s : State) (k now : Nat) : Bool :=
  match s.stepTime k, s.stepTime (k - 1) with
  | some t, some t0 => decide (since t0 t < 10 * since t now)
  | _, _ => false

/-- An arrival of a worker (R342). -/
def State.lagArrival (s : State) (d : Nat) : State :=
  let now := s.boothTime
  let known := s.trz.workers.any fun w => w.device == d
  let s1 := if known then s else { s with trz := { s.trz with workers := s.trz.workers ++ [⟨d, [], 0, none⟩] } }
  let s2 := s1.onWorker d fun w => { w with arrivals := w.arrivals ++ [now] }
  let s3 := State.formSteps 2 s2
  match s3.trz.workers.find? fun w => w.device == d with
  | some w =>
    let k := w.arrivals.length
    if w.decided < k then s3.decideStep d k (s3.lateAt k now) else s3
  | none => s3

/-! ## Requests into windows (R338) -/

/-- What the window table finds of a request: the STATUS of R338, 0 where the access may go ahead. -/
def State.windowCheck (s : State) (kind : Nat) (q : Packet) (w : Fin 256) : Nat :=
  let attr := s.reg (.trzWindowAttr w)
  let src := q.src.toNat
  let permitted := decide (src < 128) &&
    (s.reg (.trzWindowPermit w ⟨src / 32 % 4, by omega⟩)).getLsbD (src % 32) && attr.getLsbD (24 + q.attr.toNat % 8) &&
    (if kind = kWrite then attr.getLsbD 1 else attr.getLsbD 0) && (!q.attr.getLsbD 4 || attr.getLsbD 2)
  let o := q.offset.toNat
  let n := q.bytes.toNat
  if s.fld (.trzWindowStatus w) F.trzWindowStatus_STATE ≠ 1 then rmClosed
  else if !permitted then rmDenied
  else if (s.reg (.trzWindowLength w)).toNat * 512 < o + n || decide (512 < o % 512 + n) then rmRange
  else rmOk

/-- Bytes written through a window: false where the controller refuses them (R183, R338). -/
def State.windowWrite (s : State) (w : Fin 256) (o : Nat) (d : List PByte) : State × Bool :=
  let r := s.windowRing w
  let a := s.windowBase w
  if bufDram a then s.dramWrite (.window w r) (noCommand r) 0 (bufAddr a + o) d
  else (s.mwyWrite r (noCommand r) (bufAddr a + o) d, true)

/-- Bytes read through a window. -/
def State.windowRead (s : State) (w : Fin 256) (o n : Nat) : State × Option (List PByte) :=
  let r := s.windowRing w
  let a := s.windowBase w
  if bufDram a then s.dramRead (.window w r) (noCommand r) none (bufAddr a + o) n
  else
    let (s1, d) := s.mwyRead r (noCommand r) (bufAddr a + o) n
    (s1, some d)

/-- The reply to a request, addressed to its sender (R328). -/
def State.answer (s : State) (kind : Nat) (q : Packet) (status : Nat) (data : List PByte) : TxPacket :=
  ⟨if kind = kWrite then kWriteAck else kReadData,
    mkPacket s.deviceNo q.src.toNat q.window.toNat (q.attr.toNat % 8 + 8 * bitNat (anyPoison data)) q.txn data.length
      q.offset.toNat status (rawBytes data)⟩

/-- A request refused at the window table. -/
def State.refuseRemote (s : State) (kind : Nat) (q : Packet) (w : Fin 256) (status : Nat) : State × TxPacket :=
  (s.bump (.trzWindowCount w 1) F.trzWindowCount_COUNT 1, s.answer kind q status [])

/-- What SET_FLAG asks of the window's ring (R339). -/
def State.windowFlag (s : State) (w : Fin 256) (via : Fin 4) : State :=
  if h : 0 < s.fld (.trzWindowAttr w) F.trzWindowAttr_FLAG ∧ s.fld (.trzWindowAttr w) F.trzWindowAttr_FLAG < 256 then
    s.crossPut (.trzToConcourse via) (.setFlag (s.windowRing w) ⟨s.fld (.trzWindowAttr w) F.trzWindowAttr_FLAG, h.2⟩)
  else s

/-- A WRITE with SET_FLAG into the LAG window from a worker of the distribution is an arrival; device 0 is no worker (R326,
R333, R342). -/
def State.windowArrival (s : State) (w : Fin 256) (q : Packet) : State :=
  if s.fld (.trzWindowAttr w) F.trzWindowAttr_LAG = 1 ∧ s.fld .trzLagConfig F.trzLagConfig_ENABLE = 1 ∧
      q.src ≠ 0 ∧ s.inDistribution q.src.toNat then s.lagArrival q.src.toNat
  else s

/-- A READ or WRITE addressed to this device, and its reply (R338, R339, R342). `via` is the port that it came by. -/
def State.serve (s : State) (via : Fin 4) (kind : Nat) (q : Packet) : State × TxPacket :=
  let w : Fin 256 := ⟨q.window.toNat, q.window.isLt⟩
  match s.windowCheck kind q w with
  | 0 =>
    if kind = kWrite then
      match s.windowWrite w q.offset.toNat ((q.data.take q.bytes.toNat).map fun b => (b, q.attr.getLsbD 3)) with
      | (s1, true) =>
        let s2 := s1.bump (.trzWindowCount w 0) F.trzWindowCount_COUNT 1
        let s3 := if q.attr.getLsbD 4 then (s2.windowFlag w via).windowArrival w q else s2
        (s3, s3.answer kind q rmOk [])
      | (s1, false) => s1.refuseRemote kind q w rmDenied
    else
      match s.windowRead w q.offset.toNat q.bytes.toNat with
      | (s1, some d) => (s1.bump (.trzWindowCount w 0) F.trzWindowCount_COUNT 1, s1.answer kind q rmOk d)
      | (s1, none) => s1.refuseRemote kind q w rmDenied
  | status => s.refuseRemote kind q w status

end Sys2Proof.Machine
end

