-- ==== Sys2Proof/Machine/Dma.lean ====
section
/-! DEFINITION. The local DMA engine: DMA and DMA_COMPLETE (R88, R108, R111, R121, R141 to R143, R149 to R151, R167,
R168, R183, R224, R225, R228, R339, R340). -/

namespace Sys2Proof.Machine

/-! ## Places of bytes -/

/-- Pieces of a transfer whose units of `unit` bytes lie at `at_ k`: address and length of each piece of the bytes `pos` to
`pos + len - 1`. -/
def piecesOf (unit : Nat) (at_ : Nat → Nat) (pos len : Nat) : List (Nat × Nat) :=
  (List.range (ceilDiv (pos + len) unit - pos / unit)).map fun i =>
    let k := pos / unit + i
    let lo := max pos (k * unit)
    (at_ k + (lo - k * unit), min (pos + len) ((k + 1) * unit) - lo)

/-- The address of element `k` of a strided pattern (R149). -/
def elemAt (addr stride inner outer k : Nat) : Nat := addr + k % inner * stride + k / inner * outer

/-- The element addresses of a pattern, for the checks of R57. -/
def patternOk (addr bytes : Nat) : Pattern → Bool
  | .contiguous => inCore addr bytes
  | .strided e stride inner outer =>
    (List.range (bytes / e)).all fun k =>
      elemAt addr stride inner outer k % e == 0 && inCore (elemAt addr stride inner outer k) e
  | .transpose4 pitch => inCore (addr + 31 * pitch) 16
  | .transpose8 pitch => inCore (addr + 15 * pitch) 16

/-- Row bytes transposed (R149): output row j, byte by byte, from the rows of a block. -/
def transposed4 (rows : List (List PByte)) : List PByte :=
  (List.range 32).flatMap fun j => (List.range 16).map fun p =>
    let code (i : Nat) : Nat × Bool :=
      let b := ((rows.getD i []).getD (j / 2) (0, false))
      (if j % 2 = 0 then b.1.toNat % 16 else b.1.toNat / 16, b.2)
    (BitVec.ofNat 8 ((code (2 * p)).1 + 16 * (code (2 * p + 1)).1), (code (2 * p)).2 || (code (2 * p + 1)).2)

/-- An 8-bit block transposed (R149). -/
def transposed8 (rows : List (List PByte)) : List PByte :=
  (List.range 16).flatMap fun j => (List.range 16).map fun i => (rows.getD i []).getD j (0, false)

/-- Pieces of core memory read one after the other. -/
def State.cmPieces (tag : Tag) (c : Fin 16) : List (Nat × Nat) → State → State × List PByte
  | [], s => (s, [])
  | (a, n) :: t, s =>
    let (s1, d) := s.cmRead tag c a n
    let (s2, l) := State.cmPieces tag c t s1
    (s2, d ++ l)

/-- Rows of 16 bytes read. -/
def State.cmRows (s : State) (tag : Tag) (c : Fin 16) (addr pitch n : Nat) : State × List (List PByte) :=
  let (s1, d) := State.cmPieces tag c ((List.range n).map fun i => (addr + i * pitch, 16)) s
  (s1, chunksOf 16 (n + 1) d)

/-- A read of core memory in one of the forms of R149: the bytes `pos` to `pos + len - 1` that it delivers. -/
def State.patternRead (s : State) (tag : Tag) (c : Fin 16) (addr : Nat) (pat : Pattern) (pos len : Nat) : State × List PByte :=
  match pat with
  | .contiguous => s.cmRead tag c (addr + pos) len
  | .strided e stride inner outer => State.cmPieces tag c (piecesOf e (elemAt addr stride inner outer) pos len) s
  | .transpose4 pitch =>
    let (s1, rows) := s.cmRows tag c addr pitch 32
    (s1, part (transposed4 rows) pos len)
  | .transpose8 pitch =>
    let (s1, rows) := s.cmRows tag c addr pitch 16
    (s1, part (transposed8 rows) pos len)

/-- Bytes of an operand memory (R59, R73). -/
def fillSize : FillBuf → Nat
  | .w => 262144
  | .a => 262144
  | .wexp => 16384
  | .aexp => 16384
  | .ds => 4096

/-- Where an operand memory begins in the operand space. -/
def fillBase : FillBuf → Nat
  | .w => opW
  | .a => opA
  | .wexp => opWexp
  | .aexp => opAexp
  | .ds => opDs

/-- A fill lies within its memory, in whole 16-byte half-blocks where it fills blocks (R141; log 32). -/
def fillOk (b : FillBuf) (addr bytes : Nat) : Bool :=
  decide (addr + bytes ≤ fillSize b) &&
    (match b with
    | .w => addr % 16 == 0 && bytes % 16 == 0
    | .a => addr % 16 == 0 && bytes % 16 == 0
    | .wexp => true
    | .aexp => true
    | .ds => true)

/-- Rows of a DRAM page read one after the other. -/
def State.dramPieces (r : Fin 8) (tag : Tag) (gen : Option (BitVec 16)) :
    List (Nat × Nat) → State → State × Option (List PByte)
  | [], s => (s, some [])
  | (a, n) :: t, s =>
    match s.dramRead (.ring r) tag gen a n with
    | (s1, none) => (s1, none)
    | (s1, some d) =>
      match State.dramPieces r tag gen t s1 with
      | (s2, none) => (s2, none)
      | (s2, some l) => (s2, some (d ++ l))

/-- The bytes `pos` to `pos + len - 1` of a transfer read at its source; none where the read is refused. -/
def State.placeRead (s : State) (r : Fin 8) (c : Fin 16) (tag : Tag) (x : Transfer) (pos len : Nat) :
    State × Option (List PByte) :=
  match x.src with
  | .cm addr pat =>
    let (s1, d) := s.patternRead tag c addr pat pos len
    (s1, some d)
  | .mwy addr =>
    let (s1, d) := s.mwyRead r tag (addr + pos) len
    (s1, some d)
  | .dram addr => s.dramRead (.ring r) tag x.expectGen (addr + pos) len
  | .rows dram base first pitch offset per =>
    let l := piecesOf per (fun i => base + (first + i) * pitch + offset) pos len
    if dram then State.dramPieces r tag x.expectGen l s
    else
      let out := l.foldl (fun (acc : State × List PByte) p =>
        let (s1, d) := acc.1.mwyRead r tag p.1 p.2
        (s1, acc.2 ++ d)) (s, [])
      (out.1, some out.2)
  | .gone => (s, some (cleanBytes (List.replicate len 0)))
  | .buf _ _ => (s, some [])
  | .remote _ _ _ _ => (s, some [])

/-- Pieces of a transfer written one after the other by `put`, up to the first that is refused. -/
def State.putPieces (put : State → Nat → List PByte → State × Bool) :
    List (Nat × Nat) → List PByte → State → State × Bool
  | [], _, s => (s, true)
  | (a, n) :: t, d, s =>
    match put s a (d.take n) with
    | (s1, false) => (s1, false)
    | (s1, true) => State.putPieces put t (d.drop n) s1

/-- Bytes from `pos` on written at a transfer's destination; false where the write is refused. -/
def State.placeWrite (s : State) (r : Fin 8) (c : Fin 16) (tag : Tag) (x : Transfer) (pos : Nat) (d : List PByte) :
    State × Bool :=
  match x.dst with
  | .cm addr _ => (s.cmWrite tag c (addr + pos) d, true)
  | .mwy addr => (s.mwyWrite r tag (addr + pos) d, true)
  | .dram addr => s.dramWrite (.ring r) tag x.gen (addr + pos) d
  | .buf b addr => (s.onCore c (opPut (fillBase b + addr + pos) d), true)
  | .rows dram base first pitch offset per =>
    State.putPieces (fun s a l => if dram then s.dramWrite (.ring r) tag x.gen a l else (s.mwyWrite r tag a l, true))
      (piecesOf per (fun i => base + (first + i) * pitch + offset) pos d.length) d s
  | .gone => (s, true)
  | .remote _ _ _ _ => (s, true)

/-! ## Addresses resolved -/

/-- The isolation fault of a DMA command at its own engine (R57). -/
def State.dmaFault (s : State) (r : Fin 8) (c : Fin 16) (tag : Tag) (row access len addr : Nat) : State :=
  s.isolation r tag isCore c.val row access len addr

/-- A midway end (R167, R168): in the midway, at its fall-back, or refused. Every byte of an end of no bytes lies below the
size of the space. -/
def State.resolveMwy (s : State) (r : Fin 8) (c : Fin 16) (tag : Tag) (access addr bytes : Nat) (fallback : Option Nat) :
    State × Option Place :=
  if bytes = 0 ∨ addr + bytes ≤ s.mwySize r then (s, some (.mwy addr))
  else match fallback with
    | some f =>
      if f + bytes ≤ s.dramSize ∧ s.inRegions r f bytes then
        (s.bump (.ringMwyRedirect r) F.ringMwyRedirect_COUNT 1, some (.dram f))
      else (s.dmaFault r c tag 2 access bytes addr, none)
    | none => (s.dmaFault r c tag 2 access bytes addr, none)

/-- The page walker's reading of an entry: from the translation cache, or from the page table under the booth's owner
code; with its poison (R226, R228, R444). -/
def State.walk (s : State) (c : Fin 16) (tag : Tag) (x : Fin 4096) (page : Nat) : State × DWord × Bool :=
  match (s.core c).tlb.find? fun t => t.ctx == x.val && t.page == page with
  | some t => (s, t.entry, false)
  | none =>
    match s.dramRead .booth tag none (ptAddr (s.ctxBase x + page)) 8 with
    | (s1, some d) => (s1, BitVec.ofNat 64 (leVal (rawBytes d)), anyPoison d)
    | (s1, none) => (s1, 0, false)

/-- A translation kept: the latest of 64 (R228; log 22). -/
def State.keepTranslation (s : State) (c : Fin 16) (x : Fin 4096) (page : Nat) (e : DWord) : State :=
  s.onCore c fun k =>
    let rest := k.tlb.filter fun t => !(t.ctx == x.val && t.page == page)
    { k with tlb := ⟨x.val, page, e⟩ :: rest.take 63 }

/-- The rows of a resident page as a place (R224, R227, R228). -/
def pagePlace (e : DWord) (first pitch offset per : Nat) : Place :=
  .rows (!ptTier e) (pageBytes * ptLoc e) first pitch offset per

/-- A resolved sequence address: its place, and the generation of a DRAM-tier page. -/
abbrev SeqPlace := Place × Option (BitVec 16)

/-- A page as the walker finds it (R228). -/
def State.seqPage (s : State) (r : Fin 8) (c : Fin 16) (tag : Tag) (x : Fin 4096) (page first pitch offset per bytes : Nat)
    (write : Bool) : State × Option SeqPlace :=
  let (s1, e, poison) := s.walk c tag x page
  let gen (e : DWord) : Option (BitVec 16) := if ptTier e then none else some (BitVec.ofNat 16 (ptGen e))
  if poison then (s1.poisoned r tag 0 isCore c.val 3 7 0, none)
  else if ptState e = ptResident then
    (s1.keepTranslation c x page e, some (pagePlace e first pitch offset per, gen e))
  else if ptState e = ptAbsent then
    if write then
      match s1.allocPage r x page with
      | some s2 =>
        let e2 := s2.ptGet x page
        (s2.keepTranslation c x page e2, some (pagePlace e2 first pitch offset per, gen e2))
      | none => (s1.dmaFault r c tag 5 1 bytes 0, none)
    else (s1.setFld (.ringCtxStatus x) F.ringCtxStatus_ABSENT_READ 1, some (.gone, none))
  else (s1.dmaFault r c tag 5 (bitNat write) bytes 0, none)

/-- A sequence address (R224, R228): the context must be the ring's and ACTIVE, the page below PT_COUNT, and the transfer
within the page. -/
def State.resolveSeq (s : State) (r : Fin 8) (c : Fin 16) (tag : Tag) (ctx : Fin 4096) (stream token offset per bytes : Nat)
    (write : Bool) : State × Option SeqPlace :=
  let pitch := 2 ^ s.ctxRbLog ctx
  let page := token / s.ctxTpp ctx * s.ctxStreams ctx + stream
  let first := token % s.ctxTpp ctx
  if !(s.ctxOwned r ctx.val) || s.ctxState ctx != ctxActive || decide (s.ctxCount ctx ≤ page) ||
      decide (pageBytes < (first + bytes / per - 1) * pitch + offset + per) then
    (s.dmaFault r c tag 5 (bitNat write) bytes 0, none)
  else s.seqPage r c tag ctx page first pitch offset per bytes write

/-- One end of a DMA resolved to a place, with the generation of a page; none where it is refused (R57, R141, R167, R228). -/
def State.resolveEnd (s : State) (r : Fin 8) (c : Fin 16) (tag : Tag) (bytes : Nat) (write : Bool) :
    DmaEnd → State × Option SeqPlace
  | .cm addr pat =>
    if bytes = 0 ∨ patternOk addr bytes pat then (s, some (.cm addr pat, none))
    else (s.dmaFault r c tag 9 (bitNat write) bytes 0, none)
  | .mwy addr fallback =>
    match s.resolveMwy r c tag (bitNat write) addr bytes fallback with
    | (s1, some p) => (s1, some (p, none))
    | (s1, none) => (s1, none)
  | .dram addr => (s, some (.dram addr, none))
  | .buf b addr =>
    if fillOk b addr bytes then (s, some (.buf b addr, none)) else (s.dmaFault r c tag 9 1 bytes 0, none)
  | .seq ctx stream token offset per => s.resolveSeq r c tag ctx stream token offset per bytes write
  | .remote device window offset setFlag => (s, some (.remote device window offset setFlag, none))

/-! ## Fills -/

/-- The regions, or drain-scale groups, that a fill touches, by the numbers of CHECK 5 (R59, R123). -/
def fillRegions (b : FillBuf) (addr bytes : Nat) : List Nat :=
  let span (unit : Nat) : List Nat := (List.range (ceilDiv (addr + bytes) unit - addr / unit)).map fun i => addr / unit + i
  if bytes = 0 then [] else match b with
  | .a => span 16384
  | .aexp => span 1024
  | .w => (span 16384).map fun i => 16 + i
  | .wexp => (span 1024).map fun i => 16 + i
  | .ds => (span 1024).map fun i => 32 + i

/-- The mark that a number of CHECK 5 stands for is set (R123). -/
def regionValid (k : Core) (n : Nat) : Bool :=
  if n < 16 then k.aValid.getLsbD n else if n < 32 then k.wValid.getLsbD (n - 16) else k.dsValid.getLsbD (n - 32)

/-- CHECK 5 of the audit: a fill into a region whose valid mark is set (R121, R123). -/
def fillViolation (k : Core) (regions : List Nat) : Option Violation :=
  (regions.find? (regionValid k)).map fun n => ⟨0, 5, n, 0, 0⟩

/-- The exponents of the 16-bit blocks that a fill writes, in entry 2L of a pair of lines L and L + 1: each from the
elements of the block that the fill itself writes (R59, R60, R88; log 120). -/
def deriveFill (b : FillBuf) (fmt : ArrFmt) (addr bytes : Nat) (k : Core) : Core :=
  let exp := if b == .w then opWexp else opAexp
  (List.range (ceilDiv (addr + bytes) 2048 - addr / 2048)).foldl (fun k i =>
    let pair := addr / 2048 + i
    (List.range 32).foldl (fun k blk =>
      let places := (List.range 32).map fun e => 2048 * pair + 32 * blk + 1024 * (e / 16) + 2 * (e % 16)
      match places.filter fun a => decide (addr ≤ a) && decide (a + 2 ≤ addr + bytes) with
      | [] => k
      | l =>
        let codes := l.map fun a => leVal (smRead 0 k.opnd (fillBase b + a) 2)
        opPut (exp + 128 * pair + blk) [(BitVec.ofNat 8 (deriveExp (codes.map (expand fmt))), false)] k) k) k

/-- The stream exponent written into every exponent entry that a narrow fill touches (R225). -/
def exponentFill (b : FillBuf) (fmt : ArrFmt) (e : Byte) (addr bytes : Nat) (k : Core) : Core :=
  let exp := if b == .w then opWexp else opAexp
  let unit := if fmt = .code4 then 16 else 32
  (List.range (ceilDiv (addr + bytes) unit - addr / unit)).foldl (fun k i =>
    let n := addr / unit + i
    let at_ := if fmt = .code4 then 32 * (n / 32) + n % 32 else 64 * (n / 32) + n % 32
    opPut (exp + at_) [(e, false)] k) k

/-- The exponents of R88 for a remote transfer of which the bytes up to `pos` have been delivered. -/
def fillPiece (x : Transfer) (pos : Nat) (k : Core) : Core :=
  match x.dst, x.fill with
  | .buf b addr, some fmt => deriveFill b fmt addr pos k
  | _, _ => k

/-- The exponents that go with the blocks of a fill (R88, R143, R225). -/
def fillExponents (cmd : DmaCmd) (bytes : Nat) (k : Core) : Core :=
  match cmd.dst, cmd.fmt with
  | .buf b addr, some fmt =>
    match cmd.seqExp with
    | some e => exponentFill b fmt e addr bytes k
    | none => deriveFill b fmt addr bytes k
  | _, _ => k

/-! ## Remote transfers (R339, R340) -/

/-- The transfer of a core's DMA engine changed. -/
def State.onDma (s : State) (c : Fin 16) (f : EngineBusy → EngineBusy) : State :=
  s.onCore c fun k => { k with dmaBusy := k.dmaBusy.map f }

/-- A core's DMA command ends without completing; the replies that it waits for find nothing (R340). -/
def State.dmaDrop (s : State) (c : Fin 16) : State :=
  let s1 := { s with trz := { s.trz with remotes := s.trz.remotes.filter fun q => q.core != c } }
  s1.onCore c fun k => { k with dmaBusy := none }

/-- TRZ_REMOTE_STATUS after a request that failed (R340, R344). -/
def State.remoteFailed (s : State) (r : Fin 8) (q : RemoteReq) (status : Nat) : State :=
  let s1 := (s.setFld .trzRemoteStatus F.trzRemoteStatus_STATUS status).setFld .trzRemoteStatus F.trzRemoteStatus_RING r.val
  let s2 := s1.setFld .trzRemoteStatus F.trzRemoteStatus_DEVICE q.device.toNat
  if rmUnreachable ≤ status then s2.setFld .trzRemoteStatus F.trzRemoteStatus_LOST 1
  else s2.setFld .trzRemoteStatus F.trzRemoteStatus_DENIED 1

/-- The area of a REMOTE record (R446). -/
def remoteArea (q : RemoteReq) (status : Nat) : List Byte :=
  [BitVec.ofNat 8 status, q.device, q.window, BitVec.ofNat 8 (bitNat q.write)] ++ leBytes 4 q.bytes

/-- The bytes of a read that is lost: poisoned (R340; log 30). -/
def lostBytes (pos n : Nat) : List PByte := (List.range n).map fun i => (Config.lostByte (pos + i), true)

/-- A read's bytes delivered at the command's destination, with the exponents of the blocks that they fill (R88). -/
def State.deliver (s : State) (r : Fin 8) (q : RemoteReq) (d : List PByte) : State :=
  match (s.core q.core).dmaBusy.bind fun b => b.job with
  | some x =>
    match s.placeWrite r q.core q.tag x q.pos d with
    | (s1, true) => s1.onCore q.core (fillPiece x (q.pos + d.length))
    | (s1, false) => s1.dmaDrop q.core
  | none => s

/-- The outcome of a remote request: its STATUS, 5 for none within 50 ms, and the bytes of a read (R339, R340). -/
def State.remoteReply (s : State) (txn : BitVec 16) (status : Nat) (d : List PByte) : State :=
  match s.trz.remotes.find? fun q => q.txn == txn with
  | none => s
  | some q =>
    let s1 := { s with trz := { s.trz with remotes := s.trz.remotes.filter fun p => p.txn != txn } }
    let s2 := s1.onDma q.core fun b => { b with wait := b.wait - 1 }
    match s.ringOfCore q.core with
    | none => s2
    | some r =>
      if status = rmOk then (if q.write then s2 else s2.deliver r q (padTo q.bytes (0, false) d))
      else if status < rmUnreachable then
        ((s2.remoteFailed r q status).dmaDrop q.core).isolation r q.tag isCore q.core.val 7 (bitNat q.write) q.bytes 0
      else
        let s3 := (s2.remoteFailed r q status).record (some r) false
          ⟨q.tag, cauRemote, isCore, q.core.val, 0, remoteArea q status⟩
        if q.write then s3 else s3.deliver r q (lostBytes q.pos q.bytes)

/-- The bytes of a reply, with its poison (R328). -/
def replyBytes (q : Packet) : List PByte := (q.data.take q.bytes.toNat).map fun b => (b, q.attr.getLsbD 3)

/-- A request on its way (R334, R339): to this device's own windows, out of a port, or answered UNREACHABLE. -/
def State.dispatch (s : State) (kind : Nat) (q : Packet) : State :=
  match s.routeTo q.dst.toNat with
  | .here =>
    let (s1, a) := s.serve 0 kind q
    s1.remoteReply q.txn a.body.status.toNat (replyBytes a.body)
  | .out p => s.portSend p ⟨kind, q⟩
  | .nowhere p => (s.countNowhere p).remoteReply q.txn rmUnreachable []

/-- The next transaction number that no outstanding request carries (R328). -/
def freeTxn (used : List (BitVec 16)) : Nat → BitVec 16 → BitVec 16
  | 0, t => t
  | fuel + 1, t => if used.contains t then freeTxn used fuel (t + 1) else t

/-- The next packet of a remote transfer sent: at most 512 B, within one 512-byte block of the remote offset (R339). -/
def State.askOne (s : State) (r : Fin 8) (c : Fin 16) (b : EngineBusy) (x : Transfer) (write : Bool)
    (device window : Byte) (offset : Nat) (setFlag : Bool) : State :=
  let pos := x.asked
  let len := min (x.bytes - pos) (512 - (offset + pos) % 512)
  let txn := freeTxn (s.trz.remotes.map fun q => q.txn) 1024 s.trz.nextTxn
  let go (s : State) (d : List PByte) : State :=
    let last := decide (x.bytes ≤ pos + len)
    let q : RemoteReq := ⟨txn, c, b.tag, write, device, window, offset + pos, len, pos⟩
    let s1 := { s with trz := { s.trz with remotes := s.trz.remotes ++ [q], nextTxn := txn + 1 } }
    let s2 := s1.onDma c fun b => { b with wait := b.wait + 1, job := b.job.map fun x => { x with asked := pos + len } }
    s2.dispatch (if write then kWrite else kRead)
      (mkPacket s.deviceNo device.toNat window.toNat
        (r.val + 8 * bitNat (anyPoison d) + 16 * bitNat (write && last && setFlag)) txn len (offset + pos) 0 (rawBytes d))
  if write then
    match s.placeRead r c b.tag x pos len with
    | (s1, some d) => go s1 d
    | (s1, none) => s1.dmaDrop c
  else go s []

/-- The packets of a core's remote transfer sent while no more than 1,024 requests are outstanding (R339). -/
def State.askMore (r : Fin 8) (c : Fin 16) : Nat → State → State
  | 0, s => s
  | fuel + 1, s =>
    match (s.core c).dmaBusy with
    | none => s
    | some b =>
      match b.job with
      | none => s
      | some x =>
        if x.asked < x.bytes ∧ s.trz.remotes.length < 1024 then
          match x.src, x.dst with
          | _, .remote device window offset setFlag =>
            State.askMore r c fuel (s.askOne r c b x true device window offset setFlag)
          | .remote device window offset _, _ =>
            State.askMore r c fuel (s.askOne r c b x false device window offset false)
          | _, _ => s
        else s

/-- Every core's remote transfer moves on while there is room (R339). -/
def State.askAll (s : State) : State :=
  (List.finRange 16).foldl (fun s c => match s.ringOfCore c with
    | some r => State.askMore r c 32769 s
    | none => s) s

/-! ## DMA -/

/-- A transfer between places on this device: moved at once, its completion still due (log 11). -/
def State.moveHere (s : State) (r : Fin 8) (e : Eng) (cmd : DmaCmd) (x : Transfer) : State :=
  match s.placeRead r e.core e.tag x 0 x.bytes with
  | (s1, none) => s1
  | (s1, some d) =>
    match s1.placeWrite r e.core e.tag x 0 d with
    | (s2, false) => s2
    | (s2, true) => s2.onCore e.core fun k =>
        { fillExponents cmd x.bytes k with dmaBusy := some ⟨e.tag, cmd.marks, cmd.done, 0, none, false⟩ }

/-- The effect of a DMA that issues: its ends are resolved, and the transfer starts (R111, R167, R228, R339). -/
def State.dmaNow (s : State) (r : Fin 8) (e : Eng) (cmd : DmaCmd) : State :=
  match s.resolveEnd r e.core e.tag cmd.bytes false cmd.src with
  | (s1, none) => s1
  | (s1, some (src, srcGen)) =>
    match s1.resolveEnd r e.core e.tag cmd.bytes true cmd.dst with
    | (s2, none) => s2
    | (s2, some (dst, dstGen)) =>
      let x : Transfer := ⟨src, dst, cmd.bytes, dstGen.getD (cmd.gen.getD 0), srcGen.orElse fun _ => cmd.expectGen, 0,
        none⟩
      if isRemote cmd.src || isRemote cmd.dst then
        State.askMore r e.core 32769 (s2.onCore e.core fun k =>
          { k with dmaBusy := some ⟨e.tag, cmd.marks, cmd.done, 0, some { x with fill := cmd.fmt }, false⟩ })
      else s2.moveHere r e cmd x

/-- The regions that a DMA fills, for CHECK 5. -/
def dmaRegions (cmd : DmaCmd) : List Nat :=
  match cmd.dst with
  | .buf b addr => if fillOk b addr cmd.bytes then fillRegions b addr cmd.bytes else []
  | .cm _ _ => []
  | .mwy _ _ => []
  | .dram _ => []
  | .seq _ _ _ _ _ => []
  | .remote _ _ _ _ => []

/-- A fill command of an access-side queue: held while its engine is busy, withheld by CHECK 5, or issued (R105, R121). -/
def State.fillCommand (s : State) (e : Eng) (q : Fin 5) (regions : List Nat) (go : Fin 8 → State → State) : State :=
  match s.front e.core q e.tag e.gap.toNat e.mask with
  | .not s' => s'
  | .ready r u =>
    if s.engineBusy e.core q then s.queueHold e.core q e.tag u ⟨.busy, 0, 0⟩
    else match (if s.auditOn r then fillViolation (s.core e.core) regions else none) with
      | some v => s.withhold r e.core q e.tag u v
      | none => go r (s.issueAt e.core q e.tag e.gap.toNat 0 0 u)

/-- DMA. -/
def execDma (e : Eng) (cmd : DmaCmd) (s : State) : Host.Outcome State Fault Refusal :=
  if s.badCompletion e.core cmd.done then .refused (.illFormed "DMA")
  else onForm (.dma e cmd) "DMA" (s.fillCommand e qDma (dmaRegions cmd) fun r s1 => s1.dmaNow r e cmd)

/-! ## Completion -/

/-- The marks of a fill set (R59, R73, R141). -/
def setMarks (m : Option (Buf × BitVec 16)) (k : Core) : Core :=
  match m with
  | none => k
  | some (b, mask) => ((List.range 16).filter fun i => mask.getLsbD i && markExists b i).foldl (fun k i => markPut b i true k) k

/-- A completion can be given: its data queue and its flags' crossing have room (R23, R108). -/
def State.canComplete (s : State) (c : Fin 16) (done : Completion) : Bool := (s.doneGate c done 0 0).isNone

/-- An access-side engine completes its command: marks, then token, then flag, and its trace; where the data queue is
full the engine keeps the command and waits to push its token, and `put` stores that (R108, R127, R129, R451). -/
def State.engineDone (s : State) (c : Fin 16) (q : Fin 5) (b : EngineBusy) (put : Option EngineBusy → Core → Core) : State :=
  let s1 := if b.finished then s else s.onCore c (setMarks b.marks)
  if s1.canComplete c b.done then
    match s1.ringOfCore c with
    | some r => ((s1.complete r c false b.done).onCore c (put none)).trace c evDone b.tag q.val
    | none => s1.onCore c (put none)
  else s1.onCore c (put (some { b with finished := true }))

/-- The command has moved all its bytes, and every reply has come (R339). -/
def moved (b : EngineBusy) : Bool :=
  b.wait == 0 && (match b.job with | some x => decide (x.bytes ≤ x.asked) | none => true)

/-- DMA_COMPLETE: without a command of that tag whose bytes are all moved, nothing completes. -/
def execDmaComplete (core : Fin 16) (tag : Tag) (s : State) : Host.Outcome State Fault Refusal :=
  .next (match (s.core core).dmaBusy with
    | some b => if b.tag = tag ∧ moved b then s.engineDone core qDma b (fun v k => { k with dmaBusy := v }) else s
    | none => s)

end Sys2Proof.Machine
end

