-- ==== Sys2Proof/Machine/Geometry.lean ====
section
/-! DEFINITION. Geometry records, taps and samples of the unfold engine (R197 to R204, R207 to R212). -/

namespace Sys2Proof.Machine

/-! ## Records (R197) -/

/-- A geometry record. -/
structure Geom where
  fmt      : ArrFmt
  padMode  : Nat
  border   : Bool
  kh       : Nat
  kw       : Nat
  sy       : Nat
  sx       : Nat
  dy       : Nat
  dx       : Nat
  pt       : Nat
  pb       : Nat
  pl       : Nat
  pr       : Nat
  h        : Nat
  w        : Nat
  c        : Nat
  padCode  : Nat
  padExp   : Nat
  base     : Nat
  rowPitch : Nat
  pixPitch : Nat
  mapBase  : Nat
  mapRow   : Nat
  mapPix   : Nat
  deriving DecidableEq, Repr

/-- The format that FMT names (R197). -/
def geomFmt : Nat → Option ArrFmt
  | 5 => some .fp16
  | 6 => some .bf16
  | n => quantFmt n

/-- The 64 bytes of a record as its fields; an FMT that does not exist reads as code4. -/
def geomOf (b : List Byte) : Geom :=
  { fmt := (geomFmt (leAt b 0 1)).getD .code4, padMode := leAt b 1 1 % 4, border := bitAt (leAt b 1 1) 2
    kh := leAt b 2 1, kw := leAt b 3 1, sy := leAt b 4 1, sx := leAt b 5 1, dy := leAt b 6 1, dx := leAt b 7 1
    pt := leAt b 8 1, pb := leAt b 9 1, pl := leAt b 0xA 1, pr := leAt b 0xB 1
    h := leAt b 0xC 2, w := leAt b 0xE 2, c := leAt b 0x10 2, padCode := leAt b 0x12 2, padExp := leAt b 0x14 1
    base := leAt b 0x18 4, rowPitch := leAt b 0x1C 4, pixPitch := leAt b 0x20 4, mapBase := leAt b 0x24 4
    mapRow := leAt b 0x28 4, mapPix := leAt b 0x2C 2 }

/-- Bits of a code (R60). -/
def codeBits : ArrFmt → Nat
  | .code4 => 4
  | .fp16 => 16
  | .bf16 => 16
  | .code8 => 8
  | .int8 => 8
  | .e4m3 => 8
  | .e5m2 => 8

/-- The element size e in bytes; code4 has none and counts 1 (R197). -/
def elemBytes (f : ArrFmt) : Nat := if is16 f then 2 else 1

/-- The tensor is aligned (R198). -/
def Geom.aligned (g : Geom) : Bool := g.c % 32 == 0

/-- The tensor has an exponent map (R91, R197). -/
def Geom.mapped (g : Geom) : Bool := !is16 g.fmt

/-- Fields out of range or reserved bytes nonzero, GEOM_CAUSE 1 (R197, R212). The window fields count where they matter, in
the source of UNFOLD and POOL (log 35). -/
def geomRange (b : List Byte) (window : Bool) : Bool :=
  let g := geomOf b
  (geomFmt (leAt b 0 1)).isSome && decide (leAt b 1 1 < 8) && decide (g.padMode < 3) &&
    within 1 16384 g.h && within 1 16384 g.w && within 1 16384 g.c &&
    decide (leAt b 0x15 3 = 0) && decide (leAt b 0x2E 18 = 0) &&
    (!window || (within 1 32 g.kh && within 1 32 g.kw && decide (1 ≤ g.sy) && decide (1 ≤ g.sx) && decide (1 ≤ g.dy) &&
      decide (1 ≤ g.dx)))

/-- Pitches of R197 and R198, GEOM_CAUSE 2. -/
def geomPitch (g : Geom) : Bool :=
  decide (ceilDiv (g.c * codeBits g.fmt) 8 ≤ g.pixPitch) && g.pixPitch % elemBytes g.fmt == 0 &&
    decide (g.w * g.pixPitch ≤ g.rowPitch) && (!(g.mapped && g.aligned) || decide (g.c / 32 ≤ g.mapPix))

/-- The output extent along one axis (R199). -/
def extent (n padA padB d k st : Nat) : Nat :=
  let num : Int := (n : Int) + padA + padB - d * ((k : Int) - 1) - 1
  if num < 0 then 0 else num.toNat / max st 1 + 1

/-- OUT_H and OUT_W (R199). -/
def Geom.outH (g : Geom) : Nat := extent g.h g.pt g.pb g.dy g.kh g.sy
def Geom.outW (g : Geom) : Nat := extent g.w g.pl g.pr g.dx g.kw g.sx

/-! ## Elements -/

/-- The address of element (y, x, c) (R197). -/
def Geom.elem (g : Geom) (y x c : Nat) : Nat :=
  g.base + y * g.rowPitch + x * g.pixPitch + (if g.fmt = .code4 then c / 2 else c * elemBytes g.fmt)

/-- The address of the exponent of channel group `j` of a pixel (R198). -/
def Geom.expAddr (g : Geom) (y x j : Nat) : Nat :=
  if g.aligned then g.mapBase + y * g.mapRow + x * g.mapPix + j else g.mapBase

/-- A byte of core memory with its poison. -/
def memByte (k : Core) (a : Nat) : PByte := (smGet 0 k.mem a, smGet 0 k.memBad (a / 32) == 1)

/-- The code of element (y, x, c), with its poison (R197). -/
def elemCodeAt (k : Core) (g : Geom) (y x c : Nat) : Nat × Bool :=
  let a := g.elem y x c
  let b := memByte k a
  if is16 g.fmt then
    let b1 := memByte k (a + 1)
    (b.1.toNat + 256 * b1.1.toNat, b.2 || b1.2)
  else if g.fmt = .code4 then ((if c % 2 = 0 then b.1.toNat % 16 else b.1.toNat / 16), b.2)
  else (b.1.toNat, b.2)

/-- The pad value of R202: the zero code, or the low bits of PAD_CODE. -/
def Geom.padValue (g : Geom) : Nat := if g.padMode = 1 then g.padCode % 2 ^ codeBits g.fmt else zeroCode g.fmt

/-- A coordinate pair is in the map (R199). -/
def Geom.inMap (g : Geom) (y x : Int) : Bool :=
  decide (0 ≤ y) && decide (y < g.h) && decide (0 ≤ x) && decide (x < g.w)

/-- The input coordinates of tap `t` of output position `p` (R199). -/
def Geom.tap (g : Geom) (p t : Nat) : Int × Int :=
  let oy := p / max g.outW 1
  let ox := p % max g.outW 1
  (((oy * g.sy + t / max g.kw 1 * g.dy : Nat) : Int) - g.pt, ((ox * g.sx + t % max g.kw 1 * g.dx : Nat) : Int) - g.pl)

/-- The in-map taps of an output position, as coordinates, in (ky, kx) order. -/
def Geom.tapsIn (g : Geom) (p : Nat) : List (Nat × Nat) :=
  (List.range (g.kh * g.kw)).filterMap fun t =>
    let q := g.tap p t
    if g.inMap q.1 q.2 then some (q.1.toNat, q.2.toNat) else none

/-- The bytes of a row of codes: two code4 codes to a byte, the even one low; a short last byte is filled with the zero
code (R60, R91, R197). -/
def rowBytes (f : ArrFmt) (codes : List (Nat × Bool)) : List PByte :=
  if is16 f then codes.flatMap fun c => (leBytes 2 c.1).map fun b => (b, c.2)
  else if f = .code4 then (chunksOf 2 (codes.length + 1) codes).map fun p =>
    let lo := p.getD 0 (zeroCode f, false)
    let hi := p.getD 1 (zeroCode f, false)
    (BitVec.ofNat 8 (lo.1 + 16 * hi.1), lo.2 || hi.2)
  else codes.map fun c => (BitVec.ofNat 8 c.1, c.2)

/-! ## Pieces of core memory -/

/-- Adjacent pieces joined into runs. -/
def joinPieces : List (Nat × List PByte) → List (Nat × List PByte)
  | [] => []
  | (a, d) :: t =>
    match joinPieces t with
    | [] => [(a, d)]
    | (b, e) :: rest => if a + d.length = b then (a, d ++ e) :: rest else (a, d) :: (b, e) :: rest

/-- Pieces written to core memory, in order. -/
def putAll (l : List (Nat × List PByte)) (k : Core) : Core := (joinPieces l).foldl (fun k p => corePut p.1 p.2 k) k

/-- The engine reads ranges of core memory: entries that hold bytes of them are flushed, the words decoded, and a poisoned
word sets POISON_READ (R146, R155, R173). -/
def State.touch (s : State) (tag : Tag) (c : Fin 16) (l : List (Nat × Nat)) : State :=
  let s1 := s.onMem tag c fun k => l.foldl (fun k p => readyRange p.1 p.2 k) k
  if l.any fun p => anyPoison (coreGet (s1.core c) p.1 p.2) then s1.setFld (.coreMemStatus c) F.coreMemStatus_POISON_READ 1
  else s1

/-- Every range lies in core memory (R212). -/
def allInCore (l : List (Nat × Nat)) : Bool := l.all fun p => inCore p.1 p.2

/-! ## Refusals (R212) -/

/-- A command is refused: GEOM_ERR, GEOM_CAUSE, its tag, and a trace record (R212, R213). -/
def State.geomRefuse (s : State) (c : Fin 16) (tag : Tag) (cause : Nat) : State :=
  (((s.setFld (.coreUnfoldStatus c) F.coreUnfoldStatus_GEOM_ERR 1).setFld (.coreUnfoldStatus c)
    F.coreUnfoldStatus_GEOM_CAUSE cause).setReg (.coreUnfoldErrTag c) tag).trace c evGeom tag cause

/-- The first of a list of conditions that fails: its cause (log 36: the lowest cause governs). -/
def firstCause : List (Bool × Nat) → Option Nat
  | [] => none
  | (ok, cause) :: t => if ok then firstCause t else some cause

/-- An isolation fault of the unfold engine (R57, R212). -/
def State.unfoldFault (s : State) (r : Fin 8) (c : Fin 16) (tag : Tag) (access len : Nat) : State :=
  s.isolation r tag isCore c.val 9 access len 0

/-- The records of a command read: aligned ones in core memory, else refused (R197, R212). -/
def State.readRecords (s : State) (r : Fin 8) (c : Fin 16) (tag : Tag) (l : List Nat) (go : State → List (List Byte) → State) :
    State :=
  if l.any fun a => a % 64 != 0 then s.geomRefuse c tag 2
  else if !allInCore (l.map fun a => (a, 64)) then s.unfoldFault r c tag 0 64
  else
    let s1 := s.touch tag c (l.map fun a => (a, 64))
    go s1 (l.map fun a => rawBytes (coreGet (s1.core c) a 64))

/-- The unfold engine has started a command: its completion is due (R108, R127, R196). -/
def unfoldStarted (tag : Tag) (marks : Option (Buf × BitVec 16)) (done : Completion) (k : Core) : Core :=
  { k with unfoldBusy := some ⟨tag, marks, done, 0, none, false⟩ }

/-- CORE_UNFOLD_READ_LINES after a command whose reads R205 does not state (log 33). -/
def State.freeLines (s : State) (c : Fin 16) (tag : Tag) : State :=
  s.bump (.coreUnfoldReadLines c) F.coreUnfoldReadLines_COUNT (Config.unfoldLines tag (s.reg (.coreUnfoldReadLines c)))

end Sys2Proof.Machine
end

