-- ==== Sys2Proof/Machine/Store.lean ====
section
/-! DEFINITION. The store engine: STRIDE, TRANSPOSE, FILL, COPY and STORE_COMPLETE (R149, R152, R153), and the gathering
buffer's idle flush, GATHER_FLUSH_IDLE (R155). -/

namespace Sys2Proof.Machine

/-- The store engine has started a command: its completion is due (R108, R127, R152). -/
def storeStarted (tag : Tag) (done : Completion) (k : Core) : Core := { k with storeBusy := some ⟨tag, none, done, 0, none, false⟩ }

/-- The store engine refuses a command's addresses (R57, R153). -/
def State.storeFault (s : State) (r : Fin 8) (c : Fin 16) (tag : Tag) (access len : Nat) : State :=
  s.isolation r tag isCore c.val 9 access len 0

/-- The element size of a STRIDE pattern; a contiguous one takes that of the other side (R149, R152). -/
def strideSize (p other : Pattern) : Nat :=
  match p, other with
  | .strided e _ _ _, _ => e
  | _, .strided e _ _ _ => e
  | _, _ => 1

/-- The address of element `k` of a STRIDE pattern (R149). -/
def strideAt (addr e k : Nat) : Pattern → Nat
  | .strided _ stride inner outer => elemAt addr stride inner outer k
  | _ => addr + k * e

/-- The elements of a STRIDE pattern lie within core memory, none across a line (R149, R153). -/
def strideOk (addr e count : Nat) (p : Pattern) : Bool :=
  (List.range count).all fun k => strideAt addr e k p % e == 0 && inCore (strideAt addr e k p) e

/-- An element as its destination holds it: the source's bytes, or free ones where the sizes differ (R152; log 37). -/
def strideElem (src dst : Nat) (d : List PByte) : List PByte :=
  if src = dst then d
  else (List.range dst).map fun i => (Config.strideByte (rawBytes d) dst i, anyPoison d)

/-- The effect of a STRIDE: every element read, then every element written (log 11). -/
def State.strideNow (s : State) (r : Fin 8) (c : Fin 16) (tag : Tag) (srcAddr : Nat) (src : Pattern) (dstAddr : Nat)
    (dst : Pattern) (count : Nat) (done : Completion) : State :=
  let a := strideSize src dst
  let b := strideSize dst src
  if !strideOk srcAddr a count src then s.storeFault r c tag 0 (a * count)
  else if !strideOk dstAddr b count dst then s.storeFault r c tag 1 (b * count)
  else
    let (s1, d) := State.cmPieces tag c ((List.range count).map fun k => (strideAt srcAddr a k src, a)) s
    let out := (List.range count).map fun k => (strideAt dstAddr b k dst, strideElem a b (part d (a * k) a))
    s1.onMem tag c fun k => storeStarted tag done (putAll out k)

/-- STRIDE. -/
def execStride (e : Eng) (srcAddr : Nat) (src : Pattern) (dstAddr : Nat) (dst : Pattern) (count : Nat) (done : Completion)
    (s : State) : Host.Outcome State Fault Refusal :=
  if s.badCompletion e.core done then .refused (.illFormed "STRIDE")
  else onForm (.stride e srcAddr src dstAddr dst count done) "STRIDE"
    (s.fillCommand e qStore [] fun r s1 => s1.strideNow r e.core e.tag srcAddr src dstAddr dst count done)

/-- The source rows of a transposed block, their pitch, and the rows that it gives (R149). -/
def blockShape : Pattern → Nat × Nat
  | .transpose4 pitch => (32, pitch)
  | .transpose8 pitch => (16, pitch)
  | _ => (0, 16)

/-- The transposed rows of a block (R149). -/
def blockRows (p : Pattern) (rows : List (List PByte)) : List PByte :=
  match p with
  | .transpose4 _ => transposed4 rows
  | _ => transposed8 rows

/-- The effect of a TRANSPOSE: output row j, 16 B, at the destination's pitch (R149, R152). -/
def State.transposeNow (s : State) (r : Fin 8) (c : Fin 16) (tag : Tag) (srcAddr : Nat) (src : Pattern)
    (dstAddr dstPitch : Nat) (done : Completion) : State :=
  let n := (blockShape src).1
  if !inCore (srcAddr + (n - 1) * (blockShape src).2) 16 then s.storeFault r c tag 0 (16 * n)
  else if !inCore (dstAddr + (n - 1) * dstPitch) 16 then s.storeFault r c tag 1 (16 * n)
  else
    let (s1, rows) := s.cmRows tag c srcAddr (blockShape src).2 n
    let out := blockRows src rows
    s1.onMem tag c fun k =>
      storeStarted tag done (putAll ((List.range n).map fun j => (dstAddr + j * dstPitch, part out (16 * j) 16)) k)

/-- TRANSPOSE. -/
def execTranspose (e : Eng) (srcAddr : Nat) (src : Pattern) (dstAddr dstPitch : Nat) (done : Completion) (s : State) :
    Host.Outcome State Fault Refusal :=
  if s.badCompletion e.core done then .refused (.illFormed "TRANSPOSE")
  else onForm (.transpose e srcAddr src dstAddr dstPitch done) "TRANSPOSE"
    (s.fillCommand e qStore [] fun r s1 => s1.transposeNow r e.core e.tag srcAddr src dstAddr dstPitch done)

/-- A FILL or COPY of length zero completes at once (R153). -/
def State.storeEmpty (s : State) (c : Fin 16) (tag : Tag) (done : Completion) : State :=
  (s.onCore c (storeStarted tag done)).engineDone c qStore ⟨tag, none, done, 0, none, false⟩ fun v k => { k with storeBusy := v }

/-- The bytes of a pattern word, repeated (R152). -/
def fillBytes (pattern : Word) (len : Nat) : List PByte :=
  (List.range len).map fun i => ((leBytes 4 pattern.toNat).getD (i % 4) 0, false)

/-- The effect of a FILL (R152, R153; log 38: a length of zero completes whatever its address). -/
def State.fillNow (s : State) (r : Fin 8) (c : Fin 16) (tag : Tag) (dst len : Nat) (pattern : Word) (done : Completion) :
    State :=
  if len = 0 then s.storeEmpty c tag done
  else if dst % 4 = 0 ∧ len % 4 = 0 ∧ inCore dst len then
    (s.cmWrite tag c dst (fillBytes pattern len)).onCore c (storeStarted tag done)
  else s.storeFault r c tag 1 len

/-- FILL. -/
def execFill (e : Eng) (dst len : Nat) (pattern : Word) (done : Completion) (s : State) :
    Host.Outcome State Fault Refusal :=
  if s.badCompletion e.core done then .refused (.illFormed "FILL")
  else onForm (.fill e dst len pattern done) "FILL"
    (s.fillCommand e qStore [] fun r s1 => s1.fillNow r e.core e.tag dst len pattern done)

/-- The bytes that a COPY leaves at its destination: where that overlaps the source at a higher address, the source
repeats with the period of the offset (R153). -/
def copyBytes (src dst : Nat) (d : List PByte) : List PByte :=
  if src < dst ∧ dst < src + d.length then (List.range d.length).map fun i => d.getD (i % (dst - src)) (0, false) else d

/-- The effect of a COPY (R152, R153). -/
def State.copyNow (s : State) (r : Fin 8) (c : Fin 16) (tag : Tag) (src dst len : Nat) (done : Completion) : State :=
  if len = 0 then s.storeEmpty c tag done
  else if !(src % 4 == 0 && len % 4 == 0 && inCore src len) then s.storeFault r c tag 0 len
  else if !(dst % 4 == 0 && inCore dst len) then s.storeFault r c tag 1 len
  else
    let (s1, d) := s.cmRead tag c src len
    (s1.cmWrite tag c dst (copyBytes src dst d)).onCore c (storeStarted tag done)

/-- COPY. -/
def execCopy (e : Eng) (src dst len : Nat) (done : Completion) (s : State) : Host.Outcome State Fault Refusal :=
  if s.badCompletion e.core done then .refused (.illFormed "COPY")
  else onForm (.copy e src dst len done) "COPY"
    (s.fillCommand e qStore [] fun r s1 => s1.copyNow r e.core e.tag src dst len done)

/-- STORE_COMPLETE: the engine's command completes; without one nothing does (R108, R127, R152). -/
def execStoreComplete (core : Fin 16) (s : State) : Host.Outcome State Fault Refusal :=
  .next (match (s.core core).storeBusy with
    | some b => s.engineDone core qStore b fun v k => { k with storeBusy := v }
    | none => s)

/-- GATHER_FLUSH_IDLE: the entry of a line that no piece has reached for 256 core cycles is flushed (R155). -/
def execGatherFlushIdle (core : Fin 16) (line : Nat) (s : State) : Host.Outcome State Fault Refusal :=
  .next (s.onMem (s.coreTag core) core (flushWhere fun g => g.line == line))

/-! ## The stall detector (R129 to R131) -/

/-- The number of a kind of wait in a STALL record (R131); a busy wait is none. -/
def stallKind : WaitKind → Nat
  | .flag => 1
  | .dataQueue => 2
  | .fullQueue => 3
  | .gate => 4
  | .busy => 0

/-- A wait on a flag other than an event flag, a data queue or the gate (R129). -/
def plainBlocked (w : Wait) : Bool :=
  match w.kind with
  | .flag => decide (w.index < 256 + 192)
  | .dataQueue => true
  | .gate => true
  | .fullQueue => false
  | .busy => false

/-- The unit's wait at a ring flag has arrived there and has not passed. -/
def State.testStands (s : State) (r : Fin 8) (u : SeqUnit) : Bool := (s.ring r).tests.any fun t => unitRank t.unit == unitRank u

/-- The wait still holds: the core flag that it names is still clear, or its test still stands at a flag beyond a crossing
(R126, R127). -/
def State.stillWaits (s : State) (r : Fin 8) (u : SeqUnit) (w : Wait) : Bool :=
  match w.kind with
  | .flag =>
    match u with
    | .ringmaster _ =>
      if w.index < 64 then (s.coresOf r).any fun c => (s.core c).masterTest.isSome && !(flagsAfter (s.core c)).1.getLsbD w.index
      else s.testStands r u
    | .queue c _ _ => if w.index < 64 then !(flagsAfter (s.core c)).1.getLsbD w.index else s.testStands r u
    | .access c => if w.index < 64 then !(flagsAfter (s.core c)).1.getLsbD w.index else s.testStands r u
    | .execute c => if w.index < 64 then !(flagsAfter (s.core c)).1.getLsbD w.index else s.testStands r u
  | .dataQueue => true
  | .fullQueue => true
  | .gate => true
  | .busy => true

/-- The command of an access-side engine that waits to push its READY token (R108, R129). -/
def pushWait (q : Fin 5) (k : Core) : Option Wait :=
  (match q.val with
    | 0 => k.dmaBusy
    | 1 => k.unfoldBusy
    | 2 => k.storeBusy
    | _ => none).bind fun (b : EngineBusy) =>
      if b.finished then b.done.dq.map fun (n : Fin 8) => (⟨b.tag, .dataQueue, n.val, q.val, 0, false⟩ : Wait) else none

/-- What blocks a queue: its engine's push of a token, or its head's wait (R129). -/
def State.queueBlock (s : State) (r : Fin 8) (c : Fin 16) (q : Fin 5) : Option Wait :=
  (pushWait q (s.core c)).orElse fun _ =>
    (s.queue c q).wait.filter fun w =>
      !(s.queue c q).tags.isEmpty && plainBlocked w && s.stillWaits r (.queue c q 0) w

/-- A queue is blocked (R129). -/
def State.queueBlocked (s : State) (r : Fin 8) (c : Fin 16) (q : Fin 5) : Bool := (s.queueBlock r c q).isSome

/-- A queue by number. -/
def queueFin (n : Nat) : Fin 5 := ⟨n % 5, by omega⟩

/-- A wait of a sequencer or of a port blocks its unit: one for full queues where the consumer of any of them is blocked
(R129). -/
def State.blocksUnit (s : State) (r : Fin 8) (u : SeqUnit) (w : Wait) : Bool :=
  if w.kind == .fullQueue then (maskCores w.full).any fun c => s.queueBlocked r c (queueFin w.queue)
  else plainBlocked w && s.stillWaits r u w

/-- What blocks a core's sequencer (R129). -/
def State.seqBlock (s : State) (r : Fin 8) (u : SeqUnit) (q : Sequencer) : Option Wait :=
  if q.ended then none else q.wait.filter (s.blocksUnit r u)

/-- What blocks a ring's ringmaster: its own wait, or that of a push port, the lowest queue number first (R109, R129; log
112). -/
def State.masterBlock (s : State) (r : Fin 8) : Option Wait :=
  (s.seqBlock r (.ringmaster r) (s.ring r).master).orElse fun _ =>
    ([2, 3, 0, 1] : List (Fin 4)).findSome? fun p => (s.ring r).ports[p].filter (s.blocksUnit r (.ringmaster r))

/-- What a STALL record says of a blocked unit: tag, core byte, queue byte, wait kind, index (R131). -/
structure Blocked where
  tag   : Tag
  core  : Nat
  queue : Nat
  kind  : Nat
  index : Nat
  deriving DecidableEq, Repr

/-- The blocked unit of a wait. -/
def blockedBy (core queue : Nat) (w : Wait) : Blocked := ⟨w.tag, core, queue, stallKind w.kind, w.index⟩

/-- The blocked units of a ring: its queues core by core, its cores' sequencers in a paired-stream ring, else its
ringmaster (R131). -/
def State.blockedUnits (s : State) (r : Fin 8) : List Blocked :=
  let queues := (s.coresOf r).flatMap fun c => (List.finRange 5).filterMap fun q =>
    (s.queueBlock r c q).map (blockedBy c.val q.val)
  let seqs := (s.coresOf r).flatMap fun c =>
    ((s.seqBlock r (.access c) (s.core c).access).map (blockedBy c.val 5)).toList ++
    ((s.seqBlock r (.execute c) (s.core c).execute).map (blockedBy c.val 6)).toList
  let master := ((s.masterBlock r).map fun w => blockedBy 0xFF (if w.kind == .fullQueue then w.queue else 0xFF) w).toList
  queues ++ if s.masterMode r then master else seqs

/-- A core's sequencer is blocked, or its stream has passed END and counts as empty (R114). -/
def State.seqQuiet (s : State) (r : Fin 8) (u : SeqUnit) (q : Sequencer) : Bool := q.ended || (s.seqBlock r u q).isSome

/-- A core's engines have nothing under way. -/
def engineIdle (k : Core) : Bool := k.dmaBusy.isNone && k.unfoldBusy.isNone && k.storeBusy.isNone

/-- A transfer of the core's DMA engine is in flight (R130). -/
def dmaInFlight (k : Core) : Bool := (k.dmaBusy.map fun b => !b.finished).getD false

/-- Every stream and queue of the ring has passed END, and nothing is under way (R114). -/
def State.allEnded (s : State) (r : Fin 8) : Bool :=
  ((s.coresOf r).all fun c =>
    ((s.core c).queues.toList.all fun q => q.ended && q.tags.isEmpty) && engineIdle (s.core c) &&
      (s.masterMode r || ((s.core c).access.ended && (s.core c).execute.ended))) &&
    (!s.masterMode r || ((s.ring r).master.ended && (s.ring r).ports.toList.all Option.isNone))

/-- The stall condition holds, in a ring that is not halted: an invocation that has not ended is in progress, every unit is
blocked or empty, no DMA is in flight, and nothing of the ring is on its way through a crossing (R114, R130, R455; log
112). -/
def State.stalled (s : State) (r : Fin 8) : Bool :=
  s.ringLive r && !(s.ring r).halted && (s.ring r).current.isSome && !s.allEnded r && s.drained r &&
    ((s.coresOf r).all fun c =>
      !dmaInFlight (s.core c) &&
        (List.finRange 5).all fun q => ((s.queue c q).tags.isEmpty && !s.engineBusy c q) || s.queueBlocked r c q) &&
    (if s.masterMode r then (s.ring r).master.ended || (s.masterBlock r).isSome
    else (s.coresOf r).all fun c => s.seqQuiet r (.access c) (s.core c).access && s.seqQuiet r (.execute c) (s.core c).execute)

/-- The area of a STALL record (R131). -/
def stallArea (seq : Word) (n : Nat) (b : Blocked) : List Byte :=
  leBytes 4 seq.toNat ++ leBytes 1 n ++ leBytes 1 b.core ++ leBytes 1 b.queue ++ leBytes 1 b.kind ++ leBytes 2 b.index

/-- A further record of the cycle in which the ring faulted: queued and sent, and no episode of its own (R447, R448). -/
def State.recordMore (s : State) (r : Fin 8) (i : FaultInfo) : State :=
  let f := s.newRecord (some r) true i
  let s1 := { s with faultSeq := s.faultSeq + 1 }.trace (coreFin i.inst) evFault i.tag f.seq.toNat
  (s1.storeRecord (some r) f).pushRecord (some r) f

/-- The records of a stall written, then the ring enters FAULTED (R131, R53). -/
def State.stallNow (s : State) (r : Fin 8) (core : Fin 16) : State :=
  let units := (s.blockedUnits r).take 81
  let seq := (s.ring r).stallSeq + 1
  let info (b : Blocked) : FaultInfo := ⟨b.tag, cauStall, isCore, core.val, 0, stallArea seq units.length b⟩
  let s1 := s.onRing r fun k => { k with stallSeq := seq }
  match units with
  | [] => s1.enterFaulted r cauStall
  | b :: t => ((t.foldl (fun s b => s.recordMore r (info b)) (s1.record (some r) true (info b))).enterFaulted r cauStall)

/-- STALL_FAULT: the count of a core of the ring has reached 65,536; without the condition of R130 no stall is raised. -/
def execStallFault (ring : Fin 8) (core : Fin 16) (s : State) : Host.Outcome State Fault Refusal :=
  .next (if s.stalled ring && (s.coresOf ring).contains core && s.mayFault ring then s.stallNow ring core else s)

end Sys2Proof.Machine
end

