-- ==== Sys2Proof/Machine/Rings.lean ====
section
/-! DEFINITION. The life of a ring: requests, loading, parking, stopping (R48 to R56), its invocations (R113, R114), and
the flags that endpoints set and clear (R124, R127, R139). -/

namespace Sys2Proof.Machine

/-! ## Events -/

/-- A request refused (R54). -/
def State.refuseRing (s : State) (r : Fin 8) : State := s.setFld (.ringEvent r) F.ringEvent_REFUSED 1

/-- The ring reaches RUNNING: its clocks start (R49, R55, R397). -/
def State.enterRunning (s : State) (r : Fin 8) : State :=
  (((s.onRing r fun k => { k with starting := false }).moveRing r stRunning).setFld (.ringEvent r) F.ringEvent_RUNNING 1).startFreq r

/-- The ring reaches RUNNING at the end of a load: its START triggers fire, once (R49, R113). -/
def State.startRunning (s : State) (r : Fin 8) : State := (s.enterRunning r).fire r 1 0 0

/-- The ring reaches FAILED (R48, R55). -/
def State.failRing (s : State) (r : Fin 8) (cause : Nat) : State :=
  ((s.onRing r fun k => { k with starting := false }).setRingState r stFailed cause).setFld (.ringEvent r)
    F.ringEvent_FAILED 1

/-! ## Boot (R49, R360) -/

/-- BOOT_STATUS.STAGE values (R368). -/
abbrev stageDone : Nat := 6

/-- The boot is over (R360). -/
def State.bootDone (s : State) : Bool := s.fld .bootStatus F.bootStatus_STAGE == stageDone

/-- Every ring of the boot has been loaded, or has failed. -/
def State.loadsOver (s : State) : Bool := (List.finRange 8).all fun r => s.ringState r != stLoading || (s.ring r).bound

/-- The end of boot: STAGE is DONE, and the rings with START_AT_BOOT enter RUNNING (R49, R360). -/
def State.endBoot (s : State) : State :=
  if s.bootDone || !s.loadsOver || s.boot.phase != .handedOver then s
  else (List.finRange 8).foldl (fun s r => if s.ringState r = stLoading then s.startRunning r else s)
    (s.setFld .bootStatus F.bootStatus_STAGE stageDone)

/-! ## START (R49, R54) -/

/-- START: from LOADED the ring goes on as it is loaded; from STOPPED or FAILED it is loaded again. -/
def State.startNow (s : State) (r : Fin 8) : State :=
  let go (s : State) : State := (s.enterLoading r).onRing r fun k => { k with starting := true }
  if s.ringState r = stLoaded then go s
  else if s.ringState r = stStopped ∨ s.ringState r = stFailed then go (s.releaseRing r)
  else s.refuseRing r

/-! ## PARK and RESUME (R49 to R51) -/

/-- PARK. -/
def State.parkNow (s : State) (r : Fin 8) : State :=
  if s.ringState r = stRunning then s.moveRing r stParking else s.refuseRing r

/-! ## Cancelling (R50, R52) -/

/-- A core of which every invocation is cancelled: nothing is queued any more; what its engines have under way goes on. -/
def cancelCore (k : Core) : Core :=
  { k with
    queues := k.queues.map fun q => { q with tags := [], wait := none, stepNow := false, probe := .idle }
    access := {}, execute := {}, masterTest := none, hint := none }

/-- The running invocation cancelled: its PENDING slots return to EMPTY, its contexts' step is over. -/
def State.cancelInvocation (s : State) (r : Fin 8) : State :=
  let s1 := match (s.ring r).current with
    | some i => (s.dropUnposted r).stepEnds r i
    | none => s
  let s2 := (s1.coresOf r).foldl (fun s c => s.onCore c cancelCore) s1
  s2.onRing r fun k => { k with current := none, master := {}, ports := .replicate 4 none, tests := [] }

/-! ## STOP (R52, R54) -/

/-- The states in which STOP is accepted (R49). -/
def stoppable (st : Nat) : Bool :=
  [stLoading, stRunning, stParking, stParked, stFaulted, stLoaded, stFailed].contains st

/-- STOP begins: every invocation is cancelled at once, and each pending INVOKE is answered RING_STATE. A ring that was
LOADING or FAILED is to release what it has bound (R52, R54). The register writes, PARAM_WRITE replies and DONE_FLAGs that
a PARKED ring holds are discarded without a reply: the model's choice (log 114). -/
def State.beginStop (s : State) (r : Fin 8) (cause : Nat) : State :=
  let prev := s.ringState r
  let s1 := (s.setRingState r stStopping cause).dropPending r stRingState
  let s2 := ((s1.dropUnposted r).cancelSwaps r).smpStopRing r
  let cores := s2.coresOf r
  let s3 := cores.foldl (fun s c => s.onCore c idleCore) s2
  let s4 := s3.onRing r fun k =>
    { k with
      current := none, master := {}, ports := .replicate 4 none, tests := [], held := [], heldParams := []
      admission := none
      abandon := prev == stLoading || prev == stFailed }
  { s4 with trz := { s4.trz with remotes := s4.trz.remotes.filter fun q => !cores.contains q.core } }

/-- STOP; while STOPPING it changes nothing (R54). -/
def State.stopNow (s : State) (r : Fin 8) : State :=
  if s.ringState r = stStopping then s
  else if stoppable (s.ringState r) then (s.beginStop r cauHost).endBoot
  else s.refuseRing r

/-! ## RESUME -/

/-- RESUME of a PARKED ring: it reaches RUNNING, and its swaps go on (R49, R237). The held writes are performed beside it
(Control.lean). -/
def State.resumeRing (s : State) (r : Fin 8) : State := (s.enterRunning r).runAllMoves r

/-! ## Loading (R49, R360) -/

/-- No lower-numbered ring is still to be loaded: at every ring load the booth takes rings in ascending number (R40,
R360). -/
def State.loadTurn (s : State) (r : Fin 8) : Bool :=
  (List.finRange 8).all fun g => decide (r.val ≤ g.val) || s.ringState g != stLoading || (s.ring g).bound

/-- A loaded ring goes on: one that START loads runs; at boot one with START_AT_BOOT waits for the end of boot, and any
other is LOADED (R49). -/
def State.loadedRing (s : State) (r : Fin 8) : State :=
  if s.bootDone || (s.ring r).starting then s.startRunning r
  else if bitAt (s.manifest r 4 1) 0 then s
  else s.moveRing r stLoaded

/-- The load step of a ring that is LOADING. A ring that is bound already came here by START from LOADED and runs, or
waits with START_AT_BOOT for the end of boot (R49). -/
def State.finishLoad (s : State) (r : Fin 8) : State :=
  if (s.ring r).bound then (if s.bootDone || (s.ring r).starting then s.startRunning r else s)
  else match s.loadNow r with
    | (s1, 0) => (s1.loadedRing r).endBoot
    | (s1, cause) => (s1.failRing r cause).endBoot

/-- RING_LOAD_COMPLETE: only a LOADING ring whose turn has come. -/
def execRingLoadComplete (ring : Fin 8) (s : State) : Host.Outcome State Fault Refusal :=
  .next (if s.ringState ring = stLoading ∧ s.loadTurn ring then s.finishLoad ring else s)

/-! ## The end of a park (R50) -/

/-- A core as a park leaves it: gathering buffer flushed, accumulators cleared to +0.0, operand space not kept, so free
values, and every mark invalid (R50, R61, R155; log 47). That SET_POISON is cleared, and that writes of sets still in the
pipeline are dropped, is the model's choice (log 119). -/
def parkCore (draw : Nat) (k : Core) : Core :=
  { flushAll k with
    opnd := smWrite 0 [] 0 ((List.range 0x8E000).map (Config.parkedByte draw))
    opndBad := []
    acc := [], accBad := [], setPoison := 0, accPend := []
    wValid := 0, aValid := 0, dsValid := 0, latchValid := false }

/-- The cores of a ring parked: records written back first (R50, R97). -/
def State.parkCores (s : State) (r : Fin 8) : State :=
  (s.coresOf r).foldl (fun s c =>
    let s1 := s.recsBack (noCommand r) c
    { s1.onMem (noCommand r) c (parkCore s1.fresh) with fresh := s1.fresh + 1 }) s

/-- The park is complete. -/
def State.parkedNow (s : State) (r : Fin 8) : State :=
  ((s.parkCores r).moveRing r stParked).setFld (.ringEvent r) F.ringEvent_PARKED 1

/-- Step 3 of R50 is over: no invocation, no transfer, no crossing of the ring. -/
def State.parkReady (s : State) (r : Fin 8) : Bool :=
  s.ringState r == stParking && (s.ring r).current.isNone && ((s.coresOf r).all fun c => engineIdle (s.core c)) && s.drained r

/-- PARK_COMPLETE. -/
def execParkComplete (ring : Fin 8) (s : State) : Host.Outcome State Fault Refusal :=
  .next (if s.parkReady ring then s.parkedNow ring else s)

/-! ## PARK_TIMEOUT (R50, R446) -/

/-- The head tag of a queue that is still busy. -/
def queueHead (q : EngineQueue) : Option Tag := q.tags.head?

/-- The tag of a sequencer or ringmaster that has not passed END: that of the command that it waits with, else the tag of
no command (R132; log 55). -/
def seqHead (r : Fin 8) (q : Sequencer) : Option Tag :=
  if q.ended then none else some ((q.wait.map fun w => w.tag).getD (noCommand r))

/-- The head tags of the ring's busy units, in the order of R446. -/
def State.busyTags (s : State) (r : Fin 8) : List Tag :=
  let core (c : Fin 16) : List Tag :=
    ((s.core c).queues.toList.filterMap queueHead) ++
      if s.masterMode r then [] else ((seqHead r (s.core c).access).toList ++ (seqHead r (s.core c).execute).toList)
  (s.coresOf r).flatMap core ++ if s.masterMode r then (seqHead r (s.ring r).master).toList else []

/-- The area of a PARK_TIMEOUT record (R446). -/
def parkArea (busy index records : Nat) (rest : List Tag) : List Byte :=
  leBytes 2 busy ++ leBytes 1 index ++ leBytes 1 records ++ rest.flatMap fun t => leBytes 4 t.toNat

/-- The records of a PARK_TIMEOUT: eight units to a record (R446). -/
def State.parkRecords (s : State) (r : Fin 8) : State :=
  let tags := s.busyTags r
  let n := ceilDiv tags.length 8
  (List.range n).foldl (fun s i =>
    let l := part tags (8 * i) 8
    s.record (some r) false ⟨l.headD (noCommand r), cauParkTimeout, isBooth, 0, 0, parkArea tags.length i n (l.drop 1)⟩) s

/-- PARK_TIMEOUT has passed: the records, CAUSE, and the invocation cancelled; the park then completes (R50). -/
def State.parkTimeoutNow (s : State) (r : Fin 8) : State :=
  ((s.parkRecords r).cancelInvocation r).setFld (.ringManifestStatus r) F.ringManifestStatus_CAUSE cauParkTimeout

/-- PARK_TIMEOUT: only a ring that is PARKING with an invocation in progress. -/
def execParkTimeout (ring : Fin 8) (s : State) : Host.Outcome State Fault Refusal :=
  .next (if s.ringState ring = stParking ∧ (s.ring ring).current.isSome then s.parkTimeoutNow ring else s)

/-! ## The end of a stop (R52, R54) -/

/-- A core zeroised: memory, operand space, accumulators, trace buffer and record cache (R52). -/
def zeroCore (k : Core) : Core :=
  { idleCore k with
    opnd := [], opndBad := [], acc := [], accBad := [], setPoison := 0, accPend := [], vPend := []
    wValid := 0, aValid := 0, dsValid := 0, latchValid := false, rx := .replicate 4 {}
    mem := [], memBad := [], memFlips := [], gather := [], recs := [], flags := 0
    trace := [], traceLost := 0 }

/-- The midway share of a ring zeroised (R52). -/
def State.zeroSlices (s : State) (r : Fin 8) : State :=
  (s.slicesOf r).foldl (fun s m =>
    { s with
      mwy := smClear s.mwy (33554432 * m) (33554432 * (m + 1))
      mwyBad := smClear s.mwyBad (1048576 * m) (1048576 * (m + 1))
      mwyFlips := smClear s.mwyFlips (36 * 1048576 * m) (36 * 1048576 * (m + 1)) }) s

/-- A DRAM unit zeroised: zero data that no ring owns (R52, R186). -/
def zeroUnit (d : Dram) (u : Nat) : Dram :=
  { d with
    data := smClear d.data (unitBytes * u) (unitBytes * (u + 1))
    tag := smClear d.tag (262144 * u) (262144 * (u + 1))
    flips := smClear d.flips (80 * 262144 * u) (80 * 262144 * (u + 1))
    unitOwner := smSet 0xFF d.unitOwner u 0xFF
    writeBack := d.writeBack.filter fun n => !lineInUnit u n }

/-- The DRAM regions of a ring zeroised, where ZEROISE_DRAM_ON_STOP is set (R42, R52). -/
def State.zeroRegions (s : State) (r : Fin 8) : State :=
  if bitAt (s.manifest r 4 1) 3 ∧ (s.ring r).bound then
    { s with dram := (unitsOf (s.ring r).manifest).foldl zeroUnit s.dram }
  else s

/-- The open trapeze windows of a ring CLOSED; what STATUS shows of a refused request stays (R52, R336, R345). -/
def State.closeWindows (s : State) (r : Fin 8) : State :=
  (List.finRange 256).foldl (fun s w =>
    if s.ownsWindow r w then s.setFld (.trzWindowStatus w) F.trzWindowStatus_STATE 0 else s) s

/-- The stream contexts of a ring disabled (R52, R260). -/
def State.disableStreams (s : State) (r : Fin 8) : State :=
  (List.finRange 64).foldl (fun s x =>
    if s.streamRing x = some r ∧ s.feState x ≠ feDisabled then
      ((s.onStream x fun k => { k with opened := none, ready := [], times := [], views := [] }).streamOff x).rxOf x
    else s) s

/-- What a STOP clears and releases (R52). -/
def State.clearRing (s : State) (r : Fin 8) : State :=
  let s1 := ((s.releaseContexts r).closeWindows r).disableStreams r
  let s2 := (s1.coresOf r).foldl (fun s c => s.onCore c zeroCore) s1
  ((((s2.zeroSlices r).zeroRegions r).onRing r fun k => { k with flags := 0, slots := [] }).unbindEndpoints r)

/-- The ring reaches STOPPED with the CAUSE that its stop was given; what still crosses towards its cores finds none of
its units (R52, R54). -/
def State.stoppedNow (s : State) (r : Fin 8) : State :=
  let s0 := s.dropEntries r
  let s1 := if (s0.ring r).bound then s0.clearRing r else s0
  let cause := F.ringManifestStatus_CAUSE.get (s.reg (.ringManifestStatus r))
  let s2 := if (s.ring r).abandon then s1.releaseRing r else s1
  (s2.setRingState r stStopped cause).setFld (.ringEvent r) F.ringEvent_STOPPED 1

/-- An answer of the ring still waits, at an endpoint that may carry it once its port is not paused or its area has room
(R52, R298, R322). -/
def State.answersWait (s : State) (r : Fin 8) : Bool :=
  (List.finRange 8).any fun e =>
    let x := epIx r e
    ((s.ep x).queue.any fun m => m.reply) && s.epBound x &&
      if s.epInternal x then !s.boot.dirBad
      else s.fld (.trsEpStatus x) F.trsEpStatus_PEER_KNOWN == 1 &&
        (!s.epSecured x || s.fld (.trsEpStatus x) F.trsEpStatus_KEY_LIVE == 1)

/-- STOP_COMPLETE: a STOPPING ring whose flag operations have left the crossings, and whose answers have been sent
(R52; log 113). -/
def execStopComplete (ring : Fin 8) (s : State) : Host.Outcome State Fault Refusal :=
  .next (if s.ringState ring = stStopping ∧ s.flagsDrained ring ∧ s.answersWait ring = false then s.stoppedNow ring else s)

/-- The ring's crossings drained at once: its flag operations act (R52, R54). -/
def State.drainRing (s : State) (r : Fin 8) : State :=
  ((s.cross ++ s.heldBack).filter fun e => e.2.ofRing r).foldl (fun s e => match e.2 with
    | .setFlag g n => s.setRingFlag g n
    | .clearFlag g n => s.clearRingFlag g n
    | _ => s) (s.dropEntries r)

/-- Deep standby and Off stop every ring as R52 states, with CAUSE POWER (R54); a stop in progress is completed. -/
def State.stopAll (s : State) : State :=
  (List.finRange 8).foldl (fun s r =>
    if stoppable (s.ringState r) then ((s.beginStop r cauPower).drainRing r).stoppedNow r
    else if s.ringState r = stStopping ∨ s.ringState r = stStopped then
      ((s.setRingState r stStopping cauPower).drainRing r).stoppedNow r
    else s) s

/-! ## Invocations (R114) -/

/-- A core as an invocation finds it: its flags clear, its queues at their first command (R105, R114, R121). -/
def freshCore (k : Core) : Core :=
  { k with
    flags := 0, flagPend := [], masterTest := none
    queues := k.queues.map fun q => { q with fresh := true, ended := false, prog := 0, wait := none, probe := .idle }
    access := {}, execute := {}, auditArr := [], auditVec := [] }

/-- The parameter block copied into every core memory of the ring, and the core's start traced (R114, R451). -/
def State.startCores (s : State) (r : Fin 8) (i : Invocation) : State :=
  (s.coresOf r).foldl (fun s c =>
    ((s.cmWrite (noCommand r) c 0 (cleanBytes i.params)).onCore c freshCore).trace c evInvoke (noCommand r) i.slot) s

/-- The next invocation starts: its slots are claimed, its block is copied, the flags are clear, the sequencers start, and
its INVOKE is answered OK (R114, R315). -/
def State.startInvocation (s : State) (r : Fin 8) (i : Invocation) : State :=
  let s1 := s.claimAll r i
  let s2 := (s1.onRing r fun k => { k with waiting := k.waiting.drop 1, current := some i, master := {}, ports := .replicate 4 none, tests := [] }).startCores r i
  let s3 := s2.stepContexts r i
  match i.asker with
  | some a => s3.replyStatus r a stOk
  | none => s3

/-- The head of the pending list may start: the ring runs no invocation, and the head's contexts are admitted (R114,
R231). -/
def State.headReady (s : State) (r : Fin 8) : Option Invocation :=
  if s.ringState r = stRunning ∧ s.ringClocked r ∧ (s.ring r).current.isNone then
    (s.ring r).waiting.head?.filter fun i => i.admitted || (contextList i).isEmpty
  else none

/-- INVOCATION_START: without a head that may start nothing happens; a stream without a slot holds it (R315). -/
def execInvocationStart (ring : Fin 8) (s : State) : Host.Outcome State Fault Refusal :=
  .next (match s.headReady ring with
    | some i => if s.canClaim ring i.slot then s.startInvocation ring i else s.markHeld ring i.slot
    | none => s)

/-- The slot in which every write and drain of a core is visible (R65, R73, R118). -/
def quietSlot (k : Core) : Nat :=
  let a := k.accPend.foldl (fun n w => max n w.slot) k.slot
  let v := k.vPend.foldl (fun n w => max n w.slot) a
  let q := (k.flagPend.map fun o => o.slot).foldl max (k.queues.toList.foldl (fun n q => max n q.free) v)
  k.rx.toList.foldl (fun n e => max n e.readable) (max q (max k.drainFree k.pipeUntil))

/-- A core at the end of an invocation: its writes visible, its gathering buffer flushed, its end traced (R114, R155). -/
def State.endCores (s : State) (r : Fin 8) (i : Invocation) : State :=
  (s.coresOf r).foldl (fun s c =>
    ((s.toSlot c (quietSlot (s.core c))).onMem (noCommand r) c flushAll).trace c evEnd (noCommand r) i.slot) s

/-- The invocation ends: unposted slots return to EMPTY, its contexts' step is over, DONE triggers fire (R113, R114, R230,
R316). -/
def State.endInvocation (s : State) (r : Fin 8) (i : Invocation) : State :=
  let s1 := ((s.endCores r i).dropUnposted r).stepEnds r i
  (s1.onRing r fun k => { k with current := none }).fire r 4 i.slot 0

/-- INVOCATION_END: an invocation that has not ended goes on. -/
def execInvocationEnd (ring : Fin 8) (s : State) : Host.Outcome State Fault Refusal :=
  .next (match (s.ring ring).current with
    | some i => if s.ringClocked ring && s.allEnded ring then s.endInvocation ring i else s
    | none => s)

/-! ## RING_FLAG_WRITE (R124, R139) -/

/-- A RING_FLAG_WRITE in effect: event flags alone; the operation crosses from the Ethernet island (R127). -/
def State.flagWriteNow (s : State) (r : Fin 8) (index : Fin 256) (clear : Bool) : State × Nat :=
  if index.val < 192 then (s, stAccessFlag)
  else (s.crossPut .ethToConcourse (if clear then .clearFlag r index else .setFlag r index), stOk)

/-- The word of a RING_FLAG_WRITE. -/
def flagWord (index : Fin 256) (clear : Bool) : Word := BitVec.ofNat 32 (0xA5000000 + 256 * bitNat clear + index.val)

/-- A RING_FLAG_WRITE by an endpoint (R56, R313). -/
def State.flagControl (s : State) (r : Fin 8) (who : Who) (index : Fin 256) (clear : Bool) : State × Nat :=
  s.request r who (BitVec.ofNat 32 (Reg.ringFlagWrite r).addr) (flagWord index clear) fun s => s.flagWriteNow r index clear

/-- A byte as a flag number. -/
def flagOf (b : Byte) : Fin 256 := ⟨b.toNat, b.isLt⟩

/-- FLAG_WRITE_SET. -/
def execFlagWriteSet (ring : Fin 8) (index : Byte) (who : Who) (s : State) : Host.Outcome State Fault Refusal :=
  .next (s.flagControl ring who (flagOf index) false).1

/-- FLAG_WRITE_CLEAR. -/
def execFlagWriteClear (ring : Fin 8) (index : Byte) (who : Who) (s : State) : Host.Outcome State Fault Refusal :=
  .next (s.flagControl ring who (flagOf index) true).1

/-! ## RING_CONTROL but for RESUME's held writes (R55, R56) -/

/-- A request of RING_CONTROL by one who may make it; it acts at once in every state (R51, R56, R313). -/
def State.ringRequest (s : State) (r : Fin 8) (who : Who) (act : State → State) : State × Nat :=
  if s.debugAsleep r who then (s, stRingState)
  else if s.ringAccess r who then (act s, stOk) else (s, stAccessRing)

/-- RING_START. -/
def execRingStart (ring : Fin 8) (who : Who) (s : State) : Host.Outcome State Fault Refusal :=
  .next (s.ringRequest ring who fun s => s.startNow ring).1

/-- RING_PARK. -/
def execRingPark (ring : Fin 8) (who : Who) (s : State) : Host.Outcome State Fault Refusal :=
  .next (s.ringRequest ring who fun s => s.parkNow ring).1

/-- RING_STOP. -/
def execRingStop (ring : Fin 8) (who : Who) (s : State) : Host.Outcome State Fault Refusal :=
  .next (s.ringRequest ring who fun s => s.stopNow ring).1

end Sys2Proof.Machine
end

