-- ==== Sys2Proof/Machine/Trapeze.lean ====
section
/-! DEFINITION. Trapeze links: what arrives on a port (R328 to R331, R338, R340), training and retrains (R327, R330), the
numbering of the tree (R332 to R335), windows (R336, R337) and remote timeouts (R340). -/

namespace Sys2Proof.Machine

/-! ## Sequence numbers, ACK and credit (R329, R330) -/

/-- A port. -/
def State.port (s : State) (p : Fin 4) : TrzPort := s.trz.ports[p]

/-- Packets up to an ACK leave the replay buffer, with their counts; an ACK that advances ends a run of retrains. -/
def ackPort (ack : BitVec 16) (k : TrzPort) : TrzPort :=
  match k.replay.findIdx? fun x => x.body.seq == ack with
  | some i => { k with replay := k.replay.drop (i + 1), resends := k.resends.drop (i + 1), retrains := 0 }
  | none => k

/-- Credit returned by the other end (R328, R329). -/
def creditPort (c : BitVec 16) (k : TrzPort) : TrzPort :=
  if h : c.toNat / 16384 < 3 then
    { k with credit := k.credit.set (c.toNat / 16384) (k.credit[c.toNat / 16384] + c.toNat % 16384) h }
  else k

/-- What the header of a packet from the other end says of this end's transmissions. -/
def headerPort (q : Packet) (k : TrzPort) : TrzPort := creditPort q.credit (ackPort q.ack k)

/-- A packet accepted: the next SEQ is expected (R330). -/
def acceptPort (q : Packet) (k : TrzPort) : TrzPort := headerPort q { k with expect := k.expect + 1, nakSent := false }

/-- The flits of a packet have left the receive buffer, and their credit is due (R329). -/
def freePort (kind : Nat) (q : Packet) (k : TrzPort) : TrzPort :=
  { k with owed := k.owed.set (vcOf kind) (k.owed[vcOf kind] + flitsOf q) }

/-- A packet accepted that ends at this device: its flits leave the buffer at once. -/
def State.accepted (s : State) (p : Fin 4) (kind : Nat) (q : Packet) : State :=
  (s.onPort p fun k => freePort kind q (acceptPort q k)).pumpOut p

/-- The codewords of a packet that the FEC corrected, counted (R325, R330). -/
def State.countFec (s : State) (p : Fin 4) (n : Nat) : State := s.bump (.trzPortCount p 0) F.trzPortCount_COUNT n

/-- The FEC codewords of a port that were corrected, and those that could not be, counted (R325, R344). -/
def State.countWords (s : State) (p : Fin 4) (corrected uncorrectable : Nat) : State :=
  (s.countFec p corrected).bump (.trzPortCount p 1) F.trzPortCount_COUNT uncorrectable

/-- A packet dropped for its CRC or its SEQ: the first drop after an accepted packet sends a NAK (R330). -/
def State.badPacket (s : State) (p : Fin 4) : State :=
  if (s.port p).nakSent then s else (s.sendLink p true).onPort p fun k => { k with nakSent := true }

/-- The port receives packets: UP, TRAINING while HELLO is exchanged, DOWN with its lanes locked again, or EXCLUDED with its
lanes locked (R327, R333, R335). -/
def State.portHears (s : State) (p : Fin 4) : Bool :=
  !s.trzIdle && (s.portState p == ptUp || s.portState p == ptTraining ||
    ((s.portState p == ptExcluded || s.portState p == ptDown) && ((s.port p).linkUp || (s.port p).locked)))

/-- The packet is the next one expected, and its CRC passes (R330). -/
def State.inOrder (s : State) (p : Fin 4) (kind : Nat) (q : Packet) : Bool := packetOk kind q && q.seq == (s.port p).expect

/-- A packet that takes a SEQ and ends at this device arrives: accepted, or dropped (R330). -/
def State.packetIn (s : State) (p : Fin 4) (kind : Nat) (q : Packet) (act : State → State) : State :=
  if !s.portHears p then s
  else
    let s1 := s.countFec p q.corrected
    if s1.inOrder p kind q then act (s1.accepted p kind q) else s1.badPacket p

/-- The unacknowledged packets sent again, in order (R330). -/
def resendPort (k : TrzPort) : TrzPort :=
  { k with
    sent := k.sent ++ k.replay.map fun x => { x with body := sealPacket x.kind { x.body with ack := k.expect - 1 } }
    resends := k.resends.map (· + 1) }

/-- The training of a port begins, for the first time or again: its lanes must lock and HELLO be exchanged (R327). -/
def State.beginTraining (s : State) (p : Fin 4) : State :=
  (s.setPortState p ptTraining).onPort p fun k => { k with linkUp := false, locked := false, helloSent := false, peer := none }

/-- A retrain (R327, R330). -/
def State.retrain (s : State) (p : Fin 4) : State :=
  ((s.beginTraining p).bump (.trzPortCount p 3) F.trzPortCount_COUNT 1).onPort p fun k =>
    { k with retrains := k.retrains + 1, resends := k.resends.map fun _ => 0 }

/-- Every unacknowledged packet sent again, and counted (R330, R344). -/
def State.replayAll (s : State) (p : Fin 4) : State :=
  (s.bump (.trzPortCount p 2) F.trzPortCount_COUNT (s.port p).replay.length).onPort p resendPort

/-- The replay: every unacknowledged packet again, or a retrain once one of them has been resent 8 times (R330; log 56). -/
def State.resend (s : State) (p : Fin 4) : State :=
  if (s.port p).replay.isEmpty then s
  else if (s.port p).resends.any fun n => decide (8 ≤ n) then s.retrain p
  else s.replayAll p

/-- A LINK packet's ACK, credit and NAK (R328, R330). -/
def State.linkIn (s : State) (p : Fin 4) (q : Packet) : State :=
  let s1 := (s.onPort p (headerPort q)).pumpOut p
  if q.attr.getLsbD 5 && s1.portTalks p then s1.resend p else s1

/-- LINK: a packet whose CRC fails is dropped. -/
def execLink (port : Fin 4) (p : Packet) (s : State) : Host.Outcome State Fault Refusal :=
  .next (if !s.portHears port then s
    else if packetOk kLink p then (s.countFec port p.corrected).linkIn port p
    else (s.countFec port p.corrected).badPacket port)

/-- REPLAY_TIMEOUT: only a port whose link is up sends packets again. -/
def execReplayTimeout (port : Fin 4) (s : State) : Host.Outcome State Fault Refusal :=
  .next (if s.portTalks port then s.resend port else s)

/-- LINK_ACK_TIMER: a receiver with nothing to send sends its ACK. -/
def execLinkAckTimer (port : Fin 4) (s : State) : Host.Outcome State Fault Refusal :=
  .next (if s.portTalks port then s.sendLink port false else s)

/-- TRAPEZE_BAD_PACKET (R330). -/
def execTrapezeBadPacket (b : BadPacket) (s : State) : Host.Outcome State Fault Refusal :=
  .next (if s.portHears b.port then (s.countWords b.port b.corrected b.uncorrectable).badPacket b.port else s)

/-! ## Forwarding (R331, R334) -/

/-- A packet handed to the port towards its destination; what cannot be routed is dropped and counted, at the port that it
could not take, else at the port that it came by. -/
def State.sendTo (s : State) (via : Fin 4) (x : TxPacket) : State :=
  match s.routeTo x.body.dst.toNat with
  | .out p => s.portSend p x
  | .here => s
  | .nowhere p => s.countNowhere (some (p.getD via))

/-- The UNREACHABLE that answers a READ or WRITE which cannot be routed onward, back by the port that it came by (R334). -/
def State.unroutable (s : State) (via : Fin 4) (kind : Nat) (q : Packet) (p : Option (Fin 4)) : State :=
  let s1 := s.countNowhere (some (p.getD via))
  if kind = kWrite ∨ kind = kRead then s1.portSend via (s1.answer kind q rmUnreachable []) else s1

/-- The handshake FIFO of a packet between two port islands (R23, R331). -/
def fifoOf (source out : Fin 4) (x : TxPacket) : Crossing := .trzToTrz source out (vcOf x.kind)

/-- The packets of a receive buffer that move on into their FIFOs while these have room, each FIFO's in order; their credit
is due then (R23, R329, R331). -/
def State.moveOn (p : Fin 4) : List (Fin 4 × TxPacket) → State → State
  | [], s => s
  | (o, x) :: l, s =>
    if s.crossFull (fifoOf p o x) || (s.port p).rx.any fun e => fifoOf p e.1 e.2 == fifoOf p o x then
      State.moveOn p l (s.onPort p fun k => { k with rx := k.rx ++ [(o, x)] })
    else State.moveOn p l ((s.crossPut (fifoOf p o x) (.packet x)).onPort p (freePort x.kind x.body))

/-- A port's receive buffer moved on as far as it can. -/
def State.moveRx (s : State) (p : Fin 4) : State :=
  State.moveOn p (s.port p).rx (s.onPort p fun k => { k with rx := [] })

/-- A whole packet for another device stored, its CRC checked, on its way to the port that it leaves by (R331). -/
def State.forward (s : State) (via : Fin 4) (kind : Nat) (q : Packet) (out : Fin 4) : State :=
  (((s.onPort via (acceptPort q)).pumpOut via).onPort via fun k => { k with rx := k.rx ++ [(out, ⟨kind, q⟩)] }).moveRx via

/-- The island of the port that a packet leaves by takes it from its FIFO only when the packet can be sent (R23, R329). -/
def State.takesPacket (s : State) (x : Crossing) : CrossOp → Bool
  | .packet q => match x with
    | .trzToTrz _ out _ => s.viaPort out != .out out || (s.portTalks out && canSend (s.port out) q)
    | _ => true
  | _ => true

/-- A packet that has crossed to the port that it leaves by: it is sent, or cannot be routed onward any more (R331,
R334). -/
def State.forwarded (s : State) (x : Crossing) (q : TxPacket) : State :=
  match x with
  | .trzToTrz source out _ =>
    if s.viaPort out = .out out then s.onPort out fun k => transmit k q else s.unroutable source q.kind q.body (some out)
  | _ => s

/-- A READ or WRITE for this device served, and its reply on its way (R338). -/
def State.serveBack (s : State) (via : Fin 4) (kind : Nat) (q : Packet) : State :=
  let (s1, a) := s.serve via kind q
  s1.sendTo via a

/-- The port carries more than HELLO, and the device answers more: its link is up or retrains, it is not EXCLUDED, and the
device is not DETACHED (R330, R333, R335). -/
def State.carries (s : State) (p : Fin 4) : Bool :=
  (s.portState p == ptUp || s.portState p == ptTraining) && !(s.port p).helloOnly && !(s.port p).excluded &&
    s.trzState != trzDetached

/-- A packet of a port that carries more than HELLO: for this device, forwarded, or not to be routed (R331, R334). -/
def State.trafficIn (s : State) (p : Fin 4) (kind : Nat) (q : Packet) (here : State → State) : State :=
  let act (s : State) : State := match s.routeTo q.dst.toNat with
    | .here => here s
    | .out _ => s
    | .nowhere o => s.unroutable p kind q o
  match s.carries p, s.routeTo q.dst.toNat with
  | false, _ => s.packetIn p kind q id
  | true, .out o =>
    let s1 := s.countFec p q.corrected
    if s.portHears p && s1.inOrder p kind q then s1.forward p kind q o else s.packetIn p kind q id
  | true, _ => s.packetIn p kind q act

/-- TRAPEZE_WRITE. -/
def execTrapezeWrite (port : Fin 4) (p : Packet) (s : State) : Host.Outcome State Fault Refusal :=
  .next (s.trafficIn port kWrite p fun s => s.serveBack port kWrite p)

/-- TRAPEZE_READ. -/
def execTrapezeRead (port : Fin 4) (p : Packet) (s : State) : Host.Outcome State Fault Refusal :=
  .next (s.trafficIn port kRead p fun s => s.serveBack port kRead p)

/-- A reply for this device: its request ends, and transfers that waited for room go on (R339, R340). -/
def State.replyIn (s : State) (q : Packet) : State := (s.remoteReply q.txn q.status.toNat (replyBytes q)).askAll

/-- READ_DATA. -/
def execReadData (port : Fin 4) (p : Packet) (s : State) : Host.Outcome State Fault Refusal :=
  .next (s.trafficIn port kReadData p fun s => s.replyIn p)

/-- WRITE_ACK. -/
def execWriteAck (port : Fin 4) (p : Packet) (s : State) : Host.Outcome State Fault Refusal :=
  .next (s.trafficIn port kWriteAck p fun s => s.replyIn p)

/-- REMOTE_TIMEOUT: 50 ms without a reply (R340). -/
def execRemoteTimeout (txn : BitVec 16) (s : State) : Host.Outcome State Fault Refusal :=
  .next (s.remoteReply txn rmTimeout []).askAll

/-! ## Training (R327, R330, R332) -/

/-- A MESSAGE on a port: its code and content (R332). -/
def State.message (s : State) (p : Fin 4) (dst : Nat) (content : List Byte) : State :=
  s.portSend p ⟨kMessage, mkPacket s.deviceNo dst 0 0 0 content.length 0 0 content⟩

/-- The codes of R332. -/
abbrev mHello : Byte := 0x01
abbrev mNumber : Byte := 0x02
abbrev mNumbered : Byte := 0x03
abbrev mSystem : Byte := 0x04
abbrev mDetach : Byte := 0x05
abbrev mRenumber : Byte := 0x06
abbrev mQuote : Byte := 0x07

/-- Byte `i` of a message. -/
def msgByte (q : Packet) (i : Nat) : Nat := (q.data.getD i 0).toNat

/-- The device's HELLO on a port (R332), which goes out in training too. -/
def State.sendHello (s : State) (p : Fin 4) : State :=
  let q := mkPacket s.deviceNo 0 0 0 0 3 0 0 [mHello, BitVec.ofNat 8 (s.fld .trzSystemStatus F.trzSystemStatus_ROLE),
    BitVec.ofNat 8 (s.fld (.trzPortStatus p) F.trzPortStatus_PORT_ROLE)]
  s.onPort p fun k =>
    if canSend k ⟨kMessage, q⟩ then transmit k ⟨kMessage, q⟩ else { k with waiting := ⟨kMessage, q⟩ :: k.waiting }

/-- HELLO once in a training (R327). -/
def State.helloOnce (s : State) (p : Fin 4) : State :=
  if (s.port p).helloSent then s else (s.sendHello p).onPort p fun k => { k with helloSent := true }

/-- An uplink faces a downlink (R327): PORT_ROLE 1 is an uplink, 2 a downlink. -/
def rolesFit (own peer : Nat) : Bool := (own == 1 && peer == 2) || (own == 2 && peer == 1)

/-- The role that a port plays. -/
def State.portRole (s : State) (p : Fin 4) : Nat := s.fld (.trzPortStatus p) F.trzPortStatus_PORT_ROLE

/-- The port is in training: TRAINING, or its link was lost and comes back (R327, R335). -/
def State.inTraining (s : State) (p : Fin 4) : Bool :=
  s.portState p == ptTraining || s.portState p == ptDown || (s.portState p == ptExcluded && !(s.port p).linkUp)

/-- A waiting packet of a port that went DOWN: answered or dropped (R334). -/
def State.strand (s : State) (p : Fin 4) (x : TxPacket) : State :=
  let s1 := s.countNowhere (some p)
  if x.kind = kWrite ∨ x.kind = kRead then
    (if x.body.src.toNat = s.deviceNo then s1.remoteReply x.body.txn rmUnreachable []
    else s1.sendTo p (s1.answer x.kind x.body rmUnreachable []))
  else s1

/-- A port goes DOWN: the packets of its replay buffer are lost, what waits for it is answered or dropped, and what it has
received and stored goes on (R330, R334, R335). The link begins anew when it is trained again (log 137). -/
def State.portDown (s : State) (p : Fin 4) : State :=
  let k := s.port p
  let s1 := (s.setPortState p ptDown).onPort p fun k => { excluded := k.excluded, helloOnly := true, sent := k.sent }
  let s2 := k.rx.foldl (fun s e => s.crossPut (fifoOf p e.1 e.2) (.packet e.2)) s1
  k.waiting.foldl (fun s x => s.strand p x) s2

/-- The transmitters go to electrical idle: every link is lost (R325; log 135). -/
def State.idlePorts (s : State) : State :=
  (List.finRange 4).foldl (fun s p =>
    if s.portState p = ptUp then s.portDown p
    else if s.portState p = ptTraining then s.beginTraining p
    else s.onPort p fun k => { k with linkUp := false, locked := false, helloSent := false, peer := none }) s

/-- A port comes UP, and what waits at it leaves; a port that is EXCLUDED until the next numbering is so again (R330,
R333). -/
def State.portUp (s : State) (p : Fin 4) : State :=
  ((s.setPortState p (if (s.port p).excluded then ptExcluded else ptUp)).onPort p fun k => { k with linkUp := true }).pumpOut p

/-- A training ends once the lanes are locked and the other end's HELLO has come: UP; or ROLE_ERR, where the roles do not
fit; or DOWN, after three retrains with the same packet unacknowledged (R327, R330). -/
def State.endTraining (s : State) (p : Fin 4) : State :=
  match (s.port p).peer, (s.port p).locked with
  | some peer, locked =>
    if !rolesFit (s.portRole p) peer then s.setPortState p ptRoleErr
    else if !locked then s
    else if 3 ≤ (s.port p).retrains ∧ !(s.port p).replay.isEmpty then s.portDown p
    else s.portUp p
  | none, _ => s

/-- The lanes of a port lock: it resends from ACK and exchanges HELLO; or the training fails (R327, R330). -/
def State.trained (s : State) (p : Fin 4) (ok : Bool) : State :=
  if !ok then s.portDown p
  else (((s.onPort p fun k => { k with locked := true }).replayAll p).helloOnce p).endTraining p

/-- PORT_TRAINED: of a port in training; the codewords that its FEC corrected meanwhile, and those that it could not, are
counted as those of traffic (R344; log 143). -/
def execPortTrained (port : Fin 4) (ok : Bool) (corrected uncorrectable : Nat) (s : State) : Host.Outcome State Fault Refusal :=
  .next (if s.inTraining port && !s.trzIdle then (s.countWords port corrected uncorrectable).trained port ok else s)

/-- A HELLO: in training it says the other end's role, and is answered once; a port whose link is up answers it (R327, R332,
R333). -/
def State.helloIn (s : State) (p : Fin 4) (q : Packet) : State :=
  if s.inTraining p then
    ((s.onPort p fun k => { k with peer := some (msgByte q 2) }).helloOnce p).endTraining p
  else s.sendHello p

/-- HELLO. -/
def execHello (port : Fin 4) (p : Packet) (s : State) : Host.Outcome State Fault Refusal :=
  .next (s.packetIn port kMessage p fun s => s.helloIn port p)

/-! ## Numbering (R333) -/

/-- The device's depth. -/
def State.depth (s : State) : Nat := s.fld .trzSystemStatus F.trzSystemStatus_DEPTH

/-- The downlinks, ascending. -/
def State.downlinks (s : State) : List (Fin 4) := (List.finRange 4).filter fun p => s.isDownlink p

/-- The state with a port EXCLUDED. -/
def State.exclude (s : State) (p : Fin 4) : State :=
  (s.setPortState p ptExcluded).onPort p fun k => { k with excluded := true }

/-- The downlinks that are not UP become EXCLUDED, and no range is valid any more. -/
def State.beginRound (s : State) : State :=
  s.downlinks.foldl (fun s p =>
    let s1 := (s.setFld (.trzPortStatus p) F.trzPortStatus_SUBTREE_VALID 0).onPort p fun k =>
      { k with helloOnly := false, excluded := false }
    if s1.portState p = ptUp then s1 else s1.exclude p) s

/-- The downlink that NUMBER goes to next. -/
def State.nextDownlink (s : State) : Option (Fin 4) :=
  s.downlinks.find? fun p => s.portState p == ptUp && s.fld (.trzPortStatus p) F.trzPortStatus_SUBTREE_VALID == 0

/-- SYSTEM to every numbered downlink (R333). -/
def State.sendSystem (s : State) (count : Nat) : State :=
  (s.downlinks.filter fun p => s.fld (.trzPortStatus p) F.trzPortStatus_SUBTREE_VALID == 1).foldl (fun s p =>
    s.message p 0 [mSystem, BitVec.ofNat 8 count]) s

/-- COUNT recorded, READY entered, and SYSTEM passed down (R333). -/
def State.enterReady (s : State) (count : Nat) : State :=
  ((s.setFld .trzSystemStatus F.trzSystemStatus_COUNT count).setFld .trzSystemStatus F.trzSystemStatus_STATE
    trzReady).sendSystem count

/-- Every downlink has been numbered: the manager sends SYSTEM, a worker answers NUMBERED (R333). -/
def State.endRound (s : State) : State :=
  let s1 := { s with trz := { s.trz with numbering := none } }
  if s.isManager then s1.enterReady s.trz.nextFirst
  else s1.message s.uplink 0 [mNumbered, BitVec.ofNat 8 (s.trz.nextFirst - s.deviceNo)]

/-- NUMBER to the next downlink, or the end of the round (R333). -/
def State.numberNext : Nat → State → State
  | 0, s => s.endRound
  | fuel + 1, s =>
    match s.nextDownlink with
    | none => s.endRound
    | some p =>
      if s.trz.limit < s.trz.nextFirst ∨ 4 ≤ s.depth then State.numberNext fuel (s.exclude p)
      else ({ s with trz := { s.trz with numbering := some p } } : State).message p 0
        [mNumber, BitVec.ofNat 8 s.depth, BitVec.ofNat 8 s.trz.nextFirst, BitVec.ofNat 8 s.trz.limit]

/-- A round of numbering below the device: the first number to give and LIMIT. -/
def State.numberBelow (s : State) (first limit : Nat) : State :=
  let s1 := s.beginRound
  State.numberNext 4 { s1 with trz := { s1.trz with nextFirst := first, limit := limit, numbering := none } }

/-- The manager numbers its system: number 0, depth 0 (R333). -/
def State.managerNumbers (s : State) : State :=
  ((s.setFld .trzSystemStatus F.trzSystemStatus_DEVICE 0).setFld .trzSystemStatus F.trzSystemStatus_DEPTH 0).numberBelow 1 127

/-- NUMBERING_START: of a manager that is DISCOVERING and has not begun. -/
def execNumberingStart (s : State) : Host.Outcome State Fault Refusal :=
  .next (if s.isManager && s.trzState == trzDiscovering && s.trz.numbering.isNone then s.managerNumbers else s)

/-- A message from a worker's parent. -/
def State.fromParent (s : State) (p : Fin 4) : Bool := s.isWorker && p == s.uplink

/-- A worker takes its number and depth, and numbers its own downlinks (R333). -/
def State.takeNumber (s : State) (q : Packet) : State :=
  let first := msgByte q 2
  ((s.setFld .trzSystemStatus F.trzSystemStatus_DEVICE first).setFld .trzSystemStatus F.trzSystemStatus_DEPTH
    (msgByte q 1 + 1)).numberBelow (first + 1) (msgByte q 3)

/-- NUMBER: for a worker that is DISCOVERING; a DETACHED one answers nothing (R333). -/
def execNumber (port : Fin 4) (p : Packet) (s : State) : Host.Outcome State Fault Refusal :=
  .next (s.packetIn port kMessage p fun s =>
    if s.fromParent port && s.trzState == trzDiscovering then s.takeNumber p else s)

/-- The subtree of the child that has been numbered (R333, R344). -/
def State.childNumbered (s : State) (p : Fin 4) (count : Nat) : State :=
  let first := s.trz.nextFirst
  let s1 := ((s.setFld (.trzPortStatus p) F.trzPortStatus_FIRST first).setFld (.trzPortStatus p) F.trzPortStatus_LAST
    (first + count - 1)).setFld (.trzPortStatus p) F.trzPortStatus_SUBTREE_VALID 1
  State.numberNext 4 { s1 with trz := { s1.trz with nextFirst := first + count, numbering := none } }

/-- NUMBERED: from the child whose answer is awaited. -/
def execNumbered (port : Fin 4) (p : Packet) (s : State) : Host.Outcome State Fault Refusal :=
  .next (s.packetIn port kMessage p fun s =>
    if s.trz.numbering = some port then s.childNumbered port (msgByte p 1) else s)

/-- NUMBERED has not come: DETACH, and the port is EXCLUDED (R333). -/
def State.childLost (s : State) (p : Fin 4) : State :=
  let s1 := (s.message p 0 [mDetach]).exclude p
  State.numberNext 4 { s1 with trz := { s1.trz with numbering := none } }

/-- NUMBERED_TIMEOUT. -/
def execNumberedTimeout (port : Fin 4) (s : State) : Host.Outcome State Fault Refusal :=
  .next (if s.trz.numbering = some port then s.childLost port else s)

/-- SYSTEM: a numbered worker records COUNT and enters READY (R333). -/
def execSystem (port : Fin 4) (p : Packet) (s : State) : Host.Outcome State Fault Refusal :=
  .next (s.packetIn port kMessage p fun s =>
    if s.fromParent port && s.trzState == trzDiscovering && s.depth != 0 then s.enterReady (msgByte p 1) else s)

/-- The device holds no number. -/
def State.dropNumber (s : State) : State :=
  let s1 := ((s.setFld .trzSystemStatus F.trzSystemStatus_DEVICE 0).setFld .trzSystemStatus F.trzSystemStatus_DEPTH 0).setFld
    .trzSystemStatus F.trzSystemStatus_COUNT 0
  { s1 with trz := { s1.trz with numbering := none } }

/-- DETACH: the worker takes no number and enters DETACHED (R333). -/
def execDetach (port : Fin 4) (p : Packet) (s : State) : Host.Outcome State Fault Refusal :=
  .next (s.packetIn port kMessage p fun s =>
    if s.fromParent port then s.dropNumber.setFld .trzSystemStatus F.trzSystemStatus_STATE trzDetached else s)

/-! ## Renumbering (R335) -/

/-- CLOSE of an open window (R337). -/
def State.beginCloseWindow (s : State) (w : Fin 256) : State :=
  if s.fld (.trzWindowStatus w) F.trzWindowStatus_STATE = 1 then
    s.setFld (.trzWindowStatus w) F.trzWindowStatus_STATE 2
  else s

/-- Every window closed (R335, R337). -/
def State.closeAllWindows (s : State) : State := (List.finRange 256).foldl State.beginCloseWindow s

/-- Every outstanding remote request fails with UNREACHABLE (R335). -/
def State.failRemotes (s : State) : State :=
  (s.trz.remotes.foldl (fun s q => s.remoteReply q.txn rmUnreachable []) s).askAll

/-- RENUMBER to every downlink whose link is up; an EXCLUDED one takes part again (R333, R335). -/
def State.renumberBelow (s : State) : State :=
  s.downlinks.foldl (fun s p =>
    let s1 := s.onPort p fun k => { k with excluded := false }
    if (s1.port p).linkUp then
      ((if s1.portState p = ptExcluded then s1.setPortState p ptUp else s1).message p 0 [mRenumber])
    else if s1.portState p = ptExcluded then s1.beginTraining p
    else s1) s

/-- The device is DISCOVERING again. -/
def State.discover (s : State) : State := s.dropNumber.setFld .trzSystemStatus F.trzSystemStatus_STATE trzDiscovering

/-- A worker renumbers: it passes RENUMBER down, closes its windows and fails its requests (R335). -/
def State.renumberIn (s : State) (p : Fin 4) : State :=
  ((s.renumberBelow.discover.onPort p fun k => { k with helloOnly := false }).closeAllWindows).failRemotes

/-- RENUMBER. -/
def execRenumber (port : Fin 4) (p : Packet) (s : State) : Host.Outcome State Fault Refusal :=
  .next (s.packetIn port kMessage p fun s => if s.fromParent port then s.renumberIn port else s)

/-- REDISCOVER on the manager: RENUMBER down the tree, then R333 from its step 2 (R335; log 57). -/
def State.rediscoverNow (s : State) : State := s.renumberBelow.discover.managerNumbers

/-- TRZ_SYSTEM_CTRL: 1 REDISCOVER, on the manager only (R344). -/
def State.trzRequest (s : State) (op : Nat) : State := if op = 1 ∧ s.isManager then s.rediscoverNow else s

/-- REDISCOVER: the manager's endpoints may ask for it. -/
def execRediscover (who : Who) (s : State) : Host.Outcome State Fault Refusal :=
  .next (if who = .booth then s else s.trzRequest 1)

/-! ## Windows (R336, R337) -/

/-- The ring that a window belongs to (R336). -/
def State.windowOwner (s : State) (w : Fin 256) : Option (Fin 8) := (List.finRange 8).find? fun r => s.ownsWindow r w

/-- LENGTH in bytes. -/
def State.windowBytes (s : State) (w : Fin 256) : Nat := 512 * (s.reg (.trzWindowLength w)).toNat

/-- The fields of a window are in range (R337). -/
def State.windowFields (s : State) (w : Fin 256) : Bool :=
  let flag := s.fld (.trzWindowAttr w) F.trzWindowAttr_FLAG
  let lag := s.fld (.trzWindowAttr w) F.trzWindowAttr_LAG == 1
  decide (1 ≤ s.windowBytes w) && (flag == 0 || decide (192 ≤ flag)) &&
    (!lag || (s.isManager && !((s.lagWindow.map fun v => v != w).getD false)))

/-- The window lies in the ring's midway space, or in one of its regions that is not SPILL (R337). -/
def State.windowInside (s : State) (r : Fin 8) (w : Fin 256) : Bool :=
  let a := s.windowBase w
  if bufDram a then
    (regionsOf (s.ring r).manifest).any fun t => !bitAt t.2.2 2 && decide (unitBytes * t.1 ≤ bufAddr a) &&
      decide (bufAddr a + s.windowBytes w ≤ unitBytes * (t.1 + t.2.1))
  else decide (bufAddr a + s.windowBytes w ≤ s.mwySize r)

/-- The REFUSE_CAUSE of an OPEN, 0 where it is accepted (R337; log 58 for the order). -/
def State.windowCause (s : State) (r : Fin 8) (w : Fin 256) : Nat :=
  if !s.windowFields w then 1
  else if !s.windowInside r w then 2
  else if s.fld (.trzWindowStatus w) F.trzWindowStatus_STATE ≠ 0 ∨
      !([stLoaded, stRunning, stParked].contains (s.ringState r)) then 3
  else 0

/-- A window OPEN: its counters are 0; an open LAG window starts a measurement, and its record is written (R342, R345). -/
def State.openWindow (s : State) (w : Fin 256) : State :=
  let s1 := (s.setFld (.trzWindowStatus w) F.trzWindowStatus_STATE 1).setRegs [(.trzWindowCount w 0, 0), (.trzWindowCount w 1, 0)]
  if s1.fld (.trzWindowAttr w) F.trzWindowAttr_LAG = 1 then
    ({ s1 with trz := { s1.trz with workers := [], stepTimes := [] } } : State).writeLagRecord
  else s1

/-- OPEN. -/
def State.windowOpenNow (s : State) (r : Fin 8) (w : Fin 256) : State :=
  match s.windowCause r w with
  | 0 => s.openWindow w
  | cause => (s.setFld (.trzWindowStatus w) F.trzWindowStatus_REFUSE_CAUSE cause).setFld (.trzWindowStatus w)
      F.trzWindowStatus_REFUSED 1

/-- TRZ_WINDOW_CTRL: 1 OPEN, 2 CLOSE (R345). -/
def State.windowRequest (s : State) (r : Fin 8) (w : Fin 256) (op : Nat) : State :=
  match op with
  | 1 => s.windowOpenNow r w
  | 2 => s.beginCloseWindow w
  | _ => s

/-- A request through TRZ_WINDOW_CTRL (R56, R313, R336). -/
def State.windowControl (s : State) (who : Who) (w : Fin 256) (op : Nat) : State × Nat :=
  match s.windowOwner w with
  | some r => s.request r who (BitVec.ofNat 32 (Reg.trzWindowCtrl w).addr) (keyWord op) fun s => (s.windowRequest r w op, stOk)
  | none => (s, stAccessRing)

/-- WINDOW_OPEN. -/
def execWindowOpen (w : Fin 256) (who : Who) (s : State) : Host.Outcome State Fault Refusal :=
  .next (s.windowControl who w 1).1

/-- WINDOW_CLOSE. -/
def execWindowClose (w : Fin 256) (who : Who) (s : State) : Host.Outcome State Fault Refusal :=
  .next (s.windowControl who w 2).1

/-- WINDOW_CLOSE_DONE: the requests that had passed R338 have written or read their bytes. -/
def execWindowCloseDone (w : Fin 256) (s : State) : Host.Outcome State Fault Refusal :=
  .next (if s.fld (.trzWindowStatus w) F.trzWindowStatus_STATE = 2 then
    s.setFld (.trzWindowStatus w) F.trzWindowStatus_STATE 0 else s)

end Sys2Proof.Machine
end

