-- ==== Sys2Proof/Machine/Boot.lean ====
section
/-! DEFINITION. Start and boot: reset (R471 to R473), the ROM sequence (R350, R351), image slots (R353 to R356), the
safety net (R357), confirmation (R358, R359, R364), the booth's bring-up (R360 to R362), installing (R363). -/

namespace Sys2Proof.Machine

/-! ## Reset (R9, R471, R473) -/

/-- A draw of a free value. -/
def State.drawn (s : State) : State := { s with fresh := s.fresh + 1 }

/-- The flash operation in progress is cut off: its page or block is free to be uncorrectable or as it was, and a block of
which the erase was cut off is erased again before use (R381, R385, R473; log 16). -/
def State.cutFlash (s : State) : State :=
  let bad := Config.cutUnreadable s.fresh
  let mark (s : State) (l : List Nat) : State :=
    if bad then { s with flash := { s.flash with unreadable := (s.flash.unreadable ++ l).eraseDups } } else s
  match s.flash.running with
  | none => s
  | some (_, .program pg _ _) => mark { s.drawn with flash := { s.flash with running := none } } [pg]
  | some (_, .copy _ f) => mark { s.drawn with flash := { s.flash with running := none } } [pageNo f 0]
  | some (_, .erase b) =>
    mark { s.drawn with flash := { s.flash with running := none, partials := (s.flash.partials ++ [b]).eraseDups } }
      ((List.range 128).map (pageNo b))

/-- What the flash part itself keeps when the L9 restarts. -/
def keptFlash (f : Flash) : Flash :=
  { main := f.main, tags := f.tags, flips := f.flips, unreadable := f.unreadable, factoryBad := f.factoryBad, erases := f.erases
    partials := f.partials, io18Low := f.io18Low, resuming := f.resuming }

/-- The pins at an assertion of reset: levels that others drive stay, outputs go to their state in reset (R459, R473). -/
def keptPins (p : Pins) : Pins :=
  { p with
    safeState := false, dstby := false, lockAlert := false, dramReset := true, flashReset := true, refBad := 0, refGood := 0
    deferred := 0 }

/-- Every island reset: nothing is kept but the flash, the security store, the levels of the pins and the TAP; DRAM contents
are not kept (R9, R25, R147, R471). -/
def State.resetDevice (s : State) : State :=
  let s0 := s.cutFlash
  { State.reset with
    pending := s0.pending
    flash := keptFlash s0.flash
    sec := { store := s0.sec.store, aonLow := s0.sec.aonLow }
    pins := keptPins s0.pins
    boot := { owesEpoch := s0.boot.owesEpoch }
    fresh := s0.fresh }

/-- The registers that a restart without a reset keeps: DRAM's configuration, events and counters of boot, flash, power,
security (R9; log 60). -/
def keptRegs : List Reg :=
  [.ddrConfig, .ddrStatus, .ddrScrubCtrl, .ddrErrAddr 0, .ddrErrAddr 1, .ddrErrInfo, .bootEvent, .bootRomReads, .flsStatus,
    .flsCount 0, .flsCount 1, .flsCount 2, .flsCount 3, .flsCount 4, .pwrLockstepCount, .pwrEvent, .secEvent, .secKeyRefused,
    .errDevFaultStatus]

/-- RESTART, and the restarts of R362: the security processor starts again with every other island held in reset; DRAM and
the registers of `keptRegs` are kept, and so are stopped clocks (R350, R362, R389, R404; log 60). -/
def State.restartDevice (s : State) : State :=
  let s0 := s.resetDevice
  { ((s0.setRegs (keptRegs.map fun r => (r, s.reg r))).setFld .pwrStatus F.pwrStatus_CRITICAL
      (s.fld .pwrStatus F.pwrStatus_CRITICAL)) with
    dram := s.dram, power := { tripped := s.power.tripped }, devFaults := s.devFaults, faultSeq := s.faultSeq
    pins := { s0.pins with dramReset := s.pins.dramReset, safeState := s.pins.safeState } }

/-! ## Image slots (R353, R354) -/

/-- The three containers of a slot: where each begins, header and signature blocks. -/
def State.slotSet (s : State) (k : Fin 2) : Option (List (Nat × List Byte)) := setContainers fun o n => s.imagePart k o n

/-- INVALID_CAUSE of a slot; 0 where the slot is valid (R353). A container that cannot be read fails step 1 of R349. -/
def State.slotCause (s : State) (k : Fin 2) : Nat :=
  match s.headerOf k with
  | none => 8
  | some e =>
    if e.2.state ≤ 1 then 1
    else if e.2.state = 4 then 2
    else match s.slotSet k with
      | none => 3
      | some l => setCause s.storeRec e.2.version.toNat l

/-- A slot is valid (R353). -/
def State.slotValid (s : State) (k : Fin 2) : Bool := s.slotCause k == 0

/-- The header of a slot; an empty one where none is readable. -/
def State.header (s : State) (k : Fin 2) : SlotHeader := ((s.headerOf k).map fun e => e.2).getD ⟨0, 0, 0, 0, 0, 0, 0⟩

/-- The registers that show a slot (R368). -/
def State.showSlot (s : State) (k : Fin 2) : State :=
  let h := s.header k
  let cause := s.slotCause k
  ((s.setReg (.bootSlotState k) (BitVec.ofNat 32
      (h.state * 2 ^ 29 + bitNat (cause == 0) * 2 ^ 28 + cause * 2 ^ 24 + h.trials * 2 ^ 22 + h.cause * 2 ^ 18))).setReg
    (.bootSlotVersion k) h.version).setReg (.bootSlotSeq k) h.installSeq

/-- The registers that show both slots. -/
def State.showSlots (s : State) : State := (s.showSlot 0).showSlot 1

/-- Rules 2 to 5 of R354 between two valid slots: the slot, and whether rule 5 chose. -/
def preferSlot (a b : SlotHeader) : Fin 2 × Bool :=
  if a.version ≠ b.version then (if b.version.toNat < a.version.toNat then (0, false) else (1, false))
  else if a.state ≠ b.state then (if a.state = 3 then (0, false) else (1, false))
  else if a.installSeq ≠ b.installSeq then (if b.installSeq.toNat < a.installSeq.toNat then (0, false) else (1, false))
  else (0, true)

/-- The slot that the ROM chooses, and whether rule 5 chose it (R354). -/
def State.chooseSlot (s : State) : Option (Fin 2 × Bool) :=
  match s.slotValid 0, s.slotValid 1 with
  | true, true => some (preferSlot (s.header 0) (s.header 1))
  | true, false => some (0, false)
  | false, true => some (1, false)
  | false, false => none

/-- A slot header on its way into the flash, by the security processor or the booth (R379, R385, R386). -/
def State.writeHeader (s : State) (k : Fin 2) (h : SlotHeader) (next : HeaderNext) : State := s.enqueueFlash (.header k h next)

/-- The header that marks a slot FAILED with a cause (R353). -/
def State.failedHeader (s : State) (k : Fin 2) (cause : Nat) : SlotHeader := { s.header k with state := 4, cause := cause }

/-! ## The ROM sequence (R350, R351, R356, R424) -/

/-- The recovery listener starts on E2, whose PHY takes the role SLAVE, with the CAUSE of its announcement (R350 step 9, R365,
R366). -/
def State.enterListener (s : State) (cause : Nat) : State :=
  let s1 := s.setFld (.ethPortStatus 2) F.ethPortStatus_ROLE 0
  { s1 with boot := { s1.boot with phase := .listener, recCause := cause, session := none } }

/-- The net armed with a time in seconds (R357, R368). -/
def State.armNet (s : State) (seconds : Nat) : State :=
  { (s.setFld .bootNet F.bootNet_ARMED 1) with boot := { s.boot with netLeft := seconds * 100000000, netStopped := false } }

/-- Hand-over: the ROM locks itself and SEC_STAGE starts (R350 step 8, R351). -/
def State.handOver (s : State) : State :=
  { (s.setFld .bootStatus F.bootStatus_STAGE 1) with boot := { s.boot with phase := .handedOver, romLocked := true } }

/-- Bytes of a slot's container. -/
def State.slotContainer (s : State) (k : Fin 2) (p : Nat × List Byte) : List Byte := (s.imagePart k p.1 (ctLength p.2)).getD []

/-- SEC_STAGE and BOOTH of a slot match their digests (R350 step 6). -/
def State.slotDigests (s : State) (k : Fin 2) (l : List (Nat × List Byte)) : Bool :=
  (l.take 2).all fun p => ctDigests (s.slotContainer k p)

/-- The integrator keys that verified a container (R435). -/
def integratorKeys (kind revoked : Nat) (c : List Byte) : List (List Byte) :=
  ((ctPassing kind false c).filter (rootLive revoked)).filterMap integratorKey

/-- Steps 7 and 8 of R350, for the slot's header: the measurements, the net of a trial, the booth's image, hand-over. -/
def State.startSlot (s : State) (k : Fin 2) (tie : Bool) (h : SlotHeader) (l : List (Nat × List Byte)) : State :=
  let a := l.getD 0 (0, [])
  let b := l.getD 1 (0, [])
  let d := l.getD 2 (0, [])
  let s1 := if h.state = 2 then s.armNet (trialSeconds a.2) else s
  let s2 := (((s1.setFld .bootStatus F.bootStatus_SLOT k.val).setFld .bootStatus F.bootStatus_TRIAL (bitNat (h.state == 2))).setFld
    .bootStatus F.bootStatus_TIE (bitNat tie)).setReg .bootVersion h.version
  let s3 := if tie then s2.logSecurity 0 1 0 0 else s2
  let s4 := { s3 with
    boot := { s3.boot with
      mSec := shaBytes (a.2.take 512), mBoothSlot := shaBytes (b.2.take 512), mBoothRun := shaBytes (b.2.take 512)
      mDeploy := shaBytes (d.2.take 512), confirmRings := d.2.getD 0x16 0
      deployKeys := integratorKeys 3 s3.storeRec.revoked d.2 }
    power := { s3.power with active := s3.slotContainer k b } }
  s4.handOver

/-- The pages in which containers of a slot lie. -/
def State.containerPages (s : State) (k : Fin 2) (l : List (Nat × List Byte)) : List Nat :=
  l.flatMap fun p => s.imagePages k p.1 (ctLength p.2)

/-- The ROM waits until it has written a slot header (R350, R356, R385). -/
def State.romWrite (s : State) (k : Fin 2) (h : SlotHeader) (next : HeaderNext) : State :=
  ({ s with boot := { s.boot with phase := .romHeld } } : State).writeHeader k h next

/-- Steps 6 to 8 of R350: the sections of SEC_STAGE and BOOTH are read; a mismatch marks the slot FAILED. -/
def State.romVerify (s : State) (k : Fin 2) (tie : Bool) : State :=
  let l := (s.slotSet k).getD []
  let s1 := s.readPages (slotArea k) (s.containerPages k (l.take 2))
  if s.slotDigests k l then s1.startSlot k tie (s.header k) l else s1.romWrite k (s.failedHeader k 1) (.fallen k 1)

/-- Steps 4 to 8 of R350: a slot is chosen; the start of a PENDING one is first counted in TRIALS, and the fourth marks it
FAILED (R354, R356). -/
def State.romChoose (s : State) : State :=
  match s.chooseSlot with
  | none => s.enterListener 1
  | some (k, tie) =>
    let h := s.header k
    if h.state = 2 then
      if h.trials = 3 then s.romWrite k (s.failedHeader k 4) (.fallen k 4)
      else s.romWrite k { h with trials := h.trials + 1 } (.trial k tie)
    else s.romVerify k tie

/-- The pages that the ROM reads in steps 2 and 3 of R350, with their AREA: the anchor candidates, the device record, the maps
and headers of the slots, and the headers of their containers. -/
def State.romReads (s : State) : List (Nat × List Nat) :=
  let slot (k : Fin 2) : List Nat :=
    s.mapPages (slotArea k) ++ s.programmedPages (s.headerBlocks k) ++
      ((s.slotSet k).getD []).flatMap fun p => s.imagePages k p.1 3712
  [(1, s.anchorBlocks.map fun b => pageNo b 0),
    (arRecord, s.mapPages arRecord ++ s.recordBlocks.flatMap fun b => [pageNo b 1, pageNo b 2]),
    (3, slot 0), (4, slot 1)]

/-- Those reads made (R373). -/
def State.romRead (s : State) : State := s.romReads.foldl (fun t p => t.readPages p.1 p.2) s

/-- Steps 2 and 3 of R350: the governing anchor is in hand, the device record and the slots are read. -/
def State.romPrepare (s : State) (m : List Byte) : State :=
  let s0 := { s with flash := { s.flash with anchor := m } }
  let s1 := { s0 with flash := { s0.flash with badBlocks := (s0.tableRecord.map Prod.snd).getD [] } }
  let s2 := { s1 with sec := { s1.sec with record := s1.recordInForce } }
  (((s2.setFld .flsGeometry F.flsGeometry_DEVICES (leAt m 6 1)).setFld .flsGeometry F.flsGeometry_PAGES_LOG
    (leAt m 7 1)).setFld .flsStatus F.flsStatus_ANCHORS (min 4 s1.anchorCopies.length)).setFld .secStatus
    F.secStatus_RECORD_VALID (bitNat s2.recordValid) |>.showSlots

/-- Steps 2 to 8 of R350: the anchors, the device record, the slots. -/
def State.romFlash (s : State) : State :=
  match s.anchorRecord with
  | none => s.romRead.enterListener 2
  | some m => (s.romPrepare m).romRead.romChoose

/-- DEBUG_EPOCH raised where the start owes it; while VDD_AON is low the write is held and the ROM waits (R423, R424). -/
def State.payEpoch (s : State) : State :=
  let r := s.storeRec
  { (s.storeWrite { r with debugEpoch := r.debugEpoch + 1 }) with boot := { s.boot with owesEpoch := false } }

/-- What the ROM shows of the security store, once DEBUG_EPOCH is raised where the start owes it (R424, R440). -/
def State.romStore (s : State) : State :=
  ((if s.boot.owesEpoch then s.payEpoch else s).showStore).setFld .secStatus F.secStatus_KEY_CLASS
    (bitNat (s.lifecycle == lcReturned))

/-- Step 4 of R472, once the store has been read: FLASH_RESET_N is released and the other islands' clocks start. The security
processor finds the part in 1S-1S-1S, reads its JESD216 table, switches it to octal DDR and its on-die ECC off (R369); the
flash's writes are open or inhibited (R385). -/
def State.released (s : State) : State :=
  ({ s with
    pins := { s.pins with flashReset := false }
    flash := { s.flash with jesd216 := true, octal := true, onDieEcc := false } } : State).showInhibit

/-- The ROM sequence from step 1 (R350, R424, R425, R472). -/
def State.romBoot (s : State) : State :=
  let lc := s.lifecycle
  if lc = lcScrapped then
    let s1 := s.showStore
    { s1 with boot := { s1.boot with phase := .stopped } }
  else if s.boot.owesEpoch ∧ s.sec.aonLow then
    let s1 := s.setFld .secEvent F.secEvent_STORE_HELD 1
    { s1 with boot := { s1.boot with phase := .romHeld } }
  else
    let s2 := s.romStore.released
    if lc = lcBlank then (s2.setFld .secStatus F.secStatus_FULL 1).enterListener 3 else s2.romFlash

/-- The boundary-scan instructions that hold a start (R476): EXTEST, HIGHZ, CLAMP, EXTEST_PULSE, EXTEST_TRAIN. -/
def tapHolds (ir : Byte) : Bool := ([0x00, 0x03, 0x04, 0x05, 0x06] : List Byte).contains ir

/-- Step 1 of R472: nothing defers the start, and the security processor's counter starts from zero. -/
def State.started (s : State) : State :=
  { s with pins := { s.pins with deferred := 0 }, cycles := s.cycles.set 42 0 }

/-- The device starts once nothing holds it in reset and the TAP does not defer it (R472, R476). -/
def State.startUp (s : State) : State :=
  if s.heldReset then s
  else if tapHolds s.pins.tapIr then { s with pins := { s.pins with deferred := 1 } }
  else s.started.romBoot

/-- PORESET_N's effect at assertion: every island is reset, and the next start raises DEBUG_EPOCH (R424, R471). -/
def State.coldReset (s : State) : State :=
  let s1 := s.resetDevice
  { s1 with boot := { s1.boot with owesEpoch := true } }

/-- PORESET_ASSERT (R471). -/
def execPoresetAssert (s : State) : Host.Outcome State Fault Refusal :=
  .next ({ s with pins := { s.pins with poreset := true } } : State).coldReset

/-- PORESET_DEASSERT (R472): of a pin that is asserted. -/
def execPoresetDeassert (s : State) : Host.Outcome State Fault Refusal :=
  .next (if s.pins.poreset then ({ s with pins := { s.pins with poreset := false } } : State).startUp else s)

/-- SYSRESET_ASSERT (R471). -/
def execSysresetAssert (s : State) : Host.Outcome State Fault Refusal :=
  .next ({ s with pins := { s.pins with sysreset := true } } : State).resetDevice

/-- SYSRESET_DEASSERT (R471). -/
def execSysresetDeassert (s : State) : Host.Outcome State Fault Refusal :=
  .next (if s.pins.sysreset then ({ s with pins := { s.pins with sysreset := false } } : State).startUp else s)

/-! ## The locked ROM (R351) -/

/-- A read of the locked ROM: it is answered with zero, counted, shown and logged. -/
def State.lockedRead (s : State) (requester : DWord) : State :=
  (({ s with boot := { s.boot with romReply := some (requester, 0) } } : State).bump .bootRomReads F.bootRomReads_COUNT 1
    |>.setFld .bootEvent F.bootEvent_ROM_READ 1).logSecurity 1 2 requester.toNat 0

/-- ROM_READ. Before the lock only the ROM itself runs. -/
def execRomRead (requester : DWord) (s : State) : Host.Outcome State Fault Refusal :=
  .next (if s.boot.romLocked then s.lockedRead requester else s)

/-! ## What follows a write of the log or of a header -/

/-- What follows once a record is appended. -/
def State.afterAppend (s : State) : AppendNext → State
  | .plain => s
  | .record => s.recordDone 0
  | .reset => s.resetDevice.startUp
  | .restart => s.restartDevice.startUp

/-- An entry of the security processor, in a page of its own, before a reset or a restart; a flash without a log area takes
none. -/
def State.logThen (s : State) (source code arg0 arg1 : Nat) (next : AppendNext) : State :=
  if (s.goodBlocks arLog).isEmpty then s.afterAppend next
  else
    let e := logEntry s.flash.logSeq source code arg0 arg1
    (({ s with flash := { s.flash with logSeq := s.flash.logSeq + 1 } } : State).pushPages arLog e false next).flashIssue

/-! ## The safety net (R357) -/

/-- The running slot (R368). -/
def State.runningSlot (s : State) : Fin 2 := ⟨s.fld .bootStatus F.bootStatus_SLOT % 2, by omega⟩

/-- A recovery image is running. -/
def State.inRecovery (s : State) : Bool := s.fld .bootStatus F.bootStatus_RECOVERY == 1

/-- The expiry: the slot is written FAILED with cause NET_EXPIRED, before any other write, and then the device is reset as
SYSRESET_N does; while writes are inhibited or a recovery image runs it is reset without the write (R357, R367, R386). -/
def State.netExpired (s : State) : State :=
  if s.inRecovery ∨ s.inhibited then s.resetDevice.startUp
  else
    let s1 := s.setFld .bootNet F.bootNet_ARMED 0
    let k := s1.runningSlot
    ({ s1 with
      boot := { s1.boot with netLeft := 0 }
      flash := { s1.flash with queue := .header k (s1.failedHeader k 3) .expired :: s1.flash.queue } } : State).flashIssue

/-- SAFETY_NET_EXPIRY: the count of a net that counts reaches zero (log 139). -/
def execSafetyNetExpiry (s : State) : Host.Outcome State Fault Refusal := .next (if s.netCounts then s.netExpired else s)

/-! ## Confirmation (R358, R359, R364) -/

/-- The mask of roots after a REVOKE_REQ, where the request is granted: a root stays live, and a block of the requesting
SEC_STAGE still passes (R364). -/
def revokeGranted (st : StoreRec) (c : List Byte) : Bool :=
  let after := st.revoked ||| leAt c 0xB 1
  after != 15 && (ctPassing 1 false c).any (rootLive after)

/-- Steps 2 and 3 of R358: the epochs and the revocations of the running slot. -/
def State.confirmStore (s : State) : State :=
  let st := s.storeRec
  let l := (s.slotSet s.runningSlot).getD []
  let c := (l.getD 0 (0, [])).2
  let epochs := (List.range 4).map fun i => max (st.epochs.getD i 0) (leAt (l.getD i (0, [])).2 0x12 2)
  let asked := leAt c 0xB 1
  let granted := asked != 0 && revokeGranted st c
  let s1 := s.storeWrite { st with epochs := epochs, revoked := if granted then st.revoked ||| asked else st.revoked }
  let s2 := if asked ≠ 0 ∧ !granted then
      (s1.setFld .bootEvent F.bootEvent_REVOKE_REFUSED 1).logSecurity 1 3 0 0
    else s1
  s2.showStore

/-- The end of a confirmation: CONFIRMING clears, CONFIRMED is set, the slot is no trial any more (R358 step 4). -/
def State.confirmDone (s : State) : State :=
  let s1 := (((s.setFld .bootStatus F.bootStatus_CONFIRMING 0).setFld .bootStatus F.bootStatus_TRIAL 0).setFld .bootEvent
    F.bootEvent_CONFIRMED 1).setFld .bootNet F.bootNet_ARMED 0
  { s1 with boot := { s1.boot with confirmStep := 0, netLeft := 0 } }

/-- The end of an install: its slot is PENDING (R363 step 5). -/
def State.installDone (s : State) : State :=
  let s1 := ((s.setFld .bootInstallStatus F.bootInstallStatus_STATE 3).setFld .bootInstallStatus F.bootInstallStatus_CAUSE
    0).setFld .bootEvent F.bootEvent_INSTALLED 1
  { s1 with boot := { s1.boot with install := none } }

/-- What follows once a slot header is written. -/
def State.afterHeader (s : State) : HeaderNext → State
  | .plain => s
  | .confirmed => s.confirmDone
  | .installed => s.installDone
  | .expired => s.logThen 1 4 s.runningSlot.val 3 .reset
  | .restart k cause => (s.setFld .bootEvent F.bootEvent_FELL_BACK 1).logThen logBooth 4 k.val cause .restart
  | .trial k tie => s.romVerify k tie
  | .fallen k cause => ((s.logSecurity 0 4 k.val cause).setFld .bootEvent F.bootEvent_FELL_BACK 1).romChoose

/-- Step 4 of R358. -/
def State.confirmHeader (s : State) : State :=
  let s1 := { s with boot := { s.boot with confirmStep := 2 } }
  s1.writeHeader s.runningSlot { s.header s.runningSlot with state := 3 } .confirmed

/-- The confirmation from step 2 on: it waits while VDD_AON is low (R358, R423). -/
def State.confirmFrom (s : State) : State :=
  if s.sec.aonLow then
    let s1 := s.setFld .secEvent F.secEvent_STORE_HELD 1
    { s1 with boot := { s1.boot with confirmStep := 1 } }
  else s.confirmStore.confirmHeader

/-- The net stops and CONFIRMING is set (R358 step 1). -/
def State.confirmStart (s : State) : State :=
  let s1 := (s.setFld .bootStatus F.bootStatus_CONFIRMING 1).setFld .bootNet F.bootNet_ARMED 0
  { s1 with boot := { s1.boot with netStopped := true } }

/-- The count of the running trial has reached zero: the expiry governs (R359). -/
def State.netOver (s : State) : Bool :=
  s.fld .bootStatus F.bootStatus_TRIAL == 1 && !s.boot.netStopped && s.boot.netLeft == 0

/-- CONFIRM in the cases of R359, with its status. -/
def State.confirmRequest (s : State) : State × Nat :=
  if s.inRecovery then (s, stRingState)
  else if s.fld .bootStatus F.bootStatus_CONFIRMING = 1 then (s, stBusy)
  else if (s.header s.runningSlot).state = 3 then (s, stOk)
  else if s.netOver then (if s.netCounts then s.netExpired else s, stOk)
  else (s.confirmStart.confirmFrom, stOk)

/-! ## Installing (R363) -/

/-- BOOT_INSTALL_STATUS with a refusal. -/
def State.refuseInstall (s : State) (cause : Nat) : State :=
  let s1 := if s.boot.install.isSome then s else s.setFld .bootInstallStatus F.bootInstallStatus_STATE 3
  (s1.setFld .bootInstallStatus F.bootInstallStatus_CAUSE cause).setFld .bootEvent F.bootEvent_INSTALL_REFUSED 1

/-- The slot that an install writes: the one that is not running; under a recovery image that which R354 would not choose
(R363; log 61). -/
def State.installSlot (s : State) : Fin 2 :=
  if s.inRecovery then (match s.chooseSlot with | some (0, _) => 1 | _ => 0) else 1 - s.runningSlot

/-- The install begins: the target is INSTALLING, its pages wait for the flash (R363 steps 4 and 5). -/
def State.beginInstall (s : State) (total version : Nat) (bytes : List Byte) : State :=
  let k := s.installSlot
  let seq := max (s.header 0).installSeq.toNat (s.header 1).installSeq.toNat + 1
  let s1 := (s.setFld .bootInstallStatus F.bootInstallStatus_STATE 2).setFld .bootInstallStatus F.bootInstallStatus_CAUSE 0
  let s2 := { s1 with boot := { s1.boot with
    install := some ⟨k, total, BitVec.ofNat 32 version, BitVec.ofNat 32 seq⟩ } }
  let s3 := s2.pushJob (.header k { s.header k with
    state := 1, trials := 0, cause := 0, version := BitVec.ofNat 32 version, length := BitVec.ofNat 32 total } .plain)
  ((chunksOf 4096 (total / 4096 + 1) bytes).zipIdx.foldl (fun (t : State) p => t.pushJob (.install p.2 p.1)) s3).flashIssue

/-- The set's cause and length, as R349 and R353 find them; SIZE beyond the slot's capacity. -/
def State.installCause (s : State) (bytes : List Byte) : Nat × Nat × Nat :=
  match setContainers fun o n => some (part bytes o n) with
  | none => (3, 0, 0)
  | some l =>
    let version := leAt (l.getD 0 (0, [])).2 0xC 4
    let d := l.getD 2 (0, [])
    let total := d.1 + ctLength d.2
    let cause := setCause s.storeRec version l
    if cause ≠ 0 then (cause, total, version)
    else if s.slotCapacity s.installSlot < total then (9, total, version)
    else if bytes.length < total then (3, total, version)
    else (0, total, version)

/-- INSTALL in effect, in the order of the table of R363. -/
def State.installRequest (s : State) (who : Who) : State :=
  if s.boot.install.isSome then s.refuseInstall 12
  else if s.fld .bootStatus F.bootStatus_TRIAL = 1 then s.refuseInstall 10
  else match s.staged who (s.reg64 (.bootInstallSrc 0) (.bootInstallSrc 1)).toNat (s.reg .bootInstallLen).toNat with
    | (s1, none) => s1.refuseInstall 13
    | (s1, some bytes) =>
      match s1.installCause bytes with
      | (0, total, version) => s1.beginInstall total version (bytes.take total)
      | (cause, _, _) => s1.refuseInstall cause

/-- The install ends with cause FLASH: none of its pages, nor the header that ends it, is written any more, and its slot stays
INSTALLING (R363). -/
def State.failInstall (s : State) : State :=
  let s1 := { s with
    boot := { s.boot with install := none }
    flash := { s.flash with queue := s.flash.queue.filter fun j => match j with
      | .install _ _ => false
      | .header _ _ .installed => false
      | _ => true } }
  s1.refuseInstall 11

/-- A page or the header of the install still waits. -/
def State.installWaits (s : State) (k : Fin 2) : Bool :=
  s.flash.queue.any fun j => match j with
    | .install _ _ => true
    | .header g _ _ => g == k
    | _ => false

/-- Every section of the set in a slot reads back with its digest (R363 step 4). -/
def State.readsBack (s : State) (k : Fin 2) : Bool :=
  match s.slotSet k with
  | some l => l.all fun p => ctDigests (s.slotContainer k p)
  | none => false

/-- INSTALL_COMPLETE: the set is written; read back, the slot is written PENDING, or the install fails. -/
def execInstallComplete (readBackOk : Bool) (s : State) : Host.Outcome State Fault Refusal :=
  .next (match s.boot.install with
    | none => s
    | some i =>
      if s.installWaits i.slot then s
      else
        let s1 := s.readPages (slotArea i.slot) (s.containerPages i.slot ((s.slotSet i.slot).getD []))
        if readBackOk && s.readsBack i.slot then
          s1.writeHeader i.slot ⟨2, 0, 0, i.version, i.seq, 0, BitVec.ofNat 32 i.length⟩ .installed
        else s1.failInstall)

/-! ## BOOT_CONTROL (R359, R368) -/

/-- BOOT_CONTROL by an endpoint of R359: CONFIRM, RESTART, INSTALL; other values ignored. -/
def State.bootControl (s : State) (who : Who) (op : Nat) : State × Nat :=
  if !s.mayManage who then (s, stAccessRing)
  else match op with
    | 1 => s.confirmRequest
    | 2 => (s.restartDevice.startUp, stOk)
    | 3 => (s.installRequest who, stOk)
    | _ => (s, stOk)

/-- CONFIRM. -/
def execConfirm (who : Who) (s : State) : Host.Outcome State Fault Refusal := .next (s.bootControl who 1).1

/-- RESTART. -/
def execRestart (who : Who) (s : State) : Host.Outcome State Fault Refusal := .next (s.bootControl who 2).1

/-- INSTALL. -/
def execInstall (who : Who) (s : State) : Host.Outcome State Fault Refusal := .next (s.bootControl who 3).1

end Sys2Proof.Machine
end

