-- ==== Sys2Proof/Machine/BringUp.lean ====
section
/-! DEFINITION. The booth's bring-up (R76, R77, R147, R166, R191, R192, R256, R297, R326, R360 to R362) and the recovery
listener (R365 to R367). -/

namespace Sys2Proof.Machine

/-! ## Self-tests (R76, R77, R147, R166) -/

/-- The bad columns of a core in the signed device record, and whether it retires the core (R420). -/
def recordColumns (m : List Byte) (c : Nat) : List Nat × Bool :=
  let e := leAt m (0x14 + 4 * c) 4
  (([0, 1].filterMap fun i => if bitAt e (8 * i + 7) then some (bitsAt e (8 * i) (8 * i + 4)) else none), bitAt e 16)

/-- The columns that earlier self-tests have added to a core's map, in the journal (R76; log 59). -/
def State.addedColumns (s : State) (c : Nat) : List Nat :=
  match s.configRecord 6 with
  | some b => (List.range 32).filter fun i => bitAt (leAt b (4 * c) 4) i
  | none => []

/-- The body of the record of added columns (log 59). -/
def columnBytes (added : Nat → List Nat) : List Byte :=
  (List.range 16).flatMap fun c => leBytes 4 ((added c).foldl (fun n i => n + 2 ^ i) 0)

/-- CORE_COLWIDTH of a core, from the signed columns, all its bad columns in order, and whether a fault retires it
(R76, R77, R80; log 62). -/
def colWidthWord (signed map : List Nat) (retire : Bool) : Word :=
  let cause := if 2 < map.length then 1 else if retire then 2 else 0
  let b0 := map[0]?
  let b1 := map[1]?
  let new (b : Option Nat) : Nat := match b with
    | some i => bitNat (!signed.contains i)
    | none => 0
  BitVec.ofNat 32 ((if cause = 0 then 32 - map.length else 0) * 2 ^ 26 + bitNat (cause != 0) * 2 ^ 25 + cause * 2 ^ 23 +
    new b1 * 2 ^ 22 + new b0 * 2 ^ 21 + bitNat b1.isSome * 2 ^ 20 + b1.getD 0 * 2 ^ 15 + bitNat b0.isSome * 2 ^ 14 +
    b0.getD 0 * 2 ^ 9)

/-- The array self-test of a core: its map is the union of the signed columns, those added before, and those found now. -/
def State.testCore (s : State) (found : List Nat) (confined : Bool) (c : Fin 16) : State :=
  let signed := recordColumns s.sec.record c.val
  let map := (List.range 32).filter fun i => signed.1.contains i || (s.addedColumns c.val).contains i || found.contains i
  (s.setReg (.coreColwidth c) (colWidthWord signed.1 map (signed.2 || !confined))).setFld (.coreMemStatus c)
    F.coreMemStatus_INIT_DONE 1

/-- The record of added columns kept, where the self-test has found more (R76). -/
def State.keepColumns (s : State) (found : Vector (List Nat) 16) : State :=
  let added (c : Nat) : List Nat := (List.range 32).filter fun i =>
    (s.addedColumns c).contains i || ((found.toList.getD c []).contains i && !(recordColumns s.sec.record c).1.contains i)
  if (List.range 16).all fun c => added c == s.addedColumns c then s else s.appendEntry arJournal 6 (columnBytes added)

/-- A unit that the self-test retires is logged (R449): 0 a core, 1 a slice. -/
def State.logRetired (s : State) (kind inst : Nat) (retired : Bool) : State :=
  if retired then s.log logBooth 0x85 kind inst else s

/-- Zero with valid check symbols in every word of every core memory and every midway slice (R147). -/
def State.zeroMemories (s : State) : State :=
  { s with
    cores := s.cores.map fun k => { k with mem := [], memBad := [], memFlips := [], gather := [] }
    mwy := [], mwyBad := [], mwyFlips := [] }

/-- The self-tests of the cores and the slices, and the initialisation of the memories (R76, R77, R147, R166). -/
def State.selfTest (s : State) (found : Vector (List Nat) 16) (confined : BitVec 16) (slicesBad : BitVec 8) : State :=
  let s1 := (List.finRange 16).foldl (fun s c =>
    let s1 := s.testCore found[c] (confined.getLsbD c.val) c
    s1.logRetired 0 c.val (s1.fld (.coreColwidth c) F.coreColwidth_RETIRED == 1)) s.zeroMemories
  let s2 := (List.finRange 8).foldl (fun s m =>
    ((s.setFld (.mwySliceStatus m) F.mwySliceStatus_RETIRED (bitNat (slicesBad.getLsbD m.val))).setFld (.mwySliceStatus m)
      F.mwySliceStatus_INIT_DONE 1).logRetired 1 m.val (slicesBad.getLsbD m.val)) s1
  s2.keepColumns found

/-! ## DRAM (R176, R191, R192, R195) -/

/-- The legal channel sets of R176, the larger first, then the lower channel numbers. -/
def channelSets : List Nat := [15, 3, 12, 1, 2, 4, 8]

/-- Line data of a subchannel in 16 MiB units, by DENSITY, WIDTH and RANKS in the codes of R195 (R175, R176). -/
def subUnits (density width ranks : Nat) : Nat := ([8, 4, 2].getD width 0) * ([16, 24, 32].getD density 0) * (ranks + 1) * 8

/-- The organisation of a memory record is one of R176. -/
def memoryOk (grade channels density width ranks : Nat) : Bool :=
  within 1 5 grade && channelSets.contains channels && decide (density ≤ 2) && decide (width ≤ 2) && decide (ranks ≤ 1) &&
    within 128 1024 (subUnits density width ranks)

/-- The lowest grade to which retraining goes: DDR5-4800, or the target itself where that is lower, which the spec does not
speak of (R192; log 126). -/
def gradeFloor (target : Nat) : Nat := min 3 target

/-- The grade and the channels in use after training (R192). -/
def trainedAs (target channels : Nat) (t : DramTraining) : Nat × Nat :=
  if t.failed = 0 then (max (min t.grade target) (gradeFloor target), channels)
  else (gradeFloor target, (channelSets.find? fun c => (c &&& channels) == c && (c &&& t.failed.toNat) == 0).getD 0)

/-- DRAM is not used, because of the record or of the channels of a mask that fail (R192). -/
def State.dramFailed (s : State) (failed : Nat) : State :=
  (s.setFld .ddrStatus F.ddrStatus_FAILED 1).setFld .ddrStatus F.ddrStatus_FAILED_CH failed

/-- The training results that the flash holds are those of this device and of its memory record (R191 step 4). -/
def State.resultsStored (s : State) : Bool :=
  s.configRecord 5 == (s.configRecord 1).map (Config.trainingResults s.serial)

/-- DRAM is up (R191 step 6, R195). -/
def State.dramReady (s : State) (grade target channels all density width ranks : Nat) (t : DramTraining) : State :=
  let capacity := 2 * ((List.range 4).filter fun i => bitAt channels i).length * subUnits density width ranks
  let s1 := s.setReg .ddrConfig (BitVec.ofNat 32 (grade * 2 ^ 29 + channels * 2 ^ 25 + density * 2 ^ 23 + width * 2 ^ 21 +
    ranks * 2 ^ 20 + capacity * 2 ^ 6))
  let s2 := (((s1.setFld .ddrStatus F.ddrStatus_READY 1).setFld .ddrStatus F.ddrStatus_DOWNGRADED
    (bitNat (decide (grade < target) || channels != all))).setFld .ddrStatus F.ddrStatus_TRAINING_REUSED
    (bitNat (t.reused && s.resultsStored))).setFld .ddrStatus F.ddrStatus_FAILED_CH t.failed.toNat
  if t.reused && s.resultsStored then s2
  else s2.appendEntry arJournal 5 (Config.trainingResults s.serial ((s.configRecord 1).getD []))

/-- DRAM brought up; false where none is used (R191, R192). -/
def State.dramUp (s : State) (t : DramTraining) : State × Bool :=
  let s0 := { s with pins := { s.pins with dramReset := false } }
  match (s0.configRecord 1).bind Config.memoryRecord with
  | none => (s0.dramFailed 0, false)
  | some (target, all, density, width, ranks) =>
    let r := trainedAs target all t
    if !memoryOk target all density width ranks then (s0.dramFailed 0, false)
    else if r.2 = 0 then (s0.dramFailed t.failed.toNat, false)
    else (s0.dramReady r.1 target r.2 all density width ranks t, true)

/-! ## The records of front end, ports and trapeze (R256, R297, R326) -/

/-- A receiver is described within R255: D-PHY with 1, 2 or 4 data lanes at 80 Mb/s to 4.5 Gb/s and a polarity for each,
or C-PHY with 1, 2 or 3 trios at 80 Msym/s to 3.5 Gsym/s; its lanes in any permutation. -/
def rxOk (r : RxRecord) : Bool :=
  (if r.mode = 1 then [1, 2, 4].contains r.lanes && within 8 450 r.rate && r.polarity.length == r.lanes
    else r.mode == 2 && within 1 3 r.lanes && within 8 350 r.rate && r.polarity.isEmpty) &&
    r.order.isPerm (List.range r.lanes)

/-- A receiver on as its record has it; LANES 3 stands for four lanes in D-PHY (R280). -/
def State.rxApply (s : State) (x : Fin 16) (r : RxRecord) : State :=
  let s1 := ((s.setFld (.feRxStatus x) F.feRxStatus_MODE r.mode).setFld (.feRxStatus x) F.feRxStatus_LANES (min r.lanes 3)).setFld
    (.feRxStatus x) F.feRxStatus_RATE r.rate
  { s1 with boot := { s1.boot with
    rxOrder := s1.boot.rxOrder.set x r.order
    rxPolarity := s1.boot.rxPolarity.set x r.polarity } }

/-- The receivers as the front-end record has them; one that it omits or describes outside R255 stays off (R256, R280). -/
def State.applyFrontEnd (s : State) : State :=
  match s.configRecord 2 with
  | none => s
  | some b => (List.finRange 16).foldl (fun s x => match Config.frontEndRecord b x.val with
      | some r => if rxOk r then s.rxApply x r else s
      | none => s) s

/-- The ports as the port record has them (R297, R323, R324). -/
def State.applyPorts (s : State) : State :=
  match s.configRecord 3 with
  | none => s
  | some b =>
    let type := Config.portEtherType b
    let s1 := s.setFld .trsEthertype F.trsEthertype_TYPE (if type = 0 then 0x88B5 else type.toNat)
    (List.finRange 4).foldl (fun s p =>
      let r := Config.portRecord b p.val
      let s2 := (s.setFld (.ethPortStatus p) F.ethPortStatus_ENABLED (bitNat r.1)).setFld (.ethPortStatus p)
        F.ethPortStatus_ROLE (bitNat r.2.1)
      { s2 with boot := { s2.boot with macs := s2.boot.macs.set p r.2.2 } }) s1

/-- A trapeze record is one of R326: a manager has no uplink, a worker one and at most three downlinks. -/
def trapezeOk (role uplink downs : Nat) : Bool :=
  role == 0 || (role == 1 && decide (downs < 16)) || (role == 2 && decide (uplink < 4) && decide (downs < 16) && !bitAt downs uplink)

/-- PORT_ROLE of a port: 1 uplink, 2 downlink, 0 unused (R326, R344). -/
def portRoleOf (role uplink downs : Nat) (p : Nat) : Nat :=
  if role = 0 then 0 else if role = 2 ∧ p = uplink then 1 else if bitAt downs p then 2 else 0

/-- A port in use begins its training (R327). -/
def State.trainPort (s : State) (role uplink downs : Nat) (p : Fin 4) : State :=
  let r := portRoleOf role uplink downs p.val
  if r = 0 then s
  else (s.setFld (.trzPortStatus p) F.trzPortStatus_PORT_ROLE r).beginTraining p

/-- The trapeze ports as the trapeze record has them (R326, R344). -/
def State.applyTrapeze (s : State) : State :=
  match s.configRecord 4 with
  | none => s
  | some b =>
    let (role, uplink, downs) := Config.trapezeRecord b
    if role = 0 ∨ !trapezeOk role uplink downs then s
    else
      let s1 := (((s.setFld .trzSystemStatus F.trzSystemStatus_ROLE role).setFld .trzSystemStatus F.trzSystemStatus_UPLINK
        (if role = 2 then uplink else 0)).setFld .trzSystemStatus F.trzSystemStatus_STATE trzDiscovering)
      (List.finRange 4).foldl (fun s p => s.trainPort role uplink downs p) s1

/-! ## Margin trims (R392, R410, R416) -/

/-- PWR_TRIM of a point: FLOOR and CEIL of the device record; STEPS and DISABLED of the trim journal, else the record's
(R392, R410; log 59). -/
def State.trimWord (s : State) (k : Nat) : Word :=
  let m := s.sec.record
  let o := 0x54 + 8 * k
  let journal := (s.governingEntry arRecord 7).map fun e => e.bytes.drop 16
  let steps := match journal with | some b => leAt b (2 * k) 1 | none => leAt m (o + 4) 1
  let off := (match journal with | some b => bitAt (leAt b (2 * k + 1) 1) 0 | none => false) || !bitAt (leAt m (o + 5) 1) 0
  BitVec.ofNat 32 (bitNat off * 2 ^ 31 + steps % 128 * 2 ^ 24 + leAt m (o + 2) 2 % 4096 * 2 ^ 12 + leAt m o 2 % 4096)

/-- The trims loaded. -/
def State.loadTrims (s : State) : State :=
  if s.recordValid then (List.finRange 8).foldl (fun s k => s.setReg (.pwrTrim k) (s.trimWord k.val)) s else s

/-! ## The flash (R377, R380, R387) -/

/-- What the booth reads to take the flash over: page 0 of every good block of every area, and the pages of the table, the
journal and the trim journal (R377, R380, R383). -/
def State.takeOver (s : State) : State :=
  let s1 := [2, 3, 4, 5, 6, 7].foldl (fun (t : State) area => t.readPages area (s.mapPages area)) s
  [arTable, arRecord, arJournal].foldl (fun (t : State) area =>
    t.readPages area (s.programmedPages ((s.governing area).map fun u => u.block))) s1

/-- The area maps are built, and the table is read or rebuilt from the factory marks (R377, R380). -/
def State.flashReady (s0 : State) : State :=
  let s := s0.takeOver
  let table := s.tableRecord
  let bad := ((table.map Prod.snd).getD [] ++ s.flash.factoryBad).eraseDups
  let s1 := (((s.setFld .flsStatus F.flsStatus_READY 1).setFld .flsStatus F.flsStatus_TABLE_VALID (bitNat table.isSome)).setFld
    .flsGeometry F.flsGeometry_BAD bad.length).showInhibit
  ({ s1 with flash := { s1.flash with badBlocks := (table.map Prod.snd).getD [] } } : State).flashIssue

/-! ## The deployment image (R360 to R362) -/

/-- Bytes of a unit are zero data of an owner. -/
def ownUnit (code : Byte) (d : Dram) (u : Nat) : Dram := { zeroUnit d u with unitOwner := smSet 0xFF (zeroUnit d u).unitOwner u code }

/-- DEPLOYMENT copied behind the page table, every line of the region the booth's (R360). -/
def State.copyDeployment (s : State) (c : List Byte) : State :=
  let s1 := { s with boot := { s.boot with deployLen := c.length } }
  ({ s1 with dram := (List.range s1.boothUnits).foldl (ownUnit 0x80) s1.dram } : State).ownWrite .booth deployBase c

/-- What ends the copy of DEPLOYMENT (R362, R425): SIZE, SIGNATURE, or nothing. -/
def State.deployCause (s : State) (c : List Byte) : Nat :=
  if s.dramSize < unitBytes * (1 + ceilDiv (ctLength c) unitBytes) then 2
  else if !ctDigests c || (s.lifecycle == lcReturned && !((ctPassing 3 true c).any (rootLive s.storeRec.revoked))) then 1
  else 0

/-- The directory's fields and ranges hold (R361, first row). -/
def State.dirOk (s : State) : Bool :=
  let n := s.dir 0x6 1
  let k := s.dir 0x7 1
  let regions := (List.range k).map fun i => (s.dir (0x24 + 8 * i) 2, s.dir (0x26 + 8 * i) 2)
  let range (o len : Nat) : Bool := len == 0 || s.inSections o len
  let zero (o len : Nat) : Bool := (s.deployBytes (s.dirBase + o) len).all fun x => x == 0
  decide (512 ≤ (s.sections.headD (0, 0)).2) &&
    s.dir 0 4 == 0x4C394450 && s.dir 4 2 == 1 && decide (n ≤ 8) && decide (k ≤ 8) && s.dir 0xC 4 % 32 == 0 &&
    decide (s.dir 0x10 4 ≤ 4096) && (s.dir 0x14 4 != 0 || s.dir 0x18 4 == 0) && zero 0x22 2 && zero 0x64 412 &&
    ((List.range 8).all fun i => zero (0x28 + 8 * i) 4 && (decide (i < k) || zero (0x24 + 8 * i) 8)) &&
    range (s.dir 0x8 4) (256 * n) && range (s.dir 0xC 4) (32 * s.dir 0x10 4) && range (s.dir 0x14 4) (s.dir 0x18 4) &&
    (regions.any fun t => decide (t.1 ≤ s.dir 0x20 2) && decide (s.dir 0x20 2 < t.1 + t.2)) &&
    (regions.all fun t => decide (s.boothUnits ≤ t.1) && decide (unitBytes * (t.1 + t.2) ≤ s.dramSize)) &&
    ((List.range k).all fun i => (List.range i).all fun j =>
      let a := regions.getD i (0, 0)
      let b := regions.getD j (0, 0)
      decide (a.1 + a.2 ≤ b.1) || decide (b.1 + b.2 ≤ a.1))

/-- The application-core regions bound and zeroed, the image copied, A0 to A7 started (R361, last row). -/
def State.startApp (s : State) : State :=
  let s1 : State := { s with dram := s.appRegions.foldl (fun (d : Dram) (t : Nat × Nat) =>
    (List.range t.2).foldl (fun d i => ownUnit 0x40 d (t.1 + i)) d) s.dram }
  let base := unitBytes * (s1.appRegions.headD (0, 0)).1
  let image := s1.deployBytes (s1.dir 0x14 4) (s1.dir 0x18 4)
  let s2 := if image.isEmpty then s1 else s1.ownWrite .app base image
  let s3 := s2.setFld .trsIntBase F.trsIntBase_UNIT (s2.dir 0x20 2)
  { s3 with boot := { s3.boot with appRunning := true, appStart := BitVec.ofNat 64 (base + s3.dir 0x1C 4) } }

/-- The manifests and load entries that name no ring are logged once (R42, R361, R449; log 49). -/
def State.logIgnored (s : State) : State :=
  let s1 := (List.range (s.dir 0x6 1)).foldl (fun s i =>
    let r := leAt (s.manifestBytes i) 2 1
    if 7 < r then s.log logBooth 0x86 (2 ^ 16 * i) r else s) s
  (List.range (s1.dir 0x10 4)).foldl (fun s i =>
    let r := leAt (s.loadEntry i) 0 1
    if 7 < r ∨ (s.manifestsOf r).isEmpty then s.log logBooth 0x86 (1 + 2 ^ 16 * i) r else s) s1

/-- The rings that the manifests name enter LOADING (R360 step 6). -/
def State.loadRings (s : State) : State :=
  (((List.finRange 8).filter fun r => !(s.manifestsOf r.val).isEmpty).foldl (fun s r => s.enterLoading r)
    (s.setFld .bootStatus F.bootStatus_STAGE 5)).endBoot

/-- Steps 5 to 7 of R360. -/
def State.deployRings (s : State) : State :=
  if s.dirOk then s.startApp.logIgnored.loadRings
  else
    let s1 := { s with boot := { s.boot with dirBad := true } }
    ((List.finRange 8).foldl (fun s r => s.failRing r cauFormat) s1).setFld .bootStatus F.bootStatus_STAGE stageDone

/-- Step 4 of R360, with R362: a DEPLOYMENT that fails marks its slot FAILED, and then the security processor restarts. -/
def State.deployNow (s : State) : State :=
  let k := s.runningSlot
  let d := ((s.slotSet k).getD []).getD 2 (0, [])
  let c := s.slotContainer k d
  let s1 := (s.readPages (slotArea k) (s.containerPages k [d])).setFld .bootStatus F.bootStatus_STAGE 4
  match s.deployCause c with
  | 0 => (s1.copyDeployment c).deployRings
  | cause => s1.writeHeader k (s.failedHeader k cause) (.restart k cause)

/-- The records of front end, ports and trapeze applied, and the trims loaded (R360 step 3, R392). -/
def State.applyRecords (s : State) : State := s.applyFrontEnd.applyPorts.applyTrapeze.loadTrims

/-- The booth's first AVSBus write, before any ring loads (R407, R464). -/
def State.firstVoltage (s : State) : State := s.requestVolt Config.firstVolt.val

/-- The bring-up. -/
def State.bringUp (s : State) (found : Vector (List Nat) 16) (confined : BitVec 16) (slicesBad : BitVec 8)
    (t : DramTraining) : State :=
  let s1 := s.flashReady.selfTest found confined slicesBad
  match s1.dramUp t with
  | (s2, false) =>
    ((s2.setFld .bootStatus F.bootStatus_STAGE 7).setFld .bootStatus F.bootStatus_HALT_CAUSE 1).log logBooth 0x83
      (s2.reg .ddrStatus).toNat 0
  | (s2, true) =>
    let s3 := s2.applyRecords.firstVoltage
    if s3.inRecovery then s3.setFld .bootStatus F.bootStatus_STAGE stageDone else s3.deployNow

/-- BOOTH_BRING_UP: after hand-over, once. -/
def execBoothBringUp (badColumns : Vector (List Nat) 16) (confined : BitVec 16) (slicesBad : BitVec 8) (dram : DramTraining)
    (s : State) : Host.Outcome State Fault Refusal :=
  .next (if s.boot.phase = .handedOver ∧ s.fld .bootStatus F.bootStatus_STAGE = 1 then
    s.bringUp badColumns confined slicesBad dram
  else s)

/-! ## The recovery listener (R365, R366) -/

/-- The RESULT codes (R365). -/
abbrev rsOk : Nat := 0
abbrev rsFormat : Nat := 1
abbrev rsSignature : Nat := 2
abbrev rsSize : Nat := 5
abbrev rsBusy : Nat := 6

/-- The header of a recovery frame, big-endian, with CRC zero (R365). -/
def recHeader (type : Nat) (f : RecFrame) : List Byte :=
  [f.version, BitVec.ofNat 8 type] ++ beBytes 2 f.session.toNat ++ beBytes 4 f.offset.toNat ++ beBytes 2 f.length.toNat ++
    beBytes 2 f.status.toNat ++ beBytes 4 0

/-- A frame is heard: VERSION, LENGTH and CRC hold (R365, R366). -/
def recHeard (type : Nat) (f : RecFrame) : Bool :=
  f.version == 1 && f.payload.length == f.length.toNat && decide (f.payload.length ≤ 1024) &&
    f.crc == crc32c (recHeader type f ++ f.payload)

/-- The source address of the recovery listener: 02-4C-39, then the low 24 bits of the serial number, zero without a record
(R365). -/
def State.recSource (s : State) : BitVec 48 := BitVec.ofNat 48 (0x024C39 * 2 ^ 24 + s.serial % 2 ^ 24)

/-- The Ethernet frame of EtherType 0x88B6 that the listener sends on E2: the header with its CRC, then the payload (R365). -/
def State.recFrame (s : State) (dst : BitVec 48) (type : Nat) (session : BitVec 16) (offset status : Nat) (payload : List Byte) :
    TxFrame :=
  let h := recHeader type ⟨0, 1, session, BitVec.ofNat 32 offset, BitVec.ofNat 16 payload.length, BitVec.ofNat 16 status, 0, payload⟩
  { dst := dst, src := s.recSource, tag := none, packet := none, etherType := 0x88B6
    payload := h.take 12 ++ beBytes 4 (crc32c (h ++ payload)).toNat ++ payload }

/-- A frame of the listener sent. -/
def State.recSend (s : State) (dst : BitVec 48) (type : Nat) (session : BitVec 16) (offset status : Nat) (payload : List Byte) :
    State := s.toWire 2 (s.recFrame dst type session offset status payload)

/-- The listener runs. -/
def State.listening (s : State) : Bool := s.boot.phase == .listener

/-- The session of the listener changed. -/
def State.setSession (s : State) (x : Option RecSession) : State := { s with boot := { s.boot with session := x } }

/-- ANNOUNCE: broadcast once per second, until a session begins (R366); every other frame goes to the station that sent the
frame it answers (log 140). -/
def execAnnounce (s : State) : Host.Outcome State Fault Refusal :=
  .next (if s.listening && s.boot.session.isNone then
    s.recSend (BitVec.allOnes 48) 1 0 0 0 ([BitVec.ofNat 8 s.boot.recCause,
      BitVec.ofNat 8 (s.fld (.bootSlotState 0) F.bootSlotState_STATE), BitVec.ofNat 8 (s.fld (.bootSlotState 1) F.bootSlotState_STATE),
      BitVec.ofNat 8 (s.fld (.bootSlotState 0) F.bootSlotState_INVALID_CAUSE),
      BitVec.ofNat 8 (s.fld (.bootSlotState 1) F.bootSlotState_INVALID_CAUSE), 0] ++ beBytes 8 s.serial)
  else s)

/-- The largest recovery image (R366). -/
abbrev recMax : Nat := 33554432

/-- BEGIN heard (R366 step 2). -/
def State.beginNow (s : State) (f : RecFrame) : State :=
  let total := beAt f.payload 0 4
  match s.boot.session with
  | some x => if x.session = f.session then s else s.recSend f.src 6 f.session 0 rsBusy []
  | none => if recMax < total then s.recSend f.src 6 f.session 0 rsSize [] else s.setSession (some ⟨f.session, total, 0⟩)

/-- BEGIN: a frame that is not heard is dropped. -/
def execBegin (f : RecFrame) (s : State) : Host.Outcome State Fault Refusal :=
  .next (if s.listening && recHeard 2 f then s.beginNow f else s)

/-- DATA heard: written at the next expected offset into slice M0, and answered with ACK (R366 step 3; log 63). -/
def State.dataNow (s : State) (x : RecSession) (f : RecFrame) : State :=
  if f.offset.toNat = x.next ∧ x.next + f.payload.length ≤ x.total then
    let s1 := { s with
      mwy := smWrite 0 s.mwy x.next f.payload, mwyBad := smClear s.mwyBad (x.next / 32) (ceilDiv (x.next + f.payload.length) 32)
      mwyFlips := smClear s.mwyFlips (36 * (x.next / 32)) (36 * ceilDiv (x.next + f.payload.length) 32) }
    let next := x.next + f.payload.length
    (s1.setSession (some { x with next := next })).recSend f.src 4 x.session next 0 []
  else s.recSend f.src 4 x.session x.next 0 []

/-- A frame of the live session. -/
def State.inSession (s : State) (type : Nat) (f : RecFrame) : Option RecSession :=
  if s.listening && recHeard type f then s.boot.session.filter fun x => x.session == f.session else none

/-- DATA: dropped where no session has its number. -/
def execData (f : RecFrame) (s : State) : Host.Outcome State Fault Refusal :=
  .next (match s.inSession 3 f with
    | some x => s.dataNow x f
    | none => s)

/-- The outcome of a recovery image: RESULT's STATUS (R349, R346, R366 step 4). In Blank only a vendor root's
signature counts (R350). -/
def State.recoveryStatus (s : State) (x : RecSession) (c : List Byte) : Nat :=
  if x.next ≠ x.total ∨ ctLength c ≠ x.total then rsFormat
  else match ctCause s.storeRec 4 (s.lifecycle == lcBlank) (c.take 3712) with
    | 0 => if ctDigests c then rsOk else rsSignature
    | cause => cause - 2

/-- A recovery image starts: as a slot would, under its net, with RECOVERY set (R367). -/
def State.startRecovery (s : State) (c : List Byte) : State :=
  let m := shaBytes (c.take 512)
  let s1 := ((s.armNet (trialSeconds c)).setFld .bootStatus F.bootStatus_RECOVERY 1).setReg .bootVersion
    (BitVec.ofNat 32 (leAt c 0xC 4))
  ({ s1 with
    boot := { s1.boot with mSec := m, mBoothSlot := m, mBoothRun := m, mDeploy := [], confirmRings := 0, session := none }
    power := { s1.power with active := c } } : State).handOver

/-- END heard (R366 steps 4 and 5). -/
def State.endImage (s : State) (x : RecSession) (f : RecFrame) : State :=
  let c := smRead 0 s.mwy 0 x.total
  let st := s.recoveryStatus x c
  let s1 := s.recSend f.src 6 x.session x.next st []
  if st = rsOk then s1.startRecovery c else s1.setSession none

/-- END_RECOVERY_IMAGE. -/
def execEndRecoveryImage (f : RecFrame) (s : State) : Host.Outcome State Fault Refusal :=
  .next (match s.inSession 5 f with
    | some x => s.endImage x f
    | none => s)

/-- RECOVERY_SESSION_TIMEOUT: a session that carries no valid frame for 10 s is abandoned (R366 step 6). -/
def execRecoverySessionTimeout (s : State) : Host.Outcome State Fault Refusal :=
  .next (if s.listening then s.setSession none else s)

end Sys2Proof.Machine
end

