-- ==== Sys2Proof/Machine/Debug.lean ====
section
/-! DEFINITION. Invasive debug (R433, R437, R455, R457), and the collection of fault and trace records (R447, R452,
R453). -/

namespace Sys2Proof.Machine

/-! ## DBG_RING_CTRL (R455) -/

/-- A request of the debug endpoint at level INVASIVE or FULL: from any other it is ignored; in Standby it is answered
RING_STATE (R439, R455). It acts on a parked ring at once (R437, R439; log 72). -/
def State.debugRequest (s : State) (r : Fin 8) (who : Who) (act : State → State) : State × Nat :=
  if !s.debugRight r 2 who then (s, stAccessRing)
  else if s.inStandby then (s, stRingState)
  else (act s, stOk)

/-- HALT: no queue of the ring issues any more. -/
def State.haltRing (s : State) (r : Fin 8) : State := s.onRing r fun k => { k with halted := true }

/-- The chosen queues of a core may issue their head command once. -/
def stepQueues (queues : BitVec 5) (k : Core) : Core :=
  { k with queues := Vector.ofFn fun i : Fin 5 =>
      if queues.getLsbD i.val then { k.queues[i] with stepNow := true } else k.queues[i] }

/-- STEP of a halted ring: the head command of each chosen queue is issued once. -/
def State.stepRing (s : State) (r : Fin 8) (core : Option (Fin 16)) (queues : BitVec 5) : State :=
  if (s.ring r).halted then
    ((s.coresOf r).filter fun c => core.isNone || core == some c).foldl (fun s c => s.onCore c (stepQueues queues)) s
  else s

/-- RESUME: the ring's queues issue again. -/
def State.continueRing (s : State) (r : Fin 8) : State :=
  ((s.coresOf r).foldl (fun s c => s.onCore c fun k =>
    { k with queues := k.queues.map fun q => { q with stepNow := false } }) s).onRing r fun k => { k with halted := false }

/-- DBG_RING_CTRL: 1 HALT, 2 STEP, 3 RESUME; other values ignored (R457). -/
def State.dbgControl (s : State) (r : Fin 8) (who : Who) (op : Nat) (core : Option (Fin 16)) (queues : BitVec 5) : State × Nat :=
  s.debugRequest r who fun s =>
    match op with
    | 1 => s.haltRing r
    | 2 => s.stepRing r core queues
    | 3 => s.continueRing r
    | _ => s

/-- DBG_HALT. -/
def execDbgHalt (ring : Fin 8) (who : Who) (s : State) : Host.Outcome State Fault Refusal :=
  .next (s.dbgControl ring who 1 none 0).1

/-- DBG_STEP. -/
def execDbgStep (ring : Fin 8) (core : Option (Fin 16)) (queues : BitVec 5) (who : Who) (s : State) :
    Host.Outcome State Fault Refusal :=
  .next (s.dbgControl ring who 2 core queues).1

/-- DBG_RESUME. -/
def execDbgResume (ring : Fin 8) (who : Who) (s : State) : Host.Outcome State Fault Refusal :=
  .next (s.dbgControl ring who 3 none 0).1

/-! ## DBG_ACC_DATA (R455) -/

/-- What DBG_ACC_ADDR names: a core's memory, the ring's midway space, its DRAM regions, or nothing of the ring. -/
inductive DebugPlace where
  | cm (c : Fin 16) (a : Nat)
  | mwy (a : Nat)
  | dram (a : Nat)
  | outside
  deriving DecidableEq, Repr

/-- The place that DBG_ACC_ADDR names, where the ring has it. -/
def State.debugPlace (s : State) (r : Fin 8) : DebugPlace :=
  let hi := (s.reg (.dbgAccAddr r 1)).toNat
  let a := (s.reg (.dbgAccAddr r 0)).toNat / 4 * 4 + 2 ^ 32 * (hi % 32)
  match hi / 2 ^ 30 with
  | 0 => if (s.coresOf r).contains (coreFin (hi / 2 ^ 26)) ∧ inCore a 4 then .cm (coreFin (hi / 2 ^ 26)) a else .outside
  | 1 => if a + 4 ≤ s.mwySize r then .mwy a else .outside
  | 2 => if s.dramAllowed (.boothFor r) a 4 then .dram a else .outside
  | _ => .outside

/-- The four bytes at a place, and their poison. -/
def State.debugGet (s : State) (r : Fin 8) : DebugPlace → State × List PByte
  | .cm c a => s.cmRead (noCommand r) c a 4
  | .mwy a => s.mwyRead r (noCommand r) a 4
  | .dram a =>
    match s.dramRead (.boothFor r) (noCommand r) none a 4 with
    | (s1, some d) => (s1, d)
    | (s1, none) => (s1, cleanBytes (leBytes 4 0))
  | .outside => (s.setFld (.dbgAccStatus r) F.dbgAccStatus_REFUSED 1, cleanBytes (leBytes 4 0))

/-- Four bytes written at a place. -/
def State.debugPut (s : State) (r : Fin 8) (d : List PByte) : DebugPlace → State
  | .cm c a => s.remoteWrite (noCommand r) c a (rawBytes d)
  | .mwy a => s.mwyWrite r (noCommand r) a d
  | .dram a => (s.dramWrite (.boothFor r) (noCommand r) 0 a d).1
  | .outside => s.setFld (.dbgAccStatus r) F.dbgAccStatus_REFUSED 1

/-- A read of DBG_ACC_DATA: POISON tells of the last read (R455, R457; log 72). -/
def State.debugRead (s : State) (r : Fin 8) : State :=
  let (s1, d) := s.debugGet r (s.debugPlace r)
  (s1.setFld (.dbgAccStatus r) F.dbgAccStatus_POISON (bitNat (anyPoison d))).setReg (.dbgAccData r)
    (BitVec.ofNat 32 (leVal (rawBytes d)))

/-- A write of DBG_ACC_DATA. -/
def State.debugWrite (s : State) (r : Fin 8) (value : Word) : State :=
  s.debugPut r (cleanBytes (leBytes 4 value.toNat)) (s.debugPlace r)

/-- DBG_ACC_READ. -/
def execDbgAccRead (ring : Fin 8) (who : Who) (s : State) : Host.Outcome State Fault Refusal :=
  .next (s.debugRequest ring who fun s => s.debugRead ring).1

/-- DBG_ACC_WRITE. -/
def execDbgAccWrite (ring : Fin 8) (value : Word) (who : Who) (s : State) : Host.Outcome State Fault Refusal :=
  .next (s.debugRequest ring who fun s => s.debugWrite ring value).1

/-! ## FAULT_POP (R447, R456) -/

/-- The head record removed when its SEQ is the one written. -/
def popHead (seq : Word) (l : List FaultRec) : List FaultRec := if (l.head?.map fun f => f.seq) = some seq then l.drop 1 else l

/-- ERR_RING_FAULT_POP, or ERR_DEV_FAULT_POP from the endpoints of R359. -/
def State.popFault (s : State) (ring : Option (Fin 8)) (seq : Word) (who : Who) : State × Nat :=
  match ring with
  | some r => s.request r who (BitVec.ofNat 32 (Reg.errRingFaultPop r).addr) seq fun s =>
      (s.onRing r fun k => { k with faults := popHead seq k.faults }, stOk)
  | none => if s.mayManage who then ({ s with devFaults := popHead seq s.devFaults }, stOk) else (s, stAccessRing)

/-- FAULT_POP. -/
def execFaultPop (ring : Option (Fin 8)) (seq : Word) (who : Who) (s : State) : Host.Outcome State Fault Refusal :=
  .next (s.popFault ring seq who).1

/-! ## Trace (R452, R453) -/

/-- TRACE_STREAM_TIMEOUT: a core in MODE STREAM sends what it holds, at most 64 records. -/
def execTraceStreamTimeout (core : Fin 16) (s : State) : Host.Outcome State Fault Refusal :=
  .next (match s.ringOfCore core with
    | some r =>
      if s.fld (.dbgTraceCtrl core) F.dbgTraceCtrl_MODE = 4 ∧ (s.core core).trace ≠ [] then
        s.traceBatchOut r core (min 64 (s.core core).trace.length)
      else s
    | none => s)

/-- SYNC_MARKER: the concourse sends a core whose MODE is not OFF a marker with its count (R453). -/
def execSyncMarker (core : Fin 16) (s : State) : Host.Outcome State Fault Refusal :=
  .next (if s.fld (.dbgTraceCtrl core) F.dbgTraceCtrl_MODE = 0 then s
    else s.crossPut (.concourseToCore core) (.sync (s.count concourseIsland)))

/-- A marker becomes visible at its core, which records it as SYNC: TAG the count's bits 31 to 0, OPERAND its bits 47 to 32
(R453). -/
def State.syncArrives (s : State) (c : Fin 16) (cc : BitVec 48) : State :=
  s.trace c evSync (cc.setWidth 32) (cc.toNat / 2 ^ 32)

/-! ## Crossings (R23, R24, R127, R398) -/

/-- What an entry does in the receiving island: the flag operations of R127, a hint on its way to the booth's handler
(R398), and the end of a frame's transfer, which the booth tells to the programs that it triggers (R113, R268). -/
def State.delivered (s : State) (x : Crossing) : CrossOp → State
  | .setFlag r n => s.setRingFlag r n
  | .clearFlag r n => s.clearRingFlag r n
  | .coreFlag r cores n set =>
    match x with
    | .concourseToCore c => s.flagArrives c n set
    | _ => (maskCores cores).foldl (fun s c => s.crossPut (.concourseToCore c) (.coreFlag r ((1#16).shiftLeft c) n set)) s
  | .test r u n kind => s.testArrives r u n kind
  | .coreTest r c n kind =>
    if x = .concourseToCore c then s.coreTestArrives r c n kind
    else s.crossPut (.concourseToCore c) (.coreTest r c n kind)
  | .answer r u v =>
    if x = crossBack u then s.answerArrives u v else s.crossPut (crossBack u) (.answer r u v)
  | .hint r c cls late =>
    if x = .concourseToBooth then { s with power := { s.power with arrived := s.power.arrived ++ [(r, c, cls)] } }
    else s.crossPut .concourseToBooth (.hint r c cls late)
  | .trigger r kind arg stamp =>
    if x = .concourseToBooth then s.fire r kind arg stamp else s.crossPut .concourseToBooth (.trigger r kind arg stamp)
  | .packet p => s.forwarded x p
  | .sync cc =>
    match x with
    | .concourseToCore c => s.syncArrives c cc
    | _ => s

/-- The island that takes a crossing's entries (R22, R23). -/
def State.receiver (s : State) : Crossing → Fin 43
  | .concourseToCore c => coreIsland c
  | .concourseToRingmaster r => masterIsland (s.masterOf r)
  | .trzToTrz _ out _ => ⟨37 + out.val, by omega⟩
  | .concourseToBooth => boothIsland
  | .coreToConcourse _ => concourseIsland
  | .ringmasterToConcourse _ => concourseIsland
  | .ethToConcourse => concourseIsland
  | .feToConcourse => concourseIsland
  | .smpToConcourse => concourseIsland
  | .trzToConcourse _ => concourseIsland
  | .boothToConcourse => concourseIsland

/-- CROSSING_DELIVER: the oldest entry reaches its receiver, and the freed place is the sender's again. An empty crossing
delivers nothing, one whose receiver's clock is stopped holds its entries, and so does one whose receiver cannot take the
oldest yet (R23, R24). What waits in a receive buffer for the place moves up (R329, R331). -/
def execCrossingDeliver (x : Crossing) (s : State) : Host.Outcome State Fault Refusal :=
  .next (if s.clockRuns (s.receiver x) then
    match takeCross x s.cross with
    | some (o, rest) =>
      if s.takesPacket x o then
        let s1 := (s.crossTaken x rest).delivered x o
        match x with
        | .trzToTrz source _ _ => s1.moveRx source
        | _ => s1
      else s
    | none => s
  else s)

end Sys2Proof.Machine
end

