-- ==== Sys2Proof/Machine/Power.lean ====
section
/-! DEFINITION. Booth power and thermal control: the power loop, hints, limiters, the thermal loop, lockstep recovery,
ageing trims, live update (R389 to R415). -/

namespace Sys2Proof.Machine

/-! ## Conditions -/

/-- The booth runs its tasks: it has an image, and its cores are not halted (R388, R389). -/
def State.boothRuns (s : State) : Bool := s.boot.phase == .handedOver && !s.power.halted

/-- An emergency of R405 is in force. -/
def State.emergency (s : State) : Bool :=
  s.power.hotLimit || s.fld .pwrStatus F.pwrStatus_THERMAL_EMERGENCY == 1 || s.fld .pwrStatus F.pwrStatus_DROOP_EMERGENCY == 1 ||
    s.fld .pwrStatus F.pwrStatus_SUPPLY_EMERGENCY == 1

/-- STATE of the live update (R416). -/
def State.updState (s : State) : Nat := s.fld .pwrUpdateStatus F.pwrUpdateStatus_STATE

/-- The values of that STATE. -/
abbrev upEmpty : Nat := 0
abbrev upLoading : Nat := 1
abbrev upReady : Nat := 2
abbrev upDeferred : Nat := 3
abbrev upSwitching : Nat := 4

/-- LOADING, DEFERRED or SWITCHING (R415). -/
def State.updBusy (s : State) : Bool := s.updState == upLoading || s.updState == upDeferred || s.updState == upSwitching

/-- STATE and CAUSE of the live update. -/
def State.setUpd (s : State) (st cause : Nat) : State :=
  (s.setFld .pwrUpdateStatus F.pwrUpdateStatus_STATE st).setFld .pwrUpdateStatus F.pwrUpdateStatus_CAUSE cause

/-! ## Division of the cap (R396) -/

/-- A ring's claim in the division: its power and its weight, both in mW. -/
structure Claim where
  ring : Fin 8
  p    : Nat
  w    : Nat
  deriving DecidableEq, Repr

/-- The passes of R396 over a power `a` in mW: each ring's target, as a fraction of mW. -/
def divideCap : Nat → Nat → List Claim → List (Fin 8 × Nat × Nat)
  | 0, _, _ => []
  | fuel + 1, a, l =>
    let total := l.foldl (fun n c => n + c.w) 0
    let done := l.filter fun c => decide (c.p * total ≤ a * c.w)
    let targets := fun (m : List Claim) => m.map fun c => (c.ring, a * c.w, total)
    if l.isEmpty then []
    else if done.isEmpty then targets l
    else targets done ++
      divideCap fuel (a - done.foldl (fun n c => n + c.p) 0) (l.filter fun c => !decide (c.p * total ≤ a * c.w))

/-- A ring's target, and whether POWER_BUDGET set it (R396). -/
def withBudget (budget : Nat) (t : Nat × Nat) : Nat × Nat × Bool :=
  if 0 < budget ∧ 1000 * budget * t.2 < t.1 then (1000 * budget, 1, true) else (t.1, t.2, false)

/-- WARN_CAP_W sets the effective cap (R396, R406). -/
def State.warnCap (s : State) : Bool :=
  s.pins.warn && decide (s.fld .pwrCap F.pwrCap_WARN_CAP_W ≤ s.fld .pwrCap F.pwrCap_CAP_W)

/-- The effective cap in W. -/
def State.effectiveCap (s : State) : Nat :=
  if s.warnCap then s.fld .pwrCap F.pwrCap_WARN_CAP_W else s.fld .pwrCap F.pwrCap_CAP_W

/-- The power measured for the running rings that satisfy `p`, in mW. -/
def State.ringsMw (s : State) (m : PowerSample) (p : Fin 8 → Bool) : Nat :=
  (s.runningRings.filter p).foldl (fun n r => n + m.ringMw[r]) 0

/-- A, the power for the rings that are not fixed, in mW (R395, R396). -/
def State.ringPower (s : State) (m : PowerSample) : Int :=
  1000 * (s.effectiveCap : Int) - ((m.coreMw + m.otherMw : Nat) - (s.ringsMw m fun _ => true : Nat) : Int) -
    (s.ringsMw m s.fixedMode : Nat)

/-- POWER_BUDGET of a ring in W (R42). -/
def State.powerBudget (s : State) (r : Fin 8) : Nat := s.manifest r 7 1

/-- The claims of the running rings that are not fixed. -/
def State.claims (s : State) (m : PowerSample) : List Claim :=
  (s.runningRings.filter fun r => !s.fixedMode r).map fun r =>
    ⟨r, m.ringMw[r], 1000 * if s.powerBudget r = 0 then 6 * (s.coresOf r).length else s.powerBudget r⟩

/-- The targets of one power loop: ring, fraction of mW, and whether the budget set it. -/
def State.targets (s : State) (m : PowerSample) : List (Fin 8 × Nat × Nat × Bool) :=
  (divideCap 8 (s.ringPower m).toNat (s.claims m)).map fun t => (t.1, withBudget (s.powerBudget t.1) t.2)

/-! ## Limits (R397, R405, R406) -/

/-- A ring's ceiling by its mode (R397). -/
def State.modeCeiling (s : State) (r : Fin 8) : Nat :=
  if s.ringMode r == 1 then 2300 else 2000

/-- The frequency that R397 gives from power alone: present frequency, power, target fraction, bound. -/
def powerLimit (f p num den bound : Nat) : Nat :=
  if num < p * den then max 400 (25 * (f * num / (p * den * 25)))
  else (((List.range 4).map fun i => f + 25 * (i + 1)).filter fun g =>
    decide (g ≤ bound) && decide (p * g * den ≤ num * f)).getLast?.getD f

/-- The limit of a supply emergency: the highest enabled point whose voltage does not exceed the measured one (R405). -/
def State.supplyCap (s : State) : Nat :=
  ((List.range 8).filter fun k => s.pointOn k &&
    decide (s.pointV k ≤ 1000 * s.fld .pwrVcore F.pwrVcore_MEASURED)).foldl (fun n k => max n (pointMhz.getD k 0)) 400

/-- What a power loop grants a ring: the frequency, and the cause that throttles it (R406). -/
structure Grant where
  ring  : Fin 8
  mhz   : Nat
  cause : Option Nat
  deriving DecidableEq, Repr

/-- The first of the lowest limits. -/
def lowestCause : List (Nat × Nat) → Option Nat
  | [] => none
  | (k, l) :: t => some (t.foldl (fun (b : Nat × Nat) x => if x.2 < b.2 then x else b) (k, l)).1

/-- The grant of a ring that is not fixed (R397, R403, R405, R406); for 1 s after a cold start it does not rise (R414). -/
def State.grantShared (s : State) (m : PowerSample) (negative : Bool) (t : Fin 8 × Nat × Nat × Bool) : Grant :=
  let r := t.1
  let f := s.freq r
  let top := s.modeCeiling r
  let bound := min (min top s.topMhz) (if 0 < s.power.coldLoops then min f 1400 else 2300)
  let lp := if negative then 400 else min bound (powerLimit f m.ringMw[r] t.2.1 t.2.2.1 bound)
  let l1 := min s.power.ceiling (if s.power.hotLimit then 800 else 2300)
  let l3 := if s.fld .pwrStatus F.pwrStatus_SUPPLY_EMERGENCY = 1 then min f s.supplyCap else 2300
  let g := min lp (min l1 l3)
  let kp := if s.warnCap then 5 else if t.2.2.2 then 4 else 0
  let limits := (if kp = 5 then [(5, lp)] else []) ++ [(3, l3), (1, l1)] ++ (if kp = 5 then [] else [(kp, lp)])
  ⟨r, g, if g < top then lowestCause limits else none⟩

/-- The grant of a fixed ring: no software limit lowers it (R394, R397, R405). -/
def State.grantFixed (s : State) (r : Fin 8) : Grant :=
  let f := s.freq r
  let want := min (min (s.fixedMhz r) s.topMhz) s.hardLimit
  ⟨r, min want (if s.fld .pwrStatus F.pwrStatus_SUPPLY_EMERGENCY = 1 then f else f + 100), none⟩

/-- The grants of a power loop. -/
def State.grants (s : State) (m : PowerSample) : List Grant :=
  (s.targets m).map (s.grantShared m (decide (s.ringPower m < 0))) ++
    (s.runningRings.filter s.fixedMode).map s.grantFixed

/-! ## The power loop -/

/-- D as the hints in force ask for it, in mV (R398). -/
def State.hintDroop (s : State) : Nat :=
  5 * (s.runningRings.flatMap s.coresOf).foldl (fun n c => if (s.core c).hint.isSome then max n s.power.hints[c] else n) 0

/-- What the loop measures, as registers show it (R395, R407, R416, R417). -/
def State.showSample (s : State) (m : PowerSample) : State :=
  let s1 := ((s.setFld .pwrPower F.pwrPower_TOTAL (min ((m.coreMw + m.otherMw) / 100) 65535)).setFld .pwrPower F.pwrPower_CORE
    (min (m.coreMw / 100) 65535))
  let s2 := if m.avsFailed then s1 else s1.setFld .pwrVcore F.pwrVcore_MEASURED (min m.measuredMv 65535)
  (List.finRange 8).foldl (fun s r => s.setFld (.pwrRingStatus r) F.pwrRingStatus_POWER
    (if s.ringClocked r then min (m.ringMw[r] / 500) 255 else 0)) s2

/-- The emergencies of the period (R405), and how many periods have had none (R415). -/
def State.judgePeriod (s : State) (m : PowerSample) : State :=
  let supply := m.railFault || m.avsFailed ||
    decide (1000 * s.fld .pwrVcore F.pwrVcore_MEASURED + 50000 < s.power.vReq)
  let s1 := ((s.setFld .pwrStatus F.pwrStatus_THERMAL_EMERGENCY (bitNat s.power.hotLimit)).setFld .pwrStatus
    F.pwrStatus_DROOP_EMERGENCY (bitNat m.droopOver)).setFld .pwrStatus F.pwrStatus_SUPPLY_EMERGENCY (bitNat supply)
  let bad := s.power.hotLimit || m.droopOver || supply
  { s1 with power := { s1.power with
    stable := if bad then 0 else min (s1.power.stable + 1) 10000
    loops := (s1.power.loops + 1) % 2 ^ 32
    droopD := s1.hintDroop } }

/-- CAP_EXCEEDED: A is negative, or every ring not fixed exceeds its target at 400 MHz (R397). -/
def State.capExceeded (s : State) (m : PowerSample) : Bool :=
  decide (s.ringPower m < 0) ||
    (!(s.targets m).isEmpty && (s.targets m).all fun t => s.freq t.1 == 400 && decide (t.2.1 < m.ringMw[t.1] * t.2.2.1))

/-- The throttle counters and causes of the period (R406, R416, R417). -/
def State.countThrottle (s : State) (l : List Grant) : State :=
  let s0 := (List.finRange 8).foldl (fun s r => s.setFld (.pwrRingStatus r) F.pwrRingStatus_LIMIT 0)
    (s.setFld .pwrThrottleCause F.pwrThrottleCause_NOW
      (if s.power.slowed then 4 else 0))
  l.foldl (fun s g => match g.cause with
    | none => s
    | some k =>
      (((s.bump (.pwrRingThrottleUs g.ring ⟨k % 6, by omega⟩) F.pwrRingThrottleUs_US 100).raiseBit .pwrThrottleCause
        F.pwrThrottleCause_SEEN k).raiseBit .pwrThrottleCause F.pwrThrottleCause_NOW k).setFld (.pwrRingStatus g.ring)
        F.pwrRingStatus_LIMIT (1 + k)) { s0 with power := { s0.power with slowed := false } }

/-- The frequency that the grants give a ring. -/
def grantOf (l : List Grant) (r : Fin 8) (f : Nat) : Nat := ((l.find? fun g => g.ring == r).map Grant.mhz).getD f

/-- Frequencies that wait for the voltage. -/
def State.setRaise (s : State) (v : Vector Nat 8) : State := { s with power := { s.power with raise := v } }

/-- Lower frequencies at once; then the voltage; higher frequencies once it has settled, at once where no settling is
awaited (R394). -/
def State.applyGrants (s : State) (l : List Grant) : State :=
  let s1 := l.foldl (fun s g => if g.mhz < s.freq g.ring then s.setFreq g.ring g.mhz else s) s
  let want := fun r => grantOf l r (s1.freq r)
  match s1.voltFor want with
  | none => s1.setRaise (.replicate 8 0)
  | some v =>
    if s1.power.vReq < v ∨ s1.power.settling = true then
      let s2 := s1.requestVolt v
      { s2 with power := { s2.power with
        settling := true
        raise := Vector.ofFn fun r => if s1.freq r < want r then want r else 0 } }
    else (l.foldl (fun s g => s.setFreq g.ring g.mhz) (s1.requestVolt v)).setRaise (.replicate 8 0)

/-- The targets of the division in mW, kept for the handoff record (R412). -/
def State.keepTargets (s : State) (l : List (Fin 8 × Nat × Nat × Bool)) : State :=
  { s with power := { s.power with
    target := Vector.ofFn fun r => match l.find? fun t => t.1 == r with
      | some t => t.2.1 / max 1 t.2.2.1
      | none => 0 } }

/-- One power loop (R394 to R398, R405 to R407, R414, R415). -/
def State.powerLoopNow (s : State) (m : PowerSample) : State :=
  let s1 := (((List.finRange 8).foldl State.takeCtrl s).showSample m).judgePeriod m
  let s2 := s1.setFld .pwrStatus F.pwrStatus_CAP_EXCEEDED (bitNat (s1.capExceeded m))
  let l := s2.grants m
  let s3 := ((s2.keepTargets (s2.targets m)).countThrottle l).applyGrants l
  let s4 : State := { s3 with
    power := { s3.power with coldLoops := s3.power.coldLoops - 1 }
    pins := { s3.pins with lockAlert := false } }
  if s4.updState = upSwitching ∧ s4.emergency then s4.setUpd upDeferred 0 else s4

/-- POWER_LOOP. -/
def execPowerLoop (m : PowerSample) (s : State) : Host.Outcome State Fault Refusal :=
  .next (if s.boothRuns then s.powerLoopNow m else s)

/-- VOLTAGE_SETTLED: the waiting frequencies are raised (R394). -/
def execVoltageSettled (s : State) : Host.Outcome State Fault Refusal :=
  .next (
    let up := (List.finRange 8).foldl (fun (s : State) r =>
      let f := min s.power.raise[r] s.hardLimit
      if s.ringClocked r ∧ s.freq r < f then s.setFreq r f else s) s
    if s.boothRuns then { up with power := { up.power with settling := false, raise := .replicate 8 0 } } else s)

/-! ## Hints (R135, R398) -/

/-- The hint handler: the hints that have arrived take effect, D follows, and a higher V_req is requested at once. -/
def State.handleHints (s : State) : State :=
  let s1 := { s with power := { s.power with
    hints := s.power.arrived.foldl (fun (v : Vector Nat 16) (h : Fin 8 × Fin 16 × Nat) => v.set h.2.1 h.2.2) s.power.hints, arrived := [] } }
  let s2 : State := { s1 with power := { s1.power with droopD := s1.hintDroop } }
  match s2.voltFor s2.freq with
  | some v => s2.raiseVolt v
  | none => s2

/-- HINT_HANDLER. -/
def execHintHandler (s : State) : Host.Outcome State Fault Refusal :=
  .next (if s.boothRuns ∧ !s.power.arrived.isEmpty then s.handleHints else s)

/-- HINT_PHASE_END: the core's announced class falls to 0; the next power loop lowers D (R135, R398). -/
def execHintPhaseEnd (core : Fin 16) (s : State) : Host.Outcome State Fault Refusal :=
  .next (if (s.core core).hint.isNone then s
    else
      let s1 := s.onCore core fun k => { k with hint := none }
      { s1 with power := { s1.power with hints := s1.power.hints.set core 0 } })

/-! ## Limiters in hardware (R400, R401, R404) -/

/-- DROOP_DETECT: of a core whose clock runs. -/
def execDroopDetect (core : Fin 16) (s : State) : Host.Outcome State Fault Refusal :=
  .next (if s.clockRuns (coreIsland core) then
    { s with power := { s.power with droop := s.power.droop ||| (1#16).shiftLeft core.val } } else s)

/-- DROOP_RECOVER. -/
def execDroopRecover (core : Fin 16) (s : State) : Host.Outcome State Fault Refusal :=
  .next { s with power := { s.power with droop := s.power.droop &&& ~~~((1#16).shiftLeft core.val) } }

/-- CURRENT_LIMIT. -/
def execCurrentLimit (s : State) : Host.Outcome State Fault Refusal :=
  .next { s with power := { s.power with current := true } }

/-- CURRENT_LIMIT_CLEAR. -/
def execCurrentLimitClear (s : State) : Host.Outcome State Fault Refusal :=
  .next { s with power := { s.power with current := false } }

/-- T_max in units of 0.25 °C, by GRADE of the device record (R402, R420). -/
def State.tMax (s : State) : Int := if leAt s.sec.record 0x10 1 = 1 then 440 else 500

/-- Every running ring, fixed ones included, limited in hardware (R389, R404). -/
def State.limitAll (s : State) : State :=
  s.runningRings.foldl (fun s r => if s.hardLimit < s.freq r then s.setFreq r s.hardLimit else s) s

/-- THERMAL_EMERGENCY: a sensor at T_max or above. -/
def execThermalEmergency (_sensor : Fin 32) (temp : Int) (s : State) : Host.Outcome State Fault Refusal :=
  .next (if s.tMax ≤ temp then
    let s1 := s.setFld .pwrStatus F.pwrStatus_THERMAL_EMERGENCY 1
    ({ s1 with power := { s1.power with hotLimit := true, stable := 0 } } : State).limitAll
  else s)

/-- THERMAL_RECOVER: every reading below T_max − 5 °C. -/
def execThermalRecover (temps : Vector Int 32) (s : State) : Host.Outcome State Fault Refusal :=
  .next (if temps.toList.all fun t => decide (t < s.tMax - 20) then
    { s with power := { s.power with hotLimit := false } } else s)

/-- The clocks of every core, ringmaster and midway slice stop, and SAFE_STATE_N is asserted (R389, R404). -/
def State.trip (s : State) : State :=
  { s with power := { s.power with tripped := true }, pins := { s.pins with safeState := true } }

/-- THERMAL_CRITICAL: a sensor at T_max + 5 °C or above for 1 ms. -/
def execThermalCritical (sensor : Fin 32) (temp : Int) (s : State) : Host.Outcome State Fault Refusal :=
  .next (if s.tMax + 20 ≤ temp ∧ !s.power.tripped then
    ((s.setFld .pwrStatus F.pwrStatus_CRITICAL 1).record none false
      ⟨deviceTag, cauThermal, isBooth, 0, 0,
        [BitVec.ofNat 8 sensor.val, 0] ++ leBytes 2 (BitVec.ofInt 16 temp).toNat⟩).trip
  else s)

/-! ## The thermal loop (R403, R408) -/

/-- The hottest reading and its sensor, the lower sensor where two agree. -/
def hottest (t : Vector Int 32) : Fin 32 × Int :=
  (List.finRange 32).foldl (fun b i => if b.2 < t[i] then (i, t[i]) else b) (0, t[0])

/-- The thermal ceiling after a loop (R403). -/
def nextCeiling (tmax hot : Int) (c : Nat) : Nat :=
  if tmax - 20 ≤ hot then max 400 (c - 100) else if hot < tmax - 32 then min 2300 (c + 50) else c

/-- The PMBus rails that do not answer, once a loop has read the next one, which answers or not (R408). -/
def State.deafAfter (s : State) (silent : Bool) : Byte :=
  if silent then s.power.deaf ||| (1#8).shiftLeft s.power.rail.val else s.power.deaf &&& ~~~((1#8).shiftLeft s.power.rail.val)

/-- THERMAL_LOOP; `telemetry` tells that the rail which this loop reads does not answer. -/
def execThermalLoop (sensors : Vector Int 32) (telemetry : Bool) (s : State) : Host.Outcome State Fault Refusal :=
  .next (if s.boothRuns then
    let h := hottest sensors
    let deaf := s.deafAfter telemetry
    let s1 := ((s.setFld .pwrTemp F.pwrTemp_SENSOR h.1.val).setFld .pwrTemp F.pwrTemp_HOTTEST (BitVec.ofInt 16 h.2).toNat).setFld
      .pwrStatus F.pwrStatus_TELEMETRY (bitNat (deaf != 0))
    { s1 with power := { s1.power with
        ceiling := nextCeiling s.tMax h.2 s1.power.ceiling, rail := s.power.rail + 1, deaf := deaf } }
  else s)

/-! ## Lockstep (R389) -/

/-- The shadow memory emptied (R415). -/
def State.emptyShadow (s : State) : State :=
  let s1 := s.setFld .pwrUpdateStatus F.pwrUpdateStatus_STATE upEmpty
  { s1 with power := { s1.power with shadow := [] } }

/-- LOCKSTEP_MISMATCH: of booth cores that run; the third within 60 s of the first trips the device. -/
def execLockstepMismatch (within60s : Bool) (s : State) : Host.Outcome State Fault Refusal :=
  .next (if !s.boothRuns then s
    else
      let s1 := (s.bump .pwrLockstepCount F.pwrLockstepCount_COUNT 1).setFld .pwrEvent F.pwrEvent_LOCKSTEP 1
      let s2 := s1.record none false ⟨deviceTag, cauLockstep, isBooth, 0, 0, []⟩
      let n := if within60s then s2.power.mismatches + 1 else 1
      let s3 : State := { s2 with
        power := { s2.power with halted := true, lockLimit := true, mismatches := n }
        pins := { s2.pins with lockAlert := true } }
      let s4 := s3.limitAll.emptyShadow
      if 3 ≤ n then s4.trip else s4)

/-- A cold start of the booth's image (R414). -/
def State.coldStart (s : State) : State :=
  let s1 := s.runningRings.foldl (fun s r => if s.fixedMode r ∨ s.freq r ≤ 1400 then s else s.setFreq r 1400) s
  let s2 := s1.loadTrims.setFld .pwrStatus F.pwrStatus_COLD_START 1
  { s2 with power := { s2.power with
    loops := 0, coldLoops := 10000, unwritten := 0, ceiling := 2300, raise := .replicate 8 0, settling := false } }

/-- BOOTH_RELOAD_DONE: the running slot's image, verified again, starts cold and runs its first power loop. An image that
does not verify leaves the booth halted (log 69). -/
def execBoothReloadDone (m : PowerSample) (s : State) : Host.Outcome State Fault Refusal :=
  .next (if !s.power.halted then s
    else match s.slotSet s.runningSlot with
      | none => s
      | some l =>
        let p := l.getD 1 (0, [])
        let c := s.slotContainer s.runningSlot p
        if s.inRecovery ∨ ctCause s.storeRec 2 false p.2 ≠ 0 ∨ !ctDigests c then s
        else
          let s1 := s.setFld .pwrStatus F.pwrStatus_LIVE_IMAGE 0
          let s2 : State := { s1 with
            power := { s1.power with halted := false, lockLimit := false, active := c }
            boot := { s1.boot with mBoothRun := s1.boot.mBoothSlot } }
          s2.coldStart.powerLoopNow m)

/-! ## Ageing (R409, R410) -/

/-- The present STEPS and DISABLED bits as the body of a trim record. -/
def State.trimBody (s : State) : List Byte :=
  (List.finRange 8).flatMap fun k =>
    [BitVec.ofNat 8 (s.fld (.pwrTrim k) F.pwrTrim_STEPS), BitVec.ofNat 8 (s.fld (.pwrTrim k) F.pwrTrim_DISABLED)]

/-- A point's trim has changed and is not yet written. -/
def State.markTrim (s : State) (k : Fin 8) : State :=
  { s with power := { s.power with unwritten := s.power.unwritten ||| (1#8).shiftLeft k.val } }

/-- STEPS of a point changed. -/
def State.setSteps (s : State) (k : Fin 8) (n : Nat) : State :=
  ((s.setFld (.pwrTrim k) F.pwrTrim_STEPS n).setFld .pwrEvent F.pwrEvent_TRIM_CHANGED 1).markTrim k

/-- A point disabled: every frequency above the highest point that remains is capped at once (R409; log 68). -/
def State.disablePoint (s : State) (k : Fin 8) : State :=
  let s1 := ((s.setFld (.pwrTrim k) F.pwrTrim_DISABLED 1).setFld .pwrEvent F.pwrEvent_AGEING_LIMIT 1).markTrim k
  let s2 := s1.log logBooth Config.ageingLogCode.val k.val 0
  s2.runningRings.foldl (fun s r => if s.topMhz < s.freq r then s.setFreq r s.topMhz else s) s2

/-- The trim of a point after a sample whose lowest code is `low`. -/
def State.ageNow (s : State) (k : Fin 8) (low : Nat) (high24h : Bool) : State :=
  let steps := s.fld (.pwrTrim k) F.pwrTrim_STEPS
  if low < 8 then
    if s.pointRaw k.val < s.pointCeil k.val then s.setSteps k (min (steps + 1) 127) else s.disablePoint k
  else if high24h ∧ 24 ≤ low ∧ 0 < steps then s.setSteps k (steps - 1)
  else s

/-- AGEING_SAMPLE: only where the fastest ring has stayed at one point for the whole second. -/
def execAgeingSample (codes : List (BitVec 6)) (steadyPoint : Option (Fin 8)) (high24h : Bool) (s : State) :
    Host.Outcome State Fault Refusal :=
  .next (match steadyPoint with
    | none => s
    | some k =>
      if !s.boothRuns ∨ codes.isEmpty then s
      else s.ageNow k (codes.foldl (fun n c => min n c.toNat) 63) high24h)

/-- TRIM_WRITE: the trims written to the trim journal, or held while writes are inhibited (R385, R410). -/
def execTrimWrite (k : Fin 8) (s : State) : Host.Outcome State Fault Refusal :=
  .next (if s.boothRuns ∧ s.power.unwritten.getLsbD k.val then
    let s1 := s.appendEntry arRecord 7 s.trimBody
    { s1 with power := { s1.power with unwritten := 0 } }
  else s)

/-! ## Live update (R411 to R415) -/

/-- LOAD in effect: the staged container is copied into the shadow memory. -/
def State.updateLoadNow (s : State) (who : Who) : State :=
  match s.staged who (s.reg64 (.pwrUpdateSrc 0) (.pwrUpdateSrc 1)).toNat (s.reg .pwrUpdateLen).toNat with
  | (s1, none) => s1.emptyShadow.setUpd upEmpty 5
  | (s1, some bytes) => ({ s1 with power := { s1.power with shadow := bytes } } : State).setUpd upLoading 0

/-- PWR_UPDATE_CTRL by an endpoint of R359. -/
def State.updControl (s : State) (who : Who) (op : Nat) : State × Nat :=
  if !s.mayManage who then (s, stAccessRing)
  else if op = 1 then
    if s.updBusy then (s.setFld .pwrUpdateStatus F.pwrUpdateStatus_CAUSE 7, stOk) else (s.updateLoadNow who, stOk)
  else if op = 2 then
    if s.updBusy then (s.setFld .pwrUpdateStatus F.pwrUpdateStatus_CAUSE 7, stOk)
    else if s.updState ≠ upReady then (s.setFld .pwrUpdateStatus F.pwrUpdateStatus_CAUSE 8, stOk)
    else (s.setUpd (if s.emergency then upDeferred else upSwitching) 0, stOk)
  else if op = 3 then
    (if s.updState = upReady ∨ s.updState = upDeferred then s.emptyShadow.setUpd upEmpty 0 else s, stOk)
  else (s, stOk)

/-- UPDATE_LOAD. -/
def execUpdateLoad (who : Who) (s : State) : Host.Outcome State Fault Refusal := .next (s.updControl who 1).1

/-- UPDATE_ACTIVATE. -/
def execUpdateActivate (who : Who) (s : State) : Host.Outcome State Fault Refusal := .next (s.updControl who 2).1

/-- UPDATE_DISCARD. -/
def execUpdateDiscard (who : Who) (s : State) : Host.Outcome State Fault Refusal := .next (s.updControl who 3).1

/-- The CAUSE that verification of a loaded image ends with (R388, R411, R416). -/
def State.updCause (s : State) (c : List Byte) : Nat :=
  let cause := ctCause s.storeRec 2 false c
  if 524288 < (ctSections c).foldl (fun n x => n + x.2.1) 0 ∧ cause = 3 ∧ leAt c 0 4 = 0x44524853 then 6
  else if cause ≠ 0 then cause - 2
  else if c.length < ctLength c then 1
  else if ctDigests c then 0 else 2

/-- UPDATE_LOAD_DONE: READY, or EMPTY with the cause. -/
def execUpdateLoadDone (s : State) : Host.Outcome State Fault Refusal :=
  .next (if s.updState ≠ upLoading ∨ !s.boothRuns then s
    else match s.updCause s.power.shadow with
      | 0 => s.setUpd upReady 0
      | cause => s.emptyShadow.setUpd upEmpty cause)

/-- A section of the handoff record: ID, LENGTH and body, padded to 4 bytes (R412). -/
def handoffSection (id : Nat) (body : List Byte) : List Byte :=
  leBytes 2 id ++ leBytes 2 body.length ++ body ++ List.replicate ((4 - body.length % 4) % 4) 0

/-- The handoff record, with a section of each ID; a body of 8,176 bytes keeps it within 64 KiB (R412; log 67). -/
def State.handoffBytes (s : State) : List Byte :=
  let body := (List.range 8).flatMap fun i => handoffSection (i + 1) ((Config.handoffBody s.fresh (i + 1)).take 8176)
  let head := fun (crc : Nat) => leBytes 4 0x4C394846 ++ leBytes 2 Config.handoffFormat ++ leBytes 2 0 ++
    leBytes 4 (64 + body.length) ++ leBytes 4 crc ++ leBytes 4 (leAt s.power.active 0xC 4) ++ leBytes 4 s.power.loops ++
    leBytes 8 (s.count boothIsland).toNat ++ List.replicate 32 0
  head (crc32c (head 0 ++ body)).toNat ++ body

/-- The switch is due: SWITCHING, or DEFERRED once no emergency has been in force for 1 s (R415). -/
def State.switchDue (s : State) : Bool :=
  s.boothRuns && !s.emergency &&
    (s.updState == upSwitching || (s.updState == upDeferred && decide (10000 ≤ s.power.stable)))

/-- The memories swap roles and the new image runs; the quotes are forgotten (R413, R429). -/
def State.switchNow (s : State) (adopted : Bool) : State :=
  let s1 := ((((s.setUpd upEmpty 0).setFld .pwrUpdateStatus F.pwrUpdateStatus_ADOPTED (bitNat adopted)).bump .pwrUpdateStatus
    F.pwrUpdateStatus_COUNT 1).setFld .pwrEvent F.pwrEvent_UPDATE_DONE 1).setFld .pwrStatus F.pwrStatus_LIVE_IMAGE 1
  let s2 : State := { s1 with
    fresh := s1.fresh + 1
    power := { s1.power with handoff := s.handoffBytes, active := s1.power.shadow, shadow := s1.power.active, loops := 0 }
    sec := { s1.sec with quotes := [] }
    boot := { s1.boot with mBoothRun := shaBytes (s1.power.shadow.take 512) } }
  if adopted then s2.setFld .pwrStatus F.pwrStatus_COLD_START 0 else s2.coldStart

/-- BOOTH_SWITCH: at a boundary; an emergency in force there defers it. -/
def execBoothSwitch (adopted : Bool) (s : State) : Host.Outcome State Fault Refusal :=
  .next (if s.switchDue then s.switchNow adopted
    else if s.updState = upSwitching ∧ s.emergency then s.setUpd upDeferred 0
    else s)

/-- SWITCH_READY_TIMEOUT: the image switched to has not signalled ready, and the security processor restarts the booth
(R389, R413). -/
def execSwitchReadyTimeout (s : State) : Host.Outcome State Fault Refusal :=
  .next (if s.updState = upSwitching ∧ s.boothRuns then
    let s1 := s.emptyShadow
    ({ s1 with fresh := s1.fresh + 1, power := { s1.power with handoff := s.handoffBytes, halted := true } } : State)
  else s)

/-- ACTIVATE_TIMEOUT: no switch 60 s after the ACTIVATE (R415). -/
def execActivateTimeout (s : State) : Host.Outcome State Fault Refusal :=
  .next (if s.updState = upDeferred ∨ s.updState = upSwitching then
    (s.setUpd upReady 9).setFld .pwrEvent F.pwrEvent_UPDATE_REJECTED 1 else s)

end Sys2Proof.Machine
end

