-- ==== Sys2Proof/Machine/Security.lean ====
section
/-! DEFINITION. The security processor after hand-over: keys (R419, R430, R432), quotes (R427 to R429, R341), debug tokens
(R433 to R437), the lifecycle (R425, R426), and the power states (R438, R439, R474). -/

namespace Sys2Proof.Machine

/-! ## Keys (R419, R432) -/

/-- The seed of the device (R418). -/
def State.seed (s : State) : BitVec 256 := Config.pufSeed (part s.sec.record 0x100 1024)

/-- The class of the attestation key (R419). -/
def State.keyClass (s : State) : Nat := s.fld .secStatus F.secStatus_KEY_CLASS

/-- The key is ready (R419). -/
def State.keyReady (s : State) : Bool := s.fld .secStatus F.secStatus_KEY_READY == 1

/-- KEY_GEN_DONE: after hand-over; in Blank no key is generated (R419). -/
def execKeyGenDone (s : State) : Host.Outcome State Fault Refusal :=
  .next (if s.boot.phase = .handedOver ∧ s.lifecycle ≠ lcBlank then s.setFld .secStatus F.secStatus_KEY_READY 1 else s)

/-- A ring's endpoint keys zeroised: CAK and SAKs (R432). -/
def State.zeroKeys (s : State) (r : Fin 8) : State :=
  (List.finRange 8).foldl (fun s e =>
    (s.onEp (epIx r e) fun k => { k with cak := none, pn := 1 }).setFld (.trsEpStatus (epIx r e)) F.trsEpStatus_KEY_LIVE 0) s

/-- Every ring's keys zeroised. -/
def State.zeroAllKeys (s : State) : State := (List.finRange 8).foldl State.zeroKeys s

/-- The remembered quotes forgotten (R429). -/
def State.forgetQuotes (s : State) : State := { s with sec := { s.sec with quotes := [] } }

/-- The endpoints of a ring that have a live key, by bit (R440). -/
def State.keysLive (s : State) (r : Fin 8) : Nat :=
  (List.finRange 8).foldl (fun n e => n + s.fld (.trsEpStatus (epIx r e)) F.trsEpStatus_KEY_LIVE * 2 ^ e.val) 0

/-! ## Quotes (R427 to R429) -/

/-- The 480 signed bytes of a quote (R428). -/
def State.quoteHead (s : State) (nonce : List Byte) : List Byte :=
  let st := s.storeRec
  let slot := if s.inRecovery then 2 else s.runningSlot.val
  let flags := s.fld .bootStatus F.bootStatus_TRIAL + 2 * s.fld .pwrStatus F.pwrStatus_LIVE_IMAGE +
    4 * s.fld .bootStatus F.bootStatus_TIE
  let manifest (r : Fin 8) : List Byte :=
    if (s.ring r).manifest.isEmpty then leBytes 32 0 else shaBytes (s.ring r).manifest
  leBytes 4 0x4C395154 ++ leBytes 2 1 ++ leBytes 1 st.lifecycle ++ leBytes 1 (bitNat s.debugFull) ++
    (List.finRange 8).flatMap (fun r => leBytes 1 (s.fld (.secRingDebug r) F.secRingDebug_LEVEL)) ++ leBytes 8 s.serial ++
    padTo 32 0 nonce ++ leBytes 4 (s.reg .bootVersion).toNat ++ leBytes 1 slot ++ leBytes 1 flags ++ leBytes 1 st.revoked ++
    leBytes 1 (if s.trzState = trzReady then s.deviceNo else 0) ++
    (List.range 4).flatMap (fun i => leBytes 2 (st.epochs.getD i 0)) ++ leBytes 4 st.debugEpoch ++ leBytes 4 0 ++
    padTo 32 0 s.boot.mSec ++ padTo 32 0 s.boot.mBoothSlot ++ padTo 32 0 s.boot.mBoothRun ++ padTo 32 0 s.boot.mDeploy ++
    (List.finRange 8).flatMap manifest ++
    (List.finRange 8).flatMap (fun r => leBytes 1 (s.ringState r % 16 + 16 * bitNat (s.keysLive r != 0))) ++ leBytes 8 0

/-- A quote: 864 bytes (R428, R429). -/
def State.quote (s : State) (nonce : List Byte) : List Byte :=
  let head := s.quoteHead nonce
  head ++ beBytes 384 (Config.attestSign s.seed s.keyClass head).toNat

/-- The reply body of a QUOTE_REQUEST: the quote, CERT_LEN and CA_LEN, the certificates as the record holds them (R427). -/
def State.quoteBody (s : State) (nonce : List Byte) : List Byte :=
  let m := s.sec.record
  let n := leAt m 0x500 2
  let k := leAt m 0x502 2
  s.quote nonce ++ beBytes 2 n ++ beBytes 2 k ++ part m 0x600 n ++ part m 0x1600 k

/-- The status of a QUOTE_REQUEST for this device (R427): BUSY without a key, FORMAT without a record or in Returned. -/
def State.quoteStatus (s : State) : Nat :=
  if !s.keyReady then stBusy
  else if !s.recordValid || s.lifecycle == lcReturned then stFormat
  else stOk

/-- The digest of an issued quote remembered: the last 8 (R429). -/
def State.rememberQuote (s : State) (nonce : List Byte) : State :=
  { s with sec := { s.sec with quotes := (shaBytes (s.quote nonce) :: s.sec.quotes).take 8 } }

/-! ## Quotes of workers (R341) -/

/-- The message of a relayed quote: its code and a piece of a body, at most 511 bytes a packet (R328, R332; log 64). -/
def State.relayPiece (s : State) (via : Fin 4) (dst offset status : Nat) (piece : List Byte) : State :=
  let content := mQuote :: piece
  s.sendTo via ⟨kMessage, mkPacket s.deviceNo dst 0 0 0 content.length offset status content⟩

/-- The manager passes a request body to a device; one that cannot be reached is answered INCOMPLETE. -/
def State.relayQuote (s : State) (r : Fin 8) (a : Asker) (device : Nat) (body : List Byte) : State :=
  match s.isManager, s.routeTo device with
  | true, .out p =>
    let s1 := s.relayPiece p device 0 0 body
    { s1 with trz := { s1.trz with relays := s1.trz.relays ++ [⟨BitVec.ofNat 8 device, r, a, []⟩] } }
  | _, _ => s.replyStatus r a stIncomplete

/-- A request's body is well-formed: 36 bytes, 3 of them zero (R427). -/
def quoteForm (body : List Byte) : Bool := body.length == 36 && ((part body 1 3).all fun b => b == 0)

/-- A QUOTE_REQUEST taken: answered, or relayed (R341, R427). -/
def State.quoteNow (s : State) (r : Fin 8) (a : Asker) (body : List Byte) : State :=
  let device := leAt body 0 1
  let nonce := part body 4 32
  if !quoteForm body then s.replyStatus r a stFormat
  else if device = 0xFF ∨ device = s.deviceNo then
    if s.quoteStatus = stOk then (s.rememberQuote nonce).reply r a 0 stOk 0 [] (s.quoteBody nonce)
    else s.replyStatus r a s.quoteStatus
  else s.relayQuote r a device body

/-- A relayed request reaches its worker: its security processor answers, piece by piece (R341). -/
def State.quoteForWorker (s : State) (via : Fin 4) (q : Packet) : State :=
  let body := (part q.data 0 q.bytes.toNat).drop 1
  let nonce := part body 4 32
  if !quoteForm body then s.relayPiece via 0 0 stFormat []
  else if s.quoteStatus ≠ stOk then s.relayPiece via 0 0 s.quoteStatus []
  else
    let b := s.quoteBody nonce
    ((chunksOf 511 40 b).foldl (fun t c => (t.1.relayPiece via 0 t.2 0 c, t.2 + c.length)) (s.rememberQuote nonce, 0)).1

/-- A reply body is whole: its certificates' lengths say so. -/
def quoteWhole (b : List Byte) : Bool := decide (868 ≤ b.length) && decide (868 + beAt b 864 2 + beAt b 866 2 ≤ b.length)

/-- A piece of a relayed reply reaches the manager; the whole body is returned unchanged (R341). -/
def State.quoteForManager (s : State) (q : Packet) : State :=
  match s.trz.relays.find? fun x => x.device == q.src with
  | none => s
  | some x =>
    let body := x.body ++ (part q.data 0 q.bytes.toNat).drop 1
    let rest := s.trz.relays.erase x
    if q.status ≠ 0 then
      ({ s with trz := { s.trz with relays := rest } } : State).replyStatus x.ring x.asker q.status.toNat
    else if quoteWhole body then
      ({ s with trz := { s.trz with relays := rest } } : State).reply x.ring x.asker 0 stOk 0 [] body
    else { s with trz := { s.trz with relays := s.trz.relays.map fun y => if y == x then { x with body := body } else y } }

/-- QUOTE_RELAY. -/
def execQuoteRelay (port : Fin 4) (p : Packet) (s : State) : Host.Outcome State Fault Refusal :=
  .next (s.trafficIn port kMessage p fun s => if s.isManager then s.quoteForManager p else s.quoteForWorker port p)

/-- QUOTE_RELAY_TIMEOUT: a device that has not answered within 1 s (R341). -/
def execQuoteRelayTimeout (device : Byte) (s : State) : Host.Outcome State Fault Refusal :=
  .next (match s.trz.relays.find? fun x => x.device == device with
    | some x =>
      ({ s with trz := { s.trz with relays := s.trz.relays.erase x } } : State).replyStatus x.ring x.asker stIncomplete
    | none => s)

/-! ## KEY_WRAP (R430) -/

/-- The body's fields of KEY_WRAP lie in range. -/
def wrapForm (b : List Byte) : Bool :=
  b.length == 452 && within 1 32 (leAt b 32 1) && ((part b 33 3).all fun x => x == 0) &&
    (part b (36 + leAt b 32 1) (32 - leAt b 32 1)).all fun x => x == 0

/-- What KEY_WRAP is answered with, and the CAK where it installs one (R430). -/
def State.wrapResult (s : State) (r : Fin 8) (e : Fin 8) (plain : Bool) (b : List Byte) : Nat × Option (BitVec 256) :=
  let x := epIx r e
  if !s.epSecured x then (stAccessRing, none)
  else if !([stLoaded, stRunning, stParking, stParked].contains (s.ringState r)) then (stRingState, none)
  else if !s.keyReady then (stBusy, none)
  else if s.fld (.trsEpStatus x) F.trsEpStatus_KEY_LIVE = 1 ∧ plain then (stAccessRing, none)
  else if !wrapForm b || !(s.sec.quotes.contains (b.take 32)) then (stFormat, none)
  else match Config.oaepDecrypt s.seed s.keyClass (part b 68 384) with
    | some k => (stOk, some k)
    | none => (stFormat, none)

/-- A KEY_WRAP refused: KEY_REFUSED, and a count for FORMAT (R430, R440). -/
def State.refuseWrap (s : State) (status : Nat) : State :=
  let s1 := s.setFld .secEvent F.secEvent_KEY_REFUSED 1
  if status = stFormat then s1.bump .secKeyRefused F.secKeyRefused_COUNT 1 else s1

/-- A CAK installed with its CKN; an earlier one is replaced, and MKA starts anew (R301, R430). -/
def State.installCak (s : State) (x : Fin 64) (ckn : List Byte) (k : BitVec 256) : State :=
  ((s.onEp x fun p => { p with cak := some (beBytes 32 k.toNat, ckn), pn := 1 }).setFld (.trsEpStatus x)
    F.trsEpStatus_KEY_LIVE 0).setFld .secEvent F.secEvent_KEY_INSTALLED 1

/-- A KEY_WRAP taken. -/
def State.keyWrapNow (s : State) (r : Fin 8) (a : Asker) (plain : Bool) (b : List Byte) : State :=
  match s.wrapResult r a.endpoint plain b with
  | (_, some k) => (s.replyStatus r a stOk).installCak (epIx r a.endpoint) (part b 36 (leAt b 32 1)) k
  | (status, none) => (s.refuseWrap status).replyStatus r a status

/-! ## Requests of SEC_CTRL (R426, R436 to R440) -/

/-- The causes of SEC_RESULT (R440). -/
abbrev scFormat : Nat := 1
abbrev scSignature : Nat := 2
abbrev scDevice : Nat := 3
abbrev scEpoch : Nat := 4
abbrev scLifecycle : Nat := 5
abbrev scAccess : Nat := 6
abbrev scRange : Nat := 7
abbrev scState : Nat := 8
abbrev scBusy : Nat := 9
abbrev scSupply : Nat := 10

/-- The operations of SEC_CTRL (R440). -/
abbrev opToken : Nat := 1
abbrev opEndDebug : Nat := 2
abbrev opDeploy : Nat := 3
abbrev opReturn : Nat := 4
abbrev opScrap : Nat := 5
abbrev opStandby : Nat := 6
abbrev opDeep : Nat := 7

/-- SEC_RESULT (R440). -/
def State.secResult (s : State) (state op cause : Nat) : State :=
  s.setReg .secResult (BitVec.ofNat 32 (state * 2 ^ 30 + op * 2 ^ 26 + cause * 2 ^ 22))

/-! ## Tokens (R434 to R437) -/

/-- A token's fields and layout hold (R434); `t` holds the body and the signature blocks. -/
def tokenForm (t : List Byte) : Bool :=
  let level := leAt t 6 1
  let rings := leAt t 7 1
  leAt t 0 4 == 0x4C394454 && leAt t 4 2 == 1 && within 1 4 level && (if level ≤ 2 then rings != 0 else rings == 0) &&
    (decide (leAt t 0x34 1 ≤ 7) || leAt t 0x34 1 == 0xFF) && decide (leAt t 0x35 1 ≤ 7) &&
    (leAt t 0x34 1 != 0xFF || leAt t 0x35 1 == 0) && within 1 2 (leAt t 0x36 1) && ((part t 0x37 9).all fun b => b == 0) &&
    (List.range (leAt t 0x36 1)).all fun i => sigLayout (part t (64 + 1600 * i) 1600)

/-- The signature blocks of a token. -/
def tokenBlocks (t : List Byte) : List (List Byte) := (List.range (leAt t 0x36 1)).map fun i => part t (64 + 1600 * i) 1600

/-- A block of a token verifies over its body; the INT_SCOPE bits concern containers alone (R348, R434). -/
def tokenVerifies (b body : List Byte) : Bool :=
  rootKnown b &&
    if leAt b 0 1 = 0 then Config.pssVerify (part b 4 384) body (part b 0x490 384)
    else Config.pssVerify (part b 4 384) (part b 0x188 0x188) (part b 0x310 384) &&
      Config.pssVerify (part b 0x188 384) body (part b 0x490 384)

/-- The signatures that R435 asks for: every block verifies under a live root; a vendor root, the integrator key of the
running DEPLOYMENT, or both, by lifecycle and LEVEL. -/
def State.tokenSigned (s : State) (t : List Byte) : Bool :=
  let l := tokenBlocks t
  let vendor := l.any fun b => leAt b 0 1 == 0
  let owner := l.any fun b => (integratorKey b).any fun k => s.boot.deployKeys.contains k
  let level := leAt t 6 1
  (l.all fun b => tokenVerifies b (t.take 64) && rootLive s.storeRec.revoked b) &&
    match s.lifecycle with
    | 1 => vendor
    | 2 => if level ≤ 2 then vendor || owner else vendor && owner
    | 3 => vendor && level != 4
    | _ => false

/-- KEY_ID: the class-0 modulus followed by its exponent (R419, R434). -/
def State.keyId (s : State) : List Byte := shaBytes (beBytes 384 (Config.attestModulus s.seed 0).toNat ++ leBytes 4 65537)

/-- The debug endpoint that a token names is a VALID endpoint (R434, R436). -/
def State.tokenEndpoint (s : State) (t : List Byte) : Bool :=
  if h : leAt t 0x34 1 < 8 then s.epBound (epIx ⟨leAt t 0x34 1, h⟩ (epFin (leAt t 0x35 1))) else true

/-- The CAUSE of a staged token, in the order of R436 below RANGE; `returning` inside a RETURN request. -/
def State.tokenCause (s : State) (t : List Byte) (returning : Bool) : Nat :=
  if !tokenForm t then scFormat
  else if !s.recordValid || leAt t 8 8 != s.serial || part t 0x10 32 != s.keyId then scDevice
  else if leAt t 0x30 4 ≠ s.storeRec.debugEpoch then scEpoch
  else if !s.tokenSigned t then scSignature
  else if (leAt t 6 1 == 4) != returning || !s.tokenEndpoint t then scLifecycle
  else 0

/-- A staged token read: its body, then its signature blocks. -/
def State.stagedToken (s : State) (who : Who) : State × Option (List Byte) :=
  let a := (s.reg64 (.secTokenSrc 0) (.secTokenSrc 1)).toNat
  match s.staged who a 64 with
  | (s1, none) => (s1, none)
  | (s1, some b) => if within 1 2 (leAt b 0x36 1) then s1.staged who a (64 + 1600 * leAt b 0x36 1) else (s1, some b)

/-- SEC_RING_DEBUG of a ring with a level and a debug endpoint (R440). -/
def debugWord (level ring ep : Nat) : Word := BitVec.ofNat 32 (level * 2 ^ 30 + ring % 16 * 2 ^ 26 + ep % 8 * 2 ^ 23)

/-- A token in effect: the levels and the debug endpoint; keys are zeroised where a level rises to INVASIVE, all of them
under FULL (R432, R436). -/
def State.installTokenNow (s : State) (t : List Byte) : State :=
  let level := leAt t 6 1
  let s1 := if level = 3 then
      ((List.finRange 8).foldl (fun s r => s.setReg (.secRingDebug r)
        (debugWord (s.fld (.secRingDebug r) F.secRingDebug_LEVEL) (leAt t 0x34 1) (leAt t 0x35 1)))
        (s.setFld .secStatus F.secStatus_FULL 1)).zeroAllKeys
    else (List.finRange 8).foldl (fun s r =>
      if bitAt (leAt t 7 1) r.val then
        let rises := level == 2 && decide (s.debugLevel r < 2)
        let s1 := s.setReg (.secRingDebug r) (debugWord level (leAt t 0x34 1) (leAt t 0x35 1))
        if rises then s1.zeroKeys r else s1
      else s) s
  (s1.forgetQuotes.setFld .secEvent F.secEvent_TOKEN_INSTALLED 1).secResult 2 opToken 0

/-- INSTALL_TOKEN: from the internal endpoint, those of R359, and those of a ring that RINGS names (R436). -/
def State.tokenRequest (s : State) (who : Who) : State × Nat :=
  match s.stagedToken who with
  | (s1, none) => (s1.secResult 2 opToken scRange, stOk)
  | (s1, some t) =>
    let named : Bool := match who with
      | .ep g _ => s.mayManage who || bitAt (leAt t 7 1) g.val
      | _ => true
    if !named then (s1.secResult 2 opToken scAccess, stAccessRing)
    else match s1.tokenCause t false with
      | 0 => (s1.installTokenNow t, stOk)
      | cause => (s1.secResult 2 opToken cause, stOk)

/-- A level has ended: the quotes are forgotten (R429, R440). -/
def State.debugEnded (s : State) : State := s.forgetQuotes.setFld .secEvent F.secEvent_DEBUG_ENDED 1

/-- A ring's own level ended; under FULL its debug endpoint stays (R433, R437). -/
def State.endLevel (s : State) (r : Fin 8) : State :=
  if s.fld (.secRingDebug r) F.secRingDebug_LEVEL = 0 then s
  else (if s.debugFull then s.setFld (.secRingDebug r) F.secRingDebug_LEVEL 0 else s.setReg (.secRingDebug r) 0).debugEnded

/-- Every level ended, FULL too; in Blank FULL stays (R433, R437). -/
def State.endAllLevels (s : State) : State :=
  let s1 := (List.finRange 8).foldl State.endLevel s
  if s.debugFull ∧ s.lifecycle ≠ lcBlank then
    ((List.finRange 8).foldl (fun s r => s.setReg (.secRingDebug r) 0) (s1.setFld .secStatus F.secStatus_FULL 0)).debugEnded
  else s1

/-- END_DEBUG: from any endpoint that may install (R437). -/
def State.endDebugRequest (s : State) (who : Who) (arg : Fin 16) : State × Nat :=
  let own : Bool := match who with
    | .ep g _ => g.val == arg.val
    | _ => true
  if !(s.mayManage who || own) then (s.secResult 2 opEndDebug scAccess, stAccessRing)
  else if arg.val = 15 then (s.endAllLevels.secResult 2 opEndDebug 0, stOk)
  else if h : arg.val < 8 then ((s.endLevel ⟨arg.val, h⟩).secResult 2 opEndDebug 0, stOk)
  else (s.secResult 2 opEndDebug scFormat, stOk)

/-! ## The lifecycle (R425, R426) -/

/-- Every ring stops (R52, R426). -/
def State.stopRings (s : State) : State := (List.finRange 8).foldl (fun s r => if stoppable (s.ringState r) then s.stopNow r else s) s

/-- The lifecycle written: quotes are forgotten, LIFECYCLE_CHANGED is set (R426, R429, R440). -/
def State.setLifecycle (s : State) (lc : Nat) : State :=
  ((s.storeWrite { s.storeRec with lifecycle := lc }).showStore.forgetQuotes).setFld .secEvent F.secEvent_LIFECYCLE_CHANGED 1

/-- A lifecycle request in effect: DEPLOY, RETURN, SCRAP (R426, R432). -/
def State.lifecycleNow (s : State) (op : Nat) : State :=
  if op = opDeploy then (s.setLifecycle lcDeployed).secResult 2 op 0
  else if op = opReturn then ((s.stopRings.endAllLevels.zeroAllKeys).setLifecycle lcReturned).secResult 2 op 0
  else ((s.stopRings.zeroAllKeys.setLifecycle lcScrapped).secResult 2 op 0).restartDevice.startUp

/-- A lifecycle request made, or held while VDD_AON is low (R423, R426). -/
def State.lifecycleOrHold (s : State) (op : Nat) : State :=
  if s.sec.aonLow then
    let s1 := (s.setFld .secEvent F.secEvent_STORE_HELD 1).secResult 1 op 0
    { s1 with sec := { s1.sec with request := some ⟨op⟩ } }
  else s.lifecycleNow op

/-- The CAUSE of a lifecycle request, by state and condition (R426); RETURN reads its staged token. -/
def State.lifecycleCause (s : State) (who : Who) (op : Nat) : State × Nat :=
  let lc := s.lifecycle
  if op = opDeploy then
    (s, if lc ≠ lcProvisioned then scLifecycle else if s.inRecovery ∨ (s.header s.runningSlot).state ≠ 3 then scState else 0)
  else if op = opReturn then
    if lc ≠ lcProvisioned ∧ lc ≠ lcDeployed then (s, scLifecycle)
    else match s.stagedToken who with
      | (s1, none) => (s1, scRange)
      | (s1, some t) => (s1, s1.tokenCause t true)
  else (s, if lc = lcProvisioned ∨ lc = lcDeployed ∨ lc = lcReturned then 0 else scLifecycle)

/-- DEPLOY, RETURN, SCRAP by an endpoint. -/
def State.lifecycleRequest (s : State) (who : Who) (op : Nat) : State × Nat :=
  if !s.mayManage who then (s.secResult 2 op scAccess, stAccessRing)
  else if s.sec.request.isSome then (s.secResult 2 op scBusy, stOk)
  else match s.lifecycleCause who op with
    | (s1, 0) => (s1.lifecycleOrHold op, stOk)
    | (s1, cause) => (s1.secResult 2 op cause, stOk)

/-- SEC_REQUEST_TIMEOUT: a request held for 10 s ends with CAUSE SUPPLY (R426). -/
def execSecRequestTimeout (s : State) : Host.Outcome State Fault Refusal :=
  .next (match s.sec.request with
    | some q => ({ s with sec := { s.sec with request := none } } : State).secResult 2 q.op scSupply
    | none => s)

/-- The held store writes go on when VDD_AON is back: a lifecycle request, a confirmation, a start (R358, R423). -/
def State.storeResumes (s : State) : State :=
  let s1 := { s with sec := { s.sec with aonLow := false } }
  let s2 := match s1.sec.request with
    | some q => ({ s1 with sec := { s1.sec with request := none } } : State).lifecycleNow q.op
    | none => s1
  let s3 := if s2.boot.confirmStep = 1 then s2.confirmFrom else s2
  if s3.boot.phase = .romHeld ∧ s3.boot.owesEpoch then s3.romBoot else s3

/-- VDD_AON_STORE_HOLD. -/
def execVddAonStoreHold (below : Bool) (s : State) : Host.Outcome State Fault Refusal :=
  .next (if below then { s with sec := { s.sec with aonLow := true } } else s.storeResumes)

/-! ## Power states (R438, R439, R474) -/

/-- A ring is running, parking, loading or stopping. -/
def State.ringsBusy (s : State) : Bool :=
  (List.finRange 8).any fun r => [stRunning, stParking, stLoading, stStopping].contains (s.ringState r)

/-- POWER of SEC_STATUS outside Standby: Ring-park when a ring is PARKED and none is busy (R438). -/
def State.powerShown (s : State) : Nat :=
  if s.inStandby then 2
  else if !s.ringsBusy && (List.finRange 8).any fun r => s.ringState r == stParked then 1 else 0

/-- A confirmation, an install or a record write is in progress (R438). -/
def State.writesBusy (s : State) : Bool :=
  s.fld .bootStatus F.bootStatus_CONFIRMING == 1 || s.boot.install.isSome || s.flash.record.isSome

/-- Standby entered (R438). -/
def State.standbyNow (s : State) : State := (s.idlePorts.setFld .secStatus F.secStatus_POWER 2).secResult 2 opStandby 0

/-- Run or Ring-park resumes (R438). -/
def State.wakeUp (s : State) : State := s.setFld .secStatus F.secStatus_POWER 0

/-- STANDBY by an endpoint of R359 (R438, R439; log 65). -/
def State.standbyRequest (s : State) (who : Who) : State × Nat :=
  if !s.mayManage who then (s.secResult 2 opStandby scAccess, stAccessRing)
  else if s.lifecycle = lcBlank then (s.secResult 2 opStandby scLifecycle, stOk)
  else if s.ringsBusy || s.writesBusy || s.updBusy then (s.secResult 2 opStandby scState, stOk)
  else (s.standbyNow, stOk)

/-- Deep standby entered; the DRAM controllers are off (R194, R432, R437, R438, R474): every ring stops, keys and levels end, DRAM contents are not kept. -/
def State.deepNow (s : State) : State :=
  let s1 := ((s.idlePorts.stopAll.zeroAllKeys.endAllLevels.forgetQuotes.setFld .ddrStatus F.ddrStatus_READY 0).setReg .ddrConfig
    0).setFld .bootNet F.bootNet_ARMED 0
  { (s1.secResult 2 opDeep 0) with
    dram := {}
    boot := { s1.boot with phase := .deepStandby, owesEpoch := true, netLeft := 0 }
    pins := { s1.pins with dramReset := true, dstby := true, lockAlert := false } }

/-- DEEP_STANDBY by an endpoint of R359 (R438, R439; log 65). -/
def State.deepRequest (s : State) (who : Who) : State × Nat :=
  if !s.mayManage who then (s.secResult 2 opDeep scAccess, stAccessRing)
  else if s.lifecycle = lcBlank then (s.secResult 2 opDeep scLifecycle, stOk)
  else if s.writesBusy then (s.secResult 2 opDeep scBusy, stOk)
  else (s.deepNow, stOk)

/-! ## SEC_CTRL (R440) -/

/-- SEC_CTRL by an endpoint: OP and ARG; other operations are ignored. -/
def State.secControl (s : State) (who : Who) (op : Nat) (arg : Fin 16) : State × Nat :=
  if op = opToken then s.tokenRequest who
  else if op = opEndDebug then s.endDebugRequest who arg
  else if op = opDeploy ∨ op = opReturn ∨ op = opScrap then s.lifecycleRequest who op
  else if op = opStandby then s.standbyRequest who
  else if op = opDeep then s.deepRequest who
  else (s, stOk)

/-- INSTALL_TOKEN. -/
def execInstallToken (who : Who) (s : State) : Host.Outcome State Fault Refusal := .next (s.secControl who opToken 0).1

/-- END_DEBUG. -/
def execEndDebug (arg : Fin 16) (who : Who) (s : State) : Host.Outcome State Fault Refusal :=
  .next (s.secControl who opEndDebug arg).1

/-- DEPLOY. -/
def execDeploy (who : Who) (s : State) : Host.Outcome State Fault Refusal := .next (s.secControl who opDeploy 0).1

/-- RETURN. -/
def execReturnDevice (who : Who) (s : State) : Host.Outcome State Fault Refusal := .next (s.secControl who opReturn 0).1

/-- SCRAP. -/
def execScrap (who : Who) (s : State) : Host.Outcome State Fault Refusal := .next (s.secControl who opScrap 0).1

/-- STANDBY. -/
def execStandby (who : Who) (s : State) : Host.Outcome State Fault Refusal := .next (s.secControl who opStandby 0).1

/-- DEEP_STANDBY. -/
def execDeepStandby (who : Who) (s : State) : Host.Outcome State Fault Refusal := .next (s.secControl who opDeep 0).1

end Sys2Proof.Machine
end

