-- ==== Sys2Proof/Machine/Shown.lean ====
section
/-! DEFINITION. What a read of the control space returns: the stored word, with the fields that hardware derives from the
rest of the state (R80, R138, R139, R173, R213, R221, R238, R280, R324, R368, R417, R440, R456, R457). -/

namespace Sys2Proof.Machine

/-- A word with fields replaced, in order. -/
def putAllFields (w : Word) (l : List (Fld × Nat)) : Word := l.foldl (fun w p => p.1.put w p.2) w

/-- Bits of a Nat by position. -/
def bitsOf (n : Nat) (p : Nat → Bool) : Nat := ((List.range n).filter p).foldl (fun v i => v + 2 ^ i) 0

/-! ## Cores -/

/-- A unit waits, with a kind that `p` takes. -/
def waitsFor (w : Option Wait) (p : WaitKind → Bool) : Bool := (w.map fun x => p x.kind).getD false

/-- A queue's head waits on a flag. -/
def flagWait (q : EngineQueue) : Bool := waitsFor q.wait fun k => k == .flag

/-- The gate holds a queue's head. -/
def gateWait (q : EngineQueue) : Bool := waitsFor q.wait fun k => k != .flag

/-- A sequencer waits on a POP, a PUSH or a full queue. -/
def tokenWait (q : Sequencer) : Bool := waitsFor q.wait fun k => k == .dataQueue || k == .fullQueue

/-- A DRAIN transfers to the receive entry in a slot: in the eight slots after its issue (R72, R73). -/
def transferring (u : Nat) (e : RxEntry) : Bool := e.held && decide (u < e.readable) && decide (e.readable ≤ u + 8)

/-- CORE_ARRAY_MAC_SLOTS without the slots that a STEP has still to occupy (R80). -/
def macShown (k : Core) (total : DWord) : DWord := total - BitVec.ofNat 64 (min total.toNat (k.macUntil - 1 - k.slot))

/-- CORE_ARRAY_STATUS (R80). -/
def arrayShown (k : Core) (w : Word) : Word :=
  putAllFields w
    [(F.coreArrayStatus_SET_POISON, (settle k.slot k).setPoison.toNat),
     (F.coreArrayStatus_RX_FREE, (k.rx.toList.filter fun e => !e.held && decide (e.free ≤ k.slot)).length),
     (F.coreArrayStatus_LOAD_VALID, bitNat (k.latchValid && decide (k.latchFrom ≤ k.slot))),
     (F.coreArrayStatus_DRAIN_BUSY, bitNat (k.rx.toList.any (transferring k.slot))),
     (F.coreArrayStatus_HELD, bitNat (gateWait k.queues[qArray])),
     (F.coreArrayStatus_ACTIVE, bitNat (decide (k.slot < k.pipeUntil)))]

/-- CORE_SEQ_STATUS (R138); `active` while an invocation is in progress. -/
def seqShown (k : Core) (active : Bool) (w : Word) : Word :=
  let q (i : Nat) : EngineQueue := k.queues[queueFin i]
  putAllFields w
    [(F.coreSeqStatus_EMPTY, bitsOf 5 fun i => (q i).tags.isEmpty),
     (F.coreSeqStatus_WAITING, bitsOf 5 fun i => flagWait (q i)),
     (F.coreSeqStatus_HELD, bitsOf 5 fun i => decide (3 ≤ i) && gateWait (q i)),
     (F.coreSeqStatus_EXEC_WAIT, bitNat (tokenWait k.execute)),
     (F.coreSeqStatus_ACCESS_WAIT, bitNat (tokenWait k.access)),
     (F.coreSeqStatus_FLAG_OVERRUN, bitNat ((flagsAfter k).2 || F.coreSeqStatus_FLAG_OVERRUN.get w == 1)),
     (F.coreSeqStatus_ACTIVE, bitNat active)]

/-- An invocation is in progress on the core (R138). -/
def State.coreActive (s : State) (c : Fin 16) : Bool :=
  match s.ringOfCore c with
  | some r => (s.ring r).current.isSome
  | none => false

/-- The tag at the head of a queue; 0 while it is empty (R138). -/
def headTag (q : EngineQueue) : Word := q.tags.headD 0

/-! ## Rings -/

/-- RING_SEQ_STATUS (R139). -/
def ringSeqShown (k : Ring) (w : Word) : Word :=
  putAllFields w
    [(F.ringSeqStatus_RUNNING, bitNat k.current.isSome),
     (F.ringSeqStatus_SLOT, (k.current.map fun i => i.slot).getD 0),
     (F.ringSeqStatus_PENDING, k.waiting.length)]

/-- RING_HINT: the highest class that a core of the ring has in force (R135, R139). -/
def State.hintShown (s : State) (r : Fin 8) (w : Word) : Word :=
  let l := (s.coresOf r).filterMap fun c => (s.core c).hint.map fun h => h.cls
  putAllFields w [(F.ringHint_ACTIVE, bitNat !l.isEmpty), (F.ringHint_CLASS, l.foldl max 0)]

/-- The counts of a sequence context that is in use (R221); a page on the move is in a frame. -/
def State.ctxShown (s : State) (x : Fin 4096) (k : Fin 16) : Word :=
  let count (p : DWord → Bool) : Word :=
    if s.ctxState x = ctxFree then 0 else BitVec.ofNat 32 (s.pagesWhere x p).length
  let framed (e : DWord) : Bool := ptState e == ptResident || ptState e == ptMoving
  if k.val = 7 then count fun e => ptState e != ptAbsent
  else if k.val = 8 then count framed
  else if k.val = 9 then count fun e => framed e && ptTier e
  else if k.val = 10 then count fun e => ptState e == ptSwapped
  else s.reg (.ringCtxDesc x k)

/-- The state code of a result slot (R324). -/
def slotCode : Option ResultSlot → Nat
  | none => 0
  | some v => match v.state with
    | .empty => 0
    | .pending => 1
    | .ready => 2
    | .taken => 3

/-- TRS_SLOT_STATE: sixteen slots (R324). -/
def State.slotsShown (s : State) (r : Fin 8) (w : Nat) : Word :=
  BitVec.ofNat 32 ((List.range 16).foldl (fun n j => n + slotCode (slotOf (s.ring r) (16 * w + j)) * 4 ^ j) 0)

/-! ## Streams -/

/-- FILLED: the buffers whose release flag is clear (R280). -/
def State.filledShown (s : State) (x : Fin 64) : Nat :=
  match s.streamRing x with
  | some r => ((s.feReleases x).filter fun n => !s.ringFlag r n).length
  | none => 0

/-! ## Fault queues (R456) -/

/-- Word `w` of the head record; 0 while the queue is empty. -/
def recordShown (l : List FaultRec) (w : Nat) : Word :=
  match l with
  | [] => 0
  | f :: _ => BitVec.ofNat 32 (leAt (recordBytes f) (4 * w) 4)

/-- HELD and FAULTING of a queue. -/
def statusShown (l : List FaultRec) (w : Word) : Word :=
  putAllFields w [(F.errRingFaultStatus_HELD, l.length), (F.errRingFaultStatus_FAULTING, bitNat (l.any recFaulting))]

/-! ## A register's value -/

/-- The value of a register as a read returns it. -/
def State.regValue (s : State) (g : Reg) : Word :=
  let w := s.reg g
  match g with
  | .coreArrayStatus c => arrayShown (s.core c) w
  | .coreArrayMacSlots c k => BitVec.ofNat 32
      ((macShown (s.core c) (s.reg64 (.coreArrayMacSlots c 0) (.coreArrayMacSlots c 1))).toNat / 2 ^ (32 * k.val))
  | .coreQuantStatus c => F.coreQuantStatus_BUSY.put w (bitNat (decide ((s.core c).slot < (s.core c).quantUntil)))
  | .coreSeqStatus c => seqShown (s.core c) (s.coreActive c) w
  | .coreHeadTag c k => headTag (s.queue c k)
  | .coreFlags c k => BitVec.ofNat 32 ((flagsAfter (s.core c)).1.toNat / 2 ^ (32 * k.val))
  | .coreMemStatus c => F.coreMemStatus_GATHER_USED.put w (s.core c).gather.length
  | .coreUnfoldStatus c => F.coreUnfoldStatus_BUSY.put w (bitNat (s.core c).unfoldBusy.isSome)
  | .ringSeqStatus r => ringSeqShown (s.ring r) w
  | .ringFlags r k => BitVec.ofNat 32 ((s.ring r).flags.toNat / 2 ^ (32 * k.val))
  | .ringHint r => s.hintShown r w
  | .ringCtxStatus x => F.ringCtxStatus_PRIORITY.put w (s.ctxPriority x)
  | .ringCtxFree r => F.ringCtxFree_FRAMES.put w (s.freeFrames r false).length
  | .ringCtxFreeMwy r => F.ringCtxFreeMwy_FRAMES.put w (s.freeFrames r true).length
  | .ringCtxDesc x k => s.ctxShown x k
  | .feStreamStatus x => F.feStreamStatus_FILLED.put w (s.filledShown x)
  | .trsEpStatus e => F.trsEpStatus_REASSEMBLY.put w (s.ep e).reasm.length
  | .trsSlotState r k => s.slotsShown r k.val
  | .bootNet => F.bootNet_REMAIN.put w (s.boot.netLeft / 1000000)
  | .pwrRingStatus r => F.pwrRingStatus_FREQ_MHZ.put w (s.freqShown r)
  | .secStatus => F.secStatus_POWER.put w s.powerShown
  | .secRingDebug r => F.secRingDebug_KEYS_LIVE.put w (s.keysLive r)
  | .dbgAccStatus r => F.dbgAccStatus_HALTED.put w (bitNat (s.ring r).halted)
  | .errDevFaultRecord k => recordShown s.devFaults k.val
  | .errDevFaultStatus => statusShown s.devFaults w
  | .errRingFaultRecord r k => recordShown (s.ring r).faults k.val
  | .errRingFaultStatus r => statusShown (s.ring r).faults w
  | _ => w

end Sys2Proof.Machine
end

