-- ==== Sys2Proof/Machine/Control.lean ====
section
/-! DEFINITION. Reads and writes of the control space (R6 to R11, R51, R56, R309 to R313): who may read or write which
register, when it takes a write, what a write does, and the writes that RESUME performs. -/

namespace Sys2Proof.Machine

/-! ## 64-bit quantities (R11) -/

/-- The 64-bit field of a descriptor that word `k` belongs to, of those that begin at the words listed. -/
def fieldPair {n : Nat} (word : Fin n → Reg) (k : Fin n) (lows : List (Fin n × Fin n)) : Option (Bool × Reg × Reg) :=
  (lows.find? fun p => p.1 == k || p.2 == k).map fun p => (p.2 == k, word p.1, word p.2)

/-- The low and the high word of the 64-bit quantity that a register is a word of, and whether it is the high one: the
registers that the tables call 64-bit, and the 8-byte fields of descriptors, which are OPAQUE (R221), BUF_BASE and
VIEW_BASE (R259), BUF_BASE (R282), BUF_BASE and CURSOR (R314). -/
def pairOf : Reg → Option (Bool × Reg × Reg)
  | .coreArrayMacSlots c k => some (k == 1, .coreArrayMacSlots c 0, .coreArrayMacSlots c 1)
  | .coreFlags c k => some (k == 1, .coreFlags c 0, .coreFlags c 1)
  | .ddrErrAddr k => some (k == 1, .ddrErrAddr 0, .ddrErrAddr 1)
  | .trsEpPeer e k => some (k == 1, .trsEpPeer e 0, .trsEpPeer e 1)
  | .trzWindowBase w k => some (k == 1, .trzWindowBase w 0, .trzWindowBase w 1)
  | .bootInstallSrc k => some (k == 1, .bootInstallSrc 0, .bootInstallSrc 1)
  | .flsRecordSrc k => some (k == 1, .flsRecordSrc 0, .flsRecordSrc 1)
  | .pwrUpdateSrc k => some (k == 1, .pwrUpdateSrc 0, .pwrUpdateSrc 1)
  | .secTokenSrc k => some (k == 1, .secTokenSrc 0, .secTokenSrc 1)
  | .dbgAccAddr r k => some (k == 1, .dbgAccAddr r 0, .dbgAccAddr r 1)
  | .ringCtxDesc x k => fieldPair (.ringCtxDesc x) k [(4, 5)]
  | .feStreamDesc x k => fieldPair (.feStreamDesc x) k [(6, 7), (10, 11)]
  | .smpChanDesc c k => fieldPair (.smpChanDesc c) k [(6, 7)]
  | .trsRstreamDesc t k => fieldPair (.trsRstreamDesc t) k [(2, 3), (6, 7)]
  | _ => none

/-- A shadow copy or a held word of an address, and the list without it. -/
def takeWord (a : Nat) (l : List (Nat × Word)) : Option Word × List (Nat × Word) :=
  ((l.find? fun p => p.1 == a).map fun p => p.2, l.filter fun p => p.1 != a)

/-- A register read: the low word of a pair latches the high one, the next read of the high word returns the copy (R11). -/
def State.readPair (s : State) (g : Reg) : State × Word :=
  match pairOf g with
  | none => (s, s.regValue g)
  | some (false, _, hi) =>
    ({ s with shadows := (hi.addr, s.regValue hi) :: (takeWord hi.addr s.shadows).2 }, s.regValue g)
  | some (true, _, hi) =>
    match takeWord hi.addr s.shadows with
    | (some v, rest) => ({ s with shadows := rest }, v)
    | (none, _) => (s, s.regValue g)

/-! ## What a write stores (R7, R8) -/

/-- The word after a write: RW bits take the value, W1C bits are cleared by a 1, every other bit stays. -/
def writtenWord (g : Reg) (old v : Word) : Word := (old &&& ~~~(g.rwMask ||| (v &&& g.w1cMask))) ||| (v &&& g.rwMask)

/-- A write stored. -/
def State.storeWord (s : State) (g : Reg) (v : Word) : State := s.setReg g (writtenWord g (s.reg g) v)

/-- A write stored; a pair takes effect when its high word is written (R11). -/
def State.storePair (s : State) (g : Reg) (v : Word) : State :=
  match pairOf g with
  | none => s.storeWord g v
  | some (false, lo, _) => { s with heldLow := (lo.addr, v) :: (takeWord lo.addr s.heldLow).2 }
  | some (true, lo, _) =>
    let (low, rest) := takeWord lo.addr s.heldLow
    let s1 := match low with
      | some x => s.storeWord lo x
      | none => s
    ({ s1 with heldLow := rest } : State).storeWord g v

/-- The value replaced where the table says what else is stored for it (R195, R324, R416, R417, R457). -/
def settled (g : Reg) (v : Word) : Word :=
  let fix (f : Fld) (bad : Nat → Bool) (n : Nat) (w : Word) : Word := if bad (f.get w) then f.put w n else w
  match g with
  | .ddrScrubCtrl => fix F.ddrScrubCtrl_PERIOD (fun n => n == 0 || decide (168 < n)) 24 v
  | .trsEpConfig _ => fix F.trsEpConfig_CHUNK (fun n => n == 3) 0 v
  | .pwrCap =>
    fix F.pwrCap_CAP_W (fun n => decide (150 < n)) 150 (fix F.pwrCap_CAP_W (fun n => decide (n < 40)) 40
      (fix F.pwrCap_WARN_CAP_W (fun n => !within 40 150 n) 40 v))
  | .pwrRingCtrl _ =>
    fix F.pwrRingCtrl_MODE (fun n => n == 3) 0
      (fix F.pwrRingCtrl_FIXED_MHZ (fun n => !(within 400 2000 n && n % 25 == 0)) 2000 v)
  | .dbgTraceCtrl _ =>
    fix F.dbgTraceCtrl_MODE (fun n => decide (5 ≤ n)) 0 (fix F.dbgTraceCtrl_SYNC_LOG (fun n => n == 7) 6 v)
  | _ => v

/-! ## Rights (R56, R80, R311) -/

/-- Who may write a register: the endpoints of a ring, or of no ring; those of R359; the booth; the booth and the internal
endpoint; the debug endpoint of a ring; any endpoint, with the request's own check. -/
inductive Right where
  | ring (r : Option (Fin 8))
  | manage
  | booth
  | internal
  | debug (r : Fin 8)
  | any
  deriving DecidableEq, Repr

/-- The ring of a sequence context (R221). -/
def State.ctxRing (s : State) (x : Fin 4096) : Option (Fin 8) := (List.finRange 8).find? fun r => s.ctxOwned r x.val

/-- The ring that owns a slice (R174). -/
def State.sliceOwner (s : State) (m : Fin 8) : Option (Fin 8) :=
  (List.finRange 8).find? fun r => (s.ring r).bound && (s.slicesOf r).contains m.val

/-- The ring of a codec session: the writer's while it is CLOSED (R274; log 52). -/
def State.sessionRing (s : State) (who : Who) (c : Fin 16) : Option (Fin 8) :=
  if s.cdcState c = cdcClosed then s.whoRing who else some (s.cdcRing c)

/-- The ring of a sample channel: the writer's while it is CLOSED (R281; log 52). -/
def State.chanRing (s : State) (who : Who) (c : Fin 16) : Option (Fin 8) :=
  if s.smpState c = smpClosed then s.whoRing who else some (s.smpRing c)

/-- Who may write a register (R56, R80, R103, R138, R139, R173, R174, R195, R213, R238, R280, R295, R323, R324, R344, R345,
R368, R387, R416, R417, R440, R456, R457). -/
def State.writeRight (s : State) (who : Who) : Reg → Right
  | .coreColwidth c => .ring (s.ringOfCore c)
  | .coreArrayStatus c => .ring (s.ringOfCore c)
  | .coreArrayMacSlots c _ => .ring (s.ringOfCore c)
  | .coreArrayHoldOperand c => .ring (s.ringOfCore c)
  | .coreArrayHoldDrain c => .ring (s.ringOfCore c)
  | .coreArrayPoisonTag c => .ring (s.ringOfCore c)
  | .coreQuantStatus c => .ring (s.ringOfCore c)
  | .coreQuantSaturated c => .ring (s.ringOfCore c)
  | .coreQuantRedone c => .ring (s.ringOfCore c)
  | .coreQuantEventTag c => .ring (s.ringOfCore c)
  | .coreSeqStatus c => .ring (s.ringOfCore c)
  | .coreHeadTag c _ => .ring (s.ringOfCore c)
  | .coreVecHold c => .ring (s.ringOfCore c)
  | .coreFlags c _ => .ring (s.ringOfCore c)
  | .coreMemStatus c => .ring (s.ringOfCore c)
  | .coreMemFrozen c => .ring (s.ringOfCore c)
  | .coreMemWaitMax c _ => .ring (s.ringOfCore c)
  | .coreUnfoldStatus c => .ring (s.ringOfCore c)
  | .coreUnfoldPadBlocks c => .ring (s.ringOfCore c)
  | .coreUnfoldReadLines c => .ring (s.ringOfCore c)
  | .coreUnfoldErrTag c => .ring (s.ringOfCore c)
  | .ringManifestStatus r => .ring (some r)
  | .ringResources r => .ring (some r)
  | .ringControl r => .ring (some r)
  | .ringEvent r => .ring (some r)
  | .ringSeqStatus r => .ring (some r)
  | .ringFlags r _ => .ring (some r)
  | .ringFlagWrite r => .ring (some r)
  | .ringInvokeDropped r => .ring (some r)
  | .ringHint r => .ring (some r)
  | .ringMwyRedirect r => .ring (some r)
  | .ringCtxCtrl r => .ring (some r)
  | .ringCtxPool r _ => .ring (some r)
  | .ringCtxPoolMwy r => .ring (some r)
  | .ringCtxFree r => .ring (some r)
  | .ringCtxFreeMwy r => .ring (some r)
  | .ringCtxEvent r => .ring (some r)
  | .ringCtxPagesOut r => .ring (some r)
  | .ringCtxPagesIn r => .ring (some r)
  | .ringCtxDesc x _ => .ring (s.ctxRing x)
  | .ringCtxStatus x => .ring (s.ctxRing x)
  | .mwySliceStatus m => .ring (s.sliceOwner m)
  | .mwyWaitMax m _ => .ring (s.sliceOwner m)
  | .ddrConfig => .internal
  | .ddrStatus => .internal
  | .ddrScrubCtrl => .internal
  | .ddrErrAddr _ => .internal
  | .ddrErrInfo => .internal
  | .ddrErrCount0 _ => .internal
  | .ddrErrCount1 _ => .internal
  | .ddrEcsCount _ => .internal
  | .ddrWaitMax _ _ => .internal
  | .feRxStatus _ => .booth
  | .feRxDropped _ => .booth
  | .feStreamDesc x _ => .ring (s.streamRing x)
  | .feStreamCtrl x => if (s.streamRing x).isNone then .any else .ring (s.streamRing x)
  | .feStreamStatus x => .ring (s.streamRing x)
  | .feStreamDropped x => .ring (s.streamRing x)
  | .feStreamTsLate x => .ring (s.streamRing x)
  | .feIspParam x _ => .ring (s.streamRing x)
  | .cdcSessionDesc c _ => .ring (s.sessionRing who c)
  | .cdcSessionCtrl c => .ring (s.sessionRing who c)
  | .cdcSessionStatus c => .ring (s.sessionRing who c)
  | .cdcSessionWptr c => .ring (s.sessionRing who c)
  | .cdcSessionRptr c => .ring (s.sessionRing who c)
  | .cdcEncSkipped c => .ring (s.sessionRing who c)
  | .smpChanDesc c _ => .ring (s.chanRing who c)
  | .smpChanCtrl c => .ring (s.chanRing who c)
  | .smpChanStatus c => .ring (s.chanRing who c)
  | .smpChanCost c => .ring (s.chanRing who c)
  | .smpChanLastBudget c => .ring (s.chanRing who c)
  | .smpChanDelivered c => .ring (s.chanRing who c)
  | .smpChanRefused c => .ring (s.chanRing who c)
  | .smpChanLate c => .ring (s.chanRing who c)
  | .ethPortStatus _ => .booth
  | .ethPortCount _ _ => .booth
  | .trsEthertype => .booth
  | .trsIntBase => .booth
  | .trsEpConfig e => .ring (some (epRing e))
  | .trsEpStatus e => .ring (some (epRing e))
  | .trsEpPeer e _ => .ring (some (epRing e))
  | .trsEpCount e _ => .ring (some (epRing e))
  | .trsRstreamDesc t _ => .ring (some (rsRing t))
  | .trsRstreamCtrl t => .ring (some (rsRing t))
  | .trsRstreamStatus t => .ring (some (rsRing t))
  | .trsRstreamCount t _ => .ring (some (rsRing t))
  | .trsSlotState r _ => .ring (some r)
  | .trzSystemStatus => .booth
  | .trzSystemCtrl => if s.isManager then .any else .booth
  | .trzLagConfig => if s.isManager then .any else .booth
  | .trzDistribution _ => if s.isManager then .any else .booth
  | .trzLagEvent => .booth
  | .trzRemoteStatus => .booth
  | .trzPortStatus _ => .booth
  | .trzPortCount _ _ => .booth
  | .trzWindowBase w _ => .ring (s.windowOwner w)
  | .trzWindowLength w => .ring (s.windowOwner w)
  | .trzWindowPermit w _ => .ring (s.windowOwner w)
  | .trzWindowAttr w => .ring (s.windowOwner w)
  | .trzWindowCtrl w => .ring (s.windowOwner w)
  | .trzWindowStatus w => .ring (s.windowOwner w)
  | .trzWindowCount w _ => .ring (s.windowOwner w)
  | .secTokenSrc _ => .any
  | .secCtrl => .any
  | .dbgTraceCtrl c => .ring (s.ringOfCore c)
  | .dbgTraceDump c => .ring (s.ringOfCore c)
  | .dbgTraceWptr c => .ring (s.ringOfCore c)
  | .dbgTraceLost c => .ring (s.ringOfCore c)
  | .dbgRingCtrl r => .debug r
  | .dbgAccAddr r _ => .debug r
  | .dbgAccData r => .debug r
  | .dbgAccStatus r => .debug r
  | .errCoreEcc c => .ring (s.ringOfCore c)
  | .errSliceEcc m => .ring (s.sliceOwner m)
  | .errSliceScrub m => .ring (s.sliceOwner m)
  | .errRingFaultRecord r _ => .ring (some r)
  | .errRingFaultPop r => .ring (some r)
  | .errRingFaultStatus r => .ring (some r)
  | .errRingFaultCfg r => .ring (some r)
  | .pwrRingCtrl r => .ring (some r)
  | .pwrRingStatus r => .ring (some r)
  | .pwrRingThrottleUs r _ => .ring (some r)
  | .pwrRingExcursion r => .ring (some r)
  | _ => .manage

/-- The ring whose reads alone the defining chapter allows: cores, slices, windows (R80, R174, R345); DBG_ACC_DATA is the
debug endpoint's (R455). -/
def State.readLimit (s : State) : Reg → Option (Option (Fin 8))
  | .coreColwidth c => some (s.ringOfCore c)
  | .coreArrayStatus c => some (s.ringOfCore c)
  | .coreArrayMacSlots c _ => some (s.ringOfCore c)
  | .coreArrayHoldOperand c => some (s.ringOfCore c)
  | .coreArrayHoldDrain c => some (s.ringOfCore c)
  | .coreArrayPoisonTag c => some (s.ringOfCore c)
  | .coreQuantStatus c => some (s.ringOfCore c)
  | .coreQuantSaturated c => some (s.ringOfCore c)
  | .coreQuantRedone c => some (s.ringOfCore c)
  | .coreQuantEventTag c => some (s.ringOfCore c)
  | .coreSeqStatus c => some (s.ringOfCore c)
  | .coreHeadTag c _ => some (s.ringOfCore c)
  | .coreVecHold c => some (s.ringOfCore c)
  | .coreFlags c _ => some (s.ringOfCore c)
  | .coreMemStatus c => some (s.ringOfCore c)
  | .coreMemFrozen c => some (s.ringOfCore c)
  | .coreMemWaitMax c _ => some (s.ringOfCore c)
  | .coreUnfoldStatus c => some (s.ringOfCore c)
  | .coreUnfoldPadBlocks c => some (s.ringOfCore c)
  | .coreUnfoldReadLines c => some (s.ringOfCore c)
  | .coreUnfoldErrTag c => some (s.ringOfCore c)
  | .mwySliceStatus m => some (s.sliceOwner m)
  | .mwyWaitMax m _ => some (s.sliceOwner m)
  | .dbgTraceCtrl c => some (s.ringOfCore c)
  | .dbgTraceDump c => some (s.ringOfCore c)
  | .dbgTraceWptr c => some (s.ringOfCore c)
  | .dbgTraceLost c => some (s.ringOfCore c)
  | .trzWindowBase w _ => some (s.windowOwner w)
  | .trzWindowLength w => some (s.windowOwner w)
  | .trzWindowPermit w _ => some (s.windowOwner w)
  | .trzWindowAttr w => some (s.windowOwner w)
  | .trzWindowCtrl w => some (s.windowOwner w)
  | .trzWindowStatus w => some (s.windowOwner w)
  | .trzWindowCount w _ => some (s.windowOwner w)
  | _ => none

/-! ## Reads (R6, R309, R311) -/

/-- The status of a read, before it is made: the owning ring's registers are read by its endpoints, by its debug endpoint
from level TRACE on, and by the booth (R80, R311, R433, R439). -/
def State.readStatus (s : State) (who : Who) (g : Reg) : Nat :=
  match s.readLimit g with
  | none => stOk
  | some none => if who = .booth then stOk else stAccessRing
  | some (some r) =>
    if s.debugAsleep r who then stRingState else if s.readAccess r who then stOk else stAccessRing

/-- A read of a control-space address: the state after it, the value, the status (R6, R11, R311). -/
def State.regRead (s : State) (who : Who) (addr : Word) : State × Word × Nat :=
  if addr.toNat % 4 ≠ 0 then (s, 0, stAccessSize)
  else match Reg.ofAddr addr.toNat with
    | none => (s, 0, stAccessNone)
    | some (.dbgAccData r) =>
      match s.debugRequest r who fun s => s.debugRead r with
      | (s1, 0) => (s1, s1.reg (.dbgAccData r), stOk)
      | (_, st) => (s, 0, st)
    | some g =>
      match s.readStatus who g with
      | 0 => let (s1, v) := s.readPair g; (s1, v, stOk)
      | st => (s, 0, st)

/-! ## Writes (R6, R55, R311) -/

/-- A store that depends on a state of the register's unit: another status where it does not hold. -/
def State.storeWhen (s : State) (ok : Bool) (status : Nat) (g : Reg) (v : Word) : State × Nat :=
  if ok then (s.storePair g v, stOk) else (s, status)

/-- The DRAM ranges of a ring's pool, with range `k` replaced: base and length in units (R229). -/
def State.poolRanges (s : State) (r : Fin 8) (k : Fin 8) (v : Word) : List (Nat × Nat) :=
  (List.finRange 8).map fun i =>
    let w := if i = k then v else s.reg (.ringCtxPool r i)
    (F.ringCtxPool_BASE.get w, F.ringCtxPool_UNITS.get w)

/-- A DRAM range keeps the rules of R229: a region that is neither SPILL nor INGEST holds it, and no other range meets it. -/
def State.poolOk (s : State) (r : Fin 8) (k : Fin 8) (v : Word) : Bool :=
  let l := s.poolRanges r k v
  let (b, n) := l.getD k.val (0, 0)
  n == 0 ||
    (((regionsOf (s.ring r).manifest).any fun t =>
        !bitAt t.2.2 1 && !bitAt t.2.2 2 && decide (t.1 ≤ b) && decide (b + n ≤ t.1 + t.2.1)) &&
      (List.finRange 8).all fun i =>
        let (c, m) := l.getD i.val (0, 0)
        i == k || m == 0 || decide (b + n ≤ c) || decide (c + m ≤ b))

/-- The midway range keeps the rules of R229. -/
def State.poolMwyOk (s : State) (r : Fin 8) (v : Word) : Bool :=
  decide (pageBytes * (F.ringCtxPoolMwy_BASE.get v + F.ringCtxPoolMwy_FRAMES.get v) ≤ s.mwySize r)

/-- No context of the ring is in use (R229). -/
def State.ctxsFree (s : State) (r : Fin 8) : Bool :=
  (List.finRange 4096).all fun x => !s.ctxOwned r x.val || s.ctxState x == ctxFree

/-- A pool register written (R229). -/
def State.poolWrite (s : State) (r : Fin 8) (ok : Bool) (g : Reg) (v : Word) : State × Nat :=
  if s.ctxsFree r then s.storeWhen ok stAccessRange g v else (s, stCtxState)

/-- The status of a DBG_TRACE_CTRL write, by its destination (R452). -/
def State.traceStatus (s : State) (c : Fin 16) (v : Word) : Nat :=
  match s.ringOfCore c with
  | none => stAccessRing
  | some r =>
    let mode := F.dbgTraceCtrl_MODE.get v
    let unit := s.fld (.dbgTraceDump c) F.dbgTraceDump_DUMP_UNIT
    let units := s.fld (.dbgTraceDump c) F.dbgTraceDump_DUMP_UNITS
    if mode = 3 ∧ (units = 0 ∨ !s.inRegions r (unitBytes * unit) (unitBytes * units)) then stAccessRange
    else if mode = 4 ∧ F.dbgTraceCtrl_DEBUG.get v = 1 ∧ s.debugLevel r < 1 then stAccessRing
    else stOk

/-- The window is CLOSED (R336). -/
def State.windowShut (s : State) (w : Fin 256) : Bool := s.fld (.trzWindowStatus w) F.trzWindowStatus_STATE == 0

/-- A KEY register: with a wrong key the write is ignored (R55). -/
def State.keyedWrite (s : State) (v : Word) (act : Nat → State × Nat) : State × Nat :=
  if keyed v then act (v.toNat % 16) else (s, stOk)

/-- TRZ_DISTRIBUTION written: the booth rewrites the record of an open LAG window (R342). -/
def State.distribute (s : State) (k : Fin 4) (v : Word) : State :=
  (s.storeWord (.trzDistribution k) v).writeLagRecord

/-- What a write does once its writer's right to it is settled: the operation of a control register, a field that takes
writes in some states only, a store. -/
def State.performWrite (s : State) (who : Who) (g : Reg) (v : Word) : State × Nat :=
  match g with
  | .ringFlagWrite r =>
    if keyed v then s.flagWriteNow r (flagOf (BitVec.ofNat 8 v.toNat)) (v.getLsbD 8) else (s, stOk)
  | .ringCtxCtrl r =>
    if keyed v then (s.ctxRequest r who (F.ringCtxCtrl_OP.get v) (ctxFin v.toNat), stOk) else (s, stOk)
  | .ringCtxPool r k => s.poolWrite r (s.poolOk r k v) g v
  | .ringCtxPoolMwy r => s.poolWrite r (s.poolMwyOk r v) g v
  | .ringCtxDesc x _ => s.storeWhen (s.ctxState x == ctxFree) stCtxState g v
  | .feStreamDesc x _ => s.storeWhen (s.feState x == feDisabled) stFeState g v
  | .feStreamCtrl x => s.keyedWrite v fun op => (s.feRequest x op, stOk)
  | .cdcSessionDesc c _ => s.storeWhen (s.cdcState c == cdcClosed) stAccessRing g v
  | .cdcSessionCtrl c =>
    s.keyedWrite v fun op => match s.sessionRing who c with
      | some r => (s.cdcRequest r c op, stOk)
      | none => (s, stAccessRing)
  | .cdcSessionWptr c => s.storeWhen (s.cdcKind c != 1) stAccessRing g v
  | .cdcSessionRptr c => s.storeWhen (s.cdcKind c == 1) stAccessRing g v
  | .smpChanDesc c _ => s.storeWhen (s.smpState c == smpClosed) stSmpState g v
  | .smpChanCtrl c =>
    s.keyedWrite v fun op => match s.chanRing who c with
      | some r => (s.smpRequest r c op, stOk)
      | none => (s, stAccessRing)
  | .trsRstreamDesc t _ => s.storeWhen (!s.rsEnabled t) stRsState g v
  | .trsRstreamCtrl t => s.keyedWrite v fun op => (s.rsRequest (rsRing t) ⟨t.val % 16, by omega⟩ op, stOk)
  | .trzSystemCtrl => s.keyedWrite v fun op => (s.trzRequest op, stOk)
  | .trzDistribution k => (s.distribute k v, stOk)
  | .trzWindowBase w _ => s.storeWhen (s.windowShut w) stAccessRange g v
  | .trzWindowLength w => s.storeWhen (s.windowShut w) stAccessRange g v
  | .trzWindowPermit w _ => s.storeWhen (s.windowShut w) stAccessRange g v
  | .trzWindowAttr w => s.storeWhen (s.windowShut w) stAccessRange g v
  | .trzWindowCtrl w =>
    s.keyedWrite v fun op => match s.windowOwner w with
      | some r => (s.windowRequest r w op, stOk)
      | none => (s, stAccessRing)
  | .bootControl => s.keyedWrite v fun op => s.bootControl who op
  | .flsCtrl => s.keyedWrite v fun op => s.flsControl who op
  | .pwrUpdateCtrl => s.keyedWrite v fun op => s.updControl who op
  | .secCtrl => s.keyedWrite v fun op => s.secControl who op ⟨v.toNat / 256 % 16, by omega⟩
  | .dbgTraceCtrl c =>
    match s.traceStatus c (settled g v) with
    | 0 => (s.storeWord g (settled g v), stOk)
    | st => (s, st)
  | .dbgRingCtrl r =>
    s.keyedWrite v fun op =>
      s.dbgControl r who op (if F.dbgRingCtrl_CORE.get v < 16 then some (coreFin (F.dbgRingCtrl_CORE.get v)) else none)
        (if F.dbgRingCtrl_CORE.get v < 16 ∨ F.dbgRingCtrl_CORE.get v = 255 then
          BitVec.ofNat 5 (F.dbgRingCtrl_QUEUES.get v) else 0)
  | .dbgAccData r => s.debugRequest r who fun s => s.debugWrite r v
  | .errDevFaultPop => s.popFault none v who
  | .errRingFaultPop r => (s.onRing r fun k => { k with faults := popHead v k.faults }, stOk)
  | _ => (s.storePair g (settled g v), stOk)

/-! ## RESUME (R49, R51, R313) -/

/-- A held write performed. -/
def State.performHeld (s : State) (h : HeldWrite) : State :=
  match Reg.ofAddr h.addr.toNat with
  | some g => (s.performWrite h.who g h.value).1
  | none => s

/-- A held PARAM_WRITE completed: its DONE_FLAG is set, and its reply goes out (R51, R313). -/
def State.paramDone (s : State) (r : Fin 8) (p : HeldParam) : State :=
  (if p.flag = 0 then s else s.crossPut .ethToConcourse (.setFlag r ⟨p.flag % 256, by omega⟩)).replyStatus r p.asker stOk

/-- RESUME: a PARKED ring reaches RUNNING; the held writes are performed in arrival order, then the held PARAM_WRITEs are
completed. -/
def State.resumeNow (s : State) (r : Fin 8) : State :=
  if s.ringState r = stParked then
    let held := (s.ring r).held
    let params := (s.ring r).heldParams
    let s1 := (s.resumeRing r).onRing r fun k => { k with held := [], heldParams := [] }
    params.foldl (fun s p => s.paramDone r p) (held.foldl State.performHeld s1)
  else s.refuseRing r

/-- RING_RESUME. -/
def execRingResume (ring : Fin 8) (who : Who) (s : State) : Host.Outcome State Fault Refusal :=
  .next (s.ringRequest ring who fun s => s.resumeNow ring).1

/-- RING_CONTROL: 1 START, 2 PARK, 3 RESUME, 4 STOP; other values ignored (R55). -/
def State.ringOp (s : State) (r : Fin 8) (op : Nat) : State :=
  match op with
  | 1 => s.startNow r
  | 2 => s.parkNow r
  | 3 => s.resumeNow r
  | 4 => s.stopNow r
  | _ => s

/-! ## REGISTER_WRITE (R311, R313) -/

/-- A write by one who may make it at the register. -/
def State.writeRightly (s : State) (who : Who) (g : Reg) (v : Word) : Right → State × Nat
  | .ring none => (s, stAccessRing)
  | .ring (some r) =>
    if g = .ringControl r then
      s.ringRequest r who fun s => if keyed v then s.ringOp r (v.toNat % 16) else s
    else s.request r who (BitVec.ofNat 32 g.addr) v fun s => s.performWrite who g v
  | .manage => if s.mayManage who then s.performWrite who g v else (s, stAccessRing)
  | .booth => if who = .booth then s.performWrite who g v else (s, stAccessRing)
  | .internal => if who = .booth ∨ s.viaInternal who then s.performWrite who g v else (s, stAccessRing)
  | .debug r =>
    if !s.debugRight r 2 who then (s, stAccessRing)
    else if s.inStandby then (s, stRingState)
    else s.performWrite who g v
  | .any => s.performWrite who g v

/-- A write of a control-space address: the state after it and its status (R6, R311). -/
def State.regWrite (s : State) (who : Who) (addr v : Word) : State × Nat :=
  if addr.toNat % 4 ≠ 0 then (s, stAccessSize)
  else match Reg.ofAddr addr.toNat with
    | none => (s, stAccessNone)
    | some g => s.writeRightly who g v (s.writeRight who g)

/-- REGISTER_WRITE. -/
def execRegisterWrite (who : Who) (addr value : Word) (s : State) : Host.Outcome State Fault Refusal :=
  .next (s.regWrite who addr value).1

end Sys2Proof.Machine
end

