-- ==== Sys2Proof/Machine/DramCmd.lean ====
section
/-! DEFINITION. What a DRAM controller and a midway slice do with one line or word: demand reads and writes, refresh,
temperature polls, on-die error counts, and the scrubs (R166, R183, R184, R193). -/

namespace Sys2Proof.Machine

/-- The requester that an owner of the table names. -/
def State.dramRequester (s : State) : DramOwner → Requester
  | .ring r => .ring r
  | .app => .app
  | .booth => .booth
  | .window w => .window w (s.windowRing w)

/-- Errors that a burst has gathered: bytes of line `n`'s burst flipped (R179, R180). -/
def flipLine (n : Nat) (flips : List (Nat × Byte)) (d : Dram) : Dram :=
  flips.foldl (fun d f =>
    if f.1 < 80 then { d with flips := smSet 0 d.flips (80 * n + f.1) (smGet 0 d.flips (80 * n + f.1) ^^^ f.2) } else d) d

/-- DRAM is up, and its controllers take commands: not before initialisation, not in Standby, where every subchannel is in
self-refresh, and not in Deep standby, where the controllers are off (R191, R192, R194; log 127). -/
def State.dramUsed (s : State) : Bool := s.fld .ddrStatus F.ddrStatus_READY == 1 && !s.inStandby

/-- DRAM_READ of the line that holds an address; one beyond the requester's reach, the installed capacity among it, is
refused (R57, R177, R185). -/
def execDramRead (owner : DramOwner) (tag : Tag) (addr : Nat) (expectGen : Option (BitVec 16)) (flips : List (Nat × Byte))
    (s : State) : Host.Outcome State Fault Refusal :=
  .next (if !s.dramUsed then s
  else
    let s1 := { s with dram := flipLine (addr / 64) flips s.dram }
    (s1.dramRead (s1.dramRequester owner) tag expectGen (64 * (addr / 64)) 64).1)

/-- DRAM_WRITE: a generation that the write does not carry is 0 (R183). -/
def execDramWrite (owner : DramOwner) (tag : Tag) (addr : Nat) (bytes : List Byte) (poisoned : Bool)
    (gen : Option (BitVec 16)) (s : State) : Host.Outcome State Fault Refusal :=
  .next (if !s.dramUsed then s
  else (s.dramWrite (s.dramRequester owner) tag (gen.getD 0) addr (bytes.map fun b => (b, poisoned))).1)

/-- DRAM_REFRESH: it keeps the contents, and nothing that the model holds changes (R193). -/
def execDramRefresh (_sub : Fin 8) (s : State) : Host.Outcome State Fault Refusal := .next s

/-- DRAM_TEMP_POLL: the refresh rate follows (R193). -/
def execDramTempPoll (hot : Bool) (s : State) : Host.Outcome State Fault Refusal :=
  .next (if s.dramUsed then s.setFld .ddrStatus F.ddrStatus_HOT (bitNat hot) else s)

/-- ECS_COLLECT: the devices' counts added to their subchannel's (R193). -/
def execEcsCollect (sub : Fin 8) (count : Nat) (s : State) : Host.Outcome State Fault Refusal :=
  .next (if s.dramUsed then s.bump (.ddrEcsCount sub) F.ddrEcsCount_COUNT count else s)

/-- A line written back as it was written, its tag unchanged (R193). -/
def cleanLine (n : Nat) (d : Dram) : Dram :=
  { d with flips := smClear d.flips (80 * n) (80 * n + 80), writeBack := d.writeBack.filter fun m => m != n }

/-- Every queued write-back done (R193). -/
def writeBackAll (d : Dram) : Dram := d.writeBack.foldl (fun d n => cleanLine n d) d

/-- The ring whose unit holds a line. -/
def State.lineRing (s : State) (n : Nat) : Option (Fin 8) :=
  (List.finRange 8).find? fun r => (s.unitFlags r (n / 262144)).isSome

/-- A line that the scrub finds bad: counted, and recorded once per pass (R193, R446). -/
def State.scrubBad (s : State) (n : Nat) (v : Verdict) : State :=
  if s.dram.scrubBad.contains n then s
  else
    let ring := s.lineRing n
    let tag := match ring with | some r => noCommand r | none => deviceTag
    let s1 := (s.ddrShow .booth (64 * n) v.kind (v.tag.toNat % 256)).record ring false
      (ddrInfo (s.subOf (64 * n)) tag (64 * n) v.kind 0 v.tag)
    { s1 with dram := { s1.dram with scrubBad := n :: s1.dram.scrubBad } }

/-- The patrol scrub at a line (R193). A line with POISON set is an error to no one who reads it here: that it is neither
shown nor recorded, and is written back where symbols or a tag bit were corrected, is the model's choice (log 128). -/
def State.scrubLine (s : State) (n : Nat) : State :=
  let v := checkLine s.dram n ((lineTag s.dram n).toNat % 256) none
  let s1 := s.ddrCount n v
  if v.kind = 1 ∨ v.kind = 2 then s1.scrubBad n v
  else if v.tagFixed ∨ v.corrected then { s1 with dram := cleanLine n s1.dram } else s1

/-- DRAM_SCRUB: the queued write-backs, then one line; the last line of a pass sets SCRUB_PASS. A line beyond the installed
capacity is refused (R57, R177). -/
def execDramScrub (addr : Nat) (flips : List (Nat × Byte)) (lastOfPass : Bool) (s : State) : Host.Outcome State Fault Refusal :=
  .next (if !s.dramUsed then s
  else if s.dramSize < 64 * (addr / 64) + 64 then s.ddrOutside .booth deviceTag (64 * (addr / 64)) 64 0
  else
    let s1 := { s with dram := flipLine (addr / 64) flips (writeBackAll s.dram) }
    if s1.fld .ddrScrubCtrl F.ddrScrubCtrl_ENABLE = 0 then s1
    else
      let s2 := s1.scrubLine (addr / 64)
      if lastOfPass then
        { (s2.setFld .ddrStatus F.ddrStatus_SCRUB_PASS 1) with dram := { s2.dram with scrubBad := [] } } else s2)

/-- The ring that holds a midway slice. -/
def State.sliceRing (s : State) (m : Fin 8) : Option (Fin 8) :=
  (List.finRange 8).find? fun r => (s.ring r).bound && (s.slicesOf r).contains m.val

/-- What a scrub finds at a word: what it reads by itself, and what the word has gathered before (R140). -/
def worse : EccOutcome → EccOutcome → EccOutcome
  | .uncorrectable, _ => .uncorrectable
  | _, .uncorrectable => .uncorrectable
  | .corrected, _ => .corrected
  | _, .corrected => .corrected
  | .clean, .clean => .clean

/-- MWY_SCRUB of a 32-byte word of a slice: a corrected word is rewritten, an uncorrectable one poisoned (R146, R166,
R442). -/
def execMwyScrub (slice : Fin 8) (word : Fin 1048576) (found : EccOutcome) (s : State) : Host.Outcome State Fault Refusal :=
  let n := 1048576 * slice.val + word.val
  .next (if (smGet 0 s.mwyBad n).getLsbD 0 then s
    else match worse found (eccOf s.mwyFlips n) with
      | .clean => s
      | .corrected => { s.bump (.errSliceScrub slice) F.errSliceScrub_FIXED 1 with mwyFlips := freshWords [n] s.mwyFlips }
      | .uncorrectable => s.sliceBad (s.sliceRing slice) (match s.sliceRing slice with
        | some r => noCommand r
        | none => deviceTag) n)

end Sys2Proof.Machine
end

