-- ==== Sys2Proof/Machine/Tirsa.lean ====
section
/-! DEFINITION. Received Tirsa frames (R299 to R308): the checks of R300, message identifiers and generations, chunks
and their reassembly, and what each type of message does (R305, R309, R313, R318, R320). -/

namespace Sys2Proof.Machine

/-! ## The checks of R300 -/

/-- The types that a host sends (R305). -/
def hostType (t : Byte) : Bool := (decide (1 ≤ t.toNat) && decide (t.toNat ≤ 13)) || t == 0x10 || t == 0x11

/-- The types whose requests take a reply (R305). -/
def takesReply (t : Byte) : Bool := ([0x01, 0x02, 0x03, 0x04, 0x05, 0x09, 0x0A, 0x10, 0x11] : List Byte).contains t

/-- The 32 header bytes of a received frame, with CRC zero (R303, R304). -/
def frameHeader (type : Byte) (f : Frame) : List Byte :=
  [f.version, type, f.ring, f.endpoint] ++ beBytes 2 f.msgId.toNat ++ [f.gen, f.flags] ++ beBytes 2 f.length.toNat ++
    beBytes 2 f.status.toNat ++ beBytes 4 f.id.toNat ++ beBytes 8 f.timestamp.toNat ++ beBytes 4 f.offset.toNat ++ beBytes 4 0

/-- The Tirsa header is one that the endpoint takes; a plain endpoint's CRC is checked (R300, R304). -/
def State.frameOk (s : State) (type : Byte) (f : Frame) (e : Fin 64) : Bool :=
  f.version == 1 && hostType type && f.ring.toNat == e.val / 8 && f.endpoint.toNat == e.val % 8 &&
    decide (f.flags.toNat < 8) && f.length.toNat == f.payload.length && decide (f.length.toNat ≤ 8192) &&
    (s.epSecured e || s.epInternal e || crc32c (frameHeader type f ++ f.payload) == f.crc)

/-- The MKA group address (R300). -/
abbrev mkaGroup : BitVec 48 := 0x0180C2000003

/-- The bound external endpoint of a port and a VLAN (R299). -/
def State.boundEp (s : State) (p : Fin 4) (vlan : BitVec 12) : Option (Fin 64) :=
  (List.finRange 64).find? fun e =>
    s.epBound e && !s.epInternal e && s.epPort e == p && s.fld (.trsEpStatus e) F.trsEpStatus_VLAN == vlan.toNat

/-- What R300 says of a frame: it does not arrive; it is dropped and counted by its port, or by its endpoint; MKA takes
it; it is accepted. -/
inductive Judgement where
  | off
  | drop (k : Fin 5)
  | bad (e : Fin 64)
  | mka (e : Fin 64)
  | accept (e : Fin 64)
  deriving DecidableEq, Repr

/-- The packet number of a MACsec frame is not older than the replay window of 32 frames lets through (R301). -/
def State.inWindow (s : State) (f : Frame) (e : Fin 64) : Bool := decide ((s.ep e).rxNext.toNat ≤ f.pn.toNat + 32)

/-- A MACsec frame passes validation: it is whole, a SAK is live, and it is not replayed (R300, R301). -/
def State.macsecPasses (s : State) (f : Frame) (e : Fin 64) : Bool :=
  f.macsecOk && s.fld (.trsEpStatus e) F.trsEpStatus_KEY_LIVE == 1 && s.inWindow f e

/-- The endpoint whose port and VLAN a frame names has it: MACsec, EtherType, header (R300). -/
def State.judgeBound (s : State) (type : Byte) (f : Frame) (e : Fin 64) : Judgement :=
  if f.etherType = 0x888E then .mka e
  else if s.epSecured e ∧ f.macsec ∧ !s.macsecPasses f e then .drop 3
  else if s.epSecured e ∧ !f.macsec ∧ type ≠ 0x10 ∧ type ≠ 0x11 then .drop 3
  else if f.etherType.toNat ≠ s.fld .trsEthertype F.trsEthertype_TYPE ∨ (f.macsec ∧ !s.epSecured e) then .drop 2
  else if s.frameOk type f e then .accept e
  else .bad e

/-- The first row of R300 that applies to a frame on a port. -/
def State.judgePort (s : State) (type : Byte) (f : Frame) (p : Fin 4) : Judgement :=
  if s.fld (.ethPortStatus p) F.ethPortStatus_ENABLED = 0 then .off
  else if !f.fcsOk || !within 64 8278 f.size then .drop 1
  else if f.dst ≠ s.boot.macs[p] ∧ f.dst ≠ mkaGroup then .drop 2
  else match s.boundEp p f.vlan with
    | none => .drop 2
    | some e => s.judgeBound type f e

/-- A frame of the internal endpoint: RING and ENDPOINT name the endpoint (R322); none where it is not bound there. -/
def State.judgeInternal (s : State) (type : Byte) (f : Frame) : Judgement :=
  if h : f.ring.toNat < 8 ∧ f.endpoint.toNat < 8 then
    let e := epIx ⟨f.ring.toNat, h.1⟩ ⟨f.endpoint.toNat, h.2⟩
    if s.epBound e && s.epInternal e && !s.boot.dirBad then (if s.frameOk type f e then .accept e else .bad e) else .off
  else .off

/-- What R300 says of a frame. -/
def State.judge (s : State) (type : Byte) (f : Frame) : Judgement :=
  match f.via with
  | .port p => s.judgePort type f p
  | .internal => s.judgeInternal type f

/-- A port's counter raised (R323). -/
def State.ethCount (s : State) (via : Via) (k : Fin 5) : State :=
  match via with
  | .port p => s.bump (.ethPortCount p k) F.ethPortCount_COUNT 1
  | .internal => s

/-- An endpoint's counter raised (R324). -/
def State.epCount (s : State) (e : Fin 64) (k : Fin 6) : State := s.bump (.trsEpCount e k) F.trsEpCount_COUNT 1

/-- The sender of an accepted frame is the endpoint's peer from now on, so that what waited for an address leaves
(R317, R321). -/
def State.takePeer (s : State) (e : Fin 64) (f : Frame) : State :=
  match f.via with
  | .internal => s
  | .port _ =>
    ((s.setRegs [(.trsEpPeer e 0, BitVec.ofNat 32 f.src.toNat), (.trsEpPeer e 1, BitVec.ofNat 32 (f.src.toNat / 2 ^ 32))]).setFld
      (.trsEpStatus e) F.trsEpStatus_PEER_KNOWN 1).pumpEp e

/-! ## Messages in parts (R306 to R308) -/

/-- How far from 0 ranges reach without a gap. -/
def reach (got : List (Nat × Nat)) : Nat → Nat → Nat
  | 0, n => n
  | k + 1, n => reach got k (got.foldl (fun m g => if g.1 ≤ n then max m g.2 else m) n)

/-- Every byte that the message's last chunk promises has come. -/
def Reassembly.whole (m : Reassembly) : Bool :=
  match m.last with
  | some n => decide (n ≤ reach m.got m.got.length 0)
  | none => false

/-- The message that an endpoint is reassembling under an identifier. -/
def State.reasmOf (s : State) (e : Fin 64) (msgId : BitVec 16) : Option Reassembly :=
  (s.ep e).reasm.find? fun m => m.msgId == msgId

/-- A reassembly ended. -/
def State.dropReasm (s : State) (e : Fin 64) (msgId : BitVec 16) : State :=
  s.onEp e fun k => { k with reasm := k.reasm.filter fun m => m.msgId != msgId }

/-- A reassembly kept as it stands now. -/
def State.keepReasm (s : State) (e : Fin 64) (m : Reassembly) : State :=
  s.onEp e fun k => { k with reasm := (k.reasm.filter fun n => n.msgId != m.msgId) ++ [m] }

/-- Who answers are for: the endpoint, TYPE, MSG_ID, GEN and ID of a message. -/
def Reassembly.asker (m : Reassembly) (e : Fin 8) : Asker := ⟨e, m.type, m.msgId, m.gen, m.id⟩

/-- A message refused with a status; the rest of it is discarded. -/
def State.refuseMsg (s : State) (r e : Fin 8) (m : Reassembly) (status : Nat) : State × Reassembly :=
  (s.replyStatus r (m.asker e) status, { m with refused := true })

/-- The ring's state lets PARAM_WRITE, MEM_READ and results through (R313). -/
def State.served (s : State) (r : Fin 8) : Bool :=
  [stRunning, stParking, stParked, stLoaded].contains (s.ringState r)

/-! ## PARAM_WRITE (R305, R313) -/

/-- A PARAM_WRITE's prefix, read from its first chunk; the message is refused where it cannot be written. -/
def State.paramFirst (s : State) (r e : Fin 8) (m : Reassembly) (d : List Byte) : State × Reassembly :=
  let addr := BitVec.ofNat 64 (beAt d 0 8)
  let total := beAt d 8 4
  let flag := beAt d 12 1
  if d.length < 16 ∨ beAt d 13 3 ≠ 0 ∨ (flag ≠ 0 ∧ flag < 192) then s.refuseMsg r e m stFormat
  else if !s.served r then s.refuseMsg r e m stRingState
  else if !s.bufInside r addr total then s.refuseMsg r e m stAccessRange
  else (s, { m with addr := addr, total := total, flag := flag })

/-- The data bytes of a chunk written where they belong; poisoned where the chunk says so (R303, R443). -/
def State.paramData (s : State) (r e : Fin 8) (m : Reassembly) (o : Nat) (d : List Byte) (bad : Bool) : State × Reassembly :=
  let lo := max o 16
  let piece := (d.drop (lo - o)).take (16 + m.total - lo)
  if m.refused ∨ piece.isEmpty then (s, m)
  else if !s.served r then s.refuseMsg r e m stRingState
  else match s.bufWrite r m.addr (lo - 16) (piece.map fun b => (b, bad)) with
    | (s1, true) => (s1, m)
    | (s1, false) => s1.refuseMsg r e m stAccessRange

/-- Every byte has come: OK at once, or held while the ring is parked; a body of another length than TOTAL is FORMAT. -/
def State.paramEnd (s : State) (r e : Fin 8) (m : Reassembly) : State :=
  if m.refused then s
  else if m.last ≠ some (16 + m.total) then s.replyStatus r (m.asker e) stFormat
  else if s.holdsWrites r then s.onRing r fun k => { k with heldParams := k.heldParams ++ [⟨m.asker e, m.flag⟩] }
  else s.paramDone r ⟨m.asker e, m.flag⟩

/-! ## SAMPLE_DATA (R284, R294) -/

/-- A chunk of a sample: a channel that does not take it answers; a first chunk shorter than 128 B is no sample. What comes
of a sample after it is refused is discarded (R285). -/
def State.samplePart (s : State) (r e : Fin 8) (m : Reassembly) (o : Nat) (d : List Byte) (first : Bool) :
    State × Reassembly :=
  if m.refused then (s, m)
  else if h : m.id.toNat < 16 then
    let c : Fin 16 := ⟨m.id.toNat, h⟩
    match s.sampleStatus r e c with
    | 0 =>
      if !first then
        let (s1, staged) := s.sampleMore c m.msgId m.total o d
        (s1, { m with refused := !staged })
      else if d.length < 128 then
        ((s.smpCount c 1).smpReport c (plainReport c 1 (leAt d 0x0C 4)), { m with refused := true })
      else match s.sampleFirst c m.msgId d with
        | (s1, some slot) => (s1, { m with total := slot })
        | (s1, none) => (s1, { m with refused := true })
    | status => s.refuseMsg r e m status
  else s.refuseMsg r e m stSmpState

/-! ## STREAM_DATA (R267, R308) -/

/-- A chunk of a stream frame: the first stands for Frame Start, the LAST one for Frame End. -/
def State.streamPart (s : State) (r e : Fin 8) (m : Reassembly) (o : Nat) (d : List Byte) (first last : Bool) : State :=
  match s.ethContext r e with
  | none => s
  | some x =>
    let s1 := if first then s.startFrame x (BitVec.ofNat 16 m.id.toNat) (s.messageStamp x m.stamp) else s
    let s2 := s1.ethBytes x o d
    if last then s2.endFrame x .ended else s2

/-! ## Whole messages -/

/-- One entry of REG_READ or REG_WRITE performed: the state after it, its VALUE and its STATUS (R309). -/
def State.regEntry (s : State) (who : Who) (write : Bool) (entry : List Byte) : State × Word × Nat :=
  let addr := BitVec.ofNat 32 (beAt entry 0 4)
  let value := BitVec.ofNat 32 (beAt entry 4 4)
  if write then
    let (s1, st) := s.regWrite who addr value
    (s1, value, st)
  else s.regRead who addr

/-- The entries performed in order: the state, the reply's entries, the first nonzero status. -/
def State.regEntries (who : Who) (write : Bool) : List (List Byte) → State → State × List Byte × Nat
  | [], s => (s, [], 0)
  | x :: t, s =>
    let (s1, v, st) := s.regEntry who write x
    let (s2, out, first) := State.regEntries who write t s1
    (s2, x.take 4 ++ beBytes 4 v.toNat ++ beBytes 1 st ++ beBytes 3 0 ++ out, if st = 0 then first else st)

/-- REG_READ and REG_WRITE (R309); a malformed body is answered FORMAT. -/
def State.regsNow (s : State) (r : Fin 8) (a : Asker) (write : Bool) (b : List Byte) : State :=
  let n := beAt b 0 2
  if !within 1 64 n || b.length != 4 + 12 * n || beAt b 2 2 != 0 then s.replyStatus r a stFormat
  else
    let (s1, out, st) := State.regEntries (.ep r a.endpoint) write (chunksOf 12 64 (b.drop 4)) s
    s1.reply r a 0 st 0 [] (b.take 4 ++ out)

/-- INVOKE: queued, or refused (R114, R305, R313). -/
def State.invokeNow (s : State) (r : Fin 8) (a : Asker) (stamp : DWord) (b : List Byte) : State :=
  let slot := beAt b 0 1
  if b.length ≠ 260 ∨ 32 ≤ slot ∨ beAt b 1 3 ≠ 0 then s.replyStatus r a stFormat
  else if !s.takesTriggers r then s.replyStatus r a stRingState
  else if !((s.ring r).programs.any fun p => p.slot == slot) then s.replyStatus r a stNoProgram
  else if !s.pendingRoom r then s.replyStatus r a stPendingFull
  else s.onRing r fun k => { k with waiting := k.waiting ++ [⟨slot, b.drop 4, stamp, some a, false⟩] }

/-- MEM_READ: the bytes, poisoned ones marked in their chunks (R305, R313). -/
def State.memReadNow (s : State) (r : Fin 8) (a : Asker) (b : List Byte) : State :=
  let addr := BitVec.ofNat 64 (beAt b 0 8)
  let n := beAt b 8 4
  if b.length ≠ 16 ∨ beAt b 12 4 ≠ 0 ∨ !within 1 16777216 n then s.replyStatus r a stFormat
  else if !s.served r then s.replyStatus r a stRingState
  else if !s.bufInside r addr n then s.replyStatus r a stAccessRange
  else match s.bufRead r addr 0 n with
    | (s1, some d) => s1.reply r a 2 stOk 0 (badPlaces 0 d) (rawBytes d)
    | (s1, none) => s1.replyStatus r a stAccessRange

/-- FRAME_TIME: for an enabled context of the ring; any other is dropped and counted (R268, R305). -/
def State.frameTimeNow (s : State) (r e : Fin 8) (stamp : DWord) (b : List Byte) : State :=
  let n := beAt b 0 2
  if h : n < 64 then
    if b.length = 4 ∧ s.streamRing ⟨n, h⟩ = some r ∧ s.feState ⟨n, h⟩ = feEnabled then
      s.holdTime ⟨n, h⟩ (BitVec.ofNat 16 (beAt b 2 2)) stamp
    else s.epCount (epIx r e) 3
  else s.epCount (epIx r e) 3

/-- RESULT_READ (R305, R313, R318). -/
def State.resultReadNow (s : State) (r : Fin 8) (a : Asker) (b : List Byte) : State :=
  let slot := beAt b 2 2
  if b.length ≠ 4 ∨ beAt b 1 1 ≠ 0 ∨ 16 ≤ beAt b 0 1 ∨ (1024 ≤ slot ∧ slot ≠ 0xFFFF) then s.replyStatus r a stFormat
  else if !s.served r then s.replyStatus r a stRingState
  else s.readResult r a (beAt b 0 1) slot

/-- RESULT_RELEASE (R305, R313, R318). -/
def State.resultReleaseNow (s : State) (r : Fin 8) (a : Asker) (b : List Byte) : State :=
  if b.length ≠ 8 ∨ beAt b 2 2 ≠ 0 then s.replyStatus r a stFormat
  else if !s.served r then s.replyStatus r a stRingState
  else
    let (s1, status) := s.releaseSlot r (beAt b 0 2) (BitVec.ofNat 32 (beAt b 4 4))
    s1.replyStatus r a status

/-- The page on the move that a page message of the host is about: the context's own endpoint, its page and its OPAQUE
(R234, R235, R320). -/
def State.pageFor (s : State) (r e : Fin 8) (b : List Byte) : Option (Fin 4096 × PageMove) :=
  if h : beAt b 0 2 < 4096 then
    let x : Fin 4096 := ⟨beAt b 0 2, h⟩
    if 24 ≤ b.length ∧ (s.ctxInfo r x).bind (fun i => i.endpoint) = some e ∧ beAt b 16 8 = (s.ctxOpaque x).toNat then
      ((s.moveOf r x (beAt b 4 4)).filter fun m => m.host).map fun m => (x, m)
    else none
  else none

/-- The page message names the page's generation. -/
def State.pageGen (s : State) (x : Fin 4096) (m : PageMove) (b : List Byte) : Bool := beAt b 8 2 == ptGen (s.ptGet x m.page)

/-- PAGE_ACK: one that matches no request is discarded (R235). -/
def State.pageAckNow (s : State) (r e : Fin 8) (b : List Byte) : State :=
  match s.pageFor r e b with
  | some (x, m) => if m.out && s.pageGen x m b then s.pageAcked r x m else s
  | none => s

/-- PAGE_NAK: the swap-out ends, or the context is LOST (R232, R235). -/
def State.pageNakNow (s : State) (r e : Fin 8) (b : List Byte) : State :=
  match s.pageFor r e b with
  | some (x, m) =>
    if !s.pageGen x m b then s
    else if m.out then s.outFailed r x m
    else if s.ctxState x = ctxClosing ∨ s.ctxState x = ctxLost then (s.endMove r x m.page).settleSwap r x
    else s.loseContext r x m.page 5
  | none => s

/-- PAGE_DATA: a page that came short counts as a failed attempt (R235). -/
def State.pageDataNow (s : State) (r e : Fin 8) (b : List Byte) : State :=
  match s.pageFor r e b with
  | some (x, m) =>
    if m.out then s
    else if b.length ≠ 24 + pageBytes then s.inFailed r x m 6
    else s.pageCame r x m (beAt b 8 2) (BitVec.ofNat 32 (beAt b 12 4)) (bitAt (beAt b 10 1) 0) (b.drop 24)
  | none => s

/-- A whole message does what its type says. -/
def State.handle (s : State) (r e : Fin 8) (m : Reassembly) (plain : Bool) (b : List Byte) : State :=
  let a := m.asker e
  match m.type.toNat with
  | 0x01 => s.regsNow r a false b
  | 0x02 => s.regsNow r a true b
  | 0x03 => s.invokeNow r a m.stamp b
  | 0x05 => s.memReadNow r a b
  | 0x08 => s.frameTimeNow r e m.stamp b
  | 0x09 => s.resultReadNow r a b
  | 0x0A => s.resultReleaseNow r a b
  | 0x0B => s.pageAckNow r e b
  | 0x0C => s.pageNakNow r e b
  | 0x0D => s.pageDataNow r e b
  | 0x10 => s.quoteNow r a b
  | 0x11 => s.keyWrapNow r a plain b
  | _ => s

/-! ## Chunks -/

/-- The frame is the last chunk of its message. -/
def lastChunk (f : Frame) : Bool := f.flags.getLsbD 0

/-- A chunk noted in its message. -/
def Reassembly.add (m : Reassembly) (f : Frame) : Reassembly :=
  { m with
    got := m.got ++ [(f.offset.toNat, f.offset.toNat + f.payload.length)]
    last := if lastChunk f then some (f.offset.toNat + f.payload.length) else m.last }

/-- A message goes on, or it is whole and ends with `act`. -/
def State.goOn (s : State) (x : Fin 64) (m : Reassembly) (act : State → State) : State :=
  if m.whole then act (s.dropReasm x m.msgId) else s.keepReasm x m

/-- A chunk of a message that has begun (R307): parameters, samples and stream frames go where they belong at once; any
other message is kept until it is whole. -/
def State.chunk (s : State) (r e : Fin 8) (m0 : Reassembly) (f : Frame) (first : Bool) : State :=
  let x := epIx r e
  let o := f.offset.toNat
  let m := m0.add f
  match m.type.toNat with
  | 0x04 =>
    let (s1, m1) := if first then s.paramFirst r e m f.payload else (s, m)
    let (s2, m2) := s1.paramData r e m1 o f.payload (f.flags.getLsbD 2)
    s2.goOn x m2 fun s => s.paramEnd r e m2
  | 0x06 =>
    let (s1, m1) := s.samplePart r e m o f.payload first
    s1.goOn x m1 id
  | 0x07 =>
    let s1 := s.streamPart r e m o f.payload first (lastChunk f)
    if lastChunk f then s1.dropReasm x m.msgId else s1.keepReasm x m
  | _ =>
    let m1 := { m with body := smWrite 0 m.body o f.payload }
    s.goOn x m1 fun s => s.handle r e m1 (!f.macsec) (smRead 0 m1.body 0 (m1.last.getD 0))

/-- A message abandoned, as by a timeout (R306, R308). -/
def State.abandonMsg (s : State) (r e : Fin 8) (m : Reassembly) : State :=
  let s1 := s.dropReasm (epIx r e) m.msgId
  match m.type.toNat with
  | 0x04 => if m.refused then s1 else s1.replyStatus r (m.asker e) stIncomplete
  | 0x06 => if h : m.id.toNat < 16 ∧ m.refused = false then s1.sampleStale ⟨m.id.toNat, h.1⟩ fun n => n.slot == m.total && n.msgId == m.msgId else s1
  | 0x07 => match s1.ethContext r e with
    | some x => s1.endFrame x .noEnd
    | none => s1
  | 0x0D => match s1.pageFor r e (smRead 0 m.body 0 24) with
    | some (x, p) => if p.out then s1 else s1.inFailed r x p 6
    | none => s1
  | _ => s1

/-- A new STREAM_DATA message ends the frame that is open on its endpoint; what still comes of that one is discarded
(R308). -/
def State.endStreams (s : State) (x : Fin 64) (type : Byte) : State :=
  if type = 0x07 then s.onEp x fun k => { k with reasm := k.reasm.filter fun m => m.type != 0x07 } else s

/-- A message of an accepted frame begins: its first chunk must come first, and one of 16 reassemblies must be free where
it has more than one (R306, R307). -/
def State.beginMsg (s : State) (r e : Fin 8) (type : Byte) (f : Frame) : State :=
  let x := epIx r e
  let m : Reassembly := ⟨f.msgId, f.gen, type, f.id, f.timestamp, [], none, [], 0, 0, 0, false⟩
  if f.offset ≠ 0 then s.epCount x 4
  else
    let s1 := match s.reasmOf x f.msgId with
      | some old => s.abandonMsg r e old
      | none => s
    if 16 ≤ (s1.ep x).reasm.length ∧ !lastChunk f then
      (if takesReply type then s1.replyStatus r (m.asker e) stBusy else s1).epCount x 5
    else
      ((s1.onEp x fun k => { k with last := smSet 0 k.last f.msgId.toNat f.gen }).endStreams x type).chunk r e m f true

/-- The rules on message IDs and generations (R306). -/
def State.identify (s : State) (r e : Fin 8) (type : Byte) (f : Frame) : State :=
  let x := epIx r e
  let d := (f.gen - smGet 0 (s.ep x).last f.msgId.toNat).toNat
  if d = 0 then
    match s.reasmOf x f.msgId with
    | some m => s.chunk r e m f false
    | none =>
      (if takesReply type then s.replyStatus r ⟨e, type, f.msgId, f.gen, f.id⟩ stRepeated else s).epCount x 2
  else if d < 128 then s.beginMsg r e type f
  else s.epCount x 1

/-- An accepted frame (R300, R306, R321); one that is accepted ends Standby (R438). -/
def State.acceptFrame (s : State) (x : Fin 64) (type : Byte) (f : Frame) : State :=
  let s1 := ((s.epCount x 0).takePeer x f).identify (epRing x) ⟨x.val % 8, by omega⟩ type f
  if s.inStandby then s1.wakeUp else s1

/-- A MACsec frame that has passed moves its endpoint's replay window (R301). -/
def State.noteNumber (s : State) (f : Frame) (e : Fin 64) : State :=
  if s.epSecured e && f.macsec && decide ((s.ep e).rxNext.toNat ≤ f.pn.toNat) then
    s.onEp e fun k => { k with rxNext := f.pn + 1 } else s

/-- A received frame (R300). -/
def State.frameIn (s : State) (type : Byte) (f : Frame) : State :=
  match s.judge type f with
  | .off => s
  | .drop k => (s.ethCount f.via 0).ethCount f.via k
  | .bad e => ((s.noteNumber f e).ethCount f.via 0).epCount e 3
  | .mka _ => s.ethCount f.via 0
  | .accept e => ((s.noteNumber f e).ethCount f.via 0).acceptFrame e type f

/-! ## The commands -/

/-- REG_READ. -/
def execRegRead (f : Frame) (s : State) : Host.Outcome State Fault Refusal := .next (s.frameIn 0x01 f)

/-- REG_WRITE. -/
def execRegWrite (f : Frame) (s : State) : Host.Outcome State Fault Refusal := .next (s.frameIn 0x02 f)

/-- INVOKE. -/
def execInvoke (f : Frame) (s : State) : Host.Outcome State Fault Refusal := .next (s.frameIn 0x03 f)

/-- PARAM_WRITE. -/
def execParamWrite (f : Frame) (s : State) : Host.Outcome State Fault Refusal := .next (s.frameIn 0x04 f)

/-- MEM_READ. -/
def execMemRead (f : Frame) (s : State) : Host.Outcome State Fault Refusal := .next (s.frameIn 0x05 f)

/-- SAMPLE_DATA. -/
def execSampleData (f : Frame) (s : State) : Host.Outcome State Fault Refusal := .next (s.frameIn 0x06 f)

/-- STREAM_DATA. -/
def execStreamData (f : Frame) (s : State) : Host.Outcome State Fault Refusal := .next (s.frameIn 0x07 f)

/-- FRAME_TIME. -/
def execFrameTime (f : Frame) (s : State) : Host.Outcome State Fault Refusal := .next (s.frameIn 0x08 f)

/-- RESULT_READ. -/
def execResultRead (f : Frame) (s : State) : Host.Outcome State Fault Refusal := .next (s.frameIn 0x09 f)

/-- RESULT_RELEASE. -/
def execResultRelease (f : Frame) (s : State) : Host.Outcome State Fault Refusal := .next (s.frameIn 0x0A f)

/-- PAGE_ACK. -/
def execPageAck (f : Frame) (s : State) : Host.Outcome State Fault Refusal := .next (s.frameIn 0x0B f)

/-- PAGE_NAK. -/
def execPageNak (f : Frame) (s : State) : Host.Outcome State Fault Refusal := .next (s.frameIn 0x0C f)

/-- PAGE_DATA. -/
def execPageData (f : Frame) (s : State) : Host.Outcome State Fault Refusal := .next (s.frameIn 0x0D f)

/-- QUOTE_REQUEST. -/
def execQuoteRequest (f : Frame) (s : State) : Host.Outcome State Fault Refusal := .next (s.frameIn 0x10 f)

/-- KEY_WRAP. -/
def execKeyWrap (f : Frame) (s : State) : Host.Outcome State Fault Refusal := .next (s.frameIn 0x11 f)

/-- REASSEMBLY_TIMEOUT: a reassembly without a chunk for 100 ms. -/
def execReassemblyTimeout (ring endpoint : Fin 8) (msgId : BitVec 16) (s : State) : Host.Outcome State Fault Refusal :=
  .next (match s.reasmOf (epIx ring endpoint) msgId with
    | some m => s.abandonMsg ring endpoint m
    | none => s)

end Sys2Proof.Machine
end

