-- ==== Sys2Proof/Machine/Ethernet.lean ====
section
/-! DEFINITION. The Ethernet ports besides Tirsa's messages (R296 to R302, R322, R323): MKA, PAUSE, links, dropped frames,
and the areas of the internal endpoint. -/

namespace Sys2Proof.Machine

/-! ## MKA (R301, R302) -/

/-- A secured endpoint with a CAK runs MKA. -/
def State.mkaRuns (s : State) (e : Fin 64) : Bool := s.epBound e && s.epSecured e && (s.ep e).cak.isSome

/-- What MKA makes of a frame: a SAK is live, under a new one of which both directions number their packets from 1 again, or
none is. -/
def State.mkaTakes (s : State) (e : Fin 64) (live newSak : Bool) : State :=
  if !s.mkaRuns e then s
  else if live then
    ((s.onEp e fun k => if newSak then { k with pn := 1, rxNext := 1 } else k).setFld (.trsEpStatus e)
      F.trsEpStatus_KEY_LIVE 1).pumpEp e
  else s.setFld (.trsEpStatus e) F.trsEpStatus_KEY_LIVE 0

/-- MKA_FRAME. -/
def execMkaFrame (f : Frame) (effect : MkaEffect) (s : State) : Host.Outcome State Fault Refusal :=
  .next (match s.judge 0 f with
    | .mka e => (s.ethCount f.via 0).mkaTakes e effect.live effect.newSak
    | _ => s.frameIn 0 f)

/-- The key-server priority that the L9 announces (R301). -/
abbrev keyServerPriority : Byte := 0xFF

/-- An MKPDU sent: EAPOL to the MKA group address, never under MACsec. Of its contents, which IEEE 802.1X gives, the model
holds the key-server priority (R300, R301; log 129). -/
def State.sendMkpdu (s : State) (e : Fin 64) : State :=
  (s.toWire (s.epPort e) (s.framed e mkaGroup 0x888E false [keyServerPriority])).onEp e fun k =>
    { k with mkpdus := k.mkpdus + 1 }

/-- MKA_HELLO_TIME: the MKPDU of the hello time is sent. -/
def execMkaHelloTime (ring endpoint : Fin 8) (s : State) : Host.Outcome State Fault Refusal :=
  .next (if s.mkaRuns (epIx ring endpoint) then s.sendMkpdu (epIx ring endpoint) else s)

/-- MKA_LIFE_TIME_EXPIRY: the peer is lost, and its SAK is no longer live. -/
def execMkaLifeTimeExpiry (ring endpoint : Fin 8) (s : State) : Host.Outcome State Fault Refusal :=
  .next (if s.epSecured (epIx ring endpoint) then
    s.setFld (.trsEpStatus (epIx ring endpoint)) F.trsEpStatus_KEY_LIVE 0 else s)

/-! ## PAUSE and links (R298, R323) -/

/-- The port record enables the port (R297). -/
def State.portOn (s : State) (p : Fin 4) : Bool := s.fld (.ethPortStatus p) F.ethPortStatus_ENABLED == 1

/-- Transmission goes on. -/
def State.unpause (s : State) (p : Fin 4) : State := (s.setFld (.ethPortStatus p) F.ethPortStatus_PAUSED 0).pumpPortEps p

/-- PAUSE_FRAME: a pause time of 0 ends a pause (IEEE 802.3 Annex 31B). -/
def execPauseFrame (port : Fin 4) (quanta : BitVec 16) (s : State) : Host.Outcome State Fault Refusal :=
  .next (if !s.portOn port then s
  else
    let s1 := s.ethCount (.port port) 0
    if quanta = 0 then s1.unpause port else s1.setFld (.ethPortStatus port) F.ethPortStatus_PAUSED 1)

/-- PAUSE_TIME_EXPIRY. -/
def execPauseTimeExpiry (port : Fin 4) (s : State) : Host.Outcome State Fault Refusal := .next (s.unpause port)

/-- ETH_PORT_LINK: the link of an enabled port, and the quality that its PHY tells. -/
def execEthPortLink (port : Fin 4) (up : Bool) (quality : Fin 8) (s : State) : Host.Outcome State Fault Refusal :=
  .next (if s.portOn port then
    (s.setFld (.ethPortStatus port) F.ethPortStatus_LINK (bitNat up)).setFld (.ethPortStatus port)
      F.ethPortStatus_QUALITY quality.val
  else s)

/-- ETH_FRAME_DROP: a frame that finds the receive buffer full is counted; any other is dropped where R300 drops it. -/
def execEthFrameDrop (f : Frame) (type : Byte) (full : Bool) (s : State) : Host.Outcome State Fault Refusal :=
  .next (match s.judge type f with
    | .off => s
    | .drop k => if full then (s.ethCount f.via 0).ethCount f.via 4 else (s.ethCount f.via 0).ethCount f.via k
    | .bad e => if full then (s.ethCount f.via 0).ethCount f.via 4 else (s.ethCount f.via 0).epCount e 3
    | .mka _ => if full then (s.ethCount f.via 0).ethCount f.via 4 else s
    | .accept _ => if full then (s.ethCount f.via 0).ethCount f.via 4 else s)

/-! ## The internal endpoint (R322) -/

/-- Bytes of the inbound area. -/
abbrev inboundBytes : Nat := 0x7FF000

/-- A frame as an entry of the inbound area holds it. -/
def areaFrame (h payload : List Byte) : Frame where
  via := .internal
  fcsOk := true
  size := 64
  dst := 0
  src := 0
  vlan := 0
  etherType := 0
  macsec := false
  macsecOk := false
  pn := 0
  version := h.getD 0 0
  ring := h.getD 2 0
  endpoint := h.getD 3 0
  msgId := BitVec.ofNat 16 (beAt h 4 2)
  gen := h.getD 6 0
  flags := h.getD 7 0
  length := BitVec.ofNat 16 (beAt h 8 2)
  status := BitVec.ofNat 16 (beAt h 10 2)
  id := BitVec.ofNat 32 (beAt h 12 4)
  timestamp := BitVec.ofNat 64 (beAt h 16 8)
  offset := BitVec.ofNat 32 (beAt h 24 4)
  crc := BitVec.ofNat 32 (beAt h 28 4)
  payload := payload

/-- READ of the inbound control line advanced. -/
def State.setInboundRead (s : State) (n : Nat) : State := s.ownWrite .app (s.intBase + 4) (leBytes 4 n)

/-- The entry at READ taken; a skip leads to the beginning of the area. -/
def State.takeEntry (s : State) (read : Nat) : State :=
  let at_ := s.intBase + 0x1000 + read % inboundBytes
  let (s1, h) := s.ownRead .app at_ 32
  if h.getD 1 0 = 0 then s1.setInboundRead 0
  else
    let n := beAt h 8 2
    let (s2, payload) := s1.ownRead .app (at_ + 32) n
    (s2.setInboundRead ((read % inboundBytes + 64 * ceilDiv (32 + n) 64) % inboundBytes)).frameIn (h.getD 1 0)
      (areaFrame h payload)

/-- The new entries taken, in order. -/
def State.takeEntries : Nat → State → State
  | 0, s => s
  | k + 1, s =>
    let (s1, write, read) := s.intLine 0
    if read = write then s1 else State.takeEntries k (s1.takeEntry read)

/-- Some ring's endpoint is the internal one, and the directory is in force (R322, R361). -/
def State.internalBound (s : State) : Bool :=
  !s.boot.dirBad && (List.finRange 64).any fun e => s.epBound e && s.epInternal e

/-- INT_INBOUND_POLL: WRITE is read, and every new entry is taken. -/
def execIntInboundPoll (s : State) : Host.Outcome State Fault Refusal :=
  .next (if s.internalBound then State.takeEntries 131072 s else s)

/-- INT_OUTBOUND_READ_ADVANCE: READ of the outbound control line; what the L9 held goes on. -/
def execIntOutboundReadAdvance (read : Word) (s : State) : Host.Outcome State Fault Refusal :=
  .next (if s.internalBound then
    (List.finRange 64).foldl (fun s e => if s.epInternal e then s.pumpEp e else s)
      (s.ownWrite .app (s.intBase + 0x44) (leBytes 4 read.toNat))
  else s)

end Sys2Proof.Machine
end

