-- ==== Sys2Proof/Machine/FlashOps.lean ====
section
/-! DEFINITION. The completion of flash operations (R372, R373, R376, R379, R381, R382, R386) and write inhibition (R385). -/

namespace Sys2Proof.Machine

/-! ## Completed operations (R381, R382, R386) -/

/-- A page of a record is written: the rest follows, with what governs in the oldest block once a new block leaves but two
free; then what the record was for (R382, R383). -/
def State.pageAppended (s : State) (job : FlashJob) (area pg : Nat) (rest : List (List Byte)) (next : AppendNext) : State :=
  let more := if pg % 128 = 0 ∧ (s.freeBlocks area).length ≤ 2 then rest ++ s.keepPages area else rest
  if more.isEmpty then (s.dropJob job).afterAppend next else s.replaceJob job (.append area more false next)

/-- A block's pages copied to another, each read first (R373, R381, R382). -/
def State.blockCopied (s : State) (src dst : Nat) : State :=
  (s.readPages (s.areaOf src) (s.programmedPages [src])).copyBlock src dst

/-- A refresh or rescue after one of its operations: an anchor copy written is the governing one; a copy leaves its source to
the background erase, a rescue retires it (R376, R381, R382). -/
def State.refreshDone (s : State) (b : Nat) (rescue : Bool) (op : FlashStep) : State :=
  let job := FlashJob.refresh b rescue
  let finish (t : State) : State := if rescue then (t.dropJob job).retireBlock b else t.dropJob job
  match op with
  | .program _ _ bytes =>
    if s.areaOf b = 1 then finish { s with flash := { s.flash with anchor := bytes } } else s
  | .copy src _ =>
    if src ≠ b ∨ rescue ∨ !s.recordBlocks.contains b then finish s else s
  | .erase c => if c = b ∧ (rescue ∨ s.areaOf b ≠ 1) then finish s else s

/-- What a completed operation does for the write of which it is a step. -/
def State.stepDone (s : State) (job : FlashJob) (op : FlashStep) : State :=
  match job, op with
  | .header _ _ next, .program _ _ _ => (s.dropJob job).showSlots.afterHeader next
  | .header _ _ _, _ => s
  | .install _ _, .program _ _ _ => s.dropJob job
  | .install _ _, _ => s
  | .append area (_ :: rest) _ next, .program pg _ _ => s.pageAppended job area pg rest next
  | .append _ _ _ _, _ => s
  | .erase _, _ => s.dropJob job
  | .refresh b rescue, _ => s.refreshDone b rescue op

/-- A program reports failure: its block is retired, and the data that was being written goes, with what the block holds, to
a free block of the same area; where there is none, the write waits for another block (R381). -/
def State.programFailed (s : State) (job : FlashJob) (pg : Nat) (tag : BitVec 192) (bytes : List Byte) : State :=
  let b := pg / 128
  let area := s.areaOf b
  match (s.dataBlocks area).contains b, (s.freeBlocks area).filter fun f => f != b with
  | true, f :: _ =>
    let s1 := s.copyBlock b f
    let pg1 := pageNo f (pg % 128)
    let tag1 := mkTag area (tagLogical tag) (s1.pageSeq area pg1) (s1.erasesOf f)
    ((s1.programPage pg1 tag1 bytes).stepDone job (.program pg1 tag1 bytes)).retireBlock b
  | _, _ => s.retireBlock b

/-- An erase reports failure: the block is retired; an anchor copy waits for another block (R381). -/
def State.eraseFailed (s : State) (job : FlashJob) (b : Nat) : State :=
  match job with
  | .erase _ => (s.dropJob job).retireBlock b
  | .refresh c _ => (if c = b ∧ s.areaOf b ≠ 1 then s.dropJob job else s).retireBlock b
  | _ => s.retireBlock b

/-- Symbols of a page that have changed in its cells. -/
def State.wear (s : State) (pg : Nat) (l : List (Nat × BitVec 10)) : State :=
  { s with flash := { s.flash with flips := (l.filter fun e => decide (e.1 < pageSymbols)).foldl (fun m e =>
      smSet 0 m (pageSymbols * pg + e.1) (smGet 0 m (pageSymbols * pg + e.1) ^^^ e.2)) s.flash.flips } }

/-- The flash runs nothing. -/
def State.flashIdle (s : State) : State := { s with flash := { s.flash with running := none } }

/-- The operation in progress completes as reported, where it is the one that is reported. -/
def State.opDone (s : State) : FlashOp → State
  | .read pg area wear noise => ((s.wear pg wear).readEnds area.toNat noise.toList pg).flashIssue
  | .program pg ok =>
    match s.flash.running with
    | some (job, .program p tag bytes) =>
      if p = pg then
        (if ok then (s.flashIdle.programPage p tag bytes).stepDone job (.program p tag bytes)
          else s.flashIdle.programFailed job p tag bytes).flashIssue
      else s
    | some (job, .copy b f) =>
      if pg / 128 = f then
        (if ok then
          (s.flashIdle.blockCopied (match job with
            | .refresh c rescue => s.rescueSource c rescue
            | _ => b) f).stepDone job (.copy b f)
          else s.flashIdle.retireBlock f).flashIssue
      else s
    | _ => s
  | .erase b ok =>
    match s.flash.running with
    | some (job, .erase c) =>
      if b = c then
        (if ok then (s.flashIdle.eraseOrRetire b).stepDone job (.erase b) else s.flashIdle.eraseFailed job b).flashIssue
      else s
    | _ => s

/-- The block that an operation reports on. -/
def opBlock : FlashOp → Nat
  | .read pg _ _ _ => pg / 128
  | .program pg _ => pg / 128
  | .erase b _ => b

/-- FLASH_OP_DONE. A block beyond both devices does not exist (R370). -/
def execFlashOpDone (op : FlashOp) (s : State) : Host.Outcome State Fault Refusal :=
  if opBlock op < s.flashBlocks then .next (s.opDone op) else .fault .noSuchAddress

/-! ## Write inhibition (R385) -/

/-- Writes resume: what waits is issued, and dropped log entries leave one LOG_DROPPED (R385). -/
def State.resumeWrites (s : State) : State :=
  let s1 := ({ s with flash := { s.flash with io18Low := false, resuming := false, held := false } } : State).showInhibit
  let s2 := if 0 < s1.flash.logDropped then
      ({ s1 with flash := { s1.flash with logDropped := 0 } } : State).log logBooth 7 s1.flash.logDropped 0
    else s1
  s2.flashIssue

/-- FLASH_WRITE_RESUME: not while PWR_WARN_N is asserted. -/
def execFlashWriteResume (s : State) : Host.Outcome State Fault Refusal :=
  .next (if s.pins.warn then s else s.resumeWrites)

/-- PWR_WARN_ASSERT (R385, R462). The cap of R396 reads the pin. -/
def execPwrWarnAssert (s : State) : Host.Outcome State Fault Refusal :=
  .next ({ s with pins := { s.pins with warn := true } } : State).showInhibit

/-- PWR_WARN_DEASSERT: the wait of 10 ms begins (R385). -/
def execPwrWarnDeassert (s : State) : Host.Outcome State Fault Refusal :=
  .next (if s.pins.warn then
    ({ s with pins := { s.pins with warn := false }, flash := { s.flash with resuming := true } } : State).showInhibit
  else s)

/-- VDD_IO18_WRITE_INHIBIT. -/
def execVddIo18WriteInhibit (s : State) : Host.Outcome State Fault Refusal :=
  .next ({ s with flash := { s.flash with io18Low := true } } : State).showInhibit

/-- A write of which an operation was cut off: an install and a record write end, any other record is abandoned; a slot
header, an erase and a refresh fall due again (R363, R385; log 16). -/
def State.writeCut (s : State) (job : FlashJob) : State :=
  match job with
  | .install _ _ => s.failInstall
  | .append _ _ _ .record => (s.dropJob job).recordDone 3
  | .append _ _ _ next => (s.dropJob job).afterAppend next
  | _ => s

/-- The operation in progress is cut off at the floor, counted and shown (R385). -/
def State.floorCut (s : State) : State :=
  match s.flash.running with
  | none => s
  | some (job, _) =>
    ((s.cutFlash.bump (.flsCount 4) F.flsCount_COUNT 1).setFld .flsStatus F.flsStatus_INTERRUPTED 1).writeCut job

/-- FLASH_FLOOR_CUTOFF. -/
def execFlashFloorCutoff (s : State) : Host.Outcome State Fault Refusal :=
  .next ({ s.floorCut with flash := { s.floorCut.flash with io18Low := true } } : State).showInhibit

/-- A record write that has waited 10 s ends with cause FLASH (R385). -/
def State.dropRecord (s : State) : State :=
  if s.flash.record.isSome then
    ({ s with flash := { s.flash with queue := s.flash.queue.filter fun j => match j with
        | .append _ _ _ .record => false
        | _ => true } } : State).recordDone 3
  else s

/-- FLASH_HOLD_TIMEOUT: an install and a record write that writing has held for 10 s end. -/
def execFlashHoldTimeout (s : State) : Host.Outcome State Fault Refusal :=
  .next (if s.inhibited then (if s.boot.install.isSome then s.failInstall else s).dropRecord else s)

end Sys2Proof.Machine
end

