-- ==== Sys2Proof/Machine/Pins.lean ====
section
/-! DEFINITION. Pins and TAP: WAKE_N (R462, R474), the rail detectors (R465), the REFCLK check (R470), the boundary-scan
instructions (R475, R476). -/

namespace Sys2Proof.Machine

/-! ## WAKE_N and the detectors -/

/-- WAKE_N passes its filter (R438, R473, R474): Deep standby ends with a start, Standby ends; in any other state it is
ignored. -/
def execWakeNAssert (s : State) : Host.Outcome State Fault Refusal :=
  .next (if s.boot.phase = .deepStandby then s.coldReset.startUp else if s.inStandby then s.wakeUp else s)

/-- The detector of a rail (R465). -/
def railBit : Rail → Nat
  | .aon => 0
  | .io18 => 1
  | .soc => 2
  | .sram => 3
  | .core => 4

/-- The TAP reset: IDCODE is in force (R471, R475; log 19). -/
def tapReset (p : Pins) : Pins := { p with tapIr := 0x01, tapData := 0x1A3909C7 }

/-- RAIL_DETECT_FALL: VDD_AON acts as PORESET_N and resets the TAP, the others as SYSRESET_N; in Deep standby only VDD_AON
acts (R465, R471). -/
def execRailDetectFall (rail : Rail) (s : State) : Host.Outcome State Fault Refusal :=
  .next (
    let s1 : State := { s with pins := { s.pins with rails := s.pins.rails ||| (1#5).shiftLeft (railBit rail) } }
    if s.pins.rails.getLsbD (railBit rail) then s
    else if rail = .aon then ({ s1 with pins := tapReset s1.pins } : State).coldReset
    else if s.boot.phase = .deepStandby then s1
    else s1.resetDevice)

/-- RAIL_DETECT_CLEAR: the device starts once nothing holds it in reset (R465, R468). -/
def execRailDetectClear (rail : Rail) (s : State) : Host.Outcome State Fault Refusal :=
  .next (
    let s1 : State := { s with pins := { s.pins with rails := s.pins.rails &&& ~~~((1#5).shiftLeft (railBit rail)) } }
    if !s.pins.rails.getLsbD (railBit rail) then s
    else if s.boot.phase = .deepStandby then s1
    else s1.startUp)

/-! ## The reference clock (R470) -/

/-- A window of fewer than 200 or more than 300 edges. -/
def badWindow (edges : Nat) : Bool := decide (edges < 200) || decide (300 < edges)

/-- The security processor counts edges: only the REFCLK check itself may hold it. -/
def State.countsEdges (s : State) : Bool :=
  !s.pins.poreset && !s.pins.sysreset && s.pins.rails == 0 && s.boot.phase != .deepStandby

/-- REFCLK_WINDOW: two bad windows in a row reset the device, ten good ones in a row end that reset. -/
def execRefclkWindow (edges : Nat) (s : State) : Host.Outcome State Fault Refusal :=
  .next (if !s.countsEdges then s
    else if s.pins.refReset then
      if badWindow edges then { s with pins := { s.pins with refGood := 0 } }
      else if s.pins.refGood + 1 < 10 then { s with pins := { s.pins with refGood := s.pins.refGood + 1 } }
      else ({ s with pins := { s.pins with refReset := false, refGood := 0 } } : State).startUp
    else if !badWindow edges then { s with pins := { s.pins with refBad := 0 } }
    else if s.pins.refBad + 1 < 2 then { s with pins := { s.pins with refBad := s.pins.refBad + 1 } }
    else ({ s with pins := { s.pins with refReset := true } } : State).resetDevice)

/-! ## The TAP (R475, R476) -/

/-- An instruction in force; leaving a boundary-scan instruction lets a deferred start go on (R476). -/
def State.tapNow (s : State) (ir : Byte) : State :=
  let s1 : State := { s with pins := { s.pins with tapIr := ir, tapData := if ir = 0x01 then 0x1A3909C7 else 0 } }
  if s1.pins.deferred ≠ 0 ∧ !tapHolds ir then ({ s1 with pins := { s1.pins with deferred := 0 } } : State).startUp else s1

/-- An instruction loaded, where its condition holds; else it acts as BYPASS. The VDD_AON detector holds the TAP in reset
(R471, R475). -/
def State.tapLoad (s : State) (ir : Byte) (condition : Bool) : State :=
  if s.pins.rails.getLsbD 0 then s else s.tapNow (if condition then ir else 0xFF)

/-- A reset is asserted, or its deassertion waits for the TAP (R475, R476). -/
def State.underReset (s : State) : Bool := s.heldReset || s.pins.deferred != 0

/-- TRST_ASSERT. -/
def execTrstAssert (s : State) : Host.Outcome State Fault Refusal := .next (s.tapNow 0x01)

/-- EXTEST. -/
def execExtest (s : State) : Host.Outcome State Fault Refusal := .next (s.tapLoad 0x00 s.underReset)

/-- IDCODE. -/
def execIdcode (s : State) : Host.Outcome State Fault Refusal := .next (s.tapLoad 0x01 true)

/-- SAMPLE/PRELOAD. -/
def execSamplePreload (s : State) : Host.Outcome State Fault Refusal := .next (s.tapLoad 0x02 true)

/-- HIGHZ. -/
def execHighz (s : State) : Host.Outcome State Fault Refusal := .next (s.tapLoad 0x03 s.underReset)

/-- CLAMP. -/
def execClamp (s : State) : Host.Outcome State Fault Refusal := .next (s.tapLoad 0x04 s.underReset)

/-- EXTEST_PULSE. -/
def execExtestPulse (s : State) : Host.Outcome State Fault Refusal := .next (s.tapLoad 0x05 s.underReset)

/-- EXTEST_TRAIN. -/
def execExtestTrain (s : State) : Host.Outcome State Fault Refusal := .next (s.tapLoad 0x06 s.underReset)

/-- A private debug instruction, only at level FULL (R433, R475). What it does beyond the TAP is Dolvar's (log 70). -/
def execPrivateDebug (code : Byte) (s : State) : Host.Outcome State Fault Refusal :=
  .next (s.tapLoad code (s.debugFull && within 0x80 0xFE code.toNat))

/-- BYPASS. -/
def execBypass (s : State) : Host.Outcome State Fault Refusal := .next (s.tapLoad 0xFF true)

end Sys2Proof.Machine
end

