-- ==== Sys2Proof/Machine/Unfold.lean ====
section
/-! DEFINITION. The unfold engine: UNFOLD, POOL, RESIZE, CROP, WARP and UNFOLD_COMPLETE (R196 to R213). -/

namespace Sys2Proof.Machine

/-! ## UNFOLD: blocks (R200 to R204) -/

/-- An element of an unfolded block (R200): K padding or an unused column, a tap in padding, or an input element. -/
inductive Tap where
  | zero
  | pad
  | at_ (y x c : Nat)
  deriving DecidableEq, Repr

/-- Element `f` of the flat index in output position `p` (R200). -/
def tapOf (g : Geom) (p f : Nat) : Tap :=
  if g.kh * g.kw * g.c ≤ f then .zero
  else
    let q := g.tap p (f / g.c)
    if g.inMap q.1 q.2 then .at_ q.1.toNat q.2.toNat (f % g.c) else .pad

/-- Column `c` of the command names an output position (R200). -/
def columnUsed (g : Geom) (p0 gw c : Nat) : Bool := decide (c < gw) && decide (p0 + c < g.outH * g.outW)

/-- The block of column `c` in chunk `q` (R200). -/
def blockTaps (g : Geom) (p0 gw q c : Nat) : List Tap :=
  if columnUsed g p0 gw c then (List.range 32).map fun k => tapOf g (p0 + c) (32 * q + k) else List.replicate 32 .zero

/-- The code of an element (R200, R202). -/
def tapCode (k : Core) (g : Geom) : Tap → Nat × Bool
  | .zero => (zeroCode g.fmt, false)
  | .pad => (g.padValue, false)
  | .at_ y x c => elemCodeAt k g y x c

/-- The exponent byte of a block (R203). -/
def tapExp (k : Core) (g : Geom) (used : Bool) (taps : List Tap) : PByte :=
  if !used then (127, false)
  else if is16 g.fmt then
    (BitVec.ofNat 8 (deriveExp ((taps.map (tapCode k g)).map fun c => expand g.fmt c.1)), false)
  else if g.aligned then
    match taps.headD .zero with
    | .zero => (127, false)
    | .pad => (BitVec.ofNat 8 g.padExp, false)
    | .at_ y x c => memByte k (g.expAddr y x (c / 32))
  else memByte k g.mapBase

/-- The image of a chunk, block by block, as it stands in the A-buffer (R60, R201, R206). -/
def chunkImage (g : Geom) (blocks : List (List (Nat × Bool))) : List PByte :=
  if is16 g.fmt then
    (blocks.flatMap fun b => rowBytes g.fmt (b.take 16)) ++ blocks.flatMap fun b => rowBytes g.fmt (b.drop 16)
  else blocks.flatMap (rowBytes g.fmt)

/-- The bytes of a chunk's image (R206). -/
def imageBytes (f : ArrFmt) : Nat := if f = .code4 then 512 else if is16 f then 2048 else 1024

/-- A tap is an input element. -/
def isInput : Tap → Bool
  | .zero => false
  | .pad => false
  | .at_ _ _ _ => true

/-- A block that is written without a read, wholly from padding or K padding (R204). -/
def padBlock (used : Bool) (taps : List Tap) : Bool := used && !taps.any isInput

/-! ## UNFOLD: reads (R205) -/

/-- The core-memory ranges of a block's codes. -/
def codeRanges (g : Geom) (taps : List Tap) : List (Nat × Nat) :=
  taps.filterMap fun t => match t with
    | .at_ y x c => some (g.elem y x c, elemBytes g.fmt)
    | .zero => none
    | .pad => none

/-- The lines of a list of ranges, each once. -/
def linesOf (l : List (Nat × Nat)) : List Nat :=
  (l.flatMap fun p => (List.range ((p.1 + p.2 + 63) / 64 - p.1 / 64)).map fun i => p.1 / 64 + i).eraseDups

/-- The map bytes that cover the in-map pixels of a block (R205): every group of each pixel (log 35). -/
def pixelRanges (g : Geom) (taps : List Tap) : List (Nat × Nat) :=
  (taps.filterMap fun t => match t with
    | .at_ y x _ => some (g.expAddr y x 0, if g.aligned then g.c / 32 else 1)
    | .zero => none
    | .pad => none).eraseDups

/-- The map byte of a block. -/
def groupRanges (g : Geom) (taps : List Tap) : List (Nat × Nat) :=
  match taps.headD .zero with
  | .at_ y x c => [(g.expAddr y x (c / 32), 1)]
  | .zero => []
  | .pad => []

/-- The writes of an UNFOLD, as the taps that each takes together (R205): one 8-bit line, both halves of a code4 line of
the A-buffer, one line of a 16-bit pair. `h0` is the first half of a code4 destination, none in core memory. -/
def writeGroups (g : Geom) (h0 : Option Nat) (chunks : List (List (List Tap))) : List (List (List Tap)) :=
  if is16 g.fmt then chunks.flatMap fun b => [b.map fun t => t.take 16, b.map fun t => t.drop 16]
  else match g.fmt, h0 with
    | .code4, some 1 => (chunks.take 1) ++ (chunksOf 2 (chunks.length + 1) (chunks.drop 1)).map fun p => p.flatten
    | .code4, some _ => (chunksOf 2 (chunks.length + 1) chunks).map fun p => p.flatten
    | _, _ => chunks

/-- The lines that an UNFOLD reads (R205). -/
def readLines (g : Geom) (writes : List (List (List Tap))) : Nat :=
  let codes (w : List (List Tap)) : List (Nat × Nat) := w.flatMap (codeRanges g)
  let plain := writes.foldl (fun n w => n + (linesOf (codes w)).length) 0
  if !g.mapped then plain
  else if !g.aligned then plain + 1
  else
    let footprint := (linesOf (writes.flatMap fun w => w.flatMap (pixelRanges g))).length
    if footprint ≤ 64 then plain + footprint
    else writes.foldl (fun n w => n + (linesOf (codes w ++ w.flatMap (groupRanges g))).length) 0

/-! ## UNFOLD -/

/-- The lines of the A-buffer that an UNFOLD fills lie where R201 lets them. -/
def unfoldLinesOk (f : ArrFmt) (nl : Nat) : UnfoldDest → Bool
  | .abuf line half =>
    if is16 f then within 1 128 nl && line % 2 == 0 && decide (line + 2 * nl ≤ 256)
    else if f = .code4 then within 1 512 nl && decide (2 * line + half.val + nl ≤ 512)
    else within 1 256 nl && decide (line + nl ≤ 256)
  | .cm _ _ _ _ => if is16 f then within 1 128 nl else if f = .code4 then within 1 512 nl else within 1 256 nl

/-- The destination's pitch (R206). -/
def unfoldPitchOk (f : ArrFmt) : UnfoldDest → Bool
  | .abuf _ _ => true
  | .cm _ pitch _ _ => pitch % 64 == 0 && decide (imageBytes f ≤ pitch)

/-- The GEOM_CAUSE of an UNFOLD that is refused (R212). That one whose writes would run beyond line 255 is refused so, and
is not the ISOLATION of R141, is the model's choice (log 124). -/
def unfoldCause (b : List Byte) (p0 nl : Nat) (dest : UnfoldDest) : Option Nat :=
  let g := geomOf b
  firstCause [(geomRange b true, 1), (geomPitch g && unfoldPitchOk g.fmt dest, 2),
    (decide (p0 < g.outH * g.outW), 3), (g.padMode != 2, 4), (unfoldLinesOk g.fmt nl dest, 6)]

/-- The exponent entry of chunk `j` of an UNFOLD into the A-buffer (R60, R201). -/
def chunkEntry (f : ArrFmt) (line half j : Nat) : Nat :=
  if is16 f then 2 * (line + 2 * j) else if f = .code4 then 2 * line + half + j else 2 * (line + j)

/-- The place of chunk `j` in the A-buffer (R201). -/
def chunkPlace (f : ArrFmt) (line half j : Nat) : Nat :=
  if is16 f then 1024 * (line + 2 * j) else if f = .code4 then 512 * (2 * line + half + j) else 1024 * (line + j)

/-- The in-map taps of each column, as 32 values of 16 bits (R206). -/
def tapCounts (g : Geom) (p0 gw : Nat) : List PByte :=
  (List.range 32).flatMap fun c =>
    cleanBytes (leBytes 2 (if columnUsed g p0 gw c then (g.tapsIn (p0 + c)).length else 0))

/-- The core-memory ranges that an UNFOLD writes. -/
def unfoldWrites (f : ArrFmt) (nl : Nat) : UnfoldDest → List (Nat × Nat)
  | .abuf _ _ => []
  | .cm dest pitch expDest countDest =>
    ((List.range nl).map fun j => (dest + j * pitch, imageBytes f)) ++ [(expDest, 32 * nl)] ++
      (match countDest with | some a => [(a, 64)] | none => [])

/-- The core-memory ranges that an UNFOLD reads. -/
def unfoldReads (g : Geom) (chunks : List (List (List Tap))) : List (Nat × Nat) :=
  let taps := chunks.flatten
  taps.flatMap (codeRanges g) ++
    (if !g.mapped then [] else if g.aligned then taps.flatMap (groupRanges g) else [(g.mapBase, 1)])

/-- A chunk written: its image and its exponents (R201, R206). -/
def putChunk (f : ArrFmt) (dest : UnfoldDest) (j : Nat) (image exps : List PByte) (k : Core) : Core :=
  match dest with
  | .abuf line half =>
    opPut (opAexp + 32 * chunkEntry f line half.val j) exps (opPut (opA + chunkPlace f line half.val j) image k)
  | .cm dest pitch expDest _ => corePut (expDest + 32 * j) exps (corePut (dest + j * pitch) image k)

/-- An UNFOLD that passes its checks. -/
def State.unfoldGo (s : State) (c : Fin 16) (tag : Tag) (g : Geom) (p0 gw nl : Nat) (dest : UnfoldDest)
    (marks : BitVec 16) (done : Completion) (chunks : List (List (List Tap))) : State :=
  let used := (List.range 32).map (columnUsed g p0 gw)
  let s1 := s.touch tag c (unfoldReads g chunks)
  let k := s1.core c
  let images := chunks.map fun b =>
    (chunkImage g (b.map fun t => t.map (tapCode k g)), List.zipWith (fun u t => tapExp k g u t) used b)
  let k1 := (List.range nl).foldl (fun k' j => match images[j]? with
    | some (image, exps) => putChunk g.fmt dest j image exps k'
    | none => k') k
  let k2 := match dest with
    | .cm _ _ _ (some a) => corePut a (tapCounts g p0 gw) k1
    | .cm _ _ _ none => k1
    | .abuf _ _ => k1
  let pads := chunks.foldl (fun n b => n + ((List.zip used b).filter fun p => padBlock p.1 p.2).length) 0
  let h0 := match dest with | .abuf _ half => some half.val | .cm _ _ _ _ => none
  let padOnly := (List.range 32).any fun i => columnUsed g p0 gw i && (g.tapsIn (p0 + i)).isEmpty
  let s2 := s1.onMem tag c fun _ => unfoldStarted tag (some (.a, marks)) done k2
  let s3 := if padOnly then s2.setFld (.coreUnfoldStatus c) F.coreUnfoldStatus_PAD_ONLY 1 else s2
  (s3.bump (.coreUnfoldPadBlocks c) F.coreUnfoldPadBlocks_COUNT pads).bump (.coreUnfoldReadLines c)
    F.coreUnfoldReadLines_COUNT (readLines g (writeGroups g h0 chunks))

/-- The effect of an UNFOLD that issues (R200, R212). -/
def State.unfoldNow (s : State) (r : Fin 8) (e : Eng) (geom p0 gw k0 nl : Nat) (dest : UnfoldDest) (marks : BitVec 16)
    (done : Completion) : State :=
  let c := e.core
  s.readRecords r c e.tag [geom] fun s1 recs =>
    let b := recs.headD []
    let g := geomOf b
    match unfoldCause b p0 nl dest with
    | some cause => s1.geomRefuse c e.tag cause
    | none =>
      let chunks := (List.range nl).map fun j => (List.range 32).map fun col => blockTaps g p0 gw (k0 + j) col
      if !allInCore (unfoldReads g chunks) then s1.unfoldFault r c e.tag 0 0
      else if !allInCore (unfoldWrites g.fmt nl dest) then s1.unfoldFault r c e.tag 1 0
      else s1.unfoldGo c e.tag g p0 gw nl dest marks done chunks

/-- The regions that an UNFOLD fills, for CHECK 5 (R121): those of its lines, where its record lets it run. -/
def State.unfoldRegions (s : State) (c : Fin 16) (geom p0 nl : Nat) (dest : UnfoldDest) : List Nat :=
  let b := rawBytes (coreGet (flushRange geom 64 (s.core c)) geom 64)
  match dest with
  | .cm _ _ _ _ => []
  | .abuf line half =>
    if geom % 64 = 0 ∧ inCore geom 64 ∧ unfoldCause b p0 nl dest = none then
      fillRegions .a (chunkPlace (geomOf b).fmt line half.val 0) (nl * imageBytes (geomOf b).fmt)
    else []

/-- UNFOLD. -/
def execUnfold (e : Eng) (geom p0 gw k0 nl : Nat) (dest : UnfoldDest) (marks : BitVec 16) (done : Completion)
    (s : State) : Host.Outcome State Fault Refusal :=
  if s.badCompletion e.core done then .refused (.illFormed "UNFOLD")
  else onForm (.unfold e geom p0 gw k0 nl dest marks done) "UNFOLD"
    (s.fillCommand e qUnfold (s.unfoldRegions e.core geom p0 nl dest) fun r s1 =>
      s1.unfoldNow r e geom p0 gw k0 nl dest marks done)

/-! ## POOL (R207, R208) -/

/-- A tap that takes part in a comparison: its code, its exponent, and whether it is in the map. -/
structure PoolTap where
  code  : Nat
  expE  : Nat
  input : Bool
  deriving DecidableEq, Repr

/-- The exact value of a tap (R207). -/
def poolValue (f : ArrFmt) (t : PoolTap) : Num :=
  if is16 f then expand f t.code else numScale ((t.expE : Int) - 127) (expand f t.code)

/-- The winning tap: the earliest of the largest, or smallest, values (R207). -/
def poolWinner (f : ArrFmt) (isMin : Bool) : PoolTap → List PoolTap → PoolTap
  | best, [] => best
  | best, t :: l =>
    let better := if isMin then numLt (poolValue f t) (poolValue f best) else numLt (poolValue f best) (poolValue f t)
    poolWinner f isMin (if better then t else best) l

/-- The format's NaN that POOL writes (R208). -/
def poolNan : ArrFmt → Nat
  | .e4m3 => 0x7F
  | .e5m2 => 0x7E
  | .fp16 => 0x7E00
  | .bf16 => 0x7FC0
  | .code4 => 0
  | .code8 => 0
  | .int8 => 0

/-- What POOL writes where every tap is skipped (R208). -/
def poolEmpty (f : ArrFmt) (isMin : Bool) : Nat :=
  match f with
  | .code4 => if isMin then 0xF else 0x0
  | .code8 => if isMin then 0x7F else 0xFF
  | .int8 => if isMin then 0x7F else 0x80
  | .e4m3 => if isMin then 0x7E else 0xFE
  | .e5m2 => if isMin then 0x7C else 0xFC
  | .fp16 => if isMin then 0x7C00 else 0xFC00
  | .bf16 => if isMin then 0x7F80 else 0xFF80

/-- The taps of channel `c` of an output position (R207). -/
def poolTaps (k : Core) (g : Geom) (p c : Nat) : List PoolTap :=
  (List.range (g.kh * g.kw)).filterMap fun t =>
    let q := g.tap p t
    if g.inMap q.1 q.2 then
      some ⟨(elemCodeAt k g q.1.toNat q.2.toNat c).1, (memByte k (g.expAddr q.1.toNat q.2.toNat (c / 32))).1.toNat, true⟩
    else if g.padMode = 2 then none
    else some ⟨g.padValue, if g.aligned then g.padExp else (memByte k g.mapBase).1.toNat, false⟩

/-- The code of one output element (R207, R208): where every tap is a pad the pad code, a NaN or not. What the comparison
gives for in-map taps beside a pad that is a NaN is a free value (log 34). -/
def poolCode (f : ArrFmt) (isMin : Bool) (taps : List PoolTap) : Nat :=
  if taps.any fun t => t.input && isNan (expand f t.code) then poolNan f
  else match taps with
    | [] => poolEmpty f isMin
    | t :: l =>
      if taps.all fun t => !t.input then t.code
      else if taps.any fun t => isNan (expand f t.code) then
        Config.poolPadNan f (taps.map fun t => (t.code, t.expE, t.input)) % 2 ^ codeBits f
      else (poolWinner f isMin t l).code

/-- The map byte of group `j` of an output position in an aligned tensor (R208). -/
def poolExp (k : Core) (g : Geom) (p j : Nat) : Nat :=
  match g.tapsIn p with
  | [] => g.padExp
  | (y, x) :: _ => (memByte k (g.expAddr y x j)).1.toNat

/-- The taps of a group carry differing exponents, or a CODE pad another than they do (R208). -/
def poolMismatch (k : Core) (g : Geom) (p j : Nat) : Bool :=
  g.mapped && g.aligned &&
    ((g.tapsIn p).any (fun q => (memByte k (g.expAddr q.1 q.2 j)).1.toNat != poolExp k g p j) ||
      (g.padMode == 1 && decide ((g.tapsIn p).length < g.kh * g.kw) && g.padExp != poolExp k g p j))

/-- The groups of a pixel. -/
def Geom.groups (g : Geom) : Nat := g.c / 32

/-- What a POOL writes for output row `oy` (R207, R208). -/
def poolRow (k : Core) (g d : Geom) (isMin : Bool) (oy : Nat) : List (Nat × List PByte) :=
  ((List.range g.outW).map fun ox =>
    (d.elem oy ox 0, rowBytes g.fmt ((List.range g.c).map fun c =>
      (poolCode g.fmt isMin (poolTaps k g (oy * g.outW + ox) c), false)))) ++
  (if g.mapped && g.aligned then
    (List.range g.outW).map fun ox =>
      (d.expAddr oy ox 0, cleanBytes ((List.range g.groups).map fun j => BitVec.ofNat 8 (poolExp k g (oy * g.outW + ox) j)))
  else [])

/-- The ranges that the pixels of a list cost to read: codes and map bytes. -/
def pixelReads (g : Geom) (l : List (Nat × Nat)) : List (Nat × Nat) :=
  l.flatMap fun q => [(g.elem q.1 q.2 0, ceilDiv (g.c * codeBits g.fmt) 8)] ++
    (if g.mapped && g.aligned then [(g.expAddr q.1 q.2 0, g.groups)] else [])

/-- The ranges that output pixels of a destination take: codes, and map bytes. -/
def pixelWrites (d : Geom) (rows : List Nat) : List (Nat × Nat) :=
  pixelReads d (rows.flatMap fun y => (List.range d.w).map fun x => (y, x))

/-- The GEOM_CAUSE of a POOL that is refused (R207, R212). -/
def poolCause (a b : List Byte) (row0 rows : Nat) : Option Nat :=
  let g := geomOf a
  let d := geomOf b
  firstCause [(geomRange a true && geomRange b false, 1), (geomPitch g && geomPitch d, 2),
    (decide (row0 + rows ≤ g.outH), 3),
    (d.fmt == g.fmt && d.c == g.c && d.h == g.outH && d.w == g.outW, 5)]

/-- A POOL that passes its checks (R207, R208). -/
def State.poolGo (s : State) (r : Fin 8) (c : Fin 16) (tag : Tag) (g d : Geom) (isMin : Bool) (rows : List Nat)
    (reads : List (Nat × Nat)) (done : Completion) : State :=
  let s1 := s.touch tag c reads
  let k := s1.core c
  if reads.any fun p => anyPoison (coreGet k p.1 p.2) then s1.poisoned r tag 0 isCore c.val 1 1 0
  else
    let ps := rows.flatMap fun oy => (List.range g.outW).map fun ox => oy * g.outW + ox
    let nan := ps.any fun p => (g.tapsIn p).any fun q =>
      (List.range g.c).any fun ch => isNan (expand g.fmt (elemCodeAt k g q.1 q.2 ch).1)
    let padOnly := ps.any fun p => (g.tapsIn p).isEmpty
    let mismatch := ps.any fun p => (List.range g.groups).any fun j => poolMismatch k g p j
    let single := if g.mapped && !g.aligned then [(d.mapBase, [memByte k g.mapBase])] else []
    let k1 := putAll (rows.flatMap (poolRow k g d isMin) ++ single) k
    let s2 := (s1.onMem tag c fun _ => unfoldStarted tag none done k1).freeLines c tag
    let s3 := if nan then s2.setFld (.coreUnfoldStatus c) F.coreUnfoldStatus_NAN_SEEN 1 else s2
    let s4 := if padOnly then s3.setFld (.coreUnfoldStatus c) F.coreUnfoldStatus_PAD_ONLY 1 else s3
    if mismatch then
      ((s4.setFld (.coreUnfoldStatus c) F.coreUnfoldStatus_EXP_MISMATCH 1).setReg (.coreUnfoldErrTag c) tag).trace c
        evExpMismatch tag 0
    else s4

/-- The effect of a POOL that issues. -/
def State.poolNow (s : State) (r : Fin 8) (e : Eng) (src dst : Nat) (isMin : Bool) (row0 rows : Nat) (done : Completion) :
    State :=
  let c := e.core
  s.readRecords r c e.tag [src, dst] fun s1 recs =>
    let a := recs.getD 0 []
    let b := recs.getD 1 []
    match poolCause a b row0 rows with
    | some cause => s1.geomRefuse c e.tag cause
    | none =>
      let g := geomOf a
      let d := geomOf b
      let rs := (List.range rows).map fun i => row0 + i
      let pixels := (rs.flatMap fun oy => (List.range g.outW).flatMap fun ox => g.tapsIn (oy * g.outW + ox)).eraseDups
      let single (x : Geom) : List (Nat × Nat) := if g.mapped && !g.aligned then [(x.mapBase, 1)] else []
      let reads := pixelReads g pixels ++ single g
      if !allInCore reads then s1.unfoldFault r c e.tag 0 0
      else if !allInCore (pixelWrites d rs ++ single d) then s1.unfoldFault r c e.tag 1 0
      else s1.poolGo r c e.tag g d isMin rs reads done

/-- POOL. -/
def execPool (e : Eng) (src dst : Nat) (isMin : Bool) (row0 rows : Nat) (done : Completion) (s : State) :
    Host.Outcome State Fault Refusal :=
  if s.badCompletion e.core done then .refused (.illFormed "POOL")
  else onForm (.pool e src dst isMin row0 rows done) "POOL"
    (s.fillCommand e qUnfold [] fun r s1 => s1.poolNow r e src dst isMin row0 rows done)

/-! ## RESIZE, CROP and WARP (R209 to R211) -/

/-- The source of an output pixel: coordinates with 16 fraction bits, y before x, or none (R209). -/
abbrev Coord := Option (Int × Int)

/-- A RESIZE coordinate along one axis (R209). -/
def resizeCoord (corners : Bool) (o src dst : Nat) : Int :=
  if corners then
    if dst ≤ 1 then 0 else ((o * (src - 1) * 65536 / (dst - 1) : Nat) : Int)
  else (((2 * o + 1) * src : Nat) - (dst : Int)) * 65536 / (2 * max dst 1 : Nat)

/-- A signed 32-bit word. -/
def signed32 (w : Nat) : Int := (BitVec.ofNat 32 w).toInt

/-- The address of a coordinate-map entry (R209). -/
def mapEntry (addr wd yo xo : Nat) : Nat := addr + 8 * (yo * wd + xo)

/-- A WARP coordinate (R209). -/
def warpCoord (k : Core) (wd yo xo : Nat) : WarpSrc → Coord
  | .map addr =>
    let d := rawBytes (coreGet k (mapEntry addr wd yo xo) 8)
    if leAt d 0 4 = 0x80000000 then none else some (signed32 (leAt d 4 4), signed32 (leAt d 0 4))
  | .affine a00 a01 a02 a10 a11 a12 =>
    some (a10.toInt * xo + a11.toInt * yo + a12.toInt, a00.toInt * xo + a01.toInt * yo + a02.toInt)

/-- A coordinate clamped to 0 to n − 1 (R211). -/
def clampTo (n : Nat) (v : Int) : Nat := (max 0 (min v ((n : Int) - 1))).toNat

/-- The source pixel of a sample, or none for the pad value (R211). -/
def samplePixel (g : Geom) (y x : Int) : Option (Nat × Nat) :=
  if g.inMap y x then some (y.toNat, x.toNat)
  else if g.border then some (clampTo g.h y, clampTo g.w x)
  else none

/-- The samples of an output pixel: one, or the four corners of BILINEAR (R210). -/
def sampleList (g : Geom) (bilinear : Bool) : Coord → List (Option (Nat × Nat))
  | none => if bilinear then [none, none, none, none] else [none]
  | some (ys, xs) =>
    if bilinear then
      let y0 := ys / 65536
      let x0 := xs / 65536
      [samplePixel g y0 x0, samplePixel g y0 (x0 + 1), samplePixel g (y0 + 1) x0, samplePixel g (y0 + 1) (x0 + 1)]
    else [samplePixel g ((ys + 32768) / 65536) ((xs + 32768) / 65536)]

/-- The channels of a sampled pixel. -/
def sampleCodes (k : Core) (g : Geom) : Option (Nat × Nat) → List (Nat × Bool)
  | some (y, x) => (List.range g.c).map fun c => elemCodeAt k g y x c
  | none => List.replicate g.c (g.padValue, false)

/-- The map bytes of a sampled pixel of an aligned tensor. -/
def sampleExps (k : Core) (g : Geom) : Option (Nat × Nat) → List PByte
  | some (y, x) => (List.range g.groups).map fun j => memByte k (g.expAddr y x j)
  | none => List.replicate g.groups (BitVec.ofNat 8 g.padExp, false)

/-- A fraction of 16 bits as FP32, exactly (R210). -/
def fractionF32 (v : Int) : List PByte := cleanBytes (leBytes 4 (f32.encode (.fin false (v % 65536).toNat (-16))))

/-- The coordinates of an output pixel whose weights are written; those of an entry without a source are its words. -/
def weightCoord (k : Core) (wd yo xo : Nat) (src : Option WarpSrc) (q : Coord) : Int × Int :=
  match q, src with
  | some p, _ => p
  | none, some (.map addr) =>
    let d := rawBytes (coreGet k (mapEntry addr wd yo xo) 8)
    (signed32 (leAt d 4 4), signed32 (leAt d 0 4))
  | none, _ => (0, 0)

/-- A resampling command: its records, the extra destinations of BILINEAR, and the coordinates of each output pixel. -/
structure Resample where
  src      : Geom
  dst      : Geom
  bilinear : Option Bilinear
  warp     : Option WarpSrc
  rows     : List Nat

/-- The pieces that one output pixel writes (R210, R211). -/
def samplePieces (k : Core) (x : Resample) (coord : Nat → Nat → Coord) (yo xo : Nat) : List (Nat × List PByte) :=
  let q := coord yo xo
  let pitch := (x.bilinear.map fun b => b.planePitch).getD 0
  let planes := sampleList x.src x.bilinear.isSome q
  let codes := (List.range planes.length).flatMap fun i =>
    let p := (planes[i]?).getD none
    [(x.dst.elem yo xo 0 + i * pitch, rowBytes x.src.fmt (sampleCodes k x.src p))] ++
      (if x.src.mapped && x.src.aligned then [(x.dst.expAddr yo xo 0 + i * pitch, sampleExps k x.src p)] else [])
  match x.bilinear with
  | none => codes
  | some b =>
    let w := weightCoord k x.dst.w yo xo x.warp q
    codes ++ [(b.weightDest + 8 * (yo * x.dst.w + xo), fractionF32 w.2 ++ fractionF32 w.1)]

/-- The single exponent of a packed tensor, copied to every plane (R211). -/
def samplePacked (k : Core) (x : Resample) : List (Nat × List PByte) :=
  if x.src.mapped && !x.src.aligned then
    match x.bilinear with
    | none => [(x.dst.mapBase, [memByte k x.src.mapBase])]
    | some b => (List.range 4).map fun q => (x.dst.mapBase + q * b.planePitch, [memByte k x.src.mapBase])
  else []

/-- The output pixels of a command. -/
def Resample.pixels (x : Resample) : List (Nat × Nat) :=
  x.rows.flatMap fun y => (List.range x.dst.w).map fun xo => (y, xo)

/-- The coordinate-map ranges that a command reads. -/
def Resample.mapReads (x : Resample) : List (Nat × Nat) :=
  match x.warp with
  | some (.map addr) => x.pixels.map fun p => (mapEntry addr x.dst.w p.1 p.2, 8)
  | some (.affine _ _ _ _ _ _) => []
  | none => []

/-- The pixels that a command samples. -/
def Resample.sampled (x : Resample) (coord : Nat → Nat → Coord) : List (Nat × Nat) :=
  (x.pixels.flatMap fun p => (sampleList x.src x.bilinear.isSome (coord p.1 p.2)).filterMap id).eraseDups

/-- The GEOM_CAUSE of a resampling command that is refused (R212; log 35). -/
def resampleCause (a b : List Byte) (row0 rows : Nat) : Option Nat :=
  let g := geomOf a
  let d := geomOf b
  firstCause [(geomRange a false && geomRange b false, 1), (geomPitch g && geomPitch d, 2), (decide (row0 + rows ≤ d.h), 3),
    (g.padMode != 2 && d.padMode != 2, 4), (d.fmt == g.fmt && d.c == g.c, 5)]

/-- The ranges of the source tensor that a resampling command reads, for its coordinates (R209, R211). -/
def Resample.reads (x : Resample) (coord : Nat → Nat → Coord) : List (Nat × Nat) :=
  pixelReads x.src (x.sampled coord) ++ (if x.src.mapped && !x.src.aligned then [(x.src.mapBase, 1)] else [])

/-- What a resampling command writes, piece by piece (R210, R211). -/
def Resample.pieces (x : Resample) (k : Core) (coord : Nat → Nat → Coord) : List (Nat × List PByte) :=
  (x.pixels.flatMap fun p => samplePieces k x coord p.1 p.2) ++ samplePacked k x

/-- A resampling command whose records pass (R209 to R212). -/
def State.resampleGo (s : State) (r : Fin 8) (c : Fin 16) (tag : Tag) (x : Resample) (coord : Core → Nat → Nat → Coord)
    (done : Completion) : State :=
  if !allInCore x.mapReads then s.unfoldFault r c tag 0 0
  else
    let s1 := s.touch tag c x.mapReads
    if !allInCore (x.reads (coord (s1.core c))) then s1.unfoldFault r c tag 0 0
    else
      let s2 := s1.touch tag c (x.reads (coord (s1.core c)))
      let k := s2.core c
      if !allInCore ((x.pieces k (coord k)).map fun p => (p.1, p.2.length)) then s2.unfoldFault r c tag 1 0
      else (s2.onMem tag c fun _ => unfoldStarted tag none done (putAll (x.pieces k (coord k)) k)).freeLines c tag

/-- The effect of a RESIZE, CROP or WARP that issues. -/
def State.resampleNow (s : State) (r : Fin 8) (e : Eng) (src dst : Nat) (bilinear : Option Bilinear) (warp : Option WarpSrc)
    (coord : Geom → Geom → Core → Nat → Nat → Coord) (row0 rows : Nat) (done : Completion) : State :=
  s.readRecords r e.core e.tag [src, dst] fun s1 recs =>
    let a := recs.getD 0 []
    let b := recs.getD 1 []
    match resampleCause a b row0 rows with
    | some cause => s1.geomRefuse e.core e.tag cause
    | none =>
      s1.resampleGo r e.core e.tag ⟨geomOf a, geomOf b, bilinear, warp, (List.range rows).map fun i => row0 + i⟩
        (coord (geomOf a) (geomOf b)) done

/-- RESIZE. -/
def execResize (e : Eng) (src dst : Nat) (bilinear : Option Bilinear) (corners : Bool) (row0 rows : Nat) (done : Completion)
    (s : State) : Host.Outcome State Fault Refusal :=
  if s.badCompletion e.core done then .refused (.illFormed "RESIZE")
  else onForm (.resize e src dst bilinear corners row0 rows done) "RESIZE"
    (s.fillCommand e qUnfold [] fun r s1 =>
      s1.resampleNow r e src dst bilinear none
        (fun g d _ yo xo => some (resizeCoord corners yo g.h d.h, resizeCoord corners xo g.w d.w)) row0 rows done)

/-- CROP. -/
def execCrop (e : Eng) (src dst : Nat) (y0 x0 : Int) (row0 rows : Nat) (done : Completion) (s : State) :
    Host.Outcome State Fault Refusal :=
  if s.badCompletion e.core done then .refused (.illFormed "CROP")
  else onForm (.crop e src dst y0 x0 row0 rows done) "CROP"
    (s.fillCommand e qUnfold [] fun r s1 =>
      s1.resampleNow r e src dst none none (fun _ _ _ yo xo => some (65536 * (y0 + yo), 65536 * (x0 + xo))) row0 rows done)

/-- WARP. -/
def execWarp (e : Eng) (src dst : Nat) (bilinear : Option Bilinear) (coords : WarpSrc) (row0 rows : Nat) (done : Completion)
    (s : State) : Host.Outcome State Fault Refusal :=
  if s.badCompletion e.core done then .refused (.illFormed "WARP")
  else onForm (.warp e src dst bilinear coords row0 rows done) "WARP"
    (s.fillCommand e qUnfold [] fun r s1 =>
      s1.resampleNow r e src dst bilinear (some coords) (fun _ d k yo xo => warpCoord k d.w yo xo coords) row0 rows done)

/-- UNFOLD_COMPLETE: the engine's command completes; without one nothing does (R108, R127, R196). -/
def execUnfoldComplete (core : Fin 16) (s : State) : Host.Outcome State Fault Refusal :=
  .next (match (s.core core).unfoldBusy with
    | some b => s.engineDone core qUnfold b fun v k => { k with unfoldBusy := v }
    | none => s)

end Sys2Proof.Machine
end

