-- ==== Sys2Proof/Machine/Dispatch.lean ====
section
/-! DEFINITION. What each command does: one arm per constructor, one direct call of its meaning. -/

namespace Sys2Proof.Machine

/-- The effect of a command on everything but the queue. -/
def exec (i : Instr) (s : State) : Host.Outcome State Fault Refusal :=
  match i with
  | .step e w a set_ overwrite drain => Sys2Proof.Machine.execStep e w a set_ overwrite drain s
  | .drain e d => Sys2Proof.Machine.execDrain e d s
  | .accLoad e set_ => Sys2Proof.Machine.execAccLoad e set_ s
  | .loop u tag count => Sys2Proof.Machine.execLoop u tag count s
  | .endloop u tag => Sys2Proof.Machine.execEndloop u tag s
  | .skip u tag flag whenSet span => Sys2Proof.Machine.execSkip u tag flag whenSet span s
  | .push u tag dq entry => Sys2Proof.Machine.execPush u tag dq entry s
  | .pop u tag dq expect => Sys2Proof.Machine.execPop u tag dq expect s
  | .wait u tag gap flag consume => Sys2Proof.Machine.execWait u tag gap flag consume s
  | .set u tag gap flag => Sys2Proof.Machine.execSet u tag gap flag s
  | .clear u tag gap flag => Sys2Proof.Machine.execClear u tag gap flag s
  | .idle e vector n => Sys2Proof.Machine.execIdle e vector n s
  | .mark u tag gap operand => Sys2Proof.Machine.execMark u tag gap operand s
  | .endStream u tag gap => Sys2Proof.Machine.execEndStream u tag gap s
  | .release e vector buf region sink => Sys2Proof.Machine.execRelease e vector buf region sink s
  | .hint e cls lead duration => Sys2Proof.Machine.execHint e cls lead duration s
  | .vload e dst L src => Sys2Proof.Machine.execVload e dst L src s
  | .vstore e src L addr fmt mask done => Sys2Proof.Machine.execVstore e src L addr fmt mask done s
  | .vop e op dst L a b c fmt => Sys2Proof.Machine.execVop e op dst L a b c fmt s
  | .vfma e dst L a b c fmt => Sys2Proof.Machine.execVfma e dst L a b c fmt s
  | .vconv e dst L a src dstFmt => Sys2Proof.Machine.execVconv e dst L a src dstFmt s
  | .vfunc e fn dst L a fmt => Sys2Proof.Machine.execVfunc e fn dst L a fmt s
  | .vreduce e op dst L a segments fmt => Sys2Proof.Machine.execVreduce e op dst L a segments fmt s
  | .vlatch e k => Sys2Proof.Machine.execVlatch e k s
  | .requant e src record codes expmap column => Sys2Proof.Machine.execRequant e src record codes expmap column s
  | .scaleClose e record ringMax => Sys2Proof.Machine.execScaleClose e record ringMax s
  | .scaleSet e record exp => Sys2Proof.Machine.execScaleSet e record exp s
  | .dma e cmd => Sys2Proof.Machine.execDma e cmd s
  | .dmaComplete core tag => Sys2Proof.Machine.execDmaComplete core tag s
  | .unfold e geom p0 gw k0 nl dest marks done => Sys2Proof.Machine.execUnfold e geom p0 gw k0 nl dest marks done s
  | .pool e src dst isMin row0 rows done => Sys2Proof.Machine.execPool e src dst isMin row0 rows done s
  | .resize e src dst bilinear corners row0 rows done => Sys2Proof.Machine.execResize e src dst bilinear corners row0 rows done s
  | .crop e src dst y0 x0 row0 rows done => Sys2Proof.Machine.execCrop e src dst y0 x0 row0 rows done s
  | .warp e src dst bilinear coords row0 rows done => Sys2Proof.Machine.execWarp e src dst bilinear coords row0 rows done s
  | .unfoldComplete core => Sys2Proof.Machine.execUnfoldComplete core s
  | .stride e srcAddr src dstAddr dst count done => Sys2Proof.Machine.execStride e srcAddr src dstAddr dst count done s
  | .transpose e srcAddr src dstAddr dstPitch done => Sys2Proof.Machine.execTranspose e srcAddr src dstAddr dstPitch done s
  | .fill e dst len pattern done => Sys2Proof.Machine.execFill e dst len pattern done s
  | .copy e src dst len done => Sys2Proof.Machine.execCopy e src dst len done s
  | .storeComplete core => Sys2Proof.Machine.execStoreComplete core s
  | .gatherFlushIdle core line => Sys2Proof.Machine.execGatherFlushIdle core line s
  | .crossingDeliver x => Sys2Proof.Machine.execCrossingDeliver x s
  | .stallFault ring core => Sys2Proof.Machine.execStallFault ring core s
  | .invocationStart ring => Sys2Proof.Machine.execInvocationStart ring s
  | .invocationEnd ring => Sys2Proof.Machine.execInvocationEnd ring s
  | .ringStart ring who => Sys2Proof.Machine.execRingStart ring who s
  | .ringLoadComplete ring => Sys2Proof.Machine.execRingLoadComplete ring s
  | .ringPark ring who => Sys2Proof.Machine.execRingPark ring who s
  | .parkComplete ring => Sys2Proof.Machine.execParkComplete ring s
  | .parkTimeout ring => Sys2Proof.Machine.execParkTimeout ring s
  | .ringResume ring who => Sys2Proof.Machine.execRingResume ring who s
  | .ringStop ring who => Sys2Proof.Machine.execRingStop ring who s
  | .stopComplete ring => Sys2Proof.Machine.execStopComplete ring s
  | .flagWriteSet ring index who => Sys2Proof.Machine.execFlagWriteSet ring index who s
  | .flagWriteClear ring index who => Sys2Proof.Machine.execFlagWriteClear ring index who s
  | .ctxOpen ring ctx who => Sys2Proof.Machine.execCtxOpen ring ctx who s
  | .ctxClose ring ctx who => Sys2Proof.Machine.execCtxClose ring ctx who s
  | .ctxPrefetch ring ctx who => Sys2Proof.Machine.execCtxPrefetch ring ctx who s
  | .ctxEvict ring ctx who => Sys2Proof.Machine.execCtxEvict ring ctx who s
  | .seqAdmit ring => Sys2Proof.Machine.execSeqAdmit ring s
  | .swapOutPageDone ring ctx page => Sys2Proof.Machine.execSwapOutPageDone ring ctx page s
  | .swapInPageDone ring ctx page => Sys2Proof.Machine.execSwapInPageDone ring ctx page s
  | .pageAck f => Sys2Proof.Machine.execPageAck f s
  | .pageNak f => Sys2Proof.Machine.execPageNak f s
  | .pageData f => Sys2Proof.Machine.execPageData f s
  | .pageAnswerTimeout ring ctx page => Sys2Proof.Machine.execPageAnswerTimeout ring ctx page s
  | .csiFrameStart rx head frame => Sys2Proof.Machine.execCsiFrameStart rx head frame s
  | .csiLongPacket rx vc vcExt fixed dt payload check => Sys2Proof.Machine.execCsiLongPacket rx vc vcExt fixed dt payload check s
  | .csiEmbeddedData rx head bytes crcOk => Sys2Proof.Machine.execCsiEmbeddedData rx head bytes crcOk s
  | .csiFrameEnd rx head => Sys2Proof.Machine.execCsiFrameEnd rx head s
  | .csiSotError rx => Sys2Proof.Machine.execCsiSotError rx s
  | .frameEndTimeout ctx => Sys2Proof.Machine.execFrameEndTimeout ctx s
  | .tsWaitExpiry ctx => Sys2Proof.Machine.execTsWaitExpiry ctx s
  | .frameDeliver ctx => Sys2Proof.Machine.execFrameDeliver ctx s
  | .streamEnable ctx who => Sys2Proof.Machine.execStreamEnable ctx who s
  | .streamDisable ctx who => Sys2Proof.Machine.execStreamDisable ctx who s
  | .streamDisableDone ctx => Sys2Proof.Machine.execStreamDisableDone ctx s
  | .streamCommit ctx who => Sys2Proof.Machine.execStreamCommit ctx who s
  | .cdcOpen session who => Sys2Proof.Machine.execCdcOpen session who s
  | .cdcClose session who => Sys2Proof.Machine.execCdcClose session who s
  | .encodeUnitDone session au => Sys2Proof.Machine.execEncodeUnitDone session au s
  | .decodeUnit session picture check shown => Sys2Proof.Machine.execDecodeUnit session picture check shown s
  | .smpOpen chan who => Sys2Proof.Machine.execSmpOpen chan who s
  | .smpClose chan who => Sys2Proof.Machine.execSmpClose chan who s
  | .sampleData f => Sys2Proof.Machine.execSampleData f s
  | .sampleTake jpeg chan => Sys2Proof.Machine.execSampleTake jpeg chan s
  | .sampleDeliver chan cycles planes => Sys2Proof.Machine.execSampleDeliver chan cycles planes s
  | .sampleLate chan => Sys2Proof.Machine.execSampleLate chan s
  | .sampleChunkTimeout chan sampleId => Sys2Proof.Machine.execSampleChunkTimeout chan sampleId s
  | .regRead f => Sys2Proof.Machine.execRegRead f s
  | .regWrite f => Sys2Proof.Machine.execRegWrite f s
  | .registerWrite who addr value => Sys2Proof.Machine.execRegisterWrite who addr value s
  | .invoke f => Sys2Proof.Machine.execInvoke f s
  | .paramWrite f => Sys2Proof.Machine.execParamWrite f s
  | .memRead f => Sys2Proof.Machine.execMemRead f s
  | .streamData f => Sys2Proof.Machine.execStreamData f s
  | .frameTime f => Sys2Proof.Machine.execFrameTime f s
  | .resultRead f => Sys2Proof.Machine.execResultRead f s
  | .resultRelease f => Sys2Proof.Machine.execResultRelease f s
  | .result ring stream => Sys2Proof.Machine.execResult ring stream s
  | .resultNotice ring stream => Sys2Proof.Machine.execResultNotice ring stream s
  | .rstreamEnable ring stream who => Sys2Proof.Machine.execRstreamEnable ring stream who s
  | .rstreamDisable ring stream who => Sys2Proof.Machine.execRstreamDisable ring stream who s
  | .reassemblyTimeout ring endpoint msgId => Sys2Proof.Machine.execReassemblyTimeout ring endpoint msgId s
  | .mkaFrame f effect => Sys2Proof.Machine.execMkaFrame f effect s
  | .pauseFrame port quanta => Sys2Proof.Machine.execPauseFrame port quanta s
  | .intInboundPoll => Sys2Proof.Machine.execIntInboundPoll s
  | .quoteRequest f => Sys2Proof.Machine.execQuoteRequest f s
  | .keyWrap f => Sys2Proof.Machine.execKeyWrap f s
  | .trapezeWrite port p => Sys2Proof.Machine.execTrapezeWrite port p s
  | .trapezeRead port p => Sys2Proof.Machine.execTrapezeRead port p s
  | .readData port p => Sys2Proof.Machine.execReadData port p s
  | .writeAck port p => Sys2Proof.Machine.execWriteAck port p s
  | .link port p => Sys2Proof.Machine.execLink port p s
  | .replayTimeout port => Sys2Proof.Machine.execReplayTimeout port s
  | .linkAckTimer port => Sys2Proof.Machine.execLinkAckTimer port s
  | .portTrained port ok corrected uncorrectable => Sys2Proof.Machine.execPortTrained port ok corrected uncorrectable s
  | .hello port p => Sys2Proof.Machine.execHello port p s
  | .numberingStart => Sys2Proof.Machine.execNumberingStart s
  | .number port p => Sys2Proof.Machine.execNumber port p s
  | .numbered port p => Sys2Proof.Machine.execNumbered port p s
  | .numberedTimeout port => Sys2Proof.Machine.execNumberedTimeout port s
  | .system port p => Sys2Proof.Machine.execSystem port p s
  | .detach port p => Sys2Proof.Machine.execDetach port p s
  | .renumber port p => Sys2Proof.Machine.execRenumber port p s
  | .rediscover who => Sys2Proof.Machine.execRediscover who s
  | .quoteRelay port p => Sys2Proof.Machine.execQuoteRelay port p s
  | .quoteRelayTimeout device => Sys2Proof.Machine.execQuoteRelayTimeout device s
  | .windowOpen w who => Sys2Proof.Machine.execWindowOpen w who s
  | .windowClose w who => Sys2Proof.Machine.execWindowClose w who s
  | .windowCloseDone w => Sys2Proof.Machine.execWindowCloseDone w s
  | .remoteTimeout txn => Sys2Proof.Machine.execRemoteTimeout txn s
  | .poresetAssert => Sys2Proof.Machine.execPoresetAssert s
  | .poresetDeassert => Sys2Proof.Machine.execPoresetDeassert s
  | .sysresetAssert => Sys2Proof.Machine.execSysresetAssert s
  | .sysresetDeassert => Sys2Proof.Machine.execSysresetDeassert s
  | .boothBringUp badColumns confined slicesBad dram => Sys2Proof.Machine.execBoothBringUp badColumns confined slicesBad dram s
  | .safetyNetExpiry => Sys2Proof.Machine.execSafetyNetExpiry s
  | .confirm who => Sys2Proof.Machine.execConfirm who s
  | .restart who => Sys2Proof.Machine.execRestart who s
  | .install who => Sys2Proof.Machine.execInstall who s
  | .installComplete readBackOk => Sys2Proof.Machine.execInstallComplete readBackOk s
  | .romRead requester => Sys2Proof.Machine.execRomRead requester s
  | .announce => Sys2Proof.Machine.execAnnounce s
  | .begin f => Sys2Proof.Machine.execBegin f s
  | .data f => Sys2Proof.Machine.execData f s
  | .endRecoveryImage f => Sys2Proof.Machine.execEndRecoveryImage f s
  | .recoverySessionTimeout => Sys2Proof.Machine.execRecoverySessionTimeout s
  | .writeRecord who => Sys2Proof.Machine.execWriteRecord who s
  | .flashOpDone op => Sys2Proof.Machine.execFlashOpDone op s
  | .flashScan => Sys2Proof.Machine.execFlashScan s
  | .logPageProgram => Sys2Proof.Machine.execLogPageProgram s
  | .flashWriteResume => Sys2Proof.Machine.execFlashWriteResume s
  | .flashFloorCutoff => Sys2Proof.Machine.execFlashFloorCutoff s
  | .flashHoldTimeout => Sys2Proof.Machine.execFlashHoldTimeout s
  | .powerLoop m => Sys2Proof.Machine.execPowerLoop m s
  | .thermalLoop sensors telemetry => Sys2Proof.Machine.execThermalLoop sensors telemetry s
  | .hintHandler => Sys2Proof.Machine.execHintHandler s
  | .hintPhaseEnd core => Sys2Proof.Machine.execHintPhaseEnd core s
  | .voltageSettled => Sys2Proof.Machine.execVoltageSettled s
  | .droopDetect core => Sys2Proof.Machine.execDroopDetect core s
  | .droopRecover core => Sys2Proof.Machine.execDroopRecover core s
  | .currentLimit => Sys2Proof.Machine.execCurrentLimit s
  | .thermalEmergency sensor temp => Sys2Proof.Machine.execThermalEmergency sensor temp s
  | .thermalRecover temps => Sys2Proof.Machine.execThermalRecover temps s
  | .thermalCritical sensor temp => Sys2Proof.Machine.execThermalCritical sensor temp s
  | .lockstepMismatch within60s => Sys2Proof.Machine.execLockstepMismatch within60s s
  | .boothReloadDone m => Sys2Proof.Machine.execBoothReloadDone m s
  | .ageingSample codes steadyPoint high24h => Sys2Proof.Machine.execAgeingSample codes steadyPoint high24h s
  | .trimWrite k => Sys2Proof.Machine.execTrimWrite k s
  | .updateLoad who => Sys2Proof.Machine.execUpdateLoad who s
  | .updateLoadDone => Sys2Proof.Machine.execUpdateLoadDone s
  | .updateActivate who => Sys2Proof.Machine.execUpdateActivate who s
  | .updateDiscard who => Sys2Proof.Machine.execUpdateDiscard who s
  | .boothSwitch adopted => Sys2Proof.Machine.execBoothSwitch adopted s
  | .switchReadyTimeout => Sys2Proof.Machine.execSwitchReadyTimeout s
  | .activateTimeout => Sys2Proof.Machine.execActivateTimeout s
  | .dramRead owner tag addr expectGen flips => Sys2Proof.Machine.execDramRead owner tag addr expectGen flips s
  | .dramWrite owner tag addr bytes poisoned gen => Sys2Proof.Machine.execDramWrite owner tag addr bytes poisoned gen s
  | .dramRefresh sub => Sys2Proof.Machine.execDramRefresh sub s
  | .dramTempPoll hot => Sys2Proof.Machine.execDramTempPoll hot s
  | .ecsCollect sub count => Sys2Proof.Machine.execEcsCollect sub count s
  | .dramScrub addr flips lastOfPass => Sys2Proof.Machine.execDramScrub addr flips lastOfPass s
  | .mwyScrub slice word found => Sys2Proof.Machine.execMwyScrub slice word found s
  | .installToken who => Sys2Proof.Machine.execInstallToken who s
  | .endDebug arg who => Sys2Proof.Machine.execEndDebug arg who s
  | .deploy who => Sys2Proof.Machine.execDeploy who s
  | .returnDevice who => Sys2Proof.Machine.execReturnDevice who s
  | .scrap who => Sys2Proof.Machine.execScrap who s
  | .secRequestTimeout => Sys2Proof.Machine.execSecRequestTimeout s
  | .standby who => Sys2Proof.Machine.execStandby who s
  | .deepStandby who => Sys2Proof.Machine.execDeepStandby who s
  | .keyGenDone => Sys2Proof.Machine.execKeyGenDone s
  | .wakeNAssert => Sys2Proof.Machine.execWakeNAssert s
  | .pwrWarnAssert => Sys2Proof.Machine.execPwrWarnAssert s
  | .pwrWarnDeassert => Sys2Proof.Machine.execPwrWarnDeassert s
  | .railDetectFall rail => Sys2Proof.Machine.execRailDetectFall rail s
  | .railDetectClear rail => Sys2Proof.Machine.execRailDetectClear rail s
  | .refclkWindow edges => Sys2Proof.Machine.execRefclkWindow edges s
  | .trstAssert => Sys2Proof.Machine.execTrstAssert s
  | .extest => Sys2Proof.Machine.execExtest s
  | .idcode => Sys2Proof.Machine.execIdcode s
  | .samplePreload => Sys2Proof.Machine.execSamplePreload s
  | .highz => Sys2Proof.Machine.execHighz s
  | .clamp => Sys2Proof.Machine.execClamp s
  | .extestPulse => Sys2Proof.Machine.execExtestPulse s
  | .extestTrain => Sys2Proof.Machine.execExtestTrain s
  | .privateDebug code => Sys2Proof.Machine.execPrivateDebug code s
  | .bypass => Sys2Proof.Machine.execBypass s
  | .dbgHalt ring who => Sys2Proof.Machine.execDbgHalt ring who s
  | .dbgStep ring core queues who => Sys2Proof.Machine.execDbgStep ring core queues who s
  | .dbgResume ring who => Sys2Proof.Machine.execDbgResume ring who s
  | .dbgAccRead ring who => Sys2Proof.Machine.execDbgAccRead ring who s
  | .dbgAccWrite ring value who => Sys2Proof.Machine.execDbgAccWrite ring value who s
  | .faultPop ring seq who => Sys2Proof.Machine.execFaultPop ring seq who s
  | .traceStreamTimeout core => Sys2Proof.Machine.execTraceStreamTimeout core s
  | .syncMarker core => Sys2Proof.Machine.execSyncMarker core s
  | .ethFrameDrop f type full => Sys2Proof.Machine.execEthFrameDrop f type full s
  | .pauseTimeExpiry port => Sys2Proof.Machine.execPauseTimeExpiry port s
  | .mkaHelloTime ring endpoint => Sys2Proof.Machine.execMkaHelloTime ring endpoint s
  | .mkaLifeTimeExpiry ring endpoint => Sys2Proof.Machine.execMkaLifeTimeExpiry ring endpoint s
  | .ethPortLink port up quality => Sys2Proof.Machine.execEthPortLink port up quality s
  | .csiEccBad rx => Sys2Proof.Machine.execCsiEccBad rx s
  | .smpDecode chan reason => Sys2Proof.Machine.execSmpDecode chan reason s
  | .trapezeBadPacket b => Sys2Proof.Machine.execTrapezeBadPacket b s
  | .currentLimitClear => Sys2Proof.Machine.execCurrentLimitClear s
  | .vddIo18WriteInhibit => Sys2Proof.Machine.execVddIo18WriteInhibit s
  | .vddAonStoreHold below => Sys2Proof.Machine.execVddAonStoreHold below s
  | .intOutboundReadAdvance read => Sys2Proof.Machine.execIntOutboundReadAdvance read s

end Sys2Proof.Machine
end

