-- ==== Sys2Proof/Laws/Sparse.lean ====
section
/-! SUPPORT. The laws of the sparse maps: a read after a write gives what was written, a write leaves every other address
alone, and every operation keeps the canonical form. -/

namespace Sys2Proof.Machine

/-- A read does not see entries that lie beside its address. -/
theorem smGet_filter {w : Nat} (d : BitVec w) (p : Nat → Bool) (m : SparseMap w) (b : Nat) :
    smGet d (m.filter fun e => p e.1) b = if p b then smGet d m b else d := by
  induction m with
  | nil => simp [smGet]
  | cons e t ih =>
    obtain ⟨k, v⟩ := e
    by_cases hk : k = b
    · subst hk
      by_cases hp : p k = true
      · simp [smGet, hp]
      · simp only [List.filter_cons, hp]
        simpa [hp] using ih
    · by_cases hp : p k = true
      · simp only [List.filter_cons, hp, if_true, smGet, hk, if_false]
        exact ih
      · simp only [List.filter_cons, hp, smGet, hk, if_false]
        simpa using ih

/-- A read of two lists joined: the first one answers where it lists the address. -/
theorem smGet_append {w : Nat} (d : BitVec w) (m n : SparseMap w) (b : Nat) :
    smGet d (m ++ n) b = if m.any (fun e => e.1 == b) then smGet d m b else smGet d n b := by
  induction m with
  | nil => simp
  | cons e t ih =>
    obtain ⟨k, v⟩ := e
    by_cases hk : k = b
    · simp [smGet, hk]
    · simp [smGet, hk, ih]

/-- An address that a list does not name reads as the default. -/
theorem smGet_unlisted {w : Nat} (d : BitVec w) (m : SparseMap w) (b : Nat)
    (h : m.any (fun e => e.1 == b) = false) : smGet d m b = d := by
  induction m with
  | nil => rfl
  | cons e t ih =>
    obtain ⟨k, v⟩ := e
    simp only [List.any_cons, Bool.or_eq_false_iff, beq_eq_false_iff_ne] at h
    simp [smGet, h.1, ih h.2]

/-- A run of values read back. -/
theorem smGet_smRun {w : Nat} (d : BitVec w) (a : Nat) (l : List (BitVec w)) (b : Nat) :
    smGet d (smRun d a l) b = if a ≤ b then l.getD (b - a) d else d := by
  induction l generalizing a with
  | nil => simp [smRun, smGet]
  | cons v t ih =>
    have hstep : a ≠ b → a ≤ b → (v :: t).getD (b - a) d = t.getD (b - (a + 1)) d := by
      intro hne hle
      rw [show b - a = (b - (a + 1)) + 1 by omega]
      simp
    unfold smRun
    by_cases hv : v = d
    · rw [if_pos hv, ih]
      by_cases hab : a = b
      · subst hab
        simp [hv]
      · by_cases hle : a ≤ b
        · rw [if_pos (by omega), if_pos hle, hstep hab hle]
        · rw [if_neg (by omega), if_neg hle]
    · rw [if_neg hv, smGet]
      by_cases hab : a = b
      · subst hab
        simp
      · rw [if_neg hab, ih]
        by_cases hle : a ≤ b
        · rw [if_pos (by omega), if_pos hle, hstep hab hle]
        · rw [if_neg (by omega), if_neg hle]

/-- The entries of a run lie within it. -/
theorem smRun_any {w : Nat} (d : BitVec w) (a : Nat) (l : List (BitVec w)) (b : Nat)
    (h : b < a ∨ a + l.length ≤ b) : (smRun d a l).any (fun e => e.1 == b) = false := by
  induction l generalizing a with
  | nil => rfl
  | cons v t ih =>
    have ht := ih (a + 1) (by simp only [List.length_cons] at h; omega)
    unfold smRun
    split
    · exact ht
    · rw [List.any_cons, ht]
      simp only [List.length_cons] at h
      simp
      omega

/-- A read after a write of a run: within the run what was written, elsewhere what was there. -/
theorem smGet_smWrite {w : Nat} (d : BitVec w) (m : SparseMap w) (a : Nat) (l : List (BitVec w)) (b : Nat) :
    smGet d (smWrite d m a l) b = if a ≤ b ∧ b < a + l.length then l.getD (b - a) d else smGet d m b := by
  unfold smWrite
  rw [List.append_assoc, smGet_append, smGet_append, smGet_filter d (fun k => decide (k < a)),
    smGet_filter d (fun k => decide (a + l.length ≤ k)), smGet_smRun]
  by_cases h1 : b < a
  · have hr := smRun_any d a l b (Or.inl h1)
    simp only [h1, decide_true, if_true, hr]
    rw [if_neg (by omega : ¬(a ≤ b ∧ b < a + l.length))]
    split
    · rfl
    · rename_i hn
      have hu := smGet_unlisted d _ b (Bool.eq_false_iff.mpr hn)
      rw [smGet_filter d (fun k => decide (k < a))] at hu
      simp only [h1, decide_true, if_true] at hu
      simp [show ¬ a + l.length ≤ b by omega, hu]
  · have hf : (m.filter fun e => decide (e.1 < a)).any (fun e => e.1 == b) = false := by
      simp only [List.any_eq_false, List.mem_filter, decide_eq_true_eq, beq_iff_eq]
      rintro e ⟨_, he⟩ rfl
      omega
    rw [hf]
    by_cases h2 : b < a + l.length
    · rw [if_pos (⟨by omega, h2⟩ : a ≤ b ∧ b < a + l.length)]
      simp only [Bool.false_eq_true, if_false]
      split
      · rw [if_pos (by omega)]
      · rename_i hn
        have hu := smGet_unlisted d _ b (Bool.eq_false_iff.mpr hn)
        rw [smGet_smRun, if_pos (by omega)] at hu
        rw [if_neg (by simp; omega), hu]
    · have hr := smRun_any d a l b (Or.inr (by omega))
      simp only [Bool.false_eq_true, if_false, hr]
      rw [if_neg (by omega : ¬(a ≤ b ∧ b < a + l.length))]
      simp [show a + l.length ≤ b by omega]

/-- A read after a write of one value. -/
theorem smGet_smSet {w : Nat} (d : BitVec w) (m : SparseMap w) (a : Nat) (v : BitVec w) (b : Nat) :
    smGet d (smSet d m a v) b = if a = b then v else smGet d m b := by
  unfold smSet
  rw [smGet_smWrite]
  by_cases h : a = b
  · subst h
    simp
  · rw [if_neg h, if_neg (by simp only [List.length_singleton]; omega)]

/-- A read of the address written. -/
@[simp] theorem smGet_smSet_same {w : Nat} (d : BitVec w) (m : SparseMap w) (a : Nat) (v : BitVec w) :
    smGet d (smSet d m a v) a = v := by
  rw [smGet_smSet, if_pos rfl]

/-- A read of another address. -/
theorem smGet_smSet_ne {w : Nat} (d : BitVec w) (m : SparseMap w) {a b : Nat} (v : BitVec w) (h : a ≠ b) :
    smGet d (smSet d m a v) b = smGet d m b := by
  rw [smGet_smSet, if_neg h]

/-- A read after a range has been put back to the default. -/
theorem smGet_smClear {w : Nat} (d : BitVec w) (m : SparseMap w) (lo hi b : Nat) :
    smGet d (smClear m lo hi) b = if lo ≤ b ∧ b < hi then d else smGet d m b := by
  unfold smClear
  rw [smGet_filter d (fun k => decide (k < lo) || decide (hi ≤ k))]
  by_cases h : lo ≤ b ∧ b < hi
  · rw [if_pos h, if_neg]
    simp
    omega
  · rw [if_neg h, if_pos]
    simp
    omega

/-- `n` values read after a write elsewhere. -/
theorem smRead_smWrite_disjoint {w : Nat} (d : BitVec w) (m : SparseMap w) (a : Nat) (l : List (BitVec w)) (b n : Nat)
    (h : b + n ≤ a ∨ a + l.length ≤ b) : smRead d (smWrite d m a l) b n = smRead d m b n := by
  induction n generalizing b with
  | zero => rfl
  | succ n ih =>
    unfold smRead
    rw [ih (b + 1) (by omega), smGet_smWrite, if_neg (by omega)]

/-- A run of values written and read back whole. -/
theorem smRead_smWrite_same {w : Nat} (d : BitVec w) (m : SparseMap w) (a : Nat) (l : List (BitVec w)) :
    smRead d (smWrite d m a l) a l.length = l := by
  suffices h : ∀ (k : Nat), k ≤ l.length →
      smRead d (smWrite d m a l) (a + (l.length - k)) k = l.drop (l.length - k) by
    have h0 := h l.length (Nat.le_refl _)
    simpa using h0
  intro k
  induction k with
  | zero => intro _; simp [smRead]
  | succ k ih =>
    intro hk
    unfold smRead
    rw [show a + (l.length - (k + 1)) + 1 = a + (l.length - k) by omega, ih (by omega), smGet_smWrite,
      if_pos (by omega), show a + (l.length - (k + 1)) - a = l.length - (k + 1) by omega]
    have hlt : l.length - (k + 1) < l.length := by omega
    rw [List.getD_eq_getElem _ _ hlt]
    conv => rhs; rw [List.drop_eq_getElem_cons hlt]
    rw [show l.length - (k + 1) + 1 = l.length - k by omega]

/-! ## The canonical form -/

/-- The canonical form from a lower address on. -/
theorem smWfFrom_mono {w : Nat} (d : BitVec w) {lo lo' : Nat} (h : lo' ≤ lo) {m : SparseMap w}
    (hm : smWfFrom d lo m = true) : smWfFrom d lo' m = true := by
  cases m with
  | nil => rfl
  | cons e t =>
    obtain ⟨k, v⟩ := e
    simp only [smWfFrom, Bool.and_eq_true, decide_eq_true_eq] at hm ⊢
    exact ⟨⟨by omega, hm.1.2⟩, hm.2⟩

/-- The canonical form, as what it says of the entries. -/
theorem smWfFrom_iff {w : Nat} (d : BitVec w) (lo : Nat) (m : SparseMap w) :
    smWfFrom d lo m = true ↔
      (∀ e ∈ m, lo ≤ e.1 ∧ e.2 ≠ d) ∧ m.Pairwise (fun x y => x.1 < y.1) := by
  induction m generalizing lo with
  | nil => simp [smWfFrom]
  | cons e t ih =>
    obtain ⟨k, v⟩ := e
    simp only [smWfFrom, Bool.and_eq_true, decide_eq_true_eq, bne_iff_ne, ih, List.forall_mem_cons,
      List.pairwise_cons]
    constructor
    · rintro ⟨⟨h1, h2⟩, h3, h4⟩
      exact ⟨⟨⟨h1, h2⟩, fun e he => ⟨by have := (h3 e he).1; omega, (h3 e he).2⟩⟩,
        fun e he => by have := (h3 e he).1; omega, h4⟩
    · rintro ⟨⟨⟨h1, h2⟩, h3⟩, h4, h5⟩
      exact ⟨⟨h1, h2⟩, fun e he => ⟨by have := h4 e he; omega, (h3 e he).2⟩, h5⟩

/-- The canonical form of a whole map. -/
theorem smWf_iff {w : Nat} (d : BitVec w) (m : SparseMap w) :
    smWf d m = true ↔ (∀ e ∈ m, e.2 ≠ d) ∧ m.Pairwise (fun x y => x.1 < y.1) := by
  unfold smWf
  rw [smWfFrom_iff]
  simp

/-- Taking entries out keeps the canonical form. -/
theorem smWf_filter {w : Nat} (d : BitVec w) (p : Nat × BitVec w → Bool) {m : SparseMap w} (h : smWf d m = true) :
    smWf d (m.filter p) = true := by
  rw [smWf_iff] at h ⊢
  exact ⟨fun e he => h.1 e (List.mem_filter.mp he).1, h.2.sublist List.filter_sublist⟩

/-- The entries of a run: within it, none of them the default, rising. -/
theorem smRun_entries {w : Nat} (d : BitVec w) (a : Nat) (l : List (BitVec w)) :
    (∀ e ∈ smRun d a l, a ≤ e.1 ∧ e.1 < a + l.length ∧ e.2 ≠ d) ∧
      (smRun d a l).Pairwise (fun x y => x.1 < y.1) := by
  induction l generalizing a with
  | nil => simp [smRun]
  | cons v t ih =>
    obtain ⟨h1, h2⟩ := ih (a + 1)
    unfold smRun
    split
    · refine ⟨fun e he => ?_, h2⟩
      have := h1 e he
      simp only [List.length_cons]
      exact ⟨by omega, by omega, this.2.2⟩
    · rename_i hv
      refine ⟨?_, ?_⟩
      · intro e he
        rcases List.mem_cons.mp he with rfl | he
        · simp only [List.length_cons]
          exact ⟨by omega, by omega, hv⟩
        · have := h1 e he
          simp only [List.length_cons]
          exact ⟨by omega, by omega, this.2.2⟩
      · rw [List.pairwise_cons]
        exact ⟨fun e he => by have := (h1 e he).1; simp only; omega, h2⟩

/-- A write of a run keeps the canonical form. -/
theorem smWf_smWrite {w : Nat} (d : BitVec w) {m : SparseMap w} (a : Nat) (l : List (BitVec w))
    (h : smWf d m = true) : smWf d (smWrite d m a l) = true := by
  obtain ⟨r1, r2⟩ := smRun_entries d a l
  rw [smWf_iff] at h ⊢
  unfold smWrite
  refine ⟨?_, ?_⟩
  · intro e he
    simp only [List.mem_append, List.mem_filter] at he
    rcases he with (he | he) | he
    · exact h.1 e he.1
    · exact (r1 e he).2.2
    · exact h.1 e he.1
  · refine List.pairwise_append.mpr ⟨List.pairwise_append.mpr ⟨h.2.sublist List.filter_sublist, r2, ?_⟩,
      h.2.sublist List.filter_sublist, ?_⟩
    · intro x hx y hy
      have hx' := (List.mem_filter.mp hx).2
      have hy' := (r1 y hy).1
      simp only [decide_eq_true_eq] at hx'
      omega
    · intro x hx y hy
      have hy' := (List.mem_filter.mp hy).2
      simp only [decide_eq_true_eq] at hy'
      rcases List.mem_append.mp hx with hx | hx
      · have hx' := (List.mem_filter.mp hx).2
        simp only [decide_eq_true_eq] at hx'
        omega
      · have := (r1 x hx).2.1
        omega

/-- A write of one value keeps the canonical form. -/
theorem smWf_smSet {w : Nat} (d : BitVec w) {m : SparseMap w} (a : Nat) (v : BitVec w) (h : smWf d m = true) :
    smWf d (smSet d m a v) = true := smWf_smWrite d a [v] h

/-- Putting a range back to the default keeps the canonical form. -/
theorem smWf_smClear {w : Nat} (d : BitVec w) {m : SparseMap w} (lo hi : Nat) (h : smWf d m = true) :
    smWf d (smClear m lo hi) = true := smWf_filter d _ h

/-- Filling a range keeps the canonical form. -/
theorem smWf_smFill {w : Nat} (d : BitVec w) {m : SparseMap w} (a : Nat) (v : BitVec w) (n : Nat)
    (h : smWf d m = true) : smWf d (smFill d m a v n) = true := smWf_smWrite d a _ h

end Sys2Proof.Machine
end

