-- ==== Sys2Proof/Laws/Regs.lean ====
section
/-! SUPPORT. The laws of registers and their fields: a read of a register or field after a write of the same one, of
another field, of another register. -/

namespace Sys2Proof.Machine

/-- The part of a word above a field, the field, and the part below. -/
theorem word_split (W lo k : Nat) :
    W = W / 2 ^ (lo + k) * 2 ^ (lo + k) + W / 2 ^ lo % 2 ^ k * 2 ^ lo + W % 2 ^ lo := by
  have h1 := Nat.div_add_mod W (2 ^ lo)
  have h2 := Nat.div_add_mod (W / 2 ^ lo) (2 ^ k)
  have h3 : W / 2 ^ lo / 2 ^ k = W / 2 ^ (lo + k) := by rw [Nat.div_div_eq_div_mul, pow_add]
  rw [h3] at h2
  calc W = 2 ^ lo * (W / 2 ^ lo) + W % 2 ^ lo := h1.symm
    _ = 2 ^ lo * (2 ^ k * (W / 2 ^ (lo + k)) + W / 2 ^ lo % 2 ^ k) + W % 2 ^ lo := by rw [h2]
    _ = _ := by rw [pow_add]; ring

/-- A field that lies in a word (R12). -/
def Fld.ok (f : Fld) : Prop := f.lo ≤ f.hi ∧ f.hi < 32

/-- A word with a field replaced, as a number. -/
theorem Fld.toNat_put (f : Fld) (w : Word) (n : Nat) (h : f.ok) :
    (f.put w n).toNat = w.toNat / 2 ^ (f.hi + 1) * 2 ^ (f.hi + 1) + n % 2 ^ (f.hi + 1 - f.lo) * 2 ^ f.lo +
      w.toNat % 2 ^ f.lo := by
  obtain ⟨h1, h2⟩ := h
  obtain ⟨k, hk⟩ : ∃ k, f.hi + 1 = f.lo + k := ⟨f.hi + 1 - f.lo, by omega⟩
  have hk' : f.hi + 1 - f.lo = k := by omega
  have hs := word_split w.toNat f.lo k
  have hn : n % 2 ^ k * 2 ^ f.lo + w.toNat % 2 ^ f.lo < 2 ^ (f.lo + k) := by
    have a1 : n % 2 ^ k < 2 ^ k := Nat.mod_lt _ (by positivity)
    have a2 : w.toNat % 2 ^ f.lo < 2 ^ f.lo := Nat.mod_lt _ (by positivity)
    have a3 : (n % 2 ^ k + 1) * 2 ^ f.lo ≤ 2 ^ k * 2 ^ f.lo := Nat.mul_le_mul_right _ a1
    rw [pow_add, mul_comm (2 ^ f.lo)]
    linarith [add_mul (n % 2 ^ k) 1 (2 ^ f.lo)]
  have htop : w.toNat / 2 ^ (f.lo + k) < 2 ^ (32 - (f.lo + k)) := by
    rw [Nat.div_lt_iff_lt_mul (by positivity), ← pow_add, show 32 - (f.lo + k) + (f.lo + k) = 32 by omega]
    exact w.isLt
  have hfit : w.toNat / 2 ^ (f.lo + k) * 2 ^ (f.lo + k) + n % 2 ^ k * 2 ^ f.lo + w.toNat % 2 ^ f.lo < 2 ^ 32 := by
    have b1 : (w.toNat / 2 ^ (f.lo + k) + 1) * 2 ^ (f.lo + k) ≤ 2 ^ (32 - (f.lo + k)) * 2 ^ (f.lo + k) :=
      Nat.mul_le_mul_right _ htop
    rw [← pow_add, show 32 - (f.lo + k) + (f.lo + k) = 32 by omega] at b1
    linarith [add_mul (w.toNat / 2 ^ (f.lo + k)) 1 (2 ^ (f.lo + k))]
  unfold Fld.put Fld.get
  rw [hk', hk, BitVec.toNat_ofNat, Nat.mod_eq_of_lt]
  · omega
  · omega

/-- A field read after it has been written. -/
theorem Fld.get_put (f : Fld) (w : Word) (n : Nat) (h : f.ok) : f.get (f.put w n) = n % 2 ^ (f.hi + 1 - f.lo) := by
  unfold Fld.get
  rw [Fld.toNat_put f w n h]
  obtain ⟨h1, h2⟩ := h
  obtain ⟨k, hk⟩ : ∃ k, f.hi + 1 = f.lo + k := ⟨f.hi + 1 - f.lo, by omega⟩
  rw [show f.hi + 1 - f.lo = k by omega, hk]
  have e : w.toNat / 2 ^ (f.lo + k) * 2 ^ (f.lo + k) + n % 2 ^ k * 2 ^ f.lo + w.toNat % 2 ^ f.lo =
      (w.toNat / 2 ^ (f.lo + k) * 2 ^ k + n % 2 ^ k) * 2 ^ f.lo + w.toNat % 2 ^ f.lo := by
    rw [pow_add]; ring
  rw [e, Nat.add_comm, Nat.add_mul_div_right _ _ (by positivity),
    Nat.div_eq_of_lt (Nat.mod_lt _ (by positivity)), Nat.zero_add, Nat.add_comm, Nat.add_mul_mod_self_right,
    Nat.mod_mod]

/-- Another field of the word, below or above, is as before. -/
theorem Fld.get_put_other (f g : Fld) (w : Word) (n : Nat) (h : f.ok) (hg : g.lo ≤ g.hi)
    (hd : g.hi < f.lo ∨ f.hi < g.lo) : g.get (f.put w n) = g.get w := by
  have hp := Fld.toNat_put f w n h
  obtain ⟨h1, h2⟩ := h
  obtain ⟨k, hk⟩ : ∃ k, f.hi + 1 = f.lo + k := ⟨f.hi + 1 - f.lo, by omega⟩
  have hs := word_split w.toNat f.lo k
  unfold Fld.get
  rw [hp, show f.hi + 1 - f.lo = k by omega, hk]
  rcases hd with hd | hd
  · have red : ∀ x : Nat, x / 2 ^ g.lo % 2 ^ (g.hi + 1 - g.lo) = x % 2 ^ f.lo / 2 ^ g.lo % 2 ^ (g.hi + 1 - g.lo) := by
      intro x
      have e : 2 ^ f.lo = 2 ^ g.lo * 2 ^ (f.lo - g.lo) := by rw [← pow_add]; congr 1; omega
      rw [e, Nat.mod_mul_right_div_self, Nat.mod_mod_of_dvd _ (pow_dvd_pow 2 (by omega))]
    rw [red, red w.toNat]
    congr 2
    rw [pow_add, show w.toNat / (2 ^ f.lo * 2 ^ k) * (2 ^ f.lo * 2 ^ k) + n % 2 ^ k * 2 ^ f.lo + w.toNat % 2 ^ f.lo =
      w.toNat % 2 ^ f.lo + 2 ^ f.lo * (w.toNat / (2 ^ f.lo * 2 ^ k) * 2 ^ k + n % 2 ^ k) by ring,
      Nat.add_mul_mod_self_left, Nat.mod_mod]
  · have red : ∀ x : Nat, x / 2 ^ g.lo = x / 2 ^ (f.lo + k) / 2 ^ (g.lo - (f.lo + k)) := by
      intro x
      rw [Nat.div_div_eq_div_mul, ← pow_add, show f.lo + k + (g.lo - (f.lo + k)) = g.lo by omega]
    rw [red, red w.toNat]
    congr 2
    have a1 : n % 2 ^ k < 2 ^ k := Nat.mod_lt _ (by positivity)
    have a2 : w.toNat % 2 ^ f.lo < 2 ^ f.lo := Nat.mod_lt _ (by positivity)
    have a3 : (n % 2 ^ k + 1) * 2 ^ f.lo ≤ 2 ^ k * 2 ^ f.lo := Nat.mul_le_mul_right _ a1
    rw [add_assoc, Nat.add_comm, Nat.add_mul_div_right _ _ (by positivity), Nat.div_eq_of_lt, Nat.zero_add]
    rw [pow_add, mul_comm (2 ^ f.lo)]
    linarith [add_mul (n % 2 ^ k) 1 (2 ^ f.lo)]

/-! ## Registers -/

/-- A register read after it has been stored. -/
@[simp] theorem reg_setReg (s : State) (r : Reg) (v : Word) : (s.setReg r v).reg r = v := by
  simp [State.reg, State.setReg]

/-- A register at another address read after a store. -/
theorem reg_setReg_ne (s : State) {r q : Reg} (v : Word) (h : r.addr ≠ q.addr) : (s.setReg r v).reg q = s.reg q := by
  simp [State.reg, State.setReg, smGet_smSet_ne _ _ _ h]

/-- A register after a field has been set. -/
theorem reg_setFld (s : State) (r : Reg) (f : Fld) (n : Nat) : (s.setFld r f n).reg r = f.put (s.reg r) n := by
  simp [State.setFld]

/-- A register at another address after a field has been set. -/
theorem reg_setFld_ne (s : State) {r q : Reg} (f : Fld) (n : Nat) (h : r.addr ≠ q.addr) :
    (s.setFld r f n).reg q = s.reg q := reg_setReg_ne s _ h

/-- A field after it has been set. -/
theorem fld_setFld (s : State) (r : Reg) (f : Fld) (n : Nat) (h : f.ok) :
    (s.setFld r f n).fld r f = n % 2 ^ (f.hi + 1 - f.lo) := by
  unfold State.fld
  rw [reg_setFld, Fld.get_put f _ n h]

/-- Another field of the register after a field has been set. -/
theorem fld_setFld_other (s : State) (r : Reg) (f g : Fld) (n : Nat) (h : f.ok) (hg : g.lo ≤ g.hi)
    (hd : g.hi < f.lo ∨ f.hi < g.lo) : (s.setFld r f n).fld r g = s.fld r g := by
  unfold State.fld
  rw [reg_setFld, Fld.get_put_other f g _ n h hg hd]

/-- A field of another register after a field has been set. -/
theorem fld_setFld_ne (s : State) {r q : Reg} (f g : Fld) (n : Nat) (h : r.addr ≠ q.addr) :
    (s.setFld r f n).fld q g = s.fld q g := by
  unfold State.fld
  rw [reg_setFld_ne s f n h]

/-- A counter after it has been raised: the sum, or the field's maximum. -/
theorem fld_bump (s : State) (r : Reg) (f : Fld) (n : Nat) (h : f.ok) :
    (s.bump r f n).fld r f = min (s.fld r f + n) (2 ^ (f.hi + 1 - f.lo) - 1) := by
  have hlt : min (f.get (s.reg r) + n) (2 ^ (f.hi + 1 - f.lo) - 1) < 2 ^ (f.hi + 1 - f.lo) := by
    have : 0 < 2 ^ (f.hi + 1 - f.lo) := by positivity
    omega
  unfold State.bump
  rw [fld_setFld s r f _ h, Nat.mod_eq_of_lt hlt]
  rfl

end Sys2Proof.Machine
end

