-- ==== Sys2Proof/Laws/State.lean ====
section
/-! SUPPORT. What each named update of State leaves alone: one lemma per field and update, and the lemmas of the part
that it changes. -/

namespace Sys2Proof.Machine

/-! ## setReg -/

@[simp] theorem setReg_pending (s : State) (r : Reg) (v : Word) : (s.setReg r v).pending = s.pending := rfl
@[simp] theorem setReg_shadows (s : State) (r : Reg) (v : Word) : (s.setReg r v).shadows = s.shadows := rfl
@[simp] theorem setReg_heldLow (s : State) (r : Reg) (v : Word) : (s.setReg r v).heldLow = s.heldLow := rfl
@[simp] theorem setReg_cycles (s : State) (r : Reg) (v : Word) : (s.setReg r v).cycles = s.cycles := rfl
@[simp] theorem setReg_cores (s : State) (r : Reg) (v : Word) : (s.setReg r v).cores = s.cores := rfl
@[simp] theorem setReg_rings (s : State) (r : Reg) (v : Word) : (s.setReg r v).rings = s.rings := rfl
@[simp] theorem setReg_mwy (s : State) (r : Reg) (v : Word) : (s.setReg r v).mwy = s.mwy := rfl
@[simp] theorem setReg_mwyBad (s : State) (r : Reg) (v : Word) : (s.setReg r v).mwyBad = s.mwyBad := rfl
@[simp] theorem setReg_mwyFlips (s : State) (r : Reg) (v : Word) : (s.setReg r v).mwyFlips = s.mwyFlips := rfl
@[simp] theorem setReg_dram (s : State) (r : Reg) (v : Word) : (s.setReg r v).dram = s.dram := rfl
@[simp] theorem setReg_streams (s : State) (r : Reg) (v : Word) : (s.setReg r v).streams = s.streams := rfl
@[simp] theorem setReg_sessions (s : State) (r : Reg) (v : Word) : (s.setReg r v).sessions = s.sessions := rfl
@[simp] theorem setReg_chans (s : State) (r : Reg) (v : Word) : (s.setReg r v).chans = s.chans := rfl
@[simp] theorem setReg_smpNext (s : State) (r : Reg) (v : Word) : (s.setReg r v).smpNext = s.smpNext := rfl
@[simp] theorem setReg_wire (s : State) (r : Reg) (v : Word) : (s.setReg r v).wire = s.wire := rfl
@[simp] theorem setReg_ethTurn (s : State) (r : Reg) (v : Word) : (s.setReg r v).ethTurn = s.ethTurn := rfl
@[simp] theorem setReg_eps (s : State) (r : Reg) (v : Word) : (s.setReg r v).eps = s.eps := rfl
@[simp] theorem setReg_trz (s : State) (r : Reg) (v : Word) : (s.setReg r v).trz = s.trz := rfl
@[simp] theorem setReg_boot (s : State) (r : Reg) (v : Word) : (s.setReg r v).boot = s.boot := rfl
@[simp] theorem setReg_flash (s : State) (r : Reg) (v : Word) : (s.setReg r v).flash = s.flash := rfl
@[simp] theorem setReg_power (s : State) (r : Reg) (v : Word) : (s.setReg r v).power = s.power := rfl
@[simp] theorem setReg_sec (s : State) (r : Reg) (v : Word) : (s.setReg r v).sec = s.sec := rfl
@[simp] theorem setReg_pins (s : State) (r : Reg) (v : Word) : (s.setReg r v).pins = s.pins := rfl
@[simp] theorem setReg_devFaults (s : State) (r : Reg) (v : Word) : (s.setReg r v).devFaults = s.devFaults := rfl
@[simp] theorem setReg_faultSeq (s : State) (r : Reg) (v : Word) : (s.setReg r v).faultSeq = s.faultSeq := rfl
@[simp] theorem setReg_cross (s : State) (r : Reg) (v : Word) : (s.setReg r v).cross = s.cross := rfl
@[simp] theorem setReg_heldBack (s : State) (r : Reg) (v : Word) : (s.setReg r v).heldBack = s.heldBack := rfl
@[simp] theorem setReg_fresh (s : State) (r : Reg) (v : Word) : (s.setReg r v).fresh = s.fresh := rfl

/-! ## setFld -/

@[simp] theorem setFld_pending (s : State) (r : Reg) (f : Fld) (n : Nat) : (s.setFld r f n).pending = s.pending := rfl
@[simp] theorem setFld_shadows (s : State) (r : Reg) (f : Fld) (n : Nat) : (s.setFld r f n).shadows = s.shadows := rfl
@[simp] theorem setFld_heldLow (s : State) (r : Reg) (f : Fld) (n : Nat) : (s.setFld r f n).heldLow = s.heldLow := rfl
@[simp] theorem setFld_cycles (s : State) (r : Reg) (f : Fld) (n : Nat) : (s.setFld r f n).cycles = s.cycles := rfl
@[simp] theorem setFld_cores (s : State) (r : Reg) (f : Fld) (n : Nat) : (s.setFld r f n).cores = s.cores := rfl
@[simp] theorem setFld_rings (s : State) (r : Reg) (f : Fld) (n : Nat) : (s.setFld r f n).rings = s.rings := rfl
@[simp] theorem setFld_mwy (s : State) (r : Reg) (f : Fld) (n : Nat) : (s.setFld r f n).mwy = s.mwy := rfl
@[simp] theorem setFld_mwyBad (s : State) (r : Reg) (f : Fld) (n : Nat) : (s.setFld r f n).mwyBad = s.mwyBad := rfl
@[simp] theorem setFld_mwyFlips (s : State) (r : Reg) (f : Fld) (n : Nat) : (s.setFld r f n).mwyFlips = s.mwyFlips := rfl
@[simp] theorem setFld_dram (s : State) (r : Reg) (f : Fld) (n : Nat) : (s.setFld r f n).dram = s.dram := rfl
@[simp] theorem setFld_streams (s : State) (r : Reg) (f : Fld) (n : Nat) : (s.setFld r f n).streams = s.streams := rfl
@[simp] theorem setFld_sessions (s : State) (r : Reg) (f : Fld) (n : Nat) : (s.setFld r f n).sessions = s.sessions := rfl
@[simp] theorem setFld_chans (s : State) (r : Reg) (f : Fld) (n : Nat) : (s.setFld r f n).chans = s.chans := rfl
@[simp] theorem setFld_smpNext (s : State) (r : Reg) (f : Fld) (n : Nat) : (s.setFld r f n).smpNext = s.smpNext := rfl
@[simp] theorem setFld_wire (s : State) (r : Reg) (f : Fld) (n : Nat) : (s.setFld r f n).wire = s.wire := rfl
@[simp] theorem setFld_ethTurn (s : State) (r : Reg) (f : Fld) (n : Nat) : (s.setFld r f n).ethTurn = s.ethTurn := rfl
@[simp] theorem setFld_eps (s : State) (r : Reg) (f : Fld) (n : Nat) : (s.setFld r f n).eps = s.eps := rfl
@[simp] theorem setFld_trz (s : State) (r : Reg) (f : Fld) (n : Nat) : (s.setFld r f n).trz = s.trz := rfl
@[simp] theorem setFld_boot (s : State) (r : Reg) (f : Fld) (n : Nat) : (s.setFld r f n).boot = s.boot := rfl
@[simp] theorem setFld_flash (s : State) (r : Reg) (f : Fld) (n : Nat) : (s.setFld r f n).flash = s.flash := rfl
@[simp] theorem setFld_power (s : State) (r : Reg) (f : Fld) (n : Nat) : (s.setFld r f n).power = s.power := rfl
@[simp] theorem setFld_sec (s : State) (r : Reg) (f : Fld) (n : Nat) : (s.setFld r f n).sec = s.sec := rfl
@[simp] theorem setFld_pins (s : State) (r : Reg) (f : Fld) (n : Nat) : (s.setFld r f n).pins = s.pins := rfl
@[simp] theorem setFld_devFaults (s : State) (r : Reg) (f : Fld) (n : Nat) : (s.setFld r f n).devFaults = s.devFaults := rfl
@[simp] theorem setFld_faultSeq (s : State) (r : Reg) (f : Fld) (n : Nat) : (s.setFld r f n).faultSeq = s.faultSeq := rfl
@[simp] theorem setFld_cross (s : State) (r : Reg) (f : Fld) (n : Nat) : (s.setFld r f n).cross = s.cross := rfl
@[simp] theorem setFld_heldBack (s : State) (r : Reg) (f : Fld) (n : Nat) : (s.setFld r f n).heldBack = s.heldBack := rfl
@[simp] theorem setFld_fresh (s : State) (r : Reg) (f : Fld) (n : Nat) : (s.setFld r f n).fresh = s.fresh := rfl

/-! ## bump -/

@[simp] theorem bump_pending (s : State) (r : Reg) (f : Fld) (n : Nat) : (s.bump r f n).pending = s.pending := rfl
@[simp] theorem bump_shadows (s : State) (r : Reg) (f : Fld) (n : Nat) : (s.bump r f n).shadows = s.shadows := rfl
@[simp] theorem bump_heldLow (s : State) (r : Reg) (f : Fld) (n : Nat) : (s.bump r f n).heldLow = s.heldLow := rfl
@[simp] theorem bump_cycles (s : State) (r : Reg) (f : Fld) (n : Nat) : (s.bump r f n).cycles = s.cycles := rfl
@[simp] theorem bump_cores (s : State) (r : Reg) (f : Fld) (n : Nat) : (s.bump r f n).cores = s.cores := rfl
@[simp] theorem bump_rings (s : State) (r : Reg) (f : Fld) (n : Nat) : (s.bump r f n).rings = s.rings := rfl
@[simp] theorem bump_mwy (s : State) (r : Reg) (f : Fld) (n : Nat) : (s.bump r f n).mwy = s.mwy := rfl
@[simp] theorem bump_mwyBad (s : State) (r : Reg) (f : Fld) (n : Nat) : (s.bump r f n).mwyBad = s.mwyBad := rfl
@[simp] theorem bump_mwyFlips (s : State) (r : Reg) (f : Fld) (n : Nat) : (s.bump r f n).mwyFlips = s.mwyFlips := rfl
@[simp] theorem bump_dram (s : State) (r : Reg) (f : Fld) (n : Nat) : (s.bump r f n).dram = s.dram := rfl
@[simp] theorem bump_streams (s : State) (r : Reg) (f : Fld) (n : Nat) : (s.bump r f n).streams = s.streams := rfl
@[simp] theorem bump_sessions (s : State) (r : Reg) (f : Fld) (n : Nat) : (s.bump r f n).sessions = s.sessions := rfl
@[simp] theorem bump_chans (s : State) (r : Reg) (f : Fld) (n : Nat) : (s.bump r f n).chans = s.chans := rfl
@[simp] theorem bump_smpNext (s : State) (r : Reg) (f : Fld) (n : Nat) : (s.bump r f n).smpNext = s.smpNext := rfl
@[simp] theorem bump_wire (s : State) (r : Reg) (f : Fld) (n : Nat) : (s.bump r f n).wire = s.wire := rfl
@[simp] theorem bump_ethTurn (s : State) (r : Reg) (f : Fld) (n : Nat) : (s.bump r f n).ethTurn = s.ethTurn := rfl
@[simp] theorem bump_eps (s : State) (r : Reg) (f : Fld) (n : Nat) : (s.bump r f n).eps = s.eps := rfl
@[simp] theorem bump_trz (s : State) (r : Reg) (f : Fld) (n : Nat) : (s.bump r f n).trz = s.trz := rfl
@[simp] theorem bump_boot (s : State) (r : Reg) (f : Fld) (n : Nat) : (s.bump r f n).boot = s.boot := rfl
@[simp] theorem bump_flash (s : State) (r : Reg) (f : Fld) (n : Nat) : (s.bump r f n).flash = s.flash := rfl
@[simp] theorem bump_power (s : State) (r : Reg) (f : Fld) (n : Nat) : (s.bump r f n).power = s.power := rfl
@[simp] theorem bump_sec (s : State) (r : Reg) (f : Fld) (n : Nat) : (s.bump r f n).sec = s.sec := rfl
@[simp] theorem bump_pins (s : State) (r : Reg) (f : Fld) (n : Nat) : (s.bump r f n).pins = s.pins := rfl
@[simp] theorem bump_devFaults (s : State) (r : Reg) (f : Fld) (n : Nat) : (s.bump r f n).devFaults = s.devFaults := rfl
@[simp] theorem bump_faultSeq (s : State) (r : Reg) (f : Fld) (n : Nat) : (s.bump r f n).faultSeq = s.faultSeq := rfl
@[simp] theorem bump_cross (s : State) (r : Reg) (f : Fld) (n : Nat) : (s.bump r f n).cross = s.cross := rfl
@[simp] theorem bump_heldBack (s : State) (r : Reg) (f : Fld) (n : Nat) : (s.bump r f n).heldBack = s.heldBack := rfl
@[simp] theorem bump_fresh (s : State) (r : Reg) (f : Fld) (n : Nat) : (s.bump r f n).fresh = s.fresh := rfl

/-! ## raiseBit -/

@[simp] theorem raiseBit_pending (s : State) (r : Reg) (f : Fld) (k : Nat) : (s.raiseBit r f k).pending = s.pending := rfl
@[simp] theorem raiseBit_shadows (s : State) (r : Reg) (f : Fld) (k : Nat) : (s.raiseBit r f k).shadows = s.shadows := rfl
@[simp] theorem raiseBit_heldLow (s : State) (r : Reg) (f : Fld) (k : Nat) : (s.raiseBit r f k).heldLow = s.heldLow := rfl
@[simp] theorem raiseBit_cycles (s : State) (r : Reg) (f : Fld) (k : Nat) : (s.raiseBit r f k).cycles = s.cycles := rfl
@[simp] theorem raiseBit_cores (s : State) (r : Reg) (f : Fld) (k : Nat) : (s.raiseBit r f k).cores = s.cores := rfl
@[simp] theorem raiseBit_rings (s : State) (r : Reg) (f : Fld) (k : Nat) : (s.raiseBit r f k).rings = s.rings := rfl
@[simp] theorem raiseBit_mwy (s : State) (r : Reg) (f : Fld) (k : Nat) : (s.raiseBit r f k).mwy = s.mwy := rfl
@[simp] theorem raiseBit_mwyBad (s : State) (r : Reg) (f : Fld) (k : Nat) : (s.raiseBit r f k).mwyBad = s.mwyBad := rfl
@[simp] theorem raiseBit_mwyFlips (s : State) (r : Reg) (f : Fld) (k : Nat) : (s.raiseBit r f k).mwyFlips = s.mwyFlips := rfl
@[simp] theorem raiseBit_dram (s : State) (r : Reg) (f : Fld) (k : Nat) : (s.raiseBit r f k).dram = s.dram := rfl
@[simp] theorem raiseBit_streams (s : State) (r : Reg) (f : Fld) (k : Nat) : (s.raiseBit r f k).streams = s.streams := rfl
@[simp] theorem raiseBit_sessions (s : State) (r : Reg) (f : Fld) (k : Nat) : (s.raiseBit r f k).sessions = s.sessions := rfl
@[simp] theorem raiseBit_chans (s : State) (r : Reg) (f : Fld) (k : Nat) : (s.raiseBit r f k).chans = s.chans := rfl
@[simp] theorem raiseBit_smpNext (s : State) (r : Reg) (f : Fld) (k : Nat) : (s.raiseBit r f k).smpNext = s.smpNext := rfl
@[simp] theorem raiseBit_wire (s : State) (r : Reg) (f : Fld) (k : Nat) : (s.raiseBit r f k).wire = s.wire := rfl
@[simp] theorem raiseBit_ethTurn (s : State) (r : Reg) (f : Fld) (k : Nat) : (s.raiseBit r f k).ethTurn = s.ethTurn := rfl
@[simp] theorem raiseBit_eps (s : State) (r : Reg) (f : Fld) (k : Nat) : (s.raiseBit r f k).eps = s.eps := rfl
@[simp] theorem raiseBit_trz (s : State) (r : Reg) (f : Fld) (k : Nat) : (s.raiseBit r f k).trz = s.trz := rfl
@[simp] theorem raiseBit_boot (s : State) (r : Reg) (f : Fld) (k : Nat) : (s.raiseBit r f k).boot = s.boot := rfl
@[simp] theorem raiseBit_flash (s : State) (r : Reg) (f : Fld) (k : Nat) : (s.raiseBit r f k).flash = s.flash := rfl
@[simp] theorem raiseBit_power (s : State) (r : Reg) (f : Fld) (k : Nat) : (s.raiseBit r f k).power = s.power := rfl
@[simp] theorem raiseBit_sec (s : State) (r : Reg) (f : Fld) (k : Nat) : (s.raiseBit r f k).sec = s.sec := rfl
@[simp] theorem raiseBit_pins (s : State) (r : Reg) (f : Fld) (k : Nat) : (s.raiseBit r f k).pins = s.pins := rfl
@[simp] theorem raiseBit_devFaults (s : State) (r : Reg) (f : Fld) (k : Nat) : (s.raiseBit r f k).devFaults = s.devFaults := rfl
@[simp] theorem raiseBit_faultSeq (s : State) (r : Reg) (f : Fld) (k : Nat) : (s.raiseBit r f k).faultSeq = s.faultSeq := rfl
@[simp] theorem raiseBit_cross (s : State) (r : Reg) (f : Fld) (k : Nat) : (s.raiseBit r f k).cross = s.cross := rfl
@[simp] theorem raiseBit_heldBack (s : State) (r : Reg) (f : Fld) (k : Nat) : (s.raiseBit r f k).heldBack = s.heldBack := rfl
@[simp] theorem raiseBit_fresh (s : State) (r : Reg) (f : Fld) (k : Nat) : (s.raiseBit r f k).fresh = s.fresh := rfl

/-! ## setRingState -/

@[simp] theorem setRingState_pending (s : State) (r : Fin 8) (st cause : Nat) : (s.setRingState r st cause).pending = s.pending := rfl
@[simp] theorem setRingState_shadows (s : State) (r : Fin 8) (st cause : Nat) : (s.setRingState r st cause).shadows = s.shadows := rfl
@[simp] theorem setRingState_heldLow (s : State) (r : Fin 8) (st cause : Nat) : (s.setRingState r st cause).heldLow = s.heldLow := rfl
@[simp] theorem setRingState_cycles (s : State) (r : Fin 8) (st cause : Nat) : (s.setRingState r st cause).cycles = s.cycles := rfl
@[simp] theorem setRingState_cores (s : State) (r : Fin 8) (st cause : Nat) : (s.setRingState r st cause).cores = s.cores := rfl
@[simp] theorem setRingState_rings (s : State) (r : Fin 8) (st cause : Nat) : (s.setRingState r st cause).rings = s.rings := rfl
@[simp] theorem setRingState_mwy (s : State) (r : Fin 8) (st cause : Nat) : (s.setRingState r st cause).mwy = s.mwy := rfl
@[simp] theorem setRingState_mwyBad (s : State) (r : Fin 8) (st cause : Nat) : (s.setRingState r st cause).mwyBad = s.mwyBad := rfl
@[simp] theorem setRingState_mwyFlips (s : State) (r : Fin 8) (st cause : Nat) : (s.setRingState r st cause).mwyFlips = s.mwyFlips := rfl
@[simp] theorem setRingState_dram (s : State) (r : Fin 8) (st cause : Nat) : (s.setRingState r st cause).dram = s.dram := rfl
@[simp] theorem setRingState_streams (s : State) (r : Fin 8) (st cause : Nat) : (s.setRingState r st cause).streams = s.streams := rfl
@[simp] theorem setRingState_sessions (s : State) (r : Fin 8) (st cause : Nat) : (s.setRingState r st cause).sessions = s.sessions := rfl
@[simp] theorem setRingState_chans (s : State) (r : Fin 8) (st cause : Nat) : (s.setRingState r st cause).chans = s.chans := rfl
@[simp] theorem setRingState_smpNext (s : State) (r : Fin 8) (st cause : Nat) : (s.setRingState r st cause).smpNext = s.smpNext := rfl
@[simp] theorem setRingState_wire (s : State) (r : Fin 8) (st cause : Nat) : (s.setRingState r st cause).wire = s.wire := rfl
@[simp] theorem setRingState_ethTurn (s : State) (r : Fin 8) (st cause : Nat) : (s.setRingState r st cause).ethTurn = s.ethTurn := rfl
@[simp] theorem setRingState_eps (s : State) (r : Fin 8) (st cause : Nat) : (s.setRingState r st cause).eps = s.eps := rfl
@[simp] theorem setRingState_trz (s : State) (r : Fin 8) (st cause : Nat) : (s.setRingState r st cause).trz = s.trz := rfl
@[simp] theorem setRingState_boot (s : State) (r : Fin 8) (st cause : Nat) : (s.setRingState r st cause).boot = s.boot := rfl
@[simp] theorem setRingState_flash (s : State) (r : Fin 8) (st cause : Nat) : (s.setRingState r st cause).flash = s.flash := rfl
@[simp] theorem setRingState_power (s : State) (r : Fin 8) (st cause : Nat) : (s.setRingState r st cause).power = s.power := rfl
@[simp] theorem setRingState_sec (s : State) (r : Fin 8) (st cause : Nat) : (s.setRingState r st cause).sec = s.sec := rfl
@[simp] theorem setRingState_pins (s : State) (r : Fin 8) (st cause : Nat) : (s.setRingState r st cause).pins = s.pins := rfl
@[simp] theorem setRingState_devFaults (s : State) (r : Fin 8) (st cause : Nat) : (s.setRingState r st cause).devFaults = s.devFaults := rfl
@[simp] theorem setRingState_faultSeq (s : State) (r : Fin 8) (st cause : Nat) : (s.setRingState r st cause).faultSeq = s.faultSeq := rfl
@[simp] theorem setRingState_cross (s : State) (r : Fin 8) (st cause : Nat) : (s.setRingState r st cause).cross = s.cross := rfl
@[simp] theorem setRingState_heldBack (s : State) (r : Fin 8) (st cause : Nat) : (s.setRingState r st cause).heldBack = s.heldBack := rfl
@[simp] theorem setRingState_fresh (s : State) (r : Fin 8) (st cause : Nat) : (s.setRingState r st cause).fresh = s.fresh := rfl

/-! ## moveRing -/

@[simp] theorem moveRing_pending (s : State) (r : Fin 8) (st : Nat) : (s.moveRing r st).pending = s.pending := rfl
@[simp] theorem moveRing_shadows (s : State) (r : Fin 8) (st : Nat) : (s.moveRing r st).shadows = s.shadows := rfl
@[simp] theorem moveRing_heldLow (s : State) (r : Fin 8) (st : Nat) : (s.moveRing r st).heldLow = s.heldLow := rfl
@[simp] theorem moveRing_cycles (s : State) (r : Fin 8) (st : Nat) : (s.moveRing r st).cycles = s.cycles := rfl
@[simp] theorem moveRing_cores (s : State) (r : Fin 8) (st : Nat) : (s.moveRing r st).cores = s.cores := rfl
@[simp] theorem moveRing_rings (s : State) (r : Fin 8) (st : Nat) : (s.moveRing r st).rings = s.rings := rfl
@[simp] theorem moveRing_mwy (s : State) (r : Fin 8) (st : Nat) : (s.moveRing r st).mwy = s.mwy := rfl
@[simp] theorem moveRing_mwyBad (s : State) (r : Fin 8) (st : Nat) : (s.moveRing r st).mwyBad = s.mwyBad := rfl
@[simp] theorem moveRing_mwyFlips (s : State) (r : Fin 8) (st : Nat) : (s.moveRing r st).mwyFlips = s.mwyFlips := rfl
@[simp] theorem moveRing_dram (s : State) (r : Fin 8) (st : Nat) : (s.moveRing r st).dram = s.dram := rfl
@[simp] theorem moveRing_streams (s : State) (r : Fin 8) (st : Nat) : (s.moveRing r st).streams = s.streams := rfl
@[simp] theorem moveRing_sessions (s : State) (r : Fin 8) (st : Nat) : (s.moveRing r st).sessions = s.sessions := rfl
@[simp] theorem moveRing_chans (s : State) (r : Fin 8) (st : Nat) : (s.moveRing r st).chans = s.chans := rfl
@[simp] theorem moveRing_smpNext (s : State) (r : Fin 8) (st : Nat) : (s.moveRing r st).smpNext = s.smpNext := rfl
@[simp] theorem moveRing_wire (s : State) (r : Fin 8) (st : Nat) : (s.moveRing r st).wire = s.wire := rfl
@[simp] theorem moveRing_ethTurn (s : State) (r : Fin 8) (st : Nat) : (s.moveRing r st).ethTurn = s.ethTurn := rfl
@[simp] theorem moveRing_eps (s : State) (r : Fin 8) (st : Nat) : (s.moveRing r st).eps = s.eps := rfl
@[simp] theorem moveRing_trz (s : State) (r : Fin 8) (st : Nat) : (s.moveRing r st).trz = s.trz := rfl
@[simp] theorem moveRing_boot (s : State) (r : Fin 8) (st : Nat) : (s.moveRing r st).boot = s.boot := rfl
@[simp] theorem moveRing_flash (s : State) (r : Fin 8) (st : Nat) : (s.moveRing r st).flash = s.flash := rfl
@[simp] theorem moveRing_power (s : State) (r : Fin 8) (st : Nat) : (s.moveRing r st).power = s.power := rfl
@[simp] theorem moveRing_sec (s : State) (r : Fin 8) (st : Nat) : (s.moveRing r st).sec = s.sec := rfl
@[simp] theorem moveRing_pins (s : State) (r : Fin 8) (st : Nat) : (s.moveRing r st).pins = s.pins := rfl
@[simp] theorem moveRing_devFaults (s : State) (r : Fin 8) (st : Nat) : (s.moveRing r st).devFaults = s.devFaults := rfl
@[simp] theorem moveRing_faultSeq (s : State) (r : Fin 8) (st : Nat) : (s.moveRing r st).faultSeq = s.faultSeq := rfl
@[simp] theorem moveRing_cross (s : State) (r : Fin 8) (st : Nat) : (s.moveRing r st).cross = s.cross := rfl
@[simp] theorem moveRing_heldBack (s : State) (r : Fin 8) (st : Nat) : (s.moveRing r st).heldBack = s.heldBack := rfl
@[simp] theorem moveRing_fresh (s : State) (r : Fin 8) (st : Nat) : (s.moveRing r st).fresh = s.fresh := rfl

/-! ## setCore -/

@[simp] theorem setCore_pending (s : State) (c : Fin 16) (k : Core) : (s.setCore c k).pending = s.pending := rfl
@[simp] theorem setCore_regs (s : State) (c : Fin 16) (k : Core) : (s.setCore c k).regs = s.regs := rfl
@[simp] theorem setCore_shadows (s : State) (c : Fin 16) (k : Core) : (s.setCore c k).shadows = s.shadows := rfl
@[simp] theorem setCore_heldLow (s : State) (c : Fin 16) (k : Core) : (s.setCore c k).heldLow = s.heldLow := rfl
@[simp] theorem setCore_cycles (s : State) (c : Fin 16) (k : Core) : (s.setCore c k).cycles = s.cycles := rfl
@[simp] theorem setCore_rings (s : State) (c : Fin 16) (k : Core) : (s.setCore c k).rings = s.rings := rfl
@[simp] theorem setCore_mwy (s : State) (c : Fin 16) (k : Core) : (s.setCore c k).mwy = s.mwy := rfl
@[simp] theorem setCore_mwyBad (s : State) (c : Fin 16) (k : Core) : (s.setCore c k).mwyBad = s.mwyBad := rfl
@[simp] theorem setCore_mwyFlips (s : State) (c : Fin 16) (k : Core) : (s.setCore c k).mwyFlips = s.mwyFlips := rfl
@[simp] theorem setCore_dram (s : State) (c : Fin 16) (k : Core) : (s.setCore c k).dram = s.dram := rfl
@[simp] theorem setCore_streams (s : State) (c : Fin 16) (k : Core) : (s.setCore c k).streams = s.streams := rfl
@[simp] theorem setCore_sessions (s : State) (c : Fin 16) (k : Core) : (s.setCore c k).sessions = s.sessions := rfl
@[simp] theorem setCore_chans (s : State) (c : Fin 16) (k : Core) : (s.setCore c k).chans = s.chans := rfl
@[simp] theorem setCore_smpNext (s : State) (c : Fin 16) (k : Core) : (s.setCore c k).smpNext = s.smpNext := rfl
@[simp] theorem setCore_wire (s : State) (c : Fin 16) (k : Core) : (s.setCore c k).wire = s.wire := rfl
@[simp] theorem setCore_ethTurn (s : State) (c : Fin 16) (k : Core) : (s.setCore c k).ethTurn = s.ethTurn := rfl
@[simp] theorem setCore_eps (s : State) (c : Fin 16) (k : Core) : (s.setCore c k).eps = s.eps := rfl
@[simp] theorem setCore_trz (s : State) (c : Fin 16) (k : Core) : (s.setCore c k).trz = s.trz := rfl
@[simp] theorem setCore_boot (s : State) (c : Fin 16) (k : Core) : (s.setCore c k).boot = s.boot := rfl
@[simp] theorem setCore_flash (s : State) (c : Fin 16) (k : Core) : (s.setCore c k).flash = s.flash := rfl
@[simp] theorem setCore_power (s : State) (c : Fin 16) (k : Core) : (s.setCore c k).power = s.power := rfl
@[simp] theorem setCore_sec (s : State) (c : Fin 16) (k : Core) : (s.setCore c k).sec = s.sec := rfl
@[simp] theorem setCore_pins (s : State) (c : Fin 16) (k : Core) : (s.setCore c k).pins = s.pins := rfl
@[simp] theorem setCore_devFaults (s : State) (c : Fin 16) (k : Core) : (s.setCore c k).devFaults = s.devFaults := rfl
@[simp] theorem setCore_faultSeq (s : State) (c : Fin 16) (k : Core) : (s.setCore c k).faultSeq = s.faultSeq := rfl
@[simp] theorem setCore_cross (s : State) (c : Fin 16) (k : Core) : (s.setCore c k).cross = s.cross := rfl
@[simp] theorem setCore_heldBack (s : State) (c : Fin 16) (k : Core) : (s.setCore c k).heldBack = s.heldBack := rfl
@[simp] theorem setCore_fresh (s : State) (c : Fin 16) (k : Core) : (s.setCore c k).fresh = s.fresh := rfl

/-! ## onCore -/

@[simp] theorem onCore_pending (s : State) (c : Fin 16) (f : Core → Core) : (s.onCore c f).pending = s.pending := rfl
@[simp] theorem onCore_regs (s : State) (c : Fin 16) (f : Core → Core) : (s.onCore c f).regs = s.regs := rfl
@[simp] theorem onCore_shadows (s : State) (c : Fin 16) (f : Core → Core) : (s.onCore c f).shadows = s.shadows := rfl
@[simp] theorem onCore_heldLow (s : State) (c : Fin 16) (f : Core → Core) : (s.onCore c f).heldLow = s.heldLow := rfl
@[simp] theorem onCore_cycles (s : State) (c : Fin 16) (f : Core → Core) : (s.onCore c f).cycles = s.cycles := rfl
@[simp] theorem onCore_rings (s : State) (c : Fin 16) (f : Core → Core) : (s.onCore c f).rings = s.rings := rfl
@[simp] theorem onCore_mwy (s : State) (c : Fin 16) (f : Core → Core) : (s.onCore c f).mwy = s.mwy := rfl
@[simp] theorem onCore_mwyBad (s : State) (c : Fin 16) (f : Core → Core) : (s.onCore c f).mwyBad = s.mwyBad := rfl
@[simp] theorem onCore_mwyFlips (s : State) (c : Fin 16) (f : Core → Core) : (s.onCore c f).mwyFlips = s.mwyFlips := rfl
@[simp] theorem onCore_dram (s : State) (c : Fin 16) (f : Core → Core) : (s.onCore c f).dram = s.dram := rfl
@[simp] theorem onCore_streams (s : State) (c : Fin 16) (f : Core → Core) : (s.onCore c f).streams = s.streams := rfl
@[simp] theorem onCore_sessions (s : State) (c : Fin 16) (f : Core → Core) : (s.onCore c f).sessions = s.sessions := rfl
@[simp] theorem onCore_chans (s : State) (c : Fin 16) (f : Core → Core) : (s.onCore c f).chans = s.chans := rfl
@[simp] theorem onCore_smpNext (s : State) (c : Fin 16) (f : Core → Core) : (s.onCore c f).smpNext = s.smpNext := rfl
@[simp] theorem onCore_wire (s : State) (c : Fin 16) (f : Core → Core) : (s.onCore c f).wire = s.wire := rfl
@[simp] theorem onCore_ethTurn (s : State) (c : Fin 16) (f : Core → Core) : (s.onCore c f).ethTurn = s.ethTurn := rfl
@[simp] theorem onCore_eps (s : State) (c : Fin 16) (f : Core → Core) : (s.onCore c f).eps = s.eps := rfl
@[simp] theorem onCore_trz (s : State) (c : Fin 16) (f : Core → Core) : (s.onCore c f).trz = s.trz := rfl
@[simp] theorem onCore_boot (s : State) (c : Fin 16) (f : Core → Core) : (s.onCore c f).boot = s.boot := rfl
@[simp] theorem onCore_flash (s : State) (c : Fin 16) (f : Core → Core) : (s.onCore c f).flash = s.flash := rfl
@[simp] theorem onCore_power (s : State) (c : Fin 16) (f : Core → Core) : (s.onCore c f).power = s.power := rfl
@[simp] theorem onCore_sec (s : State) (c : Fin 16) (f : Core → Core) : (s.onCore c f).sec = s.sec := rfl
@[simp] theorem onCore_pins (s : State) (c : Fin 16) (f : Core → Core) : (s.onCore c f).pins = s.pins := rfl
@[simp] theorem onCore_devFaults (s : State) (c : Fin 16) (f : Core → Core) : (s.onCore c f).devFaults = s.devFaults := rfl
@[simp] theorem onCore_faultSeq (s : State) (c : Fin 16) (f : Core → Core) : (s.onCore c f).faultSeq = s.faultSeq := rfl
@[simp] theorem onCore_cross (s : State) (c : Fin 16) (f : Core → Core) : (s.onCore c f).cross = s.cross := rfl
@[simp] theorem onCore_heldBack (s : State) (c : Fin 16) (f : Core → Core) : (s.onCore c f).heldBack = s.heldBack := rfl
@[simp] theorem onCore_fresh (s : State) (c : Fin 16) (f : Core → Core) : (s.onCore c f).fresh = s.fresh := rfl

/-! ## setRing -/

@[simp] theorem setRing_pending (s : State) (r : Fin 8) (k : Ring) : (s.setRing r k).pending = s.pending := rfl
@[simp] theorem setRing_regs (s : State) (r : Fin 8) (k : Ring) : (s.setRing r k).regs = s.regs := rfl
@[simp] theorem setRing_shadows (s : State) (r : Fin 8) (k : Ring) : (s.setRing r k).shadows = s.shadows := rfl
@[simp] theorem setRing_heldLow (s : State) (r : Fin 8) (k : Ring) : (s.setRing r k).heldLow = s.heldLow := rfl
@[simp] theorem setRing_cycles (s : State) (r : Fin 8) (k : Ring) : (s.setRing r k).cycles = s.cycles := rfl
@[simp] theorem setRing_cores (s : State) (r : Fin 8) (k : Ring) : (s.setRing r k).cores = s.cores := rfl
@[simp] theorem setRing_mwy (s : State) (r : Fin 8) (k : Ring) : (s.setRing r k).mwy = s.mwy := rfl
@[simp] theorem setRing_mwyBad (s : State) (r : Fin 8) (k : Ring) : (s.setRing r k).mwyBad = s.mwyBad := rfl
@[simp] theorem setRing_mwyFlips (s : State) (r : Fin 8) (k : Ring) : (s.setRing r k).mwyFlips = s.mwyFlips := rfl
@[simp] theorem setRing_dram (s : State) (r : Fin 8) (k : Ring) : (s.setRing r k).dram = s.dram := rfl
@[simp] theorem setRing_streams (s : State) (r : Fin 8) (k : Ring) : (s.setRing r k).streams = s.streams := rfl
@[simp] theorem setRing_sessions (s : State) (r : Fin 8) (k : Ring) : (s.setRing r k).sessions = s.sessions := rfl
@[simp] theorem setRing_chans (s : State) (r : Fin 8) (k : Ring) : (s.setRing r k).chans = s.chans := rfl
@[simp] theorem setRing_smpNext (s : State) (r : Fin 8) (k : Ring) : (s.setRing r k).smpNext = s.smpNext := rfl
@[simp] theorem setRing_wire (s : State) (r : Fin 8) (k : Ring) : (s.setRing r k).wire = s.wire := rfl
@[simp] theorem setRing_ethTurn (s : State) (r : Fin 8) (k : Ring) : (s.setRing r k).ethTurn = s.ethTurn := rfl
@[simp] theorem setRing_eps (s : State) (r : Fin 8) (k : Ring) : (s.setRing r k).eps = s.eps := rfl
@[simp] theorem setRing_trz (s : State) (r : Fin 8) (k : Ring) : (s.setRing r k).trz = s.trz := rfl
@[simp] theorem setRing_boot (s : State) (r : Fin 8) (k : Ring) : (s.setRing r k).boot = s.boot := rfl
@[simp] theorem setRing_flash (s : State) (r : Fin 8) (k : Ring) : (s.setRing r k).flash = s.flash := rfl
@[simp] theorem setRing_power (s : State) (r : Fin 8) (k : Ring) : (s.setRing r k).power = s.power := rfl
@[simp] theorem setRing_sec (s : State) (r : Fin 8) (k : Ring) : (s.setRing r k).sec = s.sec := rfl
@[simp] theorem setRing_pins (s : State) (r : Fin 8) (k : Ring) : (s.setRing r k).pins = s.pins := rfl
@[simp] theorem setRing_devFaults (s : State) (r : Fin 8) (k : Ring) : (s.setRing r k).devFaults = s.devFaults := rfl
@[simp] theorem setRing_faultSeq (s : State) (r : Fin 8) (k : Ring) : (s.setRing r k).faultSeq = s.faultSeq := rfl
@[simp] theorem setRing_cross (s : State) (r : Fin 8) (k : Ring) : (s.setRing r k).cross = s.cross := rfl
@[simp] theorem setRing_heldBack (s : State) (r : Fin 8) (k : Ring) : (s.setRing r k).heldBack = s.heldBack := rfl
@[simp] theorem setRing_fresh (s : State) (r : Fin 8) (k : Ring) : (s.setRing r k).fresh = s.fresh := rfl

/-! ## onRing -/

@[simp] theorem onRing_pending (s : State) (r : Fin 8) (f : Ring → Ring) : (s.onRing r f).pending = s.pending := rfl
@[simp] theorem onRing_regs (s : State) (r : Fin 8) (f : Ring → Ring) : (s.onRing r f).regs = s.regs := rfl
@[simp] theorem onRing_shadows (s : State) (r : Fin 8) (f : Ring → Ring) : (s.onRing r f).shadows = s.shadows := rfl
@[simp] theorem onRing_heldLow (s : State) (r : Fin 8) (f : Ring → Ring) : (s.onRing r f).heldLow = s.heldLow := rfl
@[simp] theorem onRing_cycles (s : State) (r : Fin 8) (f : Ring → Ring) : (s.onRing r f).cycles = s.cycles := rfl
@[simp] theorem onRing_cores (s : State) (r : Fin 8) (f : Ring → Ring) : (s.onRing r f).cores = s.cores := rfl
@[simp] theorem onRing_mwy (s : State) (r : Fin 8) (f : Ring → Ring) : (s.onRing r f).mwy = s.mwy := rfl
@[simp] theorem onRing_mwyBad (s : State) (r : Fin 8) (f : Ring → Ring) : (s.onRing r f).mwyBad = s.mwyBad := rfl
@[simp] theorem onRing_mwyFlips (s : State) (r : Fin 8) (f : Ring → Ring) : (s.onRing r f).mwyFlips = s.mwyFlips := rfl
@[simp] theorem onRing_dram (s : State) (r : Fin 8) (f : Ring → Ring) : (s.onRing r f).dram = s.dram := rfl
@[simp] theorem onRing_streams (s : State) (r : Fin 8) (f : Ring → Ring) : (s.onRing r f).streams = s.streams := rfl
@[simp] theorem onRing_sessions (s : State) (r : Fin 8) (f : Ring → Ring) : (s.onRing r f).sessions = s.sessions := rfl
@[simp] theorem onRing_chans (s : State) (r : Fin 8) (f : Ring → Ring) : (s.onRing r f).chans = s.chans := rfl
@[simp] theorem onRing_smpNext (s : State) (r : Fin 8) (f : Ring → Ring) : (s.onRing r f).smpNext = s.smpNext := rfl
@[simp] theorem onRing_wire (s : State) (r : Fin 8) (f : Ring → Ring) : (s.onRing r f).wire = s.wire := rfl
@[simp] theorem onRing_ethTurn (s : State) (r : Fin 8) (f : Ring → Ring) : (s.onRing r f).ethTurn = s.ethTurn := rfl
@[simp] theorem onRing_eps (s : State) (r : Fin 8) (f : Ring → Ring) : (s.onRing r f).eps = s.eps := rfl
@[simp] theorem onRing_trz (s : State) (r : Fin 8) (f : Ring → Ring) : (s.onRing r f).trz = s.trz := rfl
@[simp] theorem onRing_boot (s : State) (r : Fin 8) (f : Ring → Ring) : (s.onRing r f).boot = s.boot := rfl
@[simp] theorem onRing_flash (s : State) (r : Fin 8) (f : Ring → Ring) : (s.onRing r f).flash = s.flash := rfl
@[simp] theorem onRing_power (s : State) (r : Fin 8) (f : Ring → Ring) : (s.onRing r f).power = s.power := rfl
@[simp] theorem onRing_sec (s : State) (r : Fin 8) (f : Ring → Ring) : (s.onRing r f).sec = s.sec := rfl
@[simp] theorem onRing_pins (s : State) (r : Fin 8) (f : Ring → Ring) : (s.onRing r f).pins = s.pins := rfl
@[simp] theorem onRing_devFaults (s : State) (r : Fin 8) (f : Ring → Ring) : (s.onRing r f).devFaults = s.devFaults := rfl
@[simp] theorem onRing_faultSeq (s : State) (r : Fin 8) (f : Ring → Ring) : (s.onRing r f).faultSeq = s.faultSeq := rfl
@[simp] theorem onRing_cross (s : State) (r : Fin 8) (f : Ring → Ring) : (s.onRing r f).cross = s.cross := rfl
@[simp] theorem onRing_heldBack (s : State) (r : Fin 8) (f : Ring → Ring) : (s.onRing r f).heldBack = s.heldBack := rfl
@[simp] theorem onRing_fresh (s : State) (r : Fin 8) (f : Ring → Ring) : (s.onRing r f).fresh = s.fresh := rfl

/-! ## onEp -/

@[simp] theorem onEp_pending (s : State) (e : Fin 64) (f : Endpoint → Endpoint) : (s.onEp e f).pending = s.pending := rfl
@[simp] theorem onEp_regs (s : State) (e : Fin 64) (f : Endpoint → Endpoint) : (s.onEp e f).regs = s.regs := rfl
@[simp] theorem onEp_shadows (s : State) (e : Fin 64) (f : Endpoint → Endpoint) : (s.onEp e f).shadows = s.shadows := rfl
@[simp] theorem onEp_heldLow (s : State) (e : Fin 64) (f : Endpoint → Endpoint) : (s.onEp e f).heldLow = s.heldLow := rfl
@[simp] theorem onEp_cycles (s : State) (e : Fin 64) (f : Endpoint → Endpoint) : (s.onEp e f).cycles = s.cycles := rfl
@[simp] theorem onEp_cores (s : State) (e : Fin 64) (f : Endpoint → Endpoint) : (s.onEp e f).cores = s.cores := rfl
@[simp] theorem onEp_rings (s : State) (e : Fin 64) (f : Endpoint → Endpoint) : (s.onEp e f).rings = s.rings := rfl
@[simp] theorem onEp_mwy (s : State) (e : Fin 64) (f : Endpoint → Endpoint) : (s.onEp e f).mwy = s.mwy := rfl
@[simp] theorem onEp_mwyBad (s : State) (e : Fin 64) (f : Endpoint → Endpoint) : (s.onEp e f).mwyBad = s.mwyBad := rfl
@[simp] theorem onEp_mwyFlips (s : State) (e : Fin 64) (f : Endpoint → Endpoint) : (s.onEp e f).mwyFlips = s.mwyFlips := rfl
@[simp] theorem onEp_dram (s : State) (e : Fin 64) (f : Endpoint → Endpoint) : (s.onEp e f).dram = s.dram := rfl
@[simp] theorem onEp_streams (s : State) (e : Fin 64) (f : Endpoint → Endpoint) : (s.onEp e f).streams = s.streams := rfl
@[simp] theorem onEp_sessions (s : State) (e : Fin 64) (f : Endpoint → Endpoint) : (s.onEp e f).sessions = s.sessions := rfl
@[simp] theorem onEp_chans (s : State) (e : Fin 64) (f : Endpoint → Endpoint) : (s.onEp e f).chans = s.chans := rfl
@[simp] theorem onEp_smpNext (s : State) (e : Fin 64) (f : Endpoint → Endpoint) : (s.onEp e f).smpNext = s.smpNext := rfl
@[simp] theorem onEp_wire (s : State) (e : Fin 64) (f : Endpoint → Endpoint) : (s.onEp e f).wire = s.wire := rfl
@[simp] theorem onEp_ethTurn (s : State) (e : Fin 64) (f : Endpoint → Endpoint) : (s.onEp e f).ethTurn = s.ethTurn := rfl
@[simp] theorem onEp_trz (s : State) (e : Fin 64) (f : Endpoint → Endpoint) : (s.onEp e f).trz = s.trz := rfl
@[simp] theorem onEp_boot (s : State) (e : Fin 64) (f : Endpoint → Endpoint) : (s.onEp e f).boot = s.boot := rfl
@[simp] theorem onEp_flash (s : State) (e : Fin 64) (f : Endpoint → Endpoint) : (s.onEp e f).flash = s.flash := rfl
@[simp] theorem onEp_power (s : State) (e : Fin 64) (f : Endpoint → Endpoint) : (s.onEp e f).power = s.power := rfl
@[simp] theorem onEp_sec (s : State) (e : Fin 64) (f : Endpoint → Endpoint) : (s.onEp e f).sec = s.sec := rfl
@[simp] theorem onEp_pins (s : State) (e : Fin 64) (f : Endpoint → Endpoint) : (s.onEp e f).pins = s.pins := rfl
@[simp] theorem onEp_devFaults (s : State) (e : Fin 64) (f : Endpoint → Endpoint) : (s.onEp e f).devFaults = s.devFaults := rfl
@[simp] theorem onEp_faultSeq (s : State) (e : Fin 64) (f : Endpoint → Endpoint) : (s.onEp e f).faultSeq = s.faultSeq := rfl
@[simp] theorem onEp_cross (s : State) (e : Fin 64) (f : Endpoint → Endpoint) : (s.onEp e f).cross = s.cross := rfl
@[simp] theorem onEp_heldBack (s : State) (e : Fin 64) (f : Endpoint → Endpoint) : (s.onEp e f).heldBack = s.heldBack := rfl
@[simp] theorem onEp_fresh (s : State) (e : Fin 64) (f : Endpoint → Endpoint) : (s.onEp e f).fresh = s.fresh := rfl

/-! ## onStream -/

@[simp] theorem onStream_pending (s : State) (x : Fin 64) (f : StreamCtx → StreamCtx) : (s.onStream x f).pending = s.pending := rfl
@[simp] theorem onStream_regs (s : State) (x : Fin 64) (f : StreamCtx → StreamCtx) : (s.onStream x f).regs = s.regs := rfl
@[simp] theorem onStream_shadows (s : State) (x : Fin 64) (f : StreamCtx → StreamCtx) : (s.onStream x f).shadows = s.shadows := rfl
@[simp] theorem onStream_heldLow (s : State) (x : Fin 64) (f : StreamCtx → StreamCtx) : (s.onStream x f).heldLow = s.heldLow := rfl
@[simp] theorem onStream_cycles (s : State) (x : Fin 64) (f : StreamCtx → StreamCtx) : (s.onStream x f).cycles = s.cycles := rfl
@[simp] theorem onStream_cores (s : State) (x : Fin 64) (f : StreamCtx → StreamCtx) : (s.onStream x f).cores = s.cores := rfl
@[simp] theorem onStream_rings (s : State) (x : Fin 64) (f : StreamCtx → StreamCtx) : (s.onStream x f).rings = s.rings := rfl
@[simp] theorem onStream_mwy (s : State) (x : Fin 64) (f : StreamCtx → StreamCtx) : (s.onStream x f).mwy = s.mwy := rfl
@[simp] theorem onStream_mwyBad (s : State) (x : Fin 64) (f : StreamCtx → StreamCtx) : (s.onStream x f).mwyBad = s.mwyBad := rfl
@[simp] theorem onStream_mwyFlips (s : State) (x : Fin 64) (f : StreamCtx → StreamCtx) : (s.onStream x f).mwyFlips = s.mwyFlips := rfl
@[simp] theorem onStream_dram (s : State) (x : Fin 64) (f : StreamCtx → StreamCtx) : (s.onStream x f).dram = s.dram := rfl
@[simp] theorem onStream_sessions (s : State) (x : Fin 64) (f : StreamCtx → StreamCtx) : (s.onStream x f).sessions = s.sessions := rfl
@[simp] theorem onStream_chans (s : State) (x : Fin 64) (f : StreamCtx → StreamCtx) : (s.onStream x f).chans = s.chans := rfl
@[simp] theorem onStream_smpNext (s : State) (x : Fin 64) (f : StreamCtx → StreamCtx) : (s.onStream x f).smpNext = s.smpNext := rfl
@[simp] theorem onStream_wire (s : State) (x : Fin 64) (f : StreamCtx → StreamCtx) : (s.onStream x f).wire = s.wire := rfl
@[simp] theorem onStream_ethTurn (s : State) (x : Fin 64) (f : StreamCtx → StreamCtx) : (s.onStream x f).ethTurn = s.ethTurn := rfl
@[simp] theorem onStream_eps (s : State) (x : Fin 64) (f : StreamCtx → StreamCtx) : (s.onStream x f).eps = s.eps := rfl
@[simp] theorem onStream_trz (s : State) (x : Fin 64) (f : StreamCtx → StreamCtx) : (s.onStream x f).trz = s.trz := rfl
@[simp] theorem onStream_boot (s : State) (x : Fin 64) (f : StreamCtx → StreamCtx) : (s.onStream x f).boot = s.boot := rfl
@[simp] theorem onStream_flash (s : State) (x : Fin 64) (f : StreamCtx → StreamCtx) : (s.onStream x f).flash = s.flash := rfl
@[simp] theorem onStream_power (s : State) (x : Fin 64) (f : StreamCtx → StreamCtx) : (s.onStream x f).power = s.power := rfl
@[simp] theorem onStream_sec (s : State) (x : Fin 64) (f : StreamCtx → StreamCtx) : (s.onStream x f).sec = s.sec := rfl
@[simp] theorem onStream_pins (s : State) (x : Fin 64) (f : StreamCtx → StreamCtx) : (s.onStream x f).pins = s.pins := rfl
@[simp] theorem onStream_devFaults (s : State) (x : Fin 64) (f : StreamCtx → StreamCtx) : (s.onStream x f).devFaults = s.devFaults := rfl
@[simp] theorem onStream_faultSeq (s : State) (x : Fin 64) (f : StreamCtx → StreamCtx) : (s.onStream x f).faultSeq = s.faultSeq := rfl
@[simp] theorem onStream_cross (s : State) (x : Fin 64) (f : StreamCtx → StreamCtx) : (s.onStream x f).cross = s.cross := rfl
@[simp] theorem onStream_heldBack (s : State) (x : Fin 64) (f : StreamCtx → StreamCtx) : (s.onStream x f).heldBack = s.heldBack := rfl
@[simp] theorem onStream_fresh (s : State) (x : Fin 64) (f : StreamCtx → StreamCtx) : (s.onStream x f).fresh = s.fresh := rfl

/-! ## onSession -/

@[simp] theorem onSession_pending (s : State) (x : Fin 16) (f : CodecSession → CodecSession) : (s.onSession x f).pending = s.pending := rfl
@[simp] theorem onSession_regs (s : State) (x : Fin 16) (f : CodecSession → CodecSession) : (s.onSession x f).regs = s.regs := rfl
@[simp] theorem onSession_shadows (s : State) (x : Fin 16) (f : CodecSession → CodecSession) : (s.onSession x f).shadows = s.shadows := rfl
@[simp] theorem onSession_heldLow (s : State) (x : Fin 16) (f : CodecSession → CodecSession) : (s.onSession x f).heldLow = s.heldLow := rfl
@[simp] theorem onSession_cycles (s : State) (x : Fin 16) (f : CodecSession → CodecSession) : (s.onSession x f).cycles = s.cycles := rfl
@[simp] theorem onSession_cores (s : State) (x : Fin 16) (f : CodecSession → CodecSession) : (s.onSession x f).cores = s.cores := rfl
@[simp] theorem onSession_rings (s : State) (x : Fin 16) (f : CodecSession → CodecSession) : (s.onSession x f).rings = s.rings := rfl
@[simp] theorem onSession_mwy (s : State) (x : Fin 16) (f : CodecSession → CodecSession) : (s.onSession x f).mwy = s.mwy := rfl
@[simp] theorem onSession_mwyBad (s : State) (x : Fin 16) (f : CodecSession → CodecSession) : (s.onSession x f).mwyBad = s.mwyBad := rfl
@[simp] theorem onSession_mwyFlips (s : State) (x : Fin 16) (f : CodecSession → CodecSession) : (s.onSession x f).mwyFlips = s.mwyFlips := rfl
@[simp] theorem onSession_dram (s : State) (x : Fin 16) (f : CodecSession → CodecSession) : (s.onSession x f).dram = s.dram := rfl
@[simp] theorem onSession_streams (s : State) (x : Fin 16) (f : CodecSession → CodecSession) : (s.onSession x f).streams = s.streams := rfl
@[simp] theorem onSession_chans (s : State) (x : Fin 16) (f : CodecSession → CodecSession) : (s.onSession x f).chans = s.chans := rfl
@[simp] theorem onSession_smpNext (s : State) (x : Fin 16) (f : CodecSession → CodecSession) : (s.onSession x f).smpNext = s.smpNext := rfl
@[simp] theorem onSession_wire (s : State) (x : Fin 16) (f : CodecSession → CodecSession) : (s.onSession x f).wire = s.wire := rfl
@[simp] theorem onSession_ethTurn (s : State) (x : Fin 16) (f : CodecSession → CodecSession) : (s.onSession x f).ethTurn = s.ethTurn := rfl
@[simp] theorem onSession_eps (s : State) (x : Fin 16) (f : CodecSession → CodecSession) : (s.onSession x f).eps = s.eps := rfl
@[simp] theorem onSession_trz (s : State) (x : Fin 16) (f : CodecSession → CodecSession) : (s.onSession x f).trz = s.trz := rfl
@[simp] theorem onSession_boot (s : State) (x : Fin 16) (f : CodecSession → CodecSession) : (s.onSession x f).boot = s.boot := rfl
@[simp] theorem onSession_flash (s : State) (x : Fin 16) (f : CodecSession → CodecSession) : (s.onSession x f).flash = s.flash := rfl
@[simp] theorem onSession_power (s : State) (x : Fin 16) (f : CodecSession → CodecSession) : (s.onSession x f).power = s.power := rfl
@[simp] theorem onSession_sec (s : State) (x : Fin 16) (f : CodecSession → CodecSession) : (s.onSession x f).sec = s.sec := rfl
@[simp] theorem onSession_pins (s : State) (x : Fin 16) (f : CodecSession → CodecSession) : (s.onSession x f).pins = s.pins := rfl
@[simp] theorem onSession_devFaults (s : State) (x : Fin 16) (f : CodecSession → CodecSession) : (s.onSession x f).devFaults = s.devFaults := rfl
@[simp] theorem onSession_faultSeq (s : State) (x : Fin 16) (f : CodecSession → CodecSession) : (s.onSession x f).faultSeq = s.faultSeq := rfl
@[simp] theorem onSession_cross (s : State) (x : Fin 16) (f : CodecSession → CodecSession) : (s.onSession x f).cross = s.cross := rfl
@[simp] theorem onSession_heldBack (s : State) (x : Fin 16) (f : CodecSession → CodecSession) : (s.onSession x f).heldBack = s.heldBack := rfl
@[simp] theorem onSession_fresh (s : State) (x : Fin 16) (f : CodecSession → CodecSession) : (s.onSession x f).fresh = s.fresh := rfl

/-! ## onChan -/

@[simp] theorem onChan_pending (s : State) (x : Fin 16) (f : Channel → Channel) : (s.onChan x f).pending = s.pending := rfl
@[simp] theorem onChan_regs (s : State) (x : Fin 16) (f : Channel → Channel) : (s.onChan x f).regs = s.regs := rfl
@[simp] theorem onChan_shadows (s : State) (x : Fin 16) (f : Channel → Channel) : (s.onChan x f).shadows = s.shadows := rfl
@[simp] theorem onChan_heldLow (s : State) (x : Fin 16) (f : Channel → Channel) : (s.onChan x f).heldLow = s.heldLow := rfl
@[simp] theorem onChan_cycles (s : State) (x : Fin 16) (f : Channel → Channel) : (s.onChan x f).cycles = s.cycles := rfl
@[simp] theorem onChan_cores (s : State) (x : Fin 16) (f : Channel → Channel) : (s.onChan x f).cores = s.cores := rfl
@[simp] theorem onChan_rings (s : State) (x : Fin 16) (f : Channel → Channel) : (s.onChan x f).rings = s.rings := rfl
@[simp] theorem onChan_mwy (s : State) (x : Fin 16) (f : Channel → Channel) : (s.onChan x f).mwy = s.mwy := rfl
@[simp] theorem onChan_mwyBad (s : State) (x : Fin 16) (f : Channel → Channel) : (s.onChan x f).mwyBad = s.mwyBad := rfl
@[simp] theorem onChan_mwyFlips (s : State) (x : Fin 16) (f : Channel → Channel) : (s.onChan x f).mwyFlips = s.mwyFlips := rfl
@[simp] theorem onChan_dram (s : State) (x : Fin 16) (f : Channel → Channel) : (s.onChan x f).dram = s.dram := rfl
@[simp] theorem onChan_streams (s : State) (x : Fin 16) (f : Channel → Channel) : (s.onChan x f).streams = s.streams := rfl
@[simp] theorem onChan_sessions (s : State) (x : Fin 16) (f : Channel → Channel) : (s.onChan x f).sessions = s.sessions := rfl
@[simp] theorem onChan_smpNext (s : State) (x : Fin 16) (f : Channel → Channel) : (s.onChan x f).smpNext = s.smpNext := rfl
@[simp] theorem onChan_wire (s : State) (x : Fin 16) (f : Channel → Channel) : (s.onChan x f).wire = s.wire := rfl
@[simp] theorem onChan_ethTurn (s : State) (x : Fin 16) (f : Channel → Channel) : (s.onChan x f).ethTurn = s.ethTurn := rfl
@[simp] theorem onChan_eps (s : State) (x : Fin 16) (f : Channel → Channel) : (s.onChan x f).eps = s.eps := rfl
@[simp] theorem onChan_trz (s : State) (x : Fin 16) (f : Channel → Channel) : (s.onChan x f).trz = s.trz := rfl
@[simp] theorem onChan_boot (s : State) (x : Fin 16) (f : Channel → Channel) : (s.onChan x f).boot = s.boot := rfl
@[simp] theorem onChan_flash (s : State) (x : Fin 16) (f : Channel → Channel) : (s.onChan x f).flash = s.flash := rfl
@[simp] theorem onChan_power (s : State) (x : Fin 16) (f : Channel → Channel) : (s.onChan x f).power = s.power := rfl
@[simp] theorem onChan_sec (s : State) (x : Fin 16) (f : Channel → Channel) : (s.onChan x f).sec = s.sec := rfl
@[simp] theorem onChan_pins (s : State) (x : Fin 16) (f : Channel → Channel) : (s.onChan x f).pins = s.pins := rfl
@[simp] theorem onChan_devFaults (s : State) (x : Fin 16) (f : Channel → Channel) : (s.onChan x f).devFaults = s.devFaults := rfl
@[simp] theorem onChan_faultSeq (s : State) (x : Fin 16) (f : Channel → Channel) : (s.onChan x f).faultSeq = s.faultSeq := rfl
@[simp] theorem onChan_cross (s : State) (x : Fin 16) (f : Channel → Channel) : (s.onChan x f).cross = s.cross := rfl
@[simp] theorem onChan_heldBack (s : State) (x : Fin 16) (f : Channel → Channel) : (s.onChan x f).heldBack = s.heldBack := rfl
@[simp] theorem onChan_fresh (s : State) (x : Fin 16) (f : Channel → Channel) : (s.onChan x f).fresh = s.fresh := rfl

/-! ## onPort -/

@[simp] theorem onPort_pending (s : State) (p : Fin 4) (f : TrzPort → TrzPort) : (s.onPort p f).pending = s.pending := rfl
@[simp] theorem onPort_regs (s : State) (p : Fin 4) (f : TrzPort → TrzPort) : (s.onPort p f).regs = s.regs := rfl
@[simp] theorem onPort_shadows (s : State) (p : Fin 4) (f : TrzPort → TrzPort) : (s.onPort p f).shadows = s.shadows := rfl
@[simp] theorem onPort_heldLow (s : State) (p : Fin 4) (f : TrzPort → TrzPort) : (s.onPort p f).heldLow = s.heldLow := rfl
@[simp] theorem onPort_cycles (s : State) (p : Fin 4) (f : TrzPort → TrzPort) : (s.onPort p f).cycles = s.cycles := rfl
@[simp] theorem onPort_cores (s : State) (p : Fin 4) (f : TrzPort → TrzPort) : (s.onPort p f).cores = s.cores := rfl
@[simp] theorem onPort_rings (s : State) (p : Fin 4) (f : TrzPort → TrzPort) : (s.onPort p f).rings = s.rings := rfl
@[simp] theorem onPort_mwy (s : State) (p : Fin 4) (f : TrzPort → TrzPort) : (s.onPort p f).mwy = s.mwy := rfl
@[simp] theorem onPort_mwyBad (s : State) (p : Fin 4) (f : TrzPort → TrzPort) : (s.onPort p f).mwyBad = s.mwyBad := rfl
@[simp] theorem onPort_mwyFlips (s : State) (p : Fin 4) (f : TrzPort → TrzPort) : (s.onPort p f).mwyFlips = s.mwyFlips := rfl
@[simp] theorem onPort_dram (s : State) (p : Fin 4) (f : TrzPort → TrzPort) : (s.onPort p f).dram = s.dram := rfl
@[simp] theorem onPort_streams (s : State) (p : Fin 4) (f : TrzPort → TrzPort) : (s.onPort p f).streams = s.streams := rfl
@[simp] theorem onPort_sessions (s : State) (p : Fin 4) (f : TrzPort → TrzPort) : (s.onPort p f).sessions = s.sessions := rfl
@[simp] theorem onPort_chans (s : State) (p : Fin 4) (f : TrzPort → TrzPort) : (s.onPort p f).chans = s.chans := rfl
@[simp] theorem onPort_smpNext (s : State) (p : Fin 4) (f : TrzPort → TrzPort) : (s.onPort p f).smpNext = s.smpNext := rfl
@[simp] theorem onPort_wire (s : State) (p : Fin 4) (f : TrzPort → TrzPort) : (s.onPort p f).wire = s.wire := rfl
@[simp] theorem onPort_ethTurn (s : State) (p : Fin 4) (f : TrzPort → TrzPort) : (s.onPort p f).ethTurn = s.ethTurn := rfl
@[simp] theorem onPort_eps (s : State) (p : Fin 4) (f : TrzPort → TrzPort) : (s.onPort p f).eps = s.eps := rfl
@[simp] theorem onPort_boot (s : State) (p : Fin 4) (f : TrzPort → TrzPort) : (s.onPort p f).boot = s.boot := rfl
@[simp] theorem onPort_flash (s : State) (p : Fin 4) (f : TrzPort → TrzPort) : (s.onPort p f).flash = s.flash := rfl
@[simp] theorem onPort_power (s : State) (p : Fin 4) (f : TrzPort → TrzPort) : (s.onPort p f).power = s.power := rfl
@[simp] theorem onPort_sec (s : State) (p : Fin 4) (f : TrzPort → TrzPort) : (s.onPort p f).sec = s.sec := rfl
@[simp] theorem onPort_pins (s : State) (p : Fin 4) (f : TrzPort → TrzPort) : (s.onPort p f).pins = s.pins := rfl
@[simp] theorem onPort_devFaults (s : State) (p : Fin 4) (f : TrzPort → TrzPort) : (s.onPort p f).devFaults = s.devFaults := rfl
@[simp] theorem onPort_faultSeq (s : State) (p : Fin 4) (f : TrzPort → TrzPort) : (s.onPort p f).faultSeq = s.faultSeq := rfl
@[simp] theorem onPort_cross (s : State) (p : Fin 4) (f : TrzPort → TrzPort) : (s.onPort p f).cross = s.cross := rfl
@[simp] theorem onPort_heldBack (s : State) (p : Fin 4) (f : TrzPort → TrzPort) : (s.onPort p f).heldBack = s.heldBack := rfl
@[simp] theorem onPort_fresh (s : State) (p : Fin 4) (f : TrzPort → TrzPort) : (s.onPort p f).fresh = s.fresh := rfl

/-! ## tick -/

@[simp] theorem tick_pending (s : State) (i : Fin 43) (n : Nat) : (s.tick i n).pending = s.pending := rfl
@[simp] theorem tick_regs (s : State) (i : Fin 43) (n : Nat) : (s.tick i n).regs = s.regs := rfl
@[simp] theorem tick_shadows (s : State) (i : Fin 43) (n : Nat) : (s.tick i n).shadows = s.shadows := rfl
@[simp] theorem tick_heldLow (s : State) (i : Fin 43) (n : Nat) : (s.tick i n).heldLow = s.heldLow := rfl
@[simp] theorem tick_cores (s : State) (i : Fin 43) (n : Nat) : (s.tick i n).cores = s.cores := rfl
@[simp] theorem tick_rings (s : State) (i : Fin 43) (n : Nat) : (s.tick i n).rings = s.rings := rfl
@[simp] theorem tick_mwy (s : State) (i : Fin 43) (n : Nat) : (s.tick i n).mwy = s.mwy := rfl
@[simp] theorem tick_mwyBad (s : State) (i : Fin 43) (n : Nat) : (s.tick i n).mwyBad = s.mwyBad := rfl
@[simp] theorem tick_mwyFlips (s : State) (i : Fin 43) (n : Nat) : (s.tick i n).mwyFlips = s.mwyFlips := rfl
@[simp] theorem tick_dram (s : State) (i : Fin 43) (n : Nat) : (s.tick i n).dram = s.dram := rfl
@[simp] theorem tick_streams (s : State) (i : Fin 43) (n : Nat) : (s.tick i n).streams = s.streams := rfl
@[simp] theorem tick_sessions (s : State) (i : Fin 43) (n : Nat) : (s.tick i n).sessions = s.sessions := rfl
@[simp] theorem tick_chans (s : State) (i : Fin 43) (n : Nat) : (s.tick i n).chans = s.chans := rfl
@[simp] theorem tick_smpNext (s : State) (i : Fin 43) (n : Nat) : (s.tick i n).smpNext = s.smpNext := rfl
@[simp] theorem tick_wire (s : State) (i : Fin 43) (n : Nat) : (s.tick i n).wire = s.wire := rfl
@[simp] theorem tick_ethTurn (s : State) (i : Fin 43) (n : Nat) : (s.tick i n).ethTurn = s.ethTurn := rfl
@[simp] theorem tick_eps (s : State) (i : Fin 43) (n : Nat) : (s.tick i n).eps = s.eps := rfl
@[simp] theorem tick_trz (s : State) (i : Fin 43) (n : Nat) : (s.tick i n).trz = s.trz := rfl
@[simp] theorem tick_boot (s : State) (i : Fin 43) (n : Nat) : (s.tick i n).boot = s.boot := rfl
@[simp] theorem tick_flash (s : State) (i : Fin 43) (n : Nat) : (s.tick i n).flash = s.flash := rfl
@[simp] theorem tick_power (s : State) (i : Fin 43) (n : Nat) : (s.tick i n).power = s.power := rfl
@[simp] theorem tick_sec (s : State) (i : Fin 43) (n : Nat) : (s.tick i n).sec = s.sec := rfl
@[simp] theorem tick_pins (s : State) (i : Fin 43) (n : Nat) : (s.tick i n).pins = s.pins := rfl
@[simp] theorem tick_devFaults (s : State) (i : Fin 43) (n : Nat) : (s.tick i n).devFaults = s.devFaults := rfl
@[simp] theorem tick_faultSeq (s : State) (i : Fin 43) (n : Nat) : (s.tick i n).faultSeq = s.faultSeq := rfl
@[simp] theorem tick_cross (s : State) (i : Fin 43) (n : Nat) : (s.tick i n).cross = s.cross := rfl
@[simp] theorem tick_heldBack (s : State) (i : Fin 43) (n : Nat) : (s.tick i n).heldBack = s.heldBack := rfl
@[simp] theorem tick_fresh (s : State) (i : Fin 43) (n : Nat) : (s.tick i n).fresh = s.fresh := rfl

/-! ## The part that an update changes -/

@[simp] theorem core_setCore (s : State) (c : Fin 16) (k : Core) : (s.setCore c k).core c = k := by
  simp [State.core, State.setCore]

theorem core_setCore_ne (s : State) {c d : Fin 16} (k : Core) (h : c ≠ d) : (s.setCore c k).core d = s.core d := by
  simp [State.core, State.setCore, Fin.val_ne_of_ne h]

@[simp] theorem core_onCore (s : State) (c : Fin 16) (f : Core → Core) : (s.onCore c f).core c = f (s.core c) := by
  simp [State.onCore]

theorem core_onCore_ne (s : State) {c d : Fin 16} (f : Core → Core) (h : c ≠ d) :
    (s.onCore c f).core d = s.core d := core_setCore_ne s _ h

@[simp] theorem ring_setRing (s : State) (r : Fin 8) (k : Ring) : (s.setRing r k).ring r = k := by
  simp [State.ring, State.setRing]

theorem ring_setRing_ne (s : State) {r q : Fin 8} (k : Ring) (h : r ≠ q) : (s.setRing r k).ring q = s.ring q := by
  simp [State.ring, State.setRing, Fin.val_ne_of_ne h]

@[simp] theorem ring_onRing (s : State) (r : Fin 8) (f : Ring → Ring) : (s.onRing r f).ring r = f (s.ring r) := by
  simp [State.onRing]

theorem ring_onRing_ne (s : State) {r q : Fin 8} (f : Ring → Ring) (h : r ≠ q) :
    (s.onRing r f).ring q = s.ring q := ring_setRing_ne s _ h

@[simp] theorem ep_onEp (s : State) (e : Fin 64) (f : Endpoint → Endpoint) : (s.onEp e f).ep e = f (s.ep e) := by
  simp [State.ep, State.onEp]

theorem ep_onEp_ne (s : State) {e d : Fin 64} (f : Endpoint → Endpoint) (h : e ≠ d) :
    (s.onEp e f).ep d = s.ep d := by
  simp [State.ep, State.onEp, Fin.val_ne_of_ne h]

@[simp] theorem stream_onStream (s : State) (x : Fin 64) (f : StreamCtx → StreamCtx) :
    (s.onStream x f).stream x = f (s.stream x) := by
  simp [State.stream, State.onStream]

@[simp] theorem chan_onChan (s : State) (x : Fin 16) (f : Channel → Channel) :
    (s.onChan x f).chan x = f (s.chan x) := by
  simp [State.chan, State.onChan]

@[simp] theorem port_onPort (s : State) (p : Fin 4) (f : TrzPort → TrzPort) :
    (s.onPort p f).trz.ports[p] = f s.trz.ports[p] := by
  simp [State.onPort]

@[simp] theorem count_tick (s : State) (i : Fin 43) (n : Nat) :
    (s.tick i n).count i = s.count i + BitVec.ofNat 48 n := by
  simp [State.count, State.tick]

/-! ## Registers through the other updates -/

@[simp] theorem reg_setCore (s : State) (c : Fin 16) (k : Core) (q : Reg) : (s.setCore c k).reg q = s.reg q := rfl
@[simp] theorem fld_setCore (s : State) (c : Fin 16) (k : Core) (q : Reg) (g : Fld) : (s.setCore c k).fld q g = s.fld q g := rfl
@[simp] theorem reg_onCore (s : State) (c : Fin 16) (f : Core → Core) (q : Reg) : (s.onCore c f).reg q = s.reg q := rfl
@[simp] theorem fld_onCore (s : State) (c : Fin 16) (f : Core → Core) (q : Reg) (g : Fld) : (s.onCore c f).fld q g = s.fld q g := rfl
@[simp] theorem reg_setRing (s : State) (r : Fin 8) (k : Ring) (q : Reg) : (s.setRing r k).reg q = s.reg q := rfl
@[simp] theorem fld_setRing (s : State) (r : Fin 8) (k : Ring) (q : Reg) (g : Fld) : (s.setRing r k).fld q g = s.fld q g := rfl
@[simp] theorem reg_onRing (s : State) (r : Fin 8) (f : Ring → Ring) (q : Reg) : (s.onRing r f).reg q = s.reg q := rfl
@[simp] theorem fld_onRing (s : State) (r : Fin 8) (f : Ring → Ring) (q : Reg) (g : Fld) : (s.onRing r f).fld q g = s.fld q g := rfl
@[simp] theorem reg_onEp (s : State) (e : Fin 64) (f : Endpoint → Endpoint) (q : Reg) : (s.onEp e f).reg q = s.reg q := rfl
@[simp] theorem fld_onEp (s : State) (e : Fin 64) (f : Endpoint → Endpoint) (q : Reg) (g : Fld) : (s.onEp e f).fld q g = s.fld q g := rfl
@[simp] theorem reg_onStream (s : State) (x : Fin 64) (f : StreamCtx → StreamCtx) (q : Reg) : (s.onStream x f).reg q = s.reg q := rfl
@[simp] theorem fld_onStream (s : State) (x : Fin 64) (f : StreamCtx → StreamCtx) (q : Reg) (g : Fld) : (s.onStream x f).fld q g = s.fld q g := rfl
@[simp] theorem reg_onSession (s : State) (x : Fin 16) (f : CodecSession → CodecSession) (q : Reg) : (s.onSession x f).reg q = s.reg q := rfl
@[simp] theorem fld_onSession (s : State) (x : Fin 16) (f : CodecSession → CodecSession) (q : Reg) (g : Fld) : (s.onSession x f).fld q g = s.fld q g := rfl
@[simp] theorem reg_onChan (s : State) (x : Fin 16) (f : Channel → Channel) (q : Reg) : (s.onChan x f).reg q = s.reg q := rfl
@[simp] theorem fld_onChan (s : State) (x : Fin 16) (f : Channel → Channel) (q : Reg) (g : Fld) : (s.onChan x f).fld q g = s.fld q g := rfl
@[simp] theorem reg_onPort (s : State) (p : Fin 4) (f : TrzPort → TrzPort) (q : Reg) : (s.onPort p f).reg q = s.reg q := rfl
@[simp] theorem fld_onPort (s : State) (p : Fin 4) (f : TrzPort → TrzPort) (q : Reg) (g : Fld) : (s.onPort p f).fld q g = s.fld q g := rfl
@[simp] theorem reg_tick (s : State) (i : Fin 43) (n : Nat) (q : Reg) : (s.tick i n).reg q = s.reg q := rfl
@[simp] theorem fld_tick (s : State) (i : Fin 43) (n : Nat) (q : Reg) (g : Fld) : (s.tick i n).fld q g = s.fld q g := rfl

/-! ## The parts through the other updates -/

@[simp] theorem core_setReg (s : State) (r : Reg) (v : Word) (i_ : Fin 16) : (s.setReg r v).core i_ = s.core i_ := rfl
@[simp] theorem ring_setReg (s : State) (r : Reg) (v : Word) (i_ : Fin 8) : (s.setReg r v).ring i_ = s.ring i_ := rfl
@[simp] theorem ep_setReg (s : State) (r : Reg) (v : Word) (i_ : Fin 64) : (s.setReg r v).ep i_ = s.ep i_ := rfl
@[simp] theorem stream_setReg (s : State) (r : Reg) (v : Word) (i_ : Fin 64) : (s.setReg r v).stream i_ = s.stream i_ := rfl
@[simp] theorem chan_setReg (s : State) (r : Reg) (v : Word) (i_ : Fin 16) : (s.setReg r v).chan i_ = s.chan i_ := rfl
@[simp] theorem count_setReg (s : State) (r : Reg) (v : Word) (i_ : Fin 43) : (s.setReg r v).count i_ = s.count i_ := rfl
@[simp] theorem core_setFld (s : State) (r : Reg) (f : Fld) (n : Nat) (i_ : Fin 16) : (s.setFld r f n).core i_ = s.core i_ := rfl
@[simp] theorem ring_setFld (s : State) (r : Reg) (f : Fld) (n : Nat) (i_ : Fin 8) : (s.setFld r f n).ring i_ = s.ring i_ := rfl
@[simp] theorem ep_setFld (s : State) (r : Reg) (f : Fld) (n : Nat) (i_ : Fin 64) : (s.setFld r f n).ep i_ = s.ep i_ := rfl
@[simp] theorem stream_setFld (s : State) (r : Reg) (f : Fld) (n : Nat) (i_ : Fin 64) : (s.setFld r f n).stream i_ = s.stream i_ := rfl
@[simp] theorem chan_setFld (s : State) (r : Reg) (f : Fld) (n : Nat) (i_ : Fin 16) : (s.setFld r f n).chan i_ = s.chan i_ := rfl
@[simp] theorem count_setFld (s : State) (r : Reg) (f : Fld) (n : Nat) (i_ : Fin 43) : (s.setFld r f n).count i_ = s.count i_ := rfl
@[simp] theorem core_bump (s : State) (r : Reg) (f : Fld) (n : Nat) (i_ : Fin 16) : (s.bump r f n).core i_ = s.core i_ := rfl
@[simp] theorem ring_bump (s : State) (r : Reg) (f : Fld) (n : Nat) (i_ : Fin 8) : (s.bump r f n).ring i_ = s.ring i_ := rfl
@[simp] theorem ep_bump (s : State) (r : Reg) (f : Fld) (n : Nat) (i_ : Fin 64) : (s.bump r f n).ep i_ = s.ep i_ := rfl
@[simp] theorem stream_bump (s : State) (r : Reg) (f : Fld) (n : Nat) (i_ : Fin 64) : (s.bump r f n).stream i_ = s.stream i_ := rfl
@[simp] theorem chan_bump (s : State) (r : Reg) (f : Fld) (n : Nat) (i_ : Fin 16) : (s.bump r f n).chan i_ = s.chan i_ := rfl
@[simp] theorem count_bump (s : State) (r : Reg) (f : Fld) (n : Nat) (i_ : Fin 43) : (s.bump r f n).count i_ = s.count i_ := rfl
@[simp] theorem core_raiseBit (s : State) (r : Reg) (f : Fld) (k : Nat) (i_ : Fin 16) : (s.raiseBit r f k).core i_ = s.core i_ := rfl
@[simp] theorem ring_raiseBit (s : State) (r : Reg) (f : Fld) (k : Nat) (i_ : Fin 8) : (s.raiseBit r f k).ring i_ = s.ring i_ := rfl
@[simp] theorem ep_raiseBit (s : State) (r : Reg) (f : Fld) (k : Nat) (i_ : Fin 64) : (s.raiseBit r f k).ep i_ = s.ep i_ := rfl
@[simp] theorem stream_raiseBit (s : State) (r : Reg) (f : Fld) (k : Nat) (i_ : Fin 64) : (s.raiseBit r f k).stream i_ = s.stream i_ := rfl
@[simp] theorem chan_raiseBit (s : State) (r : Reg) (f : Fld) (k : Nat) (i_ : Fin 16) : (s.raiseBit r f k).chan i_ = s.chan i_ := rfl
@[simp] theorem count_raiseBit (s : State) (r : Reg) (f : Fld) (k : Nat) (i_ : Fin 43) : (s.raiseBit r f k).count i_ = s.count i_ := rfl
@[simp] theorem core_setRingState (s : State) (r : Fin 8) (st cause : Nat) (i_ : Fin 16) : (s.setRingState r st cause).core i_ = s.core i_ := rfl
@[simp] theorem ring_setRingState (s : State) (r : Fin 8) (st cause : Nat) (i_ : Fin 8) : (s.setRingState r st cause).ring i_ = s.ring i_ := rfl
@[simp] theorem ep_setRingState (s : State) (r : Fin 8) (st cause : Nat) (i_ : Fin 64) : (s.setRingState r st cause).ep i_ = s.ep i_ := rfl
@[simp] theorem stream_setRingState (s : State) (r : Fin 8) (st cause : Nat) (i_ : Fin 64) : (s.setRingState r st cause).stream i_ = s.stream i_ := rfl
@[simp] theorem chan_setRingState (s : State) (r : Fin 8) (st cause : Nat) (i_ : Fin 16) : (s.setRingState r st cause).chan i_ = s.chan i_ := rfl
@[simp] theorem count_setRingState (s : State) (r : Fin 8) (st cause : Nat) (i_ : Fin 43) : (s.setRingState r st cause).count i_ = s.count i_ := rfl
@[simp] theorem core_moveRing (s : State) (r : Fin 8) (st : Nat) (i_ : Fin 16) : (s.moveRing r st).core i_ = s.core i_ := rfl
@[simp] theorem ring_moveRing (s : State) (r : Fin 8) (st : Nat) (i_ : Fin 8) : (s.moveRing r st).ring i_ = s.ring i_ := rfl
@[simp] theorem ep_moveRing (s : State) (r : Fin 8) (st : Nat) (i_ : Fin 64) : (s.moveRing r st).ep i_ = s.ep i_ := rfl
@[simp] theorem stream_moveRing (s : State) (r : Fin 8) (st : Nat) (i_ : Fin 64) : (s.moveRing r st).stream i_ = s.stream i_ := rfl
@[simp] theorem chan_moveRing (s : State) (r : Fin 8) (st : Nat) (i_ : Fin 16) : (s.moveRing r st).chan i_ = s.chan i_ := rfl
@[simp] theorem count_moveRing (s : State) (r : Fin 8) (st : Nat) (i_ : Fin 43) : (s.moveRing r st).count i_ = s.count i_ := rfl
@[simp] theorem ring_setCore (s : State) (c : Fin 16) (k : Core) (i_ : Fin 8) : (s.setCore c k).ring i_ = s.ring i_ := rfl
@[simp] theorem ep_setCore (s : State) (c : Fin 16) (k : Core) (i_ : Fin 64) : (s.setCore c k).ep i_ = s.ep i_ := rfl
@[simp] theorem stream_setCore (s : State) (c : Fin 16) (k : Core) (i_ : Fin 64) : (s.setCore c k).stream i_ = s.stream i_ := rfl
@[simp] theorem chan_setCore (s : State) (c : Fin 16) (k : Core) (i_ : Fin 16) : (s.setCore c k).chan i_ = s.chan i_ := rfl
@[simp] theorem count_setCore (s : State) (c : Fin 16) (k : Core) (i_ : Fin 43) : (s.setCore c k).count i_ = s.count i_ := rfl
@[simp] theorem ring_onCore (s : State) (c : Fin 16) (f : Core → Core) (i_ : Fin 8) : (s.onCore c f).ring i_ = s.ring i_ := rfl
@[simp] theorem ep_onCore (s : State) (c : Fin 16) (f : Core → Core) (i_ : Fin 64) : (s.onCore c f).ep i_ = s.ep i_ := rfl
@[simp] theorem stream_onCore (s : State) (c : Fin 16) (f : Core → Core) (i_ : Fin 64) : (s.onCore c f).stream i_ = s.stream i_ := rfl
@[simp] theorem chan_onCore (s : State) (c : Fin 16) (f : Core → Core) (i_ : Fin 16) : (s.onCore c f).chan i_ = s.chan i_ := rfl
@[simp] theorem count_onCore (s : State) (c : Fin 16) (f : Core → Core) (i_ : Fin 43) : (s.onCore c f).count i_ = s.count i_ := rfl
@[simp] theorem core_setRing (s : State) (r : Fin 8) (k : Ring) (i_ : Fin 16) : (s.setRing r k).core i_ = s.core i_ := rfl
@[simp] theorem ep_setRing (s : State) (r : Fin 8) (k : Ring) (i_ : Fin 64) : (s.setRing r k).ep i_ = s.ep i_ := rfl
@[simp] theorem stream_setRing (s : State) (r : Fin 8) (k : Ring) (i_ : Fin 64) : (s.setRing r k).stream i_ = s.stream i_ := rfl
@[simp] theorem chan_setRing (s : State) (r : Fin 8) (k : Ring) (i_ : Fin 16) : (s.setRing r k).chan i_ = s.chan i_ := rfl
@[simp] theorem count_setRing (s : State) (r : Fin 8) (k : Ring) (i_ : Fin 43) : (s.setRing r k).count i_ = s.count i_ := rfl
@[simp] theorem core_onRing (s : State) (r : Fin 8) (f : Ring → Ring) (i_ : Fin 16) : (s.onRing r f).core i_ = s.core i_ := rfl
@[simp] theorem ep_onRing (s : State) (r : Fin 8) (f : Ring → Ring) (i_ : Fin 64) : (s.onRing r f).ep i_ = s.ep i_ := rfl
@[simp] theorem stream_onRing (s : State) (r : Fin 8) (f : Ring → Ring) (i_ : Fin 64) : (s.onRing r f).stream i_ = s.stream i_ := rfl
@[simp] theorem chan_onRing (s : State) (r : Fin 8) (f : Ring → Ring) (i_ : Fin 16) : (s.onRing r f).chan i_ = s.chan i_ := rfl
@[simp] theorem count_onRing (s : State) (r : Fin 8) (f : Ring → Ring) (i_ : Fin 43) : (s.onRing r f).count i_ = s.count i_ := rfl
@[simp] theorem core_onEp (s : State) (e : Fin 64) (f : Endpoint → Endpoint) (i_ : Fin 16) : (s.onEp e f).core i_ = s.core i_ := rfl
@[simp] theorem ring_onEp (s : State) (e : Fin 64) (f : Endpoint → Endpoint) (i_ : Fin 8) : (s.onEp e f).ring i_ = s.ring i_ := rfl
@[simp] theorem stream_onEp (s : State) (e : Fin 64) (f : Endpoint → Endpoint) (i_ : Fin 64) : (s.onEp e f).stream i_ = s.stream i_ := rfl
@[simp] theorem chan_onEp (s : State) (e : Fin 64) (f : Endpoint → Endpoint) (i_ : Fin 16) : (s.onEp e f).chan i_ = s.chan i_ := rfl
@[simp] theorem count_onEp (s : State) (e : Fin 64) (f : Endpoint → Endpoint) (i_ : Fin 43) : (s.onEp e f).count i_ = s.count i_ := rfl
@[simp] theorem core_onStream (s : State) (x : Fin 64) (f : StreamCtx → StreamCtx) (i_ : Fin 16) : (s.onStream x f).core i_ = s.core i_ := rfl
@[simp] theorem ring_onStream (s : State) (x : Fin 64) (f : StreamCtx → StreamCtx) (i_ : Fin 8) : (s.onStream x f).ring i_ = s.ring i_ := rfl
@[simp] theorem ep_onStream (s : State) (x : Fin 64) (f : StreamCtx → StreamCtx) (i_ : Fin 64) : (s.onStream x f).ep i_ = s.ep i_ := rfl
@[simp] theorem chan_onStream (s : State) (x : Fin 64) (f : StreamCtx → StreamCtx) (i_ : Fin 16) : (s.onStream x f).chan i_ = s.chan i_ := rfl
@[simp] theorem count_onStream (s : State) (x : Fin 64) (f : StreamCtx → StreamCtx) (i_ : Fin 43) : (s.onStream x f).count i_ = s.count i_ := rfl
@[simp] theorem core_onSession (s : State) (x : Fin 16) (f : CodecSession → CodecSession) (i_ : Fin 16) : (s.onSession x f).core i_ = s.core i_ := rfl
@[simp] theorem ring_onSession (s : State) (x : Fin 16) (f : CodecSession → CodecSession) (i_ : Fin 8) : (s.onSession x f).ring i_ = s.ring i_ := rfl
@[simp] theorem ep_onSession (s : State) (x : Fin 16) (f : CodecSession → CodecSession) (i_ : Fin 64) : (s.onSession x f).ep i_ = s.ep i_ := rfl
@[simp] theorem stream_onSession (s : State) (x : Fin 16) (f : CodecSession → CodecSession) (i_ : Fin 64) : (s.onSession x f).stream i_ = s.stream i_ := rfl
@[simp] theorem chan_onSession (s : State) (x : Fin 16) (f : CodecSession → CodecSession) (i_ : Fin 16) : (s.onSession x f).chan i_ = s.chan i_ := rfl
@[simp] theorem count_onSession (s : State) (x : Fin 16) (f : CodecSession → CodecSession) (i_ : Fin 43) : (s.onSession x f).count i_ = s.count i_ := rfl
@[simp] theorem core_onChan (s : State) (x : Fin 16) (f : Channel → Channel) (i_ : Fin 16) : (s.onChan x f).core i_ = s.core i_ := rfl
@[simp] theorem ring_onChan (s : State) (x : Fin 16) (f : Channel → Channel) (i_ : Fin 8) : (s.onChan x f).ring i_ = s.ring i_ := rfl
@[simp] theorem ep_onChan (s : State) (x : Fin 16) (f : Channel → Channel) (i_ : Fin 64) : (s.onChan x f).ep i_ = s.ep i_ := rfl
@[simp] theorem stream_onChan (s : State) (x : Fin 16) (f : Channel → Channel) (i_ : Fin 64) : (s.onChan x f).stream i_ = s.stream i_ := rfl
@[simp] theorem count_onChan (s : State) (x : Fin 16) (f : Channel → Channel) (i_ : Fin 43) : (s.onChan x f).count i_ = s.count i_ := rfl
@[simp] theorem core_onPort (s : State) (p : Fin 4) (f : TrzPort → TrzPort) (i_ : Fin 16) : (s.onPort p f).core i_ = s.core i_ := rfl
@[simp] theorem ring_onPort (s : State) (p : Fin 4) (f : TrzPort → TrzPort) (i_ : Fin 8) : (s.onPort p f).ring i_ = s.ring i_ := rfl
@[simp] theorem ep_onPort (s : State) (p : Fin 4) (f : TrzPort → TrzPort) (i_ : Fin 64) : (s.onPort p f).ep i_ = s.ep i_ := rfl
@[simp] theorem stream_onPort (s : State) (p : Fin 4) (f : TrzPort → TrzPort) (i_ : Fin 64) : (s.onPort p f).stream i_ = s.stream i_ := rfl
@[simp] theorem chan_onPort (s : State) (p : Fin 4) (f : TrzPort → TrzPort) (i_ : Fin 16) : (s.onPort p f).chan i_ = s.chan i_ := rfl
@[simp] theorem count_onPort (s : State) (p : Fin 4) (f : TrzPort → TrzPort) (i_ : Fin 43) : (s.onPort p f).count i_ = s.count i_ := rfl
@[simp] theorem core_tick (s : State) (i : Fin 43) (n : Nat) (i_ : Fin 16) : (s.tick i n).core i_ = s.core i_ := rfl
@[simp] theorem ring_tick (s : State) (i : Fin 43) (n : Nat) (i_ : Fin 8) : (s.tick i n).ring i_ = s.ring i_ := rfl
@[simp] theorem ep_tick (s : State) (i : Fin 43) (n : Nat) (i_ : Fin 64) : (s.tick i n).ep i_ = s.ep i_ := rfl
@[simp] theorem stream_tick (s : State) (i : Fin 43) (n : Nat) (i_ : Fin 64) : (s.tick i n).stream i_ = s.stream i_ := rfl
@[simp] theorem chan_tick (s : State) (i : Fin 43) (n : Nat) (i_ : Fin 16) : (s.tick i n).chan i_ = s.chan i_ := rfl

end Sys2Proof.Machine
end

