-- ==== Sys2Proof/Safety.lean ====
section
/-! DEFINITION. The terms in which claims speak of the machine: a command that may issue, an audit that lets it pass, what
a command leaves alone, and the canonical form of every memory. -/

namespace Sys2Proof.Machine

/-- The command of queue `q` of core `c` may issue in slot `u`, for ring `r` (R57, R104, R105, R109, R114, R132, R455): the
core, and every core that its push reaches, is of ring `r`, and so is its tag; the ring runs, an invocation is in progress,
and the ring is not halted, or the queue has a STEP; the queue has not passed END; the command stands at the head, or comes
alone to an empty queue; its engine has no command under way. Slot `u` is the present slot for the first command of an
invocation, and for a later one no earlier than its gap after the end of the last command's occupancy. -/
def Ready (s : State) (c : Fin 16) (q : Fin 5) (mask : BitVec 16) (tag : Tag) (gap : Byte) (r : Fin 8) (u : Nat) : Prop :=
  s.ringOfCore c = some r ∧ tagRing tag = r ∧ (∀ x ∈ s.pushCores r c mask, s.ringOfCore x = some r) ∧
    s.ringClocked r = true ∧ (s.ring r).current.isSome = true ∧
    ((s.ring r).halted = false ∨ (s.queue c q).stepNow = true) ∧ (s.queue c q).ended = false ∧
    ((s.queue c q).tags.head? = some tag ∨ ((s.queue c q).tags = [] ∧ (s.pushCores r c mask).length = 1)) ∧
    s.engineBusy c q = false ∧
    u = if (s.queue c q).fresh then (s.core c).slot else max (s.core c).slot ((s.queue c q).free + gap.toNat)

/-- The ring's audit is off, or finds nothing (R121). -/
def Passes (s : State) (r : Fin 8) (v : Option Violation) : Prop := s.auditOn r = true → v = none

/-- The audit of an array command that reads some sets and loads others (R66, R121). -/
def arrayAudit (s : State) (e : Eng) (reads loads : List Nat) : Option Violation :=
  nearestViolation (arrayPairs (s.position e.core qArray e.gap.toNat) reads loads) (s.core e.core).auditArr

/-- The audit of a vector command that reads registers at slot offsets, and writes registers visible from a distance
(R119, R121). -/
def vectorAudit (s : State) (e : Eng) (reads : List (Nat × Nat)) (first count vis : Nat) : Option Violation :=
  nearestViolation (vectorPairs (s.position e.core qVector e.gap.toNat) reads first count vis) (s.core e.core).auditVec

/-- The sequencer of a unit takes a command of ring `r`: it runs that ring's stream, the ring runs, an invocation is in
progress, the tag is the ring's, and the stream has not passed END (R107, R109, R114, R132). -/
def Takes (s : State) (u : SeqUnit) (tag : Tag) (r : Fin 8) : Prop :=
  s.seqRing u = some r ∧ s.ringClocked r = true ∧ (s.ring r).current.isSome = true ∧ tagRing tag = r ∧
    (s.seq u).ended = false

/-- What has been written into a crossing and not delivered, in order: its entries, and behind them what its sender holds
back (R23, R24). -/
def State.sentOn (s : State) (x : Crossing) : List CrossOp :=
  ((s.cross ++ s.heldBack).filter fun e => e.1 == x).map fun e => e.2

/-- One entry has been written into crossing `x`, and none into another (R23, R24). -/
def Sends (s t : State) (x : Crossing) (o : CrossOp) : Prop :=
  t.sentOn x = s.sentOn x ++ [o] ∧ ∀ y : Crossing, y ≠ x → t.sentOn y = s.sentOn y

/-- The entries of a list have been written into crossing `x`, in order, and none into another (R23, R24). -/
def SendsAll (s t : State) (x : Crossing) (l : List CrossOp) : Prop :=
  t.sentOn x = s.sentOn x ++ l ∧ ∀ y : Crossing, y ≠ x → t.sentOn y = s.sentOn y

/-- Nothing has been written into a crossing or taken from one. -/
def SameCrossings (s t : State) : Prop := t.cross = s.cross ∧ t.heldBack = s.heldBack

/-- A command of an access-side engine may issue for ring `r`, and the audit finds no filled region in its way (R105, R121). -/
def Starts (s : State) (e : Eng) (q : Fin 5) (r : Fin 8) (u : Nat) (regions : List Nat) : Prop :=
  Ready s e.core q e.mask e.tag e.gap r u ∧ Passes s r (fillViolation (s.core e.core) regions)

/-- The flags that a completion sets: that which stands for its READY token, then its own (R109, R127, R152). -/
def doneFlags (done : Completion) : List FlagRef := done.ready.toList ++ done.flag.toList

/-- The core flags with those of a list set. -/
def withFlags (v : BitVec 64) (l : List FlagRef) : BitVec 64 :=
  l.foldl (fun v f => match f with | .core n _ => v ||| (1#64).shiftLeft n | .ring _ => v) v

/-- The sets of a list's ring flags, as they cross to the concourse (R127). -/
def ringSets (r : Fin 8) (l : List FlagRef) : List CrossOp :=
  l.filterMap fun f => match f with | .core _ _ => none | .ring n => some (.setFlag r n)

/-- The READY token of a completion stands behind the others of its data queue, and no other data queue has changed
(R108). -/
def TokenGiven (s t : State) (c : Fin 16) (done : Completion) : Prop :=
  ∀ n : Fin 8, t.dq c n = if done.dq = some n then s.dq c n ++ [.ready done.region] else s.dq c n

/-- The ring flags of a completion are on their way, and nothing else entered a crossing (R127). -/
def RingFlagsSent (s t : State) (c : Fin 16) (r : Fin 8) (done : Completion) : Prop :=
  t.sentOn (.coreToConcourse c) = s.sentOn (.coreToConcourse c) ++ ringSets r (doneFlags done) ∧
    ∀ x : Crossing, x ≠ .coreToConcourse c → t.sentOn x = s.sentOn x

/-- The operations on a core's flags that have not reached them stand in the order in which they will (R126, R127). -/
def FlagsInOrder (k : Core) : Prop := k.flagPend.Pairwise fun a b => opKey a ≤ opKey b

/-- An operation of a queue's command that issues in slot `u` has been sent to a core flag, which it reaches in the next
core cycle: behind those of its slot, after what has reached the flags by the issue (R126, R127; log 108). -/
def FlagSent (s t : State) (c : Fin 16) (q : Fin 5) (u : Nat) (n : Fin 64) (set : Bool) : Prop :=
  (t.core c).flags = queueFlags q u (s.core c) ∧
    (t.core c).flagPend = insertOp ⟨(t.core c).slot + 1, n, set⟩
      (if isExecQueue q then (s.core c).flagPend.filter fun o => !decide (o.slot ≤ u) else [])

/-- No symbol of the core's memory is in error, and nothing that its decoder found waits to be counted (R140). -/
def NoErrors (k : Core) : Prop := k.memFlips = [] ∧ k.ecc = []

/-- Every word of the core's memory reads as it was written: at most two of its symbols are in error (R140). -/
def Correctable (k : Core) : Prop := ∀ w : Nat, eccOf k.memFlips w ≠ .uncorrectable

/-- A crossing that flag operations, hints and triggers take: not one between two trapeze ports (R23, R331). -/
def FlagPath (x : Crossing) : Prop := ∀ (a b : Fin 4) (v : Fin 3), x ≠ .trzToTrz a b v

/-- The oldest entry of crossing `x` has left it, and no other crossing has changed (R23). -/
def Drains (s t : State) (x : Crossing) : Prop :=
  t.sentOn x = (s.sentOn x).drop 1 ∧ ∀ y : Crossing, y ≠ x → t.sentOn y = s.sentOn y

/-- The oldest entry of crossing `x` has left it, and one more stands in crossing `y` (R23, R127). -/
def Hops (s t : State) (x y : Crossing) (o : CrossOp) : Prop := ∃ m, Drains s m x ∧ Sends m t y o

/-- The valid marks of a core are those of another. -/
def SameMarks (k j : Core) : Prop := j.wValid = k.wValid ∧ j.aValid = k.aValid ∧ j.dsValid = k.dsValid

/-- The state after the issue of a vector command that writes registers, noted for the audit (R105, R118, R121). -/
def vectorIssued (s : State) (e : Eng) (occ first count vis u : Nat) : State :=
  (s.issueAt e.core qVector e.tag e.gap.toNat occ occ u).noteVector e.core
    ⟨e.tag, s.position e.core qVector e.gap.toNat, 0, first, count, vis⟩

/-- A vector command that issued in slot `u`, with the core `k` after its issue, has put its write in line, and left
core memory, operands, marks, data queues, receive entries and the midway as they were (R118, R119). -/
def VectorWrites (s t : State) (e : Eng) (u : Nat) (k : Core) (w : VecWrite) : Prop :=
  (t.core e.core).vPend = k.vPend ++ [w] ∧ (t.core e.core).mem = (s.core e.core).mem ∧
    (t.core e.core).opnd = (s.core e.core).opnd ∧ SameMarks (s.core e.core) (t.core e.core) ∧
    (t.core e.core).dqs = (s.core e.core).dqs ∧ (t.core e.core).rx = (s.core e.core).rx ∧
    (t.core e.core).flags = (flagsBy u (s.core e.core)).1 ∧ t.mwy = s.mwy

/-- The core with the regions of a command marked valid, once (R59, R141). -/
def markedOnce (b : EngineBusy) (k : Core) : Core := if b.finished then k else setMarks b.marks k

/-- What the completion of an engine's command leaves: the regions marked, the READY token behind the others, the flags set
in the next cycle or on their way, and nothing else of the core's memory, nor of the midway (R108, R109, R127, R141). -/
def Completed (s t : State) (c : Fin 16) (r : Fin 8) (b : EngineBusy) : Prop :=
  TokenGiven s t c b.done ∧ RingFlagsSent s t c r b.done ∧
    (flagsAfter (t.core c)).1 = withFlags (flagsAfter (s.core c)).1 (doneFlags b.done) ∧
    (t.core c).wValid = (markedOnce b (s.core c)).wValid ∧ (t.core c).aValid = (markedOnce b (s.core c)).aValid ∧
    (t.core c).dsValid = (markedOnce b (s.core c)).dsValid ∧ (t.core c).mem = (s.core c).mem ∧
    (t.core c).opnd = (s.core c).opnd ∧ t.mwy = s.mwy

/-- The unfold engine has refused a command: GEOM_ERR, the cause and the tag, and no command under way (R212). -/
def GeomRefused (s t : State) (e : Eng) (cause : Nat) : Prop :=
  t.fld (.coreUnfoldStatus e.core) F.coreUnfoldStatus_GEOM_ERR = 1 ∧
    t.fld (.coreUnfoldStatus e.core) F.coreUnfoldStatus_GEOM_CAUSE = cause ∧ t.reg (.coreUnfoldErrTag e.core) = e.tag ∧
    (t.core e.core).unfoldBusy = (s.core e.core).unfoldBusy ∧ (t.core e.core).opnd = (s.core e.core).opnd ∧ t.mwy = s.mwy

/-- The bytes of the geometry records at some addresses, as the unfold engine reads them, and the state after the read
(R197). -/
def recordsRead (s : State) (tag : Tag) (c : Fin 16) (l : List Nat) : State × List (List Byte) :=
  let s1 := s.touch tag c (l.map fun a => (a, 64))
  (s1, l.map fun a => rawBytes (coreGet (s1.core c) a 64))

/-- The output rows that a command of the unfold engine names. -/
def rowsFrom (row0 rows : Nat) : List Nat := (List.range rows).map fun i => row0 + i

/-- The sender may make a request of the ring, and in its power state (R56, R433, R439). -/
def MayAsk (s : State) (r : Fin 8) (who : Who) : Prop := s.debugAsleep r who = false ∧ s.ringAccess r who = true

/-- The sender may make a request of the ring, which does not hold it (R51, R56, R313). -/
def Heard (s : State) (r : Fin 8) (who : Who) : Prop := MayAsk s r who ∧ (s.holdsWrites r = false ∨ who = .booth)

/-- The page-table line of a context's page `n` is the booth's, and reads without an error; and the frame or slot `f` of
DRAM does not hold it (R184, R226, R227). -/
def EntrySound (s : State) (x : Fin 4096) (n f : Nat) : Prop :=
  (checkLine s.dram ((s.ctxBase x + n) / 8) 0x80 none).kind = 0 ∧ (s.ctxBase x + n) / 8192 ≠ f

/-- No endpoint of any ring is the internal one, so that no message goes to DRAM (R299, R322). -/
def NoInternal (s : State) : Prop := ∀ x : Fin 64, s.epInternal x = false

/-- A frame is the whole of a new message of endpoint `x`: R300 accepts it, it is first and last chunk, its GEN is ahead of
LAST, and no message of its MSG_ID is under way (R300, R303, R306, R307). -/
def WholeMessage (s : State) (type : Byte) (f : Frame) (x : Fin 64) : Prop :=
  s.judge type f = .accept x ∧ f.offset = 0 ∧ lastChunk f = true ∧ s.reasmOf x f.msgId = none ∧
    1 ≤ (f.gen - smGet 0 (s.ep x).last f.msgId.toNat).toNat ∧ (f.gen - smGet 0 (s.ep x).last f.msgId.toNat).toNat < 128

/-- The state in which a whole message of one frame acts: its packet number noted, the frame counted, its sender the peer,
LAST set (R300, R301, R306, R321). -/
def arrived (s : State) (f : Frame) (x : Fin 64) : State :=
  (((((s.noteNumber f x).ethCount f.via 0).epCount x 0).takePeer x f).onEp x fun k =>
    { k with last := smSet 0 k.last f.msgId.toNat f.gen }).dropReasm x f.msgId

/-- A frame brings the last bytes of message `m` of endpoint `x`, of which other chunks have come: R300 accepts it and its
GEN is that of LAST (R300, R306, R307). -/
def CompletesMessage (s : State) (type : Byte) (f : Frame) (x : Fin 64) (m : Reassembly) : Prop :=
  s.judge type f = .accept x ∧ s.reasmOf x f.msgId = some m ∧ m.type = type ∧ f.gen = smGet 0 (s.ep x).last f.msgId.toNat ∧
    (m.add f).whole = true

/-- The state in which a message whose last bytes a frame brings acts (R300, R301, R307, R321). -/
def completed (s : State) (f : Frame) (x : Fin 64) : State :=
  ((((s.noteNumber f x).ethCount f.via 0).epCount x 0).takePeer x f).dropReasm x f.msgId

/-- The body of a message with the last of its bytes. -/
def wholeBody (m : Reassembly) (f : Frame) : List Byte :=
  smRead 0 (smWrite 0 m.body f.offset.toNat f.payload) 0 ((m.add f).last.getD 0)

/-- The endpoint number of an endpoint instance. -/
def epNo (x : Fin 64) : Fin 8 := ⟨x.val % 8, by omega⟩

/-- What follows a frame that is accepted: in Standby the device wakes (R438). -/
def woken (s t : State) : State := if s.inStandby then t.wakeUp else t

/-- A reply with this status and body has left endpoint `x`, or waits there (R305, R321). -/
def Answered (t : State) (x : Fin 64) (type : Byte) (f : Frame) (id : Word) (status : Nat) (body : List Byte) : Prop :=
  ∃ m ∈ (t.ep x).sent ++ (t.ep x).queue, m.reply = true ∧ m.type = type ∧ m.msgId = f.msgId ∧ m.gen = f.gen ∧ m.id = id ∧
    m.status = status ∧ m.body = body

/-- A message of the L9's own has left endpoint `x`, or waits there (R305, R321). -/
def Told (t : State) (x : Fin 64) (type : Byte) (id : Word) (body : List Byte) : Prop :=
  ∃ m ∈ (t.ep x).sent ++ (t.ep x).queue, m.reply = false ∧ m.type = type ∧ m.id = id ∧ m.body = body

/-- No ring differs but in what frames that leave and records that are filed change: its result slots, and its fault queue
(R317, R447). -/
def OnlySent (s t : State) : Prop :=
  ∀ r : Fin 8, t.ring r = { s.ring r with slots := (t.ring r).slots, faults := (t.ring r).faults }

/-- A reply to an asker has left its endpoint, or waits there (R305, R321). -/
def Replied (t : State) (r : Fin 8) (a : Asker) (status : Nat) : Prop :=
  ∃ m ∈ (t.ep (epIx r a.endpoint)).sent ++ (t.ep (epIx r a.endpoint)).queue, m.reply = true ∧ m.type = a.type ∧
    m.msgId = a.msgId ∧ m.gen = a.gen ∧ m.id = a.id ∧ m.status = status

/-- A register of one word that a write stores as the table says, without another effect or check (R7, R8, R55). -/
def plainReg (g : Reg) : Prop :=
  pairOf g = none ∧ ∀ (s : State) (who : Who) (v : Word), s.performWrite who g v = (s.storePair g (settled g v), stOk)

/-- A packet of a kind that takes a SEQ arrives at a port that receives, in the form of R328, without a CRC error and in
its turn (R327, R328, R330). -/
def Arrives (s : State) (p : Fin 4) (kind : Nat) (q : Packet) : Prop :=
  s.portHears p = true ∧ packetOk kind q = true ∧ q.seq = (s.port p).expect

/-- It arrives at a port that carries more than HELLO (R333). -/
def Traffic (s : State) (p : Fin 4) (kind : Nat) (q : Packet) : Prop := Arrives s p kind q ∧ s.carries p = true

/-- Every island is in reset: registers, cores, rings, midway, DRAM and counters as after reset; the flash's contents and the
security store are kept, and so is the queue of commands (R9, R25, R147, R471). -/
def InReset (s t : State) : Prop :=
  t.boot.phase = .inReset ∧ t.regs = regsReset ∧ t.cores = State.reset.cores ∧ t.rings = State.reset.rings ∧ t.mwy = [] ∧
    t.dram.data = [] ∧ t.cycles = State.reset.cycles ∧ t.eps = State.reset.eps ∧ t.flash.main = s.flash.main ∧
    t.flash.tags = s.flash.tags ∧ t.sec.store = s.sec.store ∧ t.pending = s.pending

/-- A command lets the device start: the deassertion of a reset, the return of a rail, the tenth good window of the REFCLK
check, WAKE_N in Deep standby, RESTART; `s0` is the state that starts (R359, R465, R470, R471, R474). -/
def Starting (s : State) (c : Instr) (s0 : State) : Prop :=
  (c = .poresetDeassert ∧ s.pins.poreset = true ∧ s0 = { s with pins := { s.pins with poreset := false } }) ∨
    (c = .sysresetDeassert ∧ s.pins.sysreset = true ∧ s0 = { s with pins := { s.pins with sysreset := false } }) ∨
    (∃ rail, c = .railDetectClear rail ∧ s.pins.rails.getLsbD (railBit rail) = true ∧ s.boot.phase ≠ .deepStandby ∧
      s0 = { s with pins := { s.pins with rails := s.pins.rails &&& ~~~((1#5).shiftLeft (railBit rail)) } }) ∨
    (∃ n, c = .refclkWindow n ∧ s.countsEdges = true ∧ s.pins.refReset = true ∧ badWindow n = false ∧ 9 ≤ s.pins.refGood ∧
      s0 = { s with pins := { s.pins with refReset := false, refGood := 0 } }) ∨
    (c = .wakeNAssert ∧ s.boot.phase = .deepStandby ∧ s0 = s.coldReset) ∨
    (∃ who, c = .restart who ∧ s.mayManage who = true ∧ s0 = s.restartDevice)

/-- A write of the flash's queue after which nothing restarts the device and the ROM does not go on (R350, R357, R362). -/
def endsThere : FlashJob → Bool
  | .header _ _ .plain => true
  | .header _ _ .confirmed => true
  | .header _ _ .installed => true
  | .header _ _ _ => false
  | .append _ _ _ .reset => false
  | .append _ _ _ .restart => false
  | _ => true

/-- No core but `c` differs. -/
def OnlyCore (c : Fin 16) (s t : State) : Prop := ∀ d : Fin 16, d ≠ c → t.core d = s.core d

/-- No ring but `r` differs. -/
def OnlyRing (r : Fin 8) (s t : State) : Prop := ∀ q : Fin 8, q ≠ r → t.ring q = s.ring q

/-- Every register outside a list reads as before. -/
def KeepsRegs (l : List Reg) (s t : State) : Prop := ∀ q : Reg, q ∉ l → t.reg q = s.reg q

/-- Nothing but registers of a list differs. -/
def OnlyRegs (l : List Reg) (s t : State) : Prop := t = { s with regs := t.regs } ∧ KeepsRegs l s t

/-- A counter of 32 bits one higher; it saturates (R8). -/
def plusOne (n : Nat) : Nat := min (n + 1) (2 ^ 32 - 1)

/-- Cores, rings, midway and DRAM are as before. -/
def SameCompute (s t : State) : Prop := t.cores = s.cores ∧ t.rings = s.rings ∧ t.mwy = s.mwy ∧ t.dram = s.dram

/-- Every byte of core memory, midway and DRAM is as before. -/
def SameMemory (s t : State) : Prop :=
  (∀ (c : Fin 16) (a : Nat), smGet 0 (t.core c).mem a = smGet 0 (s.core c).mem a) ∧
    (∀ a : Nat, smGet 0 t.mwy a = smGet 0 s.mwy a) ∧ ∀ a : Nat, smGet 0 t.dram.data a = smGet 0 s.dram.data a

/-- Every sparse map of a core is in canonical form. -/
def Core.canonical (k : Core) : Bool :=
  smWf 0 k.opnd && smWf 0 k.opndBad && smWf 0 k.acc && smWf 0 k.accBad && smWf 0 k.vregs && smWf 0 k.mem && smWf 0 k.memBad &&
    smWf 0 k.memFlips

/-- Every memory of the state is in canonical form: the control space, the cores, the midway, DRAM, the flash, the
security store, the active ISP parameters and the message identifiers. -/
def State.canonical (s : State) : Bool :=
  smWf 0 s.regs && (s.cores.toList.all Core.canonical) && smWf 0 s.mwy && smWf 0 s.mwyBad && smWf 0 s.mwyFlips && smWf 0 s.dram.data &&
    smWf 0xFF s.dram.unitOwner && smWf 0 s.dram.tag && smWf 0 s.dram.flips && smWf 0xFF s.flash.main &&
    smWf (BitVec.allOnes 192) s.flash.tags && smWf 0 s.flash.flips && smWf 0 s.flash.reads && smWf 0 s.flash.erases && smWf 0 s.sec.store &&
    (s.streams.toList.all fun x => smWf 0 x.ispActive) && s.eps.toList.all fun x => smWf 0 x.last

/-- Engine queues, data queues, gathering buffers, crossings, the writes that a parked ring holds and the device's fault queue
hold no more than their depth, a gathering buffer's entries are of different lines, and a core's flag operations stand in order
(R24, R104, R108, R126, R154, R313, R447). -/
def QueuesFit (s : State) : Prop :=
  (∀ (c : Fin 16) (q : Fin 5), (s.queue c q).tags.length ≤ 64) ∧ (∀ (c : Fin 16) (n : Fin 8), (s.dq c n).length ≤ 32) ∧
    (∀ c : Fin 16, (s.core c).gather.length ≤ 8 ∧ ((s.core c).gather.map fun g => g.line).Nodup ∧ FlagsInOrder (s.core c)) ∧
    (∀ x : Crossing, (s.crossOf x).length ≤ 8) ∧
    (∀ r : Fin 8, (s.ring r).held.length ≤ 256) ∧ s.devFaults.length ≤ 64

/-- Memory in canonical form. -/
abbrev Memory.wf (s : State) : Prop := s.canonical = true

/-- The commands whose operands can fail to be a form of their class for what the state says of the core: a completion or
a RELEASE that names a data queue in a ring that has none (R109; log 10). -/
def stateForm (c : Instr) (s : State) : Bool :=
  match c with
  | .vstore e _ _ _ _ _ d => !s.badCompletion e.core d
  | .dma e d => !s.badCompletion e.core d.done
  | .unfold e _ _ _ _ _ _ _ d => !s.badCompletion e.core d
  | .pool e _ _ _ _ _ d => !s.badCompletion e.core d
  | .resize e _ _ _ _ _ _ d => !s.badCompletion e.core d
  | .crop e _ _ _ _ _ _ d => !s.badCompletion e.core d
  | .warp e _ _ _ _ _ _ d => !s.badCompletion e.core d
  | .stride e _ _ _ _ _ d => !s.badCompletion e.core d
  | .transpose e _ _ _ _ d => !s.badCompletion e.core d
  | .fill e _ _ _ d => !s.badCompletion e.core d
  | .copy e _ _ _ d => !s.badCompletion e.core d
  | .release e _ _ _ (.dq _) => !s.noDataQueues e.core
  | _ => true

/-- The command that can name a place of which the spec says that it does not exist, and whether it exists (R370). -/
def placeExists (c : Instr) (s : State) : Bool :=
  match c with
  | .flashOpDone op => decide (opBlock op < s.flashBlocks)
  | _ => true

end Sys2Proof.Machine
end

