-- ==== Sys2Proof/WellFormed.lean ====
section
/-! DEFINITION. Well-formed commands: the operands are a form of the command's class (Machine/Forms.lean). -/

namespace Sys2Proof

/-- A command exists as the manual describes its class. Every meaning refuses the others as ill-formed. -/
abbrev Instr.WellFormed (i : Instr) : Prop := Sys2Proof.Machine.formOk i = true

end Sys2Proof
end

