-- ==== Sys2Proof/Certificates/Slice0/Obligations.lean ====
section
/-! DEFINITION. The statements of slice 0. -/

open Sys2Proof Sys2Proof.Machine

/-! ## The queue of commands, and forms -/

/-- A step takes the command at the front of the queue and runs it with the queue's rest. -/
def Obligations.StepRunsTheFrontCommand : Prop :=
  ∀ (c : Instr) (rest : List Instr) (s : State), s.pending = c :: rest → step s = exec c { s with pending := rest }

/-- A step with nothing in the queue is an idle tick: every island whose clock runs counts one cycle, wrapping, every
other keeps its count (R25), and no core, ring, midway byte, DRAM byte or flash byte changes. What is counted at a
tick is the model's choice (log 1). -/
def Obligations.IdleStepCountsRunningIslands : Prop :=
  ∀ s : State, s.pending = [] → ∃ t, step s = .next t ∧
    (∀ i : Fin 43, t.count i = if s.clockRuns i then s.count i + 1 else s.count i) ∧
    t.cores = s.cores ∧ t.rings = s.rings ∧ t.mwy = s.mwy ∧ t.dram = s.dram ∧ t.flash = s.flash ∧ t.pending = []

/-- A command of which the operands are a form of its class, at a place that exists, always answers a next state: no
data, mode or register value ends a run. -/
def Obligations.WellFormedCommandsAnswer : Prop :=
  ∀ (c : Instr) (s : State), c.WellFormed → stateForm c s = true → placeExists c s = true → ∃ t, exec c s = .next t

/-- A command that is no form of its class is refused as ill-formed, whatever the state (log 10); so is a completion
or a RELEASE that names a data queue in a ring that has none (R109). FLASH_OP_DONE of a block beyond the flash
devices, of which the spec says that it does not exist, ends in a fault (R370). No other command stops. -/
def Obligations.CommandsWithoutAFormOrAPlaceStop : Prop :=
  (∀ (c : Instr) (s : State), ¬ c.WellFormed → ∃ m, exec c s = .refused (.illFormed m)) ∧
  (∀ (c : Instr) (s : State), stateForm c s = false → ∃ m, exec c s = .refused (.illFormed m)) ∧
  (∀ (s : State) (op : FlashOp), s.flashBlocks ≤ opBlock op → exec (.flashOpDone op) s = .fault .noSuchAddress) ∧
  ∀ (c : Instr) (s : State) (f : Fault), exec c s = .fault f → ∃ op, c = .flashOpDone op ∧ s.flashBlocks ≤ opBlock op

/-! ## Queues and sequencers -/

/-- A command that meets the conditions of Ready stands at the head of its queue and may issue: an invocation's first
command in the core's present slot, a later one no earlier than its gap after the end of the last command's occupancy
(R104, R105). What an issue changes: the command leaves its queue, which occupies `occ` slots from slot `u` on; on the
execute side the core's slot is `u`, and the operations on its flags that are due by then have reached them. No other
queue, no data queue, operand byte, mark, receive entry, byte of core memory or midway, ring flag or crossing changes,
and no other core but for its place in a trace (R104, R105, R127). -/
def Obligations.HeadOfQueueIssues : Prop :=
  (∀ (s : State) (c : Fin 16) (q : Fin 5) (mask : BitVec 16) (tag : Tag) (gap : Byte) (r : Fin 8) (u : Nat),
    Ready s c q mask tag gap r u → s.front c q tag gap.toNat mask = .ready r u) ∧
  (∀ (s : State) (c : Fin 16) (q : Fin 5) (tag : Tag) (gap occ prog u : Nat),
    let t := s.issueAt c q tag gap occ prog u
    (t.queue c q).free = u + occ ∧ (t.queue c q).wait = none ∧ (t.queue c q).fresh = false ∧
    (t.queue c q).prog = (s.queue c q).prog + gap + prog ∧
    (∀ rest, (s.queue c q).tags = tag :: rest → (t.queue c q).tags = rest) ∧
    (∀ p : Fin 5, p ≠ q → t.queue c p = s.queue c p) ∧
    (isExecQueue q = true → (t.core c).slot = u ∧ (t.core c).flags = (flagsBy u (s.core c)).1) ∧
    (isExecQueue q = false → (t.core c).slot = (s.core c).slot ∧ (t.core c).flags = (s.core c).flags) ∧
    (t.core c).mem = (s.core c).mem ∧ (t.core c).memBad = (s.core c).memBad ∧ (t.core c).gather = (s.core c).gather ∧
    (t.core c).dqs = (s.core c).dqs ∧ (t.core c).opnd = (s.core c).opnd ∧
    (t.core c).wValid = (s.core c).wValid ∧ (t.core c).aValid = (s.core c).aValid ∧ (t.core c).dsValid = (s.core c).dsValid ∧
    (t.core c).rx = (s.core c).rx ∧ (t.core c).latchValid = (s.core c).latchValid ∧
    (∀ d : Fin 16, d ≠ c → (t.core d).mem = (s.core d).mem ∧ (t.core d).flags = (s.core d).flags ∧
      (t.core d).queues = (s.core d).queues) ∧
    (∀ g : Fin 8, (t.ring g).flags = (s.ring g).flags ∧ (t.ring g).waiting = (s.ring g).waiting ∧
      (t.ring g).current = (s.ring g).current) ∧
    t.mwy = s.mwy ∧ t.mwyBad = s.mwyBad ∧ SameCrossings s t ∧ t.flash.main = s.flash.main ∧ t.power = s.power)

/-- LOOP with a count in the command enters its body, unless the count is 0 or four loops run; a LOOP of the
ringmaster takes its count from the word of the parameter block that it names, one of a core's sequencer from the
block's copy in core memory. ENDLOOP repeats the innermost loop or ends it, and with none running does nothing;
nothing else but the sequencer's wait changes (R111, R114, R482). SKIP of a core's sequencer that names a core flag,
and SKIP whose test has come back with the flag's value: where the flag is as named, the loops are those after the
span, otherwise the stream goes on with its loops as they were (R111, R125, R482). A SKIP of a ring flag whose test
has not gone out sends it towards the concourse and waits, its loops unchanged (R127). -/
def Obligations.LoopsNestAndSkipPasses : Prop :=
  (∀ (s : State) (u : SeqUnit) (tag : Tag) (r : Fin 8), isStream u = true → Takes s u tag r →
    (∀ n : Nat, n ≤ 16777215 → ∃ t, exec (.loop u tag (.imm n)) s = .next t ∧ SameMemory s t ∧ t.regs = s.regs ∧
      (t.seq u).loops = (if n = 0 ∨ 4 ≤ (s.seq u).loops.length then (s.seq u).loops else n :: (s.seq u).loops)) ∧
    (∀ off : Nat, off + 4 ≤ 256 → u = .ringmaster r →
      let n := leAt ((s.ring r).current.map fun i => i.params).toList.flatten off 3
      ∃ t, exec (.loop u tag (.param off)) s = .next t ∧ SameMemory s t ∧ t.regs = s.regs ∧
      (t.seq u).loops = (if n = 0 ∨ 4 ≤ (s.seq u).loops.length then (s.seq u).loops else n :: (s.seq u).loops)) ∧
    (∀ (off : Nat) (c : Fin 16) (s1 : State) (d : List PByte), off + 4 ≤ 256 → (u = .access c ∨ u = .execute c) →
      s.cmRead tag c off 4 = (s1, d) → anyPoison d = false →
      exec (.loop u tag (.param off)) s = .next ((s1.seqGo u).onSeq u (enterLoop (leVal ((rawBytes d).take 3))))) ∧
    ∃ t, exec (.endloop u tag) s = .next t ∧ SameMemory s t ∧ t.regs = s.regs ∧ (t.seq u).ended = (s.seq u).ended ∧
      ((s.seq u).loops = [] → (t.seq u).loops = []) ∧
      (∀ n rest, (s.seq u).loops = n :: rest → 2 ≤ n → (t.seq u).loops = (n - 1) :: rest) ∧
      (∀ n rest, (s.seq u).loops = n :: rest → n < 2 → (t.seq u).loops = rest)) ∧
  (∀ (s : State) (u : SeqUnit) (tag : Tag) (r : Fin 8) (flag : FlagRef) (whenSet : Bool) (span : List SpanItem),
    Instr.WellFormed (.skip u tag flag whenSet span) → Takes s u tag r →
    (∀ (c : Fin 16) (n : Fin 64) (on : BitVec 16), (u = .access c ∨ u = .execute c) → flag = .core n on →
      ∃ t, exec (.skip u tag flag whenSet span) s = .next t ∧ SameMemory s t ∧ t.regs = s.regs ∧ (t.seq u).wait = none ∧
        (t.seq u).loops = (if (flagsAfter (s.core c)).1.getLsbD n = whenSet then skipSpan span 0 (s.seq u).loops
          else (s.seq u).loops)) ∧
    (∀ v : Bool, ((∃ n, flag = .ring n) ∨ u = .ringmaster r) → s.reaches u r flag = true → s.probeOf u = .answered v →
      ∃ t, exec (.skip u tag flag whenSet span) s = .next t ∧ SameMemory s t ∧ t.probeOf u = .idle ∧ (t.seq u).wait = none ∧
        (t.seq u).loops = (if v = whenSet then skipSpan span 0 (s.seq u).loops else (s.seq u).loops)) ∧
    ∀ n : Fin 256, flag = .ring n → s.probeOf u = .idle → s.crossFull (crossFrom u) = false →
      ∃ t, exec (.skip u tag flag whenSet span) s = .next t ∧ SameMemory s t ∧ t.regs = s.regs ∧ t.probeOf u = .asked ∧
        Sends s t (crossFrom u) (.test r u n .look) ∧ (t.seq u).loops = (s.seq u).loops ∧
        ((t.seq u).wait.map fun w => w.tag) = some tag)

/-- PUSH puts its entry behind the others of a data queue with fewer than 32 entries, and with 32 the sequencer waits
and the queue is as before; POP takes the entry at the head, which is the one it expects or any, and waits on an empty
queue (R108). A POP that finds another entry than it expects takes it and sets CORE_SEQ_STATUS.TOKEN_MISMATCH (R108). -/
def Obligations.DataQueuesAreFirstInFirstOut : Prop :=
  (∀ (s : State) (u : SeqUnit) (tag : Tag) (r : Fin 8) (dq : Fin 8), Takes s u tag r →
    (∀ entry, pushesInto u dq = true → (s.dq (s.unitCore u) dq).length < 32 →
      ∃ t, exec (.push u tag dq entry) s = .next t ∧ SameMemory s t ∧ t.regs = s.regs ∧ (t.seq u).wait = none ∧
        t.dq (s.unitCore u) dq = s.dq (s.unitCore u) dq ++ [entry] ∧
        ∀ n : Fin 8, n ≠ dq → t.dq (s.unitCore u) n = s.dq (s.unitCore u) n) ∧
    (∀ entry, pushesInto u dq = true → 32 ≤ (s.dq (s.unitCore u) dq).length →
      ∃ t, exec (.push u tag dq entry) s = .next t ∧ t.dq (s.unitCore u) dq = s.dq (s.unitCore u) dq ∧
        (t.seq u).wait = some ⟨tag, .dataQueue, dq.val, 0xFF, 0, false⟩) ∧
    (∀ expect found rest, popsFrom u dq = true → s.dq (s.unitCore u) dq = found :: rest →
      (expect = none ∨ expect = some found) →
      ∃ t, exec (.pop u tag dq expect) s = .next t ∧ SameMemory s t ∧ t.regs = s.regs ∧ (t.seq u).wait = none ∧
        t.dq (s.unitCore u) dq = rest ∧ ∀ n : Fin 8, n ≠ dq → t.dq (s.unitCore u) n = s.dq (s.unitCore u) n) ∧
    ∀ expect, popsFrom u dq = true → s.dq (s.unitCore u) dq = [] →
      ∃ t, exec (.pop u tag dq expect) s = .next t ∧ t.dq (s.unitCore u) dq = [] ∧
        (t.seq u).wait = some ⟨tag, .dataQueue, dq.val, 0xFF, 0, false⟩) ∧
  (∀ (s : State) (u : SeqUnit) (tag : Tag) (r : Fin 8) (dq : Fin 8) (want found : DqEntry) (rest : List DqEntry),
    Takes s u tag r → popsFrom u dq = true → s.dq (s.unitCore u) dq = found :: rest → want ≠ found →
    ∃ t, exec (.pop u tag dq (some want)) s = .next t ∧ t.dq (s.unitCore u) dq = rest ∧
      t.fld (.coreSeqStatus (s.unitCore u)) F.coreSeqStatus_TOKEN_MISMATCH = 1 ∧
      t.mwy = s.mwy ∧ (t.core (s.unitCore u)).mem = (s.core (s.unitCore u)).mem)

/-- WAIT of a queue on a core flag that it finds set, and that no unit before it waits to consume, issues, and with
CONSUME clears that flag and no other; on a core flag that it finds clear the queue waits and no flag changes (R105,
R111, R125, R126, R129). WAIT of a core's sequencer on a core flag does the same. WAIT on a flag beyond a crossing
first sends its test there, and waits; once the answer has come, a queue's WAIT issues, and a sequencer's or
ringmaster's passes (R125, R127). -/
def Obligations.WaitPassesOnASetFlag : Prop :=
  (∀ (s : State) (c : Fin 16) (q : Fin 5) (mask : BitVec 16) (tag : Tag) (gap : Byte) (consume : Bool) (r : Fin 8) (u : Nat),
    Ready s c q mask tag gap r u →
    (∀ (n : Fin 64) (on : BitVec 16), (queueFlags q u (s.core c)).getLsbD n = true →
      (consume = true → outranked (s.core c) q.val n = false) →
      ∃ t, exec (.wait (.queue c q mask) tag gap (.core n on) consume) s = .next t ∧ (t.queue c q).wait = none ∧
        (t.queue c q).free = u + 1 ∧
        (isExecQueue q = true → (t.core c).flags = (if consume then queueFlags q u (s.core c) &&& ~~~ (1#64).shiftLeft n
          else queueFlags q u (s.core c))) ∧
        (isExecQueue q = false → (flagsAfter (t.core c)).1 = (if consume then queueFlags q u (s.core c) &&&
          ~~~ (1#64).shiftLeft n else queueFlags q u (s.core c))) ∧ (t.core c).mem = (s.core c).mem ∧ t.mwy = s.mwy) ∧
    (∀ (n : Fin 64) (on : BitVec 16), (queueFlags q u (s.core c)).getLsbD n = false → FlagsInOrder (s.core c) →
      ∃ t, exec (.wait (.queue c q mask) tag gap (.core n on) consume) s = .next t ∧
        (t.queue c q).wait = some ⟨tag, .flag, n.val, q.val, 0, consume⟩ ∧
        (flagsAfter (t.core c)).1 = (flagsAfter (s.core c)).1 ∧ t.mwy = s.mwy) ∧
    (∀ n : Fin 256, (s.queue c q).probe = .idle → s.crossFull (.coreToConcourse c) = false →
      ∃ t, exec (.wait (.queue c q mask) tag gap (.ring n) consume) s = .next t ∧
        (t.queue c q).wait = some ⟨tag, .flag, 256 + n.val, q.val, 0, consume⟩ ∧ (t.queue c q).probe = .asked ∧
        Sends s t (.coreToConcourse c) (.test r (.queue c q mask) n (if consume then .consume else .wait)) ∧
        (t.ring r).flags = (s.ring r).flags) ∧
    ∀ (n : Fin 256) (v : Bool), (s.queue c q).probe = .answered v →
      ∃ t, exec (.wait (.queue c q mask) tag gap (.ring n) consume) s = .next t ∧ (t.queue c q).wait = none ∧
        (t.queue c q).free = u + 1 ∧ (t.queue c q).probe = .idle ∧ (t.ring r).flags = (s.ring r).flags ∧ t.mwy = s.mwy) ∧
  ∀ (s : State) (u : SeqUnit) (tag : Tag) (gap : Byte) (consume : Bool) (r : Fin 8), Takes s u tag r →
    (∀ (c : Fin 16) (n : Fin 64) (on : BitVec 16), (u = .access c ∨ u = .execute c) →
      (flagsAfter (s.core c)).1.getLsbD n = true → s.seqYields u (.core n on) consume = false →
      ∃ t, exec (.wait u tag gap (.core n on) consume) s = .next t ∧ (t.seq u).wait = none ∧
        (flagsAfter (t.core c)).1 = (if consume then (flagsAfter (s.core c)).1 &&& ~~~ (1#64).shiftLeft n
          else (flagsAfter (s.core c)).1) ∧ t.mwy = s.mwy) ∧
    (∀ flag : FlagRef, Instr.WellFormed (.wait u tag gap flag consume) → ((∃ n, flag = .ring n) ∨ u = .ringmaster r) →
      s.reaches u r flag = true → s.probeOf u = .answered true →
      ∃ t, exec (.wait u tag gap flag consume) s = .next t ∧ (t.seq u).wait = none ∧ t.probeOf u = .idle ∧
        (t.ring r).flags = (s.ring r).flags ∧ t.mwy = s.mwy) ∧
    ∀ n : Fin 256, s.probeOf u = .idle → s.crossFull (crossFrom u) = false →
      ∃ t, exec (.wait u tag gap (.ring n) consume) s = .next t ∧
        (t.seq u).wait = some ⟨tag, .flag, 256 + n.val, 0xFF, 0, consume⟩ ∧ t.probeOf u = .asked ∧
        Sends s t (crossFrom u) (.test r u n (if consume then .consume else .wait)) ∧ (t.ring r).flags = (s.ring r).flags

/-- SET and CLEAR of a core flag by a queue reach that flag alone, in the core cycle after the issue: in the issue
slot the flags are what has reached them by then, one slot later the flag is set or clear; a set of a flag that is set
is an overrun, and as a set that is one reaches the flags FLAG_OVERRUN is 1 (R111, R124, R126, R127). Of a ring flag
they put the operation into the core's crossing, where it has a place; a ringmaster's of a ring flag, or of a core
flag of cores of its ring, go into the ringmaster's crossing (R125, R127). -/
def Obligations.FlagsAreSetAndCleared : Prop :=
  (∀ (s : State) (c : Fin 16) (q : Fin 5) (mask : BitVec 16) (tag : Tag) (gap : Byte) (r : Fin 8) (u : Nat),
    Ready s c q mask tag gap r u →
    (∀ (n : Fin 64) (on : BitVec 16), (∃ t, exec (.set (.queue c q mask) tag gap (.core n on)) s = .next t ∧
        FlagSent s t c q u n true ∧ (t.core c).mem = (s.core c).mem ∧ t.mwy = s.mwy) ∧
      ∃ t, exec (.clear (.queue c q mask) tag gap (.core n on)) s = .next t ∧
        FlagSent s t c q u n false ∧ (t.core c).mem = (s.core c).mem ∧ t.mwy = s.mwy) ∧
    ∀ n : Fin 256, s.crossFull (.coreToConcourse c) = false →
      (∃ t, exec (.set (.queue c q mask) tag gap (.ring n)) s = .next t ∧
        Sends s t (.coreToConcourse c) (.setFlag r n) ∧ (t.ring r).flags = (s.ring r).flags) ∧
      ∃ t, exec (.clear (.queue c q mask) tag gap (.ring n)) s = .next t ∧
        Sends s t (.coreToConcourse c) (.clearFlag r n) ∧ (t.ring r).flags = (s.ring r).flags) ∧
  (∀ (s : State) (r : Fin 8) (tag : Tag) (gap : Byte) (flag : FlagRef), Takes s (.ringmaster r) tag r →
    s.reaches (.ringmaster r) r flag = true → s.crossFull (.ringmasterToConcourse r) = false →
      (∃ t, exec (.set (.ringmaster r) tag gap flag) s = .next t ∧ t.cores = s.cores ∧ SameMemory s t ∧
        (∀ n, flag = .ring n → Sends s t (.ringmasterToConcourse r) (.setFlag r n)) ∧
        ∀ n on, flag = .core n on → Sends s t (.ringmasterToConcourse r) (.coreFlag r on n true)) ∧
      ∃ t, exec (.clear (.ringmaster r) tag gap flag) s = .next t ∧ t.cores = s.cores ∧ SameMemory s t ∧
        (∀ n, flag = .ring n → Sends s t (.ringmasterToConcourse r) (.clearFlag r n)) ∧
        ∀ n on, flag = .core n on → Sends s t (.ringmasterToConcourse r) (.coreFlag r on n false)) ∧
  (∀ (s t : State) (c : Fin 16) (q : Fin 5) (u : Nat) (n : Fin 64) (set : Bool), FlagSent s t c q u n set →
    (isExecQueue q = true → (∀ o ∈ (s.core c).flagPend, o.slot ≤ u) → (t.core c).slot = u →
      (flagsBy u (t.core c)).1 = (flagsBy u (s.core c)).1 ∧
      (flagsBy (u + 1) (t.core c)).1 = (if set then (flagsBy u (s.core c)).1 ||| (1#64).shiftLeft n
        else (flagsBy u (s.core c)).1 &&& ~~~ (1#64).shiftLeft n) ∧
      (flagsBy (u + 1) (t.core c)).2 = (set && (flagsBy u (s.core c)).1.getLsbD n)) ∧
    (isExecQueue q = false →
      (flagsAfter (t.core c)).1 = (if set then (flagsAfter (s.core c)).1 ||| (1#64).shiftLeft n
        else (flagsAfter (s.core c)).1 &&& ~~~ (1#64).shiftLeft n) ∧
      (flagsAfter (t.core c)).2 = (set && (flagsAfter (s.core c)).1.getLsbD n))) ∧
  ∀ (s : State) (c : Fin 16) (u : Nat), ((s.flagsTo c u).core c).flags = (flagsBy u (s.core c)).1 ∧
    ((flagsBy u (s.core c)).2 = true → (s.flagsTo c u).fld (.coreSeqStatus c) F.coreSeqStatus_FLAG_OVERRUN = 1)

/-- IDLE occupies the slots that it names and has no other effect; MARK writes one trace record; END ends the queue's
part of the invocation; HINT puts its announcement in force on the core and sends it towards the booth through the
core's crossing, where that has a place, and a lead below 20,000 counts as late; RELEASE clears its mark and no other,
and the token or the flag follows (R23, R104, R108, R111, R114, R134, R135, R451). END of a sequencer or of a
ringmaster ends its stream: it takes no further command of the invocation (R107, R114). -/
def Obligations.QueueCommandsOfTheStreams : Prop :=
  (∀ (s : State) (e : Eng) (r : Fin 8) (u : Nat),
    (∀ (vector : Bool) (n : Nat), 1 ≤ n → n ≤ 65536 → Ready s e.core (execQueue vector) e.mask e.tag e.gap r u →
      exec (.idle e vector n) s = .next (s.issueAt e.core (execQueue vector) e.tag e.gap.toNat n n u)) ∧
    (∀ (q : Fin 5) (mask : BitVec 16) (operand : Word), Ready s e.core q mask e.tag e.gap r u →
      exec (.mark (.queue e.core q mask) e.tag e.gap operand) s =
        .next ((s.issueAt e.core q e.tag e.gap.toNat 1 1 u).trace e.core evMark e.tag operand.toNat)) ∧
    (∀ (q : Fin 5) (mask : BitVec 16), Ready s e.core q mask e.tag e.gap r u →
      ∃ t, exec (.endStream (.queue e.core q mask) e.tag e.gap) s = .next t ∧
      (t.queue e.core q).ended = true ∧ (t.core e.core).mem = (s.core e.core).mem ∧ t.mwy = s.mwy) ∧
    (∀ (cls : Fin 8) (lead duration : Nat), lead ≤ 1048575 → 1 ≤ duration → duration ≤ 65535 →
      Ready s e.core qArray e.mask e.tag e.gap r u → s.crossFull (.coreToConcourse e.core) = false →
      ∃ t, exec (.hint e cls lead duration) s = .next t ∧
      (t.core e.core).hint = (if cls.val = 0 then none else some ⟨cls.val, u, u + lead + 1024 * duration⟩) ∧
      Sends s t (.coreToConcourse e.core) (.hint r e.core cls.val (decide (lead < 20000))) ∧
      (lead < 20000 → t.fld (.ringHint r) F.ringHint_LATE = min (s.fld (.ringHint r) F.ringHint_LATE + 1) (2 ^ 16 - 1))) ∧
    ∀ (vector : Bool) (buf : Buf) (region : Fin 16), markExists buf region.val = true →
      Ready s e.core (execQueue vector) e.mask e.tag e.gap r u →
      (exec (.release e vector buf region .none) s =
        .next ((s.issueAt e.core (execQueue vector) e.tag e.gap.toNat 1 1 u).onCore e.core (markPut buf region.val false))) ∧
      (∀ n : Fin 8, s.noDataQueues e.core = false → (s.dq e.core n).length < 32 →
        ∃ t, exec (.release e vector buf region (.dq n)) s = .next t ∧
          t.dq e.core n = s.dq e.core n ++ [.release (regionCode buf region.val)] ∧
          SameMarks (markPut buf region.val false (s.core e.core)) (t.core e.core)) ∧
      (∀ (n : Fin 64) (on : BitVec 16), ∃ t, exec (.release e vector buf region (.flag (.core n on))) s = .next t ∧
        FlagSent s t e.core (execQueue vector) u n true ∧
        SameMarks (markPut buf region.val false (s.core e.core)) (t.core e.core)) ∧
      ∀ n : Fin 256, s.crossFull (.coreToConcourse e.core) = false →
        ∃ t, exec (.release e vector buf region (.flag (.ring n))) s = .next t ∧
          Sends s t (.coreToConcourse e.core) (.setFlag r n) ∧
          SameMarks (markPut buf region.val false (s.core e.core)) (t.core e.core)) ∧
  (∀ (s : State) (u : SeqUnit) (tag tag' : Tag) (gap : Byte) (r : Fin 8), Takes s u tag r →
    ∃ t, exec (.endStream u tag gap) s = .next t ∧ (t.seq u).ended = true ∧ SameMemory s t ∧ t.regs = s.regs ∧
      t.seqTakes u tag' = none)

/-! ## The array, the vector engine, the quantiser -/

/-- A STEP whose operands exist, that passes its gate and the audit, issues: what its 1,024 units compute becomes the
set's value from slot `u + 14`, or `u + 17` with a 16-bit operand, poisoned where a byte or an accumulator that it
reads has a parity error or, without OVERWRITE, where the set is poisoned; it occupies 1 slot, or 4. Core memory,
operands, marks, data queues and receive entries are as before, and the core flags are those of the issue slot (R58,
R60, R62, R65, R69, R78, R79). The units of logical columns from the core's width on drain +0.0, and a STEP leaves
+0.0 there (R75). -/
def Obligations.StepWritesItsSet : Prop :=
  (∀ (s : State) (e : Eng) (w a : ArrOperand) (set : Fin 16) (overwrite : Bool) (r : Fin 8) (u : Nat),
    operandExists w = true → operandExists a = true → Ready s e.core qArray e.mask e.tag e.gap r u →
    arrayGate (s.core e.core) u (some (lineRegion a.line)) (some (lineRegion w.line)) false none = none →
    Passes s r (arrayAudit s e (if overwrite then [] else [set.val]) []) →
    let k := (s.issueAt e.core qArray e.tag e.gap.toNat (stepSlots w a) (stepSlots w a) u).core e.core
    let values := stepValues k (s.width e.core) w a (if overwrite then none else some (readSet k u set.val))
    ∃ t, exec (.step e w a set overwrite none) s = .next t ∧
      (t.core e.core).accPend = k.accPend ++
        [⟨set.val, u + (if is16 w.fmt || is16 a.fmt then 17 else 14), values.map fun v => v.1,
          operandBad k (s.width e.core) w a || (!overwrite && setParity k set.val) || (!overwrite && k.setPoison.getLsbD set),
          overwrite, values.any fun v => v.2.1, values.any fun v => v.2.2⟩] ∧
      (t.queue e.core qArray).free = u + (if is16 w.fmt || is16 a.fmt then 4 else 1) ∧
      (t.core e.core).mem = (s.core e.core).mem ∧ (t.core e.core).opnd = (s.core e.core).opnd ∧
      SameMarks (s.core e.core) (t.core e.core) ∧ (t.core e.core).flags = (flagsBy u (s.core e.core)).1 ∧
      (t.core e.core).dqs = (s.core e.core).dqs ∧ (t.core e.core).rx = (s.core e.core).rx ∧ t.mwy = s.mwy) ∧
  (∀ (k : Core) (width : Nat) (w a : ArrOperand) (old : Option (List Word)) (i : Nat), i < 1024 → width ≤ i % 32 →
    width ≤ 32 → (stepValues k width w a old)[i]? = some (0, false, false))

/-- A DRAIN, or a STEP with a drain order, that passes its gate and the audit reserves its receive entry, whose 4,096
bytes are the set's values, scaled row by row, readable from slot `u + 9`; the drain path is busy up to slot `u + 8`
(R62, R72, R73). -/
def Obligations.DrainFillsAReceiveEntry : Prop :=
  ∀ (s : State) (e : Eng) (d : DrainOrder) (r : Fin 8) (u : Nat),
    scaleExists (some d) = true → Ready s e.core qArray e.mask e.tag e.gap r u →
    (arrayGate (s.core e.core) u none none false (some d) = none → Passes s r (arrayAudit s e [d.set.val] []) →
      ∃ t poison, exec (.drain e d) s = .next t ∧
        (t.core e.core).rx[d.entry] = ⟨true, u + 9, 0, poison⟩ ∧ (t.core e.core).drainFree = u + 8 ∧
        smRead 0 (t.core e.core).opnd (opRx + 4096 * d.entry.val) 4096 =
          drainBytes ((s.issueAt e.core qArray e.tag e.gap.toNat 1 1 u).core e.core) (s.width e.core) u d ∧
        (t.core e.core).mem = (s.core e.core).mem ∧ (t.core e.core).flags = (flagsBy u (s.core e.core)).1 ∧
        t.mwy = s.mwy) ∧
    ∀ (w a : ArrOperand) (set : Fin 16) (overwrite : Bool), operandExists w = true → operandExists a = true →
      arrayGate (s.core e.core) u (some (lineRegion a.line)) (some (lineRegion w.line)) false (some d) = none →
      Passes s r (arrayAudit s e ((if overwrite then [] else [set.val]) ++ [d.set.val]) []) →
      ∃ t poison, exec (.step e w a set overwrite (some d)) s = .next t ∧
        (t.core e.core).rx[d.entry] = ⟨true, u + 9, 0, poison⟩ ∧ (t.core e.core).drainFree = u + 8 ∧
        smRead 0 (t.core e.core).opnd (opRx + 4096 * d.entry.val) 4096 =
          drainBytes ((s.issueAt e.core qArray e.tag e.gap.toNat (stepSlots w a) (stepSlots w a) u).core e.core)
            (s.width e.core) u d

/-- ACC_LOAD copies the load latch into a set, visible from slot `u + 4`, and the latch is no longer marked valid
(R62, R65, R69). VLATCH fills the load latch from eight registers and marks it valid from slot `u + 8`; it is held
while the latch is marked valid (R62, R106, R111). -/
def Obligations.LatchIsFilledAndCopied : Prop :=
  (∀ (s : State) (e : Eng) (set : Fin 16) (r : Fin 8) (u : Nat), Ready s e.core qArray e.mask e.tag e.gap r u →
    (s.core e.core).latchValid = true → (s.core e.core).latchFrom ≤ u → Passes s r (arrayAudit s e [] [set.val]) →
    ∃ t, exec (.accLoad e set) s = .next t ∧ (t.core e.core).latchValid = false ∧
      (t.core e.core).accPend = ((s.issueAt e.core qArray e.tag e.gap.toNat 1 1 u).core e.core).accPend ++
        [⟨set.val, u + 4, (chunksOf 4 1025 (smRead 0 (s.core e.core).opnd opLatch 4096)).map fun b =>
          BitVec.ofNat 32 (leVal b), anyPoison (opGet (s.core e.core) opLatch 4096), true, false, false⟩] ∧
      (t.core e.core).mem = (s.core e.core).mem ∧ (t.core e.core).flags = (flagsBy u (s.core e.core)).1 ∧
      t.mwy = s.mwy) ∧
  (∀ (s : State) (e : Eng) (k : Fin 64) (r : Fin 8) (u : Nat), k.val + 8 ≤ 64 →
    Ready s e.core qVector e.mask e.tag e.gap r u → Passes s r (vectorAudit s e (srcReads 8 (.reg k)) 0 0 0) →
    ((s.core e.core).latchValid = false → ∃ t, exec (.vlatch e k) s = .next t ∧
      (t.core e.core).latchValid = true ∧ (t.core e.core).latchFrom = u + 8 ∧
      (∀ j l : Nat, j < 8 → l < 128 → leAt (smRead 0 (t.core e.core).opnd opLatch 4096) (512 * j + 4 * l) 4 =
        ((readVec ((s.issueAt e.core qVector e.tag e.gap.toNat 8 8 u).core e.core) (u + j) (k.val + j)).getD l 0).toNat) ∧
      (∀ a : Nat, (a < opLatch ∨ opLatch + 4096 ≤ a) → smGet 0 (t.core e.core).opnd a = smGet 0 (s.core e.core).opnd a) ∧
      (t.core e.core).mem = (s.core e.core).mem ∧ t.mwy = s.mwy) ∧
    ((s.core e.core).latchValid = true → ∃ t, exec (.vlatch e k) s = .next t ∧
      (t.core e.core).latchValid = true ∧ (t.core e.core).opnd = (s.core e.core).opnd ∧
      (t.queue e.core qVector).wait = some ⟨e.tag, .gate, 0x30, qVector.val, 0, false⟩))

/-- VOP, VFMA, VCONV, VFUNC and VREDUCE that may issue and pass the audit write their destination registers with what
the lanes of their sources give, visible after L slots and the class's latency, and a NaN among the results of
arithmetic sets the engine's NaN flag (the flag's place and VOP select are log 116); core memory, operands, marks,
data queues and receive entries are as before, and the core flags are those of the issue slot (R111, R118, R119, R218,
R481). -/
def Obligations.VectorArithmeticWritesRegisters : Prop :=
  ∀ (s : State) (e : Eng) (dst : Fin 64) (L : Nat) (r : Fin 8) (u : Nat), Ready s e.core qVector e.mask e.tag e.gap r u →
    let k := (s.issueAt e.core qVector e.tag e.gap.toNat L L u).core e.core
    (∀ (op : VOpKind) (a b c : VSrc) (fmt : VFmt), Instr.WellFormed (.vop e op dst L a b c fmt) →
      Passes s r (vectorAudit s e (srcReads L a ++ srcReads L b ++ (if op = .select then srcReads L c else []))
        dst.val L (L + latVop - 1)) →
      let data := mapLanes k u L (laneOp op fmt) a b c
      ∃ t, exec (.vop e op dst L a b c fmt) s = .next t ∧ VectorWrites s t e u k ⟨dst.val, u + L + latVop - 1, data⟩ ∧
        (t.core e.core).vecNan = ((s.core e.core).vecNan || (op != .select && nanIn fmt data))) ∧
    (∀ (a b c : VSrc) (fmt : VFmt), Instr.WellFormed (.vfma e dst L a b c fmt) →
      Passes s r (vectorAudit s e (srcReads L a ++ srcReads L b ++ srcReads L c) dst.val L (L + latVfma - 1)) →
      let data := mapLanes k u L (laneFma fmt) a b c
      ∃ t, exec (.vfma e dst L a b c fmt) s = .next t ∧ VectorWrites s t e u k ⟨dst.val, u + L + latVfma - 1, data⟩ ∧
        (t.core e.core).vecNan = ((s.core e.core).vecNan || nanIn fmt data)) ∧
    (∀ (a : VSrc) (src out : VFmt), Instr.WellFormed (.vconv e dst L a src out) →
      Passes s r (vectorAudit s e (srcReads L a) dst.val L (L + latVconv - 1)) →
      let data := mapLanes k u L (fun x _ _ => laneConv src out x) a a a
      ∃ t, exec (.vconv e dst L a src out) s = .next t ∧ VectorWrites s t e u k ⟨dst.val, u + L + latVconv - 1, data⟩ ∧
        (t.core e.core).vecNan = ((s.core e.core).vecNan || nanIn out data)) ∧
    (∀ (fn : VFn) (a : VSrc) (fmt : VFmt), Instr.WellFormed (.vfunc e fn dst L a fmt) →
      Passes s r (vectorAudit s e (srcReads L a) dst.val L (L + latVfunc - 1)) →
      let data := mapLanes k u L (fun x _ _ => laneFunc fn fmt x) a a a
      ∃ t, exec (.vfunc e fn dst L a fmt) s = .next t ∧ VectorWrites s t e u k ⟨dst.val, u + L + latVfunc - 1, data⟩ ∧
        (t.core e.core).vecNan = ((s.core e.core).vecNan || nanIn fmt data)) ∧
    ∀ (op : VRed) (a : Fin 64) (segments : Bool) (fmt : VFmt), Instr.WellFormed (.vreduce e op dst L a segments fmt) →
      Passes s r (vectorAudit s e (srcReads L (.reg a)) dst.val 1 (L + latVreduce - 1)) →
      let data := [reduceLanes k u L op a segments fmt]
      ∃ t, exec (.vreduce e op dst L a segments fmt) s = .next t ∧
        VectorWrites s t e u k ⟨dst.val, u + L + latVreduce - 1, data⟩ ∧
        (t.core e.core).vecNan = ((s.core e.core).vecNan || nanIn fmt data)

/-- VLOAD from a receive entry that is held and readable, and clean, writes its registers from the entry's bytes, and
frees the entry where it releases it. VLOAD from core memory writes them from what a read of the range returns, and
where that is poisoned its ring faults and no register is written (R73, R79, R106, R156, R481). VSTORE to an aligned
range of core memory that exists puts its bytes line by line, flushes its lines where it names a completion, and then
completes; the midway and every other core are as before (R57, R108, R154, R155). -/
def Obligations.VectorRegistersAreLoadedAndStored : Prop :=
  (∀ (s : State) (e : Eng) (dst : Fin 64) (L : Nat) (r : Fin 8) (u : Nat), Ready s e.core qVector e.mask e.tag e.gap r u →
    (∀ (entry : Fin 4) (first : Nat) (release : Bool), Instr.WellFormed (.vload e dst L (.rx entry first release)) →
      Passes s r (vectorAudit s e [] dst.val L (L + latRx - 1)) →
      ((s.core e.core).rx[entry]).held = true → ((s.core e.core).rx[entry]).readable ≤ u →
      ((s.core e.core).rx[entry]).poisoned = false →
      ∃ t, exec (.vload e dst L (.rx entry first release)) s = .next t ∧
        (t.core e.core).vPend = ((s.issueAt e.core qVector e.tag e.gap.toNat L L u).core e.core).vPend ++
          [⟨dst.val, u + L + latRx - 1, chunksOf 128 (L + 1) (laneWords 4 (smRead 0 (s.core e.core).opnd
            (opRx + 4096 * entry.val + 512 * first) (512 * L)))⟩] ∧
        (release = true → (t.core e.core).rx[entry] = ⟨false, 0, u + L, false⟩) ∧
        (release = false → (t.core e.core).rx = (s.core e.core).rx) ∧
        (t.core e.core).mem = (s.core e.core).mem ∧ t.mwy = s.mwy) ∧
    ∀ (addr : Nat) (fmt : VFmt) (s1 : State) (d : List PByte), Instr.WellFormed (.vload e dst L (.cm addr fmt)) →
      Passes s r (vectorAudit s e [] dst.val L (L + latCm - 1)) → inCore addr (128 * L * laneBytes fmt) = true →
      (vectorIssued s e L dst.val L (L + latCm - 1) u).cmRead e.tag e.core addr (128 * L * laneBytes fmt) = (s1, d) →
      (anyPoison d = false → exec (.vload e dst L (.cm addr fmt)) s = .next (s1.vecWrite e.core dst.val (u + L + latCm - 1)
        (chunksOf 128 (L + 1) (laneWords (laneBytes fmt) (rawBytes d))))) ∧
      (anyPoison d = true → ∃ t, exec (.vload e dst L (.cm addr fmt)) s = .next t ∧
        (t.core e.core).vPend = (s1.core e.core).vPend ∧ (s1.mayFault r = true → t.ringState r = stFaulted))) ∧
  (∀ (s : State) (e : Eng) (src : Fin 64) (L addr : Nat) (fmt : VFmt) (mask : BitVec 128) (done : Completion) (r : Fin 8)
    (u : Nat), Instr.WellFormed (.vstore e src L addr fmt mask done) → s.badCompletion e.core done = false →
    Ready s e.core qVector e.mask e.tag e.gap r u → s.doneGate e.core done 0 u = none →
    Passes s r (vectorAudit s e (srcReads L (.reg src)) 0 0 0) → addr % 8 = 0 → inCore addr (128 * L * laneBytes fmt) = true →
    let put := (s.issueAt e.core qVector e.tag e.gap.toNat L L u).onMem e.tag e.core fun k =>
      storeLines k addr (storeBytes k u L src fmt mask)
    (completes done = false → exec (.vstore e src L addr fmt mask done) s = .next put) ∧
    (completes done = true → ∃ t, exec (.vstore e src L addr fmt mask done) s = .next t ∧ t.mwy = s.mwy ∧
      (∀ d : Fin 16, d ≠ e.core → (t.core d).mem = (s.core d).mem) ∧ TokenGiven s t e.core done ∧
      RingFlagsSent s t e.core r done ∧
      (t.core e.core).mem = (flushRange addr (128 * L * laneBytes fmt) (put.core e.core)).mem ∧
      (t.core e.core).gather = (flushRange addr (128 * L * laneBytes fmt) (put.core e.core)).gather))

/-- REQUANT of a receive entry or of registers, whose record is valid and whose ranges exist, writes the codes and the
exponents of its 32 groups (R93, R95, R101). SCALE_CLOSE keeps and writes back the record with its step closed;
SCALE_SET keeps it with a new exponent. A record that is not valid is left alone and sets RECORD_ERR (R93, R96, R97,
R99). -/
def Obligations.QuantiserWritesCodesAndRecords : Prop :=
  (∀ (s : State) (e : Eng) (src : QuantSrc) (record codes expmap : Nat) (column : Bool) (r : Fin 8) (u : Nat) (f : ArrFmt)
    (b : List Byte) (others recs : List (List Byte)) (s1 s2 : State),
    Instr.WellFormed (.requant e src record codes expmap column) → Ready s e.core qVector e.mask e.tag e.gap r u →
    (∀ v, src = .reg v → Passes s r (vectorAudit s e (srcReads 8 (.reg v)) 0 0 0)) →
    (∀ entry free, src = .rx entry free → Passes s r (vectorAudit s e [] 0 0 0) ∧ ((s.core e.core).rx[entry]).held = true ∧
      ((s.core e.core).rx[entry]).readable ≤ u ∧ ((s.core e.core).rx[entry]).poisoned = false) →
    inCore record 64 = true → s.recPeek e.tag e.core record = (s1, b, false) →
    inCore record (64 * if recPerChannel b then 32 else 0) = true →
    s1.recPeeks e.tag e.core record (if recPerChannel b then 32 else 0) = (s2, others, false) →
    quantRecords b others column = some (f, recs) → inCore codes (codeSpan f) = true → inCore expmap 32 = true →
    let res := quantResults f recs (quantValues (s2.core e.core) u src) column
    let occ := if res.any fun p => p.2.2 then 16 else 8
    let t := (s2.quantIssue e occ 8 u).requantWrite e.core e.tag record codes expmap f recs res
    exec (.requant e src record codes expmap column) s =
      .next (match quantRelease src with | some x => t.rxRelease e.core x (u + occ) | none => t)) ∧
  (∀ (s : State) (e : Eng) (record : Nat) (r : Fin 8) (u : Nat) (s1 : State) (b : List Byte),
    Ready s e.core qVector e.mask e.tag e.gap r u → Passes s r (vectorAudit s e [] 0 0 0) → inCore record 64 = true →
    (∀ ringMax, (s.quantIssue e 2 2 u).recPeek e.tag e.core record = (s1, b, false) →
      (recValid b = true → exec (.scaleClose e record ringMax) s =
        .next ((s1.recKeep e.tag e.core record (recClose ringMax b)).cmWrite e.tag e.core record
          (cleanBytes (recClose ringMax b)))) ∧
      (recValid b = false → ∃ t, exec (.scaleClose e record ringMax) s = .next t ∧
        t.fld (.coreQuantStatus e.core) F.coreQuantStatus_RECORD_ERR = 1 ∧ t.reg (.coreQuantEventTag e.core) = e.tag ∧
        t.cores = s1.cores)) ∧
    ∀ exp, (s.issueAt e.core qVector e.tag e.gap.toNat 1 1 u).recPeek e.tag e.core record = (s1, b, false) →
      (recValid b = true → exec (.scaleSet e record exp) s = .next (s1.recKeep e.tag e.core record (recScaleSet exp b))) ∧
      (recValid b = false → ∃ t, exec (.scaleSet e record exp) s = .next t ∧
        t.fld (.coreQuantStatus e.core) F.coreQuantStatus_RECORD_ERR = 1 ∧ t.reg (.coreQuantEventTag e.core) = e.tag ∧
        t.cores = s1.cores))

/-! ## The access-side engines -/

/-- A DMA on this device whose ends resolve moves its bytes from the one to the other, and its completion is due. Core
memory to the midway, and the midway to an operand memory, byte by byte, where no symbol of them is in error. A remote
transfer starts with its first packets, as many as may be outstanding (R59, R88, R111, R141, R149, R161, R167, R339;
log 11: the bytes of a transfer on this device move at its issue). -/
def Obligations.DmaMovesItsBytes : Prop :=
  ∀ (s : State) (e : Eng) (cmd : DmaCmd) (r : Fin 8) (u : Nat), Instr.WellFormed (.dma e cmd) →
    s.badCompletion e.core cmd.done = false → Starts s e qDma r u (dmaRegions cmd) →
    (∀ (s1 s2 s3 s4 : State) (src dst : Place) (sg dg : Option (BitVec 16)) (d : List PByte),
      isRemote cmd.src = false → isRemote cmd.dst = false →
      (s.issueAt e.core qDma e.tag e.gap.toNat 0 0 u).resolveEnd r e.core e.tag cmd.bytes false cmd.src = (s1, some (src, sg)) →
      s1.resolveEnd r e.core e.tag cmd.bytes true cmd.dst = (s2, some (dst, dg)) →
      s2.placeRead r e.core e.tag ⟨src, dst, cmd.bytes, dg.getD (cmd.gen.getD 0), sg.orElse fun _ => cmd.expectGen, 0, none⟩ 0 cmd.bytes
        = (s3, some d) →
      s3.placeWrite r e.core e.tag ⟨src, dst, cmd.bytes, dg.getD (cmd.gen.getD 0), sg.orElse fun _ => cmd.expectGen, 0, none⟩ 0 d
        = (s4, true) →
      exec (.dma e cmd) s = .next (s4.onCore e.core fun k =>
        { fillExponents cmd cmd.bytes k with dmaBusy := some ⟨e.tag, cmd.marks, cmd.done, 0, none, false⟩ })) ∧
    (∀ (a b : Nat) (f : Option Nat), cmd.src = .cm a .contiguous → cmd.dst = .mwy b f → inCore a cmd.bytes = true →
      b + cmd.bytes ≤ s.mwySize r → NoErrors (s.core e.core) → s.mwyFlips = [] →
      ∃ t, exec (.dma e cmd) s = .next t ∧
        (t.core e.core).dmaBusy = some ⟨e.tag, cmd.marks, cmd.done, 0, none, false⟩ ∧
        (∀ i < cmd.bytes, smGet 0 t.mwy (s.mwyPlace r (b + i)) =
          smGet 0 (flushRange a cmd.bytes (s.core e.core)).mem (a + i)) ∧
        (∀ p : Nat, (∀ i < cmd.bytes, p ≠ s.mwyPlace r (b + i)) → smGet 0 t.mwy p = smGet 0 s.mwy p) ∧
        (t.core e.core).opnd = (s.core e.core).opnd ∧ (t.core e.core).flags = (s.core e.core).flags ∧
        (t.core e.core).dqs = (s.core e.core).dqs) ∧
    (∀ (b a : Nat) (f : Option Nat) (m : FillBuf), cmd.src = .mwy b f → cmd.dst = .buf m a → cmd.fmt = none →
      b + cmd.bytes ≤ s.mwySize r → fillOk m a cmd.bytes = true → s.mwyFlips = [] →
      ∃ t, exec (.dma e cmd) s = .next t ∧
        (t.core e.core).dmaBusy = some ⟨e.tag, cmd.marks, cmd.done, 0, none, false⟩ ∧
        (∀ i < cmd.bytes, smGet 0 (t.core e.core).opnd (fillBase m + a + i) = smGet 0 s.mwy (s.mwyPlace r (b + i))) ∧
        (∀ p : Nat, (p < fillBase m + a ∨ fillBase m + a + cmd.bytes ≤ p) →
          smGet 0 (t.core e.core).opnd p = smGet 0 (s.core e.core).opnd p) ∧
        (t.core e.core).mem = (s.core e.core).mem ∧ SameMarks (s.core e.core) (t.core e.core) ∧ t.mwy = s.mwy) ∧
    ∀ (s1 s2 : State) (src dst : Place) (sg dg : Option (BitVec 16)), isRemote cmd.src = true ∨ isRemote cmd.dst = true →
      (s.issueAt e.core qDma e.tag e.gap.toNat 0 0 u).resolveEnd r e.core e.tag cmd.bytes false cmd.src = (s1, some (src, sg)) →
      s1.resolveEnd r e.core e.tag cmd.bytes true cmd.dst = (s2, some (dst, dg)) →
      exec (.dma e cmd) s = .next (State.askMore r e.core 32769 (s2.onCore e.core fun k =>
        { k with dmaBusy := some ⟨e.tag, cmd.marks, cmd.done, 0,
          some ⟨src, dst, cmd.bytes, dg.getD (cmd.gen.getD 0), sg.orElse fun _ => cmd.expectGen, 0, cmd.fmt⟩, false⟩ }))

/-- An engine's command completes: the marks of the regions filled, then the READY token, then the flag; with its data
queue or its flag's crossing full, the marks are set once and it stays under way. DMA_COMPLETE completes a command all
of whose bytes are moved; each of the three, where its engine has none under way, changes nothing (R108, R127, R129,
R141, R152, R196). -/
def Obligations.EnginesCompleteInOrder : Prop :=
  (∀ (s : State) (c : Fin 16) (r : Fin 8) (b : EngineBusy), s.ringOfCore c = some r →
    ((s.core c).dmaBusy = some b → moved b = true →
      (s.canComplete c b.done = true → ∃ t, exec (.dmaComplete c b.tag) s = .next t ∧ (t.core c).dmaBusy = none ∧
        Completed s t c r b) ∧
      (s.canComplete c b.done = false → ∃ t, exec (.dmaComplete c b.tag) s = .next t ∧
        (t.core c).dmaBusy = some { b with finished := true } ∧ SameMarks (markedOnce b (s.core c)) (t.core c) ∧
        (t.core c).dqs = (s.core c).dqs ∧ SameCrossings s t)) ∧
    ((s.core c).unfoldBusy = some b →
      (s.canComplete c b.done = true → ∃ t, exec (.unfoldComplete c) s = .next t ∧ (t.core c).unfoldBusy = none ∧
        Completed s t c r b) ∧
      (s.canComplete c b.done = false → ∃ t, exec (.unfoldComplete c) s = .next t ∧
        (t.core c).unfoldBusy = some { b with finished := true } ∧ SameMarks (markedOnce b (s.core c)) (t.core c) ∧
        (t.core c).dqs = (s.core c).dqs ∧ SameCrossings s t)) ∧
    ((s.core c).storeBusy = some b →
      (s.canComplete c b.done = true → ∃ t, exec (.storeComplete c) s = .next t ∧ (t.core c).storeBusy = none ∧
        Completed s t c r b) ∧
      (s.canComplete c b.done = false → ∃ t, exec (.storeComplete c) s = .next t ∧
        (t.core c).storeBusy = some { b with finished := true } ∧ SameMarks (markedOnce b (s.core c)) (t.core c) ∧
        (t.core c).dqs = (s.core c).dqs ∧ SameCrossings s t))) ∧
  ∀ (s : State) (c : Fin 16) (tag : Tag),
    ((s.core c).dmaBusy = none → exec (.dmaComplete c tag) s = .next s) ∧
    ((s.core c).unfoldBusy = none → exec (.unfoldComplete c) s = .next s) ∧
    ((s.core c).storeBusy = none → exec (.storeComplete c) s = .next s)

/-- UNFOLD with a record that passes its checks fills chunk `j` of its lines of the A-buffer with the taps of its
output positions, and its completion is due; core memory is only read. With a record that does not, it is refused with
the lowest cause (R197, R200 to R206, R212; logs 36, 124). -/
def Obligations.UnfoldFillsItsLines : Prop :=
  ∀ (s : State) (e : Eng) (geom p0 gw k0 nl : Nat) (dest : UnfoldDest) (marks : BitVec 16) (done : Completion) (r : Fin 8)
    (u : Nat) (s1 : State) (b : List Byte), Instr.WellFormed (.unfold e geom p0 gw k0 nl dest marks done) →
    s.badCompletion e.core done = false → Starts s e qUnfold r u (s.unfoldRegions e.core geom p0 nl dest) →
    geom % 64 = 0 → inCore geom 64 = true →
    recordsRead (s.issueAt e.core qUnfold e.tag e.gap.toNat 0 0 u) e.tag e.core [geom] = (s1, [b]) →
    (∀ cause, unfoldCause b p0 nl dest = some cause →
      ∃ t, exec (.unfold e geom p0 gw k0 nl dest marks done) s = .next t ∧ GeomRefused s t e cause) ∧
    ∀ chunks, chunks = ((List.range nl).map fun j =>
        (List.range 32).map fun col => blockTaps (geomOf b) p0 gw (k0 + j) col) →
      unfoldCause b p0 nl dest = none → allInCore (unfoldReads (geomOf b) chunks) = true →
      allInCore (unfoldWrites (geomOf b).fmt nl dest) = true →
      exec (.unfold e geom p0 gw k0 nl dest marks done) s =
        .next (s1.unfoldGo e.core e.tag (geomOf b) p0 gw nl dest marks done chunks) ∧
      ∀ (line : Nat) (half : Fin 2), dest = .abuf line half →
        let k := (s1.touch e.tag e.core (unfoldReads (geomOf b) chunks)).core e.core
        ∃ t, exec (.unfold e geom p0 gw k0 nl dest marks done) s = .next t ∧
          (t.core e.core).unfoldBusy = some ⟨e.tag, some (.a, marks), done, 0, none, false⟩ ∧
          (t.core e.core).mem = k.mem ∧ (t.core e.core).flags = (s.core e.core).flags ∧ t.mwy = s.mwy ∧
          ∀ j < nl, smRead 0 (t.core e.core).opnd (opA + chunkPlace (geomOf b).fmt line half.val j) (imageBytes (geomOf b).fmt) =
            rawBytes (chunkImage (geomOf b) ((List.range 32).map fun col =>
              (blockTaps (geomOf b) p0 gw (k0 + j) col).map (tapCode k (geomOf b))))

/-- POOL writes the winners of its output rows; RESIZE, CROP and WARP write the samples of theirs, at coordinates that
the source and destination shapes, the offsets or the map give. Each starts with records that pass its checks, and is
refused with the lowest cause otherwise (R207 to R212; log 36). -/
def Obligations.PoolAndResamplingWriteTheirRows : Prop :=
  ∀ (s : State) (e : Eng) (src dst row0 rows : Nat) (done : Completion) (r : Fin 8) (u : Nat) (s1 : State) (a b : List Byte),
    s.badCompletion e.core done = false → Starts s e qUnfold r u [] → src % 64 = 0 → dst % 64 = 0 → inCore src 64 = true →
    inCore dst 64 = true →
    recordsRead (s.issueAt e.core qUnfold e.tag e.gap.toNat 0 0 u) e.tag e.core [src, dst] = (s1, [a, b]) →
    (∀ isMin : Bool,
      (∀ cause, poolCause a b row0 rows = some cause →
        ∃ t, exec (.pool e src dst isMin row0 rows done) s = .next t ∧ GeomRefused s t e cause) ∧
      ∀ reads single k, reads = pixelReads (geomOf a) ((rowsFrom row0 rows).flatMap fun oy =>
          (List.range (geomOf a).outW).flatMap fun ox => (geomOf a).tapsIn (oy * (geomOf a).outW + ox)).eraseDups ++ single (geomOf a) →
        single = (fun x : Geom => if (geomOf a).mapped && !(geomOf a).aligned then [(x.mapBase, 1)] else []) →
        k = (s1.touch e.tag e.core reads).core e.core →
        poolCause a b row0 rows = none → allInCore reads = true →
        allInCore (pixelWrites (geomOf b) (rowsFrom row0 rows) ++ single (geomOf b)) = true →
        (reads.any fun p => anyPoison (coreGet k p.1 p.2)) = false →
        ∃ t, exec (.pool e src dst isMin row0 rows done) s = .next t ∧
          (t.core e.core).unfoldBusy = some ⟨e.tag, none, done, 0, none, false⟩ ∧
          (t.core e.core).mem = (putAll ((rowsFrom row0 rows).flatMap (poolRow k (geomOf a) (geomOf b) isMin) ++
            (if (geomOf a).mapped && !(geomOf a).aligned then [((geomOf b).mapBase, [memByte k (geomOf a).mapBase])] else []))
            k).mem ∧
          (t.core e.core).opnd = (s.core e.core).opnd ∧ (t.core e.core).flags = (s.core e.core).flags ∧ t.mwy = s.mwy) ∧
    (∀ (corners : Bool) (y0 x0 : Int) (coords : WarpSrc) (i : Instr) (bl : Option Bilinear)
        (w : Option WarpSrc) (coord : Core → Nat → Nat → Coord),
      (i = .resize e src dst bl corners row0 rows done ∧ w = none ∧ (coord = fun (_ : Core) (yo xo : Nat) =>
          some (resizeCoord corners yo (geomOf a).h (geomOf b).h, resizeCoord corners xo (geomOf a).w (geomOf b).w))) ∨
      (i = .crop e src dst y0 x0 row0 rows done ∧ bl = none ∧ w = none ∧ (coord = fun (_ : Core) (yo xo : Nat) =>
          some (65536 * (y0 + yo), 65536 * (x0 + xo)))) ∨
      (i = .warp e src dst bl coords row0 rows done ∧ w = some coords ∧ (coord = fun (k : Core) (yo xo : Nat) =>
          warpCoord k (geomOf b).w yo xo coords)) →
      i.WellFormed →
      (∀ cause, resampleCause a b row0 rows = some cause → ∃ t, exec i s = .next t ∧ GeomRefused s t e cause) ∧
      ∀ (x : Resample) (s2 s3 : State), x = ⟨geomOf a, geomOf b, bl, w, rowsFrom row0 rows⟩ →
        s2 = s1.touch e.tag e.core x.mapReads → s3 = s2.touch e.tag e.core (x.reads (coord (s2.core e.core))) →
        resampleCause a b row0 rows = none → allInCore x.mapReads = true →
        allInCore (x.reads (coord (s2.core e.core))) = true →
        allInCore ((x.pieces (s3.core e.core) (coord (s3.core e.core))).map fun p => (p.1, p.2.length)) = true →
        ∃ t, exec i s = .next t ∧ (t.core e.core).unfoldBusy = some ⟨e.tag, none, done, 0, none, false⟩ ∧
          (t.core e.core).mem = (putAll (x.pieces (s3.core e.core) (coord (s3.core e.core))) (s3.core e.core)).mem ∧
          (t.core e.core).opnd = (s.core e.core).opnd ∧ (t.core e.core).flags = (s.core e.core).flags ∧ t.mwy = s.mwy)

/-- FILL repeats its pattern word over its range, COPY moves a range, repeating the source where it overlaps it from
below, STRIDE moves elements between two patterns, TRANSPOSE a block's rows; the completion is then due. A FILL or
COPY of length zero completes at once, or, where its completion cannot be given yet, waits for that (R129, R149, R152,
R153; log 38). -/
def Obligations.StoreEngineWritesCoreMemory : Prop :=
  ∀ (s : State) (e : Eng) (done : Completion) (r : Fin 8) (u : Nat) (s0 : State), s.badCompletion e.core done = false →
    Starts s e qStore r u [] → s0 = s.issueAt e.core qStore e.tag e.gap.toNat 0 0 u →
    (∀ (dst len : Nat) (pattern : Word), dst % 4 = 0 → len % 4 = 0 → 0 < len → inCore dst len = true →
      exec (.fill e dst len pattern done) s =
        .next ((s0.cmWrite e.tag e.core dst (fillBytes pattern len)).onCore e.core (storeStarted e.tag done)) ∧
      (NoErrors (s.core e.core) → ∃ t, exec (.fill e dst len pattern done) s = .next t ∧
        (t.core e.core).storeBusy = some ⟨e.tag, none, done, 0, none, false⟩ ∧
        (∀ i < len, smGet 0 (t.core e.core).mem (dst + i) = (leBytes 4 pattern.toNat).getD (i % 4) 0) ∧
        (∀ a : Nat, (a < dst ∨ dst + len ≤ a) →
          smGet 0 (t.core e.core).mem a = smGet 0 (flushRange dst len (s.core e.core)).mem a) ∧
        (t.core e.core).opnd = (s.core e.core).opnd ∧ t.mwy = s.mwy)) ∧
    (∀ (src dst len : Nat) (s1 : State) (d : List PByte), src % 4 = 0 → dst % 4 = 0 → len % 4 = 0 → 0 < len →
      inCore src len = true → inCore dst len = true → s0.cmRead e.tag e.core src len = (s1, d) →
      exec (.copy e src dst len done) s =
        .next ((s1.cmWrite e.tag e.core dst (copyBytes src dst d)).onCore e.core (storeStarted e.tag done)) ∧
      (NoErrors (s.core e.core) → ∃ t, exec (.copy e src dst len done) s = .next t ∧
        (t.core e.core).storeBusy = some ⟨e.tag, none, done, 0, none, false⟩ ∧
        (∀ i < len, smGet 0 (t.core e.core).mem (dst + i) = smGet 0 (flushRange src len (s.core e.core)).mem
          (src + if src < dst ∧ dst < src + len then i % (dst - src) else i)) ∧
        (∀ a : Nat, (a < dst ∨ dst + len ≤ a) → smGet 0 (t.core e.core).mem a =
          smGet 0 (flushRange dst len (flushRange src len (s.core e.core))).mem a) ∧
        (t.core e.core).opnd = (s.core e.core).opnd ∧ t.mwy = s.mwy)) ∧
    (∀ (dst : Nat) (pattern : Word) (i : Instr), (i = .fill e dst 0 pattern done ∨ ∃ src, i = .copy e src dst 0 done) →
      ∃ t, exec i s = .next t ∧ (t.core e.core).mem = (s.core e.core).mem ∧ t.mwy = s.mwy ∧
        (t.core e.core).storeBusy = (if s.canComplete e.core done then none else some ⟨e.tag, none, done, 0, none, true⟩)) ∧
    (∀ (srcAddr dstAddr count : Nat) (src dst : Pattern) (s1 : State) (d : List PByte),
      Instr.WellFormed (.stride e srcAddr src dstAddr dst count done) →
      strideOk srcAddr (strideSize src dst) count src = true → strideOk dstAddr (strideSize dst src) count dst = true →
      State.cmPieces e.tag e.core ((List.range count).map fun k =>
        (strideAt srcAddr (strideSize src dst) k src, strideSize src dst)) s0 = (s1, d) →
      ∃ t, exec (.stride e srcAddr src dstAddr dst count done) s = .next t ∧
        (t.core e.core).storeBusy = some ⟨e.tag, none, done, 0, none, false⟩ ∧
        (t.core e.core).mem = (putAll ((List.range count).map fun k => (strideAt dstAddr (strideSize dst src) k dst,
          strideElem (strideSize src dst) (strideSize dst src) (part d (strideSize src dst * k) (strideSize src dst))))
            (s1.core e.core)).mem ∧ t.mwy = s.mwy) ∧
    ∀ (srcAddr dstAddr dstPitch : Nat) (src : Pattern) (s1 : State) (rows : List (List PByte)),
      Instr.WellFormed (.transpose e srcAddr src dstAddr dstPitch done) →
      inCore (srcAddr + ((blockShape src).1 - 1) * (blockShape src).2) 16 = true →
      inCore (dstAddr + ((blockShape src).1 - 1) * dstPitch) 16 = true →
      s0.cmRows e.tag e.core srcAddr (blockShape src).2 (blockShape src).1 = (s1, rows) →
      ∃ t, exec (.transpose e srcAddr src dstAddr dstPitch done) s = .next t ∧
        (t.core e.core).storeBusy = some ⟨e.tag, none, done, 0, none, false⟩ ∧
        (t.core e.core).mem = (putAll ((List.range (blockShape src).1).map fun j =>
          (dstAddr + j * dstPitch, part (blockRows src rows) (16 * j) 16)) (s1.core e.core)).mem ∧ t.mwy = s.mwy

/-- GATHER_FLUSH_IDLE flushes the entry of its line to core memory and frees it. CROSSING_DELIVER, while the clock of
the crossing's receiver runs, takes the oldest entry: a set or a clear acts on its flag, a set of a flag that is set
raises FLAG_OVERRUN, and a wait that stands at a ring flag passes with its set; a ringmaster's operation on core flags
goes on to each core that it names; a test is answered, and the answer reaches its unit; a hint and a trigger cross to
the booth, which queues the trigger's program. With the clock stopped, and on an empty crossing, nothing happens (R23,
R24, R125 to R127, R154, R155, R268, R398). A stall raises the ring's stall count, and the ring enters FAULTED with
cause STALL: its pending list is emptied; without the condition of a stall nothing happens (R53, R130, R131). -/
def Obligations.BuffersDrainAndStallsFault : Prop :=
  ((∀ (s : State) (c : Fin 16) (line : Nat),
    exec (.gatherFlushIdle c line) s = .next (s.onMem (s.coreTag c) c (flushWhere fun g => g.line == line)) ∧
    ∀ g : GatherEntry, ((s.core c).gather.filter fun x => x.line == line) = [g] → NoErrors (s.core c) →
    ∃ t, exec (.gatherFlushIdle c line) s = .next t ∧
      (t.core c).gather = (s.core c).gather.filter (fun x => x.line != line) ∧
      (∀ i < 64, smGet 0 (t.core c).mem (64 * line + i) =
        if g.mask.getLsbD i then g.data.extractLsb' (8 * i) 8 else smGet 0 (s.core c).mem (64 * line + i)) ∧
      (∀ a : Nat, (a < 64 * line ∨ 64 * line + 64 ≤ a) → smGet 0 (t.core c).mem a = smGet 0 (s.core c).mem a) ∧
      t.mwy = s.mwy ∧ t.regs = s.regs) ∧
  (∀ (s : State) (x : Crossing), (s.clockRuns (s.receiver x) = false ∨ takeCross x s.cross = none) →
    exec (.crossingDeliver x) s = .next s) ∧
  ∀ (s : State) (x : Crossing) (o : CrossOp) (rest : List (Crossing × CrossOp)), takeCross x s.cross = some (o, rest) →
    FlagPath x → s.clockRuns (s.receiver x) = true →
    (∀ (r : Fin 8) (n : Fin 256), o = .clearFlag r n → ∃ t, exec (.crossingDeliver x) s = .next t ∧ Drains s t x ∧
      (t.ring r).flags = (s.ring r).flags &&& ~~~ (1#256).shiftLeft n ∧ t.cores = s.cores ∧ t.mwy = s.mwy) ∧
    (∀ (r : Fin 8) (n : Fin 256), o = .setFlag r n → s.postStreams r n = [] → s.flagTrigger r n = false →
      ((∀ w ∈ (s.ring r).tests, w.flag ≠ n) → ∃ t, exec (.crossingDeliver x) s = .next t ∧ Drains s t x ∧
      (t.ring r).flags = (s.ring r).flags ||| (1#256).shiftLeft n ∧ t.cores = s.cores ∧ t.mwy = s.mwy ∧
      t.fld (.ringSeqStatus r) F.ringSeqStatus_FLAG_OVERRUN =
        if s.ringFlag r n then 1 else s.fld (.ringSeqStatus r) F.ringSeqStatus_FLAG_OVERRUN) ∧
      ∀ w : FlagTest, (s.ring r).tests = [w] → w.flag = n → ∃ t, exec (.crossingDeliver x) s = .next t ∧
        Hops s t x (crossBack w.unit) (.answer r w.unit true) ∧ (t.ring r).tests = [] ∧
        (t.ring r).flags = (if w.consume then (s.ring r).flags &&& ~~~ (1#256).shiftLeft n
          else (s.ring r).flags ||| (1#256).shiftLeft n)) ∧
    (∀ (r : Fin 8) (on : BitVec 16) (n : Fin 64) (set : Bool), o = .coreFlag r on n set →
      (∀ c : Fin 16, x = .concourseToCore c → ∃ t, exec (.crossingDeliver x) s = .next t ∧ Drains s t x ∧
        (t.core c).flags = (if set then (s.core c).flags ||| (1#64).shiftLeft n else (s.core c).flags &&& ~~~ (1#64).shiftLeft n) ∧
        OnlyCore c s t ∧ (set = true → (s.core c).flags.getLsbD n = true →
          t.fld (.coreSeqStatus c) F.coreSeqStatus_FLAG_OVERRUN = 1)) ∧
      (∀ q : Fin 8, x = .ringmasterToConcourse q → ∃ t, exec (.crossingDeliver x) s = .next t ∧ t.cores = s.cores ∧
        t.sentOn x = (s.sentOn x).drop 1 ∧
        ∀ c : Fin 16, t.sentOn (.concourseToCore c) = s.sentOn (.concourseToCore c) ++
          if on.getLsbD c then [.coreFlag r ((1#16).shiftLeft c) n set] else [])) ∧
    (∀ (r : Fin 8) (u : SeqUnit) (n : Fin 256), o = .test r u n .look → s.probeOf u = .asked →
      ∃ t, exec (.crossingDeliver x) s = .next t ∧ Hops s t x (crossBack u) (.answer r u (s.ringFlag r n)) ∧ t.rings = s.rings ∧
        t.cores = s.cores) ∧
    (∀ (r : Fin 8) (u : SeqUnit) (v : Bool), o = .answer r u v → x = crossBack u → s.probeOf u = .asked →
      ∃ t, exec (.crossingDeliver x) s = .next t ∧ Drains s t x ∧ t.probeOf u = .answered v ∧ SameMemory s t) ∧
    (∀ (r : Fin 8) (c : Fin 16) (cls : Nat) (late : Bool), o = .hint r c cls late →
      (x ≠ .concourseToBooth → ∃ t, exec (.crossingDeliver x) s = .next t ∧
        Hops s t x .concourseToBooth (.hint r c cls late) ∧ t.power = s.power) ∧
      (x = .concourseToBooth → ∃ t, exec (.crossingDeliver x) s = .next t ∧ Drains s t x ∧
        t.power.arrived = s.power.arrived ++ [(r, c, cls)] ∧ t.cores = s.cores ∧ t.regs = s.regs)) ∧
    ∀ (r : Fin 8) (kind arg : Nat) (stamp : DWord), o = .trigger r kind arg stamp →
      (x ≠ .concourseToBooth → ∃ t, exec (.crossingDeliver x) s = .next t ∧
        Hops s t x .concourseToBooth (.trigger r kind arg stamp) ∧ t.rings = s.rings ∧ t.cores = s.cores) ∧
      (x = .concourseToBooth → ∃ t, exec (.crossingDeliver x) s = .next t ∧ Drains s t x ∧ t.cores = s.cores ∧
        (t.ring r).flags = (s.ring r).flags ∧ ∀ p, (s.ring r).programs = [p] → p.kind = kind → p.arg = arg → p.slot < 32 →
          s.takesTriggers r = true → s.pendingRoom r = true →
          (t.ring r).waiting = (s.ring r).waiting ++ [⟨p.slot, triggerBlock kind arg stamp, stamp, none, false⟩])) ∧
  (∀ (s : State) (r : Fin 8) (c : Fin 16), (s.coresOf r).contains c = true → s.mayFault r = true →
    (s.stalled r = true → ∃ t, exec (.stallFault r c) s = .next t ∧ t.ringState r = stFaulted ∧
      t.fld (.ringManifestStatus r) F.ringManifestStatus_CAUSE = cauStall ∧ t.fld (.ringEvent r) F.ringEvent_FAULTED = 1 ∧
      (t.ring r).waiting = [] ∧ (t.ring r).stallSeq = (s.ring r).stallSeq + 1 ∧
      (∀ d : Fin 16, (t.core d).mem = (s.core d).mem) ∧ t.mwy = s.mwy) ∧
    (s.stalled r = false → exec (.stallFault r c) s = .next s))

/-! ## Rings -/

/-- RING_START takes a ring from LOADED, STOPPED or FAILED into LOADING, with an empty fault queue; from STOPPED or
FAILED it is unbound first. In any other state it is refused, and a sender without the right has no effect (R48, R49,
R54, R56). -/
def Obligations.StartEntersLoading : Prop :=
  ∀ (s : State) (r : Fin 8) (who : Who),
    (MayAsk s r who → (s.ringState r = stLoaded ∨ s.ringState r = stStopped ∨ s.ringState r = stFailed) →
      ∃ t, exec (.ringStart r who) s = .next t ∧ t.ringState r = stLoading ∧
        t.fld (.ringManifestStatus r) F.ringManifestStatus_CAUSE = 0 ∧ (t.ring r).faults = [] ∧ (t.ring r).starting = true ∧
        t.reg (.ringInvokeDropped r) = 0 ∧ t.fld (.ringHint r) F.ringHint_LATE = 0 ∧
        (s.ringState r ≠ stLoaded → (t.ring r).bound = false ∧ t.reg (.ringResources r) = 0) ∧
        OnlyRing r s t ∧ t.mwy = s.mwy ∧ t.dram.data = s.dram.data ∧ ∀ c : Fin 16, (t.core c).mem = (s.core c).mem) ∧
    (MayAsk s r who → s.ringState r ≠ stLoaded → s.ringState r ≠ stStopped → s.ringState r ≠ stFailed →
      ∃ t, exec (.ringStart r who) s = .next t ∧ t.fld (.ringEvent r) F.ringEvent_REFUSED = 1 ∧
        t.ringState r = s.ringState r ∧ t.rings = s.rings ∧ t.cores = s.cores) ∧
    (s.ringAccess r who = false → exec (.ringStart r who) s = .next s)

/-- The load of a LOADING ring whose turn has come, with no lower-numbered ring still to be loaded, ends in RUNNING
after boot, or where START asked for it, in LOADED at boot without START_AT_BOOT, and in FAILED with its cause where a
step fails; with START_AT_BOOT it waits for the end of boot. A ring whose turn has not come waits (R40, R46, R48, R49,
R360). -/
def Obligations.LoadEndsInLoadedRunningOrFailed : Prop :=
  ∀ (s : State) (r : Fin 8),
    (s.ringState r = stLoading → s.loadTurn r = true →
      ((s.ring r).bound = true → s.bootDone = true ∨ (s.ring r).starting = true →
        ∃ t, exec (.ringLoadComplete r) s = .next t ∧ t.ringState r = stRunning ∧
          t.fld (.ringEvent r) F.ringEvent_RUNNING = 1 ∧ t.mwy = s.mwy) ∧
      ((s.ring r).bound = true → s.bootDone = false → (s.ring r).starting = false →
        exec (.ringLoadComplete r) s = .next s) ∧
      (∀ s1 cause, (s.ring r).bound = false → s.loadNow r = (s1, cause) →
        (cause ≠ 0 → ∃ t, exec (.ringLoadComplete r) s = .next t ∧ t.ringState r = stFailed ∧
          t.fld (.ringManifestStatus r) F.ringManifestStatus_CAUSE = cause ∧ t.fld (.ringEvent r) F.ringEvent_FAILED = 1) ∧
        (cause = 0 → s1.bootDone = true ∨ (s1.ring r).starting = true →
          ∃ t, exec (.ringLoadComplete r) s = .next t ∧ t.ringState r = stRunning ∧
          (t.ring r).bound = true ∧ t.fld (.ringEvent r) F.ringEvent_RUNNING = 1 ∧ t.mwy = s1.mwy) ∧
        (cause = 0 → s1.bootDone = false → (s1.ring r).starting = false → bitAt (s1.manifest r 4 1) 0 = false →
          ∃ t, exec (.ringLoadComplete r) s = .next t ∧ t.ringState r = stLoaded ∧ (t.ring r).bound = true ∧ t.mwy = s1.mwy) ∧
        (cause = 0 → s1.bootDone = false → (s1.ring r).starting = false → bitAt (s1.manifest r 4 1) 0 = true →
          exec (.ringLoadComplete r) s = .next s1.endBoot))) ∧
    (s.ringState r ≠ stLoading ∨ s.loadTurn r = false → exec (.ringLoadComplete r) s = .next s)

/-- INVOCATION_START takes the head of the pending list where every result stream of its program has a slot: its
parameter block stands from address 0 of every core of the ring, and their flags and queues are as at the start of an
invocation. Without a slot it is held, and HELD shows which streams lack one. INVOCATION_END ends an invocation of
which every stream and engine has ended: the gathering buffers are empty, and no slot stays PENDING (R105, R114, R155,
R315, R316, R324). -/
def Obligations.InvocationsStartAndEnd : Prop :=
  ∀ (s : State) (r : Fin 8) (i : Invocation),
    (s.headReady r = some i → s.canClaim r i.slot = true → ∃ t, exec (.invocationStart r) s = .next t ∧
      (t.ring r).current = some i ∧ (t.ring r).waiting = (s.ring r).waiting.drop 1 ∧
      (∀ c ∈ s.coresOf r, (t.core c).flags = 0 ∧ (t.core c).flagPend = [] ∧
        (∀ q : Fin 5, (t.queue c q).fresh = true ∧ (t.queue c q).ended = false ∧ (t.queue c q).prog = 0) ∧
        ∀ j < i.params.length, smGet 0 (t.core c).mem j = i.params.getD j 0) ∧
      ∀ c : Fin 16, c ∉ s.coresOf r → (t.core c).mem = (s.core c).mem ∧ (t.core c).flags = (s.core c).flags) ∧
    (s.headReady r = some i → s.canClaim r i.slot = false → ∃ t, exec (.invocationStart r) s = .next t ∧
      t.rings = s.rings ∧ t.cores = s.cores ∧ t.mwy = s.mwy ∧
      ∀ x ∈ s.programStreams r i.slot, t.fld (.trsRstreamStatus (rsIx r x)) F.trsRstreamStatus_HELD =
        bitNat (s.rsPick r x).isNone) ∧
    ((s.ring r).current = some i → s.ringClocked r = true → s.allEnded r = true →
      ∃ t, exec (.invocationEnd r) s = .next t ∧ (t.ring r).current = none ∧
        (∀ c ∈ s.coresOf r, (t.core c).gather = []) ∧ ∀ p ∈ (t.ring r).slots, p.2.state ≠ .pending) ∧
    ((s.ring r).current = some i → s.allEnded r = false → exec (.invocationEnd r) s = .next s)

/-- RING_PARK takes a RUNNING ring into PARKING; the park completes once no invocation, transfer or crossing of the
ring is left, with every mark of the operand buffers cleared and the vector registers and midway kept; a PARK_TIMEOUT
cancels the invocation first. RING_RESUME takes a PARKED ring back to RUNNING. Elsewhere PARK and RESUME are refused
(R49, R50, R51, R54, R147). -/
def Obligations.RingsParkAndResume : Prop :=
  ∀ (s : State) (r : Fin 8) (who : Who),
    (MayAsk s r who → s.ringState r = stRunning → ∃ t, exec (.ringPark r who) s = .next t ∧ t.ringState r = stParking ∧
      t.rings = s.rings ∧ t.cores = s.cores ∧ t.mwy = s.mwy) ∧
    (MayAsk s r who → s.ringState r ≠ stRunning → ∃ t, exec (.ringPark r who) s = .next t ∧
      t.fld (.ringEvent r) F.ringEvent_REFUSED = 1 ∧ t.ringState r = s.ringState r ∧ t.cores = s.cores) ∧
    (s.parkReady r = true → ∃ t, exec (.parkComplete r) s = .next t ∧ t.ringState r = stParked ∧
      t.fld (.ringEvent r) F.ringEvent_PARKED = 1 ∧ t.mwy = s.mwy ∧
      ∀ c ∈ s.coresOf r, (t.core c).wValid = 0 ∧ (t.core c).aValid = 0 ∧ (t.core c).dsValid = 0 ∧
        (t.core c).latchValid = false ∧ (t.core c).gather = [] ∧ (t.core c).vregs = (s.core c).vregs) ∧
    (s.parkReady r = false → exec (.parkComplete r) s = .next s) ∧
    (s.ringState r = stParking → (s.ring r).current.isSome = true → ∃ t, exec (.parkTimeout r) s = .next t ∧
      t.ringState r = stParking ∧ t.fld (.ringManifestStatus r) F.ringManifestStatus_CAUSE = cauParkTimeout ∧
      (t.ring r).current = none ∧ ∀ c ∈ s.coresOf r, ∀ q : Fin 5, (t.queue c q).tags = []) ∧
    (MayAsk s r who → s.ringState r = stParked → (s.ring r).held = [] → (s.ring r).heldParams = [] → (s.ring r).ctxs = [] →
      ∃ t, exec (.ringResume r who) s = .next t ∧ t.ringState r = stRunning ∧
        t.fld (.ringEvent r) F.ringEvent_RUNNING = 1 ∧ t.mwy = s.mwy ∧ ∀ c : Fin 16, (t.core c).mem = (s.core c).mem) ∧
    (MayAsk s r who → s.ringState r = stParked → exec (.ringResume r who) s =
      .next ((s.ring r).heldParams.foldl (fun s p => s.paramDone r p) ((s.ring r).held.foldl State.performHeld
        ((s.resumeRing r).onRing r fun k => { k with held := [], heldParams := [] })))) ∧
    (MayAsk s r who → s.ringState r ≠ stParked → ∃ t, exec (.ringResume r who) s = .next t ∧
      t.fld (.ringEvent r) F.ringEvent_REFUSED = 1 ∧ t.ringState r = s.ringState r ∧ t.cores = s.cores)

/-- RING_STOP cancels everything of a ring that it may stop, which becomes STOPPING with cause HOST, with no page of
its contexts on the move; it changes nothing of a STOPPING ring, and is refused by an ABSENT or STOPPED one. The stop
ends, once the ring's flag operations have left the crossings and its answers have been sent, in STOPPED with the
ring's memories zero, its flags clear and its slots EMPTY (R49, R52, R54, R237; logs 48, 113). -/
def Obligations.StopZeroisesTheRing : Prop :=
  ∀ (s : State) (r : Fin 8) (who : Who),
    (MayAsk s r who → stoppable (s.ringState r) = true → ∃ t, exec (.ringStop r who) s = .next t ∧
      t.ringState r = stStopping ∧ t.fld (.ringManifestStatus r) F.ringManifestStatus_CAUSE = cauHost ∧
      (t.ring r).current = none ∧ (t.ring r).waiting = [] ∧ (t.ring r).held = [] ∧ t.mwy = s.mwy ∧
      (∀ p ∈ (t.ring r).ctxs, p.2.moves = []) ∧
      ∀ c ∈ s.coresOf r, (t.core c).dmaBusy = none ∧ (t.core c).unfoldBusy = none ∧ (t.core c).storeBusy = none ∧
        ∀ q : Fin 5, (t.queue c q).tags = []) ∧
    (MayAsk s r who → s.ringState r = stStopping → exec (.ringStop r who) s = .next s) ∧
    (MayAsk s r who → s.ringState r = stAbsent ∨ s.ringState r = stStopped → ∃ t, exec (.ringStop r who) s = .next t ∧
      t.fld (.ringEvent r) F.ringEvent_REFUSED = 1 ∧ t.rings = s.rings ∧ t.cores = s.cores) ∧
    (s.ringState r = stStopping → s.flagsDrained r = true → s.answersWait r = false → (s.ring r).bound = true →
      ∃ t, exec (.stopComplete r) s = .next t ∧
      t.ringState r = stStopped ∧ t.fld (.ringEvent r) F.ringEvent_STOPPED = 1 ∧
      t.fld (.ringManifestStatus r) F.ringManifestStatus_CAUSE = s.fld (.ringManifestStatus r) F.ringManifestStatus_CAUSE ∧
      (t.ring r).flags = 0 ∧ (t.ring r).slots = [] ∧
      (∀ c ∈ s.coresOf r, (t.core c).mem = [] ∧ (t.core c).opnd = [] ∧ (t.core c).acc = [] ∧ (t.core c).flags = 0 ∧
        (t.core c).trace = []) ∧
      ∀ m ∈ s.slicesOf r, ∀ a : Nat, 33554432 * m ≤ a → a < 33554432 * (m + 1) → smGet 0 t.mwy a = 0) ∧
    (s.ringState r ≠ stStopping ∨ s.flagsDrained r = false ∨ s.answersWait r = true → exec (.stopComplete r) s = .next s)

/-- FLAG_WRITE_SET and FLAG_WRITE_CLEAR of an event flag enter the crossing from the Ethernet island; other flags are
out of their reach. A ring that is parking or parked holds the write, up to 256 (R51, R56, R124, R127, R313). -/
def Obligations.FlagWritesReachEventFlags : Prop :=
  ∀ (s : State) (r : Fin 8) (index : Byte) (who : Who),
    (Heard s r who → 192 ≤ index.toNat →
      (∃ t, exec (.flagWriteSet r index who) s = .next t ∧ Sends s t .ethToConcourse (.setFlag r (flagOf index)) ∧
        t.rings = s.rings ∧ t.cores = s.cores ∧ t.regs = s.regs) ∧
      ∃ t, exec (.flagWriteClear r index who) s = .next t ∧ Sends s t .ethToConcourse (.clearFlag r (flagOf index)) ∧
        t.rings = s.rings ∧ t.cores = s.cores ∧ t.regs = s.regs) ∧
    (Heard s r who → index.toNat < 192 → exec (.flagWriteSet r index who) s = .next s ∧
      exec (.flagWriteClear r index who) s = .next s) ∧
    (MayAsk s r who → s.holdsWrites r = true → who ≠ .booth → (s.ring r).held.length < 256 →
      (∃ t w, exec (.flagWriteSet r index who) s = .next t ∧ SameCrossings s t ∧
        (t.ring r).held = (s.ring r).held ++ [⟨who, BitVec.ofNat 32 (Reg.ringFlagWrite r).addr, w⟩] ∧
        w.toNat % 512 = index.toNat) ∧
      ∃ t w, exec (.flagWriteClear r index who) s = .next t ∧ SameCrossings s t ∧
        (t.ring r).held = (s.ring r).held ++ [⟨who, BitVec.ofNat 32 (Reg.ringFlagWrite r).addr, w⟩] ∧
        w.toNat % 512 = 256 + index.toNat) ∧
    (s.ringAccess r who = false → exec (.flagWriteSet r index who) s = .next s ∧ exec (.flagWriteClear r index who) s = .next s)

/-! ## Sequence contexts -/

/-- CTX_OPEN of a FREE context that passes its check opens it, with the ring's next AGE; one that fails, or a context
in use, is refused: REFUSED, and the context's CAUSE, whichever ring's range it lies in. CTX_CLOSE without pages in
flight frees the context, with pages in flight it is CLOSING, and an ACTIVE one closes when its step ends.
CTX_PREFETCH of a SWAPPED context begins to bring its lowest swapped page in. CTX_EVICT of an OPEN one is a
pre-emption, for which the SPILL region may lack room (R221, R223, R230, R232, R233, R238; logs 40, 41). -/
def Obligations.ContextsOpenCloseAndMove : Prop :=
  ∀ (s : State) (r : Fin 8) (x : Fin 4096) (who : Who), Heard s r who →
    (s.ctxOwned r x.val = true → s.ctxState x = ctxFree → s.openCheck r x = 0 →
      ∃ t, exec (.ctxOpen r x who) s = .next t ∧ t.ctxState x = ctxOpen ∧
        t.fld (.ringCtxStatus x) F.ringCtxStatus_CAUSE = 0 ∧ t.reg (.ringCtxDesc x 6) = (s.ring r).openCount ∧
        (t.ring r).ctxs = (s.ring r).ctxs ++ [(x.val, ⟨s.endpointOf r who, 0, 0, [], false, false, false, false⟩)] ∧
        OnlyRing r s t ∧ t.mwy = s.mwy) ∧
    (∀ cause, s.ctxState x = ctxFree → s.openCheck r x = cause → cause ≠ 0 → ∃ t, exec (.ctxOpen r x who) s = .next t ∧
      t.fld (.ringCtxEvent r) F.ringCtxEvent_REFUSED = 1 ∧ t.ctxState x = ctxFree ∧ t.rings = s.rings ∧
      t.fld (.ringCtxStatus x) F.ringCtxStatus_CAUSE = cause) ∧
    (∀ i, s.ctxOwned r x.val = true → s.ctxInfo r x = some i →
      (s.ctxState x ≠ ctxFree → s.ctxState x ≠ ctxClosing → s.ctxState x ≠ ctxActive → i.moves = [] →
        ∃ t, exec (.ctxClose r x who) s = .next t ∧ t.ctxState x = ctxFree ∧
          (t.ring r).ctxs = (s.ring r).ctxs.filter fun p => p.1 != x.val) ∧
      (s.ctxState x ≠ ctxFree → s.ctxState x ≠ ctxClosing → s.ctxState x ≠ ctxActive → i.moves ≠ [] →
        ∃ t, exec (.ctxClose r x who) s = .next t ∧ t.ctxState x = ctxClosing ∧
          t.ctxInfo r x = some { i with closing := true }) ∧
      (s.ctxState x = ctxActive → ∃ t, exec (.ctxClose r x who) s = .next t ∧ t.ctxState x = ctxActive ∧
        t.ctxInfo r x = some { i with closing := true })) ∧
    (∀ (s1 : State) (i : CtxInfo) (n : Nat) (f : Bool × Nat × Bool), s.ctxOwned r x.val = true → s.ctxState x = ctxSwapped →
      s1 = (s.setCtxState x ctxIn).onCtx r x (fun i => { i with prefetch := true, ending := false }) →
      s1.ctxInfo r x = some i → i.closing = false → i.moves = [] → s1.swapsRun r = true → s1.nextIn r x i = some (n, f) →
      ∃ t m, exec (.ctxPrefetch r x who) s = .next t ∧ t.ctxState x = ctxIn ∧ t.moveOf r x n = some m ∧ m.page = n ∧
        m.out = false ∧ m.tier = f.1 ∧ m.frame = f.2.1) ∧
    (s.ctxOwned r x.val = true → s.ctxState x = ctxOpen →
      (∀ t, s.preempt r x = some t → exec (.ctxEvict r x who) s = .next t ∧
        (t.ctxState x = ctxOut ∨ t.ctxState x = ctxSwapped) ∧ t.ctxWord x 11 = min (s.ctxWord x 11 + 1) 4294967295) ∧
      (s.preempt r x = none → ∃ t, exec (.ctxEvict r x who) s = .next t ∧
        t.fld (.ringCtxEvent r) F.ringCtxEvent_SPILL_FULL = 1 ∧ t.fld (.ringCtxStatus x) F.ringCtxStatus_CAUSE = 8 ∧
        t.ctxState x = ctxOpen)) ∧
    (s.ctxState x ≠ ctxSwapped → ∃ t, exec (.ctxPrefetch r x who) s = .next t ∧
      t.fld (.ringCtxEvent r) F.ringCtxEvent_REFUSED = 1 ∧ t.ctxState x = s.ctxState x) ∧
    (s.ctxState x ≠ ctxOpen → ∃ t, exec (.ctxEvict r x who) s = .next t ∧
      t.fld (.ringCtxEvent r) F.ringCtxEvent_REFUSED = 1 ∧ t.ctxState x = s.ctxState x)

/-- SEQ_ADMIT of a head invocation that lists no context admits it; of one whose listed contexts are OPEN, with frames
enough, makes them ACTIVE and admits it; of one that lists a context that may not be admitted refuses it. A ring that
does not run admits nothing (R231, R236, R237). -/
def Obligations.AdmissionActivatesContexts : Prop :=
  ∀ (s : State) (r : Fin 8) (i : Invocation) (rest : List Invocation), (s.ring r).waiting = i :: rest →
    (s.ringState r = stRunning → i.admitted = false → contextList i = [] → ∃ t, exec (.seqAdmit r) s = .next t ∧
      (t.ring r).waiting = { i with admitted := true } :: rest ∧ t.regs = s.regs ∧ t.cores = s.cores ∧ t.mwy = s.mwy) ∧
    (s.ringState r = stRunning → i.admitted = false → contextList i ≠ [] → (s.ring r).admission = none →
      (∀ n ∈ contextList i, s.admitRefusal r n = none ∧ s.ctxState (ctxFin n) = ctxOpen) →
      s.needFrames r (contextList i) ≤ s.openFrames r → ∃ t, exec (.seqAdmit r) s = .next t ∧
        (∀ n ∈ contextList i, t.ctxState (ctxFin n) = ctxActive) ∧
        (t.ring r).waiting = { i with admitted := true } :: rest ∧ (t.ring r).admission = none ∧ t.cores = s.cores ∧
        t.mwy = s.mwy) ∧
    (∀ status, s.ringState r = stRunning → i.admitted = false → (contextList i).findSome? (s.admitRefusal r) = some status →
      ∃ t, exec (.seqAdmit r) s = .next t ∧ t.fld (.ringCtxEvent r) F.ringCtxEvent_INVOKE_REFUSED = 1 ∧
        (t.ring r).waiting = rest ∧ (t.ring r).admission = none) ∧
    (s.ringState r ≠ stRunning → exec (.seqAdmit r) s = .next s)

/-- A page copied to its SPILL slot, or acknowledged by the host, is SWAPPED; one that came back, from its slot or
with a PAGE_DATA that fits, is RESIDENT in its frame; a page that the host refuses to take stays RESIDENT. The counts
of pages follow (R227, R232 to R235). Without an answer within 100 ms a page is asked for again, or sent again, up to
four times in all; then a page that was to return is LOST with cause 5, and one that was to leave stays RESIDENT
(R232, R235, R236). The page's line of the page table is the booth's, reads without an error, and lies in no frame
that is written. -/
def Obligations.PagesLeaveReturnOrAreLost : Prop :=
  (∀ (s : State) (r : Fin 8) (x : Fin 4096) (m : PageMove), NoInternal s →
    (∀ slot, s.moveOf r x m.page = some m → m.out = true → m.host = false → s.ctxState x = ctxOut →
      lowest (s.freeSlots r) = some slot → EntrySound s x m.page slot → ∃ t, exec (.swapOutPageDone r x m.page) s = .next t ∧
        ptState (t.ptGet x m.page) = ptSwapped ∧ ptHost (t.ptGet x m.page) = false ∧
        ptLoc (t.ptGet x m.page) = slot % 2 ^ 32 ∧ t.moveOf r x m.page = none ∧
        t.fld (.ringCtxPagesOut r) F.ringCtxPagesOut_COUNT = min (s.fld (.ringCtxPagesOut r) F.ringCtxPagesOut_COUNT + 1)
          (2 ^ 32 - 1)) ∧
    (s.moveOf r x m.page = some m → m.out = false → m.host = false → s.ctxState x = ctxIn → EntrySound s x m.page m.frame →
      ∃ t, exec (.swapInPageDone r x m.page) s = .next t ∧ ptState (t.ptGet x m.page) = ptResident ∧
        ptTier (t.ptGet x m.page) = m.tier ∧ ptLoc (t.ptGet x m.page) = m.frame % 2 ^ 32 ∧
        ptGen (t.ptGet x m.page) = nextGen (ptGen (s.ptGet x m.page)) ∧ t.moveOf r x m.page = none ∧
        t.fld (.ringCtxPagesIn r) F.ringCtxPagesIn_COUNT = min (s.fld (.ringCtxPagesIn r) F.ringCtxPagesIn_COUNT + 1)
          (2 ^ 32 - 1)) ∧
    ∀ (f : Frame) (y : Fin 64) (s0 : State), s0 = arrived s f y → epRing y = r → EntrySound s x m.page m.frame →
      (WholeMessage s 0x0B f y → s0.pageFor r (epNo y) f.payload = some (x, m) → m.out = true →
        s0.pageGen x m f.payload = true → s.ctxState x = ctxOut →
        ∃ t, exec (.pageAck f) s = .next (woken s t) ∧ ptState (t.ptGet x m.page) = ptSwapped ∧
          ptHost (t.ptGet x m.page) = true ∧ t.moveOf r x m.page = none ∧
          t.fld (.ringCtxPagesOut r) F.ringCtxPagesOut_COUNT =
            min (s.fld (.ringCtxPagesOut r) F.ringCtxPagesOut_COUNT + 1) (2 ^ 32 - 1)) ∧
      (WholeMessage s 0x0C f y → s0.pageFor r (epNo y) f.payload = some (x, m) → m.out = true →
        s0.pageGen x m f.payload = true → s.ctxState x = ctxOut →
        ∃ t, exec (.pageNak f) s = .next (woken s t) ∧ ptState (t.ptGet x m.page) = ptResident ∧
          ptLoc (t.ptGet x m.page) = m.frame % 2 ^ 32 ∧ t.moveOf r x m.page = none) ∧
      (WholeMessage s 0x0C f y → s0.pageFor r (epNo y) f.payload = some (x, m) → m.out = false →
        s0.pageGen x m f.payload = true → s.ctxState x = ctxIn →
        ∃ t, exec (.pageNak f) s = .next (woken s t) ∧ t.ctxState x = ctxLost ∧
          t.fld (.ringCtxStatus x) F.ringCtxStatus_CAUSE = 5 ∧ t.fld (.ringCtxEvent r) F.ringCtxEvent_LOST = 1) ∧
      ∀ (m0 : Reassembly) (b : List Byte), CompletesMessage s 0x0D f y m0 → b = wholeBody m0 f →
        (completed s f y).pageFor r (epNo y) b = some (x, m) → m.out = false → s.ctxState x = ctxIn →
        b.length = 24 + pageBytes → beAt b 8 2 = ptGen (s.ptGet x m.page) →
        BitVec.ofNat 32 (beAt b 12 4) = pageCrc x m.page (ptGen (s.ptGet x m.page)) (b.drop 24) →
        (pageCrc x m.page (ptGen (s.ptGet x m.page)) (b.drop 24)).toNat = ptLoc (s.ptGet x m.page) →
        ∃ t, exec (.pageData f) s = .next (woken s t) ∧ ptState (t.ptGet x m.page) = ptResident ∧
          ptLoc (t.ptGet x m.page) = m.frame % 2 ^ 32 ∧ t.moveOf r x m.page = none ∧
          t.fld (.ringCtxPagesIn r) F.ringCtxPagesIn_COUNT =
            min (s.fld (.ringCtxPagesIn r) F.ringCtxPagesIn_COUNT + 1) (2 ^ 32 - 1)) ∧
  (∀ (s : State) (r : Fin 8) (x : Fin 4096) (m : PageMove), s.moveOf r x m.page = some m → m.host = true →
    (m.tries < 4 → (m.out = true ∨ (s.ctxState x ≠ ctxClosing ∧ s.ctxState x ≠ ctxLost)) →
      ∃ t, exec (.pageAnswerTimeout r x m.page) s = .next t ∧ t.moveOf r x m.page = some { m with tries := m.tries + 1 } ∧
        t.ctxState x = s.ctxState x) ∧
    (4 ≤ m.tries → m.out = false → s.ctxState x ≠ ctxClosing → s.ctxState x ≠ ctxLost →
      ∃ t, exec (.pageAnswerTimeout r x m.page) s = .next t ∧ t.ctxState x = ctxLost ∧
        t.fld (.ringCtxStatus x) F.ringCtxStatus_CAUSE = 5 ∧ t.fld (.ringCtxEvent r) F.ringCtxEvent_LOST = 1) ∧
    (4 ≤ m.tries → m.out = true → NoInternal s → s.ctxState x = ctxOut → EntrySound s x m.page m.frame →
      ∃ t, exec (.pageAnswerTimeout r x m.page) s = .next t ∧ ptState (t.ptGet x m.page) = ptResident ∧
        ptLoc (t.ptGet x m.page) = m.frame % 2 ^ 32 ∧ t.moveOf r x m.page = none))

/-! ## Sensor front end, codecs, samples -/

/-- On a receiver that is on, a Frame Start begins a frame in the next buffer, or drops it; a COMMIT takes effect
then. A line and an embedded-data packet of the open frame enter it; a line that finds its line buffer full is lost
and ends its frame. Frame End and FRAME_END_TIMEOUT hand it to delivery, or drop it where it is malformed and ON_ERROR
drops. A packet that names no context, a burst with an SoT error and a header beyond correction are discarded and
counted; a receiver that is off sees nothing (R256, R257, R262, R266, R267, R268, R271). -/
def Obligations.PacketsBuildFrames : Prop :=
  ∀ (s : State) (rx : Fin 16) (h : CsiHead) (x : Fin 64) (r : Fin 8),
    (s.rxOn rx = true → s.vcContexts rx h = [x] → s.streamRing x = some r → (s.stream x).opened = none →
      (∀ frame, (s.stream x).commit = false → s.startCause r x false = 0 →
        ∃ t g, exec (.csiFrameStart rx h frame) s = .next t ∧ (t.stream x).opened = some g ∧ g.buffer = s.nextBuffer x ∧
          g.number = frame ∧ g.start = s.count 33 ∧ g.status = 0 ∧ g.count = 0 ∧ g.rows = 0 ∧
          (t.stream x).ready = (s.stream x).ready ∧ t.ringFlag r (s.bufferFlag x (s.nextBuffer x)) = false ∧
          t.fld (.feRxStatus rx) F.feRxStatus_ACTIVE = 1 ∧
          (h.fixed = true → t.fld (.feRxStatus rx) F.feRxStatus_ECC_FIXED = 1) ∧
          KeepsRegs [.feRxStatus rx] s t ∧ OnlyRing r s t ∧ t.cores = s.cores ∧ t.mwy = s.mwy ∧ t.dram = s.dram) ∧
      (∀ frame, (s.stream x).commit = false → s.startCause r x false ≠ 0 →
        ∃ t, exec (.csiFrameStart rx h frame) s = .next t ∧
          t.fld (.feStreamStatus x) F.feStreamStatus_LAST_DROP = s.startCause r x false ∧
          t.fld (.feStreamStatus x) F.feStreamStatus_DROPPED = 1 ∧
          t.fld (.feStreamDropped x) F.feStreamDropped_COUNT =
            plusOne (s.fld (.feStreamDropped x) F.feStreamDropped_COUNT) ∧
          OnlyRegs [.feRxStatus rx, .feStreamStatus x, .feStreamDropped x] s t) ∧
      (∀ frame, (s.stream x).commit = true → ∃ t, exec (.csiFrameStart rx h frame) s = .next t ∧
        (t.stream x).commit = false ∧ smRead 0 (t.stream x).ispActive 0 8192 = s.ispShadow x)) ∧
    (∀ f, s.rxOn rx = true → s.vcContexts rx h = [x] → (s.stream x).opened = some f →
      (∀ (dt : Byte) payload crcOk s1, s.feDt x = dt.toNat → f.count < s.feInH x → payload.length = s.feLineBytes x →
        s1 = (s.rxHead rx h).rxFlag rx F.feRxStatus_CRC_ERR (!crcOk) →
        ∃ t g, exec (.csiLongPacket rx h.vc h.vcExt h.fixed dt payload ⟨crcOk, false⟩) s = .next t ∧ (t.stream x).opened = some g ∧
          g.count = f.count + 1 ∧ g.sawLine = true ∧ g.buffer = f.buffer ∧
          g.lines = (if s.feIsp x then f.lines ++ [payload] else f.lines) ∧
          g.bad = f.bad + bitNat (!crcOk) ∧ g.status = (if crcOk then f.status else f.status ||| 2) ∧
          (crcOk = false → t.fld (.feRxStatus rx) F.feRxStatus_CRC_ERR = 1) ∧
          (s.feIsp x = true → g.rows = max (min (Config.ispRows (s.feDesc x) (f.count + 1)) (s.feOutH x)) f.rows ∧
            t.mwy = (s1.rowsPut x { g with rows := f.rows } (Config.ispRows (s.feDesc x) (f.count + 1))).1.mwy ∧
            t.dram.data =
              (s1.rowsPut x { g with rows := f.rows } (Config.ispRows (s.feDesc x) (f.count + 1))).1.dram.data) ∧
          (s.feIsp x = false → ∀ s2, s2 = s1.onStream x (fun k => { k with opened := some g }) →
            t.mwy = (s2.payloadPut x f.buffer (f.count * s.feLineBytes x) payload).mwy ∧
            t.dram.data = (s2.payloadPut x f.buffer (f.count * s.feLineBytes x) payload).dram.data)) ∧
      (∀ (dt : Byte) payload, s.feDt x = dt.toNat → s.feDropBad x = true → s.streamRing x = some r →
        ∃ t, exec (.csiLongPacket rx h.vc h.vcExt h.fixed dt payload ⟨true, true⟩) s = .next t ∧ (t.stream x).opened = none ∧
          (t.stream x).ready = (s.stream x).ready ∧ t.fld (.feRxStatus rx) F.feRxStatus_OVERFLOW = 1 ∧
          t.fld (.feStreamStatus x) F.feStreamStatus_LAST_DROP = 5 ∧
          Sends s t .feToConcourse (.setFlag r (s.bufferFlag x f.buffer))) ∧
      (∀ d s1, s1 = s.rxHead rx h → s.feTsSource x = 0 → f.sawLine = false → f.sawEmb = false →
        exec (.csiEmbeddedData rx h d true) s = .next (s1.onStream x fun k =>
          { k with opened := some { f with stamp := s1.embeddedStamp x d, sawEmb := true } })) ∧
      (s.feInH x ≤ f.count → (s.feDropBad x = false ∨ f.malformed = false) →
        ∃ t g, exec (.csiFrameEnd rx h) s = .next t ∧ (t.stream x).opened = none ∧
          (t.stream x).ready = (s.stream x).ready ++ [g] ∧ g.buffer = f.buffer ∧ g.number = f.number ∧ g.count = f.count ∧
          g.status = f.status ∧ SameCrossings s t ∧ (s.feIsp x = false → SameCompute s t)) ∧
      (s.feInH x ≤ f.count → s.feDropBad x = true → f.malformed = true → s.streamRing x = some r →
        ∃ t, exec (.csiFrameEnd rx h) s = .next t ∧ (t.stream x).opened = none ∧ (t.stream x).ready = (s.stream x).ready ∧
          t.fld (.feStreamStatus x) F.feStreamStatus_LAST_DROP = 3 ∧
          t.fld (.feStreamDropped x) F.feStreamDropped_COUNT =
            plusOne (s.fld (.feStreamDropped x) F.feStreamDropped_COUNT) ∧
          Sends s t .feToConcourse (.setFlag r (s.bufferFlag x f.buffer)) ∧ SameCompute s t) ∧
      (s.feInH x ≤ f.count → s.feDropBad x = false → ∃ t g, exec (.frameEndTimeout x) s = .next t ∧
        (t.stream x).opened = none ∧ (t.stream x).ready = (s.stream x).ready ++ [g] ∧ g.buffer = f.buffer ∧
        g.status = f.status ||| 32)) ∧
    (s.rxOn rx = true →
      (∃ t, exec (.csiSotError rx) s = .next t ∧ t.fld (.feRxStatus rx) F.feRxStatus_SOT_ERR = 1 ∧
        t.fld (.feRxDropped rx) F.feRxDropped_COUNT = plusOne (s.fld (.feRxDropped rx) F.feRxDropped_COUNT) ∧
        OnlyRegs [.feRxStatus rx, .feRxDropped rx] s t) ∧
      (∃ t, exec (.csiEccBad rx) s = .next t ∧ t.fld (.feRxStatus rx) F.feRxStatus_ECC_BAD = 1 ∧
        t.fld (.feRxDropped rx) F.feRxDropped_COUNT = plusOne (s.fld (.feRxDropped rx) F.feRxDropped_COUNT) ∧
        OnlyRegs [.feRxStatus rx, .feRxDropped rx] s t) ∧
      (s.vcContexts rx h = [] → ∀ c frame dt payload bytes, c ∈ [.csiFrameStart rx h frame, .csiFrameEnd rx h,
          .csiLongPacket rx h.vc h.vcExt h.fixed dt payload ⟨true, false⟩, .csiEmbeddedData rx h bytes true] →
        ∃ t, exec c s = .next t ∧ t.fld (.feRxStatus rx) F.feRxStatus_UNBOUND = 1 ∧
          t.fld (.feRxDropped rx) F.feRxDropped_COUNT = plusOne (s.fld (.feRxDropped rx) F.feRxDropped_COUNT) ∧
          OnlyRegs [.feRxStatus rx, .feRxDropped rx] s t)) ∧
    (s.rxOn rx = false → ∀ c frame dt payload bytes crcOk overflow, c ∈ [.csiFrameStart rx h frame, .csiFrameEnd rx h,
        .csiLongPacket rx h.vc h.vcExt h.fixed dt payload ⟨crcOk, overflow⟩, .csiEmbeddedData rx h bytes crcOk, .csiSotError rx,
        .csiEccBad rx] → exec c s = .next s)

/-- ENABLE of a stream context that passes every check: ENABLED, FRAME_SEQ and the counters 0, its release flags set;
one that fails is refused with the cause of the first failing row. COMMIT waits for Frame Start. A frame that is due
is delivered: its record, then DONE_FLAG, then the FRAME trigger; TS_WAIT_EXPIRY ends the wait of the oldest frame
that waits, FRAME_TIME gives a waiting frame its timestamp. A message of STREAM_DATA starts, fills and ends a frame.
DISABLE abandons the frames not delivered, and ends in DISABLED (R260, R263, R264, R268, R271, R308). -/
def Obligations.StreamsEnableDeliverAndDisable : Prop :=
  ∀ (s : State) (r : Fin 8) (x : Fin 64) (who : Who), s.streamRing x = some r →
    (Heard s r who → s.feCause x = 0 → ∃ t, exec (.streamEnable x who) s = .next t ∧ t.feState x = feEnabled ∧
      (t.stream x).frameSeq = 0 ∧ (t.stream x).opened = none ∧ (t.stream x).ready = [] ∧ (t.stream x).times = [] ∧
      (t.stream x).delivered = [] ∧ t.reg (.feStreamDropped x) = 0 ∧ t.reg (.feStreamTsLate x) = 0 ∧
      SendsAll s t .feToConcourse ((s.feReleases x).map fun n => .setFlag r n) ∧
      KeepsRegs [.feStreamStatus x, .feStreamDropped x, .feStreamTsLate x] s t ∧ SameCompute s t) ∧
    (Heard s r who → s.feCause x ≠ 0 → ∃ t, exec (.streamEnable x who) s = .next t ∧
      t.fld (.feStreamStatus x) F.feStreamStatus_REFUSE_CAUSE = s.feCause x ∧
      t.fld (.feStreamStatus x) F.feStreamStatus_REFUSED = 1 ∧ OnlyRegs [.feStreamStatus x] s t) ∧
    (Heard s r who → exec (.streamCommit x who) s = .next (s.onStream x fun k => { k with commit := true })) ∧
    (Heard s r who → s.feState x = feEnabled → ∃ t, exec (.streamDisable x who) s = .next t ∧ t.feState x = feDisabling ∧
      (t.stream x).opened = none ∧ (t.stream x).ready = [] ∧
      SendsAll s t .feToConcourse (((s.stream x).ready ++ (s.stream x).opened.toList).map
        fun f => .setFlag r (s.bufferFlag x f.buffer)) ∧ SameCompute s t) ∧
    (s.feState x = feDisabling → ∃ t, exec (.streamDisableDone x) s = .next t ∧ t.feState x = feDisabled ∧
      OnlyRegs [.feStreamStatus x] s t) ∧
    (∀ f rest, (s.stream x).ready = f :: rest → f.waitTs = false → ∃ t, exec (.frameDeliver x) s = .next t ∧
      (t.stream x).ready = rest ∧ (t.stream x).frameSeq = (s.stream x).frameSeq + 1 ∧
      (t.stream x).delivered = noteNumberOf f.number (s.stream x).delivered ∧
      SendsAll s t .feToConcourse [.setFlag r ⟨s.feDone x % 256, by omega⟩, .trigger r 2 x.val (f.stamp.getD 0)] ∧
      t.mwy = (s.fePut x f.buffer 0 (s.frameRecord x f)).mwy ∧
      t.dram.data = (s.fePut x f.buffer 0 (s.frameRecord x f)).dram.data ∧
      (f.stamp = none → t.fld (.feStreamStatus x) F.feStreamStatus_TS_MISSING = 1) ∧
      (f.marked = true → t.fld (.feStreamStatus x) F.feStreamStatus_MARKED = 1)) ∧
    (∀ f rest, (s.stream x).ready = f :: rest → f.waitTs = true → exec (.frameDeliver x) s = .next s ∧
      exec (.tsWaitExpiry x) s = .next (s.onStream x fun k => { k with ready := { f with waitTs := false } :: rest }) ∧
      ∀ (g : Frame) (y : Fin 64), WholeMessage s 0x08 g y → epRing y = r → g.payload.length = 4 →
        beAt g.payload 0 2 = x.val → BitVec.ofNat 16 (beAt g.payload 2 2) = f.number → s.feState x = feEnabled →
        ∃ t, exec (.frameTime g) s = .next (woken s t) ∧
          (t.stream x).ready = { f with stamp := some g.timestamp, waitTs := false } :: rest) ∧
    (∀ (g : Frame) (y : Fin 64) (s0 : State), s0 = arrived s g y → epRing y = r → WholeMessage s 0x07 g y →
      (s.ep y).reasm = [] → s0.ethContext r (epNo y) = some x →
      exec (.streamData g) s = .next (woken s (((s0.startFrame x (BitVec.ofNat 16 g.id.toNat)
        (s0.messageStamp x g.timestamp)).ethBytes x 0 g.payload).endFrame x .ended)))

/-- OPEN of a CLOSED session that passes its checks opens it for the writer's ring, one that fails leaves its CAUSE;
CLOSE closes it. A completed unit is stored, WPTR moves and DONE_FLAG follows; without room it is skipped, and the
next is intra. A unit is decoded and RPTR moves past it: its picture is held until it is shown, and then fills the
context's next buffer. While that buffer is not free no picture is shown and no unit taken; a parked ring, and a
picture too early, drop it. A header that is none moves RPTR to WPTR with cause 3, a stream beyond the decoder ends
the session in ERROR with cause 2 (R266, R273, R274, R276, R277, R278, R280; logs 53, 134). -/
def Obligations.CodecSessionsEncodeAndDecode : Prop :=
  ∀ (s : State) (r : Fin 8) (c : Fin 16) (who : Who),
    (s.cdcState c = cdcClosed → s.whoRing who = some r → Heard s r who →
      (s.cdcCheck r c = 0 → ∃ t, exec (.cdcOpen c who) s = .next t ∧ t.cdcState c = cdcOpened ∧ t.cdcRing c = r ∧
        t.fld (.cdcSessionStatus c) F.cdcSessionStatus_CAUSE = 0 ∧ t.reg (.cdcEncSkipped c) = 0 ∧ t.sessions[c] = {} ∧
        KeepsRegs [.cdcSessionStatus c, .cdcEncSkipped c] s t ∧ SameCompute s t ∧ SameCrossings s t) ∧
      (s.cdcCheck r c ≠ 0 → ∃ t, exec (.cdcOpen c who) s = .next t ∧ t.cdcState c = cdcClosed ∧
        t.fld (.cdcSessionStatus c) F.cdcSessionStatus_CAUSE = s.cdcCheck r c ∧ OnlyRegs [.cdcSessionStatus c] s t)) ∧
    (s.cdcState c ≠ cdcClosed → Heard s (s.cdcRing c) who → ∃ t, exec (.cdcClose c who) s = .next t ∧
      t.cdcState c = cdcClosed ∧ KeepsRegs [.cdcSessionStatus c] s t ∧ SameCompute s t ∧ SameCrossings s t) ∧
    (∀ (au : CodecUnit) (x : Fin 64) v rest, s.cdcState c = cdcOpened → s.cdcKind c = 1 → x.val = s.cdcContext c % 64 →
      (s.stream x).views = v :: rest →
      (∀ place, circlePlace (s.cdcSize c) (s.cdcW c) (s.cdcR c) (32 + 32 * ceilDiv au.bytes.length 32) = some place →
        ∃ t, exec (.encodeUnitDone c au) s = .next t ∧ t.reg (.cdcSessionWptr c) = BitVec.ofNat 32 place.2.1 ∧
          (t.stream x).views = rest ∧ t.sessions[c].skipped = false ∧ t.sessions[c].intra = false ∧ t.mwy = s.mwy ∧
          Sends s t .feToConcourse (.setFlag (s.cdcRing c) ⟨s.cdcDone c % 256, by omega⟩)) ∧
      (circlePlace (s.cdcSize c) (s.cdcW c) (s.cdcR c) (32 + 32 * ceilDiv au.bytes.length 32) = none →
        ∃ t, exec (.encodeUnitDone c au) s = .next t ∧ (t.stream x).views = rest ∧ t.sessions[c].skipped = true ∧
          t.sessions[c].intra = true ∧ SameCrossings s t ∧ SameCompute s t ∧
          t.fld (.cdcEncSkipped c) F.cdcEncSkipped_COUNT = plusOne (s.fld (.cdcEncSkipped c) F.cdcEncSkipped_COUNT) ∧
          KeepsRegs [.cdcEncSkipped c] s t)) ∧
    (∀ (picture : List Byte) (syntaxOk : Bool) (s1 : State) (h : List Byte), s.cdcState c = cdcOpened → s.cdcKind c = 2 →
      s.sessions[c].due = [] → s.cdcR c ≠ s.cdcW c → s.cdcGet c (s.cdcR c) 32 = (s1, h) → leAt h 16 1 ≠ 2 →
      (∀ supported shown, headerOk (s1.cdcAvail c) h = false →
        ∃ t, exec (.decodeUnit c picture ⟨supported, syntaxOk⟩ shown) s = .next t ∧
        t.cdcR c = s.cdcW c ∧ t.fld (.cdcSessionStatus c) F.cdcSessionStatus_CAUSE = 3 ∧ t.cdcState c = cdcOpened) ∧
      (∀ shown, headerOk (s1.cdcAvail c) h = true → ∃ t, exec (.decodeUnit c picture ⟨false, syntaxOk⟩ shown) s = .next t ∧
        t.cdcState c = cdcError ∧ t.fld (.cdcSessionStatus c) F.cdcSessionStatus_CAUSE = 2 ∧ t.cdcR c = s.cdcR c) ∧
      ∀ x, headerOk (s1.cdcAvail c) h = true → s1.pictureContext c = some x →
        (∃ t p, exec (.decodeUnit c picture ⟨true, syntaxOk⟩ []) s = .next t ∧ t.cdcR c =
            ((s1.cdcR c + 32 + 32 * ceilDiv (leAt h 12 4) 32) % s1.cdcSize c) % 2 ^ 32 ∧
          t.sessions[c].seq = s.sessions[c].seq + 1 ∧ t.sessions[c].held = s.sessions[c].held ++ [p] ∧
          p.bytes = picture ∧ p.seq = s.sessions[c].seq ∧ t.sessions[c].due = [] ∧ t.stream x = s1.stream x) ∧
        ∀ shown, shown = [s.sessions[c].held.length] →
          (s1.pictureWaits (s1.cdcRing c) x = false → s1.holdsWrites (s1.cdcRing c) = false → s1.tooEarly x = false →
            ∃ t g, exec (.decodeUnit c picture ⟨true, syntaxOk⟩ shown) s = .next t ∧
              t.sessions[c].seq = s.sessions[c].seq + 1 ∧ t.sessions[c].held = s.sessions[c].held ∧
              t.sessions[c].due = [] ∧ (t.stream x).opened = none ∧ (t.stream x).ready = (s1.stream x).ready ++ [g] ∧
              g.number = s.sessions[c].seq ∧ g.buffer = s1.nextBuffer x ∧
              t.ringFlag (s1.cdcRing c) (s1.bufferFlag x (s1.nextBuffer x)) = false) ∧
          (s1.holdsWrites (s1.cdcRing c) = true → ∃ t, exec (.decodeUnit c picture ⟨true, syntaxOk⟩ shown) s = .next t ∧
            t.fld (.feStreamStatus x) F.feStreamStatus_LAST_DROP = 4 ∧ t.sessions[c].seq = s.sessions[c].seq + 1 ∧
            (t.stream x).ready = (s1.stream x).ready) ∧
          (s1.pictureWaits (s1.cdcRing c) x = false → s1.holdsWrites (s1.cdcRing c) = false → s1.tooEarly x = true →
            ∃ t, exec (.decodeUnit c picture ⟨true, syntaxOk⟩ shown) s = .next t ∧
              t.fld (.feStreamStatus x) F.feStreamStatus_LAST_DROP = 2 ∧ (t.stream x).ready = (s1.stream x).ready) ∧
          (s1.pictureWaits (s1.cdcRing c) x = true → exec (.decodeUnit c picture ⟨true, syntaxOk⟩ shown) s = .next s1)) ∧
    ∀ picture supported syntaxOk shown x, s.cdcState c = cdcOpened → s.cdcKind c = 2 → s.sessions[c].due ≠ [] →
      s.pictureContext c = some x → s.pictureWaits (s.cdcRing c) x = true →
      exec (.decodeUnit c picture ⟨supported, syntaxOk⟩ shown) s = .next s

/-- OPEN of a CLOSED channel that passes its checks opens it in mode DEVICE with its release flags set; one that fails
is refused. CLOSE abandons what is staged and ends in CLOSED, or CLOSING while a sample is in progress. A sample whose
header passes R285 is staged, another is refused with its reason. SAMPLE_TAKE reserves the next buffer and, of a JPEG
sample, sets its budget; SAMPLE_DELIVER writes its planes and its record, sets DONE_FLAG and frees the slot; a sample
that is late, that the decoder rejects or that came incomplete leaves with its reason and count (R283, R285 to R291,
R294, R295). -/
def Obligations.SamplesAreStagedTakenAndDelivered : Prop :=
  ∀ (s : State) (r : Fin 8) (c : Fin 16) (who : Who),
    (s.smpState c = smpClosed → s.whoRing who = some r → Heard s r who →
      (s.smpCause r c = 0 → ∃ t, exec (.smpOpen c who) s = .next t ∧ t.smpState c = smpOpened ∧ t.smpRing c = r ∧
        t.smpAskHost c = false ∧ (t.chan c).samples = [] ∧ (t.chan c).seq = 0 ∧
        (t.chan c).history = List.replicate 16 (s.smpInit c) ∧ t.reg (.smpChanDelivered c) = 0 ∧
        t.reg (.smpChanRefused c) = 0 ∧ t.reg (.smpChanLate c) = 0 ∧
        SendsAll s t .smpToConcourse ((List.range (s.smpBuffers c)).map
          fun k => .setFlag r ⟨(s.smpRelease c + k) % 256, by omega⟩) ∧ SameCompute s t) ∧
      (s.smpCause r c ≠ 0 → ∃ t, exec (.smpOpen c who) s = .next t ∧ t.smpState c = smpClosed ∧
        t.fld (.smpChanStatus c) F.smpChanStatus_OPEN_CAUSE = s.smpCause r c ∧
        t.fld (.smpChanStatus c) F.smpChanStatus_OPEN_REFUSED = 1 ∧ OnlyRegs [.smpChanStatus c] s t)) ∧
    (s.smpState c = smpOpened → Heard s (s.smpRing c) who →
      ((s.chan c).samples = [] → ∃ t, exec (.smpClose c who) s = .next t ∧ t.smpState c = smpClosed ∧
        t.smpAskHost c = false ∧ SameCrossings s t ∧ SameCompute s t) ∧
      (∀ m, (s.chan c).samples = [m] → m.taken = none → ∃ t, exec (.smpClose c who) s = .next t ∧
        t.smpState c = smpClosed ∧ (t.chan c).samples = [] ∧ t.fld (.smpChanStatus c) F.smpChanStatus_LAST_REASON = 15 ∧
        t.fld (.smpChanRefused c) F.smpChanRefused_COUNT =
          plusOne (s.fld (.smpChanRefused c) F.smpChanRefused_COUNT)) ∧
      (∀ m, (s.chan c).samples = [m] → m.taken.isSome = true → ∃ t, exec (.smpClose c who) s = .next t ∧
        t.smpState c = smpClosing ∧ t.chan c = s.chan c ∧ SameCompute s t)) ∧
    (∀ (f : Frame) (y : Fin 64) (m : Sample), WholeMessage s 0x06 f y → f.id.toNat = c.val → s.smpState c = smpOpened →
      s.smpRing c = epRing y → s.smpEndpoint c = y.val % 8 → s.holdsWrites (epRing y) = false → 128 ≤ f.payload.length →
      m = ⟨0, f.msgId, part f.payload 0 64, part f.payload 64 64, [], none, 0⟩ →
      (∀ slot, s.sampleReason c m = 0 → s.freeStage c = some slot → f.payload.length ≤ 128 + m.bytes →
        ∃ t, exec (.sampleData f) s = .next (woken s t) ∧ (t.chan c).samples =
          (s.chan c).samples ++ [{ m with slot := slot, got := [(0, f.payload.length - 128)] }]) ∧
      (s.sampleReason c m ≠ 0 → ∃ t, exec (.sampleData f) s = .next (woken s t) ∧
        t.fld (.smpChanStatus c) F.smpChanStatus_LAST_REASON = s.sampleReason c m ∧
        t.fld (.smpChanStatus c) F.smpChanStatus_REFUSED = 1 ∧ (t.chan c).samples = (s.chan c).samples ∧
        t.fld (.smpChanRefused c) F.smpChanRefused_COUNT =
          plusOne (s.fld (.smpChanRefused c) F.smpChanRefused_COUNT))) ∧
    (∀ (f : Frame) (y : Fin 64), WholeMessage s 0x06 f y → f.id.toNat = c.val → s.smpState c ≠ smpOpened →
      ∃ t, exec (.sampleData f) s = .next (woken s t) ∧ Answered t y 0x06 f f.id stSmpState []) ∧
    (∀ m rest, (s.chan c).samples = m :: rest →
      (s.decoderBusy = false → s.decoderPick = some c → ∃ t, exec (.sampleTake true c) s = .next t ∧
        (t.chan c).samples = { m with taken := some (s.smpBuffer c), budget := s.smpBudget c m } :: rest ∧
        t.ringFlag (s.smpRing c) (s.smpFlag c (s.smpBuffer c)) = false ∧
        t.fld (.smpChanStatus c) F.smpChanStatus_BUSY = 1 ∧
        t.reg (.smpChanLastBudget c) = BitVec.ofNat 32 (s.smpBudget c m) ∧ t.smpNext = (c.val + 1) % 16 ∧
        KeepsRegs [.smpChanStatus c, .smpChanLastBudget c] s t ∧ t.cores = s.cores ∧ t.mwy = s.mwy) ∧
      (s.canTake c 1 = true → ∃ t, exec (.sampleTake false c) s = .next t ∧
        (t.chan c).samples = { m with taken := some (s.smpBuffer c), budget := 0 } :: rest ∧
        t.ringFlag (s.smpRing c) (s.smpFlag c (s.smpBuffer c)) = false ∧
        t.fld (.smpChanStatus c) F.smpChanStatus_BUSY = 1 ∧ KeepsRegs [.smpChanStatus c] s t)) ∧
    (∀ m k, s.smpCurrent c = some m → m.taken = some k →
      (∀ cycles sub planes s0 d, (m.kind = 0 → cycles < m.budget) → s.samplePlanes c m sub planes = (s0, d) →
        ∃ t, exec (.sampleDeliver c cycles ⟨sub, planes⟩) s = .next t ∧
        (t.chan c).samples = (s.chan c).samples.erase m ∧ (t.chan c).seq = (s.chan c).seq + 1 ∧
        t.fld (.smpChanStatus c) F.smpChanStatus_BUSY = 0 ∧
        t.fld (.smpChanDelivered c) F.smpChanDelivered_COUNT =
          plusOne (s.fld (.smpChanDelivered c) F.smpChanDelivered_COUNT) ∧
        Sends s t .smpToConcourse (.setFlag (s.smpRing c) ⟨s.smpDone c % 256, by omega⟩) ∧
        t.mwy = ((s0.putPlanes c m k d).smpPut c k 0 (cleanBytes
          (s.sampleRecord c m (if m.kind = 0 then cycles else 0) ++ m.aug ++ List.replicate 384 0))).mwy) ∧
      (m.kind = 0 → ∃ t, exec (.sampleLate c) s = .next t ∧ (t.chan c).samples = (s.chan c).samples.erase m ∧
        t.fld (.smpChanStatus c) F.smpChanStatus_LAST_REASON = 13 ∧ t.fld (.smpChanStatus c) F.smpChanStatus_LATE = 1 ∧
        t.fld (.smpChanLate c) F.smpChanLate_COUNT = plusOne (s.fld (.smpChanLate c) F.smpChanLate_COUNT) ∧
        Sends s t .smpToConcourse (.setFlag (s.smpRing c) ⟨(s.smpRelease c + k) % 256, by omega⟩)) ∧
      (∀ reason : Byte, m.kind = 0 → 10 ≤ reason.toNat → reason.toNat ≤ 12 →
        ∃ t, exec (.smpDecode c reason) s = .next t ∧ (t.chan c).samples = (s.chan c).samples.erase m ∧
          t.fld (.smpChanStatus c) F.smpChanStatus_LAST_REASON = reason.toNat ∧
          t.fld (.smpChanRefused c) F.smpChanRefused_COUNT =
            plusOne (s.fld (.smpChanRefused c) F.smpChanRefused_COUNT))) ∧
    ∀ (id : Word) m, ((s.chan c).samples.reverse.find? fun n => n.id == id.toNat && !n.whole) = some m →
      ∃ t, exec (.sampleChunkTimeout c id) s = .next t ∧ (t.chan c).samples = (s.chan c).samples.erase m ∧
        t.fld (.smpChanStatus c) F.smpChanStatus_LAST_REASON = 14 ∧
        t.fld (.smpChanRefused c) F.smpChanRefused_COUNT =
          plusOne (s.fld (.smpChanRefused c) F.smpChanRefused_COUNT)

/-! ## Registers and messages -/

/-- A register write by one with the right does what the register's write does: a plain register takes its RW bits and
clears the W1C bits written as 1, and no other register changes. A write of a place that is no register, or without
the right, has no effect; a ring that is parked holds the write. REG_READ and REG_WRITE answer each entry with its
value and status; a malformed body is FORMAT (R6, R7, R8, R56, R309, R311, R313). -/
def Obligations.RegistersAreReadAndWritten : Prop :=
  ∀ (s : State),
    (∀ (who : Who) (addr v : Word), (addr.toNat % 4 ≠ 0 ∨ Reg.ofAddr addr.toNat = none) →
      exec (.registerWrite who addr v) s = .next s) ∧
    (∀ (who : Who) (addr v : Word) (g : Reg) (r : Fin 8), addr.toNat % 4 = 0 → Reg.ofAddr addr.toNat = some g →
      s.writeRight who g = .ring (some r) → g ≠ .ringControl r →
      (Heard s r who → plainReg g → ∃ t, exec (.registerWrite who addr v) s = .next t ∧
        t.reg g = writtenWord g (s.reg g) (settled g v) ∧ OnlyRegs [g] s t) ∧
      (Heard s r who → exec (.registerWrite who addr v) s = .next (s.performWrite who g v).1) ∧
      (s.ringAccess r who = false → exec (.registerWrite who addr v) s = .next s) ∧
      (MayAsk s r who → s.holdsWrites r = true → who ≠ .booth → (s.ring r).held.length < 256 →
        ∃ t, exec (.registerWrite who addr v) s = .next t ∧ t.regs = s.regs ∧ OnlyRing r s t ∧
          ∃ h, (t.ring r).held = (s.ring r).held ++ [h] ∧ h.who = who ∧ h.value = v)) ∧
    (∀ (who : Who) (addr v : Word) (g : Reg), addr.toNat % 4 = 0 → Reg.ofAddr addr.toNat = some g →
      s.writeRight who g = .manage →
      (s.mayManage who = true → plainReg g → ∃ t, exec (.registerWrite who addr v) s = .next t ∧
        t.reg g = writtenWord g (s.reg g) (settled g v) ∧ OnlyRegs [g] s t) ∧
      (s.mayManage who = false → exec (.registerWrite who addr v) s = .next s)) ∧
    (∀ (f : Frame) (y : Fin 64) (s0 s1 : State) (v : Word) (st : Nat), s0 = arrived s f y → f.payload.length = 16 →
      beAt f.payload 0 2 = 1 → beAt f.payload 2 2 = 0 → s1.epBound y = true →
      (WholeMessage s 0x01 f y →
        s0.regRead (.ep (epRing y) (epNo y)) (BitVec.ofNat 32 (beAt f.payload 4 4)) = (s1, v, st) →
        ∃ t, exec (.regRead f) s = .next (woken s t) ∧
          Answered t y 0x01 f f.id st (f.payload.take 8 ++ beBytes 4 v.toNat ++ beBytes 1 st ++ beBytes 3 0)) ∧
      (WholeMessage s 0x02 f y → v = BitVec.ofNat 32 (beAt f.payload 8 4) →
        s0.regWrite (.ep (epRing y) (epNo y)) (BitVec.ofNat 32 (beAt f.payload 4 4)) v = (s1, st) →
        ∃ t, exec (.regWrite f) s = .next (woken s t) ∧ t.cores = s1.cores ∧ OnlySent s1 t ∧ t.mwy = s1.mwy ∧
          Answered t y 0x02 f f.id st (f.payload.take 8 ++ beBytes 4 v.toNat ++ beBytes 1 st ++ beBytes 3 0))) ∧
    ∀ (f : Frame) (y : Fin 64), within 1 64 (beAt f.payload 0 2) = false →
      (WholeMessage s 0x01 f y → ∃ t, exec (.regRead f) s = .next (woken s t) ∧ Answered t y 0x01 f f.id stFormat [] ∧
        t.cores = s.cores ∧ OnlySent s t ∧ t.mwy = s.mwy) ∧
      (WholeMessage s 0x02 f y → ∃ t, exec (.regWrite f) s = .next (woken s t) ∧ Answered t y 0x02 f f.id stFormat [] ∧
        t.cores = s.cores ∧ OnlySent s t ∧ t.mwy = s.mwy)

/-- INVOKE queues its invocation with its parameter block, or is answered why not. PARAM_WRITE writes its bytes, sets
its flag and is answered, or is held by a parked ring; MEM_READ is answered with the bytes. A message without a chunk
for 100 ms is dropped, a PARAM_WRITE answered INCOMPLETE, a frame of STREAM_DATA ended (R51, R114, R305, R306, R308,
R312, R313). -/
def Obligations.HostMessagesInvokeWriteAndRead : Prop :=
  ∀ (s : State) (f : Frame) (y : Fin 64) (s0 : State), s0 = arrived s f y →
    (WholeMessage s 0x03 f y → f.payload.length = 260 → beAt f.payload 0 1 < 32 → beAt f.payload 1 3 = 0 →
      (s.takesTriggers (epRing y) = true →
        ((s.ring (epRing y)).programs.any fun p => p.slot == beAt f.payload 0 1) = true →
        (s.pendingRoom (epRing y) = true → ∃ t, exec (.invoke f) s = .next (woken s t) ∧
          OnlySent (s.onRing (epRing y) fun k => { k with waiting := k.waiting ++ [⟨beAt f.payload 0 1, f.payload.drop 4,
            f.timestamp, some ⟨epNo y, 0x03, f.msgId, f.gen, f.id⟩, false⟩] }) t ∧ t.cores = s.cores ∧ t.mwy = s.mwy) ∧
        (s.pendingRoom (epRing y) = false → ∃ t, exec (.invoke f) s = .next (woken s t) ∧ OnlySent s t ∧
          Answered t y 0x03 f f.id stPendingFull [])) ∧
      (s.takesTriggers (epRing y) = false → ∃ t, exec (.invoke f) s = .next (woken s t) ∧ OnlySent s t ∧
        Answered t y 0x03 f f.id stRingState [])) ∧
    (∀ addr total flag, WholeMessage s 0x04 f y → addr = BitVec.ofNat 64 (beAt f.payload 0 8) →
      total = beAt f.payload 8 4 → flag = beAt f.payload 12 1 → f.payload.length = 16 + total → beAt f.payload 13 3 = 0 →
      0 < total → (flag = 0 ∨ 192 ≤ flag) → s.served (epRing y) = true → s.bufInside (epRing y) addr total = true →
      (∀ s1, s0.bufWrite (epRing y) addr 0 ((f.payload.drop 16).map fun b => (b, f.flags.getLsbD 2)) = (s1, true) →
        NoInternal s →
        (s.holdsWrites (epRing y) = false → ∃ t, exec (.paramWrite f) s = .next (woken s t) ∧ t.mwy = s1.mwy ∧
          t.dram.data = s1.dram.data ∧ Answered t y 0x04 f f.id stOk [] ∧
          SendsAll s t .ethToConcourse
            (if h : 0 < flag ∧ flag < 256 then [.setFlag (epRing y) ⟨flag, h.2⟩] else [])) ∧
        (s.holdsWrites (epRing y) = true → ∃ t, exec (.paramWrite f) s = .next (woken s t) ∧ t.mwy = s1.mwy ∧
          t.dram.data = s1.dram.data ∧ SameCrossings s t ∧ (t.ring (epRing y)).heldParams =
            (s.ring (epRing y)).heldParams ++ [⟨⟨epNo y, 0x04, f.msgId, f.gen, f.id⟩, flag⟩]))) ∧
    (∀ addr n, WholeMessage s 0x05 f y → addr = BitVec.ofNat 64 (beAt f.payload 0 8) → n = beAt f.payload 8 4 →
      f.payload.length = 16 → beAt f.payload 12 4 = 0 → 1 ≤ n → n ≤ 16777216 → s.served (epRing y) = true →
      (∀ s1 d, s.bufInside (epRing y) addr n = true → s0.bufRead (epRing y) addr 0 n = (s1, some d) →
        ∃ t, exec (.memRead f) s = .next (woken s t) ∧ Answered t y 0x05 f f.id stOk (rawBytes d) ∧ t.mwy = s1.mwy ∧
          SameCrossings s t) ∧
      (s.bufInside (epRing y) addr n = false → ∃ t, exec (.memRead f) s = .next (woken s t) ∧
        Answered t y 0x05 f f.id stAccessRange [] ∧ t.cores = s.cores ∧ OnlySent s t ∧ t.mwy = s.mwy)) ∧
    ∀ (r e : Fin 8) (m : Reassembly), s.reasmOf (epIx r e) m.msgId = some m →
      (m.type ∉ ([0x04, 0x06, 0x07, 0x0D] : List Byte) →
        exec (.reassemblyTimeout r e m.msgId) s = .next (s.dropReasm (epIx r e) m.msgId)) ∧
      (m.type = 0x04 → m.refused = false → s.epBound (epIx r e) = true →
        ∃ t, exec (.reassemblyTimeout r e m.msgId) s = .next t ∧ t.reasmOf (epIx r e) m.msgId = none ∧
          Replied t r (m.asker e) stIncomplete ∧ t.cores = s.cores ∧ t.mwy = s.mwy) ∧
      (∀ x, m.type = 0x07 → (s.dropReasm (epIx r e) m.msgId).ethContext r e = some x →
        exec (.reassemblyTimeout r e m.msgId) s = .next ((s.dropReasm (epIx r e) m.msgId).endFrame x .noEnd))

/-- ENABLE of a result stream that passes its checks enables it with no slot claimed, one that fails is refused;
DISABLE empties its slots. A READY slot of a PUSH stream is sent, and TAKEN when its last chunk has passed; of a
NOTICE stream it is announced. RESULT_READ returns a slot's content and takes it, or tells why there is none;
RESULT_RELEASE empties the slot that its SERIAL fits (R314, R317, R318, R319). -/
def Obligations.ResultsReachTheHost : Prop :=
  ∀ (s : State) (r : Fin 8) (x : Fin 16) (who : Who),
    (Heard s r who → s.rsEnabled (rsIx r x) = false → s.rsCause r x = 0 → ∃ t, exec (.rstreamEnable r x who) s = .next t ∧
      t.rsEnabled (rsIx r x) = true ∧ (t.ring r).claimed[x] = none ∧ (t.ring r).slots = (s.ring r).slots ∧
      KeepsRegs [.trsRstreamStatus (rsIx r x)] s t ∧ OnlyRing r s t ∧ t.cores = s.cores ∧ t.mwy = s.mwy) ∧
    (Heard s r who → s.rsEnabled (rsIx r x) = false → s.rsCause r x ≠ 0 →
      ∃ t, exec (.rstreamEnable r x who) s = .next t ∧ t.rsEnabled (rsIx r x) = false ∧
        t.fld (.trsRstreamStatus (rsIx r x)) F.trsRstreamStatus_REFUSE_CAUSE = s.rsCause r x ∧
        t.fld (.trsRstreamStatus (rsIx r x)) F.trsRstreamStatus_REFUSED = 1 ∧ OnlyRegs [.trsRstreamStatus (rsIx r x)] s t) ∧
    (Heard s r who → s.rsEnabled (rsIx r x) = true → ∃ t, exec (.rstreamDisable r x who) s = .next t ∧
      t.rsEnabled (rsIx r x) = false ∧ (∀ p ∈ (t.ring r).slots, p.2.stream ≠ x.val) ∧
      (∀ p ∈ (s.ring r).slots, p.2.stream ≠ x.val → p ∈ (t.ring r).slots) ∧
      KeepsRegs [.trsRstreamStatus (rsIx r x)] s t ∧ OnlyRing r s t ∧ t.cores = s.cores ∧ t.mwy = s.mwy) ∧
    (∀ n slot s1 d, s.dueResult r x false = some (n, slot) → n < 1024 → s.slotBytes r n slot = (s1, d) →
      (s1.ep (s.rsEp r x)).queue = [] → ∃ t, exec (.result r x) s = .next t ∧
        Told t (s.rsEp r x) 0x20 slot.invId (slotPrefix n slot false ++ rawBytes d) ∧
        (s.epInternal (s.rsEp r x) = false →
          slotOf (t.ring r) n = some { slot with state := .taken, notified := true }) ∧
        ((t.ep (s.rsEp r x)).queue ≠ [] → slotOf (t.ring r) n = some { slot with notified := true }) ∧
        t.cores = s1.cores ∧ t.mwy = s1.mwy) ∧
    (∀ n slot, s.dueResult r x true = some (n, slot) → (s.ep (s.rsEp r x)).queue = [] →
      ∃ t, exec (.resultNotice r x) s = .next t ∧ slotOf (t.ring r) n = some { slot with notified := true } ∧
      Told t (s.rsEp r x) 0x21 slot.invId (slotPrefix n slot false) ∧ t.cores = s.cores ∧ t.mwy = s.mwy) ∧
    ∀ (f : Frame) (y : Fin 64) (s0 : State), s0 = arrived s f y → epRing y = r → s.served r = true →
      (∀ n v s1 d, WholeMessage s 0x09 f y → f.payload.length = 4 → beAt f.payload 1 1 = 0 → beAt f.payload 0 1 < 16 →
        (beAt f.payload 2 2 < 1024 ∨ beAt f.payload 2 2 = 0xFFFF) →
        s0.readTarget r (beAt f.payload 0 1) (beAt f.payload 2 2) = .inl n → slotOf (s0.ring r) n = some v →
        s0.slotBytes r n v = (s1, d) → ∃ t, exec (.resultRead f) s = .next (woken s t) ∧
          slotOf (t.ring r) n = some { v with state := .taken, notified := true } ∧
          Answered t y 0x20 f v.invId 0 (slotPrefix n v (v.state == .taken) ++ rawBytes d)) ∧
      (∀ status, WholeMessage s 0x09 f y → f.payload.length = 4 → beAt f.payload 1 1 = 0 → beAt f.payload 0 1 < 16 →
        (beAt f.payload 2 2 < 1024 ∨ beAt f.payload 2 2 = 0xFFFF) →
        s0.readTarget r (beAt f.payload 0 1) (beAt f.payload 2 2) = .inr status →
        ∃ t, exec (.resultRead f) s = .next (woken s t) ∧ Answered t y 0x09 f f.id status [] ∧ OnlySent s t) ∧
      ∀ v, WholeMessage s 0x0A f y → f.payload.length = 8 → beAt f.payload 2 2 = 0 →
        slotOf (s0.ring r) (beAt f.payload 0 2) = some v →
        (v.serial = BitVec.ofNat 32 (beAt f.payload 4 4) → v.state ≠ .pending →
          ∃ t, exec (.resultRelease f) s = .next (woken s t) ∧ slotOf (t.ring r) (beAt f.payload 0 2) = none ∧
            Answered t y 0x0A f f.id stOk [] ∧ t.cores = s.cores ∧ t.mwy = s.mwy) ∧
        (v.serial ≠ BitVec.ofNat 32 (beAt f.payload 4 4) → ∃ t, exec (.resultRelease f) s = .next (woken s t) ∧
          OnlySent s t ∧ Answered t y 0x0A f f.id stStaleSlot [])

/-- MKA makes a SAK live, with packet numbers from 1 under a new one, or lost; each hello time sends an MKPDU, and
life times pass. PAUSE stops a port's transmission until its time is over; links and their quality are shown; dropped
frames are counted by cause. The internal endpoint's entries are taken one by one, and READ lets what waits go on. A
QUOTE_REQUEST for this device is answered with the quote, or with why not; a KEY_WRAP that passes installs its key
(R298, R300, R301, R302, R322, R323, R427, R429, R430). -/
def Obligations.PortsKeysAndQuotes : Prop :=
  ∀ (s : State),
    (∀ (f : Frame) (y : Fin 64), s.judge 0 f = .mka y → s.mkaRuns y = true →
      ((s.ep y).queue = [] → ∀ newSak, ∃ t, exec (.mkaFrame f ⟨true, newSak⟩) s = .next t ∧
        t.fld (.trsEpStatus y) F.trsEpStatus_KEY_LIVE = 1 ∧ (t.ep y).pn = (if newSak then 1 else (s.ep y).pn) ∧
        (t.ep y).rxNext = (if newSak then 1 else (s.ep y).rxNext) ∧ SameCompute s t ∧ SameCrossings s t) ∧
      (∀ newSak, ∃ t, exec (.mkaFrame f ⟨false, newSak⟩) s = .next t ∧
        t.fld (.trsEpStatus y) F.trsEpStatus_KEY_LIVE = 0 ∧ t.eps = s.eps ∧ SameCompute s t)) ∧
    (∀ r e : Fin 8,
      (s.mkaRuns (epIx r e) = true → ∃ t m, exec (.mkaHelloTime r e) s = .next t ∧
        (t.ep (epIx r e)).mkpdus = (s.ep (epIx r e)).mkpdus + 1 ∧
        t.wire[s.epPort (epIx r e)] = s.wire[s.epPort (epIx r e)] ++ [m] ∧ m.dst = mkaGroup ∧
        m.src = s.boot.macs[s.epPort (epIx r e)] ∧ m.etherType = 0x888E ∧ m.packet = none ∧ t.regs = s.regs ∧
        SameCompute s t) ∧
      (s.epSecured (epIx r e) = true → ∃ t, exec (.mkaLifeTimeExpiry r e) s = .next t ∧
        t.fld (.trsEpStatus (epIx r e)) F.trsEpStatus_KEY_LIVE = 0 ∧ OnlyRegs [.trsEpStatus (epIx r e)] s t)) ∧
    (∀ p : Fin 4, s.portOn p = true →
      (∀ quanta, quanta ≠ 0 → ∃ t, exec (.pauseFrame p quanta) s = .next t ∧
        t.fld (.ethPortStatus p) F.ethPortStatus_PAUSED = 1 ∧
        t.fld (.ethPortCount p 0) F.ethPortCount_COUNT = plusOne (s.fld (.ethPortCount p 0) F.ethPortCount_COUNT) ∧
        OnlyRegs [.ethPortStatus p, .ethPortCount p 0] s t) ∧
      (∃ t, exec (.pauseFrame p 0) s = .next t ∧ t.fld (.ethPortStatus p) F.ethPortStatus_PAUSED = 0 ∧
        t.cores = s.cores ∧ OnlySent s t ∧ t.mwy = s.mwy) ∧
      (∀ up quality, ∃ t, exec (.ethPortLink p up quality) s = .next t ∧
        t.fld (.ethPortStatus p) F.ethPortStatus_LINK = bitNat up ∧
        t.fld (.ethPortStatus p) F.ethPortStatus_QUALITY = quality.val ∧ OnlyRegs [.ethPortStatus p] s t)) ∧
    (∀ p : Fin 4, ∃ t, exec (.pauseTimeExpiry p) s = .next t ∧ t.fld (.ethPortStatus p) F.ethPortStatus_PAUSED = 0 ∧
      t.cores = s.cores ∧ OnlySent s t ∧ t.mwy = s.mwy) ∧
    (∀ (f : Frame) (type : Byte) (p : Fin 4) (k : Fin 5) (full : Bool), f.via = .port p → s.judge type f = .drop k → k ≠ 0 →
      ∃ t, exec (.ethFrameDrop f type full) s = .next t ∧
        t.fld (.ethPortCount p 0) F.ethPortCount_COUNT = plusOne (s.fld (.ethPortCount p 0) F.ethPortCount_COUNT) ∧
        t.fld (.ethPortCount p (if full then 4 else k)) F.ethPortCount_COUNT =
          plusOne (s.fld (.ethPortCount p (if full then 4 else k)) F.ethPortCount_COUNT) ∧
        OnlyRegs [.ethPortCount p 0, .ethPortCount p (if full then 4 else k)] s t) ∧
    (∀ s1 write read, s.internalBound = true → s.intLine 0 = (s1, write, read) →
      (read = write → exec .intInboundPoll s = .next s1) ∧
      ∀ s2 place, read ≠ write → (s1.takeEntry read).intLine 0 = (s2, place, place) → exec .intInboundPoll s = .next s2) ∧
    (∀ read : Word, s.internalBound = true → (∀ x : Fin 64, s.epInternal x = true → (s.ep x).queue = []) →
      exec (.intOutboundReadAdvance read) s = .next (s.ownWrite .app (s.intBase + 0x44) (leBytes 4 read.toNat))) ∧
    (∀ read : Word, s.internalBound = false → exec .intInboundPoll s = .next s ∧
      exec (.intOutboundReadAdvance read) s = .next s) ∧
    ∀ (f : Frame) (y : Fin 64) (s0 : State), s0 = arrived s f y →
      (WholeMessage s 0x10 f y → quoteForm f.payload = true → leAt f.payload 0 1 = 0xFF →
        (s0.quoteStatus = stOk → ∃ t, exec (.quoteRequest f) s = .next (woken s t) ∧
          t.sec.quotes = (shaBytes (s0.quote (part f.payload 4 32)) :: s.sec.quotes).take 8 ∧
          Answered t y 0x10 f f.id stOk (s0.quoteBody (part f.payload 4 32)) ∧ t.cores = s.cores ∧ OnlySent s t) ∧
        (s0.quoteStatus ≠ stOk → ∃ t, exec (.quoteRequest f) s = .next (woken s t) ∧ t.sec = s.sec ∧
          Answered t y 0x10 f f.id s0.quoteStatus [])) ∧
      (WholeMessage s 0x11 f y →
        (∀ k status, s0.wrapResult (epRing y) (epNo y) (!f.macsec) f.payload = (status, some k) →
          ∃ t, exec (.keyWrap f) s = .next (woken s t) ∧
            (t.ep y).cak = some (beBytes 32 k.toNat, part f.payload 36 (leAt f.payload 32 1)) ∧ (t.ep y).pn = 1 ∧
            t.fld (.trsEpStatus y) F.trsEpStatus_KEY_LIVE = 0 ∧ t.fld .secEvent F.secEvent_KEY_INSTALLED = 1 ∧
            Answered t y 0x11 f f.id stOk []) ∧
        ∀ status, s0.wrapResult (epRing y) (epNo y) (!f.macsec) f.payload = (status, none) →
          ∃ t, exec (.keyWrap f) s = .next (woken s t) ∧ t.fld .secEvent F.secEvent_KEY_REFUSED = 1 ∧
            (t.ep y).cak = (s.ep y).cak ∧ Answered t y 0x11 f f.id status [])

/-! ## Trapeze -/

/-- A WRITE or READ for this device that its window admits is done there, counted and answered; one that the window
table refuses is counted and leaves memory alone. A packet for another device enters the FIFO towards the port that it
leaves by, and the port's island sends it from there. A reply ends its request. LINK frees what it acknowledges;
REPLAY_TIMEOUT sends the unacknowledged packets again, and after 8 times retrains; the ACK timer sends a LINK packet;
a bad packet is answered with one NAK, and the codewords of its FEC are counted (R325, R328 to R331, R334, R338, R340,
R344). -/
def Obligations.PacketsCrossTheLinks : Prop :=
  ∀ (s : State) (p : Fin 4) (q : Packet),
    (∀ (s0 : State) (w : Fin 256), s0 = (s.countFec p q.corrected).accepted p kWrite q → Traffic s p kWrite q →
      w.val = q.window.toNat → s.routeTo q.dst.toNat = .here →
      (∀ s1, s0.windowCheck kWrite q w = 0 →
        s0.windowWrite w q.offset.toNat ((q.data.take q.bytes.toNat).map fun b => (b, q.attr.getLsbD 3)) = (s1, true) →
        q.attr.getLsbD 4 = false → ∃ t s2, exec (.trapezeWrite p q) s = .next t ∧
          t = s2.sendTo p (s2.answer kWrite q rmOk []) ∧
          s2.fld (.trzWindowCount w 0) F.trzWindowCount_COUNT = plusOne (s.fld (.trzWindowCount w 0) F.trzWindowCount_COUNT) ∧
          OnlyRegs [.trzWindowCount w 0] s1 s2) ∧
      (∀ s1 (n : Fin 256), s0.windowCheck kWrite q w = 0 →
        s0.windowWrite w q.offset.toNat ((q.data.take q.bytes.toNat).map fun b => (b, q.attr.getLsbD 3)) = (s1, true) →
        q.attr.getLsbD 4 = true → n.val = s.fld (.trzWindowAttr w) F.trzWindowAttr_FLAG → 0 < n.val →
        s.fld (.trzWindowAttr w) F.trzWindowAttr_LAG = 0 → ∃ t, exec (.trapezeWrite p q) s = .next t ∧
          Sends s t (.trzToConcourse p) (.setFlag (s.windowRing w) n) ∧ t.mwy = s1.mwy) ∧
      (s0.windowCheck kWrite q w ≠ 0 → ∃ t, exec (.trapezeWrite p q) s = .next t ∧ SameCompute s t ∧
        t.fld (.trzWindowCount w 1) F.trzWindowCount_COUNT =
          plusOne (s.fld (.trzWindowCount w 1) F.trzWindowCount_COUNT))) ∧
    (∀ (s0 : State) (w : Fin 256), s0 = (s.countFec p q.corrected).accepted p kRead q → Traffic s p kRead q →
      w.val = q.window.toNat → s.routeTo q.dst.toNat = .here →
      (∀ s1 d, s0.windowCheck kRead q w = 0 → s0.windowRead w q.offset.toNat q.bytes.toNat = (s1, some d) →
        ∃ t s2, exec (.trapezeRead p q) s = .next t ∧ t = s2.sendTo p (s1.answer kRead q rmOk d) ∧
          OnlyRegs [.trzWindowCount w 0] s1 s2 ∧
          s2.fld (.trzWindowCount w 0) F.trzWindowCount_COUNT =
            plusOne (s.fld (.trzWindowCount w 0) F.trzWindowCount_COUNT)) ∧
      (s0.windowCheck kRead q w ≠ 0 → ∃ t, exec (.trapezeRead p q) s = .next t ∧ SameCompute s t ∧
        t.fld (.trzWindowCount w 1) F.trzWindowCount_COUNT =
          plusOne (s.fld (.trzWindowCount w 1) F.trzWindowCount_COUNT))) ∧
    (∀ o : Fin 4, s.routeTo q.dst.toNat = .out o → (s.port p).rx = [] → (s.port p).waiting = [] →
      s.crossFull (.trzToTrz p o 0) = false →
      (Traffic s p kWrite q → ∃ t, exec (.trapezeWrite p q) s = .next t ∧
        Sends s t (.trzToTrz p o 0) (.packet ⟨kWrite, q⟩) ∧ (t.port p).rx = [] ∧
        (t.port p).owed[(0 : Fin 3)] = (s.port p).owed[(0 : Fin 3)] + flitsOf q ∧ SameCompute s t ∧
        KeepsRegs [.trzPortCount p 0] s t) ∧
      (Traffic s p kRead q → ∃ t, exec (.trapezeRead p q) s = .next t ∧
        Sends s t (.trzToTrz p o 0) (.packet ⟨kRead, q⟩) ∧ (t.port p).rx = [] ∧
        (t.port p).owed[(0 : Fin 3)] = (s.port p).owed[(0 : Fin 3)] + flitsOf q ∧ SameCompute s t ∧
        KeepsRegs [.trzPortCount p 0] s t)) ∧
    (∀ (o : Fin 4) (v : Fin 3) (x : TxPacket) rest, s.clockRuns (s.receiver (.trzToTrz p o v)) = true →
      takeCross (.trzToTrz p o v) s.cross = some (.packet x, rest) → s.viaPort o = .out o → s.portTalks o = true →
      canSend (s.port o) x = true → (s.port p).rx = [] → ∃ t y, exec (.crossingDeliver (.trzToTrz p o v)) s = .next t ∧
        Drains s t (.trzToTrz p o v) ∧ (t.port o).sent = (s.port o).sent ++ [y] ∧ y.kind = x.kind ∧
        y.body.dst = x.body.dst ∧ y.body.txn = x.body.txn ∧ y.body.data = x.body.data ∧ y.body.seq = (s.port o).txSeq ∧
        y.body.crc = packetCrc y.kind y.body ∧ t.regs = s.regs ∧ SameCompute s t) ∧
    (∀ (s0 s1 : State) (m : RemoteReq) (r : Fin 8), s.routeTo q.dst.toNat = .here →
      s.trz.remotes.find? (fun x => x.txn == q.txn) = some m → s.ringOfCore m.core = some r → q.status.toNat = rmOk →
      s1 = ({ s0 with trz := { s0.trz with remotes := s0.trz.remotes.filter fun x => x.txn != q.txn } } : State).onDma m.core
        (fun b => { b with wait := b.wait - 1 }) →
      (Traffic s p kWriteAck q → s0 = (s.countFec p q.corrected).accepted p kWriteAck q → m.write = true →
        exec (.writeAck p q) s = .next s1.askAll) ∧
      (Traffic s p kReadData q → s0 = (s.countFec p q.corrected).accepted p kReadData q → m.write = false →
        exec (.readData p q) s = .next (s1.deliver r m (padTo m.bytes (0, false) (replyBytes q))).askAll)) ∧
    (∀ (m : RemoteReq) (r : Fin 8), s.trz.remotes.find? (fun x => x.txn == m.txn) = some m → s.ringOfCore m.core = some r →
      ∃ t, exec (.remoteTimeout m.txn) s = .next t ∧ t.fld .trzRemoteStatus F.trzRemoteStatus_LOST = 1) ∧
    (∀ i, s.portHears p = true → packetOk kLink q = true → q.attr.getLsbD 5 = false → (s.port p).waiting = [] →
      (s.port p).replay.findIdx? (fun x => x.body.seq == q.ack) = some i → ∃ t, exec (.link p q) s = .next t ∧
        (t.port p).replay = (s.port p).replay.drop (i + 1) ∧ (t.port p).resends = (s.port p).resends.drop (i + 1) ∧
        (t.port p).retrains = 0 ∧ (t.port p).sent = (s.port p).sent ∧ KeepsRegs [.trzPortCount p 0] s t ∧
        SameCompute s t) ∧
    (s.portTalks p = true →
      ((s.port p).replay ≠ [] → (∀ n ∈ (s.port p).resends, n < 8) → ∃ t, exec (.replayTimeout p) s = .next t ∧
        (t.port p).sent = (s.port p).sent ++ (s.port p).replay.map
          (fun x => { x with body := sealPacket x.kind { x.body with ack := (s.port p).expect - 1 } }) ∧
        (t.port p).replay = (s.port p).replay ∧ (t.port p).resends = (s.port p).resends.map (· + 1) ∧
        t.fld (.trzPortCount p 2) F.trzPortCount_COUNT =
          min (s.fld (.trzPortCount p 2) F.trzPortCount_COUNT + (s.port p).replay.length) (2 ^ 32 - 1) ∧ SameCompute s t) ∧
      (∀ n, (s.port p).replay ≠ [] → n ∈ (s.port p).resends → 8 ≤ n → ∃ t, exec (.replayTimeout p) s = .next t ∧
        t.portState p = ptTraining ∧ (t.port p).linkUp = false ∧ (t.port p).retrains = (s.port p).retrains + 1 ∧
        t.fld (.trzPortCount p 3) F.trzPortCount_COUNT = plusOne (s.fld (.trzPortCount p 3) F.trzPortCount_COUNT)) ∧
      ∃ t x, exec (.linkAckTimer p) s = .next t ∧ (t.port p).sent = (s.port p).sent ++ [x] ∧ x.kind = kLink ∧
        x.body.ack = (s.port p).expect - 1 ∧ x.body.attr = 0 ∧ x.body.seq = 0 ∧ t = { s with trz := t.trz }) ∧
    (∀ n m, s.portHears p = true → ∃ t, exec (.trapezeBadPacket ⟨p, n, m⟩) s = .next t ∧
      t.fld (.trzPortCount p 0) F.trzPortCount_COUNT =
        min (s.fld (.trzPortCount p 0) F.trzPortCount_COUNT + n) (2 ^ 32 - 1) ∧
      t.fld (.trzPortCount p 1) F.trzPortCount_COUNT =
        min (s.fld (.trzPortCount p 1) F.trzPortCount_COUNT + m) (2 ^ 32 - 1) ∧
      (t.port p).expect = (s.port p).expect ∧ (t.port p).nakSent = true ∧
      ((s.port p).nakSent = true → t.trz = s.trz) ∧
      ((s.port p).nakSent = false → ∃ x, (t.port p).sent = (s.port p).sent ++ [x] ∧ x.kind = kLink ∧ x.body.attr = 32) ∧
      KeepsRegs [.trzPortCount p 0, .trzPortCount p 1] s t ∧ SameCompute s t)

/-- A port whose lanes lock exchanges HELLO, and with a fitting peer comes UP, with another is ROLE_ERR, and without a
lock DOWN. The manager numbers its tree downlink by downlink, READY where there is none; a worker takes its number and
numbers its own; what does not answer is EXCLUDED. SYSTEM makes a worker READY, DETACH DETACHED; RENUMBER and
REDISCOVER begin again, and close the windows of a worker. A relayed quote goes to its asker; windows open, close and
end (R326, R327, R332, R333, R335, R337, R341). -/
def Obligations.TreesAreNumberedAndWindowsOpen : Prop :=
  ∀ (s : State) (p : Fin 4) (q : Packet),
    (∀ n m, s.inTraining p = true → s.trzIdle = false →
      (∃ t, exec (.portTrained p false n m) s = .next t ∧ t.portState p = ptDown ∧ (t.port p).linkUp = false ∧
        (t.port p).replay = [] ∧
        t.fld (.trzPortCount p 1) F.trzPortCount_COUNT =
          min (s.fld (.trzPortCount p 1) F.trzPortCount_COUNT + m) (2 ^ 32 - 1)) ∧
      ((s.port p).peer = none → ∃ t, exec (.portTrained p true n m) s = .next t ∧ t.portState p = s.portState p ∧
        (t.port p).locked = true ∧ (t.port p).helloSent = true ∧ SameCompute s t ∧
        t.fld (.trzPortCount p 0) F.trzPortCount_COUNT =
          min (s.fld (.trzPortCount p 0) F.trzPortCount_COUNT + n) (2 ^ 32 - 1) ∧
        KeepsRegs [.trzPortCount p 0, .trzPortCount p 1, .trzPortCount p 2] s t) ∧
      (∀ role, (s.port p).peer = some role → rolesFit (s.portRole p) role = true → (s.port p).retrains < 3 →
        ∃ t, exec (.portTrained p true n m) s = .next t ∧
          t.portState p = (if (s.port p).excluded then ptExcluded else ptUp) ∧ (t.port p).linkUp = true ∧
          SameCompute s t ∧ KeepsRegs [.trzPortStatus p, .trzPortCount p 0, .trzPortCount p 1, .trzPortCount p 2] s t) ∧
      (∀ role, (s.port p).peer = some role → rolesFit (s.portRole p) role = false →
        ∃ t, exec (.portTrained p true n m) s = .next t ∧ t.portState p = ptRoleErr ∧ SameCompute s t ∧
          KeepsRegs [.trzPortStatus p, .trzPortCount p 0, .trzPortCount p 1, .trzPortCount p 2] s t)) ∧
    (∀ s0, Arrives s p kMessage q → s0 = (s.countFec p q.corrected).accepted p kMessage q →
      (s.inTraining p = false → exec (.hello p q) s = .next (s0.sendHello p)) ∧
      (s.inTraining p = true → rolesFit (s.portRole p) (msgByte q 2) = true → (s.port p).locked = true →
        (s.port p).retrains < 3 → ∃ t, exec (.hello p q) s = .next t ∧
          t.portState p = (if (s.port p).excluded then ptExcluded else ptUp) ∧ (t.port p).linkUp = true ∧
          (t.port p).helloSent = true ∧ SameCompute s t ∧ KeepsRegs [.trzPortStatus p, .trzPortCount p 0] s t) ∧
      (s.inTraining p = true → rolesFit (s.portRole p) (msgByte q 2) = true → (s.port p).locked = false →
        ∃ t, exec (.hello p q) s = .next t ∧ t.portState p = s.portState p ∧ (t.port p).peer = some (msgByte q 2) ∧
          (t.port p).helloSent = true ∧ SameCompute s t ∧ KeepsRegs [.trzPortCount p 0] s t) ∧
      (s.inTraining p = true → rolesFit (s.portRole p) (msgByte q 2) = false → ∃ t, exec (.hello p q) s = .next t ∧
        t.portState p = ptRoleErr ∧ SameCompute s t ∧ KeepsRegs [.trzPortStatus p, .trzPortCount p 0] s t)) ∧
    (s.isManager = true → s.trzState = trzDiscovering → s.trz.numbering = none →
      ((∀ d, s.isDownlink d = true → s.portState d ≠ ptUp) → ∃ t, exec .numberingStart s = .next t ∧
        t.trzState = trzReady ∧ t.deviceNo = 0 ∧ t.fld .trzSystemStatus F.trzSystemStatus_COUNT = 1 ∧ t.depth = 0 ∧
        (∀ d, s.isDownlink d = true → t.portState d = ptExcluded) ∧ SameCompute s t) ∧
      ∀ d, (s.downlinks.find? fun d => s.portState d == ptUp) = some d → ∃ t, exec .numberingStart s = .next t ∧
        t.trzState = trzDiscovering ∧ t.deviceNo = 0 ∧ t.trz.numbering = some d ∧ t.trz.nextFirst = 1 ∧
        t.trz.limit = 127 ∧ SameCompute s t) ∧
    (Arrives s p kMessage q → s.fromParent p = true → s.trzState = trzDiscovering → msgByte q 2 < 128 → msgByte q 1 < 4 →
      (∀ d, s.isDownlink d = true → s.portState d ≠ ptUp) → ∃ t, exec (.number p q) s = .next t ∧
        t.deviceNo = msgByte q 2 ∧ t.depth = msgByte q 1 + 1 ∧ t.trz.numbering = none ∧
        t.trz.nextFirst = msgByte q 2 + 1 ∧ SameCompute s t) ∧
    (Arrives s p kMessage q → s.trz.numbering = some p → 1 ≤ msgByte q 1 → s.trz.nextFirst + msgByte q 1 ≤ 128 →
      ∃ t, exec (.numbered p q) s = .next t ∧
        t.fld (.trzPortStatus p) F.trzPortStatus_FIRST = s.trz.nextFirst ∧
        t.fld (.trzPortStatus p) F.trzPortStatus_LAST = s.trz.nextFirst + msgByte q 1 - 1 ∧
        t.fld (.trzPortStatus p) F.trzPortStatus_SUBTREE_VALID = 1 ∧ t.trz.nextFirst = s.trz.nextFirst + msgByte q 1 ∧
        SameCompute s t) ∧
    (s.trz.numbering = some p → ∃ t, exec (.numberedTimeout p) s = .next t ∧ t.portState p = ptExcluded ∧
      t.trz.numbering ≠ some p ∧ SameCompute s t) ∧
    (Arrives s p kMessage q → s.fromParent p = true →
      (s.trzState = trzDiscovering → s.depth ≠ 0 → ∃ t, exec (.system p q) s = .next t ∧ t.trzState = trzReady ∧
        t.fld .trzSystemStatus F.trzSystemStatus_COUNT = msgByte q 1 ∧ t.deviceNo = s.deviceNo ∧ SameCompute s t) ∧
      (∃ t, exec (.detach p q) s = .next t ∧ t.trzState = trzDetached ∧ t.deviceNo = 0 ∧ t.depth = 0 ∧
        KeepsRegs [.trzSystemStatus, .trzPortCount p 0] s t ∧ SameCompute s t) ∧
      ∃ t, exec (.renumber p q) s = .next t ∧ t.trzState = trzDiscovering ∧ t.deviceNo = 0 ∧
        ∀ w, s.fld (.trzWindowStatus w) F.trzWindowStatus_STATE = 1 →
          t.fld (.trzWindowStatus w) F.trzWindowStatus_STATE = 2) ∧
    (∀ who : Who, who ≠ .booth →
      (s.isManager = true → (∀ d, s.isDownlink d = true → (s.port d).linkUp = false ∧ s.portState d ≠ ptUp) →
        ∃ t, exec (.rediscover who) s = .next t ∧ t.trzState = trzReady ∧ t.deviceNo = 0 ∧
          t.fld .trzSystemStatus F.trzSystemStatus_COUNT = 1 ∧ SameCompute s t) ∧
      (s.isManager = false → exec (.rediscover who) s = .next s)) ∧
    (∀ x nonce s0, Traffic s p kMessage q → s.routeTo q.dst.toNat = .here →
      s0 = (s.countFec p q.corrected).accepted p kMessage q →
      nonce = part ((part q.data 0 q.bytes.toNat).drop 1) 4 32 →
      (s.isManager = false → quoteForm ((part q.data 0 q.bytes.toNat).drop 1) = true → s0.quoteStatus = stOk →
        ∃ t, exec (.quoteRelay p q) s = .next t ∧ t.sec.quotes = (shaBytes (s0.quote nonce) :: s.sec.quotes).take 8 ∧
          SameCompute s t) ∧
      (s.isManager = true → s.trz.relays.find? (fun y => y.device == q.src) = some x → q.status = 0 →
        quoteWhole (x.body ++ (part q.data 0 q.bytes.toNat).drop 1) = true → s.epBound (epIx x.ring x.asker.endpoint) = true →
        ∃ t, exec (.quoteRelay p q) s = .next t ∧ t.trz.relays = s.trz.relays.erase x ∧ Replied t x.ring x.asker stOk)) ∧
    (∀ x, s.trz.relays.find? (fun y => y.device == x.device) = some x → s.epBound (epIx x.ring x.asker.endpoint) = true →
      ∃ t, exec (.quoteRelayTimeout x.device) s = .next t ∧ t.trz.relays = s.trz.relays.erase x ∧
        Replied t x.ring x.asker stIncomplete ∧ t.cores = s.cores ∧ t.mwy = s.mwy) ∧
    ∀ (w : Fin 256) (r : Fin 8) (who : Who),
      (s.windowOwner w = some r → Heard s r who →
        (s.windowCause r w = 0 → s.fld (.trzWindowAttr w) F.trzWindowAttr_LAG = 0 → ∃ t, exec (.windowOpen w who) s = .next t ∧
          t.fld (.trzWindowStatus w) F.trzWindowStatus_STATE = 1 ∧ t.reg (.trzWindowCount w 0) = 0 ∧
          t.reg (.trzWindowCount w 1) = 0 ∧ OnlyRegs [.trzWindowStatus w, .trzWindowCount w 0, .trzWindowCount w 1] s t) ∧
        (s.windowCause r w ≠ 0 → ∃ t, exec (.windowOpen w who) s = .next t ∧
          t.fld (.trzWindowStatus w) F.trzWindowStatus_REFUSE_CAUSE = s.windowCause r w ∧
          t.fld (.trzWindowStatus w) F.trzWindowStatus_REFUSED = 1 ∧ OnlyRegs [.trzWindowStatus w] s t) ∧
        (s.fld (.trzWindowStatus w) F.trzWindowStatus_STATE = 1 → ∃ t, exec (.windowClose w who) s = .next t ∧
          t.fld (.trzWindowStatus w) F.trzWindowStatus_STATE = 2 ∧ OnlyRegs [.trzWindowStatus w] s t)) ∧
      (s.fld (.trzWindowStatus w) F.trzWindowStatus_STATE = 2 → ∃ t, exec (.windowCloseDone w) s = .next t ∧
        t.fld (.trzWindowStatus w) F.trzWindowStatus_STATE = 0 ∧ OnlyRegs [.trzWindowStatus w] s t)

/-! ## Reset, boot and flash -/

/-- PORESET_N, SYSRESET_N, the detectors and the REFCLK check put every island in reset; what ends the last of them
starts the device: it is deferred under a boundary-scan instruction; else the security processor's counter starts from
zero and the ROM stops in Scrapped, waits where DEBUG_EPOCH cannot be written, listens in Blank or without an anchor
or a slot, and chooses a slot: the start of a PENDING one is counted in its header first, and after three it is marked
FAILED; a CONFIRMED one is handed over to if its digests match, and marked FAILED if not. The flash part is found in
1S-1S-1S, switched to octal DDR and its on-die ECC off (R350, R354, R356, R369, R424, R465, R470, R471, R472, R476). -/
def Obligations.ResetsStartTheRom : Prop :=
  ∀ (s : State),
    (∃ t, exec .poresetAssert s = .next t ∧ InReset s t ∧ t.pins.poreset = true ∧ t.boot.owesEpoch = true ∧
      t.pins.tapIr = s.pins.tapIr) ∧
    (∃ t, exec .sysresetAssert s = .next t ∧ InReset s t ∧ t.pins.sysreset = true ∧ t.boot.owesEpoch = s.boot.owesEpoch ∧
      t.pins.tapIr = s.pins.tapIr) ∧
    (∀ rail, s.pins.rails.getLsbD (railBit rail) = false →
      (rail = .aon → ∃ t, exec (.railDetectFall rail) s = .next t ∧ InReset s t ∧ t.boot.owesEpoch = true ∧
        t.pins.tapIr = 0x01 ∧ t.pins.rails.getLsbD 0 = true) ∧
      (rail ≠ .aon → s.boot.phase ≠ .deepStandby → ∃ t, exec (.railDetectFall rail) s = .next t ∧ InReset s t ∧
        t.boot.owesEpoch = s.boot.owesEpoch ∧ t.pins.rails.getLsbD (railBit rail) = true)) ∧
    (∀ n, s.countsEdges = true →
      (s.pins.refReset = false → badWindow n = true → 1 ≤ s.pins.refBad →
        ∃ t, exec (.refclkWindow n) s = .next t ∧ InReset s t ∧ t.pins.refReset = true ∧ t.alert = true) ∧
      (s.pins.refReset = false → badWindow n = true → s.pins.refBad = 0 →
        exec (.refclkWindow n) s = .next { s with pins := { s.pins with refBad := 1 } }) ∧
      (s.pins.refReset = false → badWindow n = false →
        exec (.refclkWindow n) s = .next { s with pins := { s.pins with refBad := 0 } }) ∧
      (s.pins.refReset = true → badWindow n = true →
        exec (.refclkWindow n) s = .next { s with pins := { s.pins with refGood := 0 } }) ∧
      (s.pins.refReset = true → badWindow n = false → s.pins.refGood < 9 →
        exec (.refclkWindow n) s = .next { s with pins := { s.pins with refGood := s.pins.refGood + 1 } })) ∧
    (s.boot.phase ≠ .deepStandby → s.inStandby = true → ∃ t, exec .wakeNAssert s = .next t ∧
      t.fld .secStatus F.secStatus_POWER = 0 ∧ OnlyRegs [.secStatus] s t) ∧
    ∀ (c : Instr) (s0 : State), Starting s c s0 →
      (s0.heldReset = true → exec c s = .next s0) ∧
      (s0.heldReset = false → tapHolds s0.pins.tapIr = true →
        exec c s = .next { s0 with pins := { s0.pins with deferred := 1 } }) ∧
      (s0.heldReset = false → tapHolds s0.pins.tapIr = false →
        (s0.lifecycle = lcScrapped → ∃ t, exec c s = .next t ∧ t.boot.phase = .stopped ∧ t.flash = s0.flash ∧
          t.sec.store = s0.sec.store ∧ t.cycles = s0.cycles.set 42 0 ∧ t.pins.deferred = 0) ∧
        (s0.lifecycle ≠ lcScrapped → s0.boot.owesEpoch = true → s0.sec.aonLow = true → ∃ t, exec c s = .next t ∧
          t.boot.phase = .romHeld ∧ t.fld .secEvent F.secEvent_STORE_HELD = 1 ∧ t.sec.store = s0.sec.store ∧
          t.flash = s0.flash ∧ t.cycles = s0.cycles.set 42 0) ∧
        ∀ s1, (s0.boot.owesEpoch = false ∨ s0.sec.aonLow = false) → s0.lifecycle ≠ lcScrapped →
          s1 = s0.started.romStore.released →
          (s1.boot.owesEpoch = false ∧ s1.flash.octal = true ∧ s1.flash.jesd216 = true ∧ s1.flash.onDieEcc = false ∧
            s1.pins.flashReset = false) ∧
          (s0.lifecycle = lcBlank → ∃ t, exec c s = .next t ∧ t.boot.phase = .listener ∧ t.boot.recCause = 3 ∧
            t.boot.session = none ∧ t.boot.owesEpoch = false ∧ t.fld .secStatus F.secStatus_FULL = 1 ∧ t.flash = s1.flash) ∧
          (s0.lifecycle ≠ lcBlank → s1.anchorRecord = none → ∃ t, exec c s = .next t ∧
            t.boot.phase = .listener ∧ t.boot.recCause = 2 ∧ t.boot.owesEpoch = false) ∧
          ∀ m s2, s0.lifecycle ≠ lcBlank → s1.anchorRecord = some m → s2 = (s1.romPrepare m).romRead →
            (s2.chooseSlot = none → ∃ t, exec c s = .next t ∧ t.boot.phase = .listener ∧ t.boot.recCause = 1) ∧
            ∀ k tie l h, s2.chooseSlot = some (k, tie) → l = (s2.slotSet k).getD [] → h = s2.header k →
              (h.state = 3 → s2.slotDigests k l = true → ∃ t, exec c s = .next t ∧ t.boot.phase = .handedOver ∧
                t.boot.romLocked = true ∧ t.fld .bootStatus F.bootStatus_STAGE = 1 ∧
                t.fld .bootStatus F.bootStatus_SLOT = k.val ∧ t.fld .bootStatus F.bootStatus_TRIAL = 0 ∧
                t.fld .bootStatus F.bootStatus_TIE = bitNat tie ∧ t.reg .bootVersion = h.version ∧
                t.boot.mSec = shaBytes ((l.getD 0 (0, [])).2.take 512) ∧
                t.boot.mDeploy = shaBytes ((l.getD 2 (0, [])).2.take 512)) ∧
              (h.state = 3 → s2.slotDigests k l = false → ∃ t, exec c s = .next t ∧ t.boot.phase = .romHeld ∧
                FlashJob.header k (s2.failedHeader k 1) (.fallen k 1) ∈ t.flash.queue) ∧
              (h.state = 2 → h.trials = 3 → ∃ t, exec c s = .next t ∧ t.boot.phase = .romHeld ∧
                FlashJob.header k (s2.failedHeader k 4) (.fallen k 4) ∈ t.flash.queue) ∧
              (h.state = 2 → h.trials ≠ 3 → ∃ t, exec c s = .next t ∧ t.boot.phase = .romHeld ∧
                FlashJob.header k { h with trials := h.trials + 1 } (.trial k tie) ∈ t.flash.queue))

/-- The booth's bring-up tests cores and slices and trains DRAM: it halts with ALERT_N where none is usable; otherwise
it writes the first AVSBus voltage; under a recovery image it ends there; a bad directory fails every ring; else the
application cores run and every ring with a manifest is LOADING. A DEPLOYMENT that fails has the header of its slot on
its way into the flash as FAILED with the cause, and the restart follows that write (R76, R166, R192, R360 to R362,
R464). -/
def Obligations.BringUpLoadsTheRings : Prop :=
  ∀ (s : State) (found : Vector (List Nat) 16) (confined : BitVec 16) (slicesBad : BitVec 8) (d : DramTraining) (s1 : State),
    s.boot.phase = .handedOver → s.fld .bootStatus F.bootStatus_STAGE = 1 →
    s1 = s.flashReady.selfTest found confined slicesBad →
    (∀ s2, s1.dramUp d = (s2, false) → ∃ t, exec (.boothBringUp found confined slicesBad d) s = .next t ∧
      t.fld .bootStatus F.bootStatus_STAGE = 7 ∧ t.fld .bootStatus F.bootStatus_HALT_CAUSE = 1 ∧ t.alert = true ∧
      t.fld .ddrStatus F.ddrStatus_FAILED = 1 ∧
      (∀ c : Fin 16, t.fld (.coreMemStatus c) F.coreMemStatus_INIT_DONE = 1 ∧ (t.core c).mem = [] ∧
        (t.core c).memBad = [] ∧ (t.core c).memFlips = []) ∧ t.mwy = [] ∧ t.mwyBad = [] ∧ t.mwyFlips = [] ∧
      ∀ m : Fin 8, t.fld (.mwySliceStatus m) F.mwySliceStatus_RETIRED = bitNat (slicesBad.getLsbD m.val) ∧
        t.fld (.mwySliceStatus m) F.mwySliceStatus_INIT_DONE = 1) ∧
    ∀ s2 s3, s1.dramUp d = (s2, true) → s3 = s2.applyRecords.firstVoltage →
      (s3.inRecovery = true → ∃ t, exec (.boothBringUp found confined slicesBad d) s = .next t ∧ t.bootDone = true ∧
        t.rings = s3.rings ∧ t.power.vReq = Config.firstVolt.val) ∧
      ∀ k p image s4, s3.inRecovery = false → k = s3.runningSlot → p = ((s3.slotSet k).getD []).getD 2 (0, []) →
        image = s3.slotContainer k p →
        s4 = ((s3.readPages (slotArea k) (s3.containerPages k [p])).setFld .bootStatus F.bootStatus_STAGE 4).copyDeployment
          image →
        (s3.deployCause image = 0 → s4.dirOk = false → ∃ t, exec (.boothBringUp found confined slicesBad d) s = .next t ∧
          t.bootDone = true ∧ t.boot.dirBad = true ∧ ∀ r : Fin 8, t.ringState r = stFailed ∧
            t.fld (.ringManifestStatus r) F.ringManifestStatus_CAUSE = cauFormat) ∧
        (s3.deployCause image = 0 → s4.dirOk = true → (∀ r : Fin 8, (s4.ring r).bound = false) →
          ∃ t, exec (.boothBringUp found confined slicesBad d) s = .next t ∧ t.boot.appRunning = true ∧
            ∀ r : Fin 8, s4.startApp.logIgnored.manifestsOf r.val ≠ [] → t.ringState r = stLoading) ∧
        (∀ cause, s3.deployCause image = cause → cause ≠ 0 →
          ∃ t, exec (.boothBringUp found confined slicesBad d) s = .next t ∧ t.bootDone = false ∧
            FlashJob.header k (s3.failedHeader k cause) (.restart k cause) ∈ t.flash.queue)

/-- CONFIRM stops the net, writes the store where VDD_AON allows and puts the CONFIRMED header of the running slot
into the flash's queue; where the net's count has reached zero the expiry governs. The expiry puts the FAILED header
before every other write, or resets the device. INSTALL puts a set that passes its checks into the queue for the other
slot, whose PENDING header follows once it reads back. A read of the locked ROM is answered with zero and counted. The
recovery listener announces, takes one session's image in order, and starts it where it verifies (R351, R357, R358,
R359, R363, R365, R366, R367, R386). -/
def Obligations.ImagesAreConfirmedInstalledAndRecovered : Prop :=
  ∀ (s : State) (who : Who) (f : RecFrame),
    (s.mayManage who = true → s.inRecovery = false → s.fld .bootStatus F.bootStatus_CONFIRMING = 0 →
      (s.header s.runningSlot).state ≠ 3 →
      (s.netOver = false → s.sec.aonLow = false → ∀ s1, s1 = s.confirmStart.confirmStore →
        ∃ t, exec (.confirm who) s = .next t ∧ t.fld .bootStatus F.bootStatus_CONFIRMING = 1 ∧
          t.fld .bootNet F.bootNet_ARMED = 0 ∧ t.boot.netStopped = true ∧ t.sec.store = s1.sec.store ∧
          FlashJob.header s1.runningSlot { s1.header s1.runningSlot with state := 3 } .confirmed ∈ t.flash.queue ∧
          SameCompute s t) ∧
      (s.netOver = false → s.sec.aonLow = true → ∃ t, exec (.confirm who) s = .next t ∧
        t.fld .bootStatus F.bootStatus_CONFIRMING = 1 ∧ t.fld .bootNet F.bootNet_ARMED = 0 ∧ t.boot.netStopped = true ∧
        t.fld .secEvent F.secEvent_STORE_HELD = 1 ∧ t.sec.store = s.sec.store ∧ t.flash = s.flash) ∧
      (s.netOver = true → exec (.confirm who) s = exec .safetyNetExpiry s)) ∧
    (s.mayManage who = true → (s.inRecovery = true ∨ (s.fld .bootStatus F.bootStatus_CONFIRMING = 0 ∧
      (s.header s.runningSlot).state = 3)) → exec (.confirm who) s = .next s) ∧
    (s.mayManage who = false → ∀ c ∈ ([.confirm who, .restart who, .install who] : List Instr), exec c s = .next s) ∧
    (s.netCounts = true →
      ((s.inRecovery = true ∨ s.inhibited = true) → exec .safetyNetExpiry s = .next s.resetDevice.startUp) ∧
      (s.inRecovery = false → s.inhibited = false → ∃ t, exec .safetyNetExpiry s = .next t ∧
        t.fld .bootNet F.bootNet_ARMED = 0 ∧ t.boot.netLeft = 0 ∧
        t.flash.queue.head? = some (.header s.runningSlot (s.failedHeader s.runningSlot 3) .expired) ∧ SameCompute s t)) ∧
    (s.netCounts = false → exec .safetyNetExpiry s = .next s) ∧
    (s.mayManage who = true →
      (s.boot.install.isSome = true → ∃ t, exec (.install who) s = .next t ∧
        t.fld .bootInstallStatus F.bootInstallStatus_CAUSE = 12 ∧ t.fld .bootEvent F.bootEvent_INSTALL_REFUSED = 1 ∧
        OnlyRegs [.bootInstallStatus, .bootEvent] s t) ∧
      (s.boot.install = none → s.fld .bootStatus F.bootStatus_TRIAL = 1 → ∃ t, exec (.install who) s = .next t ∧
        t.fld .bootInstallStatus F.bootInstallStatus_CAUSE = 10 ∧ t.fld .bootEvent F.bootEvent_INSTALL_REFUSED = 1 ∧
        OnlyRegs [.bootInstallStatus, .bootEvent] s t) ∧
      ∀ s1 bytes cause total version, s.boot.install = none → s.fld .bootStatus F.bootStatus_TRIAL = 0 →
        s.staged who (s.reg64 (.bootInstallSrc 0) (.bootInstallSrc 1)).toNat (s.reg .bootInstallLen).toNat =
          (s1, some bytes) → s1.installCause bytes = (cause, total, version) →
        (cause = 0 → ∃ t i, exec (.install who) s = .next t ∧ t.boot.install = some i ∧ i.slot = s1.installSlot ∧
          i.length = total ∧ i.version = BitVec.ofNat 32 version ∧
          t.fld .bootInstallStatus F.bootInstallStatus_STATE = 2 ∧
          (∃ h, FlashJob.header i.slot h .plain ∈ t.flash.queue ∧ h.state = 1 ∧ h.version = i.version) ∧
          ∀ n page, (page, n) ∈ (chunksOf 4096 (total / 4096 + 1) (bytes.take total)).zipIdx →
            FlashJob.install n page ∈ t.flash.queue) ∧
        (cause ≠ 0 → ∃ t, exec (.install who) s = .next t ∧ t.boot.install = none ∧
          t.fld .bootInstallStatus F.bootInstallStatus_CAUSE = cause ∧
          t.fld .bootEvent F.bootEvent_INSTALL_REFUSED = 1 ∧ t.flash = s1.flash)) ∧
    (∀ i readBackOk, s.boot.install = some i → s.installWaits i.slot = false →
      (readBackOk = true → s.readsBack i.slot = true → ∃ t, exec (.installComplete readBackOk) s = .next t ∧
        t.boot.install = some i ∧
        FlashJob.header i.slot ⟨2, 0, 0, i.version, i.seq, 0, BitVec.ofNat 32 i.length⟩ .installed ∈ t.flash.queue) ∧
      ((readBackOk && s.readsBack i.slot) = false → ∃ t, exec (.installComplete readBackOk) s = .next t ∧
        t.boot.install = none ∧ t.fld .bootInstallStatus F.bootInstallStatus_STATE = 3 ∧
        t.fld .bootInstallStatus F.bootInstallStatus_CAUSE = 11 ∧ t.fld .bootEvent F.bootEvent_INSTALL_REFUSED = 1)) ∧
    (∀ requester, s.boot.romLocked = true → ∃ t, exec (.romRead requester) s = .next t ∧
      t.boot.romReply = some (requester, 0) ∧
      t.fld .bootRomReads F.bootRomReads_COUNT = plusOne (s.fld .bootRomReads F.bootRomReads_COUNT) ∧
      t.fld .bootEvent F.bootEvent_ROM_READ = 1 ∧ SameCompute s t) ∧
    (s.listening = true → s.boot.session = none →
      (∃ p, exec .announce s = .next (s.toWire 2 (s.recFrame (BitVec.allOnes 48) 1 0 0 0 p)) ∧ p.length = 14 ∧
        p.getD 0 0 = BitVec.ofNat 8 s.boot.recCause) ∧
      (recHeard 2 f = true → beAt f.payload 0 4 ≤ recMax →
        exec (.begin f) s = .next (s.setSession (some ⟨f.session, beAt f.payload 0 4, 0⟩))) ∧
      (recHeard 2 f = true → recMax < beAt f.payload 0 4 →
        exec (.begin f) s = .next (s.toWire 2 (s.recFrame f.src 6 f.session 0 rsSize [])))) ∧
    (∀ x, s.inSession 3 f = some x →
      (f.offset.toNat = x.next → x.next + f.payload.length ≤ x.total → ∃ t, exec (.data f) s = .next t ∧
        t.boot.session = some { x with next := x.next + f.payload.length } ∧
        t.wire = s.wire.set 2 (s.wire[2] ++ [s.recFrame f.src 4 x.session (x.next + f.payload.length) 0 []]) ∧
        t.mwy = smWrite 0 s.mwy x.next f.payload ∧ t.cores = s.cores ∧ t.rings = s.rings ∧ t.dram = s.dram) ∧
      (f.offset.toNat ≠ x.next →
        exec (.data f) s = .next (s.toWire 2 (s.recFrame f.src 4 x.session x.next 0 [])))) ∧
    (∀ x image, s.inSession 5 f = some x → image = smRead 0 s.mwy 0 x.total →
      (s.recoveryStatus x image = rsOk → ∃ t, exec (.endRecoveryImage f) s = .next t ∧ t.boot.phase = .handedOver ∧
        t.boot.romLocked = true ∧ t.inRecovery = true ∧ t.fld .bootNet F.bootNet_ARMED = 1 ∧
        t.boot.netLeft = trialSeconds image * 100000000 ∧ t.boot.session = none ∧
        t.wire = s.wire.set 2 (s.wire[2] ++ [s.recFrame f.src 6 x.session x.next rsOk []])) ∧
      (s.recoveryStatus x image ≠ rsOk → ∃ t, exec (.endRecoveryImage f) s = .next t ∧ t.boot.phase = s.boot.phase ∧
        t.boot.session = none ∧ t.mwy = s.mwy ∧
        t.wire = s.wire.set 2 (s.wire[2] ++ [s.recFrame f.src 6 x.session x.next (s.recoveryStatus x image) []]))) ∧
    (s.listening = true → exec .recoverySessionTimeout s = .next { s with boot := { s.boot with session := none } })

/-- A record that passes its checks waits for its place in the journal under a SEQ above every other; one that fails
ends with its cause. A program that completes puts its bytes and tag into its page, an erase leaves the block erased
and one older, or retired at 50,000, a failure retires the block; then follows what the write was for. Reads are
corrected, counted, scheduled for refresh or rescue, or found uncorrectable, also by the scan. Log entries are
programmed 128 to a page. PWR_WARN_N, VDD_IO18 and the floor inhibit writes until they resume; what waits for 10 s
ends (R350, R372, R373, R381 to R387). -/
def Obligations.FlashOperationsComplete : Prop :=
  ∀ (s : State) (who : Who),
    (∀ s1 s2 h e, s.mayManage who = true → s.flash.record = none →
      s.staged who (s.reg64 (.flsRecordSrc 0) (.flsRecordSrc 1)).toNat 16 = (s1, some h) → leAt h 2 2 ≤ 8192 →
      s1.staged who (s.reg64 (.flsRecordSrc 0) (.flsRecordSrc 1)).toNat (16 + leAt h 2 2) = (s2, some e) →
      ((within 1 4 (leAt e 0 1) && entrySound e) = true → s2.goodBlocks arJournal ≠ [] →
        ∃ t seq, exec (.writeRecord who) s = .next t ∧ t.flash.record = some (leAt e 0 1) ∧
          (∀ x ∈ s2.entries arJournal, x.seq < seq) ∧
          FlashJob.append arJournal (chunksOf 4096 4 (journalBytes (leAt e 0 1) 1 seq (e.drop 16))) false .record ∈
            t.flash.queue ∧
          t.fld .flsRecordStatus F.flsRecordStatus_STATE = 1 ∧ t.fld .flsRecordStatus F.flsRecordStatus_CAUSE = 0) ∧
      ((within 1 4 (leAt e 0 1) && entrySound e) = true → s2.goodBlocks arJournal = [] →
        ∃ t, exec (.writeRecord who) s = .next t ∧ t.flash.record = none ∧ t.flash.queue = s2.flash.queue ∧
          t.fld .flsRecordStatus F.flsRecordStatus_STATE = 2 ∧ t.fld .flsRecordStatus F.flsRecordStatus_CAUSE = 3) ∧
      ((within 1 4 (leAt e 0 1) && entrySound e) = false → ∃ t, exec (.writeRecord who) s = .next t ∧ t.flash = s2.flash ∧
        t.fld .flsRecordStatus F.flsRecordStatus_STATE = 2 ∧ t.fld .flsRecordStatus F.flsRecordStatus_CAUSE = 1)) ∧
    (∀ job pg tag bytes s1, pg / 128 < s.flashBlocks → s.flash.running = some (job, .program pg tag bytes) →
      s1 = s.flashIdle.programPage pg tag bytes →
      (endsThere job = true → ∃ t, exec (.flashOpDone (.program pg true)) s = .next t ∧
        t.flash.main = smWrite 0xFF s.flash.main (4096 * pg) (pageOf bytes) ∧
        t.flash.tags = smSet erasedTag s.flash.tags pg tag ∧ SameCompute s t) ∧
      (∀ k h, job = .header k h .confirmed → ∃ t, exec (.flashOpDone (.program pg true)) s = .next t ∧
        t.fld .bootStatus F.bootStatus_CONFIRMING = 0 ∧ t.fld .bootStatus F.bootStatus_TRIAL = 0 ∧
        t.fld .bootEvent F.bootEvent_CONFIRMED = 1 ∧ t.fld .bootNet F.bootNet_ARMED = 0 ∧ t.boot.netLeft = 0) ∧
      (∀ k h, job = .header k h .installed → ∃ t, exec (.flashOpDone (.program pg true)) s = .next t ∧
        t.boot.install = none ∧ t.fld .bootInstallStatus F.bootInstallStatus_STATE = 3 ∧
        t.fld .bootInstallStatus F.bootInstallStatus_CAUSE = 0 ∧ t.fld .bootEvent F.bootEvent_INSTALLED = 1) ∧
      (∀ k h g tie s2 l, job = .header k h (.trial g tie) → s2 = (s1.dropJob job).showSlots → l = (s2.slotSet g).getD [] →
        s2.slotDigests g l = true → (s2.header g).state = 2 → ∃ t, exec (.flashOpDone (.program pg true)) s = .next t ∧
          t.boot.phase = .handedOver ∧ t.fld .bootStatus F.bootStatus_SLOT = g.val ∧
          t.fld .bootStatus F.bootStatus_TRIAL = 1 ∧ t.fld .bootNet F.bootNet_ARMED = 1 ∧ t.boot.netStopped = false ∧
          t.boot.netLeft = trialSeconds (l.getD 0 (0, [])).2 * 100000000) ∧
      (∀ k h g cause, job = .header k h (.fallen g cause) → ∃ t, exec (.flashOpDone (.program pg true)) s = .next t ∧
        t.fld .bootEvent F.bootEvent_FELL_BACK = 1) ∧
      (∀ k h, job = .header k h .expired → s.goodBlocks arLog ≠ [] →
        ∃ t, exec (.flashOpDone (.program pg true)) s = .next t ∧
          FlashJob.append arLog (chunksOf 4096 4 (logEntry s.flash.logSeq 1 4 s.runningSlot.val 3)) false .reset ∈
            t.flash.queue) ∧
      (∀ k h g cause, job = .header k h (.restart g cause) → s.goodBlocks arLog ≠ [] →
        ∃ t, exec (.flashOpDone (.program pg true)) s = .next t ∧ t.fld .bootEvent F.bootEvent_FELL_BACK = 1 ∧
          FlashJob.append arLog (chunksOf 4096 4 (logEntry s.flash.logSeq logBooth 4 g.val cause)) false .restart ∈
            t.flash.queue) ∧
      (∀ p fresh, job = .append arLog [p] fresh .reset → exec (.flashOpDone (.program pg true)) s =
        .next ((s1.dropJob job).resetDevice.startUp).flashIssue) ∧
      (∀ p fresh, job = .append arLog [p] fresh .restart → exec (.flashOpDone (.program pg true)) s =
        .next ((s1.dropJob job).restartDevice.startUp).flashIssue) ∧
      (endsThere job = true → ∃ t, exec (.flashOpDone (.program pg false)) s = .next t ∧ pg / 128 ∈ t.flash.badBlocks ∧
        SameCompute s t)) ∧
    (∀ job b f pg, pg / 128 = f → f < s.flashBlocks → s.flash.running = some (job, .copy b f) → endsThere job = true →
      (∃ t, exec (.flashOpDone (.program pg true)) s = .next t ∧ SameCompute s t ∧
        ∀ a : Nat, a / 524288 ≠ f → smGet 0xFF t.flash.main a = smGet 0xFF s.flash.main a) ∧
      ∃ t, exec (.flashOpDone (.program pg false)) s = .next t ∧ f ∈ t.flash.badBlocks ∧ t.flash.main = s.flash.main ∧
        SameCompute s t) ∧
    (∀ job b, b < s.flashBlocks → s.flash.running = some (job, .erase b) →
      (s.erasesOf b < 50000 → ∃ t, exec (.flashOpDone (.erase b true)) s = .next t ∧ t.erasesOf b = s.erasesOf b + 1 ∧
        (∀ a : Nat, smGet 0xFF t.flash.main a = if a / 524288 = b then 0xFF else smGet 0xFF s.flash.main a) ∧
        (∀ pg : Nat, t.pageTag pg = if pg / 128 = b then erasedTag else s.pageTag pg) ∧ SameCompute s t) ∧
      (50000 ≤ s.erasesOf b → ∃ t, exec (.flashOpDone (.erase b true)) s = .next t ∧ b ∈ t.flash.badBlocks ∧
        SameCompute s t) ∧
      ∃ t, exec (.flashOpDone (.erase b false)) s = .next t ∧ b ∈ t.flash.badBlocks ∧ t.flash.main = s.flash.main ∧
        SameCompute s t) ∧
    (∀ op, s.flash.running = none → opBlock op < s.flashBlocks →
      (∀ pg area wear noise, op ≠ .read pg area wear noise) → exec (.flashOpDone op) s = .next s) ∧
    (∀ pg area wear noise s1, pg / 128 < s.flashBlocks → s1 = s.wear pg wear → s1.pageErased pg = false →
      (noise.toList.findSome? (s1.readTry pg) = none →
        ∃ t, exec (.flashOpDone (.read pg area wear noise)) s = .next t ∧ t.flash.main = s.flash.main ∧
          t.flash.flips = s1.flash.flips ∧ t.fld .flsStatus F.flsStatus_UNCORRECTABLE = 1 ∧
          t.fld (.flsCount 1) F.flsCount_COUNT = plusOne (s.fld (.flsCount 1) F.flsCount_COUNT) ∧
          FlashJob.refresh (pg / 128) true ∈ t.flash.queue) ∧
      ∀ n, noise.toList.findSome? (s1.readTry pg) = some n →
        ∃ t, exec (.flashOpDone (.read pg area wear noise)) s = .next t ∧ t.flash.main = s.flash.main ∧
          t.flash.flips = s1.flash.flips ∧
          t.fld (.flsCount 0) F.flsCount_COUNT = min (s.fld (.flsCount 0) F.flsCount_COUNT +
            n.countP fun c => decide (0 < c)) (2 ^ 32 - 1) ∧
          ((∃ c ∈ n, 20 ≤ c) → t.scheduled (pg / 128) = true) ∧
          (tagArea (s.pageTag pg) ≠ area.toNat → t.fld .flsStatus F.flsStatus_UNCORRECTABLE = 1) ∧
          (tagArea (s.pageTag pg) = area.toNat →
            t.fld (.flsCount 1) F.flsCount_COUNT = s.fld (.flsCount 1) F.flsCount_COUNT)) ∧
    (∀ op, s.flashBlocks ≤ opBlock op → exec (.flashOpDone op) s = .fault .noSuchAddress) ∧
    (∃ t, exec .flashScan s = .next t ∧ SameCompute s t ∧ t.flash.main = s.flash.main ∧
      ∀ pg ∈ s.flash.tags.map (fun e => e.1), s.pageErased pg = false → s.readTry pg [] = none →
        t.fld .flsStatus F.flsStatus_UNCORRECTABLE = 1 ∧ FlashJob.refresh (pg / 128) true ∈ t.flash.queue) ∧
    (s.flash.logPending ≠ [] → s.goodBlocks arLog ≠ [] →
      (s.inhibited = false → ∃ t, exec .logPageProgram s = .next t ∧ t.flash.logPending = s.flash.logPending.drop 128 ∧
        FlashJob.append arLog (chunksOf 4096 4 (s.flash.logPending.take 128).flatten) false .plain ∈ t.flash.queue ∧
        SameCompute s t) ∧
      (s.inhibited = true → ∃ t, exec .logPageProgram s = .next t ∧ t.flash = s.flash ∧
        t.fld (.flsCount 3) F.flsCount_COUNT = plusOne (s.fld (.flsCount 3) F.flsCount_COUNT))) ∧
    (s.pins.warn = false → ∃ t, exec .flashWriteResume s = .next t ∧ t.inhibited = false ∧
      t.fld .flsStatus F.flsStatus_INHIBIT = 0 ∧ KeepsRegs [.flsStatus] s t ∧ SameCompute s t ∧
      (t.flash.running = none → ∀ j ∈ t.flash.queue, t.mayRun j = true → t.stepOf j = none)) ∧
    (s.pins.warn = true → exec .flashWriteResume s = .next s) ∧
    (∀ job op, s.flash.running = some (job, op) → endsThere job = true → ∃ t, exec .flashFloorCutoff s = .next t ∧
      t.flash.running = none ∧ t.inhibited = true ∧
      t.fld (.flsCount 4) F.flsCount_COUNT = plusOne (s.fld (.flsCount 4) F.flsCount_COUNT) ∧
      t.fld .flsStatus F.flsStatus_INTERRUPTED = 1 ∧ t.fld .flsStatus F.flsStatus_INHIBIT = 1 ∧ SameCompute s t) ∧
    (s.flash.running = none → ∃ t, exec .flashFloorCutoff s = .next t ∧ t.inhibited = true ∧
      t.flash = { s.flash with io18Low := true } ∧ KeepsRegs [.flsStatus] s t ∧ SameCompute s t) ∧
    (s.inhibited = true →
      (s.boot.install.isSome = true → ∃ t, exec .flashHoldTimeout s = .next t ∧ t.boot.install = none ∧
        t.fld .bootInstallStatus F.bootInstallStatus_CAUSE = 11 ∧
        ∀ n bytes, FlashJob.install n bytes ∉ t.flash.queue) ∧
      (s.flash.record.isSome = true → ∃ t, exec .flashHoldTimeout s = .next t ∧ t.flash.record = none ∧
        t.fld .flsRecordStatus F.flsRecordStatus_CAUSE = 3)) ∧
    (∀ c ∈ ([.pwrWarnAssert, .vddIo18WriteInhibit] : List Instr), ∃ t, exec c s = .next t ∧ t.inhibited = true ∧
      t.fld .flsStatus F.flsStatus_INHIBIT = 1 ∧ KeepsRegs [.flsStatus] s t ∧ SameCompute s t) ∧
    (s.pins.warn = true → ∃ t, exec .pwrWarnDeassert s = .next t ∧ t.pins.warn = false ∧ t.flash.resuming = true ∧
      t.inhibited = true ∧ KeepsRegs [.flsStatus] s t ∧ SameCompute s t)

/-! ## Power -/

/-- A power loop takes PWR_RING_CTRL over, shows what it measures, judges the emergencies, and grants frequencies: a
lower one at once, a higher one at once or once the voltage has settled; what throttles a ring is shown in its LIMIT.
The thermal loop moves its ceiling and reads the next PMBus rail; the hint handler takes the hints that have arrived and raises the voltage; the
limiters of the hardware act at once; lockstep halts the booth, the third time it trips the device. Without a device
record every point runs at 0.85 V, and no ring is granted more than 1.4 GHz (R135, R389, R394 to R398, R400, R401,
R403 to R408, R417, R421). -/
def Obligations.PowerFollowsItsLimits : Prop :=
  ∀ (s : State) (m : PowerSample) (core : Fin 16) (sensor : Fin 32) (temp : Int) (temps : Vector Int 32),
    (∀ s0 s1 s2 l, s.boothRuns = true → s0 = (List.finRange 8).foldl State.takeCtrl s →
      s1 = (s0.showSample m).judgePeriod m →
      s2 = s1.setFld .pwrStatus F.pwrStatus_CAP_EXCEEDED (bitNat (s1.capExceeded m)) → l = s2.grants m →
      ∃ t, exec (.powerLoop m) s = .next t ∧
        t.fld .pwrPower F.pwrPower_TOTAL = min ((m.coreMw + m.otherMw) / 100) 65535 ∧
        t.fld .pwrPower F.pwrPower_CORE = min (m.coreMw / 100) 65535 ∧
        t.fld .pwrStatus F.pwrStatus_THERMAL_EMERGENCY = bitNat s.power.hotLimit ∧
        t.fld .pwrStatus F.pwrStatus_DROOP_EMERGENCY = bitNat m.droopOver ∧
        t.fld .pwrStatus F.pwrStatus_SUPPLY_EMERGENCY =
          bitNat (m.railFault || m.avsFailed || decide (1000 * min m.measuredMv 65535 + 50000 < s.power.vReq)) ∧
        t.fld .pwrStatus F.pwrStatus_CAP_EXCEEDED = bitNat (s1.capExceeded m) ∧
        (∀ r : Fin 8, t.power.ctrl[r] = s.reg (.pwrRingCtrl r)) ∧
        t.power.loops = (s.power.loops + 1) % 2 ^ 32 ∧ t.pins.lockAlert = false ∧
        (∀ g ∈ l, g.mhz < s.freq g.ring → t.freq g.ring = g.mhz) ∧
        (∀ g ∈ l, s.freq g.ring ≤ g.mhz → t.freq g.ring = s.freq g.ring ∨ t.freq g.ring = g.mhz) ∧
        (∀ g ∈ l, ∀ k, g.cause = some k → t.fld (.pwrRingStatus g.ring) F.pwrRingStatus_LIMIT = 1 + k) ∧
        (∀ r : Fin 8, s.ringClocked r = false → t.freq r = s.freq r) ∧
        t.mwy = s.mwy ∧ ∀ c : Fin 16, (t.core c).mem = (s.core c).mem ∧ (t.core c).opnd = (s.core c).opnd) ∧
    (s.recordValid = false → (∀ g ∈ s.grants m, g.mhz ≤ 1400) ∧ ∀ f, s.voltAt f = 850000) ∧
    (∀ telemetry, s.boothRuns = true → ∃ t, exec (.thermalLoop temps telemetry) s = .next t ∧
      t.fld .pwrTemp F.pwrTemp_SENSOR = (hottest temps).1.val ∧
      t.fld .pwrTemp F.pwrTemp_HOTTEST = (BitVec.ofInt 16 (hottest temps).2).toNat ∧
      t.power.rail = s.power.rail + 1 ∧ t.power.deaf.getLsbD s.power.rail.val = telemetry ∧
      (∀ k : Fin 8, k ≠ s.power.rail → t.power.deaf.getLsbD k.val = s.power.deaf.getLsbD k.val) ∧
      t.fld .pwrStatus F.pwrStatus_TELEMETRY = bitNat (t.power.deaf != 0) ∧
      t.power.ceiling = (if s.tMax - 20 ≤ (hottest temps).2 then max 400 (s.power.ceiling - 100)
        else if (hottest temps).2 < s.tMax - 32 then min 2300 (s.power.ceiling + 50) else s.power.ceiling) ∧
      KeepsRegs [.pwrTemp, .pwrStatus] s t ∧ SameCompute s t) ∧
    (s.boothRuns = true → s.power.arrived ≠ [] → ∃ t, exec .hintHandler s = .next t ∧ t.power.arrived = [] ∧
      (∀ r c k, s.power.arrived = [(r, c, k)] → t.power.hints[c] = k) ∧
      (∀ c : Fin 16, (s.power.arrived.all fun h => h.2.1 != c) = true → t.power.hints[c] = s.power.hints[c]) ∧
      t.power.droopD = t.hintDroop ∧ s.power.vReq ≤ t.power.vReq ∧ KeepsRegs [.pwrVcore] s t ∧ SameCompute s t) ∧
    ((s.core core).hint.isSome = true → ∃ t, exec (.hintPhaseEnd core) s = .next t ∧ (t.core core).hint = none ∧
      t.power.hints[core] = 0 ∧ t.power.droopD = s.power.droopD ∧ OnlyCore core s t ∧ t.regs = s.regs ∧ t.mwy = s.mwy) ∧
    ((s.core core).hint = none → exec (.hintPhaseEnd core) s = .next s) ∧
    (s.boothRuns = true → ∃ t, exec .voltageSettled s = .next t ∧ t.power.settling = false ∧
      ∀ r : Fin 8, t.freq r = if s.ringClocked r then max (s.freq r) (min s.power.raise[r] s.hardLimit) else s.freq r) ∧
    (s.boothRuns = false → ∀ c ∈ ([.powerLoop m, .thermalLoop temps true, .hintHandler, .voltageSettled,
      .boothSwitch true, .switchReadyTimeout, .updateLoadDone, .lockstepMismatch true] : List Instr),
      s.updState ≠ upSwitching → exec c s = .next s) ∧
    (s.clockRuns (coreIsland core) = true → exec (.droopDetect core) s =
      .next { s with power := { s.power with droop := s.power.droop ||| (1#16).shiftLeft core.val } }) ∧
    (∃ t, exec (.droopRecover core) s = .next t ∧ t.power.droop.getLsbD core.val = false ∧
      (∀ d : Fin 16, d ≠ core → t.power.droop.getLsbD d.val = s.power.droop.getLsbD d.val) ∧ t.regs = s.regs ∧
      SameCompute s t) ∧
    exec .currentLimit s = .next { s with power := { s.power with current := true } } ∧
    exec .currentLimitClear s = .next { s with power := { s.power with current := false } } ∧
    (s.tMax ≤ temp → ∃ t, exec (.thermalEmergency sensor temp) s = .next t ∧ t.power.hotLimit = true ∧ t.alert = (s.boot.phase != .deepStandby) ∧
      t.fld .pwrStatus F.pwrStatus_THERMAL_EMERGENCY = 1 ∧ t.mwy = s.mwy ∧
      ∀ r : Fin 8, t.freq r = if s.ringClocked r then min (s.freq r) t.hardLimit else s.freq r) ∧
    (temp < s.tMax → exec (.thermalEmergency sensor temp) s = .next s) ∧
    ((temps.toList.all fun x => decide (x < s.tMax - 20)) = true → exec (.thermalRecover temps) s =
      .next { s with power := { s.power with hotLimit := false } }) ∧
    ((temps.toList.all fun x => decide (x < s.tMax - 20)) = false → exec (.thermalRecover temps) s = .next s) ∧
    (s.tMax + 20 ≤ temp → s.power.tripped = false → ∃ t, exec (.thermalCritical sensor temp) s = .next t ∧
      t.fld .pwrStatus F.pwrStatus_CRITICAL = 1 ∧ t.power.tripped = true ∧ t.pins.safeState = true ∧
      (∀ r : Fin 8, t.ringClocked r = false) ∧ t.faultSeq = s.faultSeq + 1 ∧ t.mwy = s.mwy) ∧
    ∀ within60s n, s.boothRuns = true → n = (if within60s then s.power.mismatches + 1 else 1) →
      ∃ t, exec (.lockstepMismatch within60s) s = .next t ∧ t.power.halted = true ∧ t.power.mismatches = n ∧
        t.pins.lockAlert = true ∧ t.fld .pwrEvent F.pwrEvent_LOCKSTEP = 1 ∧ t.power.shadow = [] ∧
        (∀ r : Fin 8, s.ringClocked r = true → t.freq r = min (s.freq r) t.hardLimit) ∧ t.hardLimit ≤ 1000 ∧
        (3 ≤ n → t.power.tripped = true ∧ t.pins.safeState = true) ∧
        (n < 3 → t.power.tripped = s.power.tripped ∧ t.pins.safeState = s.pins.safeState)

/-- The booth reloads the image of its slot after a lockstep halt and starts cold. An ageing sample below its band
raises the trim of its point or, at CEIL, disables the point; a high one lowers the trim after 24 h. A changed trim
goes into the trim journal. A staged image of the booth is loaded, verified, activated or discarded; the switch takes
place once no emergency is in force, hands the state over and forgets the quotes, and ends after a time (R383, R389,
R409 to R416, R429). -/
def Obligations.TheBoothIsTrimmedAndUpdated : Prop :=
  ∀ (s : State) (who : Who) (k : Fin 8),
    (s.power.halted = false → ∀ m, exec (.boothReloadDone m) s = .next s) ∧
    (∀ m l c, s.power.halted = true → s.slotSet s.runningSlot = some l → s.inRecovery = false →
      c = s.slotContainer s.runningSlot (l.getD 1 (0, [])) → ctCause s.storeRec 2 false (l.getD 1 (0, [])).2 = 0 →
      ctDigests c = true → ∃ t, exec (.boothReloadDone m) s = .next t ∧ t.power.halted = false ∧
        t.power.lockLimit = false ∧ t.power.active = c ∧
        t.boot.mBoothRun = s.boot.mBoothSlot ∧ t.fld .pwrStatus F.pwrStatus_COLD_START = 1 ∧
        t.fld .pwrStatus F.pwrStatus_LIVE_IMAGE = 0 ∧ t.mwy = s.mwy) ∧
    (∀ codes high24h, exec (.ageingSample codes none high24h) s = .next s) ∧
    (∀ codes high24h low, s.boothRuns = true → codes ≠ [] → low = codes.foldl (fun n c => min n c.toNat) 63 →
      (low < 8 → s.pointRaw k.val < s.pointCeil k.val → ∃ t, exec (.ageingSample codes (some k) high24h) s = .next t ∧
        t.fld (.pwrTrim k) F.pwrTrim_STEPS = min (s.fld (.pwrTrim k) F.pwrTrim_STEPS + 1) 127 ∧
        t.power.unwritten.getLsbD k.val = true ∧ t.fld .pwrEvent F.pwrEvent_TRIM_CHANGED = 1 ∧
        KeepsRegs [.pwrTrim k, .pwrEvent] s t ∧ SameCompute s t) ∧
      (low < 8 → s.pointCeil k.val ≤ s.pointRaw k.val → ∃ t, exec (.ageingSample codes (some k) high24h) s = .next t ∧
        t.pointOn k.val = false ∧ t.fld .pwrEvent F.pwrEvent_AGEING_LIMIT = 1 ∧ t.power.unwritten.getLsbD k.val = true ∧
        ∀ r : Fin 8, s.ringClocked r = true → t.freq r = min (s.freq r) t.topMhz) ∧
      (24 ≤ low → high24h = true → 1 ≤ s.fld (.pwrTrim k) F.pwrTrim_STEPS →
        ∃ t, exec (.ageingSample codes (some k) high24h) s = .next t ∧
        t.fld (.pwrTrim k) F.pwrTrim_STEPS + 1 = s.fld (.pwrTrim k) F.pwrTrim_STEPS ∧
        t.fld .pwrEvent F.pwrEvent_TRIM_CHANGED = 1 ∧ KeepsRegs [.pwrTrim k, .pwrEvent] s t ∧ SameCompute s t) ∧
      (8 ≤ low → (low < 24 ∨ high24h = false ∨ s.fld (.pwrTrim k) F.pwrTrim_STEPS = 0) →
        exec (.ageingSample codes (some k) high24h) s = .next s)) ∧
    (s.boothRuns = true → s.power.unwritten.getLsbD k.val = true → ∃ t, exec (.trimWrite k) s = .next t ∧
      t.power.unwritten = 0 ∧ SameCompute s t ∧
      (s.goodBlocks arRecord ≠ [] → ∃ seq, (∀ x ∈ s.entries arRecord, x.seq < seq) ∧
        FlashJob.append arRecord (chunksOf 4096 4 (journalBytes 7 1 seq s.trimBody)) false .plain ∈ t.flash.queue)) ∧
    (s.mayManage who = false → ∀ c ∈ ([.updateLoad who, .updateActivate who, .updateDiscard who] : List Instr),
      exec c s = .next s) ∧
    (s.mayManage who = true →
      (s.updBusy = true → ∀ c ∈ ([.updateLoad who, .updateActivate who] : List Instr), ∃ t, exec c s = .next t ∧
        t.fld .pwrUpdateStatus F.pwrUpdateStatus_CAUSE = 7 ∧ t.updState = s.updState ∧ OnlyRegs [.pwrUpdateStatus] s t) ∧
      (∀ s1 found, s.updBusy = false →
        s.staged who (s.reg64 (.pwrUpdateSrc 0) (.pwrUpdateSrc 1)).toNat (s.reg .pwrUpdateLen).toNat = (s1, found) →
        ∃ t, exec (.updateLoad who) s = .next t ∧ t.power.shadow = found.getD [] ∧
          t.updState = (if found.isSome then upLoading else upEmpty) ∧
          t.fld .pwrUpdateStatus F.pwrUpdateStatus_CAUSE = if found.isSome then 0 else 5) ∧
      (s.updState = upReady → ∃ t, exec (.updateActivate who) s = .next t ∧
        t.updState = (if s.emergency then upDeferred else upSwitching) ∧ OnlyRegs [.pwrUpdateStatus] s t) ∧
      (s.updBusy = false → s.updState ≠ upReady → ∃ t, exec (.updateActivate who) s = .next t ∧
        t.fld .pwrUpdateStatus F.pwrUpdateStatus_CAUSE = 8 ∧ t.updState = s.updState ∧ OnlyRegs [.pwrUpdateStatus] s t) ∧
      ((s.updState = upReady ∨ s.updState = upDeferred) → ∃ t, exec (.updateDiscard who) s = .next t ∧
        t.updState = upEmpty ∧ t.power.shadow = [] ∧ KeepsRegs [.pwrUpdateStatus] s t ∧ SameCompute s t) ∧
      (s.updState ≠ upReady → s.updState ≠ upDeferred → exec (.updateDiscard who) s = .next s)) ∧
    (s.updState = upLoading → s.boothRuns = true →
      (s.updCause s.power.shadow = 0 → ∃ t, exec .updateLoadDone s = .next t ∧ t.updState = upReady ∧
        t.fld .pwrUpdateStatus F.pwrUpdateStatus_CAUSE = 0 ∧ OnlyRegs [.pwrUpdateStatus] s t) ∧
      (s.updCause s.power.shadow ≠ 0 → ∃ t, exec .updateLoadDone s = .next t ∧ t.updState = upEmpty ∧
        t.fld .pwrUpdateStatus F.pwrUpdateStatus_CAUSE = s.updCause s.power.shadow ∧ t.power.shadow = [] ∧
        KeepsRegs [.pwrUpdateStatus] s t ∧ SameCompute s t)) ∧
    (∀ adopted,
      (s.switchDue = true → ∃ t, exec (.boothSwitch adopted) s = .next t ∧ t.power.active = s.power.shadow ∧
        t.power.shadow = s.power.active ∧ t.power.handoff = s.handoffBytes ∧ t.sec.quotes = [] ∧ t.updState = upEmpty ∧
        t.fld .pwrUpdateStatus F.pwrUpdateStatus_ADOPTED = bitNat adopted ∧ t.fld .pwrEvent F.pwrEvent_UPDATE_DONE = 1 ∧
        t.fld .pwrStatus F.pwrStatus_LIVE_IMAGE = 1 ∧ t.fld .pwrStatus F.pwrStatus_COLD_START = bitNat (!adopted) ∧
        t.boot.mBoothRun = shaBytes (s.power.shadow.take 512)) ∧
      (s.updState = upSwitching → s.emergency = true → ∃ t, exec (.boothSwitch adopted) s = .next t ∧
        t.updState = upDeferred ∧ OnlyRegs [.pwrUpdateStatus] s t)) ∧
    (s.updState = upSwitching → s.boothRuns = true → ∃ t, exec .switchReadyTimeout s = .next t ∧ t.power.halted = true ∧
      t.power.shadow = [] ∧ t.power.handoff = s.handoffBytes ∧ t.updState = upEmpty ∧ t.hardLimit = s.hardLimit) ∧
    ((s.updState = upDeferred ∨ s.updState = upSwitching) → ∃ t, exec .activateTimeout s = .next t ∧ t.updState = upReady ∧
      t.fld .pwrUpdateStatus F.pwrUpdateStatus_CAUSE = 9 ∧ t.fld .pwrEvent F.pwrEvent_UPDATE_REJECTED = 1 ∧
      OnlyRegs [.pwrUpdateStatus, .pwrEvent] s t) ∧
    (s.updState ≠ upDeferred → s.updState ≠ upSwitching → exec .activateTimeout s = .next s)

/-! ## DRAM lines and midway words -/

/-- A DRAM read of a line that a requester owns, without an error, changes nothing; with one it is counted, shown and
recorded, and the line stands as before; one outside the requester's reach is recorded, and faults a ring. A
whole-line write puts data and tag; a shorter one merges what the line held. The patrol scrub rewrites a corrected
line and records a bad one once per pass, and a slice's scrub rewrites a corrected word and poisons one that it cannot
correct. Before DRAM is up, and in Standby, the controllers do nothing (R57, R146, R166, R181, R183, R184, R185, R193,
R194, R195). -/
def Obligations.DramLinesAreReadWrittenAndScrubbed : Prop :=
  ∀ (s : State) (owner : DramOwner) (tag : Tag) (addr : Nat) (flips : List (Nat × Byte)) (q : Requester) (n : Nat),
    q = s.dramRequester owner → n = addr / 64 →
    (s.dramUsed = false → ∀ gen bytes poisoned hot sub count last,
      ∀ c ∈ ([.dramRead owner tag addr gen flips, .dramWrite owner tag addr bytes poisoned gen, .dramTempPoll hot,
        .ecsCollect sub count, .dramScrub addr flips last] : List Instr), exec c s = .next s) ∧
    (∀ gen v, s.dramUsed = true → v = checkLine (flipLine n flips s.dram) n q.code gen → s.dramAllowed q (64 * n) 64 = true →
      (v.kind = 0 → v.tagFixed = false → v.corrected = false →
        exec (.dramRead owner tag addr gen flips) s = .next { s with dram := flipLine n flips s.dram }) ∧
      (v.kind = 0 → v.tagFixed = false → v.corrected = true → ∃ t, exec (.dramRead owner tag addr gen flips) s = .next t ∧
        n ∈ t.dram.writeBack ∧ t.dram.data = s.dram.data ∧
        t.fld (.ddrErrCount0 (subFin (s.subOf (64 * n)))) F.ddrErrCount0_CORRECTED =
          min (s.fld (.ddrErrCount0 (subFin (s.subOf (64 * n)))) F.ddrErrCount0_CORRECTED + 1) (2 ^ (F.ddrErrCount0_CORRECTED.hi + 1 - F.ddrErrCount0_CORRECTED.lo) - 1)) ∧
      (v.kind = 0 → v.tagFixed = true → ∃ t, exec (.dramRead owner tag addr gen flips) s = .next t ∧
        n ∈ t.dram.writeBack ∧ t.dram.data = s.dram.data ∧
        t.fld (.ddrErrCount1 (subFin (s.subOf (64 * n)))) F.ddrErrCount1_TAG_FIXED =
          min (s.fld (.ddrErrCount1 (subFin (s.subOf (64 * n)))) F.ddrErrCount1_TAG_FIXED + 1) (2 ^ (F.ddrErrCount1_TAG_FIXED.hi + 1 - F.ddrErrCount1_TAG_FIXED.lo) - 1)) ∧
      (v.kind ≠ 0 → v.kind ≠ 3 → NoInternal s → ∃ t, exec (.dramRead owner tag addr gen flips) s = .next t ∧
        (t.reg .ddrErrInfo).toNat / 2 ^ 28 = v.kind ∧ t.faultSeq = s.faultSeq + 1 ∧ t.dram.data = s.dram.data ∧
        t.dram.tag = s.dram.tag ∧ t.mwy = s.mwy) ∧
      (v.kind = 3 → q.faults = none → NoInternal s → ∃ t, exec (.dramRead owner tag addr gen flips) s = .next t ∧
        (t.reg .ddrErrInfo).toNat / 2 ^ 28 = 3 ∧ t.dram.data = s.dram.data ∧ t.mwy = s.mwy ∧
        ∀ r : Fin 8, t.ringState r = s.ringState r) ∧
      (∀ r, v.kind = 3 → q.faults = some r → s.mayFault r = true → ∃ t, exec (.dramRead owner tag addr gen flips) s = .next t ∧
        t.ringState r = stFaulted ∧ t.mwy = s.mwy)) ∧
    (∀ gen, s.dramUsed = true → s.dramAllowed q (64 * n) 64 = false →
      (q.faults = none → NoInternal s → ∃ t, exec (.dramRead owner tag addr gen flips) s = .next t ∧
        t.faultSeq = s.faultSeq + 1 ∧ t.dram = flipLine n flips s.dram ∧ t.mwy = s.mwy ∧ t.cores = s.cores) ∧
      ∀ r, q.faults = some r → s.mayFault r = true → ∃ t, exec (.dramRead owner tag addr gen flips) s = .next t ∧
        t.ringState r = stFaulted ∧ t.mwy = s.mwy) ∧
    (∀ gen bytes poisoned, s.dramUsed = true → Instr.WellFormed (.dramWrite owner tag addr bytes poisoned gen) →
      (s.dramAllowed q addr bytes.length = true → addr % 64 = 0 → bytes.length = 64 →
        ∃ t, exec (.dramWrite owner tag addr bytes poisoned gen) s = .next t ∧
          t = { s with dram := t.dram } ∧ lineTag t.dram n = writeTag q.code poisoned (gen.getD 0) ∧
          (∀ i < 64, smGet 0 t.dram.data (addr + i) = bytes.getD i 0) ∧ lineClean t.dram n = true ∧
          ∀ a : Nat, (a < addr ∨ addr + 64 ≤ a) → smGet 0 t.dram.data a = smGet 0 s.dram.data a) ∧
      (∀ v, v = checkLine s.dram n q.code none → s.dramAllowed q addr bytes.length = true → bytes ≠ [] → bytes.length < 64 →
        addr % 64 + bytes.length ≤ 64 →
        (v.kind = 0 → v.tagFixed = false → v.corrected = false →
          ∃ t, exec (.dramWrite owner tag addr bytes poisoned gen) s = .next t ∧ t = { s with dram := t.dram } ∧
            lineTag t.dram n = writeTag q.code poisoned (gen.getD 0) ∧
            (∀ i < 64, smGet 0 t.dram.data (64 * n + i) = (if i < addr % 64 ∨ addr % 64 + bytes.length ≤ i then v.data.getD i 0
              else bytes.getD (i - addr % 64) 0)) ∧
            ∀ a : Nat, (a < 64 * n ∨ 64 * n + 64 ≤ a) → smGet 0 t.dram.data a = smGet 0 s.dram.data a) ∧
        (v.kind = 3 → q.faults = none → NoInternal s → ∃ t,
          exec (.dramWrite owner tag addr bytes poisoned gen) s = .next t ∧ t.dram.data = s.dram.data ∧
            t.dram.tag = s.dram.tag ∧ t.mwy = s.mwy)) ∧
      (s.dramAllowed q addr bytes.length = false → bytes ≠ [] → q.faults = none → NoInternal s →
        ∃ t, exec (.dramWrite owner tag addr bytes poisoned gen) s = .next t ∧ t.faultSeq = s.faultSeq + 1 ∧
          t.dram = s.dram ∧ t.mwy = s.mwy ∧ t.cores = s.cores)) ∧
    (∀ sub : Fin 8, exec (.dramRefresh sub) s = .next s) ∧
    (∀ hot, s.dramUsed = true → ∃ t, exec (.dramTempPoll hot) s = .next t ∧
      t.fld .ddrStatus F.ddrStatus_HOT = bitNat hot ∧ OnlyRegs [.ddrStatus] s t) ∧
    (∀ (sub : Fin 8) (count : Nat), s.dramUsed = true → ∃ t, exec (.ecsCollect sub count) s = .next t ∧
      t.fld (.ddrEcsCount sub) F.ddrEcsCount_COUNT = min (s.fld (.ddrEcsCount sub) F.ddrEcsCount_COUNT + count) (2 ^ (F.ddrEcsCount_COUNT.hi + 1 - F.ddrEcsCount_COUNT.lo) - 1) ∧
        OnlyRegs [.ddrEcsCount sub] s t) ∧
    (∀ last, s.dramUsed = true → s.dramSize < 64 * n + 64 → ∃ t, exec (.dramScrub addr flips last) s = .next t ∧
      t.faultSeq = s.faultSeq + 1 ∧ t.dram = s.dram ∧ SameMemory s t) ∧
    (∀ d v last, s.dramUsed = true → 64 * n + 64 ≤ s.dramSize → d = flipLine n flips (writeBackAll s.dram) →
      v = checkLine d n ((lineTag d n).toNat % 256) none →
      (s.fld .ddrScrubCtrl F.ddrScrubCtrl_ENABLE = 0 → exec (.dramScrub addr flips last) s = .next { s with dram := d }) ∧
      (s.fld .ddrScrubCtrl F.ddrScrubCtrl_ENABLE = 1 →
        (last = true → ∃ t, exec (.dramScrub addr flips last) s = .next t ∧ t.fld .ddrStatus F.ddrStatus_SCRUB_PASS = 1 ∧
          t.dram.scrubBad = [] ∧ t.mwy = s.mwy) ∧
        (last = false → v.kind ≠ 1 → v.kind ≠ 2 → v.tagFixed = false → v.corrected = false →
          exec (.dramScrub addr flips last) s = .next { s with dram := d }) ∧
        (last = false → v.kind ≠ 1 → v.kind ≠ 2 → (v.tagFixed = true ∨ v.corrected = true) →
          ∃ t, exec (.dramScrub addr flips last) s = .next t ∧ lineClean t.dram n = true ∧ t.dram.data = s.dram.data ∧
            t.dram.tag = s.dram.tag ∧ t.cores = s.cores ∧ t.rings = s.rings ∧ t.mwy = s.mwy) ∧
        (last = false → (v.kind = 1 ∨ v.kind = 2) → d.scrubBad.contains n = false → NoInternal s →
          ∃ t, exec (.dramScrub addr flips last) s = .next t ∧ n ∈ t.dram.scrubBad ∧ t.faultSeq = s.faultSeq + 1 ∧
            t.dram.data = s.dram.data) ∧
        (last = false → (v.kind = 1 ∨ v.kind = 2) → d.scrubBad.contains n = true →
          ∃ t, exec (.dramScrub addr flips last) s = .next t ∧ t.faultSeq = s.faultSeq ∧ t.dram.data = s.dram.data))) ∧
    ∀ (m : Fin 8) (word : Fin 1048576) (w : Nat) (found : EccOutcome), w = 1048576 * m.val + word.val →
      ((smGet 0 s.mwyBad w).getLsbD 0 = true → exec (.mwyScrub m word found) s = .next s) ∧
      ((smGet 0 s.mwyBad w).getLsbD 0 = false →
        (worse found (eccOf s.mwyFlips w) = .clean → exec (.mwyScrub m word found) s = .next s) ∧
        (worse found (eccOf s.mwyFlips w) = .corrected → ∃ t, exec (.mwyScrub m word found) s = .next t ∧
          t.fld (.errSliceScrub m) F.errSliceScrub_FIXED = min (s.fld (.errSliceScrub m) F.errSliceScrub_FIXED + 1) (2 ^ (F.errSliceScrub_FIXED.hi + 1 - F.errSliceScrub_FIXED.lo) - 1) ∧
          KeepsRegs [.errSliceScrub m] s t ∧ t.mwy = s.mwy ∧ t.mwyBad = s.mwyBad ∧
          ∀ a : Nat, smGet 0 t.mwyFlips a = if a / 36 = w then 0 else smGet 0 s.mwyFlips a) ∧
        (worse found (eccOf s.mwyFlips w) = .uncorrectable → NoInternal s → ∃ t, exec (.mwyScrub m word found) s = .next t ∧
          (smGet 0 t.mwyBad w).getLsbD 0 = true ∧ (∀ a : Nat, a ≠ w → smGet 0 t.mwyBad a = smGet 0 s.mwyBad a) ∧
          (∀ a : Nat, a / 32 ≠ w → smGet 0 t.mwy a = smGet 0 s.mwy a) ∧ t.dram = s.dram ∧ t.faultSeq = s.faultSeq + 1))

/-! ## Keys, tokens, the lifecycle and the power states -/

/-- A token that passes its checks sets the debug levels of the rings that it names, or FULL, and keys are zeroised
where a level rises to INVASIVE; END_DEBUG ends a level or all of them, and the quotes are forgotten where a level
ended; under FULL a ring keeps its debug endpoint; a token that does not pass leaves its CAUSE (R429, R432 to R437,
R440). -/
def Obligations.TokensSetAndEndDebugLevels : Prop :=
  ∀ (s : State) (who : Who),
    (∀ s1, s.stagedToken who = (s1, none) → ∃ t, exec (.installToken who) s = .next t ∧
      t.reg .secResult = BitVec.ofNat 32 (2 * 2 ^ 30 + 1 * 2 ^ 26 + 7 * 2 ^ 22) ∧ KeepsRegs [.secResult] s1 t) ∧
    (∀ s1 b, s.stagedToken who = (s1, some b) →
      (∀ g e, who = .ep g e → s.mayManage who = false → bitAt (leAt b 7 1) g.val = false →
        ∃ t, exec (.installToken who) s = .next t ∧
          t.reg .secResult = BitVec.ofNat 32 (2 * 2 ^ 30 + 1 * 2 ^ 26 + 6 * 2 ^ 22) ∧ OnlyRegs [.secResult] s1 t) ∧
      (s.mayManage who = true → s1.tokenCause b false ≠ 0 → ∃ t, exec (.installToken who) s = .next t ∧
        t.reg .secResult = BitVec.ofNat 32 (2 * 2 ^ 30 + 1 * 2 ^ 26 + s1.tokenCause b false * 2 ^ 22) ∧
        OnlyRegs [.secResult] s1 t) ∧
      (s.mayManage who = true → s1.tokenCause b false = 0 → ∃ t, exec (.installToken who) s = .next t ∧
        t.reg .secResult = BitVec.ofNat 32 (2 * 2 ^ 30 + 1 * 2 ^ 26) ∧ t.fld .secEvent F.secEvent_TOKEN_INSTALLED = 1 ∧
        t.sec.quotes = [] ∧
        (leAt b 6 1 = 3 → t.debugFull = true ∧ ∀ x : Fin 64, (t.ep x).cak = none) ∧
        (leAt b 6 1 ≠ 3 → ∀ r : Fin 8,
          (bitAt (leAt b 7 1) r.val = true → t.fld (.secRingDebug r) F.secRingDebug_LEVEL = leAt b 6 1) ∧
          (bitAt (leAt b 7 1) r.val = false → t.reg (.secRingDebug r) = s1.reg (.secRingDebug r) ∧
            ∀ e : Fin 8, (t.ep (epIx r e)).cak = (s1.ep (epIx r e)).cak) ∧
          (bitAt (leAt b 7 1) r.val = true → leAt b 6 1 = 2 → s1.debugLevel r < 2 →
            ∀ e : Fin 8, (t.ep (epIx r e)).cak = none)))) ∧
    ∀ arg : Fin 16,
      (s.mayManage who = false → (∃ g e, who = .ep g e ∧ g.val ≠ arg.val) → ∃ t, exec (.endDebug arg who) s = .next t ∧
        t.reg .secResult = BitVec.ofNat 32 (2 * 2 ^ 30 + 2 * 2 ^ 26 + 6 * 2 ^ 22) ∧ OnlyRegs [.secResult] s t) ∧
      (s.mayManage who = true →
        (∀ r : Fin 8, arg.val = r.val → s.fld (.secRingDebug r) F.secRingDebug_LEVEL = 0 →
          ∃ t, exec (.endDebug arg who) s = .next t ∧ t.reg .secResult = BitVec.ofNat 32 (2 * 2 ^ 30 + 2 * 2 ^ 26) ∧
            OnlyRegs [.secResult] s t) ∧
        (∀ r : Fin 8, arg.val = r.val → s.fld (.secRingDebug r) F.secRingDebug_LEVEL ≠ 0 →
          ∃ t, exec (.endDebug arg who) s = .next t ∧ t.fld (.secRingDebug r) F.secRingDebug_LEVEL = 0 ∧ t.sec.quotes = [] ∧
            (s.debugFull = false → t.reg (.secRingDebug r) = 0) ∧
            (s.debugFull = true → t.fld (.secRingDebug r) F.secRingDebug_DBG_RING =
                s.fld (.secRingDebug r) F.secRingDebug_DBG_RING ∧
              t.fld (.secRingDebug r) F.secRingDebug_DBG_EP = s.fld (.secRingDebug r) F.secRingDebug_DBG_EP) ∧
            t.reg .secResult = BitVec.ofNat 32 (2 * 2 ^ 30 + 2 * 2 ^ 26) ∧ t.fld .secEvent F.secEvent_DEBUG_ENDED = 1 ∧
            KeepsRegs [.secRingDebug r, .secEvent, .secResult] s t ∧ SameCompute s t) ∧
        (arg.val = 15 → ∃ t, exec (.endDebug arg who) s = .next t ∧
          (∀ r : Fin 8, t.fld (.secRingDebug r) F.secRingDebug_LEVEL = 0) ∧ (s.lifecycle ≠ lcBlank → t.debugFull = false) ∧
          (((∃ r : Fin 8, s.fld (.secRingDebug r) F.secRingDebug_LEVEL ≠ 0) ∨ (s.debugFull = true ∧ s.lifecycle ≠ lcBlank)) →
            t.sec.quotes = [] ∧ t.fld .secEvent F.secEvent_DEBUG_ENDED = 1) ∧
          ((∀ r : Fin 8, s.fld (.secRingDebug r) F.secRingDebug_LEVEL = 0) →
            (s.debugFull = false ∨ s.lifecycle = lcBlank) → t.sec.quotes = s.sec.quotes) ∧
          t.reg .secResult = BitVec.ofNat 32 (2 * 2 ^ 30 + 2 * 2 ^ 26) ∧ SameCompute s t) ∧
        (8 ≤ arg.val → arg.val ≠ 15 → ∃ t, exec (.endDebug arg who) s = .next t ∧
          t.reg .secResult = BitVec.ofNat 32 (2 * 2 ^ 30 + 2 * 2 ^ 26 + 1 * 2 ^ 22) ∧ OnlyRegs [.secResult] s t))

/-- DEPLOY, RETURN and SCRAP write the lifecycle where the request may be made, at once or when the store can be
written again, or leave their CAUSE; a request held too long ends with SUPPLY. What VDD_AON held goes on when it is
back. STANDBY and DEEP_STANDBY take effect from rest, and leave no trapeze port UP; Deep standby stops every ring and
turns the DRAM controllers off. The key is ready after its generation (R54, R194, R325, R358, R419, R423 to R426,
R432, R437 to R440, R474). -/
def Obligations.LifecycleAndPowerStatesChange : Prop :=
  ∀ (s : State) (who : Who),
    (∀ c op, ((c, op) ∈ ([(.deploy who, 3), (.returnDevice who, 4), (.scrap who, 5)] : List (Instr × Nat))) →
      (s.mayManage who = false → ∃ t, exec c s = .next t ∧
        t.reg .secResult = BitVec.ofNat 32 (2 * 2 ^ 30 + op * 2 ^ 26 + 6 * 2 ^ 22) ∧ OnlyRegs [.secResult] s t) ∧
      (s.mayManage who = true → s.sec.request.isSome = true → ∃ t, exec c s = .next t ∧
        t.reg .secResult = BitVec.ofNat 32 (2 * 2 ^ 30 + op * 2 ^ 26 + 9 * 2 ^ 22) ∧ OnlyRegs [.secResult] s t) ∧
      ∀ s1 cause, s.mayManage who = true → s.sec.request = none → s.lifecycleCause who op = (s1, cause) →
        (cause ≠ 0 → ∃ t, exec c s = .next t ∧
          t.reg .secResult = BitVec.ofNat 32 (2 * 2 ^ 30 + op * 2 ^ 26 + cause * 2 ^ 22) ∧ OnlyRegs [.secResult] s1 t) ∧
        (cause = 0 → s1.sec.aonLow = true → ∃ t, exec c s = .next t ∧ t.sec.store = s1.sec.store ∧
          t.sec.request = some ⟨op⟩ ∧ t.fld .secEvent F.secEvent_STORE_HELD = 1 ∧
          t.reg .secResult = BitVec.ofNat 32 (1 * 2 ^ 30 + op * 2 ^ 26) ∧ KeepsRegs [.secEvent, .secResult] s1 t)) ∧
    (s.mayManage who = true → s.sec.request = none → s.sec.aonLow = false → s.storeRec.seq + 1 < 2 ^ 32 →
      (s.lifecycle = lcProvisioned → s.inRecovery = false → (s.header s.runningSlot).state = 3 →
        ∃ t, exec (.deploy who) s = .next t ∧ t.lifecycle = lcDeployed ∧ t.sec.quotes = [] ∧
          t.fld .secEvent F.secEvent_LIFECYCLE_CHANGED = 1 ∧ t.fld .secStatus F.secStatus_LIFECYCLE = lcDeployed ∧
          t.reg .secResult = BitVec.ofNat 32 (2 * 2 ^ 30 + 3 * 2 ^ 26) ∧ SameCompute s t) ∧
      (s.lifecycle ≠ lcProvisioned → ∃ t, exec (.deploy who) s = .next t ∧
        t.reg .secResult = BitVec.ofNat 32 (2 * 2 ^ 30 + 3 * 2 ^ 26 + 5 * 2 ^ 22) ∧ OnlyRegs [.secResult] s t) ∧
      (∀ s1 b, (s.lifecycle = lcProvisioned ∨ s.lifecycle = lcDeployed) → s.stagedToken who = (s1, some b) →
        s1.tokenCause b true = 0 → ∃ t, exec (.returnDevice who) s = .next t ∧ t.lifecycle = lcReturned ∧
          t.sec.quotes = [] ∧ t.debugFull = false ∧ (∀ x : Fin 64, (t.ep x).cak = none) ∧
          t.fld .secEvent F.secEvent_LIFECYCLE_CHANGED = 1 ∧
          ∀ r : Fin 8, stoppable (s1.ringState r) = true → t.ringState r = stStopping) ∧
      ((s.lifecycle = lcProvisioned ∨ s.lifecycle = lcDeployed ∨ s.lifecycle = lcReturned) →
        ∃ t, exec (.scrap who) s = .next t ∧ t.lifecycle = lcScrapped ∧ ∀ x : Fin 64, (t.ep x).cak = none)) ∧
    (∀ q, s.sec.request = some q → ∃ t, exec .secRequestTimeout s = .next t ∧ t.sec.request = none ∧
      t.sec.store = s.sec.store ∧ t.reg .secResult = BitVec.ofNat 32 (2 * 2 ^ 30 + q.op * 2 ^ 26 + 10 * 2 ^ 22) ∧
      KeepsRegs [.secResult] s t ∧ SameCompute s t) ∧
    (s.sec.request = none → exec .secRequestTimeout s = .next s) ∧
    (exec (.vddAonStoreHold true) s = .next { s with sec := { s.sec with aonLow := true } }) ∧
    (s.sec.request = none → s.boot.confirmStep ≠ 1 → (s.boot.phase ≠ .romHeld ∨ s.boot.owesEpoch = false) →
      exec (.vddAonStoreHold false) s = .next { s with sec := { s.sec with aonLow := false } }) ∧
    (s.sec.request = some ⟨3⟩ → s.boot.confirmStep ≠ 1 → s.boot.phase ≠ .romHeld → s.lifecycle = lcProvisioned →
      s.storeRec.seq + 1 < 2 ^ 32 → ∃ t, exec (.vddAonStoreHold false) s = .next t ∧ t.lifecycle = lcDeployed ∧
        t.sec.request = none ∧ t.sec.aonLow = false) ∧
    (s.sec.request = none → s.boot.confirmStep ≠ 1 → s.boot.phase = .romHeld → s.boot.owesEpoch = true →
      exec (.vddAonStoreHold false) s = .next ({ s with sec := { s.sec with aonLow := false } } : State).romBoot) ∧
    (∀ s1, s.sec.request = none → s.boot.confirmStep = 1 → s.boot.phase ≠ .romHeld →
      s1 = ({ s with sec := { s.sec with aonLow := false } } : State).confirmStore →
      ∃ t, exec (.vddAonStoreHold false) s = .next t ∧ t.sec.store = s1.sec.store ∧
        FlashJob.header s1.runningSlot { s1.header s1.runningSlot with state := 3 } .confirmed ∈ t.flash.queue) ∧
    (s.boot.phase = .handedOver → s.lifecycle ≠ lcBlank → ∃ t, exec .keyGenDone s = .next t ∧ t.keyReady = true ∧
      OnlyRegs [.secStatus] s t) ∧
    ((s.boot.phase ≠ .handedOver ∨ s.lifecycle = lcBlank) → exec .keyGenDone s = .next s) ∧
    (s.mayManage who = true → s.lifecycle ≠ lcBlank →
      (s.ringsBusy = false → s.writesBusy = false → s.updBusy = false → ∃ t, exec (.standby who) s = .next t ∧
        t.inStandby = true ∧ t.reg .secResult = BitVec.ofNat 32 (2 * 2 ^ 30 + 6 * 2 ^ 26) ∧
        (∀ p : Fin 4, t.portState p ≠ ptUp) ∧ t.mwy = s.mwy ∧ ((∀ p : Fin 4, s.portState p ≠ ptUp) → SameCompute s t)) ∧
      ((s.ringsBusy = true ∨ s.writesBusy = true ∨ s.updBusy = true) → ∃ t, exec (.standby who) s = .next t ∧
        t.reg .secResult = BitVec.ofNat 32 (2 * 2 ^ 30 + 6 * 2 ^ 26 + 8 * 2 ^ 22) ∧ OnlyRegs [.secResult] s t) ∧
      (s.writesBusy = false → ∃ t, exec (.deepStandby who) s = .next t ∧ t.boot.phase = .deepStandby ∧
        t.boot.owesEpoch = true ∧ t.dram = {} ∧ t.fld .ddrStatus F.ddrStatus_READY = 0 ∧ t.dramSize = 0 ∧
        t.fld .bootNet F.bootNet_ARMED = 0 ∧ t.pins.dstby = true ∧ t.alert = false ∧ t.sec.quotes = [] ∧
        (∀ x : Fin 64, (t.ep x).cak = none) ∧ (∀ p : Fin 4, t.portState p ≠ ptUp) ∧
        ∀ r : Fin 8, (stoppable (s.ringState r) = true ∨ s.ringState r = stStopping ∨ s.ringState r = stStopped) →
          t.ringState r = stStopped ∧ t.fld (.ringManifestStatus r) F.ringManifestStatus_CAUSE = cauPower) ∧
      (s.writesBusy = true → ∃ t, exec (.deepStandby who) s = .next t ∧
        t.reg .secResult = BitVec.ofNat 32 (2 * 2 ^ 30 + 7 * 2 ^ 26 + 9 * 2 ^ 22) ∧ OnlyRegs [.secResult] s t)) ∧
    ∀ c op, ((c, op) ∈ ([(.standby who, 6), (.deepStandby who, 7)] : List (Instr × Nat))) →
      (s.mayManage who = false → ∃ t, exec c s = .next t ∧
        t.reg .secResult = BitVec.ofNat 32 (2 * 2 ^ 30 + op * 2 ^ 26 + 6 * 2 ^ 22) ∧ OnlyRegs [.secResult] s t) ∧
      (s.mayManage who = true → s.lifecycle = lcBlank → ∃ t, exec c s = .next t ∧
        t.reg .secResult = BitVec.ofNat 32 (2 * 2 ^ 30 + op * 2 ^ 26 + 5 * 2 ^ 22) ∧ OnlyRegs [.secResult] s t)

/-! ## TAP and debug -/

/-- An instruction of the TAP takes force; IDCODE is in force after TRST; the boundary-scan instructions act only
under a reset, and a private instruction only at level FULL, else as BYPASS (R433, R471, R475, R476). -/
def Obligations.TapInstructionsTakeForce : Prop :=
  ∀ (s : State),
    (s.pins.deferred = 0 →
      (exec .trstAssert s = .next { s with pins := { s.pins with tapIr := 0x01, tapData := 0x1A3909C7 } }) ∧
      (s.pins.rails.getLsbD 0 = true → ∀ code, ∀ c ∈ ([.extest, .idcode, .samplePreload, .highz, .clamp, .extestPulse,
        .extestTrain, .privateDebug code, .bypass] : List Instr), exec c s = .next s) ∧
      (s.pins.rails.getLsbD 0 = false →
        (exec .idcode s = .next { s with pins := { s.pins with tapIr := 0x01, tapData := 0x1A3909C7 } }) ∧
        (exec .samplePreload s = .next { s with pins := { s.pins with tapIr := 0x02, tapData := 0 } }) ∧
        (exec .bypass s = .next { s with pins := { s.pins with tapIr := 0xFF, tapData := 0 } }) ∧
        (∀ c ir, ((c, ir) ∈ ([(.extest, 0x00), (.highz, 0x03), (.clamp, 0x04), (.extestPulse, 0x05),
          (.extestTrain, 0x06)] : List (Instr × Byte))) →
          exec c s = .next { s with pins := { s.pins with tapIr := if s.heldReset then ir else 0xFF, tapData := 0 } }) ∧
        ∀ code : Byte, exec (.privateDebug code) s = .next { s with pins := { s.pins with
          tapIr := if s.debugFull = true ∧ 0x80 ≤ code.toNat ∧ code.toNat ≤ 0xFE then code else 0xFF, tapData := 0 } })) ∧
    (s.pins.deferred ≠ 0 → s.pins.rails.getLsbD 0 = false → s.heldReset = false →
      (∀ c ir, ((c, ir) ∈ ([(.extest, 0x00), (.highz, 0x03), (.clamp, 0x04), (.extestPulse, 0x05),
        (.extestTrain, 0x06)] : List (Instr × Byte))) →
        exec c s = .next { s with pins := { s.pins with tapIr := ir, tapData := 0 } }) ∧
      exec .bypass s = .next ({ s with pins := { s.pins with tapIr := 0xFF, tapData := 0, deferred := 0 } } :
        State).started.romBoot)

/-- The debug endpoint halts a ring, issues the head commands of chosen queues once, and lets it go on; it reads and
writes four bytes of the ring's memory, a core's through its gathering buffer. Any other is ignored, and in Standby so
is the debug endpoint. FAULT_POP removes the head record of its SEQ. A core's held trace records leave in a batch of
at most 64; a SYNC marker crosses to the core and its record holds the concourse's count (R154, R433, R439, R447,
R450, R452, R453, R455, R457). -/
def Obligations.DebugHaltsStepsReadsAndWrites : Prop :=
  ∀ (s : State) (r : Fin 8) (who : Who) (core : Fin 16),
    ((s.debugRight r 2 who = false ∨ s.inStandby = true) → ∀ chosen queues value, ∀ c ∈ ([.dbgHalt r who,
      .dbgStep r chosen queues who, .dbgResume r who, .dbgAccRead r who, .dbgAccWrite r value who] : List Instr),
      exec c s = .next s) ∧
    (s.debugRight r 2 who = true → s.inStandby = false →
      (∃ t, exec (.dbgHalt r who) s = .next t ∧ (t.ring r).halted = true ∧ OnlyRing r s t ∧ t.cores = s.cores ∧
        t.regs = s.regs ∧ ∀ (c : Fin 16) (q : Fin 5), (s.queue c q).stepNow = false → t.issuing r c q = false) ∧
      (∀ chosen queues, (s.ring r).halted = true → ∃ t, exec (.dbgStep r chosen queues who) s = .next t ∧
        t.rings = s.rings ∧ t.regs = s.regs ∧
        ∀ (c : Fin 16) (q : Fin 5), (t.queue c q).stepNow = ((s.queue c q).stepNow ||
          (queues.getLsbD q.val && (s.coresOf r).contains c && (chosen.isNone || chosen == some c))) ∧
          (t.queue c q).tags = (s.queue c q).tags ∧ (t.core c).mem = (s.core c).mem) ∧
      (∀ chosen queues, (s.ring r).halted = false → exec (.dbgStep r chosen queues who) s = .next s) ∧
      (∃ t, exec (.dbgResume r who) s = .next t ∧ (t.ring r).halted = false ∧ OnlyRing r s t ∧ t.regs = s.regs ∧
        ∀ c ∈ s.coresOf r, ∀ q : Fin 5, (t.queue c q).stepNow = false ∧ (t.queue c q).tags = (s.queue c q).tags) ∧
      (∀ c a s1 d, s.debugPlace r = .cm c a → s.cmRead (noCommand r) c a 4 = (s1, d) → ∃ t, exec (.dbgAccRead r who) s = .next t ∧
        t.reg (.dbgAccData r) = BitVec.ofNat 32 (leVal (rawBytes d)) ∧
        t.fld (.dbgAccStatus r) F.dbgAccStatus_POISON = bitNat (anyPoison d) ∧
        KeepsRegs [.dbgAccStatus r, .dbgAccData r] s1 t ∧ t.cores = s1.cores ∧ t.mwy = s.mwy) ∧
      (∀ a, s.debugPlace r = .mwy a → (∀ w ∈ s.mwyWords r (wordsOf a 4), eccOf s.mwyFlips w = .clean) →
        ∃ t, exec (.dbgAccRead r who) s = .next t ∧
          t.reg (.dbgAccData r) = BitVec.ofNat 32 (leVal ((List.range 4).map fun i => smGet 0 s.mwy (s.mwyPlace r (a + i)))) ∧
          SameCompute s t) ∧
      (∀ a s1 d, s.debugPlace r = .mwy a → s.mwyRead r (noCommand r) a 4 = (s1, d) → ∃ t, exec (.dbgAccRead r who) s = .next t ∧
        t.reg (.dbgAccData r) = BitVec.ofNat 32 (leVal (rawBytes d)) ∧
        KeepsRegs [.dbgAccStatus r, .dbgAccData r] s1 t ∧ t.cores = s1.cores ∧ t.mwy = s1.mwy) ∧
      (∀ a s1 o, s.debugPlace r = .dram a → s.dramRead (.boothFor r) (noCommand r) none a 4 = (s1, o) →
        ∃ t, exec (.dbgAccRead r who) s = .next t ∧
          t.reg (.dbgAccData r) = BitVec.ofNat 32 (leVal (rawBytes (o.getD (cleanBytes (leBytes 4 0))))) ∧
          KeepsRegs [.dbgAccStatus r, .dbgAccData r] s1 t ∧ t.dram = s1.dram ∧ t.cores = s1.cores ∧ t.mwy = s1.mwy) ∧
      (∀ a value, s.debugPlace r = .dram a → exec (.dbgAccWrite r value who) s =
        .next (s.dramWrite (.boothFor r) (noCommand r) 0 a (cleanBytes (leBytes 4 value.toNat))).1) ∧
      (s.debugPlace r = .outside → (∃ t, exec (.dbgAccRead r who) s = .next t ∧ t.reg (.dbgAccData r) = 0 ∧
        t.fld (.dbgAccStatus r) F.dbgAccStatus_REFUSED = 1 ∧ SameCompute s t) ∧
        ∀ value, ∃ t, exec (.dbgAccWrite r value who) s = .next t ∧
          t.fld (.dbgAccStatus r) F.dbgAccStatus_REFUSED = 1 ∧ OnlyRegs [.dbgAccStatus r] s t) ∧
      (∀ c a value, s.debugPlace r = .cm c a → NoErrors (s.core c) → ((s.core c).gather.map fun g => g.line).Nodup →
        ∃ t, exec (.dbgAccWrite r value who) s = .next t ∧ OnlyCore c s t ∧ t.mwy = s.mwy ∧ t.regs = s.regs ∧
          ∀ p : Nat, smGet 0 (flushAll (t.core c)).mem p =
            if a ≤ p ∧ p < a + 4 then (leBytes 4 value.toNat).getD (p - a) 0 else smGet 0 (flushAll (s.core c)).mem p) ∧
      (∀ a value, s.debugPlace r = .mwy a → exec (.dbgAccWrite r value who) s =
        .next (s.mwyWrite r (noCommand r) a (cleanBytes (leBytes 4 value.toNat)))) ∧
      (∀ a value, s.debugPlace r = .mwy a → (∀ w ∈ s.mwyWords r (partWords a 4), eccOf s.mwyFlips w = .clean) →
        ∃ t, exec (.dbgAccWrite r value who) s = .next t ∧
          (∀ i < 4, smGet 0 t.mwy (s.mwyPlace r (a + i)) = (leBytes 4 value.toNat).getD i 0) ∧ t.cores = s.cores ∧
          (∀ p : Nat, (∀ i < 4, p ≠ s.mwyPlace r (a + i)) → smGet 0 t.mwy p = smGet 0 s.mwy p) ∧ t.regs = s.regs)) ∧
    (∀ seq f rest,
      (s.mayManage who = true → s.devFaults = f :: rest →
        exec (.faultPop none seq who) s = .next { s with devFaults := if f.seq = seq then rest else f :: rest }) ∧
      (s.mayManage who = false → exec (.faultPop none seq who) s = .next s) ∧
      (Heard s r who → (s.ring r).faults = f :: rest → ∃ t, exec (.faultPop (some r) seq who) s = .next t ∧
        (t.ring r).faults = (if f.seq = seq then rest else f :: rest) ∧ OnlyRing r s t ∧ t.regs = s.regs ∧
        t.cores = s.cores) ∧
      (s.ringAccess r who = false → exec (.faultPop (some r) seq who) s = .next s)) ∧
    (s.ringOfCore core = some r → s.fld (.dbgTraceCtrl core) F.dbgTraceCtrl_MODE = 4 → (s.core core).trace ≠ [] →
      ∃ t, exec (.traceStreamTimeout core) s = .next t ∧ (t.core core).trace = (s.core core).trace.drop 64 ∧
        (t.core core).mem = (s.core core).mem ∧ OnlyCore core s t ∧ t.mwy = s.mwy) ∧
    ((s.fld (.dbgTraceCtrl core) F.dbgTraceCtrl_MODE ≠ 4 ∨ (s.core core).trace = []) →
      exec (.traceStreamTimeout core) s = .next s) ∧
    (s.fld (.dbgTraceCtrl core) F.dbgTraceCtrl_MODE = 0 → exec (.syncMarker core) s = .next s) ∧
    (s.fld (.dbgTraceCtrl core) F.dbgTraceCtrl_MODE ≠ 0 → ∃ t, exec (.syncMarker core) s = .next t ∧
      Sends s t (.concourseToCore core) (.sync (s.count concourseIsland)) ∧
      t = { s with cross := t.cross, heldBack := t.heldBack }) ∧
    ∀ (n : BitVec 48) rest, s.clockRuns (coreIsland core) = true →
      takeCross (.concourseToCore core) s.cross = some (.sync n, rest) → s.ringOfCore core = some r →
      (s.tracing r core && s.traceWants core evSync 0) = true → s.fld (.dbgTraceCtrl core) F.dbgTraceCtrl_MODE = 1 →
      (s.core core).traceTaken (s.count (coreIsland core)) < 2 → (s.core core).trace.length < 4096 →
      ∃ t, exec (.crossingDeliver (.concourseToCore core)) s = .next t ∧ Drains s t (.concourseToCore core) ∧
        (t.core core).trace = (s.core core).trace ++ [⟨BitVec.ofNat 32 n.toNat, s.count (coreIsland core),
          BitVec.ofNat 16 evSync, BitVec.ofNat 32 (n.toNat / 2 ^ 32)⟩] ∧
        (t.core core).mem = (s.core core).mem ∧ OnlyCore core s t ∧ t.regs = s.regs ∧ t.mwy = s.mwy

/-! ## The whole machine -/

/-- Every memory of the state keeps its canonical form over every step, so that equal contents are equal data. -/
def Obligations.EveryStepKeepsTheCanonicalForm : Prop :=
  ∀ s t : State, Memory.wf s → step s = .next t → Memory.wf t

/-- A command changes everything but the queue of commands: what waits behind it is as it was. -/
def Obligations.EveryCommandLeavesTheQueueAlone : Prop :=
  ∀ (c : Instr) (s t : State), exec c s = .next t → t.pending = s.pending

/-- The machine's own queues never hold more than the manual gives them: 64 commands an engine queue, 32 entries a
data queue, 8 entries of different lines a gathering buffer, 8 entries a crossing, 256 held writes a parked ring, 64
records the device's fault queue; and the operations on their way to a core's flags stand in the order in which they
reach them (R24, R104, R108, R126, R154, R313, R447). -/
def Obligations.EveryStepKeepsQueuesWithinTheirDepth : Prop :=
  ∀ s t : State, QueuesFit s → step s = .next t → QueuesFit t

/-- A register's address leads back to the register: no two registers share an address (R6, R310, R311; the order of
the blocks within their range is the model's reading, log 8). -/
def Obligations.RegisterAddressesLeadBack : Prop :=
  ∀ r : Reg, Reg.ofAddr r.addr = some r ∧ r.addr % 4 = 0

/-- After reset the memories are zero and in canonical form, counters are 0, the queues and fault queues are empty, no
ring is bound, and the first fault record has SEQ 1 (R9, R25, R147, R445, R456; that PORESET_N is asserted there is
the model's choice, log 7). -/
def Obligations.ResetLeavesTheMachineEmpty : Prop :=
  Memory.wf State.reset ∧ QueuesFit State.reset ∧ State.reset.pending = [] ∧ State.reset.faultSeq = 1 ∧
    State.reset.devFaults = [] ∧ State.reset.cross = [] ∧ State.reset.heldBack = [] ∧ State.reset.boot.phase = .inReset ∧ State.reset.pins.poreset = true ∧
    (∀ i : Fin 43, State.reset.count i = 0) ∧ (∀ a : Nat, smGet 0 State.reset.mwy a = 0) ∧
    (∀ r : Fin 8, (State.reset.ring r).bound = false ∧ (State.reset.ring r).faults = [] ∧
      State.reset.ringState r = stAbsent ∧ (State.reset.ring r).flags = 0) ∧
    ∀ c : Fin 16, (State.reset.core c).flags = 0 ∧ (∀ a : Nat, smGet 0 (State.reset.core c).mem a = 0) ∧
      (∀ a : Nat, smGet 0 (State.reset.core c).opnd a = 0) ∧ (State.reset.core c).wValid = 0 ∧
      (State.reset.core c).aValid = 0 ∧ (∀ n : Fin 8, State.reset.dq c n = []) ∧
      ∀ q : Fin 5, (State.reset.queue c q).tags = []

/-! ## Rules stated whole -/

/-- R83 and R98, for the formats that the quantiser writes: the sign and magnitude of every code8 code, the steps between the
magnitudes, code 0x80 that is zero and is never written; the derived exponent is the smallest that represents a magnitude, or
255, and a group is measured against the representable maximum of its exponent. -/
def Obligations.Code8AndDerivedExponentsFollowTheirTables : Prop :=
  (∀ c : Nat, c < 256 → ∃ mag : Nat, expand .code8 c = .fin (decide (128 ≤ c)) mag (-8) ∧
    ((c % 128 ≤ 71 → (mag : ℚ) / 256 = ((c % 128 : Nat) : ℚ) / 256) ∧
      (72 ≤ c % 128 → c % 128 ≤ 103 → (mag : ℚ) / 256 = (((c % 128 : Nat) : ℚ) - 36) / 128) ∧
      (104 ≤ c % 128 → c % 128 ≤ 119 → (mag : ℚ) / 256 = (((c % 128 : Nat) : ℚ) - 70) / 64) ∧
      (120 ≤ c % 128 → (mag : ℚ) / 256 = (((c % 128 : Nat) : ℚ) - 95) / 32) ∧
      (c % 128 = 127 → (mag : ℚ) / 256 = 1) ∧ (c = 0x80 → mag = 0))) ∧
    (∀ m : Nat, m < 127 → code8Mag (m + 1) =
      code8Mag m + (if m ≤ 71 then 1 else if m ≤ 103 then 2 else if m ≤ 119 then 4 else 8)) ∧
    (∀ (E : Nat) (w : Word), (quantise .code8 E w).1 ≠ 0x80) ∧
    ∀ (code : Nat) (f : ArrFmt) (w : Word) (m : Nat) (e : Int), quantFmt code = some f →
      f32.decode w.toNat = .fin false m e →
      ((∃ E : Nat, E ≤ 255 ∧ (m : ℚ) * 2 ^ e ≤ (fmtMax f : ℚ) * 2 ^ ((E : Int) - 127)) →
        derivedExp f w ≤ 255 ∧ (m : ℚ) * 2 ^ e ≤ (fmtMax f : ℚ) * 2 ^ ((derivedExp f w : Int) - 127) ∧
          ∀ E : Nat, (m : ℚ) * 2 ^ e ≤ (fmtMax f : ℚ) * 2 ^ ((E : Int) - 127) → derivedExp f w ≤ E) ∧
      ((∀ E : Nat, E ≤ 255 → (fmtMax f : ℚ) * 2 ^ ((E : Int) - 127) < (m : ℚ) * 2 ^ e) → derivedExp f w = 255) ∧
      ∀ (E : Nat) (l : List Word), largest l = w →
        ((measure f E l).tooBig = true ↔ 2 * ((fmtMax f : ℚ) * 2 ^ ((E : Int) - 127)) < (m : ℚ) * 2 ^ e) ∧
        ((measure f E l).tooSmall = true ↔
          0 < (m : ℚ) * 2 ^ e ∧ (m : ℚ) * 2 ^ e < (fmtMax f : ℚ) * 2 ^ ((E : Int) - 127) / 16)

/-- R156: whether bytes are still in the gathering buffer or already in core memory, a read returns those written
last, in a memory of which no word has more than two symbols in error (what such a word reads as is R146's); and CORE_MEM_STATUS
shows the entries in use. That a core's entries are of different lines is the invariant of
EveryStepKeepsQueuesWithinTheirDepth. -/
def Obligations.EveryReadOfCoreMemoryReturnsTheLastBytes : Prop :=
  ∀ (s : State) (c : Fin 16) (tag : Tag), ((s.core c).gather.map fun g => g.line).Nodup → Correctable (s.core c) →
    (∀ a n : Nat, rawBytes (s.cmRead tag c a n).2 = (List.range n).map fun i => smGet 0 (flushAll (s.core c)).mem (a + i)) ∧
    (∀ (a : Nat) (d : List PByte) (p : Nat), smGet 0 (flushAll ((s.cmWrite tag c a d).core c)).mem p =
      if a ≤ p ∧ p < a + d.length then (d.getD (p - a) (0, false)).1 else smGet 0 (flushAll (s.core c)).mem p) ∧
    (∀ (addr : Nat) (d : List (Byte × Bool)) (p : Nat), smGet 0 (flushAll (storeLines (s.core c) addr d)).mem p =
      if addr ≤ p ∧ p < addr + d.length ∧ (d.getD (p - addr) (0, false)).2 = true then (d.getD (p - addr) (0, false)).1
      else smGet 0 (flushAll (s.core c)).mem p) ∧
    ((s.core c).gather.length ≤ 8 →
      F.coreMemStatus_GATHER_USED.get (s.regValue (.coreMemStatus c)) = (s.core c).gather.length)

/-- R128: core flags are clear at the start of an invocation; ring flags are as they were over its start and its end, and zero
after a STOP. -/
def Obligations.FlagsAcrossInvocations : Prop :=
  ∀ (s : State) (r : Fin 8),
    (∀ i, s.headReady r = some i → s.canClaim r i.slot = true → ∃ t, exec (.invocationStart r) s = .next t ∧
      (t.ring r).current = some i ∧ (∀ c ∈ s.coresOf r, (t.core c).flags = 0 ∧ (t.core c).flagPend = []) ∧
      ∀ q : Fin 8, (t.ring q).flags = (s.ring q).flags) ∧
    (∃ t, exec (.invocationEnd r) s = .next t ∧ ∀ q : Fin 8, (t.ring q).flags = (s.ring q).flags) ∧
    (s.ringState r = stStopping → s.flagsDrained r = true → s.answersWait r = false → (s.ring r).bound = true →
      ∃ t, exec (.stopComplete r) s = .next t ∧ (t.ring r).flags = 0 ∧ ∀ q : Fin 8, q ≠ r → (t.ring q).flags = (s.ring q).flags)
end

