-- ==== Sys2Proof/Laws/Memory.lean ====
section
/-! SUPPORT. The memories' operations keep the canonical form: equal contents stay equal data. -/

namespace Sys2Proof.Machine

/-- What every step of a fold keeps, the fold keeps. -/
theorem foldl_keeps {α β : Type} {P : α → Prop} {f : α → β → α} (h : ∀ x y, P x → P (f x y)) :
    ∀ (l : List β) (x : α), P x → P (l.foldl f x)
  | [], _, hx => hx
  | y :: t, x, hx => foldl_keeps h t (f x y) (h x y hx)

/-- Bytes put from an address on. -/
theorem smWf_bytesPut (place : Nat → Nat) (d : List PByte) (a : Nat) {m : SparseMap 8} (h : smWf 0 m = true) :
    smWf 0 (bytesPut place a d m) = true := by
  induction d generalizing a m with
  | nil => exact h
  | cons p t ih => exact ih (a + 1) (smWf_smSet 0 (place a) p.1 h)

/-- The poison marks of a write. -/
theorem smWf_marksPut (place : Nat → Nat) (a : Nat) (d : List PByte) {bad : SparseMap 1} (h : smWf 0 bad = true) :
    smWf 0 (marksPut place a d bad) = true := by
  refine foldl_keeps (P := fun m => smWf 0 m = true) (fun m i hm => ?_) _ bad h
  dsimp only
  split
  · exact smWf_smSet 0 _ 1 hm
  · split
    · exact smWf_smSet 0 _ 0 hm
    · exact hm

/-- The canonical form of a core's memories, one by one. -/
theorem coreCanonical_iff (k : Core) : k.canonical = true ↔
    smWf 0 k.opnd = true ∧ smWf 0 k.opndBad = true ∧ smWf 0 k.acc = true ∧ smWf 0 k.accBad = true ∧ smWf 0 k.vregs = true ∧
      smWf 0 k.mem = true ∧ smWf 0 k.memBad = true ∧ smWf 0 k.memFlips = true := by
  simp [Core.canonical, Bool.and_eq_true, and_assoc]

/-- The error symbols of words that are written, gone. -/
theorem smWf_freshWords (l : List Nat) {m : SparseMap 8} (h : smWf 0 m = true) : smWf 0 (freshWords l m) = true :=
  foldl_keeps (P := fun m => smWf 0 m = true) (fun _ _ hm => smWf_smClear 0 _ _ hm) l m h

/-- A word decoded. -/
theorem canonical_decodeWord {k : Core} (w : Nat) (h : k.canonical = true) : (decodeWord k w).canonical = true := by
  unfold decodeWord
  split
  · exact h
  · split
    · exact h
    · exact h
    · rw [coreCanonical_iff] at h ⊢
      obtain ⟨h1, h2, h3, h4, h5, h6, h7, h8⟩ := h
      exact ⟨h1, h2, h3, h4, h5, smWf_smWrite 0 _ _ h6, smWf_smSet 0 w 1 h7, smWf_smClear 0 _ _ h8⟩

/-- Words decoded. -/
theorem canonical_decodeWords (l : List Nat) {k : Core} (h : k.canonical = true) : (l.foldl decodeWord k).canonical = true :=
  foldl_keeps (P := fun k : Core => k.canonical = true) (fun _ w hk => canonical_decodeWord w hk) l k h

/-- An entry of the gathering buffer flushed. -/
theorem canonical_flushEntry {k : Core} (g : GatherEntry) (h : k.canonical = true) : (flushEntry k g).canonical = true := by
  unfold flushEntry
  dsimp only
  generalize hl : (([0, 1].filter fun w => g.mask.extractLsb' (32 * w) 32 != 0).filter _).map _ = l
  have h := canonical_decodeWords l h
  rw [coreCanonical_iff] at h ⊢
  obtain ⟨h1, h2, h3, h4, h5, h6, h7, h8⟩ := h
  refine ⟨h1, h2, h3, h4, h5, ?_, ?_, smWf_freshWords _ h8⟩
  · exact foldl_keeps (P := fun m => smWf 0 m = true) (fun m p hm => smWf_smSet 0 _ p.2 hm) _ _ h6
  · exact foldl_keeps (P := fun m => smWf 0 m = true) (fun m w hm => smWf_smSet 0 _ 0 hm) _ _ h7

/-- The gathering buffer is no memory of its own in the canonical form. -/
theorem canonical_gather {k : Core} (l : List GatherEntry) (h : k.canonical = true) :
    ({ k with gather := l } : Core).canonical = true := h

/-- Entries flushed. -/
theorem canonical_flushWhere (p : GatherEntry → Bool) {k : Core} (h : k.canonical = true) :
    (flushWhere p k).canonical = true :=
  canonical_gather _ (foldl_keeps (P := fun k : Core => k.canonical = true) (fun _ g hk => canonical_flushEntry g hk) _ k h)

/-- Pieces of a line put into the gathering buffer. -/
theorem canonical_gatherPut (line : Nat) (bytes : List (Nat × Byte)) {k : Core} (h : k.canonical = true) :
    (gatherPut line bytes k).canonical = true := by
  have hrest : ∀ rest : List GatherEntry, (match rest with
      | [] => k
      | g :: t => { flushEntry k g with gather := t }).canonical = true := by
    intro rest
    cases rest with
    | nil => exact h
    | cons g t => exact canonical_gather t (canonical_flushEntry g h)
  unfold gatherPut
  dsimp only
  split
  · refine canonical_flushEntry _ ?_
    split
    · exact hrest _
    · exact canonical_gather _ h
  · refine canonical_gather _ ?_
    split
    · exact hrest _
    · exact canonical_gather _ h

/-- A range made ready for a read. -/
theorem canonical_readyRange (a n : Nat) {k : Core} (h : k.canonical = true) : (readyRange a n k).canonical = true :=
  canonical_decodeWords _ (canonical_flushWhere _ h)

/-- A port's write of core memory. -/
theorem canonical_corePut (a : Nat) (d : List PByte) {k : Core} (h : k.canonical = true) : (corePut a d k).canonical = true := by
  have hf := canonical_decodeWords (partWords a d.length) (canonical_flushWhere
    (fun g => decide (a / 64 ≤ g.line) && decide (64 * g.line < a + d.length)) h)
  unfold corePut flushRange
  dsimp only
  rw [coreCanonical_iff] at hf ⊢
  obtain ⟨h1, h2, h3, h4, h5, h6, h7, h8⟩ := hf
  exact ⟨h1, h2, h3, h4, h5, smWf_smWrite 0 a _ h6, smWf_marksPut id a d h7, smWf_freshWords _ h8⟩

/-- A write of the operand space. -/
theorem canonical_opPut (a : Nat) (d : List PByte) {k : Core} (h : k.canonical = true) : (opPut a d k).canonical = true := by
  rw [coreCanonical_iff] at h ⊢
  obtain ⟨h1, h2, h3⟩ := h
  exact ⟨smWf_smWrite 0 a _ h1, smWf_smWrite 0 a _ h2, h3⟩

/-- The canonical form of the state, memory by memory. -/
theorem canonical_iff (s : State) : s.canonical = true ↔
    smWf 0 s.regs = true ∧ (∀ c : Fin 16, (s.core c).canonical = true) ∧ smWf 0 s.mwy = true ∧ smWf 0 s.mwyBad = true ∧
      smWf 0 s.mwyFlips = true ∧ smWf 0 s.dram.data = true ∧ smWf 0xFF s.dram.unitOwner = true ∧ smWf 0 s.dram.tag = true ∧ smWf 0 s.dram.flips = true ∧
      smWf 0xFF s.flash.main = true ∧ smWf (BitVec.allOnes 192) s.flash.tags = true ∧ smWf 0 s.flash.flips = true ∧
      smWf 0 s.flash.reads = true ∧ smWf 0 s.flash.erases = true ∧ smWf 0 s.sec.store = true ∧ (∀ x : Fin 64, smWf 0 (s.stream x).ispActive = true) ∧
      ∀ x : Fin 64, smWf 0 (s.ep x).last = true := by
  have hv : ∀ {n : Nat} {α : Type} (v : Vector α n) (p : α → Bool),
      v.toList.all p = true ↔ ∀ i : Fin n, p v[i] = true := by
    intro n α v p
    rw [List.all_eq_true]
    refine ⟨fun h i => h _ (by simp [Vector.mem_toList_iff]), fun h x hx => ?_⟩
    obtain ⟨i, hi, rfl⟩ := Vector.mem_iff_getElem.mp (Vector.mem_toList_iff.mp hx)
    exact h ⟨i, hi⟩
  unfold State.canonical
  simp only [Bool.and_eq_true, hv]
  simp only [State.core, State.stream, State.ep, and_assoc]

/-- A register written. -/
theorem wf_setReg {s : State} (r : Reg) (v : Word) (h : Memory.wf s) : Memory.wf (s.setReg r v) := by
  rw [Memory.wf, canonical_iff] at h ⊢
  exact ⟨smWf_smSet 0 _ v h.1, h.2⟩

/-- A core replaced by one in canonical form. -/
theorem wf_setCore {s : State} (c : Fin 16) {k : Core} (h : Memory.wf s) (hk : k.canonical = true) : Memory.wf (s.setCore c k) := by
  rw [Memory.wf, canonical_iff] at h ⊢
  obtain ⟨h1, h2, h3⟩ := h
  refine ⟨h1, fun i => ?_, h3⟩
  by_cases hi : c = i
  · subst hi
    rw [core_setCore]
    exact hk
  · rw [core_setCore_ne s k hi]
    exact h2 i

/-- The canonical form of DRAM. -/
def dramWf (d : Dram) : Prop :=
  smWf 0 d.data = true ∧ smWf 0xFF d.unitOwner = true ∧ smWf 0 d.tag = true ∧ smWf 0 d.flips = true

/-- A line put. -/
theorem dramWf_linePut {d : Dram} (n : Nat) (bytes : List Byte) (tag : Word) (h : dramWf d) : dramWf (linePut d n bytes tag) :=
  ⟨smWf_smWrite 0 _ bytes h.1, h.2.1, smWf_smSet 0 n _ h.2.2.1, smWf_smClear 0 _ _ h.2.2.2⟩

/-- Errors gathered by a burst. -/
theorem dramWf_flipLine {d : Dram} (n : Nat) (flips : List (Nat × Byte)) (h : dramWf d) : dramWf (flipLine n flips d) := by
  refine foldl_keeps (P := dramWf) (fun d f hd => ?_) flips d h
  split
  · exact ⟨hd.1, hd.2.1, hd.2.2.1, smWf_smSet 0 _ _ hd.2.2.2⟩
  · exact hd

/-- A line rewritten. -/
theorem dramWf_cleanLine {d : Dram} (n : Nat) (h : dramWf d) : dramWf (cleanLine n d) :=
  ⟨h.1, h.2.1, h.2.2.1, smWf_smClear 0 _ _ h.2.2.2⟩

/-- A unit zeroised. -/
theorem dramWf_zeroUnit {d : Dram} (u : Nat) (h : dramWf d) : dramWf (zeroUnit d u) :=
  ⟨smWf_smClear 0 _ _ h.1, smWf_smSet 0xFF u 0xFF h.2.1, smWf_smClear 0 _ _ h.2.2.1, smWf_smClear 0 _ _ h.2.2.2⟩

/-- A state whose DRAM alone changes, and keeps its form. -/
theorem wf_dram {s : State} {d : Dram} (h : Memory.wf s) (hd : dramWf s.dram → dramWf d) : Memory.wf { s with dram := d } := by
  rw [Memory.wf, canonical_iff] at h ⊢
  obtain ⟨h1, h2, h3, h4, h5, h6, h7, h8, h9, h10⟩ := h
  obtain ⟨g1, g2, g3, g4⟩ := hd ⟨h6, h7, h8, h9⟩
  exact ⟨h1, h2, h3, h4, h5, g1, g2, g3, g4, h10⟩

/-- An endpoint that keeps its LAST entries. -/
theorem wf_onEp {s : State} (e : Fin 64) (f : Endpoint → Endpoint) (hf : ∀ k, (f k).last = k.last) (h : Memory.wf s) :
    Memory.wf (s.onEp e f) := by
  rw [Memory.wf, canonical_iff] at h ⊢
  obtain ⟨h1, h2, h3, h4, h5, h6, h7, h8, h9, h10, h11, h12, h13, h14, h15, h16, h17⟩ := h
  refine ⟨h1, h2, h3, h4, h5, h6, h7, h8, h9, h10, h11, h12, h13, h14, h15, h16, fun i => ?_⟩
  by_cases hi : e = i
  · subst hi
    rw [ep_onEp, hf]
    exact h17 e
  · rw [ep_onEp_ne s f hi]
    exact h17 i

/-- A flash page programmed. -/
theorem wf_programPage {s : State} (pg : Nat) (tag : BitVec 192) (bytes : List Byte) (h : Memory.wf s) :
    Memory.wf (s.programPage pg tag bytes) := by
  rw [Memory.wf, canonical_iff] at h ⊢
  obtain ⟨h1, h2, h3, h4, h5, h6, h7, h8, h9, h10, h11, h12, h13⟩ := h
  exact ⟨h1, h2, h3, h4, h5, h6, h7, h8, h9, smWf_smWrite 0xFF _ _ h10, smWf_smSet _ pg tag h11, smWf_smClear 0 _ _ h12, h13⟩

/-- A flash block erased. -/
theorem wf_eraseBlock {s : State} (b : Nat) (h : Memory.wf s) : Memory.wf (s.eraseBlock b) := by
  rw [Memory.wf, canonical_iff] at h ⊢
  obtain ⟨h1, h2, h3, h4, h5, h6, h7, h8, h9, h10, h11, h12, h13, h14, h15⟩ := h
  exact ⟨h1, h2, h3, h4, h5, h6, h7, h8, h9, smWf_smClear 0xFF _ _ h10, smWf_smClear _ _ _ h11, smWf_smClear 0 _ _ h12,
    smWf_smSet 0 b 0 h13, smWf_smSet 0 b _ h14, h15⟩

/-- The security store written. -/
theorem wf_storeWrite {s : State} (r : StoreRec) (h : Memory.wf s) : Memory.wf (s.storeWrite r) := by
  unfold State.storeWrite
  split
  · rw [Memory.wf, canonical_iff] at h ⊢
    obtain ⟨h1, h2, h3, h4, h5, h6, h7, h8, h9, h10, h11, h12, h13, h14, h15, h16⟩ := h
    exact ⟨h1, h2, h3, h4, h5, h6, h7, h8, h9, h10, h11, h12, h13, h14, smWf_smWrite 0 _ _ (smWf_smWrite 0 0 _ h15), h16⟩
  · exact h

end Sys2Proof.Machine
end

