-- ==== Sys2Proof/Laws/Report.lean ====
section
/-! SUPPORT. What reporting can do. A message, a device record or a log entry changes the endpoints and the frames sent, DRAM
with its error registers, the fault queues, the log and the result slots (R195, R303, R317, R321, R322, R445 to R449); a
trace record changes beside these a core's trace buffer and two registers of its trace (R450 to R452). All of it keeps every
memory in canonical form. -/

namespace Sys2Proof.Machine

/-! ## Registers of error reports -/

/-- The addresses of the registers that a report can change: those of DRAM errors (R195) and of fault queues (R447). -/
def reportAddrs : List Nat :=
  [(Reg.ddrErrAddr 0).addr, (Reg.ddrErrAddr 1).addr, Reg.ddrErrInfo.addr, Reg.errDevFaultStatus.addr] ++
    ((List.finRange 8).map fun u => (Reg.ddrErrCount0 u).addr) ++ ((List.finRange 8).map fun u => (Reg.ddrErrCount1 u).addr) ++
    (List.finRange 8).map fun r => (Reg.errRingFaultStatus r).addr

theorem ddrErrAddr0_mem : (Reg.ddrErrAddr 0).addr ∈ reportAddrs := by simp [reportAddrs]
theorem ddrErrAddr1_mem : (Reg.ddrErrAddr 1).addr ∈ reportAddrs := by simp [reportAddrs]
theorem ddrErrInfo_mem : Reg.ddrErrInfo.addr ∈ reportAddrs := by simp [reportAddrs]
theorem errDevFaultStatus_mem : Reg.errDevFaultStatus.addr ∈ reportAddrs := by simp [reportAddrs]
theorem ddrErrCount0_mem (u : Fin 8) : (Reg.ddrErrCount0 u).addr ∈ reportAddrs := by
  simp only [reportAddrs, List.mem_append, List.mem_map, List.mem_finRange, true_and]
  exact Or.inl (Or.inl (Or.inr ⟨u, rfl⟩))
theorem ddrErrCount1_mem (u : Fin 8) : (Reg.ddrErrCount1 u).addr ∈ reportAddrs := by
  simp only [reportAddrs, List.mem_append, List.mem_map, List.mem_finRange, true_and]
  exact Or.inl (Or.inr ⟨u, rfl⟩)
theorem errRingFaultStatus_mem (r : Fin 8) : (Reg.errRingFaultStatus r).addr ∈ reportAddrs := by
  simp only [reportAddrs, List.mem_append, List.mem_map, List.mem_finRange, true_and]
  exact Or.inr ⟨r, rfl⟩

/-! ## The relation -/

/-- What a report can change. -/
structure Reports (s t : State) : Prop where
  rest : t = { s with
    eps := t.eps, wire := t.wire, ethTurn := t.ethTurn, dram := t.dram, devFaults := t.devFaults
    faultSeq := t.faultSeq, flash := t.flash, rings := t.rings, regs := t.regs }
  flash : t.flash = { s.flash with
    logPending := t.flash.logPending, logSeq := t.flash.logSeq, logDropped := t.flash.logDropped }
  ring : ∀ r : Fin 8, t.ring r = { s.ring r with slots := (t.ring r).slots, faults := (t.ring r).faults }
  regs : ∀ q : Reg, q.addr ∉ reportAddrs → t.reg q = s.reg q
  wf : Memory.wf s → Memory.wf t

theorem Reports.refl (s : State) : Reports s s := ⟨rfl, rfl, fun _ => rfl, fun _ _ => rfl, id⟩

theorem Reports.trans {s t u : State} (h : Reports s t) (g : Reports t u) : Reports s u := by
  refine ⟨?_, ?_, ?_, ?_, fun w => g.wf (h.wf w)⟩
  · rw [g.rest, h.rest]
  · rw [g.flash, h.flash]
  · intro r
    rw [g.ring r, h.ring r]
  · intro q hq
    rw [g.regs q hq, h.regs q hq]

/-- Only the parts that a report may change at will differ. -/
theorem Reports.of {s t : State} (h : t = { s with
    eps := t.eps, wire := t.wire, ethTurn := t.ethTurn, dram := t.dram, devFaults := t.devFaults, faultSeq := t.faultSeq })
    (w : Memory.wf s → Memory.wf t) : Reports s t := by
  have hf : t.flash = s.flash := by rw [h]
  have hr : t.rings = s.rings := by rw [h]
  have hg : t.regs = s.regs := by rw [h]
  refine ⟨?_, ?_, ?_, ?_, w⟩
  · rw [hf, hr, hg]
    exact h
  · rw [hf]
  · intro r
    simp only [State.ring, hr]
  · intro q _
    simp only [State.reg, hg]

theorem reports_onEp (s : State) (e : Fin 64) (f : Endpoint → Endpoint) (hf : ∀ k, (f k).last = k.last) :
    Reports s (s.onEp e f) := .of rfl (wf_onEp e f hf)

theorem reports_dram (s : State) (d : Dram) (hd : dramWf s.dram → dramWf d) : Reports s { s with dram := d } :=
  .of rfl fun h => wf_dram h hd

theorem reports_faultSeq (s : State) (n : Word) : Reports s { s with faultSeq := n } := .of rfl id

/-- A register of the list stored. -/
theorem reports_setReg (s : State) (r : Reg) (v : Word) (h : r.addr ∈ reportAddrs) : Reports s (s.setReg r v) := by
  refine ⟨rfl, rfl, fun _ => rfl, fun q hq => reg_setReg_ne s v ?_, wf_setReg r v⟩
  intro e
  exact hq (e ▸ h)

theorem reports_bump (s : State) (r : Reg) (f : Fld) (n : Nat) (h : r.addr ∈ reportAddrs) : Reports s (s.bump r f n) :=
  reports_setReg _ _ _ h

/-- A ring's result slots and fault queue changed. -/
theorem reports_onRing (s : State) (r : Fin 8) (f : Ring → Ring)
    (h : ∀ k : Ring, f k = { k with slots := (f k).slots, faults := (f k).faults }) : Reports s (s.onRing r f) := by
  refine ⟨rfl, rfl, ?_, fun _ _ => rfl, id⟩
  intro g
  by_cases hg : r = g
  · subst hg
    rw [ring_onRing]
    exact h _
  · rw [ring_onRing_ne s f hg]

/-! ## Records and the log -/

theorem reports_log (s : State) (source code arg0 arg1 : Nat) : Reports s (s.log source code arg0 arg1) := by
  unfold State.log
  split <;> exact ⟨rfl, rfl, fun _ => rfl, fun _ _ => rfl, id⟩

theorem reports_recordLost (s : State) (ring : Option (Fin 8)) : Reports s (s.recordLost ring) := by
  cases ring with
  | some r => exact (reports_bump s _ _ _ (errRingFaultStatus_mem r)).trans (reports_log _ _ _ _ _)
  | none => exact (reports_bump s _ _ _ errDevFaultStatus_mem).trans (reports_log _ _ _ _ _)

theorem reports_storeRecord (s : State) (ring : Option (Fin 8)) (f : FaultRec) : Reports s (s.storeRecord ring f) := by
  unfold State.storeRecord
  cases ring with
  | some r =>
    dsimp only
    have h := reports_onRing s r (fun k => { k with faults := (enqueueRecord 128 (s.ring r).faults f).1 }) fun _ => rfl
    split
    · exact h
    · exact h.trans (reports_recordLost _ _)
  | none =>
    dsimp only
    have h : Reports s { s with devFaults := (enqueueRecord 64 s.devFaults f).1 } := .of rfl id
    split
    · exact h
    · exact h.trans (reports_recordLost _ _)

theorem reports_logRecord (s : State) (ring : Option (Fin 8)) (faulting : Bool) (i : FaultInfo) (seq : Word) :
    Reports s (s.logRecord ring faulting i seq) := by
  unfold State.logRecord
  split
  · split
    · exact reports_log _ _ _ _ _
    · exact Reports.refl s
  · split
    · exact reports_log _ _ _ _ _
    · split
      · exact reports_log _ _ _ _ _
      · exact Reports.refl s

theorem reports_deviceRecord (s : State) (i : FaultInfo) : Reports s (s.deviceRecord i) :=
  ((reports_faultSeq s (s.faultSeq + 1)).trans (reports_storeRecord _ none (s.newRecord none false i))).trans
    (reports_logRecord _ none false i (s.newRecord none false i).seq)

/-! ## Lines of DRAM -/

theorem reports_ddrShow (s : State) (q : Requester) (a kind owner : Nat) : Reports s (s.ddrShow q a kind owner) :=
  ((reports_setReg s _ _ ddrErrAddr0_mem).trans (reports_setReg _ _ _ ddrErrAddr1_mem)).trans
    (reports_setReg _ _ _ ddrErrInfo_mem)

theorem reports_ddrCount (s : State) (n : Nat) (v : Verdict) : Reports s (s.ddrCount n v) := by
  unfold State.ddrCount
  dsimp only
  have h1 : Reports s (if v.kind = 1 then s.bump (.ddrErrCount0 (subFin (s.subOf (64 * n)))) F.ddrErrCount0_UNCORRECTABLE 1
      else if v.kind = 2 then s.bump (.ddrErrCount1 (subFin (s.subOf (64 * n)))) F.ddrErrCount1_GUARD 1
      else if v.kind = 4 then s.bump (.ddrErrCount1 (subFin (s.subOf (64 * n)))) F.ddrErrCount1_STALE 1
      else if v.kind = 0 ∧ v.corrected then s.bump (.ddrErrCount0 (subFin (s.subOf (64 * n)))) F.ddrErrCount0_CORRECTED 1
      else s) := by
    split
    · exact reports_bump _ _ _ _ (ddrErrCount0_mem _)
    · split
      · exact reports_bump _ _ _ _ (ddrErrCount1_mem _)
      · split
        · exact reports_bump _ _ _ _ (ddrErrCount1_mem _)
        · split
          · exact reports_bump _ _ _ _ (ddrErrCount0_mem _)
          · exact Reports.refl s
  generalize (if v.kind = 1 then s.bump (.ddrErrCount0 (subFin (s.subOf (64 * n)))) F.ddrErrCount0_UNCORRECTABLE 1
      else if v.kind = 2 then s.bump (.ddrErrCount1 (subFin (s.subOf (64 * n)))) F.ddrErrCount1_GUARD 1
      else if v.kind = 4 then s.bump (.ddrErrCount1 (subFin (s.subOf (64 * n)))) F.ddrErrCount1_STALE 1
      else if v.kind = 0 ∧ v.corrected then s.bump (.ddrErrCount0 (subFin (s.subOf (64 * n)))) F.ddrErrCount0_CORRECTED 1
      else s) = s1 at h1
  have h2 : Reports s (if v.tagFixed then s1.bump (.ddrErrCount1 (subFin (s.subOf (64 * n)))) F.ddrErrCount1_TAG_FIXED 1
      else s1) := by
    split
    · exact h1.trans (reports_bump _ _ _ _ (ddrErrCount1_mem _))
    · exact h1
  generalize (if v.tagFixed then s1.bump (.ddrErrCount1 (subFin (s.subOf (64 * n)))) F.ddrErrCount1_TAG_FIXED 1
      else s1) = s2 at h2
  split
  · exact h2.trans (reports_dram _ _ id)
  · exact h2

/-- What the errors of a line are told to can only report. -/
def RepReports (rep : Bool → FaultInfo → State → State) : Prop := ∀ (b : Bool) (i : FaultInfo) (s : State), Reports s (rep b i s)

theorem reports_lineError {rep : Bool → FaultInfo → State → State} (hr : RepReports rep) (s : State) (q : Requester) (tag : Tag)
    (n access : Nat) (v : Verdict) : Reports s (State.lineError rep s q tag n access v) := by
  unfold State.lineError
  split
  · exact Reports.refl s
  · exact (reports_ddrShow s _ _ _ _).trans (hr _ _ _)

theorem reports_lineReadBy {rep : Bool → FaultInfo → State → State} (hr : RepReports rep) (s : State) (q : Requester)
    (tag : Tag) (gen : Option (BitVec 16)) (n : Nat) : Reports s (State.lineReadBy rep s q tag gen n).1 :=
  (reports_ddrCount s n _).trans (reports_lineError hr _ _ _ _ _ _)

theorem reports_linesReadBy {rep : Bool → FaultInfo → State → State} (hr : RepReports rep) (q : Requester) (tag : Tag)
    (gen : Option (BitVec 16)) (k n : Nat) (s : State) : Reports s (State.linesReadBy rep q tag gen k n s).1 := by
  induction k generalizing n s with
  | zero => exact Reports.refl s
  | succ k ih =>
    unfold State.linesReadBy
    have h := reports_lineReadBy hr s q tag gen n
    revert h
    cases State.lineReadBy rep s q tag gen n with
    | mk s1 d =>
      cases d with
      | none => exact fun h => h
      | some d =>
        intro h
        have h2 := ih (n + 1) s1
        revert h2
        dsimp only
        cases State.linesReadBy rep q tag gen k (n + 1) s1 with
        | mk s2 t => cases t <;> exact fun h2 => Reports.trans h h2

theorem reports_rangeReadBy {rep : Bool → FaultInfo → State → State} (hr : RepReports rep) (s : State) (q : Requester)
    (tag : Tag) (gen : Option (BitVec 16)) (a n : Nat) : Reports s (State.rangeReadBy rep s q tag gen a n).1 := by
  unfold State.rangeReadBy
  have h := reports_linesReadBy hr q tag gen ((a + n + 63) / 64 - a / 64) (a / 64) s
  revert h
  cases State.linesReadBy rep q tag gen ((a + n + 63) / 64 - a / 64) (a / 64) s with
  | mk s1 d => cases d <;> exact fun h => h

theorem reports_lineWriteBy {rep : Bool → FaultInfo → State → State} (hr : RepReports rep) (s : State) (q : Requester)
    (tag : Tag) (gen : BitVec 16) (n at_ : Nat) (d : List PByte) :
    Reports s (State.lineWriteBy rep s q tag gen n at_ d).1 := by
  unfold State.lineWriteBy
  split
  · exact reports_dram s _ (dramWf_linePut _ _ _)
  · have h := (reports_ddrCount s n (checkLine s.dram n q.code none)).trans
      (reports_lineError hr (s.ddrCount n (checkLine s.dram n q.code none)) q tag n 1 (checkLine s.dram n q.code none))
    dsimp only
    split
    · exact h
    · exact h.trans (reports_dram _ _ (dramWf_linePut _ _ _))

theorem reports_linesWriteBy {rep : Bool → FaultInfo → State → State} (hr : RepReports rep) (q : Requester) (tag : Tag)
    (gen : BitVec 16) (k a : Nat) (d : List PByte) (s : State) : Reports s (State.linesWriteBy rep q tag gen k a d s).1 := by
  induction k generalizing a d s with
  | zero => exact Reports.refl s
  | succ k ih =>
    unfold State.linesWriteBy
    split
    · exact Reports.refl s
    · have h := reports_lineWriteBy hr s q tag gen (a / 64) (a % 64) (d.take (min d.length (64 - a % 64)))
      revert h
      dsimp only
      cases State.lineWriteBy rep s q tag gen (a / 64) (a % 64) (d.take (min d.length (64 - a % 64))) with
      | mk s1 ok => cases ok <;> [exact fun h => h; exact fun h => h.trans (ih _ _ _)]

theorem reports_ownRead (s : State) (q : Requester) (a n : Nat) : Reports s (s.ownRead q a n).1 :=
  reports_rangeReadBy (fun _ i t => reports_deviceRecord t i) s q q.noTag none a n

theorem reports_ownWrite (s : State) (q : Requester) (a : Nat) (d : List Byte) : Reports s (s.ownWrite q a d) :=
  reports_linesWriteBy (fun _ i t => reports_deviceRecord t i) _ _ _ _ _ _ _

/-! ## Messages -/

theorem reports_portFrame (s : State) (e : Fin 64) (m : Msg) : Reports s (s.portFrame e m) :=
  .of rfl fun h => wf_onEp (s := s.toWire (s.epPort e) (s.framed e (s.peerOf e)
    (BitVec.ofNat 16 (s.fld .trsEthertype F.trsEthertype_TYPE)) true (s.frameBytes e m))) e
    (fun k => { k with pn := if (s.framed e (s.peerOf e) (BitVec.ofNat 16 (s.fld .trsEthertype F.trsEthertype_TYPE)) true
      (s.frameBytes e m)).packet.isSome then k.pn + 1 else k.pn }) (fun _ => rfl) h

theorem reports_areaEntry (s : State) (e : Fin 64) (m : Msg) : Reports s (s.areaEntry e m).1 := by
  unfold State.areaEntry
  have h : Reports s (s.intLine 0x40).1 := reports_ownRead s .app (s.intBase + 0x40) 8
  dsimp only
  split
  · exact h
  · refine Reports.trans (Reports.trans ?_ (reports_ownWrite _ _ _ _)) (reports_ownWrite _ _ _ _)
    split
    · exact h.trans (reports_ownWrite _ _ _ _)
    · exact h

theorem slotPut_rest (n : Nat) (v : Option ResultSlot) (k : Ring) : slotPut n v k = { k with slots := (slotPut n v k).slots } := rfl

theorem reports_passed (s : State) (e : Fin 64) (m : Msg) : Reports s (s.passed e m) := by
  unfold State.passed
  dsimp only
  have h := reports_onEp s e (fun k => { k with sent := k.sent ++ [{ m with offset := 0 }] }) fun _ => rfl
  split
  · rename_i n serial _
    refine h.trans (reports_onRing _ _ _ ?_)
    intro k
    cases slotOf k n with
    | none => rfl
    | some v =>
      dsimp only
      split <;> rfl
  · exact h

theorem reports_sendOne (s : State) (e : Fin 64) : Reports s (s.sendOne e).1 := by
  unfold State.sendOne
  split
  · exact Reports.refl s
  · rename_i m _
    have h : Reports s (if s.epInternal e then s.areaEntry e m else (s.portFrame e m, true)).1 := by
      split
      · exact reports_areaEntry s e m
      · exact reports_portFrame s e m
    revert h
    cases (if s.epInternal e then s.areaEntry e m else (s.portFrame e m, true)) with
    | mk s1 left =>
      cases left with
      | false => exact fun h => h
      | true =>
        intro h
        have h2 := Reports.trans h (reports_onEp s1 e (fun k => { k with queue := k.queue.erase m }) fun _ => rfl)
        simp only [Bool.not_true, Bool.false_eq_true, if_false]
        cases s.msgRest e m with
        | none => exact h2.trans (reports_passed _ _ _)
        | some m1 => exact h2.trans (reports_onEp _ e (fun k => { k with queue := m1 :: k.queue }) fun _ => rfl)

theorem reports_pump (e : Fin 64) (n : Nat) (s : State) : Reports s (State.pump e n s) := by
  induction n generalizing s with
  | zero => exact Reports.refl s
  | succ n ih =>
    unfold State.pump
    have h := reports_sendOne s e
    revert h
    cases s.sendOne e with
    | mk s1 ok => cases ok <;> [exact fun h => h; exact fun h => h.trans (ih s1)]

theorem reports_pumpEp (s : State) (e : Fin 64) : Reports s (s.pumpEp e) := reports_pump e _ s

theorem reports_servePort (p : Fin 4) (n : Nat) (s : State) : Reports s (State.servePort p n s) := by
  induction n generalizing s with
  | zero => exact Reports.refl s
  | succ n ih =>
    unfold State.servePort
    split
    · exact (reports_sendOne s _).trans (ih _)
    · exact Reports.refl s

theorem reports_pumpPortEps (s : State) (p : Fin 4) : Reports s (s.pumpPortEps p) := reports_servePort p _ s

theorem reports_send (s : State) (e : Fin 64) (m : Msg) : Reports s (s.send e m) := by
  unfold State.send
  split
  · exact (reports_onEp s e (fun k => { k with queue := k.queue ++ [m] }) fun _ => rfl).trans (reports_pumpEp _ _)
  · exact Reports.refl s

theorem reports_sendOwn (s : State) (e : Fin 64) (cls : Nat) (type : Byte) (id : Word) (stamp : DWord) (bad : List Nat)
    (body : List Byte) : Reports s (s.sendOwn e cls type id stamp bad body) :=
  (reports_onEp s e (fun k => { k with
    msgId := (s.ep e).msgId + 1, gen := if (s.ep e).msgId + 1 == 0 then k.gen + 1 else k.gen }) fun _ => rfl).trans
    (reports_send _ _ _)

theorem reports_reply (s : State) (r : Fin 8) (a : Asker) (cls status : Nat) (stamp : DWord) (bad : List Nat)
    (body : List Byte) : Reports s (s.reply r a cls status stamp bad body) := reports_send _ _ _

theorem reports_replyStatus (s : State) (r : Fin 8) (a : Asker) (status : Nat) : Reports s (s.replyStatus r a status) :=
  reports_send _ _ _

theorem reports_pushRecord (s : State) (ring : Option (Fin 8)) (f : FaultRec) : Reports s (s.pushRecord ring f) := by
  unfold State.pushRecord
  split
  · split
    · exact reports_sendOwn _ _ _ _ _ _ _ _
    · exact Reports.refl s
  · exact Reports.refl s

theorem reports_fileRecord (s : State) (ring : Option (Fin 8)) (faulting : Bool) (i : FaultInfo) (f : FaultRec) :
    Reports s (s.fileRecord ring faulting i f) :=
  ((reports_storeRecord s ring f).trans (reports_pushRecord _ _ _)).trans (reports_logRecord _ _ _ _ _)

theorem reports_recordUnseen (s : State) (ring : Option (Fin 8)) (i : FaultInfo) : Reports s (s.recordUnseen ring i) :=
  (reports_faultSeq s _).trans (reports_fileRecord _ _ _ _ _)

/-! ## Trace records -/

/-- The core with another trace. -/
def Core.withTrace (k t : Core) : Core :=
  { k with
    trace := t.trace, traceLost := t.traceLost, traceBatch := t.traceBatch, traceAt := t.traceAt, traceIn := t.traceIn }

/-- What a trace record of core `c` can change. -/
structure Traces (c : Fin 16) (s t : State) : Prop where
  rest : t = { s with
    eps := t.eps, wire := t.wire, ethTurn := t.ethTurn, dram := t.dram, devFaults := t.devFaults
    faultSeq := t.faultSeq, flash := t.flash, rings := t.rings, regs := t.regs, cores := t.cores }
  flash : t.flash = { s.flash with
    logPending := t.flash.logPending, logSeq := t.flash.logSeq, logDropped := t.flash.logDropped }
  ring : ∀ r : Fin 8, t.ring r = { s.ring r with slots := (t.ring r).slots, faults := (t.ring r).faults }
  core : ∀ d : Fin 16, t.core d = (s.core d).withTrace (t.core d)
  regs : ∀ q : Reg, q.addr ∉ reportAddrs → (Reg.dbgTraceLost c).addr ≠ q.addr → (Reg.dbgTraceWptr c).addr ≠ q.addr →
    t.reg q = s.reg q
  wf : Memory.wf s → Memory.wf t

theorem Traces.refl (c : Fin 16) (s : State) : Traces c s s :=
  ⟨rfl, rfl, fun _ => rfl, fun _ => rfl, fun _ _ _ _ => rfl, id⟩

theorem Traces.trans {c : Fin 16} {s t u : State} (h : Traces c s t) (g : Traces c t u) : Traces c s u := by
  refine ⟨?_, ?_, ?_, ?_, ?_, fun w => g.wf (h.wf w)⟩
  · rw [g.rest, h.rest]
  · rw [g.flash, h.flash]
  · intro r
    rw [g.ring r, h.ring r]
  · intro d
    rw [g.core d, h.core d]
    rfl
  · intro q h0 h1 h2
    rw [g.regs q h0 h1 h2, h.regs q h0 h1 h2]

theorem Reports.traces {s t : State} (c : Fin 16) (h : Reports s t) : Traces c s t := by
  have hc : t.cores = s.cores := by rw [h.rest]
  refine ⟨?_, h.flash, h.ring, ?_, fun q h0 _ _ => h.regs q h0, h.wf⟩
  · rw [hc]
    exact h.rest
  · intro d
    simp only [State.core, hc]
    rfl

/-- A core replaced by one that differs in its trace alone. -/
theorem traces_setCore (s : State) (c : Fin 16) (k : Core) (h : k = (s.core c).withTrace k) : Traces c s (s.setCore c k) := by
  refine ⟨rfl, rfl, fun _ => rfl, ?_, fun _ _ _ _ => rfl, fun w => wf_setCore c w ?_⟩
  rotate_left
  · rw [h]
    rw [Memory.wf, canonical_iff] at w
    exact w.2.1 c
  intro d
  by_cases hd : c = d
  · subst hd
    rw [core_setCore]
    exact h
  · rw [core_setCore_ne s k hd]
    rfl

theorem traces_setFld (s : State) (c : Fin 16) (r : Reg) (f : Fld) (n : Nat)
    (h : r = .dbgTraceLost c ∨ r = .dbgTraceWptr c) : Traces c s (s.setFld r f n) := by
  refine ⟨rfl, rfl, fun _ => rfl, fun _ => rfl, ?_, wf_setReg _ _⟩
  intro q _ h1 h2
  rcases h with rfl | rfl
  · exact reg_setFld_ne s f n h1
  · exact reg_setFld_ne s f n h2

theorem traces_batchOut (s : State) (r : Fin 8) (c : Fin 16) (n : Nat) : Traces c s (s.traceBatchOut r c n) := by
  unfold State.traceBatchOut
  dsimp only
  have h := traces_setCore s c { s.core c with
    trace := (s.core c).trace.drop n, traceBatch := (s.core c).traceBatch + 1 } rfl
  split
  · exact h
  · exact h.trans ((reports_sendOwn _ _ _ _ _ _ _ _).traces c)

theorem traces_dumpOut (s : State) (r : Fin 8) (c : Fin 16) (n : Nat) : Traces c s (s.traceDumpOut r c n) := by
  unfold State.traceDumpOut
  dsimp only
  have hw : ∀ (s : State) (k a : Nat) (d : List PByte), Traces c s (State.linesWriteBy
      (fun _ i s => s.recordUnseen (some r) i) (.boothFor r) (noCommand r) 0 k a d s).1 := fun s k a d =>
    (reports_linesWriteBy (fun _ i t => reports_recordUnseen t (some r) i) _ _ _ k a d s).traces c
  exact (((traces_setCore s c { s.core c with trace := (s.core c).trace.drop n } rfl).trans (hw _ _ _ _)).trans
    (hw _ _ _ _)).trans (traces_setFld _ c _ _ _ (Or.inr rfl))

theorem traces_lose (s : State) (c : Fin 16) : Traces c s (s.traceLose c) :=
  (traces_setCore s c { s.core c with traceLost := (s.core c).traceLost + 1 } rfl).trans
    (traces_setFld _ c _ _ _ (Or.inl rfl))

theorem traces_store (s : State) (r : Fin 8) (c : Fin 16) (x : TraceRec) : Traces c s (s.traceStore r c x) := by
  unfold State.traceStore
  dsimp only
  have h : ∀ (mode : Nat) (k : Core) (t1 : State), k = (s.core c).withTrace k → t1 = (if mode = 3 ∧
      256 ≤ ((s.setCore c k).core c).trace.length then (s.setCore c k).traceDumpOut r c 256
      else if mode = 4 ∧ 64 ≤ ((s.setCore c k).core c).trace.length then (s.setCore c k).traceBatchOut r c 64
      else s.setCore c k) → Traces c s t1 := by
    intro mode k t1 hk ht
    have hs := traces_setCore s c k hk
    subst ht
    split
    · exact hs.trans (traces_dumpOut _ r c 256)
    · split
      · exact hs.trans (traces_batchOut _ r c 64)
      · exact hs
  split
  · split
    · exact traces_lose s c
    · exact traces_setCore s c _ rfl
  · split
    · exact traces_lose s c
    · exact h _ { s.core c with
        trace := (s.core c).trace ++ _ ++ [x], traceLost := _, traceAt := x.count, traceIn := _ } _ rfl rfl

/-- What a trace record can change. -/
theorem traces_trace (s : State) (c : Fin 16) (event : Nat) (tag : Tag) (operand q : Nat) :
    Traces c s (s.trace c event tag operand q) := by
  unfold State.trace
  split
  · exact Traces.refl c s
  · split
    · exact traces_store _ _ _ _
    · exact Traces.refl c s

/-! ## What a trace record leaves alone -/

theorem Traces.mem {c : Fin 16} {s t : State} (h : Traces c s t) (d : Fin 16) : (t.core d).mem = (s.core d).mem := by
  rw [h.core d]; rfl

theorem Traces.queue {c : Fin 16} {s t : State} (h : Traces c s t) (d : Fin 16) : (t.core d).queues = (s.core d).queues := by
  rw [h.core d]; rfl

theorem Traces.mwy {c : Fin 16} {s t : State} (h : Traces c s t) : t.mwy = s.mwy := by rw [h.rest]

theorem Traces.cross {c : Fin 16} {s t : State} (h : Traces c s t) : t.cross = s.cross ∧ t.heldBack = s.heldBack := by
  rw [h.rest]; exact ⟨rfl, rfl⟩

end Sys2Proof.Machine
end

