-- ==== Sys2Proof/Laws/OnChip.lean ====
section
/-! SUPPORT. The ports to core memory and to the midway, with the counters and records of what their decoders find, keep
every memory in canonical form (R140, R146, R155, R161). -/

namespace Sys2Proof.Machine

/-- A fault record written. -/
theorem wf_record {s : State} (ring : Option (Fin 8)) (faulting : Bool) (i : FaultInfo) (h : Memory.wf s) :
    Memory.wf (s.record ring faulting i) := by
  unfold State.record
  dsimp only
  refine (reports_fileRecord _ _ _ _ _).wf ?_
  split
  · exact (traces_trace _ _ _ _ _ _).wf h
  · exact h

theorem wf_bump {s : State} (r : Reg) (f : Fld) (n : Nat) (h : Memory.wf s) : Memory.wf (s.bump r f n) := wf_setReg r _ h

theorem wf_setFld {s : State} (r : Reg) (f : Fld) (n : Nat) (h : Memory.wf s) : Memory.wf (s.setFld r f n) := wf_setReg r _ h

/-- What a core's decoder finds, counted and recorded. -/
theorem wf_coreEcc {s : State} (tag : Tag) (c : Fin 16) (w : Nat) (bad : Bool) (h : Memory.wf s) :
    Memory.wf (s.coreEcc tag c w bad) := by
  unfold State.coreEcc
  split
  · exact wf_record _ _ _ (wf_bump _ _ _ h)
  · exact wf_bump _ _ _ h

/-- What the decoder still has to report is no memory. -/
theorem canonical_ecc {k : Core} (l : List (Nat × Bool)) (h : k.canonical = true) : ({ k with ecc := l } : Core).canonical = true := h

/-- A core's memory accessed by what keeps its form. -/
theorem wf_onMem {s : State} (tag : Tag) (c : Fin 16) {f : Core → Core} (hf : ∀ k : Core, k.canonical = true → (f k).canonical = true)
    (h : Memory.wf s) : Memory.wf (s.onMem tag c f) := by
  have hk := hf (s.core c) (((canonical_iff s).mp h).2.1 c)
  unfold State.onMem
  generalize f (s.core c) = k at hk
  have hs : Memory.wf (s.setCore c { k with ecc := [] }) := wf_setCore c h (canonical_ecc [] hk)
  dsimp only
  generalize s.setCore c { k with ecc := [] } = t at hs
  generalize k.ecc = l
  clear hk
  induction l generalizing t with
  | nil => exact hs
  | cons e l ih => exact ih _ (wf_coreEcc (s := t) tag c e.1 e.2 hs)

/-- A port's read of core memory. -/
theorem wf_cmRead {s : State} (tag : Tag) (c : Fin 16) (a n : Nat) (h : Memory.wf s) : Memory.wf (s.cmRead tag c a n).1 := by
  have h1 := wf_onMem tag c (fun _ hk => canonical_readyRange a n hk) h
  unfold State.cmRead
  dsimp only
  split
  · exact wf_setFld _ _ _ h1
  · exact h1

/-- A port's write of core memory. -/
theorem wf_cmWrite {s : State} (tag : Tag) (c : Fin 16) (a : Nat) (d : List PByte) (h : Memory.wf s) :
    Memory.wf (s.cmWrite tag c a d) := wf_onMem tag c (fun _ hk => canonical_corePut a d hk) h

/-- A write of 4 bytes over the remote path. -/
theorem wf_remoteWrite {s : State} (tag : Tag) (c : Fin 16) (a : Nat) (bytes : List Byte) (h : Memory.wf s) :
    Memory.wf (s.remoteWrite tag c a bytes) := wf_onMem tag c (fun _ hk => canonical_gatherPut _ _ hk) h

/-- An uncorrectable word of a slice. -/
theorem wf_sliceBad {s : State} (ring : Option (Fin 8)) (tag : Tag) (n : Nat) (h : Memory.wf s) :
    Memory.wf (s.sliceBad ring tag n) := by
  unfold State.sliceBad
  refine wf_record _ _ _ ?_
  have h1 := wf_bump (.errSliceEcc (subFin (n / 1048576))) F.errSliceEcc_UNCORRECTABLE 1 h
  rw [Memory.wf, canonical_iff] at h1 ⊢
  obtain ⟨h1, h2, h3, h4, h5, h6⟩ := h1
  exact ⟨h1, h2, smWf_smWrite 0 _ _ h3, smWf_smSet 0 n 1 h4, smWf_smClear 0 _ _ h5, h6⟩

/-- A word of the midway decoded. -/
theorem wf_sliceDecode {s : State} (r : Fin 8) (tag : Tag) (n : Nat) (h : Memory.wf s) : Memory.wf (s.sliceDecode r tag n) := by
  unfold State.sliceDecode
  split
  · exact h
  · split
    · exact h
    · exact wf_bump _ _ _ h
    · exact wf_sliceBad _ _ _ h

/-- A ring's midway space read. -/
theorem wf_mwyRead {s : State} (r : Fin 8) (tag : Tag) (a n : Nat) (h : Memory.wf s) : Memory.wf (s.mwyRead r tag a n).1 :=
  foldl_keeps (P := Memory.wf) (fun _ _ ht => wf_setFld _ _ _ ht) _ _
    (foldl_keeps (P := Memory.wf) (fun _ w ht => wf_sliceDecode r tag w ht) _ _ h)

/-- A ring's midway space written. -/
theorem wf_mwyWrite {s : State} (r : Fin 8) (tag : Tag) (a : Nat) (d : List PByte) (h : Memory.wf s) :
    Memory.wf (s.mwyWrite r tag a d) := by
  have h1 := foldl_keeps (P := Memory.wf) (f := fun t w => t.sliceDecode r tag w) (fun _ w ht => wf_sliceDecode r tag w ht)
    (s.mwyWords r (partWords a d.length)) s h
  unfold State.mwyWrite
  dsimp only
  rw [Memory.wf, canonical_iff] at h1 ⊢
  obtain ⟨h1, h2, h3, h4, h5, h6⟩ := h1
  exact ⟨h1, h2, smWf_bytesPut _ d a h3, smWf_marksPut _ a d h4, smWf_freshWords _ h5, h6⟩

end Sys2Proof.Machine
end

