-- ==== Sys2Proof/Laws/Stream.lean ====
section
/-! SUPPORT. What a sequencer's update does and leaves alone (R107, R109), and what an issue does beside its trace record
(R104, R105). -/

namespace Sys2Proof.Machine

/-- The sequencer of a unit after it has been changed. -/
theorem seq_onSeq (s : State) {u : SeqUnit} (f : Sequencer → Sequencer) (h : isStream u = true) :
    (s.onSeq u f).seq u = f (s.seq u) := by
  cases u <;> simp_all [isStream, State.onSeq, State.seq]

/-- What a sequencer's update leaves alone. -/
structure SeqKept (s t : State) : Prop where
  rest : t = { s with cores := t.cores, rings := t.rings }
  core : ∀ c : Fin 16, t.core c = { s.core c with access := (t.core c).access, execute := (t.core c).execute }
  ring : ∀ r : Fin 8, t.ring r = { s.ring r with master := (t.ring r).master }

theorem SeqKept.trans {s t u : State} (h : SeqKept s t) (g : SeqKept t u) : SeqKept s u := by
  refine ⟨?_, ?_, ?_⟩
  · rw [g.rest, h.rest]
  · intro c
    rw [g.core c, h.core c]
  · intro r
    rw [g.ring r, h.ring r]

/-- An update of a sequencer leaves all but sequencers alone. -/
theorem seqKept_onSeq (s : State) (u : SeqUnit) (f : Sequencer → Sequencer) : SeqKept s (s.onSeq u f) := by
  cases u with
  | queue c q mask => exact ⟨rfl, fun _ => rfl, fun _ => rfl⟩
  | access c =>
    refine ⟨rfl, fun d => ?_, fun _ => rfl⟩
    by_cases h : c = d
    · subst h
      simp [State.onSeq]
    · rw [State.onSeq, core_onCore_ne s _ h]
  | execute c =>
    refine ⟨rfl, fun d => ?_, fun _ => rfl⟩
    by_cases h : c = d
    · subst h
      simp [State.onSeq]
    · rw [State.onSeq, core_onCore_ne s _ h]
  | ringmaster r =>
    refine ⟨rfl, fun _ => rfl, fun q => ?_⟩
    by_cases h : r = q
    · subst h
      simp [State.onSeq]
    · rw [State.onSeq, ring_onRing_ne s _ h]

theorem SeqKept.mem {s t : State} (h : SeqKept s t) (c : Fin 16) : (t.core c).mem = (s.core c).mem := by rw [h.core c]
theorem SeqKept.flags {s t : State} (h : SeqKept s t) (c : Fin 16) : (t.core c).flags = (s.core c).flags := by rw [h.core c]
theorem SeqKept.dqs {s t : State} (h : SeqKept s t) (c : Fin 16) : (t.core c).dqs = (s.core c).dqs := by rw [h.core c]
theorem SeqKept.regs {s t : State} (h : SeqKept s t) : t.regs = s.regs := by
  have e := congrArg State.regs h.rest
  exact e
theorem SeqKept.mwy {s t : State} (h : SeqKept s t) : t.mwy = s.mwy := by
  have e := congrArg State.mwy h.rest
  exact e
theorem SeqKept.dram {s t : State} (h : SeqKept s t) : t.dram = s.dram := by
  have e := congrArg State.dram h.rest
  exact e

end Sys2Proof.Machine
end

