-- ==== Sys2Proof/Laws/Queue.lean ====
section
/-! SUPPORT. A queue's command that may issue, class by class (R69, R104 to R106, R121), and what an issue leaves alone. -/

namespace Sys2Proof.Machine

/-- A command that may issue stands at the head of its queue, in its slot (R104, R105). -/
theorem front_ready {s : State} {c : Fin 16} {q : Fin 5} {mask : BitVec 16} {tag : Tag} {gap : Byte} {r : Fin 8} {u : Nat}
    (h : Ready s c q mask tag gap r u) : s.front c q tag gap.toNat mask = .ready r u := by
  obtain ⟨h1, h2, h3, h4, h5, h6, h7, h8, -, h10⟩ := h
  have hf : (s.pushCores r c mask).filter (fun x => s.ringOfCore x != some r) = [] := by
    rw [List.filter_eq_nil_iff]
    intro x hx
    simp [h3 x hx]
  have hi : s.issuing r c q = true := by
    unfold State.issuing
    rcases h6 with h6 | h6 <;> simp [h4, h5, h6, h7]
  unfold State.front
  rw [h1]
  simp only [h2, ne_eq, not_true_eq_false, if_false, hf, hi, Bool.not_true, Bool.false_eq_true]
  rcases h8 with h8 | ⟨h8, h9⟩
  · cases ht : (s.queue c q).tags with
    | nil => simp [ht] at h8
    | cons t l =>
      rw [ht] at h8
      simp only [List.head?_cons, Option.some.injEq] at h8
      simp only [h8, if_true, ← h10]
  · simp only [h8, h9, if_true, ← h10]

/-- A command that may issue and that no gate holds takes effect after its issue. -/
theorem queueCommand_ready {s : State} {c : Fin 16} {q : Fin 5} {mask : BitVec 16} {tag : Tag} {gap : Byte} {r : Fin 8} {u : Nat}
    (occ : Nat) {gate : Fin 8 → Nat → Option GateHold} (go : Fin 8 → Nat → State → State) (h : Ready s c q mask tag gap r u)
    (hg : gate r u = none) :
    s.queueCommand c q tag gap.toNat occ mask gate go = go r u (s.issueAt c q tag gap.toNat occ occ u) := by
  unfold State.queueCommand
  rw [front_ready h]
  simp [h.2.2.2.2.2.2.2.2.1, hg]

/-- A command that may issue and that its gate holds waits. -/
theorem queueCommand_held {s : State} {c : Fin 16} {q : Fin 5} {mask : BitVec 16} {tag : Tag} {gap : Byte} {r : Fin 8} {u : Nat}
    (occ : Nat) {gate : Fin 8 → Nat → Option GateHold} (go : Fin 8 → Nat → State → State) {g : GateHold}
    (h : Ready s c q mask tag gap r u) (hg : gate r u = some g) :
    s.queueCommand c q tag gap.toNat occ mask gate go = s.queueHold c q tag u g := by
  unfold State.queueCommand
  rw [front_ready h]
  simp [h.2.2.2.2.2.2.2.2.1, hg]

/-- An array command that may issue, whose operands exist, that its gate and the audit let pass, takes effect. -/
theorem arrayCommand_ready {s : State} {e : Eng} {r : Fin 8} {u : Nat} {gate : Nat → Option GateHold}
    {pairs : Nat → AuditRec → List Violation} (go : Fin 8 → Nat → State) (h : Ready s e.core qArray e.mask e.tag e.gap r u)
    (hg : gate u = none)
    (ha : Passes s r (nearestViolation (pairs (s.position e.core qArray e.gap.toNat)) (s.core e.core).auditArr)) :
    s.arrayCommand e true gate pairs go = go r u := by
  unfold State.arrayCommand
  rw [front_ready h]
  by_cases hr : s.auditOn r = true
  · simp [hg, hr, ha hr]
  · simp [hg, hr]

/-- A vector command that may issue, that its gate and the audit let pass, takes effect after its issue. -/
theorem vectorCommand_ready {s : State} {e : Eng} {r : Fin 8} {u : Nat} (occ : Nat) {gate : Nat → Option GateHold}
    {reads : List (Nat × Nat)} {first count vis : Nat} (go : Fin 8 → Nat → State → State)
    (h : Ready s e.core qVector e.mask e.tag e.gap r u) (hg : gate u = none)
    (ha : Passes s r (vectorAudit s e reads first count vis)) :
    s.vectorCommand e occ gate reads first count vis go =
      go r u (if count = 0 then s.issueAt e.core qVector e.tag e.gap.toNat occ occ u
        else (s.issueAt e.core qVector e.tag e.gap.toNat occ occ u).noteVector e.core
          ⟨e.tag, s.position e.core qVector e.gap.toNat, 0, first, count, vis⟩) := by
  unfold State.vectorCommand
  simp only [front_ready h, hg]
  by_cases hr : s.auditOn r = true
  · have hv := ha hr
    unfold vectorAudit at hv
    simp [hr, hv]
  · simp [hr]

/-- A quantiser command that may issue, that its gate and the audit let pass, takes effect. -/
theorem quantCommand_ready {s : State} {e : Eng} {r : Fin 8} {u : Nat} {gate : Nat → Option GateHold}
    {reads : List (Nat × Nat)} (go : Fin 8 → Nat → State) (h : Ready s e.core qVector e.mask e.tag e.gap r u)
    (hg : gate u = none) (ha : Passes s r (vectorAudit s e reads 0 0 0)) : s.quantCommand e gate reads go = go r u := by
  unfold State.quantCommand
  simp only [front_ready h, hg]
  by_cases hr : s.auditOn r = true
  · have hv := ha hr
    unfold vectorAudit at hv
    simp [hr, hv]
  · simp [hr]

/-- A command of an access-side engine that may issue, and that the audit lets pass, takes effect after its issue. -/
theorem fillCommand_ready {s : State} {e : Eng} {q : Fin 5} {r : Fin 8} {u : Nat} {regions : List Nat}
    (go : Fin 8 → State → State) (h : Ready s e.core q e.mask e.tag e.gap r u)
    (ha : Passes s r (fillViolation (s.core e.core) regions)) :
    s.fillCommand e q regions go = go r (s.issueAt e.core q e.tag e.gap.toNat 0 0 u) := by
  unfold State.fillCommand
  simp only [front_ready h, h.2.2.2.2.2.2.2.2.1]
  by_cases hr : s.auditOn r = true
  · simp [hr, ha hr]
  · simp [hr]

/-- A command that a sequencer takes has its effect. -/
theorem seqTakes_takes {s : State} {u : SeqUnit} {tag : Tag} {r : Fin 8} (h : Takes s u tag r) : s.seqTakes u tag = some r := by
  obtain ⟨h1, h2, h3, h4, h5⟩ := h
  unfold State.seqTakes
  rw [h1]
  simp [h2, h3, h4, h5]

/-- An entry written into a crossing stands behind the others, or is held back behind them (R23, R24). -/
theorem sends_crossPut (s : State) (x : Crossing) (o : CrossOp) : Sends s (s.crossPut x o) x o := by
  unfold Sends State.sentOn State.crossPut
  by_cases hb : s.crossFull x || s.holdsBack x
  · simp only [hb, if_true]
    refine ⟨by simp [List.filter_append], fun y hy => ?_⟩
    simp [List.filter_append, Ne.symm hy]
  · simp only [hb, Bool.false_eq_true, if_false]
    have hn : s.heldBack.filter (fun e => e.1 == x) = [] := by
      rw [List.filter_eq_nil_iff]
      intro e he hx
      refine hb ?_
      simp only [State.holdsBack, Bool.or_eq_true]
      exact Or.inr (List.any_eq_true.mpr ⟨e, he, hx⟩)
    refine ⟨by simp [List.filter_append, hn], fun y hy => ?_⟩
    simp [List.filter_append, Ne.symm hy]

/-! ## What an issue leaves alone -/

/-- What a write that becomes visible leaves of a core. -/
structure Settled (k j : Core) : Prop where
  rest : j = { k with
    acc := j.acc, accBad := j.accBad, setPoison := j.setPoison, vregs := j.vregs, accPend := j.accPend, vPend := j.vPend }

theorem settled_settle (u : Nat) (k : Core) : Settled k (settle u k) := by
  have ha : ∀ (l : List AccWrite) (k : Core), Settled k (l.foldl accCommit k) := by
    intro l
    induction l with
    | nil => exact fun k => ⟨rfl⟩
    | cons a l ih =>
      intro k
      have h := (ih (accCommit k a)).rest
      exact ⟨by rw [List.foldl_cons, h]; rfl⟩
  have hv : ∀ (l : List VecWrite) (k : Core), Settled k (l.foldl vecCommit k) := by
    intro l
    induction l with
    | nil => exact fun k => ⟨rfl⟩
    | cons a l ih =>
      intro k
      have h := (ih (vecCommit k a)).rest
      exact ⟨by rw [List.foldl_cons, h]; rfl⟩
  unfold settle
  dsimp only
  have h1 := (ha (dueBy AccWrite.slot u k.accPend).1 k).rest
  have h2 := (hv (dueBy VecWrite.slot u k.vPend).1 ((dueBy AccWrite.slot u k.accPend).1.foldl accCommit k)).rest
  exact ⟨by rw [h2, h1]⟩

/-- What an issue of a command of core `c` leaves alone: beside its queue and its slot, what becomes visible by then may
change, operations on its flags reach them, and a trace record may be written (R64, R65, R78, R104, R118, R127). -/
structure Issued (c : Fin 16) (s t : State) : Prop where
  rest : t = { s with
    eps := t.eps, wire := t.wire, ethTurn := t.ethTurn, dram := t.dram, devFaults := t.devFaults, faultSeq := t.faultSeq
    flash := t.flash, rings := t.rings, regs := t.regs, cores := t.cores, cycles := t.cycles }
  flash : t.flash = { s.flash with
    logPending := t.flash.logPending, logSeq := t.flash.logSeq, logDropped := t.flash.logDropped }
  ring : ∀ r : Fin 8, t.ring r = { s.ring r with slots := (t.ring r).slots, faults := (t.ring r).faults }
  other : ∀ d : Fin 16, d ≠ c → t.core d = (s.core d).withTrace (t.core d)
  core : t.core c = { (s.core c).withTrace (t.core c) with
    acc := (t.core c).acc, accBad := (t.core c).accBad, setPoison := (t.core c).setPoison, vregs := (t.core c).vregs
    accPend := (t.core c).accPend, vPend := (t.core c).vPend, slot := (t.core c).slot, queues := (t.core c).queues
    flags := (t.core c).flags, flagPend := (t.core c).flagPend }
  regs : ∀ q : Reg, q.addr ∉ reportAddrs → (Reg.dbgTraceLost c).addr ≠ q.addr → (Reg.dbgTraceWptr c).addr ≠ q.addr →
    (Reg.coreArrayStatus c).addr ≠ q.addr → (Reg.coreSeqStatus c).addr ≠ q.addr → t.reg q = s.reg q

theorem Issued.refl (c : Fin 16) (s : State) : Issued c s s :=
  ⟨rfl, rfl, fun _ => rfl, fun _ _ => rfl, rfl, fun _ _ _ _ _ _ => rfl⟩

theorem Issued.trans {c : Fin 16} {s t u : State} (h : Issued c s t) (g : Issued c t u) : Issued c s u := by
  refine ⟨?_, ?_, ?_, ?_, ?_, ?_⟩
  · rw [g.rest, h.rest]
  · rw [g.flash, h.flash]
  · intro r
    rw [g.ring r, h.ring r]
  · intro d hd
    rw [g.other d hd, h.other d hd]
    rfl
  · rw [g.core, h.core]
    rfl
  · intro q h0 h1 h2 h3 h4
    rw [g.regs q h0 h1 h2 h3 h4, h.regs q h0 h1 h2 h3 h4]

theorem Traces.issued {c : Fin 16} {s t : State} (h : Traces c s t) : Issued c s t := by
  have hy : t.cycles = s.cycles := by rw [h.rest]
  refine ⟨?_, h.flash, h.ring, fun d _ => h.core d, ?_, fun q h0 h1 h2 _ _ => h.regs q h0 h1 h2⟩
  · rw [hy]
    exact h.rest
  · rw [h.core c]
    rfl

/-- A core changed in what an issue can change. -/
theorem issued_onCore (s : State) (c : Fin 16) (f : Core → Core)
    (h : ∀ k : Core, f k = { k.withTrace (f k) with
      acc := (f k).acc, accBad := (f k).accBad, setPoison := (f k).setPoison, vregs := (f k).vregs
      accPend := (f k).accPend, vPend := (f k).vPend, slot := (f k).slot, queues := (f k).queues
      flags := (f k).flags, flagPend := (f k).flagPend }) : Issued c s (s.onCore c f) := by
  refine ⟨rfl, rfl, fun _ => rfl, ?_, ?_, fun _ _ _ _ _ _ => rfl⟩
  · intro d hd
    rw [core_onCore_ne s f (Ne.symm hd)]
    rfl
  · rw [core_onCore]
    exact h _

theorem issued_setReg (s : State) (c : Fin 16) (r : Reg) (v : Word) (h : r = .coreArrayStatus c ∨ r = .coreSeqStatus c) :
    Issued c s (s.setReg r v) := by
  refine ⟨rfl, rfl, fun _ => rfl, fun _ _ => rfl, rfl, ?_⟩
  intro q _ _ _ h3 h4
  rcases h with rfl | rfl
  · exact reg_setReg_ne s v h3
  · exact reg_setReg_ne s v h4

theorem issued_tick (s : State) (c : Fin 16) (i : Fin 43) (n : Nat) : Issued c s (s.tick i n) :=
  ⟨rfl, rfl, fun _ => rfl, fun _ _ => rfl, rfl, fun _ _ _ _ _ _ => rfl⟩

theorem issued_reachFlags (s : State) (c : Fin 16) (v : BitVec 64 × Bool) (p : FlagOp → Bool) : Issued c s (s.reachFlags c v p) := by
  unfold State.reachFlags
  dsimp only
  have h := issued_onCore s c (fun k => { k with flags := v.1, flagPend := k.flagPend.filter fun o => !p o }) fun _ => rfl
  split
  · exact h.trans (issued_setReg _ c _ _ (Or.inr rfl))
  · exact h

/-- What a core's slots moving on changes. -/
theorem issued_toSlot (s : State) (c : Fin 16) (u : Nat) : Issued c s (s.toSlot c u) := by
  have hw : Issued c s (s.writesDue c u) := by
    unfold State.writesDue
    dsimp only
    split
    · exact issued_setReg _ _ _ _ (Or.inl rfl)
    · exact Issued.refl c s
  refine ((hw.trans (issued_tick _ _ _ _)).trans (issued_onCore _ c (fun k => { settle u k with slot := u }) ?_)).trans
    (issued_reachFlags _ _ _ _)
  intro k
  have e := (settled_settle u k).rest
  revert e
  generalize settle u k = j
  intro e
  dsimp only
  rw [e]
  rfl

/-- What an issue of a command of core `c` changes. -/
theorem issued_issueAt (s : State) (c : Fin 16) (q : Fin 5) (tag : Tag) (gap occ prog u : Nat) :
    Issued c s (s.issueAt c q tag gap occ prog u) := by
  unfold State.issueAt
  dsimp only
  refine Issued.trans (Issued.trans ?_ (issued_onCore _ c (fun k => { k with queues := k.queues.set q _ }) fun _ => rfl))
    (traces_trace _ c evIssue tag q.val q.val).issued
  split
  · exact issued_toSlot s c u
  · exact Issued.refl c s

end Sys2Proof.Machine
end

