-- ==== Sys2Proof/Tests/Slice0.lean ====
section
/-! SUPPORT. Tests of the model, and for each statement a state and operands that meet its hypotheses. -/

open Sys2Proof Sys2Proof.Machine

set_option maxRecDepth 100000
set_option Elab.async false

/-! ## Small states -/

/-- After boot: the image runs, nothing is in reset, DRAM of 64 units on one channel is up. -/
def tUp : State :=
  ((({ State.reset with
    pins := { State.reset.pins with poreset := false, flashReset := false }
    boot := { State.reset.boot with phase := .handedOver } } : State).setFld .ddrConfig F.ddrConfig_CAPACITY 64).setFld
    .ddrConfig F.ddrConfig_CHANNELS 1).setFld .ddrStatus F.ddrStatus_READY 1

/-- An invocation of program slot 0. -/
def tInvocation : Invocation := ⟨0, List.replicate 256 0, 0, none, true⟩

/-- Ring 0 RUNNING on C0 with slices M0 and M1, in paired-stream mode; ring 2 RUNNING on the quad of C4 under its ringmaster.
Both run an invocation. -/
def tRun : State :=
  let regs : List (Reg × Word) :=
    [(.ringManifestStatus 0, 0x30480000), (.ringResources 0, 0x00010300), (.ringManifestStatus 2, 0x30880000),
      (.ringResources 2, 0x00F00400), (.pwrRingStatus 0, 0x57800000), (.coreColwidth 0, 0x80000000)]
  let s := tUp.setRegs regs
  (s.onRing 0 fun k => { k with bound := true, current := some tInvocation }).onRing 2 fun k =>
    { k with bound := true, current := some tInvocation }

/-- An engine's place: C0, a tag of ring 0, no gap. -/
def tEng : Eng := ⟨0, 0x00000001, 0, 0⟩

/-- A tag of ring 2. -/
def tTag2 : Tag := 0x40000001

/-- The state with core 0 changed. -/
def tCore (f : Core → Core) : State := tRun.onCore 0 f

/-- Whether an outcome is a next state that satisfies `p`. -/
def gives (o : Host.Outcome State Fault Refusal) (p : State → Bool) : Bool :=
  match o with
  | .next t => p t
  | .fault _ => false
  | .refused _ => false

/-- Whether an outcome is the refusal of an ill-formed command. -/
def illFormed (o : Host.Outcome State Fault Refusal) : Bool :=
  match o with
  | .next _ => false
  | .fault _ => false
  | .refused (.illFormed _) => true
  | .refused _ => false

/-- Whether an outcome is a fault. -/
def faults (o : Host.Outcome State Fault Refusal) : Bool :=
  match o with
  | .next _ => false
  | .fault _ => true
  | .refused _ => false

/-! ## The queue, forms and places -/

theorem witness_step_front : ({ tUp with pending := [.currentLimit] } : State).pending = .currentLimit :: [] := rfl

theorem test_step_front : gives (step { tUp with pending := [.currentLimit, .bypass] }) (fun t =>
    t.power.current && t.pending == [.bypass]) = true := by decide +kernel

theorem witness_idle : tRun.pending = [] := rfl

theorem test_idle_counts : gives (step tRun) (fun t => t.count 0 == 1 && t.count 1 == 0 && t.count 4 == 1 && t.count 28 == 1)
    = true := by decide +kernel

theorem witness_answers : Instr.WellFormed (.dramRead .booth 0 4096 none []) ∧
    stateForm (.dramRead .booth 0 4096 none []) tUp = true ∧ placeExists (.dramRead .booth 0 4096 none []) tUp = true := by
  decide +kernel

theorem witness_ill_formed : ¬ Instr.WellFormed (.idle tEng false 0) := by decide +kernel

theorem witness_no_place : tUp.dramSize < 64 * (tUp.dramSize / 64) + 64 ∧ tUp.dramUsed = true ∧
    tUp.flashBlocks ≤ opBlock (.erase tUp.flashBlocks true) := by decide +kernel

theorem test_place_boundary : faults (exec (.flashOpDone (.erase tUp.flashBlocks true)) tUp) = true ∧
    gives (exec (.flashOpDone (.erase (tUp.flashBlocks - 1) true)) tUp) (fun _ => true) = true ∧
    gives (exec (.mwyScrub 0 1048575 .clean) tUp) (fun _ => true) = true := by decide +kernel

/-! ## Ill-formed commands, one for each check -/

theorem smoke_streams : ([.loop (.queue 0 0 0) 0 (.imm 1), .loop (.access 0) 0 (.imm 16777216), .loop (.access 0) 0 (.param 253),
    .endloop (.queue 0 0 0) 0, .wait (.ringmaster 0) 0 0 (.core 0 3) false, .skip (.queue 0 0 0) 0 (.ring 0) true [.other],
    .skip (.access 0) 0 (.ring 0) true [], .skip (.access 0) 0 (.ring 0) true (List.replicate 256 .other),
    .skip (.ringmaster 0) 0 (.core 0 0) true [.other], .push (.access 0) 0 4 (.value 0), .push (.execute 0) 0 3 (.value 0),
    .pop (.access 0) 0 3 none, .pop (.queue 0 0 0) 0 3 none, .set (.access 0) 0 0 (.ring 0), .clear (.execute 0) 0 0 (.ring 0),
    .mark (.access 0) 0 0 0] : List Instr).all (fun c => !formOk c && illFormed (exec c tRun)) = true := by decide +kernel

theorem smoke_queues : ([.idle tEng false 0, .idle tEng true 65537, .hint tEng 1 1048576 1, .hint tEng 1 0 0,
    .hint tEng 1 0 65536, .vload tEng 57 8 (.cm 0 .f32), .vload tEng 0 0 (.cm 0 .f32), .vload tEng 0 9 (.cm 0 .f32),
    .vload tEng 0 2 (.rx 0 7 false), .vlatch tEng 57, .smpDecode 0 9, .smpDecode 0 13] : List Instr).all
    (fun c => !formOk c && illFormed (exec c tRun)) = true := by decide +kernel

theorem smoke_fills : ([.unfold tEng 0 0 0 0 1 (.abuf 0 0) 0 ⟨none, 0, none, none⟩,
    .unfold tEng 0 0 33 0 1 (.abuf 0 0) 0 ⟨none, 0, none, none⟩, .crop tEng 0 0 (-32769) 0 0 1 ⟨none, 0, none, none⟩,
    .crop tEng 0 0 0 32768 0 1 ⟨none, 0, none, none⟩, .transpose tEng 0 .contiguous 0 0 ⟨none, 0, none, none⟩,
    .transpose tEng 0 (.transpose4 8) 0 0 ⟨none, 0, none, none⟩, .stride tEng 0 (.transpose4 16) 0 .contiguous 0 ⟨none, 0, none, none⟩,
    .stride tEng 0 (.strided 3 3 1 0) 0 .contiguous 0 ⟨none, 0, none, none⟩] : List Instr).all
    (fun c => !formOk c && illFormed (exec c tRun)) = true := by decide +kernel

/-- A DMA between two ends, without marks, formats or completion. -/
def tDma (src dst : DmaEnd) (n : Nat) : DmaCmd := ⟨src, dst, n, none, none, none, none, none, false, ⟨none, 0, none, none⟩⟩

theorem smoke_dma : ([tDma (.buf .a 0) (.cm 0 .contiguous) 64, tDma (.cm 0 .contiguous) (.cm 0 (.transpose4 16)) 512,
    tDma (.cm 0 (.transpose4 16)) (.mwy 0 none) 511, tDma (.cm 0 (.strided 4 2 1 0)) (.mwy 0 none) 8,
    tDma (.seq 0 0 0 0 0) (.mwy 0 none) 8, tDma (.remote 1 0 0 false) (.remote 1 0 0 false) 8,
    tDma (.remote 1 0 0 false) (.mwy 0 none) 16777217,
    { tDma (.mwy 0 none) (.cm 0 .contiguous) 64 with fmt := some .fp16 },
    { tDma (.mwy 0 none) (.buf .a 0) 64 with fmt := some .int8 },
    { tDma (.mwy 0 none) (.cm 0 .contiguous) 64 with marks := some (.a, 1) },
    { tDma (.mwy 0 none) (.buf .ds 0) 64 with marks := some (.ds, 16) }] : List DmaCmd).all
    (fun c => !formOk (.dma tEng c) && illFormed (exec (.dma tEng c) tRun)) = true := by decide +kernel

theorem smoke_vector : ([.vstore tEng 60 5 0 .f32 0 ⟨none, 0, none, none⟩, .vop tEng .add 60 5 (.lane 0 0) (.lane 0 0) (.lane 0 0) .f32,
    .vop tEng .add 0 5 (.reg 60) (.lane 0 0) (.lane 0 0) .f32, .vop tEng .add 0 1 (.lane 0 0) (.reg 63) (.reg 0) .f16,
    .vop tEng .select 0 2 (.reg 0) (.reg 0) (.reg 63) .f16, .vfma tEng 0 1 (.reg 0) (.reg 0) (.reg 0) .f16,
    .vconv tEng 0 2 (.reg 63) .f32 .bf16, .vfunc tEng .exp 0 1 (.reg 0) .f16, .vreduce tEng .sum 0 1 0 false .f16,
    .requant tEng (.reg 57) 0 0 0 false] : List Instr).all (fun c => !formOk c && illFormed (exec c tRun)) = true := by decide +kernel

theorem smoke_completion : stateForm (.fill tEng 0 0 0 ⟨some 0, 0, none, none⟩) (tRun.setRegs [(.ringManifestStatus 0, 0x30880000)])
    = false ∧ illFormed (exec (.fill tEng 0 0 0 ⟨some 0, 0, none, none⟩) (tRun.setRegs [(.ringManifestStatus 0, 0x30880000)])) = true := by
  decide +kernel

/-! ## Queues, sequencers, flags -/

theorem witness_ready_array : Ready tRun 0 qArray 0 1 0 0 0 := by and_intros <;> decide +kernel

theorem witness_ready_vector : Ready tRun 0 qVector 0 1 0 0 0 := by and_intros <;> decide +kernel

theorem witness_ready_engines : Ready tRun 0 qDma 0 1 0 0 0 ∧ Ready tRun 0 qUnfold 0 1 0 0 0 ∧
    Ready tRun 0 qStore 0 1 0 0 0 := by and_intros <;> decide +kernel

/-- Ring 0 with two commands in the array queue of C0, the last one having ended before slot 10. -/
def tLater : State := tRun.onQueue 0 qArray fun k => { k with tags := [1, 2], fresh := false, free := 10 }

/-- Ring 0 halted, with one STEP of its array queue. -/
def tHalted : State := (tRun.onRing 0 fun k => { k with halted := true }).onQueue 0 qArray fun k => { k with stepNow := true }

theorem witness_head_later : Ready tLater 0 qArray 0 1 255 0 265 ∧ (tLater.queue 0 qArray).tags = 1 :: [2] ∧
    Ready tHalted 0 qArray 0 1 0 0 0 ∧ isExecQueue qArray = true ∧ isExecQueue qDma = false := by and_intros <;> decide +kernel

theorem test_gap : gives (exec (.idle ⟨0, 1, 3, 0⟩ false 5) (tRun.onQueue 0 qArray fun k => { k with fresh := false, free := 10 }))
    (fun t => (t.queue 0 qArray).free == 18 && (t.core 0).slot == 13) = true := by decide +kernel

theorem witness_takes : Takes tRun (.access 0) 0x00000001 0 ∧ Takes tRun (.execute 0) 0x00000001 0 ∧
    Takes tRun (.ringmaster 2) tTag2 2 := by and_intros <;> decide +kernel

theorem witness_loop_param : isStream (.ringmaster 2) = true ∧ isStream (.access 0) = true ∧ (252 : Nat) + 4 ≤ 256 ∧
    anyPoison (tRun.cmRead 1 0 252 4).2 = false := by decide +kernel

theorem test_loop_param : gives (exec (.loop (.access 0) 1 (.param 252)) (tCore fun k => { k with mem := [(252, 5), (255, 9)] }))
    (fun t => (t.seq (.access 0)).loops == [5]) = true ∧
    gives (exec (.loop (.ringmaster 2) tTag2 (.param 252)) (tRun.onRing 2 fun k =>
      { k with current := some { tInvocation with params := List.replicate 252 0 ++ [7, 1, 0, 9] } }))
      (fun t => (t.seq (.ringmaster 2)).loops == [263]) = true := by decide +kernel

theorem test_loops : gives (exec (.loop (.access 0) 1 (.imm 3)) tRun) (fun t => (t.seq (.access 0)).loops == [3]) = true ∧
    gives (exec (.loop (.access 0) 1 (.imm 3)) (tRun.onSeq (.access 0) fun q => { q with loops := [1, 1, 1, 1] }))
      (fun t => (t.seq (.access 0)).loops == [1, 1, 1, 1]) = true ∧
    gives (exec (.endloop (.access 0) 1) (tRun.onSeq (.access 0) fun q => { q with loops := [1, 7] }))
      (fun t => (t.seq (.access 0)).loops == [7]) = true := by decide +kernel

/-- The answers to tests of flags have come back to the sequencer and the DMA queue of C0 and to the ringmaster of ring 2. -/
def tAnswered (v : Bool) : State := ((tRun.onSeq (.access 0) fun q => { q with probe := .answered v }).onSeq (.ringmaster 2) fun q =>
  { q with probe := .answered v }).onQueue 0 qDma fun q => { q with probe := .answered v }

theorem witness_skip : Instr.WellFormed (.skip (.access 0) 1 (.ring 255) false [.endloop]) ∧
    Instr.WellFormed (.skip (.access 0) 1 (.core 63 0) false [.endloop]) ∧
    Instr.WellFormed (.skip (.ringmaster 2) tTag2 (.core 63 0x10) false [.endloop]) ∧
    tRun.reaches (.access 0) 0 (.ring 255) = true ∧ tRun.reaches (.ringmaster 2) 2 (.core 63 0x10) = true ∧
    tRun.probeOf (.access 0) = .idle ∧ tRun.crossFull (crossFrom (.access 0)) = false ∧
    (tAnswered true).probeOf (.access 0) = .answered true ∧ (tAnswered false).probeOf (.ringmaster 2) = .answered false := by
  decide +kernel

theorem witness_takes_answered : Takes (tAnswered false) (.access 0) 1 0 ∧ Takes (tAnswered false) (.ringmaster 2) tTag2 2 ∧
    Ready (tAnswered false) 0 qDma 0 1 0 0 0 ∧ Takes (tAnswered true) (.access 0) 1 0 ∧
    Takes (tAnswered true) (.ringmaster 2) tTag2 2 ∧ Ready (tAnswered true) 0 qDma 0 1 0 0 0 := by
  and_intros <;> decide +kernel

theorem test_skip_ends_loop : gives (exec (.skip (.access 0) 1 (.ring 255) false [.loop, .endloop, .endloop])
    ((tAnswered false).onSeq (.access 0) fun q => { q with loops := [9, 4] })) (fun t => (t.seq (.access 0)).loops == [4]) = true ∧
    gives (exec (.skip (.access 0) 1 (.ring 255) false [.endloop]) tRun) (fun t =>
      t.cross == [(.coreToConcourse 0, .test 0 (.access 0) 255 .look)] && t.probeOf (.access 0) == .asked) = true := by decide +kernel

theorem witness_push : pushesInto (.access 0) 3 = true ∧ popsFrom (.access 0) 4 = true ∧ (tRun.dq 0 3).length < 32 ∧
    32 ≤ ((tRun.onDq 0 3 fun _ => List.replicate 32 (.value 0)).dq 0 3).length ∧
    (tRun.onDq 0 4 fun _ => [.value 5]).dq 0 4 = [.value 5] ∧ tRun.dq 0 4 = [] := by decide +kernel

theorem witness_takes_filled : Takes (tRun.onDq 0 3 fun _ => List.replicate 32 (.value 0)) (.access 0) 1 0 ∧
    Takes (tRun.onDq 0 4 fun _ => [.value 5]) (.access 0) 1 0 ∧ (DqEntry.ready 2 ≠ .value 5) := by and_intros <;> decide +kernel

theorem test_pop_mismatch : gives (exec (.pop (.access 0) 1 4 (some (.ready 2))) (tRun.onDq 0 4 fun _ => [.value 5, .value 6]))
    (fun t => t.dq 0 4 == [.value 6] && t.fld (.coreSeqStatus 0) F.coreSeqStatus_TOKEN_MISMATCH == 1) = true := by decide +kernel

/-- Ring 0 with flag 63 of C0 set, and a set of flag 0 that reaches it in slot 0. -/
def tFlags : State := tCore fun k => { k with flags := 0x8000000000000000, flagPend := [⟨0, 0, true⟩] }

theorem witness_flags : (queueFlags qArray 0 (tFlags.core 0)).getLsbD 63 = true ∧ (queueFlags qDma 0 (tFlags.core 0)).getLsbD 0 = true ∧
    outranked (tFlags.core 0) qArray.val 63 = false ∧ (flagsAfter (tFlags.core 0)).1.getLsbD 0 = true ∧
    tFlags.seqYields (.access 0) (.core 63 0) true = false ∧ (queueFlags qArray 0 (tRun.core 0)).getLsbD 63 = false ∧
    (tRun.queue 0 qDma).probe = .idle ∧ ((tAnswered false).queue 0 qDma).probe = .answered false ∧
    tRun.crossFull (.coreToConcourse 0) = false ∧ tRun.crossFull (.ringmasterToConcourse 2) = false ∧
    tRun.reaches (.ringmaster 2) 2 (.core 0 0x0090) = true ∧ (∀ o ∈ (tFlags.core 0).flagPend, o.slot ≤ 0) ∧
    (flagsBy 0 (tRun.core 0)).2 = false ∧
    (flagsBy 1 ((tCore fun k => { k with flags := 1, flagPend := [⟨1, 0, true⟩] }).core 0)).2 = true := by decide +kernel

theorem witness_flags_ready : Ready tFlags 0 qArray 0 1 0 0 0 ∧ Ready tFlags 0 qDma 0 1 0 0 0 ∧ Takes tFlags (.access 0) 1 0 ∧
    FlagsInOrder (tRun.core 0) := by and_intros <;> first | decide +kernel | (unfold FlagsInOrder; decide +kernel)

/-- A state after a SET of flag 63 by the array queue of C0 in slot 0, and after one by its DMA queue. -/
theorem witness_flag_sent :
    FlagSent tFlags (tFlags.onCore 0 fun k => { k with flags := 0x8000000000000001, flagPend := [⟨1, 63, true⟩] }) 0 qArray 0 63 true ∧
    FlagSent tRun (tCore fun k => { k with flagPend := [⟨1, 63, false⟩] }) 0 qDma 0 63 false := by
  and_intros <;> decide +kernel

theorem test_set_core_flag : gives (exec (.set (.queue 0 qArray 0) 1 0 (.core 63 0)) tRun) (fun t => (t.core 0).flags == 0 &&
      (flagsBy 0 (t.core 0)).1 == 0 && (flagsBy 1 (t.core 0)).1 == 0x8000000000000000) = true ∧
    gives (exec (.set (.ringmaster 2) tTag2 0 (.core 1 0x0090)) tRun)
      (fun t => t.cross == [(.ringmasterToConcourse 2, .coreFlag 2 0x0090 1 true)]) = true := by decide +kernel

theorem test_wait_consumes : gives (exec (.wait (.queue 0 qVector 0) 1 0 (.core 0 0) true) (tCore fun k => { k with flags := 3 }))
    (fun t => (t.core 0).flags == 2) = true := by decide +kernel

theorem witness_release : markExists .ds 3 = true ∧ tRun.noDataQueues 0 = false ∧ tRun.noDataQueues 4 = true := by decide +kernel

theorem witness_stream_ends : execQueue true = qVector ∧ execQueue false = qArray ∧ (1048575 : Nat) ≤ 1048575 ∧
    (65536 : Nat) ≤ 65536 ∧ (tRun.dq 0 7).length < 32 := by decide +kernel

theorem test_hint : gives (exec (.hint tEng 7 20000 1) tRun) (fun t => (t.core 0).hint == some ⟨7, 0, 21024⟩ &&
      t.cross == [(.coreToConcourse 0, .hint 0 0 7 false)] && t.fld (.ringHint 0) F.ringHint_LATE == 0) = true ∧
    gives (exec (.hint tEng 7 19999 1) tRun) (fun t => t.fld (.ringHint 0) F.ringHint_LATE == 1) = true := by decide +kernel

theorem test_end : gives (exec (.endStream (.access 0) 1 0) tRun) (fun t => (t.seqTakes (.access 0) 1).isNone) = true ∧
    gives (exec (.mark (.queue 0 qArray 0) 1 0 7) tRun) (fun t => (t.queue 0 qArray).free == 1) = true := by decide +kernel

/-! ## The array, the vector engine, the quantiser -/

/-- Ring 0 with every region of the operand memories of C0 valid. -/
def tFilled : State := tCore fun k => { k with wValid := 0xFFFF, aValid := 0xFFFF, dsValid := 0xF }

/-- Ring 0 with its timing audit on. -/
def tAudited : State := tFilled.setFld (.ringManifestStatus 0) F.ringManifestStatus_AUDIT 1

theorem witness_step : operandExists ⟨255, 0, .int8⟩ = true ∧ operandExists ⟨254, 0, .bf16⟩ = true ∧
    arrayGate (tFilled.core 0) 0 (some (lineRegion 255)) (some (lineRegion 255)) false none = none ∧
    arrayGate (tFilled.core 0) 0 (some (lineRegion 255)) (some (lineRegion 255)) false (some ⟨1, none, 3⟩) = none ∧
    scaleExists (some ⟨1, some 63, 3⟩) = true := by decide +kernel

theorem witness_step_ready : Ready tFilled 0 qArray 0 1 0 0 0 ∧ Passes tFilled 0 (arrayAudit tFilled tEng [] []) ∧
    Ready tAudited 0 qArray 0 1 0 0 0 ∧ tAudited.auditOn 0 = true ∧ arrayAudit tAudited tEng [0] [1] = none ∧
    Passes tAudited 0 (arrayAudit tAudited tEng [0] [1]) := by and_intros <;> first | decide +kernel | (intro _; decide +kernel)

theorem test_step_int8 : gives (exec (.step tEng ⟨0, 0, .int8⟩ ⟨0, 0, .int8⟩ 2 true none) (tFilled.onCore 0 fun k =>
    { k with opnd := [(opW, 3), (opA, 5), (opWexp, 127), (opAexp, 127)] })) (fun t =>
      (t.core 0).accPend.any fun p => p.set == 2 && p.slot == 14 && p.values.getD 0 0 == 0x41700000) = true := by decide +kernel

theorem witness_absent_column : (31 : Nat) < 1024 ∧ 31 ≤ 31 % 32 ∧ 31 ≤ 32 := by decide +kernel

/-- Ring 0 with the load latch of C0 filled. -/
def tLatch : State := tCore fun k => { k with latchValid := true, latchFrom := 0 }

theorem witness_latch : (tLatch.core 0).latchValid = true ∧ (tLatch.core 0).latchFrom ≤ 0 ∧ Ready tLatch 0 qArray 0 1 0 0 0 ∧
    Ready tLatch 0 qVector 0 1 0 0 0 ∧ Passes tLatch 0 (arrayAudit tLatch tEng [] [15]) ∧
    Passes tLatch 0 (vectorAudit tLatch tEng (srcReads 8 (.reg 56)) 0 0 0) ∧ (tRun.core 0).latchValid = false ∧
    (56 : Fin 64).val + 8 ≤ 64 := by and_intros <;> first | decide +kernel | (intro _; decide +kernel)

theorem witness_vector : Instr.WellFormed (.vop tEng .add 56 8 (.reg 48) (.lane 0 127) (.rowb 0) .f32) ∧
    Instr.WellFormed (.vfma tEng 63 1 (.reg 0) (.reg 0) (.reg 0) .bf16) ∧
    Instr.WellFormed (.vconv tEng 0 1 (.reg 0) .f32 .f16) ∧ Instr.WellFormed (.vfunc tEng .exp 0 1 (.reg 0) .f32) ∧
    Instr.WellFormed (.vreduce tEng .sum 0 8 56 true .f32) ∧ Instr.WellFormed (.vload tEng 0 1 (.rx 0 7 true)) ∧
    Instr.WellFormed (.vload tEng 56 8 (.cm 0 .f16)) ∧
    Instr.WellFormed (.vstore tEng 56 8 0 .bf16 0xFFFFFFFFFFFFFFFFFFFFFFFFFFFFFFFF ⟨some 0, 1, none, none⟩) ∧
    inCore (coreBytes - 4096) 4096 = true := by decide +kernel

theorem witness_vector_audit : Passes tAudited 0 (vectorAudit tAudited tEng [(0, 0)] 8 1 4) := fun _ => rfl

theorem witness_vload_entry : let s := tCore fun k => { k with rx := .replicate 4 ⟨true, 0, 0, false⟩ }
    ((s.core 0).rx[(0 : Fin 4)]).held = true ∧ ((s.core 0).rx[(0 : Fin 4)]).readable ≤ 0 ∧
      ((s.core 0).rx[(0 : Fin 4)]).poisoned = false := by decide +kernel

theorem witness_vload_poison : anyPoison ((tCore fun k => { k with memBad := [(15, 1)] }).cmRead 1 0 0 512).2 = true ∧
    anyPoison (tRun.cmRead 1 0 0 512).2 = false ∧ tRun.mayFault 0 = true := by decide +kernel

theorem test_vload : gives (exec (.vload tEng 3 1 (.cm 64 .f32)) (tCore fun k => { k with mem := [(64, 0x80), (66, 0x3F)] }))
    (fun t => (t.core 0).vPend.any fun p => p.reg == 3 && p.slot == 9 && (p.data.headD []).headD 0 == 0x003F0080) = true := by
  decide +kernel

theorem witness_vstore : tRun.badCompletion 0 ⟨some 0, 1, none, none⟩ = false ∧
    (tRun.doneGate 0 ⟨some 0, 1, none, none⟩ 0 0).isNone = true ∧ (64 : Nat) % 8 = 0 ∧ inCore 64 (128 * 1 * laneBytes .f32) = true := by
  decide +kernel

/-- A scale record: int8, CLAMP, N = 1, exponent 127. -/
def tRecord : List Byte := [2, 0, 100, 127] ++ List.replicate 60 0

theorem witness_record : recValid tRecord = true ∧ recPerChannel tRecord = false ∧
    (quantRecords tRecord [] false).isSome = true ∧ inCore 0 64 = true := by decide +kernel

theorem witness_record_peek : (((tCore fun k => { k with recs := [⟨0, tRecord⟩] }).recPeek 1 0 0).2 = (tRecord, false)) ∧
    recValid ([7] ++ tRecord.drop 1) = false := by decide +kernel

theorem test_scale_set : gives (exec (.scaleSet tEng 0 130) (tCore fun k => { k with recs := [⟨0, tRecord⟩] }))
    (fun t => ((t.core 0).recs.map fun x => recGet x.bytes 3 1) == [130]) = true := by decide +kernel


/-! ## The access-side engines -/

/-- A DMA from core memory to the midway's last bytes. -/
def tDmaOut : DmaCmd := ⟨.cm 3 .contiguous, .mwy (67108864 - 5) none, 5, none, none, none, none, none, false, ⟨none, 0, none, none⟩⟩

/-- A DMA from the midway to the last group of the W-buffer. -/
def tDmaFill : DmaCmd :=
  ⟨.mwy 0 none, .buf .w (262144 - 16), 16, some (.w, 0x8000), none, none, none, none, false, ⟨some 3, 7, some (.core 63 0), none⟩⟩

/-- A remote DMA. -/
def tDmaRemote : DmaCmd :=
  ⟨.remote 1 0 0 false, .cm 0 .contiguous, 64, none, none, none, none, none, false, ⟨none, 0, none, none⟩⟩

theorem witness_dma : Instr.WellFormed (.dma tEng tDmaOut) ∧ Instr.WellFormed (.dma tEng tDmaFill) ∧
    Instr.WellFormed (.dma tEng tDmaRemote) ∧ tRun.badCompletion 0 tDmaFill.done = false ∧
    tRun.badCompletion 0 tDmaOut.done = false ∧ inCore 3 5 = true ∧ 67108864 - 5 + 5 ≤ tRun.mwySize 0 ∧ 0 + 16 ≤ tRun.mwySize 0 ∧
    fillOk .w (262144 - 16) 16 = true ∧ isRemote tDmaRemote.src = true ∧ isRemote tDmaOut.src = false ∧
    isRemote tDmaOut.dst = false := by decide +kernel

theorem witness_dma_starts : Starts tRun tEng qDma 0 0 (dmaRegions tDmaOut) ∧ Starts tRun tEng qDma 0 0 (dmaRegions tDmaFill) ∧
    Starts tRun tEng qDma 0 0 (dmaRegions tDmaRemote) ∧ Starts tAudited tEng qDma 0 0 (dmaRegions tDmaOut) := by
  and_intros <;> first | decide +kernel | (intro _; decide +kernel)

theorem witness_no_errors : NoErrors (tRun.core 0) ∧ tRun.mwyFlips = [] := by and_intros <;> decide +kernel

/-- The ends of a transfer resolve, and its bytes are read and written. -/
def tMoves (cmd : DmaCmd) (s : State) : Bool :=
  match (s.issueAt 0 qDma 1 0 0 0 0).resolveEnd 0 0 1 cmd.bytes false cmd.src with
  | (s1, some (src, sg)) =>
    match s1.resolveEnd 0 0 1 cmd.bytes true cmd.dst with
    | (s2, some (dst, dg)) =>
      match s2.placeRead 0 0 1 ⟨src, dst, cmd.bytes, dg.getD (cmd.gen.getD 0), sg.orElse fun _ => cmd.expectGen, 0, none⟩ 0 cmd.bytes with
      | (s3, some d) =>
        (s3.placeWrite 0 0 1 ⟨src, dst, cmd.bytes, dg.getD (cmd.gen.getD 0), sg.orElse fun _ => cmd.expectGen, 0, none⟩ 0 d).2
      | (_, none) => false
    | (_, none) => false
  | (_, none) => false

theorem witness_dma_moves : tMoves tDmaOut tRun = true ∧ tMoves tDmaFill tRun = true := by decide +kernel

theorem witness_dma_remote : ((tRun.issueAt 0 qDma 1 0 0 0 0).resolveEnd 0 0 1 64 false tDmaRemote.src).2.isSome = true ∧
    ((tRun.issueAt 0 qDma 1 0 0 0 0).resolveEnd 0 0 1 64 true tDmaRemote.dst).2.isSome = true := by decide +kernel

theorem test_dma_out : gives (exec (.dma tEng tDmaOut) (tCore fun k => { k with mem := [(3, 0xAA), (7, 0xBB)] }))
    (fun t => t.mwy == [(67108864 - 5, 0xAA), (67108864 - 1, 0xBB)]) = true := by decide +kernel

/-- A block whose largest element is 2, delivered from another device (R88). -/
theorem test_remote_exponents : smGet 0 (fillPiece ⟨.remote 0 0 0 false, .buf .w 0, 16, 0, none, 16, some .fp16⟩ 16
    (opPut opW [(0x00, false), (0x40, false)] (State.reset.core 0))).opnd opWexp = 128 := by decide +kernel

/-- A command under way, its bytes moved. -/
def tBusy : EngineBusy := ⟨1, some (.w, 0x8000), ⟨some 3, 7, some (.core 63 0), none⟩, 0, none, false⟩

/-- Ring 0 with a command under way in each engine. -/
def tEngines : State := tCore fun k => { k with dmaBusy := some tBusy, unfoldBusy := some tBusy, storeBusy := some tBusy }

theorem witness_completes : tEngines.ringOfCore 0 = some 0 ∧ (tEngines.core 0).dmaBusy = some tBusy ∧ moved tBusy = true ∧
    (tEngines.core 0).unfoldBusy = some tBusy ∧ (tEngines.core 0).storeBusy = some tBusy ∧
    tEngines.canComplete 0 tBusy.done = true ∧
    (tEngines.onDq 0 3 fun _ => List.replicate 32 (.value 0)).canComplete 0 tBusy.done = false := by decide +kernel

theorem test_complete : gives (exec (.dmaComplete 0 1) tEngines) (fun t => t.dq 0 3 == [.ready 7] &&
    (flagsAfter (t.core 0)).1 == 0x8000000000000000 && (t.core 0).wValid == 0x8000 && (t.core 0).dmaBusy == none) = true := by decide +kernel

/-- The first 64 bytes of a geometry record: int8, a kernel of 1 by 1, one pixel of 16 channels at 0x1000, pitch 16. -/
def tGeom : List Byte :=
  [2, 0, 1, 1, 1, 1, 1, 1, 0, 0, 0, 0, 1, 0, 1, 0, 16, 0, 0, 0, 0, 0, 0, 0, 0x00, 0x10, 0, 0, 16, 0, 0, 0, 16, 0, 0, 0] ++
    List.replicate 28 0

/-- Ring 0 with geometry records at 0 and 64 of the core memory of C0. -/
def tGeoms : State := tCore fun k => corePut 64 (tGeom.map fun b => (b, false)) (corePut 0 (tGeom.map fun b => (b, false)) k)

theorem witness_unfold : Instr.WellFormed (.unfold tEng 0 0 1 0 1 (.abuf 255 0) 0x8000 ⟨none, 0, none, none⟩) ∧
    tGeoms.badCompletion 0 ⟨none, 0, none, none⟩ = false ∧ inCore 0 64 = true ∧
    ((recordsRead (tGeoms.issueAt 0 qUnfold 1 0 0 0 0) 1 0 [0]).2 == [tGeom]) = true ∧
    unfoldCause tGeom 0 1 (.abuf 255 0) = none ∧ unfoldCause tGeom 1 1 (.abuf 255 0) = some 3 := by decide +kernel

theorem witness_unfold_starts : Starts tGeoms tEng qUnfold 0 0 (tGeoms.unfoldRegions 0 0 0 1 (.abuf 255 0)) ∧
    Starts tGeoms tEng qUnfold 0 0 (tGeoms.unfoldRegions 0 0 1 1 (.abuf 255 0)) ∧ Starts tGeoms tEng qUnfold 0 0 [] :=
  by and_intros <;> first | decide +kernel | (intro _; decide +kernel)

theorem witness_unfold_reads : allInCore (unfoldReads (geomOf tGeom) ((List.range 1).map fun j =>
      (List.range 32).map fun col => blockTaps (geomOf tGeom) 0 1 (0 + j) col)) = true ∧
    allInCore (unfoldWrites (geomOf tGeom).fmt 1 (.abuf 255 0)) = true := by decide +kernel

theorem witness_pool : poolCause tGeom tGeom 0 1 = none ∧ poolCause tGeom tGeom 1 1 = some 3 ∧
    resampleCause tGeom tGeom 0 1 = none ∧ resampleCause tGeom tGeom 1 1 = some 3 ∧
    ((recordsRead (tGeoms.issueAt 0 qUnfold 1 0 0 0 0) 1 0 [0, 64]).2 == [tGeom, tGeom]) = true ∧
    allInCore (pixelReads (geomOf tGeom) [(0, 0)]) = true ∧ allInCore (pixelWrites (geomOf tGeom) [0]) = true ∧
    anyPoison (coreGet (tGeoms.core 0) 4096 16) = false := by decide +kernel

/-- A RESIZE of one pixel to one. -/
def tResample : Resample := ⟨geomOf tGeom, geomOf tGeom, none, none, rowsFrom 0 1⟩

/-- Its coordinates. -/
def tCoord (yo xo : Nat) : Coord := some (resizeCoord true yo 1 1, resizeCoord true xo 1 1)

theorem witness_resample : Instr.WellFormed (.resize tEng 0 64 none true 0 1 ⟨none, 0, none, none⟩) ∧
    Instr.WellFormed (.crop tEng 0 64 (-1) 1 0 1 ⟨none, 0, none, none⟩) ∧
    Instr.WellFormed (.warp tEng 0 64 none (.affine 0x10000 0 0 0 0x10000 0) 0 1 ⟨none, 0, none, none⟩) ∧
    allInCore tResample.mapReads = true ∧ allInCore (tResample.reads tCoord) = true ∧
    allInCore ((tResample.pieces (tGeoms.core 0) tCoord).map fun p => (p.1, p.2.length)) = true := by decide +kernel

theorem test_geom_refused : gives (exec (.crop tEng 0 64 0 0 1 1 ⟨none, 0, none, none⟩) tGeoms) (fun t =>
    t.fld (.coreUnfoldStatus 0) F.coreUnfoldStatus_GEOM_CAUSE == 3 && t.reg (.coreUnfoldErrTag 0) == 1) = true := by decide +kernel

theorem test_pool : gives (exec (.pool tEng 0 64 false 0 1 ⟨none, 0, none, none⟩)
    ((tGeoms.onCore 0 fun k => corePut (64 + 0x18) [(0x00, false), (0x20, false)] (corePut 0x1000 [(0x81, false)] k))))
    (fun t => smGet 0 (t.core 0).mem 0x2000 == 0x81) = true := by decide +kernel

theorem witness_store : Starts tRun tEng qStore 0 0 [] ∧ tRun.badCompletion 0 ⟨none, 0, none, none⟩ = false ∧
    inCore (coreBytes - 4) 4 = true ∧ tRun.canComplete 0 ⟨none, 0, none, none⟩ = true ∧
    Instr.WellFormed (.stride tEng 0 (.strided 4 8 2 64) 100 .contiguous 4 ⟨none, 0, none, none⟩) ∧
    strideOk 0 (strideSize (.strided 4 8 2 64) .contiguous) 4 (.strided 4 8 2 64) = true ∧
    strideOk 100 (strideSize .contiguous (.strided 4 8 2 64)) 4 .contiguous = true ∧
    Instr.WellFormed (.transpose tEng 0 (.transpose8 16) 1024 16 ⟨none, 0, none, none⟩) ∧
    inCore (0 + ((blockShape (.transpose8 16)).1 - 1) * (blockShape (.transpose8 16)).2) 16 = true ∧
    inCore (1024 + ((blockShape (.transpose8 16)).1 - 1) * 16) 16 = true := by
  and_intros <;> first | decide +kernel | (intro _; decide +kernel)

theorem test_copy_overlap : gives (exec (.copy tEng 0 4 12 ⟨none, 0, none, none⟩) (tCore fun k => { k with mem := [(0, 1), (2, 3)] }))
    (fun t => (t.core 0).mem == [(0, 1), (2, 3), (4, 1), (6, 3), (8, 1), (10, 3), (12, 1), (14, 3)]) = true := by decide +kernel

theorem test_fill_pattern : gives (exec (.fill tEng 8 8 0x04000001 ⟨none, 0, none, none⟩) tRun) (fun t => (t.core 0).mem ==
    [(8, 1), (11, 4), (12, 1), (15, 4)]) = true ∧
    gives (exec (.fill tEng 8 0 5 ⟨some 1, 2, none, none⟩) tRun) (fun t => t.dq 0 1 == [.ready 2]) = true := by decide +kernel

theorem test_stride : gives (exec (.stride tEng 0 (.strided 4 8 2 64) 100 .contiguous 4 ⟨none, 0, none, none⟩)
    (tCore fun k => { k with mem := [(0, 1), (8, 2), (64, 3), (72, 4)] })) (fun t => (t.core 0).mem ==
      [(0, 1), (8, 2), (64, 3), (72, 4), (100, 1), (104, 2), (108, 3), (112, 4)]) = true := by decide +kernel

theorem witness_drains : (((tCore fun k => { k with gather := [⟨131071, 0xFF, 1⟩] }).core 0).gather.filter fun x => x.line == 131071)
    = [⟨131071, 0xFF, 1⟩] ∧ NoErrors ((tCore fun k => { k with gather := [⟨131071, 0xFF, 1⟩] }).core 0) := ⟨rfl, rfl, rfl⟩

/-- The state with one operation on its way. -/
def tCross (x : Crossing) (o : CrossOp) : State := { tRun with cross := [(x, o)] }

theorem witness_crossing : takeCross .feToConcourse (tCross .feToConcourse (.setFlag 0 255)).cross = some (.setFlag 0 255, []) ∧
    tRun.postStreams 0 255 = [] ∧ tRun.flagTrigger 0 255 = false ∧
    ([.feToConcourse, .concourseToBooth, .concourseToCore 0, .concourseToRingmaster 2, .coreToConcourse 0,
      .ringmasterToConcourse 2] : List Crossing).all (fun x => tRun.clockRuns (tRun.receiver x)) = true ∧
    tRun.clockRuns (tRun.receiver (.concourseToCore 15)) = false ∧ takeCross (.coreToConcourse 3) tRun.cross = none := by decide +kernel

theorem witness_flag_path : FlagPath .feToConcourse ∧ FlagPath .concourseToBooth ∧ FlagPath (.concourseToCore 0) ∧
    FlagPath (.concourseToRingmaster 2) ∧ FlagPath (.coreToConcourse 0) ∧ FlagPath (.ringmasterToConcourse 2) :=
  ⟨nofun, nofun, nofun, nofun, nofun, nofun⟩

/-- Ring 0 with a consuming wait of the DMA queue of C0 at ring flag 255. -/
def tAtFlag : State := (tCross .feToConcourse (.setFlag 0 255)).onRing 0 fun k => { k with tests := [⟨.queue 0 qDma 0, 255, true⟩] }

theorem witness_tests : (tAtFlag.ring 0).tests = [⟨.queue 0 qDma 0, 255, true⟩] ∧
    takeCross .feToConcourse tAtFlag.cross = some (.setFlag 0 255, []) ∧ tAtFlag.postStreams 0 255 = [] ∧
    tAtFlag.flagTrigger 0 255 = false ∧ crossBack (.queue 0 qDma 0) = .concourseToCore 0 ∧
    crossBack (.ringmaster 2) = .concourseToRingmaster 2 ∧
    ((tCross (.concourseToCore 0) (.answer 0 (.access 0) true)).onSeq (.access 0) fun q => { q with probe := .asked }).probeOf (.access 0)
      = .asked := by decide +kernel

theorem test_deliver_flags : gives (exec (.crossingDeliver .feToConcourse) tAtFlag) (fun t =>
      t.cross == [(.concourseToCore 0, .answer 0 (.queue 0 qDma 0) true)] && (t.ring 0).tests == [] && (t.ring 0).flags == 0) = true ∧
    gives (exec (.crossingDeliver (.ringmasterToConcourse 2)) (tCross (.ringmasterToConcourse 2) (.coreFlag 2 0x0090 1 true)))
      (fun t => t.cross == [(.concourseToCore 4, .coreFlag 2 0x10 1 true), (.concourseToCore 7, .coreFlag 2 0x80 1 true)]) = true := by
  decide +kernel

/-- Ring 0 with a program that a frame of context 63 triggers. -/
def tTriggered : State := (tCross .concourseToBooth (.trigger 0 1 63 9)).onRing 0 fun k => { k with
  programs := [⟨31, 1, 63, 1, 0, 64⟩] }

theorem witness_trigger : tTriggered.takesTriggers 0 = true ∧ tTriggered.pendingRoom 0 = true := by decide +kernel

theorem test_trigger : gives (exec (.crossingDeliver .concourseToBooth) tTriggered) (fun t =>
    ((t.ring 0).waiting.map fun i => (i.slot, i.stamp)) == [(31, 9)]) = true := by decide +kernel

/-- Ring 0 whose one command waits on a core flag. -/
def tStalled : State := (tRun.onQueue 0 qArray fun k => { k with tags := [1], wait := some ⟨1, .flag, 5, 3, 0, false⟩ }).onCore 0 fun k =>
  { k with access := { k.access with ended := true }, execute := { k.execute with ended := true } }

theorem witness_stall : (tStalled.coresOf 0).contains 0 = true ∧ tStalled.mayFault 0 = true ∧ tStalled.stalled 0 = true ∧
    tRun.stalled 0 = false := by decide +kernel

/-! ## Rings -/

/-- Ring 0 in a state. -/
def tRing (st : Nat) : State := tRun.setFld (.ringManifestStatus 0) F.ringManifestStatus_STATE st

/-- An endpoint of ring 0 that is bound and has a peer. -/
def tEp (s : State) : State := (s.setReg (.trsEpStatus 0) 0x80000005).setRegs [(.trsEpPeer 0 0, 0x01020304), (.trsEpPeer 0 1, 5)]

theorem witness_ask : MayAsk (tRing stLoaded) 0 .booth ∧ (tRing stLoaded).ringState 0 = stLoaded ∧
    MayAsk (tEp (tRing stStopped)) 0 (.ep 0 0) ∧ (tRing stStopped).ringState 0 = stStopped ∧ (tRing stFailed).ringState 0 = stFailed ∧
    MayAsk tRun 0 .booth ∧ tRun.ringState 0 = stRunning ∧ tRun.ringAccess 0 (.ep 1 0) = false ∧
    MayAsk (tRing stParked) 0 (.ep 0 0) ∧ (tRing stParked).ringState 0 = stParked ∧
    MayAsk (tRing stAbsent) 0 .booth ∧ (tRing stAbsent).ringState 0 = stAbsent ∧
    MayAsk (tRing stStopping) 0 .booth ∧ (tRing stStopping).ringState 0 = stStopping ∧ stoppable stRunning = true := by
  unfold MayAsk; decide +kernel

theorem test_start : gives (exec (.ringStart 0 (.ep 0 0)) (tEp ((tRing stLoaded).onRing 0 fun k => { k with openCount := 9 })))
    (fun t => t.ringState 0 == stLoading && (t.ring 0).openCount == 1) = true ∧
    gives (exec (.ringStart 0 .booth) tRun) (fun t => t.fld (.ringEvent 0) F.ringEvent_REFUSED == 1) = true := by decide +kernel

/-- Some of the bytes of an image from its own address 0, in unit 1 of DRAM. -/
def tImageBytes (l : List (Nat × Byte)) : SparseMap 8 := l.map fun p => (16777216 + p.1, p.2)

/-- A device that boots with a deployment image of one manifest, of ring 0: one core, no slice needed, one program. -/
def tImage : State := { (tUp.setReg (.coreColwidth 3) 0x80000000).setReg (.ringManifestStatus 0) 0x10000000 with
  boot := { tUp.boot with deployLen := 8192 }
  dram := { tUp.dram with unitOwner := [(1, 0x80)], data := tImageBytes [(0x0A, 2), (0x21, 0x01), (0x25, 0x04), (0x49, 0x10), (0x4C, 0x80), (0x106, 1),
    (0x109, 0x02), (0x200, 9), (0x203, 1), (0x204, 2), (0x205, 1), (0x208, 8), (0x290, 1), (0x295, 0x10),
    (0x1000, 9), (0x1002, 1), (0x1008, 0x40), (0x1009, 0x10), (0x100C, 0x20)] } }

/-- The boot of that device has ended. -/
def tImageDone : State := tImage.setFld .bootStatus F.bootStatus_STAGE stageDone

/-- The load of ring 0 has ended at boot; the ring waits for its place. -/
def tBound (s : State) : State := (s.setFld (.ringManifestStatus 0) F.ringManifestStatus_STATE stLoading).onRing 0 fun k =>
  { k with bound := true }

theorem witness_load : tImage.ringState 0 = stLoading ∧ tImage.loadTurn 0 = true ∧ (tImage.ring 0).bound = false ∧
    (tImage.loadNow 0).2 = 0 ∧ (tImage.loadNow 0).1.bootDone = false ∧ bitAt ((tImage.loadNow 0).1.manifest 0 4 1) 0 = false ∧
    (tImageDone.loadNow 0).2 = 0 ∧ (tImageDone.loadNow 0).1.bootDone = true := by decide +kernel

theorem witness_load_fails : (tRing stLoading).ringState 0 = stLoading ∧ (tRing stLoading).loadTurn 0 = true ∧
    ({ tImage with boot := tUp.boot }.loadNow 0).2 = cauFormat ∧ (tBound tImageDone).bootDone = true ∧
    (tBound tImage).bootDone = false ∧ ((tBound tImage).ring 0).bound = true ∧ (tBound tImage).ringState 0 = stLoading ∧
    (((tBound tImage).onRing 0 fun k => { k with starting := true }).ring 0).starting = true ∧
    ((tBound tImage).ring 0).starting = false ∧
    bitAt (({ tImage with dram := { tImage.dram with data := smWrite 0 tImage.dram.data (16777216 + 0x204) [3] } }.loadNow 0).1.manifest
      0 4 1) 0 = true := by decide +kernel

theorem test_load : gives (exec (.ringLoadComplete 0) tImageDone) (fun t => t.ringState 0 == stRunning &&
    t.reg (.ringResources 0) == 0x00080000 && t.fld (.ringEvent 0) F.ringEvent_RUNNING == 1) = true := by decide +kernel

/-- Ring 0 with an invocation that waits, its program's result stream 0 with no slot. -/
def tWaiting : State := tRun.onRing 0 fun k => { k with current := none, waiting := [tInvocation] }

/-- The program of that invocation writes result stream 0, for which it has no slot. -/
def tNoSlot : State := tWaiting.setReg (.trsRstreamStatus (rsIx 0 0)) 0x80000000

theorem witness_invocation : tWaiting.headReady 0 = some tInvocation ∧ tWaiting.canClaim 0 0 = true ∧
    tNoSlot.headReady 0 = some tInvocation ∧ tNoSlot.canClaim 0 0 = false ∧
    (tRun.ring 0).current = some tInvocation ∧ tRun.ringClocked 0 = true ∧ tRun.allEnded 0 = false := by decide +kernel

/-- Every stream of ring 0's invocation has ended. -/
def tEnded : State := tRun.onCore 0 fun k => { k with queues := .replicate 5 { ended := true }
                                                      access := { ended := true }, execute := { ended := true } }

theorem witness_invocation_end : (tEnded.ring 0).current = some tInvocation ∧ tEnded.ringClocked 0 = true ∧
    tEnded.allEnded 0 = true := by decide +kernel

theorem test_invocation_start : gives (exec (.invocationStart 0) (tRun.onRing 0 fun k => { k with
    current := none, waiting := [⟨0, [7, 8], 0, none, true⟩] })) (fun t => (t.ring 0).waiting == [] &&
      (t.core 0).mem == [(0, 7), (1, 8)]) = true := by decide +kernel

/-- Ring 0 PARKING, its invocation over. -/
def tParking : State := (tRing stParking).onRing 0 fun k => { k with current := none }

theorem witness_park : tParking.parkReady 0 = true ∧ tRun.parkReady 0 = false ∧ (tRing stParking).ringState 0 = stParking ∧
    ((tRing stParking).ring 0).current.isSome = true ∧ ((tRing stParked).ring 0).held = [] ∧
    ((tRing stParked).ring 0).heldParams = [] ∧ ((tRing stParked).ring 0).ctxs = [] := by decide +kernel

theorem test_park_resume : gives (exec (.ringPark 0 .booth) tRun) (fun t => t.ringState 0 == stParking) = true ∧
    gives (exec (.ringResume 0 .booth) (tRing stParked)) (fun t => t.ringState 0 == stRunning) = true ∧
    gives (exec (.ringResume 0 .booth) tRun) (fun t => t.fld (.ringEvent 0) F.ringEvent_REFUSED == 1) = true := by decide +kernel

/-- Ring 0 STOPPING with an answer that waits for traffic, and with a flag operation in a crossing. -/
def tAnswering : State := ((tEp (tRing stStopping)).setReg (.trsEpStatus 0) 0x88000005).onEp 0 fun k => { k with queue := [⟨0, 1, 7, 1, true, [], 0, 0, 0, [], 0⟩] }

theorem witness_stop : (tRing stStopping).flagsDrained 0 = true ∧ (tRing stStopping).answersWait 0 = false ∧
    ((tRing stStopping).ring 0).bound = true ∧ tAnswering.answersWait 0 = true ∧
    ({ tRing stStopping with cross := [(.feToConcourse, .setFlag 0 255)] } : State).flagsDrained 0 = false := by decide +kernel

theorem test_stop : gives (exec (.ringStop 0 .booth) tRun) (fun t => t.ringState 0 == stStopping &&
    (t.ring 0).current == none) = true := by decide +kernel

theorem test_stop_zero : gives (exec (.stopComplete 0) { tRing stStopping with mwy := [(0, 1), (33554432, 2), (67108864, 3)] })
    (fun t => t.mwy == [(67108864, 3)] && t.ringState 0 == stStopped) = true := by decide +kernel

theorem witness_flag_write : Heard (tEp tRun) 0 (.ep 0 0) ∧ 192 ≤ (192 : Byte).toNat ∧ (191 : Byte).toNat < 192 ∧
    MayAsk (tEp (tRing stParked)) 0 (.ep 0 0) ∧ (tRing stParked).holdsWrites 0 = true ∧
    ((tRing stParked).ring 0).held.length < 256 ∧ tRun.ringAccess 0 (.ep 1 0) = false := by unfold Heard MayAsk; decide +kernel

theorem test_flag_write : gives (exec (.flagWriteSet 0 192 (.ep 0 0)) tRun) (fun t => t.cross ==
    [(.ethToConcourse, .setFlag 0 192)]) = true ∧
    gives (exec (.flagWriteSet 0 191 (.ep 0 0)) tRun) (fun t => t.cross == []) = true := by decide +kernel

/-! ## Sequence contexts -/

/-- A whole message to endpoint 0 of ring 0, on port 0 and VLAN 5. -/
def tFrame (type : Byte) (id : Word) (body : List Byte) : Frame :=
  let f : Frame := ⟨.port 0, true, 64 + body.length, 0, 0x501020304, 5, BitVec.ofNat 16 (tUp.fld .trsEthertype F.trsEthertype_TYPE),
    false, false, 0, 1, 0, 0, 7, 1, 1, BitVec.ofNat 16 body.length, 0, id, 0, 0, 0, body⟩
  { f with crc := crc32c (frameHeader type f ++ body) }

/-- A state in which endpoint 0 of ring 0 is bound and has a peer, and port 0 is enabled. -/
def tNet (s : State) : State := s.setRegs [(.trsEpStatus 0, 0x88000005), (.trsEpPeer 0 0, 0x01020304), (.trsEpPeer 0 1, 5),
  (.ethPortStatus 0, 0x80000000)]

/-- The manifest of ring 0: contexts 0 to 4,095, a region at unit 2 and a SPILL region at unit 3. -/
def tManifest : List Byte :=
  List.replicate 0x1D 0 ++ [0x10] ++ List.replicate 0x32 0 ++ [2, 0, 1, 0, 1, 0, 0, 0, 3, 0, 1, 0, 5, 0, 0, 0] ++ List.replicate 160 0

/-- Ring 0 with context 4,095, of one stream and 4 pages at page 512, in a state; a pool of one unit. -/
def tSeq (st : Nat) : State :=
  (((({ tNet tRun with dram := { tRun.dram with unitOwner := [(0, 0x80)] } } : State).onRing 0 fun k => { k with manifest := tManifest }).setRegs
    [(.ringCtxDesc 4095 0, 0x00050001), (.ringCtxDesc 4095 1, 512), (.ringCtxDesc 4095 2, 4), (.ringCtxDesc 4095 3, 1),
      (.ringCtxPool 0 0, 0x00020001)]).setCtxState 4095 st)

/-- The same, the context held by the booth with these pages on the move. -/
def tCtx (st : Nat) (moves : List PageMove) : State := (tSeq st).onRing 0 fun k => { k with
  ctxs := [(4095, ⟨some 0, 0, 0, moves, false, false, false, false⟩)] }

/-- A page-table entry of the context's page 3: GEN 1. -/
def tEntry (s : State) (top : Byte) (loc : Byte) : State := { s with dram := { s.dram with
  data := smWrite 0 s.dram.data (8 * 515) [loc, 0, 0, 0, 0, 1, 0, top] } }

theorem witness_ctx_open : Heard (tSeq ctxFree) 0 (.ep 0 0) ∧ (tSeq ctxFree).ctxOwned 0 4095 = true ∧
    (tSeq ctxFree).ctxState 4095 = ctxFree ∧ (tSeq ctxFree).openCheck 0 4095 = 0 ∧
    ((tSeq ctxFree).setReg (.ringCtxDesc 4095 0) 0x00040001).openCheck 0 4095 = 3 ∧
    (tSeq ctxFree).openCheck 1 4095 = 1 ∧ Heard (tSeq ctxFree) 1 .booth ∧
    (∀ g : Fin 8, g ≠ 0 → (tSeq ctxFree).ctxOwned g 4095 = false) := by unfold Heard MayAsk; decide +kernel

/-- A page that leaves for, or comes from, the host or the SPILL region. -/
def tMove (out host : Bool) (tries : Nat) : PageMove := ⟨3, out, false, 513, host, tries, 9, 1⟩

theorem witness_ctx_close : Heard (tCtx ctxOpen []) 0 .booth ∧ (tCtx ctxOpen []).ctxOwned 0 4095 = true ∧
    ((tCtx ctxOpen []).ctxInfo 0 4095).isSome = true ∧ (tCtx ctxOpen []).ctxState 4095 = ctxOpen ∧
    ((tCtx ctxIn [tMove false false 1]).ctxInfo 0 4095).isSome = true ∧ (tCtx ctxIn [tMove false false 1]).ctxState 4095 = ctxIn ∧
    (tCtx ctxActive []).ctxState 4095 = ctxActive ∧ ((tCtx ctxActive []).ctxInfo 0 4095).isSome = true := by
  unfold Heard MayAsk; decide +kernel

/-- Context 4,095 SWAPPED, its page 3 in the SPILL region. -/
def tSwapped : State := tEntry (tCtx ctxSwapped []) 0x80 0x00

/-- The same as a PREFETCH begins. -/
def tPrefetch : State := (tSwapped.setCtxState 4095 ctxIn).onCtx 0 4095 fun i => { i with prefetch := true, ending := false }

theorem witness_ctx_prefetch : tSwapped.ctxOwned 0 4095 = true ∧ tSwapped.ctxState 4095 = ctxSwapped ∧
    (tPrefetch.ctxInfo 0 4095 == some ⟨some 0, 0, 0, [], false, false, false, true⟩) = true ∧ tPrefetch.swapsRun 0 = true ∧
    (tPrefetch.nextIn 0 4095 ⟨some 0, 0, 0, [], false, false, false, true⟩ == some (3, (false, 512, false))) = true := by decide +kernel

theorem witness_ctx_evict : ((tEntry (tCtx ctxOpen []) 0x40 0x00).preempt 0 4095).isSome = true ∧
    ((tEntry ((tCtx ctxOpen []).onRing 0 fun k => { k with manifest := tManifest.set 0x5A 0 }) 0x40 0x00).preempt 0 4095).isNone
      = true := by decide +kernel

theorem test_ctx_open : gives (exec (.ctxOpen 0 4095 (.ep 0 0)) (tSeq ctxFree)) (fun t => t.ctxState 4095 == ctxOpen &&
    t.reg (.ringCtxDesc 4095 6) == 1 && (t.ring 0).openCount == 2) = true ∧
    gives (exec (.ctxOpen 0 4095 (.ep 0 0)) (tSeq ctxLost)) (fun t => t.fld (.ringCtxEvent 0) F.ringCtxEvent_REFUSED == 1) = true :=
  by decide +kernel

/-- An invocation by a host that lists context 4,095. -/
def tStep : Invocation := ⟨0, List.replicate 16 0 ++ [0xFF, 0x0F, 0, 0x80] ++ List.replicate 236 0, 0,
  some ⟨0, 3, 7, 1, 5⟩, false⟩

/-- Ring 0 with an invocation at the head of its list. -/
def tAdmit (st : Nat) (i : Invocation) : State := (tCtx st []).onRing 0 fun k => { k with waiting := [i] }

theorem witness_admit : (tAdmit ctxOpen tStep).ringState 0 = stRunning ∧ contextList tStep = [4095] ∧
    ((tAdmit ctxOpen tStep).ring 0).admission = none ∧ (tAdmit ctxOpen tStep).admitRefusal 0 4095 = none ∧
    (tAdmit ctxOpen tStep).ctxState (ctxFin 4095) = ctxOpen ∧
    (tAdmit ctxOpen tStep).needFrames 0 [4095] ≤ (tAdmit ctxOpen tStep).openFrames 0 ∧
    contextList { tStep with asker := none } = [] ∧
    (contextList tStep).findSome? ((tAdmit ctxLost tStep).admitRefusal 0) = some stSeqLost := by decide +kernel

theorem test_admit : gives (exec (.seqAdmit 0) (tAdmit ctxOpen tStep)) (fun t => t.ctxState 4095 == ctxActive &&
    ((t.ring 0).waiting.map fun i => i.admitted) == [true]) = true := by decide +kernel

theorem witness_page_moves : (tCtx ctxOut [tMove true false 1]).moveOf 0 4095 3 = some (tMove true false 1) ∧
    (tCtx ctxOut [tMove true false 1]).ctxState 4095 = ctxOut ∧ NoInternal tRun ∧
    lowest ((tCtx ctxOut [tMove true false 1]).freeSlots 0) = some 768 ∧
    (tCtx ctxIn [tMove false false 1]).moveOf 0 4095 3 = some (tMove false false 1) ∧
    (tCtx ctxIn [tMove false true 4]).moveOf 0 4095 3 = some (tMove false true 4) ∧
    (tCtx ctxIn [tMove false true 3]).ctxState 4095 = ctxIn ∧
    (tCtx ctxOut [tMove true true 4]).moveOf 0 4095 3 = some (tMove true true 4) := by unfold NoInternal; decide +kernel

/-- A page message about page 3 of context 4,095 in generation 1. -/
def tPageBody : List Byte := [0x0F, 0xFF, 0, 0, 0, 0, 0, 3, 0, 1, 0, 0, 0, 0, 0, 0, 0, 0, 0, 0, 0, 0, 0, 0]

theorem witness_page_answers : WholeMessage (tEntry (tCtx ctxOut [tMove true true 1]) 0xC0 0) 0x0B (tFrame 0x0B 4095 tPageBody) 0 ∧
    (let s0 := arrived (tEntry (tCtx ctxOut [tMove true true 1]) 0xC0 0) (tFrame 0x0B 4095 tPageBody) 0
     s0.pageFor 0 (epNo 0) tPageBody = some (4095, tMove true true 1) ∧ s0.pageGen 4095 (tMove true true 1) tPageBody = true) ∧
    WholeMessage (tEntry (tCtx ctxIn [tMove false true 1]) 0x90 0) 0x0C (tFrame 0x0C 4095 tPageBody) 0 ∧
    (let s0 := arrived (tEntry (tCtx ctxIn [tMove false true 1]) 0x90 0) (tFrame 0x0C 4095 tPageBody) 0
     s0.pageFor 0 (epNo 0) tPageBody = some (4095, tMove false true 1) ∧ s0.pageGen 4095 (tMove false true 1) tPageBody = true) := by
  unfold WholeMessage; decide +kernel

theorem witness_entry_sound : EntrySound (tCtx ctxOut [tMove true false 1]) 4095 3 768 ∧
    EntrySound (tCtx ctxIn [tMove false false 1]) 4095 3 513 ∧ EntrySound (tCtx ctxOut [tMove true true 4]) 4095 3 513 ∧
    EntrySound (tEntry (tCtx ctxOut [tMove true true 1]) 0xC0 0) 4095 3 513 ∧
    EntrySound (tEntry (tCtx ctxIn [tMove false true 1]) 0x90 0) 4095 3 513 := by unfold EntrySound; decide +kernel

theorem witness_page_nak_out : WholeMessage (tEntry (tCtx ctxOut [tMove true true 1]) 0xC0 0) 0x0C (tFrame 0x0C 4095 tPageBody) 0 ∧
    NoInternal (tEntry (tCtx ctxOut [tMove true true 1]) 0xC0 0) ∧ NoInternal (tCtx ctxOut [tMove true false 1]) ∧
    NoInternal (tEntry (tCtx ctxIn [tMove false true 1]) 0x90 0) ∧
    (let s0 := arrived (tEntry (tCtx ctxOut [tMove true true 1]) 0xC0 0) (tFrame 0x0C 4095 tPageBody) 0
     s0.pageFor 0 (epNo 0) tPageBody = some (4095, tMove true true 1)) := by unfold WholeMessage NoInternal; decide +kernel

theorem test_page_nak : gives (exec (.pageNak (tFrame 0x0C 4095 tPageBody)) (tEntry (tCtx ctxIn [tMove false true 1]) 0x90 0))
    (fun t => t.ctxState 4095 == ctxLost && t.fld (.ringCtxStatus 4095) F.ringCtxStatus_CAUSE == 5) = true := by decide +kernel

/-- The CRC of page 3 of context 4,095, generation 1, all zeros. -/
def tPageCrc : Word := pageCrc 4095 3 1 (List.replicate 65536 0)

/-- The prefix of its PAGE_DATA. -/
def tPageHead : List Byte := [0x0F, 0xFF, 0, 0, 0, 0, 0, 3, 0, 1, 0, 0] ++ beBytes 4 tPageCrc.toNat ++ [0, 0, 0, 0, 0, 0, 0, 0]

/-- Its first 65,544 bytes. -/
def tPageStart : List Byte := tPageHead ++ List.replicate 65520 0

/-- The message of which they have come. -/
def tPageMsg : Reassembly := ⟨7, 1, 0x0D, 4095, 0, [(0, 65544)], none, smWrite 0 [] 0 tPageStart, 0, 0, 0, false⟩

/-- The last chunk. -/
def tPageLast : Frame :=
  let f := { tFrame 0x0D 4095 (List.replicate 16 0) with offset := 65544 }
  { f with crc := crc32c (frameHeader 0x0D f ++ List.replicate 16 0) }

/-- Context 4,095 in SWAPPING_IN, its page 3 at the host with that CRC, and the message begun. -/
def tPageIn : State :=
  let s := tCtx ctxIn [tMove false true 1]
  ({ s with dram := { s.dram with data := smWrite 0 [] 4120 (leBytes 4 tPageCrc.toNat ++ [0, 1, 0, 0x90]) } } : State).onEp 0
    fun k => { k with last := [(7, 1)], reasm := [tPageMsg] }

theorem smRead_append {w : Nat} (d : BitVec w) (m : SparseMap w) (a n k : Nat) :
    smRead d m a (n + k) = smRead d m a n ++ smRead d m (a + n) k := by
  induction n generalizing a with
  | zero => simp [smRead]
  | succ n ih => simp [smRead, show n + 1 + k = (n + k) + 1 by omega, ih, show a + 1 + n = a + (n + 1) by omega]

theorem deliver_clean (d : Dram) (code a n : Nat) (hf : d.flips = [])
    (ht : ∀ i < n, (lineTag d ((a + i) / 64)).toNat % 256 = code) : deliver d code a n = smRead 0 d.data a n := by
  induction n generalizing a with
  | zero => rfl
  | succ n ih =>
    have h0 : deliverByte d code a = smGet 0 d.data a := by
      have := ht 0 (by omega)
      simp only [Nat.add_zero] at this
      simp [deliverByte, lineClean, hf, this]
    have h1 := ih (a + 1) fun i hi => by rw [Nat.add_assoc, Nat.add_comm 1 i]; exact ht (i + 1) (by omega)
    simp only [deliver, List.range_succ_eq_map, List.map_cons, List.map_map, Nat.add_zero, h0, smRead] at h1 ⊢
    rw [← h1]
    congr 2
    funext i
    simp [Nat.add_assoc, Nat.add_comm 1 i]

theorem tPageHead_length : tPageHead.length = 24 := by simp [tPageHead, beBytes, leBytes]

theorem tPage_whole : wholeBody tPageMsg tPageLast = tPageHead ++ List.replicate 65536 0 := by
  have hl : tPageStart.length = 65544 := by
    rw [tPageStart, List.length_append, tPageHead_length, List.length_replicate]
  have h1 : smRead 0 (smWrite 0 (smWrite 0 [] 0 tPageStart) 65544 (List.replicate 16 0)) 0 65544 = tPageStart := by
    rw [smRead_smWrite_disjoint _ _ _ _ _ _ (Or.inl (by omega))]
    simpa [hl] using smRead_smWrite_same (0 : Byte) [] 0 tPageStart
  have h2 := smRead_smWrite_same (0 : Byte) (smWrite 0 [] 0 tPageStart) 65544 (List.replicate 16 0)
  have h3 := smRead_append (0 : Byte) (smWrite 0 (smWrite 0 [] 0 tPageStart) 65544 (List.replicate 16 0)) 0 65544 16
  rw [h1, Nat.zero_add] at h3
  have h4 : List.replicate 65536 (0 : Byte) = List.replicate 65520 0 ++ List.replicate 16 0 := by
    rw [List.replicate_append_replicate]
  rw [h4, ← List.append_assoc]
  show smRead 0 (smWrite 0 (smWrite 0 [] 0 tPageStart) 65544 (List.replicate 16 0)) 0 65560 = _
  have h5 : smRead 0 (smWrite 0 (smWrite 0 [] 0 tPageStart) 65544 (List.replicate 16 0)) 65544 16 =
      List.replicate 16 (0 : Byte) := h2
  exact (h3.trans (congrArg (tPageStart ++ ·) h5)).trans (by rw [tPageStart])

theorem ptLoc_bytes (c : Word) :
    ptLoc (BitVec.ofNat 64 (leVal (leBytes 4 c.toNat ++ [0, 1, 0, 0x90]))) = c.toNat := by
  have h := c.isLt
  simp [ptLoc, bitsAt, leVal, leBytes]
  omega

theorem ptGen_bytes (c : Word) :
    ptGen (BitVec.ofNat 64 (leVal (leBytes 4 c.toNat ++ [0, 1, 0, 0x90]))) = 1 := by
  have h := c.isLt
  simp [ptGen, bitsAt, leVal, leBytes]
  omega

theorem beAt_head (c : Word) :
    BitVec.ofNat 32 (beAt ([0x0F, 0xFF, 0, 0, 0, 0, 0, 3, 0, 1, 0, 0] ++ beBytes 4 c.toNat ++ [0, 0, 0, 0, 0, 0, 0, 0] : List Byte)
      12 4) = c := by
  have h := c.isLt
  apply BitVec.eq_of_toNat_eq
  simp [beAt, beVal, part, beBytes, leBytes, leVal]
  omega

theorem beAt_append (a b : List Byte) (o n : Nat) (h : o + n ≤ a.length) : beAt (a ++ b) o n = beAt a o n := by
  unfold beAt part
  rw [List.drop_append_of_le_length (by omega), List.take_append_of_le_length (by simp; omega)]

theorem witness_page_data : CompletesMessage tPageIn 0x0D tPageLast 0 tPageMsg ∧ tPageIn.ctxState 4095 = ctxIn ∧
    (wholeBody tPageMsg tPageLast).length = 24 + pageBytes ∧
    beAt (wholeBody tPageMsg tPageLast) 8 2 = ptGen (tPageIn.ptGet 4095 3) ∧
    BitVec.ofNat 32 (beAt (wholeBody tPageMsg tPageLast) 12 4) =
      pageCrc 4095 3 (ptGen (tPageIn.ptGet 4095 3)) ((wholeBody tPageMsg tPageLast).drop 24) ∧
    (pageCrc 4095 3 (ptGen (tPageIn.ptGet 4095 3)) ((wholeBody tPageMsg tPageLast).drop 24)).toNat =
      ptLoc (tPageIn.ptGet 4095 3) := by
  have hr : smRead 0 tPageIn.dram.data 4120 8 = leBytes 4 tPageCrc.toNat ++ [0, 1, 0, 0x90] :=
    smRead_smWrite_same (0 : Byte) [] 4120 (leBytes 4 tPageCrc.toNat ++ [0, 1, 0, 0x90])
  have he : tPageIn.ptGet 4095 3 = BitVec.ofNat 64 (leVal (leBytes 4 tPageCrc.toNat ++ [0, 1, 0, 0x90])) := by
    rw [← hr, ← deliver_clean tPageIn.dram 0x80 4120 8 rfl (by decide +kernel)]; rfl
  have hg : ptGen (tPageIn.ptGet 4095 3) = 1 := by
    rw [he]
    exact ptGen_bytes tPageCrc
  have hd : (tPageHead ++ List.replicate 65536 (0 : Byte)).drop 24 = List.replicate 65536 0 := by
    rw [List.drop_append_of_le_length (by rw [tPageHead_length]), List.drop_eq_nil_of_le (by rw [tPageHead_length]),
      List.nil_append]
  refine ⟨⟨by decide +kernel, rfl, rfl, rfl, by decide +kernel⟩, by decide +kernel, ?_, ?_, ?_, ?_⟩
  · rw [tPage_whole, List.length_append, tPageHead_length, List.length_replicate]
  · rw [tPage_whole, hg, beAt_append _ _ _ _ (by rw [tPageHead_length]; omega)]
    rfl
  · rw [tPage_whole, hg, hd, beAt_append _ _ _ _ (by rw [tPageHead_length]; omega)]
    exact beAt_head tPageCrc
  · rw [tPage_whole, hg, hd, he, ptLoc_bytes]
    rfl

theorem witness_page_in : NoInternal tPageIn ∧ EntrySound tPageIn 4095 3 513 := by
  unfold NoInternal EntrySound; decide +kernel

theorem witness_page_for : (completed tPageIn tPageLast 0).pageFor 0 (epNo 0) (wholeBody tPageMsg tPageLast) =
    some (4095, tMove false true 1) := by
  have h : (completed tPageIn tPageLast 0).pageFor 0 (epNo 0) tPageHead = some (4095, tMove false true 1) := by decide +kernel
  have hl := tPageHead_length
  rw [← h, tPage_whole]
  unfold State.pageFor
  simp only [beAt_append tPageHead (List.replicate 65536 0) _ _ (show 0 + 2 ≤ _ by omega),
    beAt_append tPageHead (List.replicate 65536 0) _ _ (show 4 + 4 ≤ _ by omega),
    beAt_append tPageHead (List.replicate 65536 0) _ _ (show 16 + 8 ≤ _ by omega), List.length_append, hl,
    show 24 ≤ 24 + (List.replicate 65536 (0 : Byte)).length from Nat.le_add_right _ _, Nat.le_refl, true_and]

/-! ## Front end, codecs, samples -/

/-- The manifest of ring 0: every stream, endpoint 0, contexts 0 to 4,095, a region at unit 2. -/
def tFeManifest : List Byte :=
  tManifest.take 0x20 ++ List.replicate 8 0xFF ++ List.replicate 8 0 ++ [5, 0, 0, 0x80] ++ tManifest.drop 0x34

/-- Stream context 63 of ring 0 over receiver 15, VC 3, RAW8, 16 by 2, two COPY buffers of 1 KiB, with these flags, from
this source. -/
def tStream (source flags : Nat) (s : State) : State :=
  (s.onRing 0 fun k => { k with manifest := tFeManifest }).setRegs
    [(.feStreamDesc 63 0, BitVec.ofNat 32 (0x2A030F00 + source)), (.feStreamDesc 63 1, BitVec.ofNat 32 (0xBEC00200 + flags)),
      (.feStreamDesc 63 2, 0x00020010), (.feStreamDesc 63 4, 0x00000201), (.feStreamDesc 63 8, 0x400),
      (.feRxStatus 15, 0x40000000)]

/-- The same, ENABLED, its buffers free. -/
def tFe : State := ((tStream 0 0 tRun).setFld (.feStreamStatus 63) F.feStreamStatus_STATE feEnabled).onRing 0 fun k =>
  { k with flags := (3#256).shiftLeft 190 }

/-- A packet header of a virtual channel. -/
def tHead (vc : Fin 4) : CsiHead := ⟨vc, false, false⟩

/-- A frame in buffer 1, of which `n` lines have come. -/
def tOpen (n : Nat) (status : BitVec 16) : OpenFrame := ⟨1, 5, 0, none, status, 0, n, [], 0, [], 0, false, false, false, false⟩

/-- The same with a frame open. -/
def tFeOpen (n : Nat) (status : BitVec 16) : State := tFe.onStream 63 fun k => { k with opened := some (tOpen n status) }

theorem witness_frame_start : tFe.rxOn 15 = true ∧ tFe.vcContexts 15 (tHead 3) = [63] ∧ tFe.streamRing 63 = some 0 ∧
    (tFe.stream 63).opened = none ∧ (tFe.stream 63).commit = false ∧ tFe.startCause 0 63 false = 0 ∧
    (tFe.onRing 0 fun k => { k with flags := 0 }).startCause 0 63 false = 1 ∧
    ((tFe.onStream 63 fun k => { k with commit := true }).stream 63).commit = true := by decide +kernel

theorem witness_line : (tFeOpen 1 0).vcContexts 15 (tHead 3) = [63] ∧ ((tFeOpen 1 0).stream 63).opened = some (tOpen 1 0) ∧
    (tFeOpen 1 0).feDt 63 = (0x2A : Byte).toNat ∧ (tOpen 1 0).count < (tFeOpen 1 0).feInH 63 ∧
    (List.replicate 16 (9 : Byte)).length = (tFeOpen 1 0).feLineBytes 63 ∧ (tFeOpen 1 0).feTsSource 63 = 0 ∧
    (tFeOpen 2 0).feInH 63 ≤ (tOpen 2 0).count ∧ (tFeOpen 2 0).feDropBad 63 = false ∧ (tOpen 2 2).malformed = true ∧
    (tOpen 2 0).malformed = false ∧ (tOpen 1 0).sawLine = false ∧ (tOpen 1 0).sawEmb = false ∧
    (tStream 0 4 (tFeOpen 2 2)).feDropBad 63 = true ∧ (tStream 0 4 (tFeOpen 2 2)).feInH 63 ≤ (tOpen 2 2).count ∧
    (tStream 0 4 (tFeOpen 2 2)).streamRing 63 = some 0 ∧ (tStream 0 4 (tFeOpen 2 2)).rxOn 15 = true ∧
    (tStream 0 4 (tFeOpen 2 2)).vcContexts 15 (tHead 3) = [63] := by decide +kernel

theorem test_overflow : gives (exec (.csiLongPacket 15 3 false false 0x2A (List.replicate 16 9) ⟨true, true⟩) (tStream 0 4 (tFeOpen 1 0)))
    (fun t => t.fld (.feRxStatus 15) F.feRxStatus_OVERFLOW == 1 && ((t.stream 63).opened.map fun f => f.count) == none &&
      t.fld (.feStreamStatus 63) F.feStreamStatus_LAST_DROP == 5) = true := by decide +kernel

theorem test_line : gives (exec (.csiLongPacket 15 3 false false 0x2A (List.replicate 16 9) ⟨true, false⟩) (tFeOpen 1 0)) (fun t =>
    smRead 0 t.mwy (0x400 + 0x200) 8 == List.replicate 8 0 && ((t.stream 63).opened.map fun f => f.count) == some 2 &&
    t.mwy.length == 16) = true := by decide +kernel

theorem test_frame_start : gives (exec (.csiFrameStart 15 (tHead 3) 7) tFe) (fun t =>
    ((t.stream 63).opened.map fun f => (f.buffer, f.number)) == some (0, 7) && (t.ring 0).flags == (2#256).shiftLeft 190) = true := by
  decide +kernel

theorem witness_receiver : (tFe.vcContexts 15 (tHead 2) = []) ∧ tFe.rxOn 14 = false := by decide +kernel

theorem test_receiver : gives (exec (.csiEccBad 15) tFe) (fun t => t.fld (.feRxStatus 15) F.feRxStatus_ECC_BAD == 1) = true ∧
    gives (exec (.csiFrameEnd 15 (tHead 2)) tFe) (fun t => t.fld (.feRxStatus 15) F.feRxStatus_UNBOUND == 1) = true := by decide +kernel

/-- A context that waits to be enabled. -/
def tFeOff : State := tStream 0 0 tRun

theorem witness_enable : Heard tFeOff 0 .booth ∧ tFeOff.streamRing 63 = some 0 ∧ tFeOff.feCause 63 = 0 ∧ tFe.feCause 63 = 7 ∧
    Heard tFe 0 .booth ∧ tFe.feState 63 = feEnabled ∧
    (tFeOff.setFld (.feStreamStatus 63) F.feStreamStatus_STATE feDisabling).feState 63 = feDisabling := by
  unfold Heard MayAsk; decide +kernel

theorem test_enable : gives (exec (.streamEnable 63 .booth) tFeOff) (fun t => t.feState 63 == feEnabled && t.cross ==
    [(.feToConcourse, .setFlag 0 190), (.feToConcourse, .setFlag 0 191)]) = true := by decide +kernel

/-- A frame that is due. -/
def tDue (wait : Bool) : State := (tNet tFe).onStream 63 fun k => { k with ready := [{ tOpen 2 0 with waitTs := wait }] }

theorem witness_deliver : ((tDue false).stream 63).ready = [tOpen 2 0] ∧ (tOpen 2 0).waitTs = false ∧
    ((tDue true).stream 63).ready = [{ tOpen 2 0 with waitTs := true }] ∧
    WholeMessage (tDue true) 0x08 (tFrame 0x08 0 [0, 63, 0, 5]) 0 ∧ beAt [0, 63, 0, 5] 0 2 = 63 ∧
    BitVec.ofNat 16 (beAt [0, 63, 0, 5] 2 2) = (tOpen 2 0).number := by unfold WholeMessage; decide +kernel

theorem test_frame_time : gives (exec (.frameTime (tFrame 0x08 0 [0, 63, 0, 5])) (tDue true)) (fun t =>
    ((t.stream 63).ready.map fun f => (f.stamp, f.waitTs)) == [(some 0, false)]) = true := by decide +kernel

/-- Stream context 63 over endpoint 0 of ring 0. -/
def tEth : State := ((tStream 1 0 (tNet tRun)).setRegs [(.feStreamDesc 63 0, 0x00000001), (.feStreamDesc 63 2, 0)]).setFld
  (.feStreamStatus 63) F.feStreamStatus_STATE feEnabled

theorem witness_stream_data : WholeMessage tEth 0x07 (tFrame 0x07 5 [1, 2]) 0 ∧ (tEth.ep 0).reasm = [] ∧
    (arrived tEth (tFrame 0x07 5 [1, 2]) 0).ethContext 0 (epNo 0) = some 63 := by unfold WholeMessage; decide +kernel

/-- Codec session 15 of ring 0 over stream context 63 and unit 2, of a kind, in a state. -/
def tCodec (kind st : Nat) : State := (tStream 2 0 tRun).setRegs
  [(.cdcSessionDesc 15 0, BitVec.ofNat 32 (0x3F080000 + kind)), (.cdcSessionDesc 15 1, 0x00400040),
    (.cdcSessionDesc 15 2, 0xC0000001), (.cdcSessionDesc 15 4, 1), (.cdcSessionDesc 15 5, 0x00010002),
    (.cdcSessionStatus 15, BitVec.ofNat 32 (st * 2 ^ 30))]

theorem witness_codec_open : (tCodec 1 0).cdcState 15 = cdcClosed ∧ (tCodec 1 0).whoRing (.ep 0 0) = some 0 ∧
    Heard (tCodec 1 0) 0 (.ep 0 0) ∧ (tCodec 1 0).cdcCheck 0 15 = 0 ∧ (tCodec 3 0).cdcCheck 0 15 = 5 ∧
    (tCodec 1 1).cdcState 15 = cdcOpened ∧ Heard (tCodec 1 1) ((tCodec 1 1).cdcRing 15) (.ep 0 0) := by
  unfold Heard MayAsk; decide +kernel

/-- A view to encode; the next write ends at this place of the buffer. -/
def tEncode (w r : Word) : State := ((tCodec 1 1).setRegs [(.cdcSessionWptr 15, w), (.cdcSessionRptr 15, r)]).onStream 63 fun k =>
  { k with views := [⟨0, 9, 4⟩] }

theorem witness_encode : (tEncode 0 64).cdcKind 15 = 1 ∧ ((tEncode 0 64).cdcContext 15 % 64 = 63) ∧
    ((tEncode 0 64).stream 63).views = [⟨0, 9, 4⟩] ∧
    circlePlace ((tEncode 0 64).cdcSize 15) ((tEncode 0 64).cdcW 15) ((tEncode 0 64).cdcR 15) (32 + 32 * ceilDiv 0 32) =
      some (0, 32, false) ∧
    circlePlace ((tEncode 0 64).cdcSize 15) ((tEncode 0 64).cdcW 15) ((tEncode 0 64).cdcR 15) (32 + 32 * ceilDiv 1 32) = none := by
  decide +kernel

/-- A unit of no bytes to decode into context 63. -/
def tDecode : State := { (((tCodec 2 1).setReg (.cdcSessionWptr 15) 32).setFld (.feStreamStatus 63) F.feStreamStatus_STATE
    feEnabled).onRing 0 fun k => { k with flags := (1#256).shiftLeft 190 } with
  dram := { tRun.dram with unitOwner := [(2, 0)] } }

/-- What a read of the header gives. -/
def tHeader : State × List Byte := tDecode.cdcGet 15 (tDecode.cdcR 15) 32

theorem witness_decode : tDecode.cdcKind 15 = 2 ∧ tDecode.cdcR 15 ≠ tDecode.cdcW 15 ∧ leAt tHeader.2 16 1 ≠ 2 ∧
    headerOk (tHeader.1.cdcAvail 15) tHeader.2 = true ∧ headerOk 31 tHeader.2 = false ∧
    tHeader.1.pictureContext 15 = some 63 ∧ tHeader.1.holdsWrites (tHeader.1.cdcRing 15) = false ∧
    tHeader.1.ringFlag (tHeader.1.cdcRing 15) (tHeader.1.bufferFlag 63 (tHeader.1.nextBuffer 63)) = true ∧
    tHeader.1.pictureWaits (tHeader.1.cdcRing 15) 63 = false ∧ tHeader.1.tooEarly 63 = false ∧
    tDecode.sessions[(15 : Fin 16)].due = [] ∧ tDecode.sessions[(15 : Fin 16)].held.length = 0 := by decide +kernel

/-- What the read of the header gives from another state. -/
def tHeaderOf (s : State) : State := (s.cdcGet 15 (s.cdcR 15) 32).1

/-- A picture that waits for a free buffer. -/
def tPicture : State := let s := tDecode.onRing 0 fun k => { k with flags := 0 }
  { s with sessions := s.sessions.set 15 { s.sessions[(15 : Fin 16)] with due := [⟨9, 0, [], false⟩] } }

/-- The header read while the ring is parked, just after the last frame, and while no buffer is free. -/
def tPictures : State × State × State :=
  (tHeaderOf (tDecode.setFld (.ringManifestStatus 0) F.ringManifestStatus_STATE stParked),
    tHeaderOf (tDecode.onStream 63 fun k => { k with lastStart := some 0 }), tHeaderOf (tDecode.onRing 0 fun k => { k with flags := 0 }))

theorem witness_picture : tPictures.1.holdsWrites 0 = true ∧ tPictures.1.cdcRing 15 = 0 ∧
    tPictures.1.pictureContext 15 = some 63 ∧ tPictures.2.1.tooEarly 63 = true ∧ tPictures.2.1.pictureWaits 0 63 = false ∧
    tPictures.2.1.holdsWrites 0 = false ∧ tPictures.2.2.pictureWaits 0 63 = true ∧
    tPicture.sessions[(15 : Fin 16)].due ≠ [] ∧ tPicture.pictureContext 15 = some 63 ∧
    tPicture.pictureWaits (tPicture.cdcRing 15) 63 = true ∧ tPicture.cdcState 15 = cdcOpened ∧ tPicture.cdcKind 15 = 2 := by
  decide +kernel

/-- A picture whose turn has come fills buffer 0 of the context, which is enabled with that buffer free (R278). -/
theorem test_decode : gives (exec (.decodeUnit 15 [1, 2, 3] ⟨true, true⟩ [0]) tDecode) (fun t =>
    ((t.stream 63).ready.map fun g => (g.buffer, g.number)) == [(0, 0)] && (t.ring 0).flags == 0) = true := by decide +kernel

/-- Sample channel 15 of ring 0 over endpoint 0, in a state, with these samples. -/
def tChan (st : Nat) (samples : List Sample) : State := (((tStream 0 0 (tNet tRun)).setRegs
  [(.smpChanDesc 15 0, 0xC0020000), (.smpChanDesc 15 1, 0x000202BE), (.smpChanDesc 15 2, 0x00010002),
    (.smpChanDesc 15 3, 0x00010002), (.smpChanDesc 15 4, 100), (.smpChanDesc 15 5, 2048), (.smpChanDesc 15 8, 512),
    (.smpChanStatus 15, BitVec.ofNat 32 (st * 2 ^ 30))]).onChan 15 fun k => { k with
      samples := samples, history := List.replicate 16 1 }).onRing 0 fun k => { k with flags := (3#256).shiftLeft 190 }

/-- The header and augmentation record of a sample of one pixel. -/
def tSampleHead (kind id : Byte) : List Byte := [1, 0, kind, 1, 1, 0, 1, 0, 1, 0, 0, 0, id] ++ List.replicate 51 0 ++ [1] ++
  List.replicate 63 0

/-- A staged sample. -/
def tSample (kind : Byte) (taken : Option Nat) (got : List (Nat × Nat)) : Sample :=
  ⟨0, 7, (tSampleHead kind 5).take 64, (tSampleHead kind 5).drop 64, got, taken, 1000⟩

theorem witness_sample_open : (tChan 0 []).smpState 15 = smpClosed ∧ Heard (tChan 0 []) 0 (.ep 0 0) ∧
    (tChan 0 []).smpCause 0 15 = 0 ∧ ((tChan 0 []).setReg (.smpChanDesc 15 8) 1).smpCause 0 15 = 1 ∧
    (tChan 1 []).smpState 15 = smpOpened ∧ Heard (tChan 1 []) ((tChan 1 []).smpRing 15) (.ep 0 0) := by
  unfold Heard MayAsk; decide +kernel

theorem witness_sample_data : WholeMessage (tChan 1 []) 0x06 (tFrame 0x06 15 (tSampleHead 1 5 ++ [9])) 0 ∧
    (tChan 1 []).smpRing 15 = epRing 0 ∧ (tChan 1 []).smpEndpoint 15 = 0 ∧ (tChan 1 []).holdsWrites 0 = false ∧
    (let m : Sample := ⟨0, 7, part (tSampleHead 1 5 ++ [9]) 0 64, part (tSampleHead 1 5 ++ [9]) 64 64, [], none, 0⟩
     (tChan 1 []).sampleReason 15 m = 0 ∧ (tChan 1 []).freeStage 15 = some 0 ∧
       (tSampleHead 1 5 ++ [9]).length ≤ 128 + m.bytes ∧
       (tChan 1 [tSample 1 none []]).sampleReason 15 m = 8) ∧
    WholeMessage (tChan 0 []) 0x06 (tFrame 0x06 15 (tSampleHead 1 5 ++ [9])) 0 := by unfold WholeMessage; decide +kernel

theorem test_sample_data : gives (exec (.sampleData (tFrame 0x06 15 (tSampleHead 1 5 ++ [9]))) (tChan 1 [])) (fun t =>
    ((t.chan 15).samples.map fun m => (m.slot, m.got)) == [(0, [(0, 1)])]) = true := by decide +kernel

theorem witness_sample_take : (tChan 1 [tSample 0 none [(0, 1)]]).decoderBusy = false ∧
    (tChan 1 [tSample 0 none [(0, 1)]]).decoderPick = some 15 ∧ (tChan 1 [tSample 1 none [(0, 1)]]).canTake 15 1 = true ∧
    (tChan 1 [tSample 0 (some 1) [(0, 1)]]).smpCurrent 15 = some (tSample 0 (some 1) [(0, 1)]) ∧
    (tSample 0 (some 1) [(0, 1)]).kind = 0 ∧ (999 : Nat) < (tSample 0 (some 1) [(0, 1)]).budget ∧
    (((tChan 1 [tSample 1 none []]).chan 15).samples.reverse.find? fun n => n.id == (5 : Word).toNat && !n.whole) =
      some (tSample 1 none []) := by decide +kernel

theorem test_sample_take : gives (exec (.sampleTake true 15) (tChan 1 [tSample 0 none [(0, 1)]])) (fun t =>
    t.reg (.smpChanLastBudget 15) == 100000 && (t.ring 0).flags == (2#256).shiftLeft 190) = true := by decide +kernel

theorem test_sample_late : gives (exec (.sampleLate 15) (tChan 1 [tSample 0 (some 1) [(0, 1)]])) (fun t =>
    t.fld (.smpChanStatus 15) F.smpChanStatus_LAST_REASON == 13 && t.cross == [(.smpToConcourse, .setFlag 0 191)]) = true ∧
    illFormed (exec (.smpDecode 15 9) (tChan 1 [])) = true := by decide +kernel

/-! ## Registers and messages -/

/-- The address of a register as a word. -/
def tAddr (g : Reg) : Word := BitVec.ofNat 32 g.addr

theorem witness_no_register : (3 : Word).toNat % 4 ≠ 0 ∧ Reg.ofAddr (0xFFFFFFFC : Word).toNat = none := by decide +kernel

theorem witness_plain : plainReg (.ringEvent 0) ∧ plainReg .pwrCap := ⟨⟨rfl, fun _ _ _ => rfl⟩, ⟨rfl, fun _ _ _ => rfl⟩⟩

theorem witness_register_write : Reg.ofAddr (tAddr (.ringEvent 0)).toNat = some (.ringEvent 0) ∧
    (tAddr (.ringEvent 0)).toNat % 4 = 0 ∧ tRun.writeRight (.ep 0 0) (.ringEvent 0) = .ring (some 0) ∧
    Heard tRun 0 (.ep 0 0) ∧ tRun.ringAccess 0 (.ep 1 0) = false ∧ tRun.writeRight (.ep 1 0) (.ringEvent 0) = .ring (some 0) ∧
    MayAsk (tRing stParked) 0 (.ep 0 0) ∧ (tRing stParked).holdsWrites 0 = true ∧
    Reg.ofAddr (tAddr .pwrCap).toNat = some .pwrCap ∧ tRun.writeRight .booth .pwrCap = .manage ∧ tRun.mayManage .booth = true ∧
    tRun.mayManage (.ep 0 0) = false := by unfold Heard MayAsk; decide +kernel

theorem test_register_write : gives (exec (.registerWrite (.ep 0 0) (tAddr (.ringEvent 0)) 0x20)
    (tRun.setReg (.ringEvent 0) 0x30)) (fun t => t.reg (.ringEvent 0) == 0x10) = true ∧
    gives (exec (.registerWrite .booth (tAddr .pwrCap) 0) tRun) (fun t => t.fld .pwrCap F.pwrCap_CAP_W == 40) = true := by decide +kernel

/-- The body of a REG_READ or REG_WRITE of RING_EVENT of ring 0. -/
def tRegBody : List Byte := [0, 1, 0, 0] ++ beBytes 4 (Reg.ringEvent 0).addr ++ [0, 0, 0, 0x20, 0, 0, 0, 0]

/-- What the read and the write give. -/
def tRegRead : State × Word × Nat := (arrived (tNet tRun) (tFrame 1 9 tRegBody) 0).regRead (.ep 0 0) (tAddr (.ringEvent 0))

theorem witness_reg_messages : WholeMessage (tNet tRun) 0x01 (tFrame 1 9 tRegBody) 0 ∧ tRegBody.length = 16 ∧
    beAt tRegBody 0 2 = 1 ∧ beAt tRegBody 2 2 = 0 ∧ tRegRead.1.epBound 0 = true ∧ tRegRead.2.2 = 0 ∧
    BitVec.ofNat 32 (beAt tRegBody 4 4) = tAddr (.ringEvent 0) ∧ WholeMessage (tNet tRun) 0x02 (tFrame 2 9 tRegBody) 0 ∧
    ((arrived (tNet tRun) (tFrame 2 9 tRegBody) 0).regWrite (.ep 0 0) (tAddr (.ringEvent 0)) 0x20).1.epBound 0 = true ∧
    within 1 64 (beAt [0, 65] 0 2) = false ∧ WholeMessage (tNet tRun) 0x01 (tFrame 1 9 [0, 65]) 0 ∧
    WholeMessage (tNet tRun) 0x02 (tFrame 2 9 [0, 65]) 0 := by unfold WholeMessage; decide +kernel

theorem test_reg_read : gives (exec (.regRead (tFrame 1 9 tRegBody)) ((tNet tRun).setReg (.ringEvent 0) 0x10)) (fun t =>
    ((t.ep 0).sent.map fun m => m.body) == [tRegBody.take 8 ++ [0, 0, 0, 0x10, 0, 0, 0, 0]]) = true := by decide +kernel

/-- Ring 0 with program 31 and a network. -/
def tHost : State := (tNet tRun).onRing 0 fun k => { k with programs := [⟨31, 0, 0, 32, 0, 64⟩] }

/-- The body of an INVOKE of program 31. -/
def tInvoke : List Byte := [31, 0, 0, 0] ++ List.replicate 256 6

/-- Ring 0 with a full pending list. -/
def tFull : State := tHost.onRing 0 fun k => { k with waiting := List.replicate 16 tInvocation }

theorem witness_invoke : WholeMessage tHost 0x03 (tFrame 3 9 tInvoke) 0 ∧ tInvoke.length = 260 ∧ beAt tInvoke 0 1 < 32 ∧
    beAt tInvoke 1 3 = 0 ∧ tHost.takesTriggers 0 = true ∧
    ((tHost.ring 0).programs.any fun p => p.slot == beAt tInvoke 0 1) = true ∧ tHost.pendingRoom 0 = true ∧
    tFull.pendingRoom 0 = false ∧ tFull.takesTriggers 0 = true ∧
    (tHost.setFld (.ringManifestStatus 0) F.ringManifestStatus_STATE stLoaded).takesTriggers 0 = false := by
  unfold WholeMessage; decide +kernel

theorem test_invoke : gives (exec (.invoke (tFrame 3 9 tInvoke)) tHost) (fun t =>
    ((t.ring 0).waiting.map fun i => (i.slot, i.params.length)) == [(31, 256)]) = true ∧
    gives (exec (.invoke (tFrame 3 9 tInvoke)) tFull) (fun t => ((t.ep 0).sent.map fun m => m.status) == [stPendingFull]) = true := by
  decide +kernel

/-- The body of a PARAM_WRITE of two bytes at midway address 64, with DONE_FLAG 255. -/
def tParam : List Byte := [0, 0, 0, 0, 0, 0, 0, 64, 0, 0, 0, 2, 255, 0, 0, 0, 0xA1, 0xA2]

/-- The body of a MEM_READ of two bytes there; with a last byte of 0x80, of the DRAM address 64. -/
def tMem (top : Byte) : List Byte := [top, 0, 0, 0, 0, 0, 0, 64, 0, 0, 0, 2, 0, 0, 0, 0]

theorem witness_param : WholeMessage tHost 0x04 (tFrame 4 9 tParam) 0 ∧ NoInternal tHost ∧ tHost.served 0 = true ∧
    tHost.bufInside 0 (BitVec.ofNat 64 (beAt tParam 0 8)) (beAt tParam 8 4) = true ∧ tParam.length = 16 + beAt tParam 8 4 ∧
    beAt tParam 13 3 = 0 ∧ 0 < beAt tParam 8 4 ∧ 192 ≤ beAt tParam 12 1 ∧
    ((arrived tHost (tFrame 4 9 tParam) 0).bufWrite 0 64 0 ((tParam.drop 16).map fun b => (b, false))).2 = true ∧
    tHost.holdsWrites 0 = false := by unfold WholeMessage NoInternal; decide +kernel

/-- The same device with ring 0 parked. -/
def tHostParked : State := tHost.setFld (.ringManifestStatus 0) F.ringManifestStatus_STATE stParked

theorem witness_param_parked : WholeMessage tHostParked 0x04 (tFrame 4 9 tParam) 0 ∧ NoInternal tHostParked ∧
    tHostParked.served 0 = true ∧ tHostParked.bufInside 0 (BitVec.ofNat 64 (beAt tParam 0 8)) (beAt tParam 8 4) = true ∧
    ((arrived tHostParked (tFrame 4 9 tParam) 0).bufWrite 0 64 0 ((tParam.drop 16).map fun b => (b, false))).2 = true ∧
    tHostParked.holdsWrites 0 = true := by unfold WholeMessage NoInternal; decide +kernel

theorem witness_mem_read : WholeMessage tHost 0x05 (tFrame 5 9 (tMem 0)) 0 ∧ (tMem 0).length = 16 ∧ beAt (tMem 0) 12 4 = 0 ∧
    1 ≤ beAt (tMem 0) 8 4 ∧ beAt (tMem 0) 8 4 ≤ 16777216 ∧
    tHost.bufInside 0 (BitVec.ofNat 64 (beAt (tMem 0) 0 8)) 2 = true ∧
    ((arrived tHost (tFrame 5 9 (tMem 0)) 0).bufRead 0 64 0 2).2.isSome = true ∧
    tHost.bufInside 0 (BitVec.ofNat 64 (beAt (tMem 0x80) 0 8)) 2 = false := by unfold WholeMessage; decide +kernel

theorem test_param_write : gives (exec (.paramWrite (tFrame 4 9 tParam)) tHost) (fun t => t.mwy == [(64, 0xA1), (65, 0xA2)] &&
    t.cross == [(.ethToConcourse, .setFlag 0 255)] && ((t.ep 0).sent.map fun m => m.status) == [stOk]) = true := by decide +kernel

/-- A message of a type, of which a part has come. -/
def tPart (type : Byte) : Reassembly := ⟨7, 1, type, 9, 0, [(0, 4)], none, [], 0, 0, 0, false⟩

theorem witness_reassembly : ((tHost.onEp 0 fun k => { k with reasm := [tPart 4] }).reasmOf (epIx 0 0) 7) = some (tPart 4) ∧
    ((tHost.onEp 0 fun k => { k with reasm := [tPart 3] }).reasmOf (epIx 0 0) 7) = some (tPart 3) ∧
    (tPart 3).type ∉ ([0x04, 0x06, 0x07, 0x0D] : List Byte) ∧ tHost.epBound (epIx 0 0) = true ∧ (tPart 4).refused = false ∧
    ((tEth.onEp 0 fun k => { k with reasm := [tPart 7] }).reasmOf (epIx 0 0) 7) = some (tPart 7) ∧
    ((tEth.onEp 0 fun k => { k with reasm := [tPart 7] }).dropReasm (epIx 0 0) 7).ethContext 0 0 = some 63 := by decide +kernel

/-- Result stream 15 of ring 0, ENABLED or not: endpoint 0, program 0, POST_FLAG 191, slots 1,022 and 1,023 of 128 bytes at
midway address 0, its cursor at 256; with these FLAGS and slots. -/
def tResult (on : Bool) (flags : Nat) (slots : List (Nat × ResultSlot)) : State :=
  ((tStream 0 0 (tNet tRun)).setRegs [(.trsRstreamDesc (rsIx 0 15) 0, BitVec.ofNat 32 (0xBF000000 + 65536 * flags)),
    (.trsRstreamDesc (rsIx 0 15) 1, 0x000203FE), (.trsRstreamDesc (rsIx 0 15) 4, 128), (.trsRstreamDesc (rsIx 0 15) 6, 256),
    (.trsRstreamStatus (rsIx 0 15), if on then 0x80000000 else 0)]).onRing 0 fun k => { k with slots := slots }

/-- A slot of that stream with a result of 4 bytes. -/
def tSlot (state : SlotState) : ResultSlot := ⟨state, 5, 15, 4, false, 0, 77, false⟩

theorem witness_rstream : Heard (tResult false 0 []) 0 (.ep 0 0) ∧ (tResult false 0 []).rsEnabled (rsIx 0 15) = false ∧
    (tResult false 0 []).rsCause 0 15 = 0 ∧ (tResult false 4 []).rsCause 0 15 = 1 ∧
    (tResult true 0 []).rsEnabled (rsIx 0 15) = true ∧ Heard (tResult true 0 []) 0 (.ep 0 0) := by unfold Heard MayAsk; decide +kernel

theorem witness_result : (tResult true 0 [(1023, tSlot .ready)]).dueResult 0 15 false = some (1023, tSlot .ready) ∧
    (tResult true 2 [(1023, tSlot .ready)]).dueResult 0 15 true = some (1023, tSlot .ready) := by decide +kernel

theorem witness_result_read : WholeMessage (tResult true 0 [(1023, tSlot .ready)]) 0x09 (tFrame 9 3 [15, 0, 0x03, 0xFF]) 0 ∧
    (tResult true 0 [(1023, tSlot .ready)]).served 0 = true ∧
    (tResult true 0 [(1023, tSlot .ready)]).readTarget 0 15 1023 = .inl 1023 ∧
    slotOf ((tResult true 0 [(1023, tSlot .ready)]).ring 0) 1023 = some (tSlot .ready) ∧
    (tResult true 0 []).readTarget 0 15 1023 = .inr stEmptySlot ∧ (tResult true 0 []).served 0 = true ∧
    WholeMessage (tResult true 0 []) 0x09 (tFrame 9 3 [15, 0, 0x03, 0xFF]) 0 ∧
    WholeMessage (tResult true 0 [(1023, tSlot .taken)]) 0x0A (tFrame 10 3 [0x03, 0xFF, 0, 0, 0, 0, 0, 5]) 0 ∧
    (tSlot .taken).serial = BitVec.ofNat 32 (beAt [0x03, 0xFF, 0, 0, 0, 0, 0, 5] 4 4) ∧ (tSlot .taken).state ≠ .pending ∧
    (tSlot .taken).serial ≠ BitVec.ofNat 32 (beAt [0x03, 0xFF, 0, 0, 0, 0, 0, 6] 4 4) := by unfold WholeMessage; decide +kernel

theorem test_result : gives (exec (.result 0 15) (tResult true 0 [(1023, tSlot .ready)])) (fun t =>
    (slotOf (t.ring 0) 1023).map (fun v => v.state) == some .taken && (t.ep 0).sent.length == 1) = true ∧
    gives (exec (.resultRead (tFrame 9 3 [15, 0, 0x03, 0xFF])) (tResult true 0 [])) (fun t =>
      ((t.ep 0).sent.map fun m => m.status) == [stEmptySlot]) = true := by decide +kernel

/-- Endpoint 0 of ring 0 secured, with a CAK. -/
def tSecured : State := ((tNet tRun).setReg (.trsEpStatus 0) 0xA8000005).onEp 0 fun k => { k with cak := some ([1], [2]) }

/-- An MKA frame. -/
def tMka : Frame := { tFrame 0 0 [] with etherType := 0x888E }

theorem witness_mka : tSecured.judge 0 tMka = .mka 0 ∧ tSecured.mkaRuns 0 = true ∧ (tSecured.ep 0).queue = [] ∧
    tSecured.mkaRuns (epIx 0 0) = true ∧ tSecured.epSecured (epIx 0 0) = true ∧ (tNet tRun).portOn 0 = true := by decide +kernel

theorem test_pause : gives (exec (.pauseFrame 0 1) (tNet tRun)) (fun t =>
    t.fld (.ethPortStatus 0) F.ethPortStatus_PAUSED == 1) = true ∧
    gives (exec (.mkaFrame tMka ⟨true, true⟩) tSecured) (fun t => t.fld (.trsEpStatus 0) F.trsEpStatus_KEY_LIVE == 1) = true := by
  decide +kernel

theorem witness_drop : ((tNet tRun).judge 5 { tFrame 5 0 [] with vlan := 6 } = .drop 2) ∧ (2 : Fin 5) ≠ 0 := by decide +kernel

/-- Endpoint 7 of ring 7 internal; WRITE of the inbound area at 64, READ at 0, an entry without a message at 0. -/
def tInside : State :=
  let s := (tRun.setReg (.trsEpStatus 63) 0xC8000FFF).setFld .trsIntBase F.trsIntBase_UNIT 4
  { s with dram := { s.dram with unitOwner := [(4, 0x40)], data := [(67108864, 64)] } }

theorem witness_internal : tInside.internalBound = true ∧
    (({ tInside with dram := { tInside.dram with data := [] } } : State).intLine 0).2 = (0, 0) ∧ (tInside.intLine 0).2 = (64, 0) ∧
    (∀ x : Fin 64, tInside.epInternal x = true → (tInside.ep x).queue = []) := by decide +kernel

/-- READ at 64, WRITE at 0: the entry at 64 is a skip. -/
def tSkip : State := { tInside with dram := { tInside.dram with data := [(67108868, 64)] } }

theorem witness_inbound : tSkip.internalBound = true ∧ (tSkip.intLine 0).2 = (0, 64) ∧
    (((tSkip.intLine 0).1.takeEntry 64).intLine 0).2 = (0, 0) ∧ tRun.internalBound = false := by decide +kernel

/-- A body of QUOTE_REQUEST for this device. -/
def tQuote : List Byte := [0xFF, 0, 0, 0] ++ List.replicate 32 1

/-- A device with a record and a key. -/
def tAttested : State := { (tNet tRun).setFld .secStatus F.secStatus_KEY_READY 1 with sec := { tRun.sec with record := [1] } }

theorem witness_quote : WholeMessage tAttested 0x10 (tFrame 0x10 9 tQuote) 0 ∧ quoteForm tQuote = true ∧ leAt tQuote 0 1 = 0xFF ∧
    (arrived tAttested (tFrame 0x10 9 tQuote) 0).quoteStatus = stOk ∧
    (arrived (tNet tRun) (tFrame 0x10 9 tQuote) 0).quoteStatus ≠ stOk := by unfold WholeMessage; decide +kernel

/-- The body of a KEY_WRAP whose quote is the last one issued. -/
def tWrap : List Byte := List.replicate 32 3 ++ [32, 0, 0, 0] ++ List.replicate 416 0

/-- A secured device that has issued that quote. -/
def tWrapState : State := { tSecured.setFld .secStatus F.secStatus_KEY_READY 1 with
  sec := { tRun.sec with record := [1], quotes := [List.replicate 32 3] } }

theorem witness_wrap : WholeMessage tSecured 0x11 (tFrame 0x11 9 tWrap) 0 ∧
    (arrived tSecured (tFrame 0x11 9 tWrap) 0).wrapResult 0 0 true tWrap = (stBusy, none) := by
  unfold WholeMessage; decide +kernel

/-- A KEY_WRAP installs a key where its free value, the decryption, has one. -/
theorem witness_wrap_key (k : BitVec 256)
    (h : Config.oaepDecrypt tWrapState.seed tWrapState.keyClass (part tWrap 68 384) = some k) :
    tWrapState.wrapResult 0 0 true tWrap = (stOk, some k) := by
  have h1 : tWrapState.epSecured (epIx 0 0) = true := by decide +kernel
  have h2 : tWrapState.ringState 0 = stRunning := by decide +kernel
  have h3 : tWrapState.keyReady = true := by decide +kernel
  have h4 : tWrapState.fld (.trsEpStatus (epIx 0 0)) F.trsEpStatus_KEY_LIVE = 0 := by decide +kernel
  have h5 : wrapForm tWrap = true := by decide +kernel
  have h6 : tWrap.take 32 ∈ tWrapState.sec.quotes := by decide +kernel
  unfold State.wrapResult
  simp [h1, h2, h3, h4, h5, h6, h]

/-! ## Trapeze -/

/-- The system register: state, role, number, COUNT, depth, uplink. -/
def tSystem (state role device count depth uplink : Nat) : Word :=
  BitVec.ofNat 32 (state * 2 ^ 29 + role * 2 ^ 27 + device * 2 ^ 20 + count * 2 ^ 12 + depth * 2 ^ 9 + uplink * 2 ^ 7)

/-- A port: state and role. -/
def tPort (state role : Nat) : Word := BitVec.ofNat 32 (state * 2 ^ 29 + role * 2 ^ 27)

/-- Device 5 of a system of 128, READY, its uplink port 3 UP, its downlink port 2 UP with the numbers 6 to 127; window 255 of
ring 0 OPEN over 512 bytes of the midway, for all, with FLAG 255. -/
def tLinked : State := (tRun.onRing 0 fun k => { k with manifest := tFeManifest.set 0x1F 1 }).setRegs
  [(.trzSystemStatus, tSystem trzReady 2 5 128 1 3), (.trzPortStatus 3, tPort ptUp 1),
    (.trzPortStatus 2, tPort ptUp 2 ||| BitVec.ofNat 32 (6 * 2 ^ 20 + 127 * 2 ^ 13 + 2 ^ 12)),
    (.trzWindowLength 255, 1), (.trzWindowPermit 255 0, 0xFFFFFFFF), (.trzWindowAttr 255, 0xFFFF0007),
    (.trzWindowStatus 255, 0x40000000)]

/-- A packet of this KIND with two bytes, from device 0 for a device and window 255, at this offset, with this ATTR. -/
def tPacket (kind dst attr offset : Nat) : Packet := sealPacket kind
  { mkPacket 0 dst 255 attr 9 2 offset 0 ([1, 2] ++ List.replicate 30 0) with ack := 0xFFFF }

theorem witness_write : Traffic tLinked 3 kWrite (tPacket kWrite 5 0 510) ∧ (255 : Nat) = (tPacket kWrite 5 0 510).window.toNat ∧
    (let s0 := (tLinked.countFec 3 0).accepted 3 kWrite (tPacket kWrite 5 0 510)
     tLinked.routeTo 5 = .here ∧ s0.windowCheck kWrite (tPacket kWrite 5 0 510) 255 = 0 ∧
       (s0.windowWrite 255 510 [(1, false), (2, false)]).2 = true ∧ s0.windowCheck kWrite (tPacket kWrite 5 16 510) 255 = 0 ∧
       (255 : Nat) = tLinked.fld (.trzWindowAttr 255) F.trzWindowAttr_FLAG ∧
       tLinked.fld (.trzWindowAttr 255) F.trzWindowAttr_LAG = 0 ∧ s0.windowCheck kWrite (tPacket kWrite 5 0 511) 255 ≠ 0) ∧
    Traffic tLinked 3 kWrite (tPacket kWrite 5 16 510) ∧ Traffic tLinked 3 kWrite (tPacket kWrite 127 0 0) ∧
    tLinked.routeTo 127 = .out 2 := by unfold Traffic Arrives; decide +kernel

theorem witness_read : Traffic tLinked 3 kRead (tPacket kRead 5 0 510) ∧ Traffic tLinked 3 kRead (tPacket kRead 127 0 0) ∧
    (let s0 := (tLinked.countFec 3 0).accepted 3 kRead (tPacket kRead 5 0 510)
     s0.windowCheck kRead (tPacket kRead 5 0 510) 255 = 0 ∧ (s0.windowRead 255 510 2).2.isSome = true ∧
       s0.windowCheck kRead (tPacket kRead 5 0 511) 255 ≠ 0) ∧
    (tLinked.port 3).rx = [] ∧ (tLinked.port 3).waiting = [] ∧ tLinked.crossFull (.trzToTrz 3 2 0) = false := by
  unfold Traffic Arrives; decide +kernel

/-- A packet that port 3 has forwarded towards port 2. -/
def tForward : State := { tLinked with cross := [(.trzToTrz 3 2 0, .packet ⟨kRead, tPacket kRead 127 0 0⟩)] }

theorem witness_forward : takeCross (.trzToTrz 3 2 0) tForward.cross = some (.packet ⟨kRead, tPacket kRead 127 0 0⟩, []) ∧
    tForward.clockRuns (tForward.receiver (.trzToTrz 3 2 0)) = true ∧ tForward.viaPort 2 = .out 2 ∧
    tForward.portTalks 2 = true ∧ canSend (tForward.port 2) ⟨kRead, tPacket kRead 127 0 0⟩ = true ∧
    (tForward.port 3).rx = [] := by decide +kernel

theorem test_window : gives (exec (.trapezeWrite 3 (tPacket kWrite 5 16 510)) tLinked) (fun t => t.mwy == [(510, 1), (511, 2)] &&
    t.cross == [(.trzToConcourse 3, .setFlag 0 255)] && ((t.port 3).sent.map fun x => x.kind) == [kWriteAck]) = true ∧
    gives (exec (.trapezeWrite 3 (tPacket kWrite 5 0 511)) tLinked) (fun t => t.mwy == [] &&
      ((t.port 3).sent.map fun x => x.body.status) == [3]) = true ∧
    gives (exec (.trapezeRead 3 (tPacket kRead 127 0 0)) tLinked) (fun t =>
      t.cross == [(.trzToTrz 3 2 0, .packet ⟨kRead, tPacket kRead 127 0 0⟩)]) = true := by decide +kernel

theorem test_forward : gives (exec (.crossingDeliver (.trzToTrz 3 2 0)) tForward) (fun t =>
    ((t.port 2).sent.map fun x => (x.kind, x.body.dst)) == [(kRead, 127)]) = true := by decide +kernel

/-- A request of core 0 that waits for its reply. -/
def tRemote (write : Bool) : State := { tLinked with trz := { tLinked.trz with
  remotes := [⟨9, 0, 0x00000001, write, 0, 255, 0, 2, 0⟩] } }

theorem witness_reply : Traffic (tRemote true) 3 kWriteAck (tPacket kWriteAck 5 0 0) ∧ (tRemote true).routeTo 5 = .here ∧
    ((tRemote true).trz.remotes.find? (fun x => x.txn == 9)).isSome = true ∧ (tRemote true).ringOfCore 0 = some 0 ∧
    (tPacket kWriteAck 5 0 0).status.toNat = rmOk ∧ Traffic (tRemote false) 3 kReadData (tPacket kReadData 5 0 0) := by unfold Traffic Arrives; decide +kernel

/-- Port 3 with an unacknowledged packet, sent again this often. -/
def tReplay (resends : Nat) : State := tLinked.onPort 3 fun k => { k with
  replay := [⟨kRead, { tPacket kRead 0 0 0 with seq := 4 }⟩], resends := [resends] }

theorem witness_link : (tReplay 0).portHears 3 = true ∧ ((tReplay 0).port 3).waiting = [] ∧
    (((tReplay 0).port 3).replay.findIdx? fun x => x.body.seq == 4) = some 0 ∧ (tReplay 0).portTalks 3 = true ∧
    ((tReplay 7).port 3).replay ≠ [] ∧ (∀ n ∈ ((tReplay 7).port 3).resends, n < 8) ∧ 8 ∈ ((tReplay 8).port 3).resends ∧
    packetOk kLink (sealPacket kLink { mkPacket 0 0 0 0 0 0 0 0 [] with ack := 4 }) = true ∧
    ((tReplay 0).port 3).nakSent = false ∧
    (((tReplay 0).onPort 3 fun k => { k with nakSent := true }).port 3).nakSent = true := by decide +kernel

theorem test_replay : gives (exec (.replayTimeout 3) (tReplay 7)) (fun t => ((t.port 3).sent.map fun x => x.body.ack) == [0xFFFF]) =
    true ∧ gives (exec (.replayTimeout 3) (tReplay 8)) (fun t => t.portState 3 == ptTraining) = true ∧
    gives (exec (.trapezeBadPacket ⟨3, 1, 2⟩) tLinked) (fun t => ((t.port 3).sent.map fun x => x.body.attr) == [32]) = true := by
  decide +kernel

/-- A device of a role whose port 3 has a state and a role. -/
def tTree (sys : Word) (state role : Nat) : State := tRun.setRegs [(.trzSystemStatus, sys), (.trzPortStatus 3, tPort state role)]

/-- A message. -/
def tMessage (content : List Byte) : Packet := sealPacket kMessage (mkPacket 0 0 0 0 0 content.length 0 0 (padTo 32 0 content))

/-- A port in training that has locked, and whose other end's role is known. -/
def tTraining (locked : Bool) (peer : Option Nat) : State := (tTree 0 ptTraining 1).onPort 3 fun k =>
  { k with locked := locked, peer := peer }

theorem witness_training : (tTraining false none).inTraining 3 = true ∧ (tTraining false none).trzIdle = false ∧
    rolesFit 1 2 = true ∧ rolesFit 1 1 = false ∧ (tTraining false none).portRole 3 = 1 ∧
    ((tTraining false none).port 3).peer = none ∧ ((tTraining false (some 2)).port 3).peer = some 2 ∧
    ((tTraining false (some 1)).port 3).peer = some 1 ∧ ((tTraining false (some 2)).port 3).retrains < 3 ∧
    ((tTraining true none).port 3).locked = true ∧ (tTree 0 ptUp 1).inTraining 3 = false := by decide +kernel

theorem witness_hello : Arrives (tTraining true none) 3 kMessage (tMessage [1, 1, 2]) ∧
    Arrives (tTraining false none) 3 kMessage (tMessage [1, 1, 2]) ∧ Arrives (tTraining true none) 3 kMessage (tMessage [1, 1, 1]) ∧
    Arrives (tTree 0 ptUp 1) 3 kMessage (tMessage [1, 1, 2]) ∧ msgByte (tMessage [1, 1, 2]) 2 = 2 ∧
    msgByte (tMessage [1, 1, 1]) 2 = 1 := by unfold Arrives; decide +kernel

theorem test_hello : gives (exec (.hello 3 (tMessage [1, 1, 2])) (tTraining true none)) (fun t => t.portState 3 == ptUp &&
    ((t.port 3).sent.map fun x => x.kind) == [kMessage]) = true ∧
    gives (exec (.portTrained 3 true 2 0) (tTraining false (some 2))) (fun t => t.portState 3 == ptUp &&
      t.reg (.trzPortCount 3 0) == 2) = true := by decide +kernel

/-- The manager, DISCOVERING. -/
def tManager (state : Nat) : State := tTree (tSystem trzDiscovering 1 0 0 0 0) state 2

theorem witness_numbering : (tManager ptDown).isManager = true ∧ (tManager ptDown).trzState = trzDiscovering ∧
    (tManager ptDown).trz.numbering = none ∧ (∀ d : Fin 4, (tManager ptDown).isDownlink d = true → (tManager ptDown).portState d ≠ ptUp) ∧
    ((tManager ptUp).downlinks.find? fun d => (tManager ptUp).portState d == ptUp) = some 3 ∧
    (∀ d : Fin 4, (tManager ptDown).isDownlink d = true →
      ((tManager ptDown).port d).linkUp = false ∧ (tManager ptDown).portState d ≠ ptUp) ∧
    (tTree 0 0 0).isManager = false := by decide +kernel

theorem test_numbering : gives (exec .numberingStart (tManager ptDown)) (fun t => t.trzState == trzReady &&
    t.portState 3 == ptExcluded) = true ∧
    gives (exec .numberingStart (tManager ptUp)) (fun t => t.trz.numbering == some 3 &&
      ((t.port 3).sent.map fun x => x.body.data.take 4) == [[2, 0, 1, 127]]) = true := by decide +kernel

/-- A worker without downlinks, its uplink port 3. -/
def tWorker (state depth : Nat) : State := tTree (tSystem state 2 0 0 depth 3) ptUp 1

theorem witness_worker : Arrives (tWorker trzDiscovering 0) 3 kMessage (tMessage [2, 3, 127, 127]) ∧
    (tWorker trzDiscovering 0).fromParent 3 = true ∧ (tWorker trzDiscovering 0).trzState = trzDiscovering ∧
    msgByte (tMessage [2, 3, 127, 127]) 2 < 128 ∧ msgByte (tMessage [2, 3, 127, 127]) 1 < 4 ∧
    (∀ d : Fin 4, (tWorker trzDiscovering 0).isDownlink d = true → (tWorker trzDiscovering 0).portState d ≠ ptUp) ∧
    (tWorker trzDiscovering 4).depth ≠ 0 ∧ Arrives (tWorker trzDiscovering 4) 3 kMessage (tMessage [4, 128]) := by
  unfold Arrives; decide +kernel

/-- The manager that waits for NUMBERED on port 3. -/
def tAwaits : State := { tManager ptUp with trz := { (tManager ptUp).trz with numbering := some 3, nextFirst := 1, limit := 127 } }

theorem witness_numbered : Arrives tAwaits 3 kMessage (tMessage [3, 127]) ∧ tAwaits.trz.numbering = some 3 ∧
    1 ≤ msgByte (tMessage [3, 127]) 1 ∧ tAwaits.trz.nextFirst + msgByte (tMessage [3, 127]) 1 ≤ 128 := by
  unfold Arrives; decide +kernel

theorem test_numbered : gives (exec (.numbered 3 (tMessage [3, 127])) tAwaits) (fun t =>
    t.fld (.trzPortStatus 3) F.trzPortStatus_LAST == 127 && t.trzState == trzReady &&
    t.fld .trzSystemStatus F.trzSystemStatus_COUNT == 128) = true ∧
    gives (exec (.number 3 (tMessage [2, 3, 127, 127])) (tWorker trzDiscovering 0)) (fun t => t.deviceNo == 127 && t.depth == 4) =
      true := by decide +kernel

/-- A worker with a record, whose quote device 0 asks for. -/
def tQuoted : State := { tLinked.setFld .secStatus F.secStatus_KEY_READY 1 with sec := { tLinked.sec with record := [1] } }

/-- The request. -/
def tAskQuote : Packet := sealPacket kMessage (mkPacket 0 5 0 0 0 37 0 0 (padTo 64 0 ([7] ++ tQuote)))

theorem witness_quote_worker : Traffic tQuoted 3 kMessage tAskQuote ∧ tQuoted.routeTo 5 = .here ∧ tQuoted.isManager = false ∧
    quoteForm ((part tAskQuote.data 0 tAskQuote.bytes.toNat).drop 1) = true ∧
    ((tQuoted.countFec 3 0).accepted 3 kMessage tAskQuote).quoteStatus = stOk := by
  unfold Traffic Arrives; decide +kernel

/-- A manager of three devices with a relayed request of which all but the last byte has come from device 1. -/
def tRelay : State :=
  let s := (tNet tRun).setRegs [(.trzSystemStatus, tSystem trzReady 1 0 3 0 0), (.trzPortStatus 3, tPort ptUp 2)]
  { s with trz := { s.trz with relays := [⟨1, 0, ⟨0, 0x10, 7, 1, 5⟩, List.replicate 867 0⟩] } }

/-- The rest of the answer. -/
def tRest : Packet := sealPacket kMessage (mkPacket 1 0 0 0 0 2 0 0 (padTo 32 0 [7]))

theorem witness_quote_relay : Traffic tRelay 3 kMessage tRest ∧ tRelay.routeTo 0 = .here ∧ tRelay.isManager = true ∧
    (tRelay.trz.relays.find? fun y => y.device == tRest.src).isSome = true ∧ tRest.status = 0 ∧
    quoteWhole (List.replicate 867 0 ++ (part tRest.data 0 tRest.bytes.toNat).drop 1) = true ∧ tRelay.epBound (epIx 0 0) = true :=
  by unfold Traffic Arrives; decide +kernel

theorem witness_window : tLinked.windowOwner 255 = some 0 ∧ Heard tLinked 0 (.ep 0 0) ∧ tLinked.windowCause 0 255 = 3 ∧
    (tLinked.setReg (.trzWindowStatus 255) 0).windowCause 0 255 = 0 ∧ tLinked.fld (.trzWindowAttr 255) F.trzWindowAttr_LAG = 0 ∧
    tLinked.fld (.trzWindowStatus 255) F.trzWindowStatus_STATE = 1 ∧
    (tLinked.setReg (.trzWindowStatus 255) 0x80000000).fld (.trzWindowStatus 255) F.trzWindowStatus_STATE = 2 := by
  unfold Heard MayAsk; decide +kernel

theorem test_window_open : gives (exec (.windowOpen 255 (.ep 0 0)) (tLinked.setReg (.trzWindowStatus 255) 0)) (fun t =>
    t.fld (.trzWindowStatus 255) F.trzWindowStatus_STATE == 1) = true := by decide +kernel

/-! ## Boot and flash -/

/-- The device held by PORESET_N, its security store in a lifecycle state. -/
def tLife (lifecycle : Nat) : State := if lifecycle = lcBlank then State.reset else
  State.reset.storeWrite { State.reset.storeRec with lifecycle := lifecycle }

theorem witness_start (l : Nat) : Starting (tLife l) .poresetDeassert { tLife l with pins := { (tLife l).pins with poreset := false } } := by
  refine Or.inl ⟨rfl, ?_, rfl⟩
  unfold tLife
  split
  · rfl
  · unfold State.storeWrite
    split <;> rfl

/-- The same, with PORESET_N released. -/
def tFree (lifecycle : Nat) : State := { tLife lifecycle with pins := { (tLife lifecycle).pins with poreset := false } }

/-- Under SYSRESET_N, under a detector, under the REFCLK check after nine good windows, in Deep standby. -/
def tSys : State := { tUp with pins := { tUp.pins with sysreset := true } }

/-- Under a detector. -/
def tRail : State := { tUp with pins := { tUp.pins with rails := 4 } }

/-- Under the REFCLK check after nine good windows. -/
def tRef : State := { tUp with pins := { tUp.pins with refReset := true, refGood := 9 } }

/-- In Deep standby. -/
def tDeep : State := { tUp with boot := { tUp.boot with phase := .deepStandby } }

theorem witness_starts : tSys.pins.sysreset = true ∧ tRail.pins.rails.getLsbD (railBit .soc) = true ∧ tRail.boot.phase ≠ .deepStandby ∧
    tRef.countsEdges = true ∧ tRef.pins.refReset = true ∧ badWindow 250 = false ∧ 9 ≤ tRef.pins.refGood ∧
    tDeep.boot.phase = .deepStandby ∧ tUp.mayManage .booth = true ∧ (tFree 0).heldReset = false ∧
    State.reset.heldReset = true ∧ tapHolds 0 = true ∧ tapHolds State.reset.pins.tapIr = false := by decide +kernel

theorem witness_refclk : tUp.countsEdges = true ∧ badWindow 199 = true ∧ badWindow 301 = true ∧ badWindow 200 = false ∧
    badWindow 300 = false ∧ tUp.pins.refReset = false ∧ tUp.pins.refBad = 0 ∧
    1 ≤ ({ tUp with pins := { tUp.pins with refBad := 1 } } : State).pins.refBad ∧
    tUp.pins.rails.getLsbD (railBit .aon) = false ∧ tUp.pins.rails.getLsbD (railBit .core) = false ∧
    (tUp.setFld .secStatus F.secStatus_POWER 2).inStandby = true := by decide +kernel

/-- The anchor record of one device of 512 blocks of 64 pages: the areas of R376 at their smallest from block 20 on. -/
def tAnchor : List Byte :=
  let m := leBytes 4 0x4C394641 ++ [1, 0, 1, 6, 0, 2, 0, 0, 1, 0, 0, 0] ++
    [(20, 4), (24, 8), (32, 8), (40, 4), (44, 8), (52, 4)].flatMap (fun r : Nat × Nat => leBytes 4 r.1 ++ leBytes 4 r.2) ++
    List.replicate 60 0
  m ++ leBytes 4 (crc32c m).toNat

/-- That anchor in block 0. -/
def tFlash (s : State) : State := { s with flash := { s.flash with main := smRun 0xFF 0 tAnchor, tags := [(0, mkTag 1 0 1 0)] } }

/-- A state after the reads of the ROM, before it chooses a slot. -/
def tRead (s : State) : State := (s.started.romStore.released.romPrepare tAnchor).romRead

/-- A Deployed device with that anchor. -/
def tBooting : State := tFlash (tFree lcDeployed)

/-- A device with VDD_AON low that owes DEBUG_EPOCH. -/
def tOwes : State := { tBooting with boot := { tBooting.boot with owesEpoch := true }, sec := { tBooting.sec with aonLow := true } }

theorem witness_rom : (tFree lcScrapped).lifecycle = lcScrapped ∧ (tFree lcDeployed).lifecycle ≠ lcScrapped ∧
    (tFree lcBlank).lifecycle = lcBlank ∧ (tFree lcDeployed).lifecycle ≠ lcBlank ∧
    (tFree lcDeployed).started.romStore.released.anchorRecord = none ∧ (tFree lcDeployed).sec.aonLow = false ∧
    tBooting.started.romStore.released.anchorRecord = some tAnchor ∧ (tRead tBooting).chooseSlot = none ∧
    tOwes.lifecycle ≠ lcScrapped ∧ tOwes.boot.owesEpoch = true ∧ tOwes.sec.aonLow = true ∧ tOwes.heldReset = false ∧
    tapHolds tOwes.pins.tapIr = false := by decide +kernel

/-- The same with a header of slot 0. -/
def tSlotHeader (state trials : Nat) : State :=
  { tBooting with flash := { tBooting.flash with
    main := smWrite 0xFF tBooting.flash.main (4096 * pageNo 24 0) (headerBytes ⟨state, trials, 0, 7, 1, 1, 9⟩)
    tags := smSet erasedTag tBooting.flash.tags (pageNo 24 0) (mkTag 3 0 1 0) } }

/-- A slot that verifies is chosen. What verifies rests on SHA-256 and RSA, which the model leaves open. -/
theorem witness_slot (s : State) (h0 : s.slotCause 0 = 0) (h1 : s.slotCause 1 = 8) : s.chooseSlot = some (0, false) := by
  simp [State.chooseSlot, State.slotValid, h0, h1]

/-- What matches its digests or does not: with no section, and with one whose digest is another. -/
theorem witness_digests (s : State) (k : Fin 2) (p : Nat × List Byte) (h : ctDigests (s.slotContainer k p) = false) :
    s.slotDigests k [] = true ∧ s.slotDigests k [p] = false := by
  simp [State.slotDigests, h]

theorem witness_header : (tRead (tSlotHeader 3 0)).header 0 = ⟨3, 0, 0, 7, 1, 1, 9⟩ ∧
    ((tRead (tSlotHeader 2 3)).header 0).state = 2 ∧ ((tRead (tSlotHeader 2 3)).header 0).trials = 3 ∧
    ((tRead (tSlotHeader 2 1)).header 0).state = 2 ∧ ((tRead (tSlotHeader 2 1)).header 0).trials = 1 ∧
    (tSlotHeader 3 0).started.romStore.released.anchorRecord = some tAnchor ∧ (tRead (tSlotHeader 3 0)).slotCause 1 = 8 := by decide +kernel

theorem test_reset : gives (exec .poresetDeassert State.reset) (fun t => t.boot.phase == .listener && t.boot.recCause == 3 &&
    t.fld .secStatus F.secStatus_FULL == 1) = true ∧
    gives (exec .poresetDeassert (tFlash (tLife lcDeployed))) (fun t => t.boot.phase == .listener && t.boot.recCause == 1 &&
      t.fld .flsStatus F.flsStatus_ANCHORS == 1) = true ∧
    gives (exec .wakeNAssert tDeep) (fun t => t.boot.phase == .listener && t.storeRec.debugEpoch == 1) = true := by decide +kernel

/-- The state at hand-over; with a journal that holds a memory record. -/
def tHand : State := tUp.setFld .bootStatus F.bootStatus_STAGE 1

/-- The training of DRAM that fails no channel. -/
def tDramTraining : DramTraining := ⟨1, 0, true⟩

theorem witness_bring_up : tHand.boot.phase = .handedOver ∧ tHand.fld .bootStatus F.bootStatus_STAGE = 1 ∧
    ((tHand.flashReady.selfTest (.replicate 16 [31]) 0 255).dramUp tDramTraining).2 = false := by decide +kernel

/-- What a memory record holds is left open by the spec: with one of R176, DRAM comes up. -/
theorem witness_dram_up (s : State) (b : List Byte) (h : s.configRecord 1 = some b)
    (hr : Config.memoryRecord b = some (1, 15, 0, 0, 0)) : (s.dramUp tDramTraining).2 = true := by
  have h0 : (({ s with pins := { s.pins with dramReset := false } } : State).configRecord 1) = some b := h
  simp [State.dramUp, h0, hr, trainedAs, memoryOk, tDramTraining, within, channelSets, subUnits, gradeFloor]

/-- A device whose image has a directory without faults: a manifest of ring 0, unit 2 for the application cores. -/
def tDir : State := { tHand with
  boot := { tHand.boot with deployLen := 8192 }
  dram := { tHand.dram with unitOwner := [(1, 0x80)], data := tImageBytes [(0x0A, 2), (0x21, 0x02), (0x25, 0x02), (0x49, 0x10),
    (0x4D, 0x01), (0x200, 0x50), (0x201, 0x44), (0x202, 0x39), (0x203, 0x4C), (0x204, 1), (0x206, 1), (0x207, 1), (0x209, 0x10),
    (0x220, 2), (0x224, 2), (0x226, 1), (0x1000, 9)] } }

/-- The deployment image where DRAM is too small for it, where its digests hold, and where they do not. -/
theorem witness_deploy : tHand.dirOk = false ∧ tDir.dirOk = true ∧ tHand.inRecovery = false ∧
    (∀ r : Fin 8, (tDir.ring r).bound = false) ∧ tDir.manifestsOf 0 = [0] ∧
    (tHand.setFld .bootStatus F.bootStatus_RECOVERY 1).inRecovery = true ∧
    (tHand.setFld .ddrConfig F.ddrConfig_CAPACITY 0).deployCause [] = 2 := by decide +kernel

theorem witness_deploy_cause (c : List Byte) (h : ¬ tHand.dramSize < unitBytes * (1 + ceilDiv (ctLength c) unitBytes)) :
    (ctDigests c = true → tHand.deployCause c = 0) ∧ (ctDigests c = false → tHand.deployCause c = 1) := by
  have hl : tHand.lifecycle ≠ lcReturned := by decide +kernel
  constructor <;> intro hd <;> simp [State.deployCause, h, hd, hl]

/-- A flash with an operation in progress. -/
def tFlashing (s : State) (job : FlashJob) (op : FlashStep) : State := { s with flash := { s.flash with running := some (job, op) } }

/-- The header that marked a slot FAILED is written: the device restarts (R362, R385); here the flash has no log area. -/
theorem test_failed_restart : gives (exec (.flashOpDone (.program 0 true))
    (tFlashing tHand (.header 0 ⟨4, 0, 1, 7, 1, 1, 9⟩ (.restart 0 1)) (.program 0 0 []))) (fun t =>
      t.fld .bootEvent F.bootEvent_FELL_BACK == 1 && t.boot.phase != .handedOver && t.flash.queue == []) = true := by
  decide +kernel

theorem test_bring_up_halts : gives (exec (.boothBringUp (.replicate 16 []) 0 0 tDramTraining) tHand) (fun t => t.alert &&
    t.fld .bootStatus F.bootStatus_HALT_CAUSE == 1) = true := by decide +kernel

/-- The running slot's header in a state, no trial, writes open. -/
def tRunning (state : Nat) : State := { tHand with flash := { (tSlotHeader state 0).flash with anchor := tAnchor } }

/-- The same while VDD_AON is low. -/
def tLow (state : Nat) : State := { tRunning state with sec := { (tRunning state).sec with aonLow := true } }

theorem witness_confirm : (tRunning 2).mayManage .booth = true ∧ (tRunning 2).inRecovery = false ∧
    (tRunning 2).fld .bootStatus F.bootStatus_CONFIRMING = 0 ∧ ((tRunning 2).header (tRunning 2).runningSlot).state ≠ 3 ∧
    (tRunning 2).netOver = false ∧ (tRunning 2).sec.aonLow = false ∧ (tLow 2).sec.aonLow = true ∧
    ((tLow 2).header (tLow 2).runningSlot).state = 2 ∧ (tLow 2).netOver = false ∧
    ((tRunning 3).header (tRunning 3).runningSlot).state = 3 ∧
    ((tRunning 2).setFld .bootStatus F.bootStatus_TRIAL 1).netOver = true ∧ tUp.mayManage (.ep 0 0) = false := by decide +kernel

theorem test_confirm_held : gives (exec (.confirm .booth) (tLow 2)) (fun t =>
    t.fld .bootStatus F.bootStatus_CONFIRMING == 1 && t.fld .secEvent F.secEvent_STORE_HELD == 1) = true := by decide +kernel

/-- The safety net counts. -/
def tNetArmed : State := tUp.setFld .bootNet F.bootNet_ARMED 1

/-- PWR_WARN_N is asserted. -/
def tWarned (s : State) : State := { s with pins := { s.pins with warn := true } }

theorem witness_net : tNetArmed.netCounts = true ∧ tUp.netCounts = false ∧ tNetArmed.inRecovery = false ∧
    tNetArmed.inhibited = false ∧ (tWarned tNetArmed).inhibited = true ∧ (tWarned tNetArmed).netCounts = true ∧
    (tNetArmed.setFld .bootStatus F.bootStatus_RECOVERY 1).inRecovery = true := by decide +kernel

/-- An install in progress. -/
def tInstall : State := { tRunning 3 with boot := { tUp.boot with install := some ⟨1, 9, 7, 2⟩ } }

theorem witness_install : tInstall.boot.install.isSome = true ∧ tUp.boot.install = none ∧
    tUp.fld .bootStatus F.bootStatus_TRIAL = 0 ∧ (tUp.setFld .bootStatus F.bootStatus_TRIAL 1).fld .bootStatus F.bootStatus_TRIAL = 1 ∧
    (tUp.staged .booth 0 0).2 = some [] ∧ (tUp.installCause []).1 ≠ 0 ∧ tInstall.installWaits 1 = false ∧
    (false && tInstall.readsBack 1) = false := by decide +kernel

/-- A set that passes its checks can be installed; what passes rests on SHA-256 and RSA. -/
theorem witness_install_set (s : State) (b : List Byte) (l : List (Nat × List Byte))
    (h : (setContainers fun o n => some (part b o n)) = some l)
    (hc : setCause s.storeRec (leAt (l.getD 0 (0, [])).2 0xC 4) l = 0)
    (hs : (l.getD 2 (0, [])).1 + ctLength (l.getD 2 (0, [])).2 ≤ s.slotCapacity s.installSlot)
    (hb : (l.getD 2 (0, [])).1 + ctLength (l.getD 2 (0, [])).2 ≤ b.length) : (s.installCause b).1 = 0 := by
  simp only [State.installCause, h, hc, Nat.not_lt.mpr hs, Nat.not_lt.mpr hb, ne_eq, not_true_eq_false, if_false]

/-- A set that reads back is PENDING. -/
theorem witness_install_ok (k : Fin 2) (l : List (Nat × List Byte)) (s : State) (h : s.slotSet k = some l)
    (hd : ∀ p ∈ l, ctDigests (s.slotContainer k p) = true) : s.readsBack k = true := by
  simp only [State.readsBack, h, List.all_eq_true]
  exact hd

theorem witness_rom_read : ({ tUp with boot := { tUp.boot with romLocked := true } } : State).boot.romLocked = true := by
  decide +kernel

/-- The recovery listener, with a session. -/
def tListen (x : Option RecSession) : State := { tUp with boot := { tUp.boot with phase := .listener, recCause := 3, session := x } }

/-- A frame of the recovery protocol. -/
def tRec (type : Nat) (session : BitVec 16) (offset : Word) (payload : List Byte) : RecFrame :=
  let f : RecFrame := ⟨7, 1, session, offset, BitVec.ofNat 16 payload.length, 0, 0, payload⟩
  { f with crc := crc32c (recHeader type f ++ payload) }

theorem witness_listener : (tListen none).listening = true ∧ (tListen none).boot.session = none ∧
    recHeard 2 (tRec 2 5 0 [2, 0, 0, 0]) = true ∧ beAt (tRec 2 5 0 [2, 0, 0, 0]).payload 0 4 ≤ recMax ∧
    recHeard 2 (tRec 2 5 0 [2, 0, 0, 1]) = true ∧ recMax < beAt (tRec 2 5 0 [2, 0, 0, 1]).payload 0 4 ∧
    (tListen (some ⟨5, 3, 1⟩)).inSession 3 (tRec 3 5 1 [8, 9]) = some ⟨5, 3, 1⟩ ∧ 1 + [8, 9].length ≤ 3 ∧
    (tListen (some ⟨5, 3, 1⟩)).inSession 3 (tRec 3 5 0 [8, 9]) = some ⟨5, 3, 1⟩ ∧
    (tListen (some ⟨5, 3, 3⟩)).inSession 5 (tRec 5 5 0 []) = some ⟨5, 3, 3⟩ ∧
    (tListen none).recoveryStatus ⟨5, 3, 3⟩ [0, 0, 0] ≠ rsOk := by decide +kernel

/-- An image that passes R349 starts. -/
theorem witness_recovery_image (s : State) (x : RecSession) (c : List Byte) (h1 : x.next = x.total) (h2 : ctLength c = x.total)
    (h3 : ctCause s.storeRec 4 (s.lifecycle == lcBlank) (c.take 3712) = 0) (h4 : ctDigests c = true) :
    s.recoveryStatus x c = rsOk := by
  simp [State.recoveryStatus, h1, h2, h3, h4]

theorem test_recovery : gives (exec (.begin (tRec 2 5 0 [2, 0, 0, 0])) (tListen none)) (fun t =>
    t.boot.session == some ⟨5, 33554432, 0⟩) = true ∧
    gives (exec (.data (tRec 3 5 1 [8, 9])) (tListen (some ⟨5, 3, 1⟩))) (fun t => t.mwy == [(1, 8), (2, 9)] &&
      (t.wire[(2 : Fin 4)].map fun f => (f.dst, f.src, f.payload.take 8)) == [(7, 0x024C39000000, [1, 4, 0, 5, 0, 0, 0, 3])]) =
      true ∧
    gives (exec (.data { tRec 3 5 1 [8, 9] with crc := 0 }) (tListen (some ⟨5, 3, 1⟩))) (fun t => t.wire[(2 : Fin 4)] == []) =
      true := by
  decide +kernel

/-- A staged entry of the journal at DRAM line 1: a memory record of one byte. -/
def tStagedRecord (s : State) : State :=
  (({ s with dram := { tUp.dram with unitOwner := [(0, 0x80)] } } : State).ownWrite .booth 64 (journalBytes 1 1 0 [6])).setReg
    (.flsRecordSrc 0) 64

theorem witness_record_write : (tStagedRecord (tRunning 3)).mayManage .booth = true ∧ (tStagedRecord (tRunning 3)).flash.record = none ∧
    ((tStagedRecord (tRunning 3)).staged .booth 64 16).2 = some ((journalBytes 1 1 0 [6]).take 16) ∧
    leAt ((journalBytes 1 1 0 [6]).take 16) 2 2 ≤ 8192 ∧
    ((tStagedRecord (tRunning 3)).staged .booth 64 17).2 = some (journalBytes 1 1 0 [6]) ∧
    (within 1 4 (leAt (journalBytes 1 1 0 [6]) 0 1) && entrySound (journalBytes 1 1 0 [6])) = true ∧
    (within 1 4 (leAt (journalBytes 5 1 0 [6]) 0 1) && entrySound (journalBytes 5 1 0 [6])) = false ∧
    ((tStagedRecord (tRunning 3)).staged .booth 64 17).1.goodBlocks arJournal ≠ [] ∧
    ((tStagedRecord tHand).staged .booth 64 17).1.goodBlocks arJournal = [] := by decide +kernel

/-- A header's program under way, in the first page of slot 0. -/
def tHeaderRuns (next : HeaderNext) : State :=
  tFlashing (tRunning 3) (.header 0 ⟨2, 1, 0, 7, 1, 2, 9⟩ next)
    (.program (pageNo 24 0) (mkTag 3 0 1 0) (headerBytes ⟨2, 1, 0, 7, 1, 2, 9⟩))

theorem witness_flash_program : pageNo 511 127 / 128 < (tRunning 3).flashBlocks ∧ (tRunning 3).goodBlocks arLog ≠ [] ∧
    (∀ n ∈ ([.plain, .confirmed, .installed] : List HeaderNext), endsThere (.header 0 ⟨2, 1, 0, 7, 1, 2, 9⟩ n) = true) ∧
    endsThere (.append arLog [[1]] false .plain) = true ∧ endsThere (.refresh 24 false) = true ∧
    (let s2 := ((tHeaderRuns (.trial 0 false)).flashIdle.programPage (pageNo 24 0) (mkTag 3 0 1 0)
        (headerBytes ⟨2, 1, 0, 7, 1, 2, 9⟩)).showSlots
     s2.slotDigests 0 ((s2.slotSet 0).getD []) = true ∧ (s2.header 0).state = 2) := by decide +kernel

/-- A page of slot 0 with errors in its cells. -/
def tWorn (n : Nat) : State := (tRunning 3).wear (pageNo 24 0) ((List.range n).map fun i => (i, 1))

theorem witness_flash : 511 < (tRunning 3).flashBlocks ∧ (tRunning 3).erasesOf 47 < 50000 ∧
    50000 ≤ ({ tRunning 3 with flash := { (tRunning 3).flash with erases := [(47, 50000)] } } : State).erasesOf 47 ∧
    (tRunning 3).flash.running = none ∧ (tRunning 3).flashBlocks ≤ opBlock (.erase 512 true) ∧
    (tWorn 30).pageErased (pageNo 24 0) = false ∧ (tWorn 31).pageErased (pageNo 24 0) = false ∧
    (tWorn 30).readTry (pageNo 24 0) [] = some [30, 0, 0, 0] ∧ (tWorn 31).readTry (pageNo 24 0) [] = none ∧
    pageNo 24 0 ∈ (tWorn 31).flash.tags.map (fun e => e.1) ∧ tagArea ((tWorn 30).pageTag (pageNo 24 0)) = (3 : Byte).toNat ∧
    tagArea ((tWorn 30).pageTag (pageNo 24 0)) ≠ (4 : Byte).toNat := by decide +kernel

theorem witness_flash_inhibit : ((tRunning 3).log 1 2 3 4).flash.logPending ≠ [] ∧
    ((tRunning 3).log 1 2 3 4).goodBlocks arLog ≠ [] ∧ ((tRunning 3).log 1 2 3 4).inhibited = false ∧
    (tWarned ((tRunning 3).log 1 2 3 4)).inhibited = true ∧ tUp.pins.warn = false ∧ (tWarned tUp).pins.warn = true ∧
    ({ tInstall with flash := { tInstall.flash with resuming := true, record := some 1 } } : State).inhibited = true := by
  decide +kernel

/-- Reads: 19 symbols corrected in one codeword; 20 there and one in another; 31 wrong in all three reads. -/
theorem test_flash_read : gives (exec (.flashOpDone (.read (pageNo 24 0) 3 [] #v[[], [], []])) (tWorn 19)) (fun t =>
      t.fld (.flsCount 0) F.flsCount_COUNT == 1 && t.fld .flsStatus F.flsStatus_UNCORRECTABLE == 0) = true ∧
    gives (exec (.flashOpDone (.read (pageNo 24 0) 3 [(900, 5)] #v[[(20, 1)], [], []])) (tWorn 19)) (fun t =>
      t.fld (.flsCount 0) F.flsCount_COUNT == 2 && t.scheduled 24) = true ∧
    gives (exec (.flashOpDone (.read (pageNo 24 0) 3 [] #v[[], [], []])) (tWorn 31)) (fun t =>
      t.fld (.flsCount 1) F.flsCount_COUNT == 1 && t.fld .flsStatus F.flsStatus_UNCORRECTABLE == 1) = true := by
  decide +kernel

theorem test_record : gives (exec (.writeRecord .booth) (tStagedRecord (tRunning 3))) (fun t =>
    t.fld .flsRecordStatus F.flsRecordStatus_STATE == 1 && t.flash.record == some 1 && t.flash.running.isSome) = true := by
  decide +kernel


/-! ## Power -/

/-- Ring 0 runs at 1.2 GHz, ring 2 at 1 GHz fixed; the core measures 30 W and 20 W for them; the cap is 60 W. -/
def tPower : State := (((tRun.setReg (.pwrCap) 0).setFld .pwrCap F.pwrCap_CAP_W 60).setFld (.pwrRingStatus 0)
  F.pwrRingStatus_FREQ_MHZ 1200).setFld (.pwrRingStatus 2) F.pwrRingStatus_FREQ_MHZ 1000

/-- What the loop measures. -/
def tSampleMw : PowerSample := ⟨50000, 40000, Vector.ofFn fun r => if r.val = 0 then 30000 else if r.val = 2 then 20000 else 0, 700,
  false, false, false⟩

theorem witness_power : tPower.recordValid = false ∧ tPower.boothRuns = true ∧ (tPower.grants tSampleMw).length = 2 ∧
    ((tPower.grants tSampleMw).any fun g => decide (g.mhz < tPower.freq g.ring)) = true ∧
    ((tPower.grants tSampleMw).any fun g => g.cause.isSome) = true ∧ tPower.ringClocked 1 = false ∧
    (500 : Int) ≤ 500 ∧ tPower.tMax = 500 ∧ tPower.power.tripped = false ∧ (tPower.core 0).hint = none ∧
    ({ tPower with power := { tPower.power with halted := true } } : State).boothRuns = false ∧
    ({ tPower with power := { tPower.power with halted := true } } : State).updState ≠ upSwitching ∧
    tPower.clockRuns (coreIsland 0) = true := by decide +kernel

/-- A hint of core 4 that has arrived. -/
def tHinted : State := { tPower.onCore 4 fun k => { k with hint := some ⟨3, 5, 99⟩ } with
  power := { tPower.power with arrived := [(2, 4, 3)] } }

theorem witness_hint : tHinted.boothRuns = true ∧ tHinted.power.arrived = [(2, 4, 3)] ∧ (tHinted.core 4).hint.isSome = true ∧
    (tHinted.power.arrived.all fun h => h.2.1 != 5) = true := by decide +kernel

theorem witness_recover : ((Vector.replicate 32 (479 : Int)).toList.all fun x => decide (x < tPower.tMax - 20)) = true ∧
    ((Vector.replicate 32 (480 : Int)).toList.all fun x => decide (x < tPower.tMax - 20)) = false := by decide +kernel

theorem test_power_loop : gives (exec (.powerLoop tSampleMw) tPower) (fun t => t.fld .pwrPower F.pwrPower_TOTAL == 900 &&
    t.freq 0 == 400 && t.freq 2 == 800 && t.fld (.pwrRingStatus 0) F.pwrRingStatus_LIMIT == 1 &&
    t.fld .pwrStatus F.pwrStatus_CAP_EXCEEDED == 0) = true := by decide +kernel

theorem test_hint_handler : gives (exec .hintHandler tHinted) (fun t => t.power.droopD == 15 && t.power.hints[4] == 3) = true := by
  decide +kernel

theorem test_thermal : gives (exec (.thermalEmergency 31 500) tPower) (fun t => t.alert && t.freq 0 == 800 && t.freq 2 == 800) = true ∧
    gives (exec (.thermalCritical 31 520) tPower) (fun t => t.pins.safeState && !t.ringClocked 0) = true ∧
    gives (exec (.thermalLoop (.replicate 32 480) true) tPower) (fun t => t.power.ceiling == 2200) = true := by decide +kernel

theorem test_lockstep : gives (exec (.lockstepMismatch true) { tPower with power := { tPower.power with mismatches := 2 } })
    (fun t => t.power.tripped && t.fld .pwrLockstepCount F.pwrLockstepCount_COUNT == 1) = true := by decide +kernel

/-! ## Trims and the update of the booth -/

/-- Point 7 between its limits, with steps. -/
def tTrim (floor ceil steps : Nat) : State := tPower.setReg (.pwrTrim 7)
  (BitVec.ofNat 32 (steps * 2 ^ 24 + ceil * 2 ^ 12 + floor))

/-- A changed trim. -/
def tChanged : State := { tTrim 600 800 1 with power := { tPower.power with unwritten := 128 } }

theorem witness_trim : (tTrim 600 800 1).boothRuns = true ∧ ([7] : List (BitVec 6)) ≠ [] ∧
    ([7, 9] : List (BitVec 6)).foldl (fun n c => min n c.toNat) 63 = 7 ∧ ([24] : List (BitVec 6)).foldl (fun n c => min n c.toNat) 63 = 24 ∧
    ([23] : List (BitVec 6)).foldl (fun n c => min n c.toNat) 63 = 23 ∧ (tTrim 600 800 1).pointRaw 7 < (tTrim 600 800 1).pointCeil 7 ∧
    (tTrim 800 800 0).pointCeil 7 ≤ (tTrim 800 800 0).pointRaw 7 ∧ 1 ≤ (tTrim 600 800 1).fld (.pwrTrim 7) F.pwrTrim_STEPS ∧
    (tTrim 800 800 0).fld (.pwrTrim 7) F.pwrTrim_STEPS = 0 ∧ tChanged.power.unwritten.getLsbD 7 = true ∧
    ({ tChanged with flash := (tRunning 3).flash } : State).goodBlocks arRecord ≠ [] := by decide +kernel

theorem test_ageing : gives (exec (.ageingSample [7, 9] (some 7) false) (tTrim 600 800 1)) (fun t =>
    t.fld (.pwrTrim 7) F.pwrTrim_STEPS == 2 && t.power.unwritten == 128) = true ∧
    gives (exec (.ageingSample [7] (some 7) false) (tTrim 800 800 0)) (fun t => !t.pointOn 7 &&
      t.fld .pwrEvent F.pwrEvent_AGEING_LIMIT == 1) = true := by decide +kernel

/-- The live update in a state, with a shadow image. -/
def tUpdate (st : Nat) (bad : Bool) : State :=
  { (tPower.setFld .pwrUpdateStatus F.pwrUpdateStatus_STATE st).setFld .pwrStatus F.pwrStatus_DROOP_EMERGENCY (bitNat bad) with
    power := { tPower.power with shadow := [1], stable := 10000 } }

theorem witness_update : (tUpdate upLoading false).updBusy = true ∧ (tUpdate upReady false).updBusy = false ∧
    (tUpdate upReady false).updState = upReady ∧ (tUpdate upEmpty false).updBusy = false ∧ (tUpdate upEmpty false).updState ≠ upReady ∧
    (tUpdate upDeferred false).switchDue = true ∧ (tUpdate upSwitching false).switchDue = true ∧
    (tUpdate upSwitching true).updState = upSwitching ∧ (tUpdate upSwitching true).emergency = true ∧
    (tUpdate upSwitching true).boothRuns = true ∧ (tUpdate upLoading false).updCause [1] ≠ 0 ∧
    (tUpdate upReady false).mayManage .booth = true ∧ (tUpdate upReady false).mayManage (.ep 0 0) = false ∧
    ((tUpdate upReady false).staged .booth 0 1).2 = none ∧ ((tUpdate upReady false).staged .booth 0 0).2 = some [] := by decide +kernel

/-- An image that passes R349 and its digests verifies. -/
theorem witness_update_ok (s : State) (c : List Byte) (h1 : ctCause s.storeRec 2 false c = 0) (h2 : ctLength c ≤ c.length)
    (h3 : ctDigests c = true) : s.updCause c = 0 := by
  simp [State.updCause, h1, h3, Nat.not_lt.mpr h2]

/-- A halted booth whose slot holds such an image is reloaded. -/
def tBoothHalted : State := { tPower with power := { tPower.power with halted := true } }

theorem witness_reload : tBoothHalted.power.halted = true ∧ tBoothHalted.inRecovery = false ∧ tPower.power.halted = false := by decide +kernel

theorem test_update : gives (exec (.updateActivate .booth) (tUpdate upReady true)) (fun t => t.updState == upDeferred) = true ∧
    gives (exec .activateTimeout (tUpdate upDeferred false)) (fun t => t.updState == upReady &&
      t.fld .pwrUpdateStatus F.pwrUpdateStatus_CAUSE == 9) = true ∧
    gives (exec (.updateDiscard .booth) (tUpdate upReady false)) (fun t => t.power.shadow == []) = true := by decide +kernel


/-! ## DRAM and midway words -/

/-- The first line of the booth's unit 0 as the booth wrote it, or as ring 3 did. -/
def tLine (owner : Word) : State := { tUp with dram := linePut { tUp.dram with unitOwner := [(0, 0x80)] } 0 (List.replicate 64 9) owner }

/-- One byte of the burst in error, and more than the code corrects. -/
def tOneFlip : List (Nat × Byte) := [(0, 1)]

/-- More than the code corrects. -/
def tManyFlips : List (Nat × Byte) := (List.range 20).map fun i => (i, 0xFF)

/-- What the check of line 0 finds. -/
def tVerdict (flips : List (Nat × Byte)) (s : State) : Verdict := checkLine (flipLine 0 flips s.dram) 0 0x80 none

theorem witness_dram_read : (tLine 0x80).dramAllowed .booth 0 64 = true ∧ Requester.booth.code = 0x80 ∧
    (tVerdict [] (tLine 0x80)).kind = 0 ∧ (tVerdict [] (tLine 0x80)).tagFixed = false ∧ (tVerdict [] (tLine 0x80)).corrected = false ∧
    (tVerdict tOneFlip (tLine 0x80)).kind = 0 ∧ (tVerdict tOneFlip (tLine 0x80)).tagFixed = false ∧
    (tVerdict tOneFlip (tLine 0x80)).corrected = true ∧ (tVerdict tManyFlips (tLine 0x80)).kind = 1 ∧
    (tVerdict [] (tLine 0x03)).kind = 3 ∧ Requester.booth.faults = none := by decide +kernel

theorem witness_no_internal : NoInternal (tLine 0x80) := by unfold NoInternal; decide +kernel

/-- Ring 0 has unit 2. -/
def tUnit : State := tRun.onRing 0 fun k => { k with manifest := tManifest }

theorem witness_dram_ring : tUnit.dramAllowed (.ring 0) 33554432 64 = true ∧ (Requester.ring 0).faults = some 0 ∧
    tUnit.mayFault 0 = true ∧ (checkLine (flipLine 524288 [] tUnit.dram) 524288 0 none).kind = 3 ∧
    tUnit.dramAllowed .app 33554432 64 = false ∧ Requester.app.faults = none := by decide +kernel

theorem witness_dram_write : Instr.WellFormed (.dramWrite .booth 0 0 (List.replicate 64 9) false none) ∧
    Instr.WellFormed (.dramWrite .booth 0 63 [1] true none) ∧ (tLine 0x80).dramAllowed .booth 63 1 = true ∧
    (checkLine (tLine 0x80).dram 0 0x80 none).kind = 0 ∧ (checkLine (tLine 0x03).dram 0 0x80 none).kind = 3 := by decide +kernel

theorem test_dram_write : gives (exec (.dramWrite .booth 0 63 [1] true none) (tLine 0x80)) (fun t =>
    smRead 0 t.dram.data 62 2 == [9, 1] && lineTag t.dram 0 == 0x180) = true ∧
    gives (exec (.dramRead .booth 0 5 none tOneFlip) (tLine 0x80)) (fun t => t.dram.writeBack == [0] &&
      t.fld (.ddrErrCount0 0) F.ddrErrCount0_CORRECTED == 1) = true ∧
    gives (exec (.dramRead (.ring 0) 1 33554432 none []) tUnit) (fun t => t.ringState 0 == stFaulted) = true := by decide +kernel

/-- The scrub is enabled. -/
def tScrub : State := (tLine 0x80).setFld .ddrScrubCtrl F.ddrScrubCtrl_ENABLE 1

/-- What the scrub finds. -/
def tScrubbed (flips : List (Nat × Byte)) : Verdict :=
  checkLine (flipLine 0 flips (writeBackAll tScrub.dram)) 0 ((lineTag (flipLine 0 flips (writeBackAll tScrub.dram)) 0).toNat % 256) none

theorem witness_scrub : tScrub.dramUsed = true ∧ 64 * 0 + 64 ≤ tScrub.dramSize ∧ tScrub.fld .ddrScrubCtrl F.ddrScrubCtrl_ENABLE = 1 ∧
    (tScrubbed []).kind = 0 ∧ (tScrubbed []).tagFixed = false ∧ (tScrubbed []).corrected = false ∧
    (tScrubbed tOneFlip).kind = 0 ∧ (tScrubbed tOneFlip).corrected = true ∧ (tScrubbed tManyFlips).kind = 1 ∧
    ((flipLine 0 tManyFlips (writeBackAll tScrub.dram)).scrubBad.contains 0) = false ∧
    ({ tScrub.dram with scrubBad := [0] } : Dram).scrubBad.contains 0 = true := by decide +kernel

theorem witness_mwy_scrub : (1048575 : Nat) < 1048576 ∧ (smGet 0 tUp.mwyBad 8388607).getLsbD 0 = false ∧
    (smGet 0 ({ tUp with mwyBad := [(8388607, 1)] } : State).mwyBad 8388607).getLsbD 0 = true := by decide +kernel

theorem test_scrub : gives (exec (.dramScrub 0 tOneFlip false) tScrub) (fun t => t.dram.flips == [] && t.dram.data ==
    (tLine 0x80).dram.data) = true ∧
    gives (exec (.mwyScrub 7 1048575 .uncorrectable) tUp) (fun t => t.mwyBad == [(8388607, 1)]) = true ∧
    gives (exec (.ecsCollect 7 5) tUp) (fun t => t.fld (.ddrEcsCount 7) F.ddrEcsCount_COUNT == 5) = true := by decide +kernel


/-! ## Tokens, the lifecycle, the power states -/

/-- A token of level INVASIVE for rings 0 and 7, its debug endpoint endpoint 0 of ring 0, with one block of a vendor root. -/
def tToken : List Byte :=
  leBytes 4 0x4C394454 ++ [1, 0, 2, 0x81] ++ leBytes 8 0 ++ List.replicate 32 0 ++ leBytes 4 0 ++ [0, 0, 1] ++ List.replicate 9 0 ++
    [0, 0, 0, 0] ++ List.replicate 384 1 ++ leBytes 4 65537 ++ List.replicate 0x308 0 ++ List.replicate 384 2 ++ List.replicate 48 0

/-- A Deployed device that runs. -/
def tOwned (lc : Nat) : State := { tRun with sec := (tLife lc).sec }

/-- Bytes in the booth's unit from line 1 on. -/
def tStaged (b : List Byte) (s : State) : State :=
  (({ s with dram := { s.dram with unitOwner := [(0, 0x80)] } } : State).ownWrite .booth 64 b).setReg (.secTokenSrc 0) 64

theorem witness_token_form : tokenForm tToken = true ∧ tToken.length = 1664 := by decide +kernel

/-- The first 64 bytes of a token without a count of blocks: the rest is not read. -/
def tShort : List Byte := (tToken.take 0x36) ++ List.replicate 10 0

theorem witness_token : ((tOwned lcDeployed).stagedToken .booth).2 = none ∧
    ((tStaged tShort (tOwned lcDeployed)).stagedToken .booth).2 = some tShort ∧
    ((tStaged tShort (tOwned lcDeployed)).stagedToken .booth).1.tokenCause tShort false ≠ 0 ∧
    (tOwned lcDeployed).mayManage .booth = true ∧ (tOwned lcDeployed).mayManage (.ep 1 0) = false ∧
    bitAt (leAt tToken 7 1) 1 = false := by decide +kernel

/-- Ring 1 stages a token that does not name it: the first bytes of unit 2. -/
def tForeign : State :=
  let s := (tOwned lcDeployed).onRing 1 fun k => { k with bound := true, manifest := tManifest }
  (s.dramWrite (.boothFor 1) (noCommand 1) 0 33554432 (cleanBytes tShort)).1.setReg (.secTokenSrc 0) 33554432

theorem witness_token_foreign : (tForeign.stagedToken (.ep 1 0)).2 = some tShort ∧ bitAt (leAt tShort 7 1) 1 = false ∧
    tForeign.mayManage (.ep 1 0) = false := by decide +kernel

/-- A token of this device, of the present epoch, that is signed, passes. Its signature and its KEY_ID rest on RSA, SHA-256
and the PUF, which the model leaves open. -/
theorem witness_token_ok (s : State) (t : List Byte) (h1 : tokenForm t = true) (h2 : s.recordValid = true)
    (h3 : leAt t 8 8 = s.serial) (h4 : part t 0x10 32 = s.keyId) (h5 : leAt t 0x30 4 = s.storeRec.debugEpoch)
    (h6 : s.tokenSigned t = true) (h7 : leAt t 6 1 = 2) (h8 : s.tokenEndpoint t = true) : s.tokenCause t false = 0 := by
  simp [State.tokenCause, h1, h2, h3, h4, h5, h6, h7, h8]

/-- Ring 0 at level TRACE. -/
def tTraced : State := (tOwned lcDeployed).setReg (.secRingDebug 0) (debugWord 1 0 0)

theorem witness_end_debug : tTraced.mayManage .booth = true ∧ tTraced.fld (.secRingDebug 0) F.secRingDebug_LEVEL ≠ 0 ∧
    tTraced.lifecycle ≠ lcBlank ∧ (0 : Fin 8).val ≠ (1 : Fin 16).val ∧ tTraced.mayManage (.ep 0 0) = false := by decide +kernel

theorem test_end_debug : gives (exec (.endDebug 0 .booth) tTraced) (fun t => t.reg (.secRingDebug 0) == 0 &&
    t.fld .secEvent F.secEvent_DEBUG_ENDED == 1) = true ∧
    gives (exec (.endDebug 1 (.ep 0 0)) tTraced) (fun t => t.reg .secResult == 0x89800000) = true := by decide +kernel

/-- The same while VDD_AON is low, with a request that waits. -/
def tHeldStore (q : Option SecRequest) : State :=
  { tOwned lcProvisioned with sec := { (tOwned lcProvisioned).sec with aonLow := true, request := q } }

/-- A Provisioned device whose running slot is CONFIRMED. -/
def tReady : State := { tRunning 3 with sec := (tLife lcProvisioned).sec }

theorem witness_lifecycle : tReady.lifecycle = lcProvisioned ∧ tReady.inRecovery = false ∧
    (tReady.header tReady.runningSlot).state = 3 ∧ tReady.sec.request = none ∧ tReady.sec.aonLow = false ∧
    tReady.storeRec.seq + 1 < 2 ^ 32 ∧ (tOwned lcDeployed).lifecycle = lcDeployed ∧ (tOwned lcReturned).lifecycle = lcReturned ∧
    ((tOwned lcDeployed).lifecycleCause .booth 3).2 ≠ 0 ∧ (tReady.lifecycleCause .booth 3).2 = 0 ∧
    ((tHeldStore none).lifecycleCause .booth 5).2 = 0 ∧ (tHeldStore none).sec.aonLow = true ∧
    (tHeldStore (some ⟨3⟩)).sec.request.isSome = true ∧ (tHeldStore none).boot.confirmStep ≠ 1 ∧
    (tHeldStore none).boot.phase ≠ .romHeld ∧ tReady.boot.phase = .handedOver ∧ (tOwned lcBlank).lifecycle = lcBlank := by
  decide +kernel

/-- What VDD_AON held: the ROM's first step, a confirmation. -/
theorem witness_aon_back : (tOwned lcDeployed).sec.request = none ∧ (tOwned lcDeployed).boot.confirmStep ≠ 1 ∧
    (tOwned lcDeployed).boot.phase ≠ .romHeld ∧
    ({ tOwes with boot := { tOwes.boot with phase := .romHeld } } : State).boot.phase = .romHeld ∧ tOwes.boot.owesEpoch = true ∧
    tOwes.sec.request = none ∧ tOwes.boot.confirmStep ≠ 1 ∧
    ({ tLow 2 with boot := { (tLow 2).boot with confirmStep := 1 } } : State).boot.confirmStep = 1 ∧
    (tLow 2).sec.request = none ∧ (tLow 2).boot.phase ≠ .romHeld := by decide +kernel

theorem test_deploy : gives (exec (.deploy .booth) tReady) (fun t => t.lifecycle == lcDeployed && t.storeRec.seq == 2) = true ∧
    gives (exec (.vddAonStoreHold false) (tHeldStore (some ⟨3⟩))) (fun t => t.lifecycle == lcDeployed) = true ∧
    gives (exec (.scrap .booth) (tOwned lcReturned)) (fun t => t.lifecycle == lcScrapped && t.boot.phase == .stopped) = true := by
  decide +kernel

/-- No ring of the device is busy. -/
def tResting : State := { tUp with sec := (tLife lcDeployed).sec }

theorem witness_standby : tResting.mayManage .booth = true ∧ tResting.lifecycle ≠ lcBlank ∧ tResting.ringsBusy = false ∧
    tResting.writesBusy = false ∧ tResting.updBusy = false ∧ (tOwned lcDeployed).ringsBusy = true ∧
    tInstall.writesBusy = true ∧ tResting.boot.phase = .handedOver ∧ (∀ p : Fin 4, tResting.portState p ≠ ptUp) ∧
    stoppable ((tOwned lcDeployed).ringState 0) = true ∧ (tOwned lcDeployed).writesBusy = false := by decide +kernel

theorem test_standby : gives (exec (.standby .booth) tResting) (fun t => t.inStandby) = true ∧
    gives (exec (.deepStandby .booth) (tOwned lcDeployed)) (fun t => t.pins.dstby && t.ringState 0 == stStopped) = true ∧
    gives (exec .keyGenDone tResting) (fun t => t.keyReady) = true := by decide +kernel


/-! ## The TAP and debug -/

/-- A start waits for the TAP. -/
def tDeferred : State := { tFree lcBlank with pins := { (tFree lcBlank).pins with deferred := 1, tapIr := 0 } }

theorem witness_tap : tUp.pins.deferred = 0 ∧ tUp.pins.rails.getLsbD 0 = false ∧ tUp.heldReset = false ∧
    State.reset.heldReset = true ∧ tDeferred.pins.deferred ≠ 0 ∧ tDeferred.heldReset = false ∧
    ({ tUp with pins := { tUp.pins with rails := 1 } } : State).pins.rails.getLsbD 0 = true := by decide +kernel

theorem test_tap : gives (exec .extest State.reset) (fun t => t.pins.tapIr == 0) = true ∧
    gives (exec .extest tUp) (fun t => t.pins.tapIr == 0xFF) = true ∧
    gives (exec .bypass tDeferred) (fun t => t.boot.phase == .listener && t.pins.deferred == 0) = true ∧
    gives (exec (.privateDebug 0x80) (tUp.setFld .secStatus F.secStatus_FULL 1)) (fun t => t.pins.tapIr == 0x80) = true := by
  decide +kernel

/-- Ring 0 at level INVASIVE, its debug endpoint endpoint 7 of ring 7. -/
def tDebugged : State := tUnit.setReg (.secRingDebug 0) (debugWord 2 7 7)

/-- The place that DBG_ACC_ADDR of ring 0 names. -/
def tPlace (hi lo : Word) : State := tDebugged.setRegs [(.dbgAccAddr 0 0, lo), (.dbgAccAddr 0 1, hi)]

theorem witness_debug : tDebugged.debugRight 0 2 (.ep 7 7) = true ∧ tDebugged.debugRight 0 2 (.ep 7 6) = false ∧
    tDebugged.inStandby = false ∧ (tDebugged.setFld .secStatus F.secStatus_POWER 2).inStandby = true ∧
    (tDebugged.ring 0).halted = false ∧ ((tDebugged.onRing 0 fun k => { k with halted := true }).ring 0).halted = true ∧
    (tPlace 0 4).debugPlace 0 = .cm 0 4 ∧ (tPlace 0x40000000 4).debugPlace 0 = .mwy 4 ∧
    (tPlace 0x80000000 33554432).debugPlace 0 = .dram 33554432 ∧ (tPlace 0xC0000000 0).debugPlace 0 = .outside ∧
    (tPlace 0x04000000 4).debugPlace 0 = .outside := by decide +kernel

/-- A record of ring 0. -/
def tFault : FaultRec := ⟨1, 8, 0, 0, 0x80, 9, 0, 0, []⟩

/-- Records at the heads of the queues. -/
def tFaulty : State := { tRun.onRing 0 fun k => { k with faults := [tFault] } with devFaults := [tFault] }

theorem witness_pop : tFaulty.devFaults = [tFault] ∧ (tFaulty.ring 0).faults = [tFault] ∧ tFaulty.mayManage .booth = true ∧
    tFaulty.mayManage (.ep 0 0) = false ∧ tFaulty.ringAccess 0 (.ep 1 0) = false := by decide +kernel

theorem witness_pop_heard : Heard tFaulty 0 (.ep 0 0) := by unfold Heard MayAsk; decide +kernel

/-- Core 0 with a trace record, in a MODE, with SYNC enabled. -/
def tTrace (mode : Nat) (l : List TraceRec) : State :=
  ((tCore fun k => { k with trace := l }).setReg (.dbgTraceCtrl 0) (BitVec.ofNat 32 (2 ^ evSync))).setFld (.dbgTraceCtrl 0)
    F.dbgTraceCtrl_MODE mode

theorem witness_trace : (tTrace 4 [⟨1, 2, 3, 4⟩]).ringOfCore 0 = some 0 ∧
    (tTrace 4 [⟨1, 2, 3, 4⟩]).fld (.dbgTraceCtrl 0) F.dbgTraceCtrl_MODE = 4 ∧ ((tTrace 4 [⟨1, 2, 3, 4⟩]).core 0).trace ≠ [] ∧
    ((tTrace 1 []).core 0).trace = [] ∧ ((tTrace 1 []).tracing 0 0 && (tTrace 1 []).traceWants 0 evSync 0) = true ∧
    (tTrace 1 []).fld (.dbgTraceCtrl 0) F.dbgTraceCtrl_MODE = 1 ∧ (tTrace 0 []).fld (.dbgTraceCtrl 0) F.dbgTraceCtrl_MODE = 0 ∧
    ((tTrace 1 []).core 0).traceTaken ((tTrace 1 []).count (coreIsland 0)) < 2 ∧ ((tTrace 1 []).core 0).trace.length < 4096 := by
  decide +kernel

/-- A SYNC marker is on its way to core 0. -/
def tSync : State := { tTrace 1 [] with cross := [(.concourseToCore 0, .sync 5)] }

theorem witness_sync : tSync.clockRuns (coreIsland 0) = true ∧
    takeCross (.concourseToCore 0) tSync.cross = some (.sync 5, []) ∧ tSync.ringOfCore 0 = some 0 ∧
    (tSync.tracing 0 0 && tSync.traceWants 0 evSync 0) = true := by decide +kernel

theorem test_debug : gives (exec (.dbgAccWrite 0 0x01020304 (.ep 7 7)) (tPlace 0x40000000 4)) (fun t =>
    t.mwy == [(4, 4), (5, 3), (6, 2), (7, 1)]) = true ∧
    gives (exec (.dbgStep 0 none 1 (.ep 7 7)) (tDebugged.onRing 0 fun k => { k with halted := true })) (fun t =>
      (t.queue 0 0).stepNow && !(t.queue 0 1).stepNow) = true ∧
    gives (exec (.dbgHalt 0 (.ep 7 7)) tDebugged) (fun t => !t.issuing 0 0 0) = true := by decide +kernel

theorem test_pop : gives (exec (.faultPop (some 0) 9 (.ep 0 0)) tFaulty) (fun t => (t.ring 0).faults == []) = true ∧
    gives (exec (.faultPop none 8 .booth) tFaulty) (fun t => t.devFaults == [tFault]) = true := by decide +kernel

theorem test_sync : gives (exec (.syncMarker 0) (tTrace 1 [])) (fun t => t.cross == [(.concourseToCore 0, .sync 0)]) = true ∧
    gives (exec (.crossingDeliver (.concourseToCore 0)) tSync) (fun t => t.cross == [] &&
      ((t.core 0).trace.map fun x => (x.event, x.operand)) == [(BitVec.ofNat 16 evSync, 0)]) = true := by decide +kernel


/-! ## The whole machine -/

theorem witness_memory : Memory.wf tRun ∧ Memory.wf (tLine 0x80) ∧ Memory.wf (tRunning 3) ∧ Memory.wf (tOwned lcDeployed) := by
  decide +kernel

theorem witness_queues : QueuesFit tFaulty ∧ QueuesFit tSync := by
  unfold QueuesFit FlagsInOrder
  and_intros <;> first
    | decide +kernel
    | (intro x
       exact le_trans (by simp only [State.crossOf, List.length_map]; exact List.length_filter_le _ _) (by decide +kernel))

theorem witness_front : gives (step { tUp with pending := [.currentLimit] }) (fun t => t.pending == []) = true := by decide +kernel

/-- A core whose gathering buffer holds two lines. -/
def tGathers : State := tCore fun k => { k with gather := [⟨1, 0xFF, 1⟩, ⟨2, 7, 3⟩] }

theorem witness_gather : ((tGathers.core 0).gather.map fun g => g.line).Nodup ∧ (tGathers.core 0).gather.length ≤ 8 ∧
    NoErrors (tGathers.core 0) := by
  unfold NoErrors
  decide +kernel

theorem witness_correctable : Correctable (tGathers.core 0) := by
  intro w
  have h0 : (tGathers.core 0).memFlips = [] := by decide +kernel
  rw [h0]
  simp [eccOf, smRead, smGet]

theorem witness_exponent : quantFmt 2 = some .int8 ∧ f32.decode 0x3F800000 = .fin false 8388608 (-23) ∧
    largest [0x3F800000, 0xBF000000] = 0x3F800000 := by decide +kernel

theorem witness_exponent_range : (∃ E : Nat, E ≤ 255 ∧ ((8388608 : Nat) : ℚ) * 2 ^ (-23 : Int) ≤
    (fmtMax .int8 : ℚ) * 2 ^ ((E : Int) - 127)) ∧
    ∀ E : Nat, E ≤ 255 → (fmtMax .int8 : ℚ) * 2 ^ ((E : Int) - 127) < ((16777215 : Nat) : ℚ) * 2 ^ (200 : Int) := by
  refine ⟨⟨127, by decide, by norm_num [fmtMax]⟩, fun E hE => ?_⟩
  have h : (2 : ℚ) ^ ((E : Int) - 127) ≤ 2 ^ (128 : Int) := zpow_le_zpow_right₀ (by norm_num) (by omega)
  have hm : (fmtMax .int8 : ℚ) ≤ 1000 := by norm_num [fmtMax]
  calc (fmtMax .int8 : ℚ) * 2 ^ ((E : Int) - 127) ≤ 1000 * 2 ^ (128 : Int) :=
        mul_le_mul hm h (by positivity) (by norm_num)
    _ < ((16777215 : Nat) : ℚ) * 2 ^ (200 : Int) := by norm_num

theorem witness_flags_kept : tWaiting.headReady 0 = some tInvocation ∧ tWaiting.canClaim 0 tInvocation.slot = true ∧
    (tRing stStopping).ringState 0 = stStopping ∧ (tRing stStopping).flagsDrained 0 = true ∧
    (tRing stStopping).answersWait 0 = false ∧
    ((tRing stStopping).ring 0).bound = true := by decide +kernel

theorem test_derived : derivedExp .int8 0x3F800000 = 121 ∧ derivedExp .code8 0x3F800000 = 127 ∧ derivedExp .int8 0x7F7FFFFF = 249 := by
  decide +kernel

/-- The example of R178: four channels with one rank of x8 devices, address 0x3_C000_1A40. -/
theorem test_dram_site : let s := State.reset.setReg .ddrConfig (BitVec.ofNat 32 (15 * 2 ^ 25 + 2 ^ 21))
    (s.subOf 0x3C0001A40, s.dramSite 0x3C0001A40) = (2, 3, 0, 0, 15360, 16) := by decide +kernel
end

section
/-! SUPPORT. The addresses of the registers. An address names its window of 1 MiB, the block within the window and the
offset within the block (R310, R311); one lemma per window says which table of registers it leads to. -/

namespace Sys2Proof.Machine

/-! ## Offsets within a block -/

/-- The offset within its block of a word of an array. -/
theorem offset_mod {b j n : Nat} (h : b % n + j < n) : (b + j) % n = b % n + j := by
  rw [← Nat.mod_add_mod, Nat.mod_eq_of_lt h]

/-- The same, where blocks repeat at a stride. -/
theorem offset_mod_stride {b j n : Nat} (i : Nat) (h : b % n + j < n) : (b + n * i + j) % n = b % n + j := by
  rw [Nat.add_right_comm, Nat.add_mul_mod_self_left, offset_mod h]

/-! ## The windows -/

theorem ofAddr_core (c : Fin 16) {a : Nat} (h : a / 0x1000 = 0x100 + c.val) :
    Reg.ofAddr a = Reg.atCore c (a % 0x1000) := by
  have hw : a / 0x100000 = 1 := by omega
  have hi : a % 0x100000 / 0x1000 = c.val := by omega
  simp [Reg.ofAddr, hw, hi]

theorem ofAddr_ring (r : Fin 8) {a : Nat} (h : a / 0x1000 = 0x1100 + r.val) :
    Reg.ofAddr a = Reg.atRing r (a % 0x1000) := by
  have hw : a / 0x100000 = 17 := by omega
  have hi : a % 0x100000 / 0x1000 = r.val := by omega
  simp [Reg.ofAddr, hw, hi]

theorem ofAddr_ctx (x : Fin 4096) {a : Nat} (h : a / 0x80 = 0x24000 + x.val) :
    Reg.ofAddr a = Reg.atCtx x (a % 0x80) := by
  have hw : a / 0x100000 = 18 := by omega
  have hi : a % 0x100000 / 0x80 = x.val := by omega
  simp [Reg.ofAddr, hw, hi]

theorem ofAddr_slice (m : Fin 8) {a : Nat} (h : a / 0x1000 = 0x2100 + m.val) :
    Reg.ofAddr a = Reg.atSlice m (a % 0x1000) := by
  have hw : a / 0x100000 = 33 := by omega
  have hi : a % 0x100000 / 0x1000 = m.val := by omega
  simp [Reg.ofAddr, hw, hi]

theorem ofAddr_ddr {a : Nat} (h : a / 0x100000 = 0x40) : Reg.ofAddr a = Reg.atDdr (a % 0x100000) := by
  simp [Reg.ofAddr, h]

theorem ofAddr_sub (u : Fin 8) {a : Nat} (h : a / 0x1000 = 0x4100 + u.val) :
    Reg.ofAddr a = Reg.atSub u (a % 0x1000) := by
  have hw : a / 0x100000 = 65 := by omega
  have hi : a % 0x100000 / 0x1000 = u.val := by omega
  simp [Reg.ofAddr, hw, hi]

theorem ofAddr_rx (x : Fin 16) {a : Nat} (h : a / 0x1000 = 0x5100 + x.val) :
    Reg.ofAddr a = Reg.atRx x (a % 0x1000) := by
  have hw : a / 0x100000 = 81 := by omega
  have hi : a % 0x100000 / 0x1000 = x.val := by omega
  simp [Reg.ofAddr, hw, hi]

theorem ofAddr_fe (x : Fin 64) {a : Nat} (h : a / 0x4000 = 0x1480 + x.val) :
    Reg.ofAddr a = Reg.atFe x (a % 0x4000) := by
  have hw : a / 0x100000 = 82 := by omega
  have hi : a % 0x100000 / 0x4000 = x.val := by omega
  simp [Reg.ofAddr, hw, hi]

theorem ofAddr_cdc (x : Fin 16) {a : Nat} (h : a / 0x1000 = 0x6100 + x.val) :
    Reg.ofAddr a = Reg.atCdc x (a % 0x1000) := by
  have hw : a / 0x100000 = 97 := by omega
  have hi : a % 0x100000 / 0x1000 = x.val := by omega
  simp [Reg.ofAddr, hw, hi]

theorem ofAddr_smp (x : Fin 16) {a : Nat} (h : a / 0x1000 = 0x7100 + x.val) :
    Reg.ofAddr a = Reg.atSmp x (a % 0x1000) := by
  have hw : a / 0x100000 = 113 := by omega
  have hi : a % 0x100000 / 0x1000 = x.val := by omega
  simp [Reg.ofAddr, hw, hi]

theorem ofAddr_eth (p : Fin 4) {a : Nat} (h : a / 0x1000 = 0x8100 + p.val) :
    Reg.ofAddr a = Reg.atEth p (a % 0x1000) := by
  have hw : a / 0x100000 = 129 := by omega
  have hi : a % 0x100000 / 0x1000 = p.val := by omega
  simp [Reg.ofAddr, hw, hi]

theorem ofAddr_ep (e : Fin 64) {a : Nat} (h : a / 0x1000 = 0x9100 + e.val) :
    Reg.ofAddr a = Reg.atEp e (a % 0x1000) := by
  have hw : a / 0x100000 = 145 := by omega
  have hi : a % 0x100000 / 0x1000 = e.val := by omega
  simp [Reg.ofAddr, hw, hi]

theorem ofAddr_rs (t : Fin 128) {a : Nat} (h : a / 0x1000 = 0x9200 + t.val) :
    Reg.ofAddr a = Reg.atRs t (a % 0x1000) := by
  have hw : a / 0x100000 = 146 := by omega
  have hi : a % 0x100000 / 0x1000 = t.val := by omega
  simp [Reg.ofAddr, hw, hi]

theorem ofAddr_slot (r : Fin 8) {a : Nat} (h : a / 0x1000 = 0x9300 + r.val) :
    Reg.ofAddr a = Reg.atSlot r (a % 0x1000) := by
  have hw : a / 0x100000 = 147 := by omega
  have hi : a % 0x100000 / 0x1000 = r.val := by omega
  simp [Reg.ofAddr, hw, hi]

theorem ofAddr_trz {a : Nat} (h : a / 0x100000 = 0xA0) : Reg.ofAddr a = Reg.atTrz (a % 0x100000) := by
  simp [Reg.ofAddr, h]

theorem ofAddr_port (p : Fin 4) {a : Nat} (h : a / 0x1000 = 0xA100 + p.val) :
    Reg.ofAddr a = Reg.atPort p (a % 0x1000) := by
  have hw : a / 0x100000 = 161 := by omega
  have hi : a % 0x100000 / 0x1000 = p.val := by omega
  simp [Reg.ofAddr, hw, hi]

theorem ofAddr_win (w : Fin 256) {a : Nat} (h : a / 0x1000 = 0xA200 + w.val) :
    Reg.ofAddr a = Reg.atWin w (a % 0x1000) := by
  have hw : a / 0x100000 = 162 := by omega
  have hi : a % 0x100000 / 0x1000 = w.val := by omega
  simp [Reg.ofAddr, hw, hi]

theorem ofAddr_boot {a : Nat} (h : a / 0x100000 = 0xB0) : Reg.ofAddr a = Reg.atBoot (a % 0x100000) := by
  simp [Reg.ofAddr, h]

theorem ofAddr_fls {a : Nat} (h : a / 0x100000 = 0xC0) : Reg.ofAddr a = Reg.atFls (a % 0x100000) := by
  simp [Reg.ofAddr, h]

theorem ofAddr_pwr {a : Nat} (h : a / 0x100000 = 0xD0) : Reg.ofAddr a = Reg.atPwr (a % 0x100000) := by
  simp [Reg.ofAddr, h]

theorem ofAddr_pwrRing (r : Fin 8) {a : Nat} (h : a / 0x1000 = 0xD100 + r.val) :
    Reg.ofAddr a = Reg.atPwrRing r (a % 0x1000) := by
  have hw : a / 0x100000 = 209 := by omega
  have hi : a % 0x100000 / 0x1000 = r.val := by omega
  simp [Reg.ofAddr, hw, hi]

theorem ofAddr_sec {a : Nat} (h : a / 0x100000 = 0xE0) : Reg.ofAddr a = Reg.atSec (a % 0x100000) := by
  simp [Reg.ofAddr, h]

theorem ofAddr_dbgCore (c : Fin 16) {a : Nat} (h : a / 0x1000 = 0xF100 + c.val) :
    Reg.ofAddr a = Reg.atDbgCore c (a % 0x1000) := by
  have hw : a / 0x100000 = 241 := by omega
  have hi : a % 0x100000 / 0x1000 = c.val := by omega
  simp [Reg.ofAddr, hw, hi]

theorem ofAddr_dbgRing (r : Fin 8) {a : Nat} (h : a / 0x1000 = 0xF200 + r.val) :
    Reg.ofAddr a = Reg.atDbgRing r (a % 0x1000) := by
  have hw : a / 0x100000 = 242 := by omega
  have hi : a % 0x100000 / 0x1000 = r.val := by omega
  simp [Reg.ofAddr, hw, hi]

theorem ofAddr_err {a : Nat} (h : a / 0x100000 = 0x100) : Reg.ofAddr a = Reg.atErr (a % 0x100000) := by
  simp [Reg.ofAddr, h]

theorem ofAddr_errCore (c : Fin 16) {a : Nat} (h : a / 0x1000 = 0x10100 + c.val) :
    Reg.ofAddr a = Reg.atErrCore c (a % 0x1000) := by
  have hw : a / 0x100000 = 257 := by omega
  have hi : a % 0x100000 / 0x1000 = c.val := by omega
  simp [Reg.ofAddr, hw, hi]

theorem ofAddr_errSlice (m : Fin 8) {a : Nat} (h : a / 0x1000 = 0x10200 + m.val) :
    Reg.ofAddr a = Reg.atErrSlice m (a % 0x1000) := by
  have hw : a / 0x100000 = 258 := by omega
  have hi : a % 0x100000 / 0x1000 = m.val := by omega
  simp [Reg.ofAddr, hw, hi]

theorem ofAddr_errRing (r : Fin 8) {a : Nat} (h : a / 0x1000 = 0x10300 + r.val) :
    Reg.ofAddr a = Reg.atErrRing r (a % 0x1000) := by
  have hw : a / 0x100000 = 259 := by omega
  have hi : a % 0x100000 / 0x1000 = r.val := by omega
  simp [Reg.ofAddr, hw, hi]

/-! ## The registers -/

/-- A register's address leads back to the register: its window, its block and its offset do. -/
theorem ofAddr_addr (r : Reg) : Reg.ofAddr r.addr = some r := by
  cases r with
  | ddrConfig | ddrStatus | ddrScrubCtrl | ddrErrInfo | trsEthertype | trsIntBase | trzSystemStatus | trzSystemCtrl
  | trzLagConfig | trzLagEvent | trzRemoteStatus | bootStatus | bootVersion | bootNet | bootControl
  | bootInstallLen | bootInstallStatus | bootEvent | bootRomReads | flsStatus | flsGeometry | flsCtrl
  | flsRecordStatus | pwrCap | pwrStatus | pwrThrottleCause | pwrPower | pwrVcore | pwrTemp | pwrUpdateLen
  | pwrUpdateCtrl | pwrUpdateStatus | pwrEvent | pwrLockstepCount | secStatus | secDebugEpoch | secCtrl | secResult
  | secEvent | secKeyRefused | errDevFaultPop | errDevFaultStatus => rfl
  | coreColwidth c | coreArrayStatus c | coreArrayHoldOperand c | coreArrayHoldDrain c | coreArrayPoisonTag c
  | coreQuantStatus c | coreQuantSaturated c | coreQuantRedone c | coreQuantEventTag c | coreSeqStatus c
  | coreVecHold c | coreMemStatus c | coreMemFrozen c | coreUnfoldStatus c | coreUnfoldPadBlocks c
  | coreUnfoldReadLines c | coreUnfoldErrTag c =>
    rw [Reg.addr, ofAddr_core c (by omega), Nat.add_mul_mod_self_left]; rfl
  | coreArrayMacSlots c k | coreHeadTag c k | coreFlags c k | coreMemWaitMax c k =>
    rw [Reg.addr, ofAddr_core c (by omega), offset_mod_stride _ (by omega)]; grind [Reg.atCore]
  | ringManifestStatus r | ringResources r | ringControl r | ringEvent r | ringSeqStatus r | ringFlagWrite r
  | ringInvokeDropped r | ringHint r | ringMwyRedirect r | ringCtxCtrl r | ringCtxPoolMwy r | ringCtxFree r
  | ringCtxFreeMwy r | ringCtxEvent r | ringCtxPagesOut r | ringCtxPagesIn r =>
    rw [Reg.addr, ofAddr_ring r (by omega), Nat.add_mul_mod_self_left]; rfl
  | ringFlags r k | ringCtxPool r k =>
    rw [Reg.addr, ofAddr_ring r (by omega), offset_mod_stride _ (by omega)]; grind [Reg.atRing]
  | ringCtxStatus x =>
    rw [Reg.addr, ofAddr_ctx x (by omega), Nat.add_mul_mod_self_left]; rfl
  | ringCtxDesc x k =>
    rw [Reg.addr, ofAddr_ctx x (by omega), offset_mod_stride _ (by omega)]; grind [Reg.atCtx]
  | mwySliceStatus m =>
    rw [Reg.addr, ofAddr_slice m (by omega), Nat.add_mul_mod_self_left]; rfl
  | mwyWaitMax m k =>
    rw [Reg.addr, ofAddr_slice m (by omega), offset_mod_stride _ (by omega)]; grind [Reg.atSlice]
  | ddrErrAddr k =>
    rw [Reg.addr, ofAddr_ddr (by omega), offset_mod (by omega)]; grind [Reg.atDdr]
  | ddrErrCount0 u | ddrErrCount1 u | ddrEcsCount u =>
    rw [Reg.addr, ofAddr_sub u (by omega), Nat.add_mul_mod_self_left]; rfl
  | ddrWaitMax u k =>
    rw [Reg.addr, ofAddr_sub u (by omega), offset_mod_stride _ (by omega)]; grind [Reg.atSub]
  | feRxStatus x | feRxDropped x =>
    rw [Reg.addr, ofAddr_rx x (by omega), Nat.add_mul_mod_self_left]; rfl
  | feStreamCtrl x | feStreamStatus x | feStreamDropped x | feStreamTsLate x =>
    rw [Reg.addr, ofAddr_fe x (by omega), Nat.add_mul_mod_self_left]; rfl
  | feStreamDesc x k | feIspParam x k =>
    rw [Reg.addr, ofAddr_fe x (by omega), offset_mod_stride _ (by omega)]; grind [Reg.atFe]
  | cdcSessionCtrl x | cdcSessionStatus x | cdcSessionWptr x | cdcSessionRptr x | cdcEncSkipped x =>
    rw [Reg.addr, ofAddr_cdc x (by omega), Nat.add_mul_mod_self_left]; rfl
  | cdcSessionDesc x k =>
    rw [Reg.addr, ofAddr_cdc x (by omega), offset_mod_stride _ (by omega)]; grind [Reg.atCdc]
  | smpChanCtrl x | smpChanStatus x | smpChanCost x | smpChanLastBudget x | smpChanDelivered x | smpChanRefused x
  | smpChanLate x =>
    rw [Reg.addr, ofAddr_smp x (by omega), Nat.add_mul_mod_self_left]; rfl
  | smpChanDesc x k =>
    rw [Reg.addr, ofAddr_smp x (by omega), offset_mod_stride _ (by omega)]; grind [Reg.atSmp]
  | ethPortStatus p =>
    rw [Reg.addr, ofAddr_eth p (by omega), Nat.add_mul_mod_self_left]; rfl
  | ethPortCount p k =>
    rw [Reg.addr, ofAddr_eth p (by omega), offset_mod_stride _ (by omega)]; grind [Reg.atEth]
  | trsEpConfig e | trsEpStatus e =>
    rw [Reg.addr, ofAddr_ep e (by omega), Nat.add_mul_mod_self_left]; rfl
  | trsEpPeer e k | trsEpCount e k =>
    rw [Reg.addr, ofAddr_ep e (by omega), offset_mod_stride _ (by omega)]; grind [Reg.atEp]
  | trsRstreamCtrl t | trsRstreamStatus t =>
    rw [Reg.addr, ofAddr_rs t (by omega), Nat.add_mul_mod_self_left]; rfl
  | trsRstreamDesc t k | trsRstreamCount t k =>
    rw [Reg.addr, ofAddr_rs t (by omega), offset_mod_stride _ (by omega)]; grind [Reg.atRs]
  | trsSlotState r k =>
    rw [Reg.addr, ofAddr_slot r (by omega), offset_mod_stride _ (by omega)]; grind [Reg.atSlot]
  | trzDistribution k =>
    rw [Reg.addr, ofAddr_trz (by omega), offset_mod (by omega)]; grind [Reg.atTrz]
  | trzPortStatus p =>
    rw [Reg.addr, ofAddr_port p (by omega), Nat.add_mul_mod_self_left]; rfl
  | trzPortCount p k =>
    rw [Reg.addr, ofAddr_port p (by omega), offset_mod_stride _ (by omega)]; grind [Reg.atPort]
  | trzWindowLength w | trzWindowAttr w | trzWindowCtrl w | trzWindowStatus w =>
    rw [Reg.addr, ofAddr_win w (by omega), Nat.add_mul_mod_self_left]; rfl
  | trzWindowBase w k | trzWindowPermit w k | trzWindowCount w k =>
    rw [Reg.addr, ofAddr_win w (by omega), offset_mod_stride _ (by omega)]; grind [Reg.atWin]
  | bootSlotState k | bootSlotVersion k | bootSlotSeq k | bootInstallSrc k =>
    rw [Reg.addr, ofAddr_boot (by omega), offset_mod (by omega)]; grind [Reg.atBoot]
  | flsCount k | flsRecordSrc k =>
    rw [Reg.addr, ofAddr_fls (by omega), offset_mod (by omega)]; grind [Reg.atFls]
  | pwrTrim k | pwrUpdateSrc k =>
    rw [Reg.addr, ofAddr_pwr (by omega), offset_mod (by omega)]; grind [Reg.atPwr]
  | pwrRingCtrl r | pwrRingStatus r | pwrRingExcursion r =>
    rw [Reg.addr, ofAddr_pwrRing r (by omega), Nat.add_mul_mod_self_left]; rfl
  | pwrRingThrottleUs r k =>
    rw [Reg.addr, ofAddr_pwrRing r (by omega), offset_mod_stride _ (by omega)]; grind [Reg.atPwrRing]
  | secEpoch k | secRingDebug k | secTokenSrc k =>
    rw [Reg.addr, ofAddr_sec (by omega), offset_mod (by omega)]; grind [Reg.atSec]
  | dbgTraceCtrl c | dbgTraceDump c | dbgTraceWptr c | dbgTraceLost c =>
    rw [Reg.addr, ofAddr_dbgCore c (by omega), Nat.add_mul_mod_self_left]; rfl
  | dbgRingCtrl r | dbgAccData r | dbgAccStatus r =>
    rw [Reg.addr, ofAddr_dbgRing r (by omega), Nat.add_mul_mod_self_left]; rfl
  | dbgAccAddr r k =>
    rw [Reg.addr, ofAddr_dbgRing r (by omega), offset_mod_stride _ (by omega)]; grind [Reg.atDbgRing]
  | errDevFaultRecord k =>
    rw [Reg.addr, ofAddr_err (by omega), offset_mod (by omega)]; grind [Reg.atErr]
  | errCoreEcc c =>
    rw [Reg.addr, ofAddr_errCore c (by omega), Nat.add_mul_mod_self_left]; rfl
  | errSliceEcc m | errSliceScrub m =>
    rw [Reg.addr, ofAddr_errSlice m (by omega), Nat.add_mul_mod_self_left]; rfl
  | errRingFaultPop r | errRingFaultStatus r | errRingFaultCfg r =>
    rw [Reg.addr, ofAddr_errRing r (by omega), Nat.add_mul_mod_self_left]; rfl
  | errRingFaultRecord r k =>
    rw [Reg.addr, ofAddr_errRing r (by omega), offset_mod_stride _ (by omega)]; grind [Reg.atErrRing]

theorem addr_mod_four (r : Reg) : r.addr % 4 = 0 := by
  cases r <;> simp only [Reg.addr] <;> omega

theorem addr_injective : Function.Injective Reg.addr := by
  intro r q h
  exact Option.some.inj (by rw [← ofAddr_addr r, h, ofAddr_addr])

/-- Settles O56: the window, the block and the offset of each register lead back to it. -/
theorem registerAddressesLeadBack : Obligations.RegisterAddressesLeadBack :=
  fun r => ⟨ofAddr_addr r, addr_mod_four r⟩

end Sys2Proof.Machine
end

section
/-! SUPPORT. The state after reset, part by part (R9, R25, R147, R445, R456). -/

namespace Sys2Proof.Machine

theorem core_reset (c : Fin 16) : State.reset.core c = {} := by simp [State.core, State.reset]

theorem ring_reset (r : Fin 8) : State.reset.ring r = {} := by simp [State.ring, State.reset]

theorem stream_reset (x : Fin 64) : State.reset.stream x = {} := by simp [State.stream, State.reset]

theorem ep_reset (e : Fin 64) : State.reset.ep e = {} := by simp [State.ep, State.reset]

theorem count_reset (i : Fin 43) : State.reset.count i = 0 := by simp [State.count, State.reset]

theorem queue_reset (c : Fin 16) (q : Fin 5) : (State.reset.queue c q).tags = [] := by
  rw [State.queue, core_reset]
  revert q; decide

theorem dq_reset (c : Fin 16) (n : Fin 8) : State.reset.dq c n = [] := by
  rw [State.dq, core_reset]
  revert n; decide

theorem smWf_regsReset : smWf 0 regsReset = true := by decide

/-- No register of the control space that reset leaves other than 0 is a RING_MANIFEST_STATUS. -/
theorem ringState_reset (r : Fin 8) : State.reset.ringState r = stAbsent := by
  revert r; decide

theorem wf_reset : Memory.wf State.reset := by
  rw [Memory.wf, canonical_iff]
  refine ⟨smWf_regsReset, fun c => ?_, rfl, rfl, rfl, rfl, rfl, rfl, rfl, rfl, rfl, rfl, rfl, rfl, rfl, fun x => ?_, fun e => ?_⟩
  · rw [core_reset]; rfl
  · rw [stream_reset]; rfl
  · rw [ep_reset]; rfl

theorem queuesFit_reset : QueuesFit State.reset := by
  refine ⟨fun c q => ?_, fun c n => ?_, fun c => ?_, fun x => ?_, fun r => ?_, ?_⟩
  · simp [queue_reset]
  · simp [dq_reset]
  · rw [core_reset]
    exact ⟨Nat.zero_le _, List.nodup_nil, List.Pairwise.nil⟩
  · exact Nat.zero_le _
  · rw [ring_reset]
    exact Nat.zero_le _
  · exact Nat.zero_le _

/-- Settles O57: each part of the state after reset is its default. -/
theorem resetLeavesTheMachineEmpty : Obligations.ResetLeavesTheMachineEmpty := by
  refine ⟨wf_reset, queuesFit_reset, rfl, rfl, rfl, rfl, rfl, rfl, rfl, count_reset, fun _ => rfl, fun r => ?_, fun c => ?_⟩
  · rw [ring_reset]
    exact ⟨rfl, rfl, ringState_reset r, rfl⟩
  · rw [core_reset]
    exact ⟨rfl, fun _ => rfl, fun _ => rfl, rfl, rfl, dq_reset c, queue_reset c⟩

end Sys2Proof.Machine
end

section
/-! SUPPORT. What a register write does (R6, R7, R8, R56, R311, R313): the right to it, the requests that a ring hears,
refuses or holds, and the store of a plain register. -/

namespace Sys2Proof.Machine

/-! ## Stores -/

/-- Every register but the one stored reads as before. -/
theorem keepsRegs_setReg (s : State) (g : Reg) (v : Word) : KeepsRegs [g] s (s.setReg g v) := by
  intro q hq
  refine reg_setReg_ne s v fun h => hq ?_
  rw [addr_injective h]
  exact List.mem_singleton_self q

theorem onlyRegs_setReg (s : State) (g : Reg) (v : Word) : OnlyRegs [g] s (s.setReg g v) := ⟨rfl, keepsRegs_setReg s g v⟩

/-- A write of a plain register by one with the right is a store (R7, R8). -/
theorem performWrite_plain {g : Reg} (h : plainReg g) (s : State) (who : Who) (v : Word) :
    (s.performWrite who g v).1 = s.setReg g (writtenWord g (s.reg g) (settled g v)) := by
  obtain ⟨hpair, hperform⟩ := h
  rw [hperform, State.storePair, hpair, State.storeWord]

theorem performWrite_plain_stores {g : Reg} (h : plainReg g) (s : State) (who : Who) (v : Word) :
    (s.performWrite who g v).1.reg g = writtenWord g (s.reg g) (settled g v) ∧
      OnlyRegs [g] s (s.performWrite who g v).1 := by
  rw [performWrite_plain h]
  exact ⟨reg_setReg s g _, onlyRegs_setReg s g _⟩

/-! ## Requests of a ring (R51, R56, R313) -/

section
variable {s : State} {r : Fin 8} {who : Who} (addr v : Word) (act : State → State × Nat)

theorem request_heard (h : Heard s r who) : s.request r who addr v act = act s := by
  obtain ⟨⟨hawake, haccess⟩, hholds | rfl⟩ := h
  · simp [State.request, hawake, haccess, hholds]
  · simp [State.request, hawake, haccess]

theorem request_denied (h : s.ringAccess r who = false) : (s.request r who addr v act).1 = s := by
  unfold State.request
  split <;> simp [h]

theorem request_held (h : MayAsk s r who) (hholds : s.holdsWrites r = true) (hwho : who ≠ .booth)
    (hroom : (s.ring r).held.length < 256) :
    (s.request r who addr v act).1 = s.onRing r fun k => { k with held := k.held ++ [⟨who, addr, v⟩] } := by
  obtain ⟨hawake, haccess⟩ := h
  simp [State.request, State.holdWrite, hawake, haccess, hholds, hwho, hroom]

end

theorem onlyRing_onRing (s : State) (r : Fin 8) (f : Ring → Ring) : OnlyRing r s (s.onRing r f) :=
  fun _ hq => ring_onRing_ne s f (Ne.symm hq)

/-! ## REGISTER_WRITE -/

theorem exec_registerWrite (who : Who) (addr v : Word) (s : State) :
    exec (.registerWrite who addr v) s = .next (s.regWrite who addr v).1 := rfl

/-- A write of a place that is no register has no effect (R6). -/
theorem regWrite_nowhere (s : State) (who : Who) {addr : Word} (v : Word)
    (h : addr.toNat % 4 ≠ 0 ∨ Reg.ofAddr addr.toNat = none) : (s.regWrite who addr v).1 = s := by
  unfold State.regWrite
  split
  · rfl
  · rename_i haligned
    rw [h.resolve_left haligned]

section
variable {s : State} {who : Who} {addr : Word} {g : Reg} (v : Word)
  (haligned : addr.toNat % 4 = 0) (hreg : Reg.ofAddr addr.toNat = some g)
include haligned hreg

theorem regWrite_reg : s.regWrite who addr v = s.writeRightly who g v (s.writeRight who g) := by
  simp [State.regWrite, haligned, hreg]

/-- A ring's register, but for its RING_CONTROL, is written by a request of the ring. -/
theorem regWrite_ring {r : Fin 8} (hright : s.writeRight who g = .ring (some r)) (hne : g ≠ .ringControl r) :
    s.regWrite who addr v =
      s.request r who (BitVec.ofNat 32 g.addr) v fun s => s.performWrite who g v := by
  rw [regWrite_reg v haligned hreg, hright, State.writeRightly, if_neg hne]

theorem regWrite_manage (hright : s.writeRight who g = .manage) :
    s.regWrite who addr v = if s.mayManage who then s.performWrite who g v else (s, stAccessRing) := by
  rw [regWrite_reg v haligned hreg, hright, State.writeRightly]

end

end Sys2Proof.Machine
end

section
/-! SUPPORT. What sending does to the endpoints (R303, R317, R321, R322). The L9's own reads and writes of DRAM change no
endpoint. Frames that an endpoint sends change its packet number, the messages that wait and those that have left, and no
message is lost. -/

namespace Sys2Proof.Machine

/-! ## DRAM's reports change no endpoint -/

@[simp] theorem eps_log (s : State) (source code arg0 arg1 : Nat) : (s.log source code arg0 arg1).eps = s.eps := by
  unfold State.log
  split <;> rfl

@[simp] theorem eps_recordLost (s : State) (ring : Option (Fin 8)) : (s.recordLost ring).eps = s.eps := by
  cases ring <;> simp [State.recordLost]

@[simp] theorem eps_storeRecord (s : State) (ring : Option (Fin 8)) (f : FaultRec) : (s.storeRecord ring f).eps = s.eps := by
  cases ring with
  | some r => simp only [State.storeRecord]; split <;> simp
  | none => simp only [State.storeRecord]; split <;> simp

@[simp] theorem eps_logRecord (s : State) (ring : Option (Fin 8)) (faulting : Bool) (i : FaultInfo) (seq : Word) :
    (s.logRecord ring faulting i seq).eps = s.eps := by
  cases ring with
  | some r => simp only [State.logRecord]; split <;> simp
  | none =>
    simp only [State.logRecord]
    split
    · simp
    · split <;> simp

@[simp] theorem eps_deviceRecord (s : State) (i : FaultInfo) : (s.deviceRecord i).eps = s.eps := by
  simp [State.deviceRecord]

@[simp] theorem eps_ddrShow (s : State) (q : Requester) (a kind owner : Nat) : (s.ddrShow q a kind owner).eps = s.eps := rfl

@[simp] theorem eps_ddrCount (s : State) (n : Nat) (v : Verdict) : (s.ddrCount n v).eps = s.eps := by
  unfold State.ddrCount
  grind [bump_eps]

/-- What the errors of a line are told to changes no endpoint. -/
def RepKeepsEps (rep : Bool → FaultInfo → State → State) : Prop := ∀ b i s, (rep b i s).eps = s.eps

section
variable {rep : Bool → FaultInfo → State → State} (hr : RepKeepsEps rep) (q : Requester) (tag : Tag)
include hr

theorem eps_lineError (s : State) (n access : Nat) (v : Verdict) : (State.lineError rep s q tag n access v).eps = s.eps := by
  unfold State.lineError
  split
  · rfl
  · rw [hr, eps_ddrShow]

theorem eps_lineReadBy (s : State) (gen : Option (BitVec 16)) (n : Nat) :
    (State.lineReadBy rep s q tag gen n).1.eps = s.eps := by
  simp only [State.lineReadBy, eps_lineError hr, eps_ddrCount]

theorem eps_linesReadBy (gen : Option (BitVec 16)) (k n : Nat) (s : State) :
    (State.linesReadBy rep q tag gen k n s).1.eps = s.eps := by
  induction k generalizing n s with
  | zero => rfl
  | succ k ih =>
    have h := eps_lineReadBy hr q tag s gen n
    simp only [State.linesReadBy]
    split
    case h_1 s1 heq => rwa [heq] at h
    case h_2 s1 d heq =>
      rw [heq] at h
      have h2 := ih (n + 1) s1
      split <;> rename_i heq2 <;> rw [heq2] at h2 <;> exact h2.trans h

theorem eps_rangeReadBy (s : State) (gen : Option (BitVec 16)) (a n : Nat) :
    (State.rangeReadBy rep s q tag gen a n).1.eps = s.eps := by
  have h := eps_linesReadBy hr q tag gen ((a + n + 63) / 64 - a / 64) (a / 64) s
  unfold State.rangeReadBy
  split <;> rename_i heq <;> rwa [heq] at h

theorem eps_lineWriteBy (s : State) (gen : BitVec 16) (n at_ : Nat) (d : List PByte) :
    (State.lineWriteBy rep s q tag gen n at_ d).1.eps = s.eps := by
  unfold State.lineWriteBy
  split
  · rfl
  · dsimp only
    split <;> exact (eps_lineError hr q tag _ _ _ _).trans (eps_ddrCount s n _)

theorem eps_linesWriteBy (gen : BitVec 16) (k a : Nat) (d : List PByte) (s : State) :
    (State.linesWriteBy rep q tag gen k a d s).1.eps = s.eps := by
  induction k generalizing a d s with
  | zero => rfl
  | succ k ih =>
    unfold State.linesWriteBy
    split
    · rfl
    · have h := eps_lineWriteBy hr q tag s gen (a / 64) (a % 64) (d.take (min d.length (64 - a % 64)))
      dsimp only
      split
      case h_1 s1 heq => rwa [heq] at h
      case h_2 s1 heq =>
        rw [heq] at h
        exact (ih _ _ s1).trans h

end

theorem eps_ownRead (s : State) (q : Requester) (a n : Nat) : (s.ownRead q a n).1.eps = s.eps :=
  eps_rangeReadBy (fun _ i t => eps_deviceRecord t i) q q.noTag s none a n

theorem eps_ownWrite (s : State) (q : Requester) (a : Nat) (d : List Byte) : (s.ownWrite q a d).eps = s.eps :=
  eps_linesWriteBy (fun _ i t => eps_deviceRecord t i) q q.noTag 0 _ a _ s

theorem eps_areaEntry (s : State) (e : Fin 64) (m : Msg) : (s.areaEntry e m).1.eps = s.eps := by
  have h : (s.intLine 0x40).1.eps = s.eps := eps_ownRead s .app (s.intBase + 0x40) 8
  unfold State.areaEntry
  dsimp only
  split
  · exact h
  · rw [eps_ownWrite, eps_ownWrite]
    split
    · rw [eps_ownWrite, h]
    · exact h

/-! ## Frames sent -/

/-- The messages of an endpoint: those that have left and those that wait. -/
def Endpoint.msgs (k : Endpoint) : List Msg := k.sent ++ k.queue

/-- What frames that endpoint `e` sends can change: what a report can, and of the endpoints only `e`, whose messages go on
but are not lost (R317, R321). -/
structure Sent (e : Fin 64) (s t : State) : Prop where
  reports : Reports s t
  other : ∀ d : Fin 64, d ≠ e → t.ep d = s.ep d
  ep : t.ep e = { s.ep e with pn := (t.ep e).pn, queue := (t.ep e).queue, sent := (t.ep e).sent }
  kept : ∀ m ∈ (s.ep e).msgs, ∃ n : Nat, { m with offset := n } ∈ (t.ep e).msgs

theorem Sent.refl (e : Fin 64) (s : State) : Sent e s s := ⟨.refl s, fun _ _ => rfl, rfl, fun m hm => ⟨m.offset, hm⟩⟩

theorem Sent.trans {e : Fin 64} {s t u : State} (h : Sent e s t) (g : Sent e t u) : Sent e s u := by
  refine ⟨h.reports.trans g.reports, fun d hd => (g.other d hd).trans (h.other d hd), ?_, fun m hm => ?_⟩
  · rw [g.ep, h.ep]
  · obtain ⟨n, hn⟩ := h.kept m hm
    obtain ⟨n', hn'⟩ := g.kept _ hn
    exact ⟨n', hn'⟩

/-- A change of the endpoint itself. -/
theorem sent_onEp (s : State) (e : Fin 64) (f : Endpoint → Endpoint)
    (hf : f (s.ep e) = { s.ep e with pn := (f (s.ep e)).pn, queue := (f (s.ep e)).queue, sent := (f (s.ep e)).sent })
    (hl : ∀ k, (f k).last = k.last)
    (hm : ∀ m ∈ (s.ep e).msgs, ∃ n : Nat, { m with offset := n } ∈ (f (s.ep e)).msgs) : Sent e s (s.onEp e f) := by
  refine ⟨reports_onEp s e f hl, fun d hd => ep_onEp_ne s f (Ne.symm hd), ?_, ?_⟩
  · rw [ep_onEp]
    exact hf
  · rw [ep_onEp]
    exact hm

/-- A report that changes no endpoint. -/
theorem Reports.sent {s t : State} (e : Fin 64) (h : Reports s t) (he : t.eps = s.eps) : Sent e s t := by
  have hep : ∀ d, t.ep d = s.ep d := fun d => by rw [State.ep, he, State.ep]
  refine ⟨h, fun d _ => hep d, ?_, fun m hm => ⟨m.offset, ?_⟩⟩
  · rw [hep]
  · rw [hep]
    exact hm

theorem sent_portFrame (s : State) (e : Fin 64) (m : Msg) : Sent e s (s.portFrame e m) := by
  have hep : (s.portFrame e m).ep e = { s.ep e with pn := ((s.portFrame e m).ep e).pn } := by
    simp [State.portFrame, State.ep, State.onEp, State.toWire]
  refine ⟨reports_portFrame s e m, fun d hd => ?_, ?_, fun x hx => ⟨x.offset, ?_⟩⟩
  · simp [State.portFrame, State.ep, State.onEp, State.toWire, Fin.val_ne_of_ne (Ne.symm hd)]
  · rw [hep]
  · rw [hep]
    exact hx

/-- The next frame of a message sent, on a port or on the internal endpoint. -/
theorem sent_frame (s : State) (e : Fin 64) (m : Msg) :
    Sent e s (if s.epInternal e then s.areaEntry e m else (s.portFrame e m, true)).1 := by
  split
  · exact (reports_areaEntry s e m).sent e (eps_areaEntry s e m)
  · exact sent_portFrame s e m

theorem onEp_onEp (s : State) (e : Fin 64) (f g : Endpoint → Endpoint) :
    (s.onEp e f).onEp e g = s.onEp e fun k => g (f k) := by
  simp [State.onEp]

/-- A message that leaves the queue while what is left of it, or the whole of it, stands among the endpoint's messages. -/
theorem msgs_erase {k j : Endpoint} (m : Msg) (n : Nat) (hrest : ∀ x ∈ k.sent ++ k.queue.erase m, x ∈ j.msgs)
    (hm : { m with offset := n } ∈ j.msgs) : ∀ x ∈ k.msgs, ∃ n : Nat, { x with offset := n } ∈ j.msgs := by
  intro x hx
  by_cases hxm : x = m
  · exact ⟨n, hxm ▸ hm⟩
  · refine ⟨x.offset, hrest x ?_⟩
    rw [Endpoint.msgs, List.mem_append] at hx
    rw [List.mem_append, List.mem_erase_of_ne hxm]
    exact hx

theorem sent_requeue (s : State) (e : Fin 64) (m : Msg) (n : Nat) :
    Sent e s ((s.onEp e fun k => { k with queue := k.queue.erase m }).onEp e fun k =>
      { k with queue := { m with offset := n } :: k.queue }) := by
  rw [onEp_onEp]
  refine sent_onEp s e _ rfl (fun _ => rfl) (msgs_erase m n (fun x hx => ?_) ?_)
  · simp only [Endpoint.msgs, List.mem_append, List.mem_cons] at hx ⊢
    tauto
  · simp [Endpoint.msgs]

/-- Once the last frame of a message has passed, only a result slot may change beside (R317). -/
theorem sent_passed (s : State) (e : Fin 64) (m : Msg) :
    Sent e (s.onEp e fun k => { k with sent := k.sent ++ [{ m with offset := 0 }] }) (s.passed e m) := by
  unfold State.passed
  dsimp only
  split
  · rename_i n serial _
    refine (reports_onRing _ _ _ fun k => ?_).sent e rfl
    cases slotOf k n with
    | none => rfl
    | some v =>
      dsimp only
      split <;> rfl
  · exact .refl e _

theorem sent_finish (s : State) (e : Fin 64) (m : Msg) :
    Sent e s ((s.onEp e fun k => { k with queue := k.queue.erase m }).passed e m) := by
  refine Sent.trans ?_ (sent_passed _ e m)
  rw [onEp_onEp]
  refine sent_onEp s e _ rfl (fun _ => rfl) (msgs_erase m 0 (fun x hx => ?_) ?_)
  · simp only [Endpoint.msgs, List.mem_append] at hx ⊢
    tauto
  · simp [Endpoint.msgs]

theorem msgRest_some {s : State} {e : Fin 64} {m m1 : Msg} (h : s.msgRest e m = some m1) :
    ∃ n : Nat, m1 = { m with offset := n } := by
  unfold State.msgRest at h
  split at h
  · cases h
  · exact ⟨_, (Option.some.inj h).symm⟩

theorem sent_sendOne (s : State) (e : Fin 64) : Sent e s (s.sendOne e).1 := by
  unfold State.sendOne
  split
  · exact .refl e s
  · rename_i m _
    have h := sent_frame s e m
    revert h
    generalize (if s.epInternal e then s.areaEntry e m else (s.portFrame e m, true)) = p
    obtain ⟨s1, _ | _⟩ := p
    · exact id
    · intro h
      simp only [Bool.not_true, Bool.false_eq_true, if_false]
      split
      · exact h.trans (sent_finish s1 e m)
      · rename_i m1 hrest
        obtain ⟨n, rfl⟩ := msgRest_some hrest
        exact h.trans (sent_requeue s1 e m n)

theorem sent_pump (e : Fin 64) (n : Nat) (s : State) : Sent e s (State.pump e n s) := by
  induction n generalizing s with
  | zero => exact .refl e s
  | succ n ih =>
    have h := sent_sendOne s e
    unfold State.pump
    split <;> rename_i heq <;> rw [heq] at h
    · exact h.trans (ih _)
    · exact h

theorem sent_pumpEp (s : State) (e : Fin 64) : Sent e s (s.pumpEp e) := sent_pump e _ s

/-- A message handed to a bound endpoint has left it, or waits there (R317, R321). -/
theorem mem_msgs_send {s : State} {e : Fin 64} (h : s.epBound e = true) (m : Msg) :
    ∃ n : Nat, { m with offset := n } ∈ ((s.send e m).ep e).msgs := by
  rw [State.send, if_pos h]
  refine (sent_pumpEp _ e).kept m ?_
  rw [ep_onEp]
  simp [Endpoint.msgs]

theorem epIx_epRing (y : Fin 64) : epIx (epRing y) (epNo y) = y := Fin.ext (by simp only [epIx, epRing, epNo]; omega)

/-- A reply of a bound endpoint answers its request (R305). -/
theorem answered_reply {s : State} {y : Fin 64} (h : s.epBound y = true) (type : Byte) (f : Frame) (id : Word)
    (cls status : Nat) (stamp : DWord) (bad : List Nat) (body : List Byte) :
    Answered (s.reply (epRing y) ⟨epNo y, type, f.msgId, f.gen, id⟩ cls status stamp bad body) y type f id status body := by
  rw [State.reply, epIx_epRing]
  obtain ⟨n, hn⟩ := mem_msgs_send h ⟨cls, type, f.msgId, f.gen, true, bad, status, id, stamp, body, 0⟩
  exact ⟨_, hn, rfl, rfl, rfl, rfl, rfl, rfl, rfl⟩

end Sys2Proof.Machine
end

section
/-! SUPPORT. What a received frame does that is the whole of a message (R300, R303, R306, R307): the endpoint that accepts
it is bound, the frame is noted and counted, and then its message does what its type says. -/

namespace Sys2Proof.Machine

/-! ## The endpoint that accepts a frame (R299, R300) -/

theorem judgeBound_accept {s : State} {type : Byte} {f : Frame} {e y : Fin 64} (h : s.judgeBound type f e = .accept y) :
    y = e := by
  unfold State.judgeBound at h
  iterate 4 (split at h; · cases h)
  split at h <;> cases h
  rfl

theorem epBound_of_judge {s : State} {type : Byte} {f : Frame} {y : Fin 64} (h : s.judge type f = .accept y) :
    s.epBound y = true := by
  unfold State.judge at h
  split at h
  case h_1 p _ =>
    unfold State.judgePort at h
    iterate 4 (split at h; · cases h)
    rename_i e he
    have hfound := List.find?_some he
    simp only [Bool.and_eq_true] at hfound
    obtain ⟨⟨⟨hbound, -⟩, -⟩, -⟩ := hfound
    rw [judgeBound_accept h]
    exact hbound
  case h_2 =>
    unfold State.judgeInternal at h
    dsimp only at h
    split at h
    case isTrue =>
      split at h
      case isTrue hinternal =>
        simp only [Bool.and_eq_true] at hinternal
        obtain ⟨⟨hbound, -⟩, -⟩ := hinternal
        split at h <;> cases h
        exact hbound
      case isFalse => cases h
    case isFalse => cases h

/-! ## A frame noted -/

/-- What noting and counting a frame of endpoint `y` leaves as it was: the cores, the midway, the rings but for what leaves
them, the endpoint's binding and its messages under way, and the power state. -/
structure Noted (y : Fin 64) (s t : State) : Prop where
  cores : t.cores = s.cores
  mwy : t.mwy = s.mwy
  rings : OnlySent s t
  last : (t.ep y).last = (s.ep y).last
  reasm : (t.ep y).reasm = (s.ep y).reasm
  bound : t.epBound y = s.epBound y
  standby : t.inStandby = s.inStandby

theorem OnlySent.refl (s : State) : OnlySent s s := fun _ => rfl

theorem OnlySent.trans {s t u : State} (h : OnlySent s t) (g : OnlySent t u) : OnlySent s u := by
  intro r
  rw [g r, h r]

theorem Noted.refl (y : Fin 64) (s : State) : Noted y s s := ⟨rfl, rfl, .refl s, rfl, rfl, rfl, rfl⟩

theorem Noted.trans {y : Fin 64} {s t u : State} (h : Noted y s t) (g : Noted y t u) : Noted y s u :=
  ⟨g.cores.trans h.cores, g.mwy.trans h.mwy, h.rings.trans g.rings, g.last.trans h.last, g.reasm.trans h.reasm,
    g.bound.trans h.bound, g.standby.trans h.standby⟩

/-- A register that is neither the endpoint's status nor the security processor's. -/
theorem noted_setReg (y : Fin 64) (s : State) {g : Reg} (v : Word) (hy : g ≠ .trsEpStatus y) (hp : g ≠ .secStatus) :
    Noted y s (s.setReg g v) := by
  refine ⟨rfl, rfl, fun _ => rfl, rfl, rfl, ?_, ?_⟩
  · rw [State.epBound, State.fld, reg_setReg_ne s v (addr_injective.ne hy), ← State.fld, ← State.epBound]
  · rw [State.inStandby, State.fld, reg_setReg_ne s v (addr_injective.ne hp), ← State.fld, ← State.inStandby]

theorem noted_onEp (y : Fin 64) (s : State) (f : Endpoint → Endpoint) (hl : (f (s.ep y)).last = (s.ep y).last)
    (hr : (f (s.ep y)).reasm = (s.ep y).reasm) : Noted y s (s.onEp y f) := by
  refine ⟨rfl, rfl, fun _ => rfl, ?_, ?_, rfl, rfl⟩
  · rw [ep_onEp, hl]
  · rw [ep_onEp, hr]

theorem Reports.reg_status {s t : State} (h : Reports s t) (y : Fin 64) :
    t.reg (.trsEpStatus y) = s.reg (.trsEpStatus y) ∧ t.reg .secStatus = s.reg .secStatus := by
  constructor <;> apply h.regs <;> simp [reportAddrs, addr_injective.eq_iff]

theorem noted_sent {y : Fin 64} {s t : State} (h : Sent y s t) : Noted y s t := by
  obtain ⟨hy, hp⟩ := h.reports.reg_status y
  refine ⟨?_, ?_, h.reports.ring, ?_, ?_, ?_, ?_⟩
  · rw [h.reports.rest]
  · rw [h.reports.rest]
  · rw [h.ep]
  · rw [h.ep]
  · rw [State.epBound, State.fld, hy]; rfl
  · rw [State.inStandby, State.fld, hp]; rfl

theorem noted_noteNumber (s : State) (f : Frame) (y : Fin 64) : Noted y s (s.noteNumber f y) := by
  unfold State.noteNumber
  split
  · exact noted_onEp y s _ rfl rfl
  · exact .refl y s

theorem noted_ethCount (y : Fin 64) (s : State) (via : Via) (k : Fin 5) : Noted y s (s.ethCount via k) := by
  cases via with
  | port p => exact noted_setReg y s _ (by simp) (by simp)
  | internal => exact .refl y s

theorem noted_epCount (s : State) (y : Fin 64) (k : Fin 6) : Noted y s (s.epCount y k) :=
  noted_setReg y s _ (by simp) (by simp)

theorem noted_peerKnown (s : State) (y : Fin 64) :
    Noted y s (s.setFld (.trsEpStatus y) F.trsEpStatus_PEER_KNOWN 1) := by
  refine ⟨rfl, rfl, fun _ => rfl, rfl, rfl, ?_, ?_⟩
  · rw [State.epBound, fld_setFld_other s _ _ _ 1 ⟨by decide, by decide⟩ (by decide) (by decide), ← State.epBound]
  · rw [State.inStandby, fld_setFld_ne s _ _ 1 (addr_injective.ne (by simp)), ← State.inStandby]

theorem noted_takePeer (s : State) (y : Fin 64) (f : Frame) : Noted y s (s.takePeer y f) := by
  unfold State.takePeer
  split
  · exact .refl y s
  · exact (((noted_setReg y s _ (by simp) (by simp)).trans (noted_setReg y _ _ (by simp) (by simp))).trans
      (noted_peerKnown _ y)).trans (noted_sent (sent_pumpEp _ y))

/-- The state in which an accepted frame's message is looked up: its packet number noted, it is counted, its sender is the
peer (R300, R301, R321). -/
def State.heard (s : State) (f : Frame) (y : Fin 64) : State :=
  (((s.noteNumber f y).ethCount f.via 0).epCount y 0).takePeer y f

theorem noted_heard (s : State) (f : Frame) (y : Fin 64) : Noted y s (s.heard f y) :=
  (((noted_noteNumber s f y).trans (noted_ethCount y _ f.via 0)).trans (noted_epCount _ y 0)).trans (noted_takePeer _ y f)

theorem frameIn_accept {s : State} {type : Byte} {f : Frame} {y : Fin 64} (h : s.judge type f = .accept y) :
    s.frameIn type f = woken s ((s.heard f y).identify (epRing y) (epNo y) type f) := by
  have hs : ((s.noteNumber f y).ethCount f.via 0).inStandby = s.inStandby :=
    ((noted_noteNumber s f y).trans (noted_ethCount y _ f.via 0)).standby
  simp only [State.frameIn, h, State.acceptFrame, hs]
  rfl

/-! ## A message of one frame (R306, R307) -/

theorem arrived_eq (s : State) (f : Frame) (y : Fin 64) : arrived s f y =
    ((s.heard f y).onEp y fun k => { k with last := smSet 0 k.last f.msgId.toNat f.gen }).dropReasm y f.msgId := rfl

/-- The cores, the midway, the rings and the binding in the state in which a whole message acts. -/
theorem arrived_keeps (s : State) (f : Frame) (y : Fin 64) : (arrived s f y).cores = s.cores ∧ (arrived s f y).mwy = s.mwy ∧
    OnlySent s (arrived s f y) ∧ (arrived s f y).epBound y = s.epBound y := by
  have h := noted_heard s f y
  exact ⟨h.cores, h.mwy, h.rings, h.bound⟩

/-- The reassembly that a message's only frame makes. -/
def onlyChunk (type : Byte) (f : Frame) : Reassembly :=
  ⟨f.msgId, f.gen, type, f.id, f.timestamp, [(0, f.payload.length)], some f.payload.length,
    smWrite 0 [] 0 f.payload, 0, 0, 0, false⟩

theorem onlyChunk_whole (type : Byte) (f : Frame) : (onlyChunk type f).whole = true := by
  simp [onlyChunk, Reassembly.whole, reach]

/-- The types whose messages are kept until they are whole: all but PARAM_WRITE, SAMPLE_DATA and STREAM_DATA (R307). -/
def keptWhole (type : Byte) : Prop := type.toNat ≠ 0x04 ∧ type.toNat ≠ 0x06 ∧ type.toNat ≠ 0x07

theorem add_only {type : Byte} {f : Frame} (ho : f.offset = 0) (hl : lastChunk f = true) :
    (⟨f.msgId, f.gen, type, f.id, f.timestamp, [], none, [], 0, 0, 0, false⟩ : Reassembly).add f =
      { onlyChunk type f with body := [] } := by
  simp [Reassembly.add, onlyChunk, ho, hl]

/-- The only frame of a message of such a type ends it, and it does what its type says. -/
theorem chunk_only (s : State) (y : Fin 64) {type : Byte} {f : Frame} (htype : keptWhole type) (ho : f.offset = 0)
    (hl : lastChunk f = true) :
    s.chunk (epRing y) (epNo y) ⟨f.msgId, f.gen, type, f.id, f.timestamp, [], none, [], 0, 0, 0, false⟩ f true =
      (s.dropReasm y f.msgId).handle (epRing y) (epNo y) (onlyChunk type f) (!f.macsec) f.payload := by
  obtain ⟨h4, h6, h7⟩ := htype
  have hbody : smRead 0 (onlyChunk type f).body 0 f.payload.length = f.payload := smRead_smWrite_same 0 [] 0 f.payload
  simp only [State.chunk, epIx_epRing, add_only ho hl, ho]
  split
  case h_1 h => exact absurd h h4
  case h_2 h => exact absurd h h6
  case h_3 h => exact absurd h h7
  case h_4 =>
    change (s.goOn y (onlyChunk type f) fun s => s.handle (epRing y) (epNo y) (onlyChunk type f) (!f.macsec)
      (smRead 0 (onlyChunk type f).body 0 f.payload.length)) = _
    rw [State.goOn, if_pos (onlyChunk_whole type f), hbody]
    rfl

theorem endStreams_ne (s : State) (x : Fin 64) {type : Byte} (h : type ≠ 0x07) : s.endStreams x type = s := if_neg h

/-- A whole message of such a type does what its type says, in the state `arrived`. -/
theorem frameIn_whole {s : State} {type : Byte} {f : Frame} {y : Fin 64} (h : WholeMessage s type f y)
    (htype : keptWhole type) : s.frameIn type f =
      woken s ((arrived s f y).handle (epRing y) (epNo y) (onlyChunk type f) (!f.macsec) f.payload) := by
  obtain ⟨hjudge, ho, hl, hnone, hpos, hlt⟩ := h
  have hn := noted_heard s f y
  have hnone' : (s.heard f y).reasmOf y f.msgId = none := by rw [State.reasmOf, hn.reasm]; exact hnone
  have h7 : type ≠ 0x07 := by
    rintro rfl
    exact htype.2.2 rfl
  rw [frameIn_accept hjudge, arrived_eq, ← chunk_only _ y htype ho hl]
  unfold State.identify State.beginMsg
  simp only [epIx_epRing, hn.last]
  rw [if_neg (by omega), if_pos hlt, if_neg (by simp [ho])]
  simp [hnone', hl, endStreams_ne _ _ h7]

end Sys2Proof.Machine
end

section
/-! SUPPORT. REG_READ and REG_WRITE (R309): the answer to a body of one entry and to a malformed one. And the statement of
register access. -/

namespace Sys2Proof.Machine

/-! ## Bodies of one entry -/

theorem beAt_drop (l : List Byte) (k o n : Nat) : beAt (l.drop k) o n = beAt l (k + o) n := by
  simp [beAt, part, List.drop_drop]

/-- A list of at most `n` elements is one piece. -/
theorem chunksOf_one {α : Type} {n : Nat} (k : Nat) {l : List α} (hne : l ≠ []) (hl : l.length ≤ n) :
    chunksOf n (k + 2) l = [l] := by
  cases l with
  | nil => exact absurd rfl hne
  | cons x xs => rw [chunksOf, List.take_of_length_le hl, List.drop_of_length_le hl, chunksOf]; simp

/-- The reply's entry to one entry of a request: the address, VALUE, STATUS (R309). -/
def answerBody (b : List Byte) (v : Word) (st : Nat) : List Byte :=
  b.take 8 ++ beBytes 4 v.toNat ++ beBytes 1 st ++ beBytes 3 0

/-- A body of one entry: the entry is performed and answered (R309). -/
theorem regsNow_one {s s1 : State} (r : Fin 8) (a : Asker) {write : Bool} {b : List Byte} {v : Word} {st : Nat}
    (hlen : b.length = 16) (hn : beAt b 0 2 = 1) (hz : beAt b 2 2 = 0)
    (hentry : s.regEntry (.ep r a.endpoint) write (b.drop 4) = (s1, v, st)) :
    s.regsNow r a write b = s1.reply r a 0 st 0 [] (answerBody b v st) := by
  have hdrop : (b.drop 4).length = 12 := by rw [List.length_drop, hlen]
  have hchunk : chunksOf 12 64 (b.drop 4) = [b.drop 4] :=
    chunksOf_one 62 (List.ne_nil_of_length_pos (by omega)) (by omega)
  have htake : b.take 4 ++ (b.drop 4).take 4 = b.take 8 := (List.take_add (i := 4) (j := 4)).symm
  have hst : (if st = 0 then 0 else st) = st := by split <;> omega
  simp only [State.regsNow, hn, hlen, hz, hchunk, State.regEntries, hentry, hst, within]
  simp [answerBody, ← htake]

theorem regEntry_read (s : State) (who : Who) (b : List Byte) :
    s.regEntry who false (b.drop 4) = s.regRead who (BitVec.ofNat 32 (beAt b 4 4)) := by
  simp [State.regEntry, beAt_drop]

theorem regEntry_write (s : State) (who : Who) (b : List Byte) :
    s.regEntry who true (b.drop 4) =
      ((s.regWrite who (BitVec.ofNat 32 (beAt b 4 4)) (BitVec.ofNat 32 (beAt b 8 4))).1, BitVec.ofNat 32 (beAt b 8 4),
        (s.regWrite who (BitVec.ofNat 32 (beAt b 4 4)) (BitVec.ofNat 32 (beAt b 8 4))).2) := by
  simp [State.regEntry, beAt_drop]

/-- A body whose count of entries is out of range is malformed (R309; log 71). -/
theorem regsNow_malformed (s : State) (r : Fin 8) (a : Asker) (write : Bool) {b : List Byte}
    (h : within 1 64 (beAt b 0 2) = false) : s.regsNow r a write b = s.replyStatus r a stFormat := by
  simp [State.regsNow, h]

/-! ## The commands -/

/-- The TYPE of REG_WRITE, or of REG_READ (R305). -/
def regType (write : Bool) : Byte := if write then 0x02 else 0x01

/-- REG_WRITE, or REG_READ. -/
def regInstr (write : Bool) (f : Frame) : Instr := if write then .regWrite f else .regRead f

/-- A whole message of registers acts in the state `arrived` (R300, R307, R309). -/
theorem exec_reg {s : State} {f : Frame} {y : Fin 64} {write : Bool} (h : WholeMessage s (regType write) f y) :
    exec (regInstr write f) s = .next (woken s ((arrived s f y).regsNow (epRing y)
      ⟨epNo y, regType write, f.msgId, f.gen, f.id⟩ write f.payload)) := by
  cases write
  · exact congrArg _ (frameIn_whole h ⟨by decide, by decide, by decide⟩)
  · exact congrArg _ (frameIn_whole h ⟨by decide, by decide, by decide⟩)

/-- What a reply leaves as it was. -/
theorem reply_keeps (s : State) (r : Fin 8) (a : Asker) (cls status : Nat) (stamp : DWord) (bad : List Nat)
    (body : List Byte) : (s.reply r a cls status stamp bad body).cores = s.cores ∧
      OnlySent s (s.reply r a cls status stamp bad body) ∧ (s.reply r a cls status stamp bad body).mwy = s.mwy := by
  have h := reports_reply s r a cls status stamp bad body
  refine ⟨?_, h.ring, ?_⟩ <;> rw [h.rest]

/-- A message of one entry is answered with the entry's value and status. -/
theorem reg_entry_answered {s s1 : State} {f : Frame} {y : Fin 64} {write : Bool} {v : Word} {st : Nat}
    (h : WholeMessage s (regType write) f y) (hlen : f.payload.length = 16) (hn : beAt f.payload 0 2 = 1)
    (hz : beAt f.payload 2 2 = 0)
    (hentry : (arrived s f y).regEntry (.ep (epRing y) (epNo y)) write (f.payload.drop 4) = (s1, v, st))
    (hbound : s1.epBound y = true) :
    ∃ t, exec (regInstr write f) s = .next (woken s t) ∧ t.cores = s1.cores ∧ OnlySent s1 t ∧ t.mwy = s1.mwy ∧
      Answered t y (regType write) f f.id st (answerBody f.payload v st) := by
  obtain ⟨hcores, hsent, hmwy⟩ := reply_keeps s1 (epRing y) ⟨epNo y, regType write, f.msgId, f.gen, f.id⟩ 0 st 0 []
    (answerBody f.payload v st)
  refine ⟨_, ?_, hcores, hsent, hmwy, answered_reply hbound _ f f.id 0 st 0 [] _⟩
  rw [exec_reg h, regsNow_one (epRing y) ⟨epNo y, regType write, f.msgId, f.gen, f.id⟩ hlen hn hz hentry]

/-- A malformed message is answered FORMAT, and nothing is written. -/
theorem reg_malformed_answered {s : State} {f : Frame} {y : Fin 64} {write : Bool}
    (hbad : within 1 64 (beAt f.payload 0 2) = false) (h : WholeMessage s (regType write) f y) :
    ∃ t, exec (regInstr write f) s = .next (woken s t) ∧ Answered t y (regType write) f f.id stFormat [] ∧
      t.cores = s.cores ∧ OnlySent s t ∧ t.mwy = s.mwy := by
  obtain ⟨hcores, hmwy, hsent, hbound⟩ := arrived_keeps s f y
  obtain ⟨hcores', hsent', hmwy'⟩ := reply_keeps (arrived s f y) (epRing y)
    ⟨epNo y, regType write, f.msgId, f.gen, f.id⟩ 0 stFormat 0 [] []
  rw [epBound_of_judge h.1] at hbound
  refine ⟨_, ?_, answered_reply hbound _ f f.id 0 stFormat 0 [] [], hcores'.trans hcores, hsent.trans hsent',
    hmwy'.trans hmwy⟩
  rw [exec_reg h, regsNow_malformed _ _ _ _ hbad]
  rfl

/-! ## The statement -/

/-- Settles O36: a write runs its request or its store, a message of one entry performs it and replies, and a malformed one is
answered FORMAT. -/
theorem registersAreReadAndWritten : Obligations.RegistersAreReadAndWritten := by
  intro s
  refine ⟨fun who addr v h => ?_, fun who addr v g r ha hg hright hne => ⟨fun hheard hplain => ?_, fun hheard => ?_,
    fun hdenied => ?_, fun hask hholds hwho hroom => ?_⟩, fun who addr v g ha hg hright => ⟨fun hmay hplain => ?_,
    fun hmay => ?_⟩, fun f y s0 s1 v st hs0 hlen hn hz hbound => ⟨fun h hread => ?_, fun h hv hwrite => ?_⟩,
    fun f y hbad => ⟨fun h => ?_, fun h => ?_⟩⟩
  · rw [exec_registerWrite, regWrite_nowhere s who v h]
  · refine ⟨_, rfl, ?_⟩
    rw [regWrite_ring v ha hg hright hne, request_heard _ _ _ hheard]
    exact performWrite_plain_stores hplain s who v
  · rw [exec_registerWrite, regWrite_ring v ha hg hright hne, request_heard _ _ _ hheard]
  · rw [exec_registerWrite, regWrite_ring v ha hg hright hne, request_denied _ _ _ hdenied]
  · refine ⟨_, rfl, ?_⟩
    rw [regWrite_ring v ha hg hright hne, request_held _ _ _ hask hholds hwho hroom]
    exact ⟨rfl, onlyRing_onRing s r _, ⟨who, BitVec.ofNat 32 g.addr, v⟩, by rw [ring_onRing], rfl, rfl⟩
  · refine ⟨_, rfl, ?_⟩
    rw [regWrite_manage v ha hg hright, if_pos hmay]
    exact performWrite_plain_stores hplain s who v
  · rw [exec_registerWrite, regWrite_manage v ha hg hright, hmay]
    rfl
  · subst hs0
    obtain ⟨t, hexec, -, -, -, hanswer⟩ := reg_entry_answered (write := false) h hlen hn hz
      ((regEntry_read _ _ _).trans hread) hbound
    exact ⟨t, hexec, hanswer⟩
  · subst hs0 hv
    exact reg_entry_answered (write := true) h hlen hn hz (by rw [regEntry_write, hwrite]) hbound
  · exact reg_malformed_answered (write := false) hbad h
  · exact reg_malformed_answered (write := true) hbad h

end Sys2Proof.Machine
end

section
/-! SUPPORT. The depths of the machine's queues (R24, R104, R108, R126, R154, R313, R447), cut into what is said of a core, of
a ring and of the whole machine. `QueuesFit.f` and `CoreFits.f` say that the model's function `f` keeps them, so that the
lemma of a function chains those of the functions that it calls: `h.setReg.bump` is about `(s.setReg ..).bump ..`. Here:
branches and folds, the state's own operations, the gathering buffer (R154) and the fault queues (R447). -/

namespace Sys2Proof.Machine

set_option Elab.async false
variable {β : Type} {s : State} {k : Core} {r : Fin 8} {c : Fin 16} {tag : Tag} {who : Who}

/-! ## The parts of the depths -/

/-- What QueuesFit says of one core (R104, R108, R126, R154). -/
def CoreFits (k : Core) : Prop :=
  (∀ q : Fin 5, k.queues[q].tags.length ≤ 64) ∧ (∀ n : Fin 8, k.dqs[n].length ≤ 32) ∧ k.gather.length ≤ 8 ∧
    (k.gather.map fun g => g.line).Nodup ∧ FlagsInOrder k

section
variable (hk : CoreFits k)
include hk

theorem CoreFits.tags (q : Fin 5) : k.queues[q].tags.length ≤ 64 := hk.1 q

theorem CoreFits.dqs (n : Fin 8) : k.dqs[n].length ≤ 32 := hk.2.1 n

theorem CoreFits.gatherRoom : k.gather.length ≤ 8 := hk.2.2.1

theorem CoreFits.lines : (k.gather.map fun g => g.line).Nodup := hk.2.2.2.1

theorem CoreFits.flags : FlagsInOrder k := hk.2.2.2.2

end

/-- What QueuesFit says of one ring (R313). -/
def RingFits (k : Ring) : Prop := k.held.length ≤ 256

/-- The state that an outcome goes on with has its queues within their depth. -/
def NextFits (o : Host.Outcome State Fault Refusal) : Prop := ∀ t, o = .next t → QueuesFit t

/-- The state that an operation answers, where it answers one, has its queues within their depth. -/
def SomeFits (o : Option State) : Prop := ∀ t, o = some t → QueuesFit t

theorem queuesFit_iff {s : State} : QueuesFit s ↔ (∀ c : Fin 16, CoreFits (s.core c)) ∧
    (∀ x : Crossing, (s.crossOf x).length ≤ 8) ∧ (∀ r : Fin 8, RingFits (s.ring r)) ∧ s.devFaults.length ≤ 64 := by
  constructor
  · rintro ⟨htags, hdqs, hcores, hcross, hheld, hfaults⟩
    exact ⟨fun c => ⟨htags c, hdqs c, hcores c⟩, hcross, hheld, hfaults⟩
  · rintro ⟨hcores, hcross, hheld, hfaults⟩
    exact ⟨fun c => (hcores c).1, fun c => (hcores c).2.1, fun c => (hcores c).2.2, hcross, hheld, hfaults⟩

theorem QueuesFit.core (h : QueuesFit s) {c : Fin 16} : CoreFits (s.core c) := (queuesFit_iff.mp h).1 c

theorem QueuesFit.ring (h : QueuesFit s) {r : Fin 8} : RingFits (s.ring r) := (queuesFit_iff.mp h).2.2.1 r

theorem QueuesFit.cross (h : QueuesFit s) {x : Crossing} : (s.crossOf x).length ≤ 8 := (queuesFit_iff.mp h).2.1 x

theorem QueuesFit.faults (h : QueuesFit s) : s.devFaults.length ≤ 64 := (queuesFit_iff.mp h).2.2.2

/-- The parts of the state that hold no queue may change at will. -/
theorem QueuesFit.update {pending regs shadows heldLow cycles mwy mwyBad mwyFlips dram streams sessions chans smpNext eps wire
    ethTurn trz boot flash power sec pins faultSeq heldBack fresh} (h : QueuesFit s) :
    QueuesFit ⟨pending, regs, shadows, heldLow, cycles, s.cores, s.rings, mwy, mwyBad, mwyFlips, dram, streams, sessions,
      chans, smpNext, eps, wire, ethTurn, trz, boot, flash, power, sec, pins, s.devFaults, faultSeq, s.cross, heldBack, fresh⟩ :=
  h

/-- So may the parts of a core that hold no queue. -/
theorem CoreFits.update {opnd opndBad acc accBad setPoison accPend wValid aValid dsValid latchValid latchFrom rx drainFree
    pipeUntil macUntil quantUntil vregs vPend vecNan slot access execute flags masterTest auditArr auditVec mem memBad memFlips
    ecc recs tlb dmaBusy unfoldBusy storeBusy hint trace traceLost traceAt traceIn traceBatch} (hk : CoreFits k) :
    CoreFits ⟨opnd, opndBad, acc, accBad, setPoison, accPend, wValid, aValid, dsValid, latchValid, latchFrom, rx, drainFree,
      pipeUntil, macUntil, quantUntil, vregs, vPend, vecNan, slot, k.queues, access, execute, k.dqs, flags, k.flagPend,
      masterTest, auditArr, auditVec, mem, memBad, memFlips, ecc, k.gather, recs, tlb, dmaBusy, unfoldBusy, storeBusy, hint,
      trace, traceLost, traceAt, traceIn, traceBatch⟩ :=
  hk

/-! ## Branches and folds -/

section
variable {α β : Type} {b : Prop} {_ : Decidable b}

theorem QueuesFit.ite {s t : State} (hs : QueuesFit s) (ht : QueuesFit t) : QueuesFit (if b then s else t) := by
  split
  · exact hs
  · exact ht

theorem QueuesFit.iteFst {p q : State × α} (hp : QueuesFit p.1) (hq : QueuesFit q.1) : QueuesFit (if b then p else q).1 := by
  split
  · exact hp
  · exact hq

theorem QueuesFit.of_eq {p : State × α} {t : State} {a : α} (he : p = (t, a)) (h : QueuesFit p.1) : QueuesFit t := by
  rw [he] at h
  exact h

theorem QueuesFit.foldl {f : State → β → State} {l : List β} (h : QueuesFit s)
    (hf : ∀ t x, QueuesFit t → QueuesFit (f t x)) : QueuesFit (l.foldl f s) :=
  foldl_keeps hf l s h

theorem QueuesFit.foldlFst {f : State × α → β → State × α} {l : List β} {p : State × α} (h : QueuesFit p.1)
    (hf : ∀ t x, QueuesFit t.1 → QueuesFit (f t x).1) : QueuesFit (l.foldl f p).1 := by
  refine foldl_keeps (P := fun p : State × α => QueuesFit p.1) (fun t x ht => ?_) l p h
  exact hf t x ht

theorem CoreFits.ite {k j : Core} (hk : CoreFits k) (hj : CoreFits j) : CoreFits (if b then k else j) := by
  split
  · exact hk
  · exact hj

theorem CoreFits.foldl {f : Core → β → Core} {l : List β} (hk : CoreFits k) (hf : ∀ j x, CoreFits j → CoreFits (f j x)) :
    CoreFits (l.foldl f k) :=
  foldl_keeps hf l k hk

theorem RingFits.ite {k j : Ring} (hk : RingFits k) (hj : RingFits j) : RingFits (if b then k else j) := by
  split
  · exact hk
  · exact hj

theorem QueuesFit.nextFits (h : QueuesFit s) : NextFits (.next s) := by
  rintro t ⟨⟩
  exact h

theorem nextFits_refused {m : Refusal} : NextFits (.refused m) := by rintro t ⟨⟩

theorem nextFits_fault {m : Fault} : NextFits (.fault m) := by rintro t ⟨⟩

theorem NextFits.ite {o p : Host.Outcome State Fault Refusal} (ho : NextFits o) (hp : NextFits p) :
    NextFits (if b then o else p) := by
  split
  · exact ho
  · exact hp

theorem QueuesFit.someFits (h : QueuesFit s) : SomeFits (some s) := by
  rintro t ⟨⟩
  exact h

theorem someFits_none : SomeFits none := by rintro t ⟨⟩

theorem SomeFits.ite {o p : Option State} (ho : SomeFits o) (hp : SomeFits p) : SomeFits (if b then o else p) := by
  split
  · exact ho
  · exact hp

theorem SomeFits.of_eq {o : Option State} {t : State} (h : SomeFits o) (he : o = some t) : QueuesFit t := h t he

theorem SomeFits.map {o : Option β} {f : β → State} (hf : ∀ x, QueuesFit (f x)) : SomeFits (o.map f) := by
  intro t ht
  obtain ⟨x, -, rfl⟩ := Option.map_eq_some_iff.mp ht
  exact hf x

end

/-! ## Machine/State -/

/-! ## Machine/Ops -/

theorem QueuesFit.setReg {r : Reg} {v : Word} (h : QueuesFit s) : QueuesFit (s.setReg r v) := h.update

theorem QueuesFit.setFld {r : Reg} {f : Fld} {n : Nat} (h : QueuesFit s) : QueuesFit (s.setFld r f n) := h.setReg

theorem QueuesFit.bump {r : Reg} {f : Fld} {n : Nat} (h : QueuesFit s) : QueuesFit (s.bump r f n) := h.setFld

theorem QueuesFit.setRegs {l : List (Reg × Word)} (h : QueuesFit s) : QueuesFit (s.setRegs l) := by
  induction l generalizing s with
  | nil => exact h
  | cons p l ih => exact ih h.setReg

theorem QueuesFit.setCore (h : QueuesFit s) (hk : CoreFits k) : QueuesFit (s.setCore c k) := by
  obtain ⟨hcores, hrest⟩ := queuesFit_iff.mp h
  refine queuesFit_iff.mpr ⟨fun d => ?_, hrest⟩
  by_cases hd : c = d
  · subst hd
    rw [core_setCore]
    exact hk
  · rw [core_setCore_ne s k hd]
    exact hcores d

theorem QueuesFit.onCore {f : Core → Core} (h : QueuesFit s)
    (hf : ∀ k, CoreFits k → CoreFits (f k) := by exact fun _ hk => hk.update) : QueuesFit (s.onCore c f) :=
  h.setCore (hf _ h.core)

theorem QueuesFit.setRing {k : Ring} (h : QueuesFit s) (hk : RingFits k) : QueuesFit (s.setRing r k) := by
  obtain ⟨hcores, hcross, hrings, hfaults⟩ := queuesFit_iff.mp h
  refine queuesFit_iff.mpr ⟨hcores, hcross, fun q => ?_, hfaults⟩
  by_cases hq : r = q
  · subst hq
    rw [ring_setRing]
    exact hk
  · rw [ring_setRing_ne s k hq]
    exact hrings q

theorem QueuesFit.onRing {f : Ring → Ring} (h : QueuesFit s)
    (hf : ∀ k, RingFits k → RingFits (f k) := by exact fun _ hk => hk) : QueuesFit (s.onRing r f) :=
  h.setRing (hf _ h.ring)

theorem QueuesFit.onEp {e : Fin 64} {f : Endpoint → Endpoint} (h : QueuesFit s) : QueuesFit (s.onEp e f) := h.update

theorem QueuesFit.onStream {x : Fin 64} {f : StreamCtx → StreamCtx} (h : QueuesFit s) : QueuesFit (s.onStream x f) :=
  h.update

theorem QueuesFit.onSession {x : Fin 16} {f : CodecSession → CodecSession} (h : QueuesFit s) :
    QueuesFit (s.onSession x f) :=
  h.update

theorem QueuesFit.onChan {x : Fin 16} {f : Channel → Channel} (h : QueuesFit s) : QueuesFit (s.onChan x f) := h.update

theorem QueuesFit.onPort {p : Fin 4} {f : TrzPort → TrzPort} (h : QueuesFit s) : QueuesFit (s.onPort p f) := h.update

theorem QueuesFit.tick {i : Fin 43} {n : Nat} (h : QueuesFit s) : QueuesFit (s.tick i n) := h.update

theorem QueuesFit.setRingState {st cause : Nat} (h : QueuesFit s) : QueuesFit (s.setRingState r st cause) := h.setFld.setFld

theorem QueuesFit.moveRing {st : Nat} (h : QueuesFit s) : QueuesFit (s.moveRing r st) := h.setFld

theorem QueuesFit.ticked (h : QueuesFit s) : QueuesFit s.ticked := h.update

theorem QueuesFit.raiseBit {r : Reg} {f : Fld} {k : Nat} (h : QueuesFit s) : QueuesFit (s.raiseBit r f k) := h.setFld

theorem QueuesFit.microsecond (h : QueuesFit s) : QueuesFit (s.microsecond r) :=
  .ite h (.ite (.ite h.bump h) (.ite h.bump.raiseBit.update h))

theorem QueuesFit.timed (h : QueuesFit s) : QueuesFit s.timed := by
  unfold State.timed
  extract_lets s1
  have h1 : QueuesFit s1 := .ite (h.foldl (fun _ _ h => h.microsecond)) h
  exact .ite h1.update h1

theorem QueuesFit.idleTick (h : QueuesFit s) : QueuesFit (idleTick s) := h.ticked.timed

/-! ## Machine/Memory -/

theorem CoreFits.decodeWord {w : Nat} (hk : CoreFits k) : CoreFits (decodeWord k w) := by
  unfold Machine.decodeWord
  split
  · exact hk
  · split
    · exact hk
    · exact hk.update
    · exact hk.update

theorem CoreFits.flushEntry {g : GatherEntry} (hk : CoreFits k) : CoreFits (flushEntry k g) :=
  .update (hk.foldl (fun _ _ hk => hk.decodeWord))

theorem CoreFits.withGather {l : List GatherEntry} (hk : CoreFits k) (hlen : l.length ≤ 8)
    (hlines : (l.map fun g => g.line).Nodup) : CoreFits { k with gather := l } := by
  obtain ⟨htags, hdqs, -, -, hflags⟩ := hk
  exact ⟨htags, hdqs, hlen, hlines, hflags⟩

/-- Some entries of the gathering buffer taken out. -/
theorem CoreFits.dropGather {l : List GatherEntry} {j : Core} (hk : CoreFits k) (hj : CoreFits j) (hl : l.Sublist j.gather) :
    CoreFits { k with gather := l } := by
  obtain ⟨-, -, hlen, hlines, -⟩ := hj
  exact hk.withGather (hl.length_le.trans hlen) (hlines.sublist (hl.map _))

theorem CoreFits.flushWhere {p : GatherEntry → Bool} (hk : CoreFits k) : CoreFits (flushWhere p k) :=
  .dropGather (hk.foldl fun _ _ hk => hk.flushEntry) hk List.filter_sublist

theorem CoreFits.flushAll (hk : CoreFits k) : CoreFits (flushAll k) := hk.flushWhere

theorem CoreFits.flushRange {a n : Nat} (hk : CoreFits k) : CoreFits (flushRange a n k) := hk.flushWhere

/-- An entry of a line that the buffer does not hold, and for which it has room. -/
theorem CoreFits.addGather {g : GatherEntry} (hk : CoreFits k) (hroom : k.gather.length < 8)
    (hnew : ∀ x ∈ k.gather, x.line ≠ g.line) : CoreFits { k with gather := k.gather ++ [g] } := by
  refine hk.withGather (by simpa using hroom) ?_
  rw [List.map_append, List.nodup_append]
  refine ⟨hk.lines, List.nodup_singleton _, ?_⟩
  simpa [List.mem_map] using fun x hx => hnew x hx

theorem CoreFits.gatherPut {line : Nat} {bytes : List (Nat × Byte)} (hk : CoreFits k) : CoreFits (gatherPut line bytes k) := by
  unfold Machine.gatherPut
  extract_lets put old rest k1 g
  have hother : ∀ x ∈ rest, x.line ≠ line := fun x hx => by simpa using (List.mem_filter.mp hx).2
  have hrest : rest.Sublist k.gather := List.filter_sublist
  have hlen : k.gather.length ≤ 8 := hk.gatherRoom
  have h1 : CoreFits k1 ∧ k1.gather.length < 8 ∧ ∀ x ∈ k1.gather, x.line ≠ line := by
    unfold k1
    by_cases hfull : (old.isNone && decide (8 ≤ rest.length)) = true
    · rw [if_pos hfull]
      simp only [Bool.and_eq_true, decide_eq_true_eq] at hfull
      cases hr : rest with
      | nil => simp [hr] at hfull
      | cons x t =>
        have ht : t.Sublist rest := hr ▸ List.sublist_cons_self x t
        refine ⟨.dropGather hk.flushEntry hk (ht.trans hrest), ?_, fun y hy => hother y (ht.subset hy)⟩
        have hle := hrest.length_le
        simp only [hr, List.length_cons] at hle
        exact (Nat.lt_of_succ_le hle).trans_le hlen
    · rw [if_neg hfull]
      refine ⟨hk.dropGather hk hrest, ?_, hother⟩
      cases hold : old with
      | none =>
        simp only [hold, Option.isNone_none, Bool.true_and, decide_eq_true_eq, not_le] at hfull
        exact hfull
      | some x =>
        have hmem := List.mem_of_find?_eq_some hold
        have hline := List.find?_some hold
        exact (List.length_filter_lt_length_iff_exists.mpr ⟨x, hmem, by simpa using hline⟩).trans_le hlen
  obtain ⟨hk1, hroom, hnew⟩ := h1
  have hg : g.line = line := by
    refine foldl_keeps (P := fun x : GatherEntry => x.line = line) ?_ bytes _ ?_
    · exact fun _ _ hx => hx
    cases hold : old with
    | none => rfl
    | some x => simpa using List.find?_some hold
  split
  · exact hk1.flushEntry
  · exact hk1.addGather hroom fun x hx => hg ▸ hnew x hx

theorem CoreFits.corePut {a : Nat} {d : List PByte} (hk : CoreFits k) : CoreFits (corePut a d k) :=
  .update (hk.flushRange.foldl (fun _ _ hk => hk.decodeWord))

theorem CoreFits.readyRange {a n : Nat} (hk : CoreFits k) : CoreFits (readyRange a n k) :=
  hk.flushRange.foldl (fun _ _ hk => hk.decodeWord)

theorem CoreFits.opPut {a : Nat} {d : List PByte} (hk : CoreFits k) : CoreFits (opPut a d k) := hk.update

/-! ## Machine/Records -/

theorem QueuesFit.log {source code arg0 arg1 : Nat} (h : QueuesFit s) : QueuesFit (s.log source code arg0 arg1) :=
  .ite h.update h.update

theorem QueuesFit.recordLost {ring : Option (Fin 8)} (h : QueuesFit s) : QueuesFit (s.recordLost ring) := by
  unfold State.recordLost
  split
  · exact h.bump.log
  · exact h.bump.log

theorem length_enqueueRecord {cap : Nat} {l : List FaultRec} {f : FaultRec} (hl : l.length ≤ cap) (hf : recFaulting f = false) :
    (enqueueRecord cap l f).1.length ≤ cap := by
  unfold enqueueRecord
  split
  · simpa
  · rw [hf]
    exact hl

theorem QueuesFit.withFaults {l : List FaultRec} (h : QueuesFit s) (hl : l.length ≤ 64) : QueuesFit { s with devFaults := l } := by
  obtain ⟨hcores, hcross, hrings, -⟩ := queuesFit_iff.mp h
  exact queuesFit_iff.mpr ⟨hcores, hcross, hrings, hl⟩

/-- A record of the device holds no ring in its second byte, whose bit 6 would mark a fault that stops a ring. -/
theorem recFaulting_newRecord {ring : Option (Fin 8)} {faulting : Bool} {i : FaultInfo} (hr : ring = none) :
    recFaulting (s.newRecord ring faulting i) = false := by
  subst hr
  simp [recFaulting, State.newRecord, recRingByte]

/-- The device's fault queue takes no record of a ring's fault, so that it never grows beyond its depth (R447). -/
theorem QueuesFit.storeRecord {ring : Option (Fin 8)} {f : FaultRec} (h : QueuesFit s)
    (hf : ring = none → recFaulting f = false := by exact recFaulting_newRecord) : QueuesFit (s.storeRecord ring f) := by
  unfold State.storeRecord
  split
  case h_1 r => exact .ite h.onRing h.onRing.recordLost
  case h_2 =>
    have hq := h.withFaults (length_enqueueRecord h.faults (hf rfl))
    exact .ite hq hq.recordLost

theorem QueuesFit.logRecord {ring : Option (Fin 8)} {faulting : Bool} {i : FaultInfo} {seq : Word} (h : QueuesFit s) :
    QueuesFit (s.logRecord ring faulting i seq) := by
  unfold State.logRecord
  split
  · exact .ite h.log h
  · exact .ite h.log (.ite h.log h)

theorem QueuesFit.deviceRecord {i : FaultInfo} (h : QueuesFit s) : QueuesFit (s.deviceRecord i) :=
  h.update.storeRecord.logRecord

end Sys2Proof.Machine
end

section
/-! SUPPORT. Reports, endpoints, traces and the ports of memory keep the depths of the queues. -/

namespace Sys2Proof.Machine

set_option Elab.async false
variable {β : Type} {s : State} {k : Core} {r : Fin 8} {c : Fin 16} {tag : Tag} {who : Who}

/-! ## Machine/Lines -/

theorem QueuesFit.ddrShow {q : Requester} {a kind owner : Nat} (h : QueuesFit s) : QueuesFit (s.ddrShow q a kind owner) :=
  h.setReg.setReg.setReg

theorem QueuesFit.ddrCount {n : Nat} {v : Verdict} (h : QueuesFit s) : QueuesFit (s.ddrCount n v) := by
  unfold State.ddrCount
  extract_lets u s1 s2
  have h1 : QueuesFit s1 := .ite h.bump (.ite h.bump (.ite h.bump (.ite h.bump h)))
  have h2 : QueuesFit s2 := .ite h1.bump h1
  exact .ite h2.update h2

theorem QueuesFit.lineError {rep : Bool → FaultInfo → State → State} {q : Requester} {n access : Nat} {v : Verdict}
    (h : QueuesFit s) (hrep : ∀ x0 x1 x2, QueuesFit x2 → QueuesFit (rep x0 x1 x2)) :
    QueuesFit (State.lineError rep s q tag n access v) :=
  .ite h (hrep _ _ _ h.ddrShow)

theorem QueuesFit.lineReadBy {rep : Bool → FaultInfo → State → State} {q : Requester} {gen : Option (BitVec 16)} {n : Nat}
    (h : QueuesFit s) (hrep : ∀ x0 x1 x2, QueuesFit x2 → QueuesFit (rep x0 x1 x2)) :
    QueuesFit (State.lineReadBy rep s q tag gen n).1 :=
  h.ddrCount.lineError (fun _ _ _ h => hrep _ _ _ h)

theorem QueuesFit.linesReadBy {rep : Bool → FaultInfo → State → State} {q : Requester} {tag : Tag} {gen : Option (BitVec 16)}
    {k n : Nat} (h : QueuesFit s) (hrep : ∀ b i t, QueuesFit t → QueuesFit (rep b i t)) :
    QueuesFit (State.linesReadBy rep q tag gen k n s).1 := by
  induction k generalizing n s with
  | zero => exact h
  | succ k ih =>
    unfold State.linesReadBy
    split
    · exact .of_eq ‹_› (h.lineReadBy hrep)
    · split
      · exact .of_eq ‹_› (ih (.of_eq ‹_› (h.lineReadBy hrep)))
      · exact .of_eq ‹_› (ih (.of_eq ‹_› (h.lineReadBy hrep)))

theorem QueuesFit.rangeReadBy {rep : Bool → FaultInfo → State → State} {q : Requester} {gen : Option (BitVec 16)}
    {a n : Nat} (h : QueuesFit s) (hrep : ∀ x0 x1 x2, QueuesFit x2 → QueuesFit (rep x0 x1 x2)) :
    QueuesFit (State.rangeReadBy rep s q tag gen a n).1 := by
  unfold State.rangeReadBy
  split
  · exact .of_eq ‹_› (h.linesReadBy (fun _ _ _ h => hrep _ _ _ h))
  · exact .of_eq ‹_› (h.linesReadBy (fun _ _ _ h => hrep _ _ _ h))

theorem QueuesFit.lineWriteBy {rep : Bool → FaultInfo → State → State} {q : Requester} {gen : BitVec 16} {n at_ : Nat}
    {d : List PByte} (h : QueuesFit s) (hrep : ∀ x0 x1 x2, QueuesFit x2 → QueuesFit (rep x0 x1 x2)) :
    QueuesFit (State.lineWriteBy rep s q tag gen n at_ d).1 := by
  unfold State.lineWriteBy
  split
  · exact h.update
  · extract_lets v s1
    have h1 : QueuesFit s1 := h.ddrCount.lineError (fun _ _ _ h => hrep _ _ _ h)
    exact .iteFst h1 h1.update

theorem QueuesFit.linesWriteBy {rep : Bool → FaultInfo → State → State} {q : Requester} {tag : Tag} {gen : BitVec 16}
    {k a : Nat} {d : List PByte} (h : QueuesFit s) (hrep : ∀ b i t, QueuesFit t → QueuesFit (rep b i t)) :
    QueuesFit (State.linesWriteBy rep q tag gen k a d s).1 := by
  induction k generalizing a d s with
  | zero => exact h
  | succ k ih =>
    unfold State.linesWriteBy
    split
    · exact h
    · dsimp only
      split
      · exact .of_eq ‹_› (h.lineWriteBy hrep)
      · exact ih (.of_eq ‹_› (h.lineWriteBy hrep))

theorem QueuesFit.ownRead {q : Requester} {a n : Nat} (h : QueuesFit s) : QueuesFit (s.ownRead q a n).1 :=
  h.rangeReadBy (fun _ _ _ h => h.deviceRecord)

theorem QueuesFit.ownWrite {q : Requester} {a : Nat} {d : List Byte} (h : QueuesFit s) : QueuesFit (s.ownWrite q a d) :=
  h.linesWriteBy (fun _ _ _ h => h.deviceRecord)

/-! ## Machine/Report -/

theorem QueuesFit.toWire {p : Fin 4} {f : TxFrame} (h : QueuesFit s) : QueuesFit (s.toWire p f) := h.update

theorem QueuesFit.portFrame {e : Fin 64} {m : Msg} (h : QueuesFit s) : QueuesFit (s.portFrame e m) := h.toWire.onEp.update

theorem QueuesFit.intLine {o : Nat} (h : QueuesFit s) : QueuesFit (s.intLine o).1 := h.ownRead

theorem QueuesFit.areaEntry {e : Fin 64} {m : Msg} (h : QueuesFit s) : QueuesFit (s.areaEntry e m).1 := by
  unfold State.areaEntry
  split
  · extract_lets entry padded
    split
    · exact .of_eq ‹_› h.intLine
    · extract_lets s2
      have h1 : QueuesFit s2 := .ite (.ownWrite (.of_eq ‹_› h.intLine)) (.of_eq ‹_› h.intLine)
      exact h1.ownWrite.ownWrite

theorem RingFits.slotPut {n : Nat} {v : Option ResultSlot} {k : Ring} (hk : RingFits k) : RingFits (slotPut n v k) := hk

theorem QueuesFit.passed {e : Fin 64} {m : Msg} (h : QueuesFit s) : QueuesFit (s.passed e m) := by
  unfold State.passed
  extract_lets s1
  split
  · refine .onRing h.onEp fun _ hk => ?_
    split
    · exact .ite hk.slotPut hk
    · exact hk
  · exact h.onEp

theorem QueuesFit.sendOne {e : Fin 64} (h : QueuesFit s) : QueuesFit (s.sendOne e).1 := by
  unfold State.sendOne
  split
  · exact h
  · next m _ =>
    have hsent : QueuesFit (if s.epInternal e then s.areaEntry e m else (s.portFrame e m, true)).1 :=
      .iteFst h.areaEntry h.portFrame
    split
    next s1 left hleft =>
      rw [hleft] at hsent
      split
      · exact hsent
      · extract_lets s2
        split
        · exact hsent.onEp.passed
        · exact hsent.onEp.onEp

theorem QueuesFit.pump {e : Fin 64} {fuel : Nat} (h : QueuesFit s) : QueuesFit (State.pump e fuel s) := by
  induction fuel generalizing s with
  | zero => exact h
  | succ fuel ih =>
    unfold State.pump
    split
    · exact ih (.of_eq ‹_› h.sendOne)
    · exact .of_eq ‹_› h.sendOne

theorem QueuesFit.pumpEp {e : Fin 64} (h : QueuesFit s) : QueuesFit (s.pumpEp e) := h.pump

theorem QueuesFit.servePort {p : Fin 4} {fuel : Nat} (h : QueuesFit s) : QueuesFit (State.servePort p fuel s) := by
  induction fuel generalizing s with
  | zero => exact h
  | succ fuel ih =>
    unfold State.servePort
    split
    · exact ih h.sendOne
    · exact h

theorem QueuesFit.pumpPortEps {p : Fin 4} (h : QueuesFit s) : QueuesFit (s.pumpPortEps p) := h.servePort

theorem QueuesFit.send {e : Fin 64} {m : Msg} (h : QueuesFit s) : QueuesFit (s.send e m) := .ite h.onEp.pumpEp h

theorem QueuesFit.sendOwn {e : Fin 64} {cls : Nat} {type : Byte} {id : Word} {stamp : DWord} {bad : List Nat}
    {body : List Byte} (h : QueuesFit s) : QueuesFit (s.sendOwn e cls type id stamp bad body) :=
  h.onEp.send

theorem QueuesFit.reply {a : Asker} {cls status : Nat} {stamp : DWord} {bad : List Nat} {body : List Byte}
    (h : QueuesFit s) : QueuesFit (s.reply r a cls status stamp bad body) :=
  h.send

theorem QueuesFit.replyStatus {a : Asker} {status : Nat} (h : QueuesFit s) : QueuesFit (s.replyStatus r a status) := h.reply

theorem QueuesFit.pushRecord {ring : Option (Fin 8)} {f : FaultRec} (h : QueuesFit s) :
    QueuesFit (s.pushRecord ring f) := by
  unfold State.pushRecord
  split
  · split
    · exact h.sendOwn
    · exact h
  · exact h

theorem QueuesFit.fileRecord {ring : Option (Fin 8)} {faulting : Bool} {i : FaultInfo} {f : FaultRec} (h : QueuesFit s)
    (hf : ring = none → recFaulting f = false := by exact recFaulting_newRecord) :
    QueuesFit (s.fileRecord ring faulting i f) :=
  (h.storeRecord hf).pushRecord.logRecord

theorem QueuesFit.recordUnseen {ring : Option (Fin 8)} {i : FaultInfo} (h : QueuesFit s) :
    QueuesFit (s.recordUnseen ring i) :=
  h.update.fileRecord

theorem QueuesFit.traceBatchOut {n : Nat} (h : QueuesFit s) : QueuesFit (s.traceBatchOut r c n) := by
  unfold State.traceBatchOut
  extract_lets k bytes s1
  have h1 : QueuesFit s1 := h.setCore h.core.update
  split
  · exact h1
  · exact h1.sendOwn

theorem QueuesFit.traceDumpOut {n : Nat} (h : QueuesFit s) : QueuesFit (s.traceDumpOut r c n) := by
  unfold State.traceDumpOut
  extract_lets k size off bytes base put
  refine .setFld ?_
  refine .linesWriteBy ?_ (fun _ _ _ h => h.recordUnseen)
  exact (h.setCore h.core.update).linesWriteBy (fun _ _ _ h => h.recordUnseen)

theorem QueuesFit.traceLose (h : QueuesFit s) : QueuesFit (s.traceLose c) := h.onCore.bump

theorem QueuesFit.traceStore {t : TraceRec} (h : QueuesFit s) : QueuesFit (s.traceStore r c t) := by
  unfold State.traceStore
  extract_lets taken k full
  split
  · exact .ite h.traceLose (h.setCore h.core.update.update)
  · split
    · exact h.traceLose
    · extract_lets lost s1
      have h1 : QueuesFit s1 := h.setCore h.core.update.update
      exact .ite h1.traceDumpOut (.ite h1.traceBatchOut h1)

theorem QueuesFit.trace {event operand q : Nat} (h : QueuesFit s) : QueuesFit (s.trace c event tag operand q) := by
  unfold State.trace
  split
  · exact h
  · exact .ite h.traceStore h

theorem QueuesFit.traceDrain (h : QueuesFit s) : QueuesFit (s.traceDrain r) := by
  unfold State.traceDrain
  refine .foldl h fun _ _ h => ?_
  extract_lets n
  split
  · exact h
  · split
    · exact h.traceDumpOut
    · exact h.foldl (fun _ _ h => h.traceBatchOut)
    · exact h

theorem QueuesFit.record {ring : Option (Fin 8)} {faulting : Bool} {i : FaultInfo} (h : QueuesFit s) :
    QueuesFit (s.record ring faulting i) :=
  .fileRecord (.ite h.update.trace h.update)

theorem QueuesFit.dropPending {status : Nat} (h : QueuesFit s) : QueuesFit (s.dropPending r status) := by
  unfold State.dropPending
  refine .foldl ?_ fun _ _ h => ?_
  · exact .onRing (h.foldl (fun _ _ h => h.setFld))
  · split
    · exact h.replyStatus
    · exact h

theorem QueuesFit.setCtxState {x : Fin 4096} {st : Nat} (h : QueuesFit s) : QueuesFit (s.setCtxState x st) := h.setFld

theorem QueuesFit.onCtx {x : Fin 4096} {f : CtxInfo → CtxInfo} (h : QueuesFit s) : QueuesFit (s.onCtx r x f) := h.onRing

theorem QueuesFit.contextsBack (h : QueuesFit s) : QueuesFit (s.contextsBack r) :=
  h.foldl (fun _ _ h => .ite h.onCtx.setCtxState h.onCtx)

theorem QueuesFit.enterFaulted {cause : Nat} (h : QueuesFit s) : QueuesFit (s.enterFaulted r cause) :=
  h.setRingState.setFld.traceDrain.dropPending.contextsBack

theorem QueuesFit.faultRing {i : FaultInfo} (h : QueuesFit s) : QueuesFit (s.faultRing r i) :=
  .ite h.record.enterFaulted (.ite h.record h)

theorem QueuesFit.isolation {island inst row access len addr : Nat} (h : QueuesFit s) :
    QueuesFit (s.isolation r tag island inst row access len addr) :=
  h.faultRing

theorem QueuesFit.poisoned {sourceTag : Tag} {island inst level queue addr : Nat} (h : QueuesFit s) :
    QueuesFit (s.poisoned r tag sourceTag island inst level queue addr) :=
  h.faultRing

/-! ## Machine/OnChip -/

theorem QueuesFit.coreEcc {w : Nat} {bad : Bool} (h : QueuesFit s) : QueuesFit (s.coreEcc tag c w bad) :=
  .ite h.bump.record h.bump

theorem QueuesFit.onMem {f : Core → Core} (h : QueuesFit s)
    (hf : ∀ k, CoreFits k → CoreFits (f k) := by exact fun _ hk => hk.update) : QueuesFit (s.onMem tag c f) :=
  .foldl (h.setCore (hf _ h.core).update) fun _ _ h => h.coreEcc

theorem QueuesFit.cmRead {a n : Nat} (h : QueuesFit s) : QueuesFit (s.cmRead tag c a n).1 := by
  unfold State.cmRead
  extract_lets s1 d
  have h1 : QueuesFit s1 := h.onMem (fun _ hk => hk.readyRange)
  exact .ite h1.setFld h1

theorem QueuesFit.cmWrite {a : Nat} {d : List PByte} (h : QueuesFit s) : QueuesFit (s.cmWrite tag c a d) :=
  h.onMem (fun _ hk => hk.corePut)

theorem QueuesFit.remoteWrite {a : Nat} {bytes : List Byte} (h : QueuesFit s) : QueuesFit (s.remoteWrite tag c a bytes) :=
  h.onMem (fun _ hk => hk.gatherPut)

theorem QueuesFit.sliceBad {ring : Option (Fin 8)} {n : Nat} (h : QueuesFit s) : QueuesFit (s.sliceBad ring tag n) :=
  h.bump.update.record

theorem QueuesFit.sliceDecode {n : Nat} (h : QueuesFit s) : QueuesFit (s.sliceDecode r tag n) := by
  unfold State.sliceDecode
  split
  · exact h
  · split
    · exact h
    · exact h.bump
    · exact h.sliceBad

theorem QueuesFit.mwyRead {a n : Nat} (h : QueuesFit s) : QueuesFit (s.mwyRead r tag a n).1 :=
  .foldl (h.foldl (fun _ _ h => h.sliceDecode)) (fun _ _ h => h.setFld)

theorem QueuesFit.mwyWrite {a : Nat} {d : List PByte} (h : QueuesFit s) : QueuesFit (s.mwyWrite r tag a d) :=
  .update (h.foldl (fun _ _ h => h.sliceDecode))

/-! ## Machine/DramPort -/

theorem QueuesFit.report {q : Requester} {isolation : Bool} {i : FaultInfo} (h : QueuesFit s) :
    QueuesFit (q.report isolation i s) := by
  unfold Requester.report
  split
  · exact h.faultRing
  · exact h.record

theorem QueuesFit.ddrOutside {q : Requester} {a n access : Nat} (h : QueuesFit s) :
    QueuesFit (s.ddrOutside q tag a n access) :=
  h.report

theorem QueuesFit.dramRead {q : Requester} {gen : Option (BitVec 16)} {a n : Nat} (h : QueuesFit s) :
    QueuesFit (s.dramRead q tag gen a n).1 :=
  .iteFst h (.iteFst (h.rangeReadBy (fun _ _ _ h => h.report)) h.ddrOutside)

theorem QueuesFit.dramWrite {q : Requester} {gen : BitVec 16} {a : Nat} {d : List PByte} (h : QueuesFit s) :
    QueuesFit (s.dramWrite q tag gen a d).1 :=
  .iteFst h (.iteFst (h.linesWriteBy (fun _ _ _ h => h.report)) h.ddrOutside)

theorem QueuesFit.bufRead {a : DWord} {o n : Nat} (h : QueuesFit s) : QueuesFit (s.bufRead r a o n).1 :=
  .iteFst h.dramRead h.mwyRead

theorem QueuesFit.bufWrite {a : DWord} {o : Nat} {d : List PByte} (h : QueuesFit s) : QueuesFit (s.bufWrite r a o d).1 :=
  .iteFst h.dramWrite h.mwyWrite

end Sys2Proof.Machine
end

section
/-! SUPPORT. Flags, crossings and the engine queues keep the depths of the queues: an operation on a flag takes its place in
order (R126), a crossing takes an entry where it has room (R23), a command lines up where each of its queues has room (R104). -/

namespace Sys2Proof.Machine

set_option Elab.async false
variable {β : Type} {s : State} {k : Core} {r : Fin 8} {c : Fin 16} {tag : Tag} {who : Who}

/-! ## Machine/Flags -/

theorem CoreFits.withFlagPend {l : List FlagOp} (hk : CoreFits k) (hl : l.Pairwise fun a b => opKey a ≤ opKey b) :
    CoreFits { k with flagPend := l } := by
  obtain ⟨htags, hdqs, hlen, hlines, -⟩ := hk
  exact ⟨htags, hdqs, hlen, hlines, hl⟩

theorem CoreFits.flagPend (hk : CoreFits k) : k.flagPend.Pairwise fun a b => opKey a ≤ opKey b := hk.flags

theorem QueuesFit.reachFlags {v : BitVec 64 × Bool} {p : FlagOp → Bool} (h : QueuesFit s) : QueuesFit (s.reachFlags c v p) := by
  have h1 : QueuesFit (s.onCore c fun k => { k with flags := v.1, flagPend := k.flagPend.filter fun o => !p o }) :=
    h.onCore fun _ hk => (hk.withFlagPend (hk.flagPend.filter _)).update
  exact .ite h1.setFld h1

theorem QueuesFit.flagsTo {u : Nat} (h : QueuesFit s) : QueuesFit (s.flagsTo c u) := h.reachFlags

theorem QueuesFit.flagsNow (h : QueuesFit s) : QueuesFit (s.flagsNow c) := h.reachFlags

theorem mem_insertOp {o x : FlagOp} {l : List FlagOp} (hx : x ∈ insertOp o l) : x = o ∨ x ∈ l := by
  induction l with
  | nil => simpa [insertOp] using hx
  | cons y t ih =>
    unfold insertOp at hx
    split at hx <;> grind

/-- An operation takes its place in the order in which operations reach their flags (R126). -/
theorem pairwise_insertOp {o : FlagOp} {l : List FlagOp} (hl : l.Pairwise fun a b => opKey a ≤ opKey b) :
    (insertOp o l).Pairwise fun a b => opKey a ≤ opKey b := by
  induction l with
  | nil => exact List.pairwise_singleton _ _
  | cons x t ih =>
    obtain ⟨hx, ht⟩ := List.pairwise_cons.mp hl
    unfold insertOp
    split
    case isTrue hle =>
      refine List.pairwise_cons.mpr ⟨fun y hy => ?_, ih ht⟩
      rcases mem_insertOp hy with rfl | hy
      · exact hle
      · exact hx y hy
    case isFalse hlt =>
      refine List.pairwise_cons.mpr ⟨fun y hy => ?_, hl⟩
      have hox : opKey o ≤ opKey x := (Nat.lt_of_not_le hlt).le
      rcases List.mem_cons.mp hy with rfl | hy
      · exact hox
      · exact hox.trans (hx y hy)

theorem QueuesFit.pendFlag {exec : Bool} {n : Fin 64} {set : Bool} (h : QueuesFit s) :
    QueuesFit (s.pendFlag c exec n set) :=
  .onCore (.ite h h.flagsNow) fun _ hk => hk.withFlagPend (pairwise_insertOp hk.flagPend)

theorem QueuesFit.flagArrives {n : Fin 64} {set : Bool} (h : QueuesFit s) : QueuesFit (s.flagArrives c n set) :=
  h.reachFlags

theorem QueuesFit.consumeCore {exec : Bool} {n : Fin 64} (h : QueuesFit s) : QueuesFit (s.consumeCore c exec n) :=
  .onCore (.ite h h.flagsNow)

theorem QueuesFit.withCross {l : List (Crossing × CrossOp)} (h : QueuesFit s)
    (hl : ∀ x : Crossing, (l.filter fun e => e.1 == x).length ≤ 8) : QueuesFit { s with cross := l } := by
  obtain ⟨hcores, -, hrest⟩ := queuesFit_iff.mp h
  refine queuesFit_iff.mpr ⟨hcores, fun x => ?_, hrest⟩
  rw [State.crossOf, List.length_map]
  exact hl x

theorem QueuesFit.crossing (h : QueuesFit s) (x : Crossing) : (s.cross.filter fun e => e.1 == x).length ≤ 8 := by
  have hx := h.cross (x := x)
  rwa [State.crossOf, List.length_map] at hx

/-- An entry put behind those of its crossing, of which fewer than 8 stand there (R23). -/
theorem length_filter_concat {l : List (Crossing × CrossOp)} {x y : Crossing} {o : CrossOp}
    (hl : (l.filter fun e => e.1 == y).length ≤ 8) (hroom : (l.filter fun e => e.1 == x).length < 8) :
    ((l ++ [(x, o)]).filter fun e => e.1 == y).length ≤ 8 := by
  rw [List.filter_append, List.length_append]
  by_cases hxy : x = y
  · subst hxy
    simpa using hroom
  · simpa [hxy] using hl

theorem QueuesFit.crossPut {x : Crossing} {o : CrossOp} (h : QueuesFit s) : QueuesFit (s.crossPut x o) := by
  unfold State.crossPut
  split
  case isTrue => exact h.update
  case isFalse hfree =>
    simp only [Bool.or_eq_true, not_or, State.crossFull, State.crossOf, List.length_map, decide_eq_true_eq, not_le] at hfree
    exact h.withCross fun y => length_filter_concat (h.crossing y) hfree.1

theorem takeCross_filter {x : Crossing} {o : CrossOp} {l rest : List (Crossing × CrossOp)} (h : takeCross x l = some (o, rest))
    (y : Crossing) : (rest.filter fun e => e.1 == y).length + (if x = y then 1 else 0) = (l.filter fun e => e.1 == y).length := by
  induction l generalizing rest with
  | nil => cases h
  | cons e t ih =>
    unfold takeCross at h
    split at h
    case isTrue he =>
      cases h
      by_cases hxy : x = y <;> simp [he, hxy]
    case isFalse he =>
      obtain ⟨⟨o', rest'⟩, ht, heq⟩ := Option.map_eq_some_iff.mp h
      cases heq
      have hy := ih ht
      by_cases hey : e.1 = y <;> simp [hey] <;> omega

/-- The place that a delivery frees takes the oldest entry that its sender holds back (R23). -/
theorem QueuesFit.crossTaken {x : Crossing} {o : CrossOp} {rest : List (Crossing × CrossOp)} (h : QueuesFit s)
    (htake : takeCross x s.cross = some (o, rest)) : QueuesFit (s.crossTaken x rest) := by
  have hle : ∀ y, (rest.filter fun e => e.1 == y).length ≤ 8 := fun y => by
    have hy := takeCross_filter htake y
    have hs := h.crossing y
    omega
  have hroom : (rest.filter fun e => e.1 == x).length < 8 := by
    have hx := takeCross_filter htake x
    have hs := h.crossing x
    rw [if_pos rfl] at hx
    omega
  unfold State.crossTaken
  split
  · exact (h.withCross fun y => length_filter_concat (hle y) hroom).update
  · exact h.withCross hle

theorem QueuesFit.dropEntries (h : QueuesFit s) : QueuesFit (s.dropEntries r) := by
  have h1 : QueuesFit { s with cross := s.cross.filter fun e => !e.2.ofRing r, heldBack := [] } :=
    (h.withCross fun x => ((List.filter_sublist.filter _).length_le.trans (h.crossing x))).update
  exact h1.foldl fun _ _ h => h.crossPut

theorem QueuesFit.queueTrigger {slot kind arg : Nat} {stamp : DWord} (h : QueuesFit s) :
    QueuesFit (s.queueTrigger r slot kind arg stamp) :=
  .ite h (.ite h.onRing h.bump.setFld)

theorem QueuesFit.fire {kind arg : Nat} {stamp : DWord} (h : QueuesFit s) : QueuesFit (s.fire r kind arg stamp) :=
  h.foldl (fun _ _ h => .ite h.queueTrigger h)

theorem QueuesFit.post {stream : Fin 16} (h : QueuesFit s) : QueuesFit (s.post r stream) := by
  unfold State.post
  extract_lets t
  split
  · exact h.bump
  · exact .bump (h.bufRead.onRing (fun _ hk => hk.slotPut))

theorem QueuesFit.clearRingFlag {n : Fin 256} (h : QueuesFit s) : QueuesFit (s.clearRingFlag r n) := h.onRing

theorem CoreFits.withQueue {q : Fin 5} {e : EngineQueue} (hk : CoreFits k) (he : e.tags.length ≤ 64) :
    CoreFits { k with queues := k.queues.set q e } := by
  obtain ⟨htags, hrest⟩ := hk
  refine ⟨fun p => ?_, hrest⟩
  by_cases hp : q = p
  · subst hp
    simpa using he
  · have hne : q.val ≠ p.val := fun hv => hp (Fin.ext hv)
    simpa [Vector.getElem_set_ne _ _ hne] using htags p

theorem QueuesFit.setProbe {u : SeqUnit} {p : Probe} (h : QueuesFit s) : QueuesFit (s.setProbe u p) := by
  cases u with
  | queue c q mask => exact h.onCore fun k hk => hk.withQueue (hk.tags q)
  | access c => exact h.onCore
  | execute c => exact h.onCore
  | ringmaster r => exact h.onRing

theorem QueuesFit.ask {u : SeqUnit} {o : CrossOp} (h : QueuesFit s) : QueuesFit (s.ask u o) := h.setProbe.crossPut

theorem QueuesFit.answerTo {u : SeqUnit} {v : Bool} (h : QueuesFit s) : QueuesFit (s.answerTo r u v) := h.crossPut

theorem QueuesFit.serveTests {n : Fin 256} (h : QueuesFit s) : QueuesFit (s.serveTests r n) := by
  unfold State.serveTests
  split
  · exact h
  · extract_lets here first pass s1 s2
    have h1 : QueuesFit s1 := h.foldl (fun _ _ h => h.answerTo)
    exact .ite h1.onRing.clearRingFlag h1.onRing

theorem QueuesFit.setRingFlag {n : Fin 256} (h : QueuesFit s) : QueuesFit (s.setRingFlag r n) := by
  unfold State.setRingFlag
  extract_lets s1 s2 ts s3 s4 s5
  have h3 : QueuesFit s3 := .foldl (.onRing (.ite h.setFld h)) (fun _ _ h => h.post)
  have h4 : QueuesFit s4 := .ite h3 h3.crossPut
  exact .serveTests (.ite h4.fire.crossPut h4)

theorem QueuesFit.testArrives {u : SeqUnit} {n : Fin 256} {kind : TestKind} (h : QueuesFit s) :
    QueuesFit (s.testArrives r u n kind) := by
  unfold State.testArrives
  split
  · exact h
  · split
    · exact h.answerTo
    · exact h.onRing.serveTests
    · exact h.onRing.serveTests

theorem QueuesFit.serveMaster (h : QueuesFit s) : QueuesFit (s.serveMaster r c) := by
  unfold State.serveMaster
  split
  · exact h
  · exact .ite (.crossPut (.onCore (.ite h.consumeCore h))) h

theorem QueuesFit.coreTestArrives {n : Fin 64} {kind : TestKind} (h : QueuesFit s) :
    QueuesFit (s.coreTestArrives r c n kind) := by
  unfold State.coreTestArrives
  split
  · exact h
  · split
    · exact h.crossPut
    · exact h.onCore.serveMaster
    · exact h.onCore.serveMaster

theorem QueuesFit.answerArrives {u : SeqUnit} {v : Bool} (h : QueuesFit s) : QueuesFit (s.answerArrives u v) :=
  .ite h.setProbe h

theorem QueuesFit.setByCore {exec : Bool} {x : FlagRef} (h : QueuesFit s) : QueuesFit (s.setByCore r c exec x) := by
  unfold State.setByCore
  split
  · exact h.pendFlag
  · exact h.crossPut

theorem QueuesFit.clearByCore {exec : Bool} {x : FlagRef} (h : QueuesFit s) : QueuesFit (s.clearByCore r c exec x) := by
  unfold State.clearByCore
  split
  · exact h.pendFlag
  · exact h.crossPut

/-! ## Machine/Queue -/

theorem QueuesFit.onQueue {q : Fin 5} {f : EngineQueue → EngineQueue} (h : QueuesFit s)
    (hf : ∀ e, e.tags.length ≤ 64 → (f e).tags.length ≤ 64 := by exact fun _ he => he) : QueuesFit (s.onQueue c q f) :=
  h.onCore fun _ hk => hk.withQueue (hf _ (hk.tags q))

theorem QueuesFit.feederWaits {q : Fin 5} {w : Option Wait} (h : QueuesFit s) : QueuesFit (s.feederWaits r c q w) :=
  .ite h.onRing (.ite h.onCore h.onCore)

theorem CoreFits.accCommit {w : AccWrite} (hk : CoreFits k) : CoreFits (accCommit k w) := hk.update

theorem CoreFits.vecCommit {w : VecWrite} (hk : CoreFits k) : CoreFits (vecCommit k w) := hk.update

theorem CoreFits.settle {u : Nat} (hk : CoreFits k) : CoreFits (settle u k) :=
  .update (.foldl (hk.foldl (fun _ _ hk => hk.accCommit)) (fun _ _ hk => hk.vecCommit))

theorem queue_onQueue_ne {q : Fin 5} {f : EngineQueue → EngineQueue} {d : Fin 16} (hd : c ≠ d) :
    (s.onQueue c q f).queue d q = s.queue d q := by
  rw [State.queue, State.onQueue, core_onCore_ne s _ hd, State.queue]

/-- A tag put behind those of a queue that is not full (R104). -/
theorem QueuesFit.queueTag {q : Fin 5} (h : QueuesFit s) (hroom : (s.queue c q).tags.length < 64) :
    QueuesFit (s.onQueue c q fun k => { k with tags := k.tags ++ [tag] }) :=
  h.setCore (h.core.withQueue (by simpa [State.queue] using hroom))

/-- A tag put into the same queue of several cores, each of which has room (R109). -/
theorem QueuesFit.queueTags {q : Fin 5} {cores : List (Fin 16)} (h : QueuesFit s) (hdup : cores.Nodup)
    (hroom : ∀ x ∈ cores, (s.queue x q).tags.length < 64) :
    QueuesFit (cores.foldl (fun s x => s.onQueue x q fun k => { k with tags := k.tags ++ [tag] }) s) := by
  induction cores generalizing s with
  | nil => exact h
  | cons c l ih =>
    obtain ⟨hc, hl⟩ := List.nodup_cons.mp hdup
    refine ih (h.queueTag (hroom c List.mem_cons_self)) hl fun x hx => ?_
    have hne : c ≠ x := fun hcx => hc (hcx ▸ hx)
    rw [queue_onQueue_ne hne]
    exact hroom x (List.mem_cons_of_mem c hx)

theorem QueuesFit.lineUp {q : Fin 5} {cores : List (Fin 16)} (h : QueuesFit s) (hdup : cores.Nodup) :
    QueuesFit (s.lineUp r c q tag cores) := by
  unfold State.lineUp
  split
  case h_1 hfull =>
    refine (h.queueTags hdup fun x hx => ?_).feederWaits
    simpa using List.filter_eq_nil_iff.mp hfull x hx
  case h_2 => exact h.feederWaits

theorem QueuesFit.foreignCore {t : Tag} (h : QueuesFit s) : QueuesFit (s.foreignCore t c) := .ite h.isolation h

/-- The state of a command that may not issue has its queues within their depth. -/
def FrontFits (f : Front) : Prop := ∀ t, f = .not t → QueuesFit t

theorem nodup_pushCores {mask : BitVec 16} : (s.pushCores r c mask).Nodup := by
  unfold State.pushCores
  split
  · exact (List.nodup_finRange 16).filter _
  · exact List.nodup_singleton c

theorem QueuesFit.not (h : QueuesFit s) : FrontFits (.not s) := by
  rintro t ⟨⟩
  exact h

theorem frontFits_ready {u : Nat} : FrontFits (.ready r u) := by rintro t ⟨⟩

theorem QueuesFit.front {q : Fin 5} {gap : Nat} {mask : BitVec 16} (h : QueuesFit s) : FrontFits (s.front c q tag gap mask) := by
  unfold State.front
  split
  · exact h.foreignCore.not
  · split
    · exact h.foreignCore.not
    · dsimp only
      split
      · exact h.foreignCore.not
      · split
        · exact h.not
        · split
          · split
            · exact frontFits_ready
            · exact (h.lineUp nodup_pushCores).not
          · split
            · exact frontFits_ready
            · exact (h.lineUp nodup_pushCores).not

theorem QueuesFit.arrayEvents {ovf nan opParity accParity : Bool} (h : QueuesFit s) :
    QueuesFit (s.arrayEvents c ovf nan opParity accParity) :=
  h.setReg

theorem QueuesFit.writesDue {u : Nat} (h : QueuesFit s) : QueuesFit (s.writesDue c u) := .ite h.arrayEvents h

theorem QueuesFit.toSlot {u : Nat} (h : QueuesFit s) : QueuesFit (s.toSlot c u) :=
  .flagsTo (h.writesDue.tick.onCore (fun _ hk => hk.settle.update))

theorem length_headOr {l : List Tag} (hl : l.length ≤ 64) : (if l.isEmpty then [tag] else l).length ≤ 64 := by
  split
  · exact Nat.le_add_left 1 63
  · exact hl

theorem QueuesFit.holdAt {q : Fin 5} {kind : WaitKind} {index cond u : Nat} (h : QueuesFit s) :
    QueuesFit (s.holdAt c q tag kind index cond u) := by
  unfold State.holdAt
  extract_lets s1 s2 s3
  have h1 : QueuesFit s1 := h.onQueue fun _ he => length_headOr he
  have h2 : QueuesFit s2 := .ite h1.toSlot h1
  have h3 : QueuesFit s3 := .ite h2 h2.trace
  exact .ite h3.toSlot h3

theorem QueuesFit.issueAt {q : Fin 5} {gap occ prog u : Nat} (h : QueuesFit s) : QueuesFit (s.issueAt c q tag gap occ prog u) := by
  have h1 : QueuesFit (if isExecQueue q then s.toSlot c u else s) := .ite h.toSlot h
  refine .trace (h1.onQueue fun e he => ?_)
  dsimp only
  split
  · split
    · exact (Nat.le_succ _).trans (by simp_all)
    · simp_all
  · exact Nat.zero_le _

theorem QueuesFit.auditFault {q : Fin 5} {v : Violation} (h : QueuesFit s) : QueuesFit (s.auditFault r c q tag v) :=
  h.faultRing

theorem QueuesFit.withhold {q : Fin 5} {u : Nat} {v : Violation} (h : QueuesFit s) : QueuesFit (s.withhold r c q tag u v) := by
  have h1 : QueuesFit (s.onQueue c q fun k => { k with tags := if k.tags.isEmpty then [tag] else k.tags }) :=
    h.onQueue fun _ he => length_headOr he
  exact .auditFault (.ite h1.toSlot h1)

theorem QueuesFit.noteArray {e : AuditRec} (h : QueuesFit s) : QueuesFit (s.noteArray c e) := h.onCore

theorem QueuesFit.noteVector {e : AuditRec} (h : QueuesFit s) : QueuesFit (s.noteVector c e) := h.onCore

/-! ## Machine/Array -/

theorem NextFits.onForm {i : Instr} {mnemonic : String} {effect : State} (h : QueuesFit effect) :
    NextFits (onForm i mnemonic effect) :=
  .ite h.nextFits nextFits_refused

theorem QueuesFit.poisonTag (h : QueuesFit s) : QueuesFit (s.poisonTag c tag) := h.setReg

theorem QueuesFit.macSlots {n : Nat} (h : QueuesFit s) : QueuesFit (s.macSlots c n) := h.setReg.setReg

theorem QueuesFit.drainNow {u : Nat} {d : DrainOrder} (h : QueuesFit s) : QueuesFit (s.drainNow c tag u d) := by
  unfold State.drainNow
  extract_lets k k0 parity bad poison k1 k2 s1
  have h1 : QueuesFit s1 := (h.setCore h.core.opPut.update).arrayEvents
  exact .ite h1.poisonTag h1

theorem QueuesFit.arrayHold {u : Nat} {g : GateHold} (h : QueuesFit s) : QueuesFit (s.arrayHold c tag u g) :=
  .ite h.holdAt.bump h.holdAt.bump

theorem QueuesFit.arrayCommand {e : Eng} {exists_ : Bool} {gate : Nat → Option GateHold} {pairs : Nat → AuditRec → List Violation}
    {go : Fin 8 → Nat → State} (h : QueuesFit s) (hgo : ∀ r u, QueuesFit (go r u)) :
    QueuesFit (s.arrayCommand e exists_ gate pairs go) := by
  unfold State.arrayCommand
  split
  · exact h.front _ ‹_›
  · split
    · exact h.toSlot.isolation
    · split
      · exact h.arrayHold
      · split
        · exact h.withhold
        · exact hgo _ _

theorem QueuesFit.stepNow {e : Eng} {w a : ArrOperand} {set : Fin 16} {overwrite : Bool} {drain : Option DrainOrder}
    {u : Nat} (h : QueuesFit s) : QueuesFit (s.stepNow e w a set overwrite drain u) := by
  unfold State.stepNow
  extract_lets c pos n s1 k old vals opBad accBad carried s2 s3 s4 s5
  have h2 : QueuesFit s2 := by
    unfold s2
    split
    · exact h.issueAt.drainNow
    · exact h.issueAt
  have h3 : QueuesFit s3 := h2.arrayEvents.macSlots
  exact .noteArray (.onCore (.ite h3.poisonTag h3))

theorem NextFits.execStep {e : Eng} {w a : ArrOperand} {set : Fin 16} {overwrite : Bool} {drain : Option DrainOrder}
    (h : QueuesFit s) : NextFits (execStep e w a set overwrite drain s) :=
  .onForm (h.arrayCommand (fun _ _ => h.stepNow))

theorem NextFits.execDrain {e : Eng} {d : DrainOrder} (h : QueuesFit s) : NextFits (execDrain e d s) :=
  .onForm (h.arrayCommand (fun _ _ => h.issueAt.drainNow))

theorem QueuesFit.accLoadNow {e : Eng} {set : Fin 16} {u : Nat} (h : QueuesFit s) : QueuesFit (s.accLoadNow e set u) := by
  unfold State.accLoadNow
  extract_lets c pos s1 d bad vals s2 s3
  exact .noteArray (.onCore (.ite h.issueAt.arrayEvents.poisonTag h.issueAt.arrayEvents))

theorem NextFits.execAccLoad {e : Eng} {set : Fin 16} (h : QueuesFit s) : NextFits (execAccLoad e set s) :=
  .onForm (h.arrayCommand (fun _ _ => h.accLoadNow))

/-! ## Machine/Access -/

theorem QueuesFit.holdWrite {addr value : Word} (h : QueuesFit s) : QueuesFit (s.holdWrite r who addr value).1 := by
  unfold State.holdWrite
  split
  · exact h.setRing (by simpa [RingFits])
  · exact h

theorem QueuesFit.request {addr value : Word} {act : State → State × Nat} (h : QueuesFit s)
    (hact : ∀ x0, QueuesFit x0 → QueuesFit (act x0).1) : QueuesFit (s.request r who addr value act).1 :=
  .iteFst h (.iteFst h (.iteFst h.holdWrite (hact _ h)))

end Sys2Proof.Machine
end

section
/-! SUPPORT. Flash, result slots and the load of a ring keep the depths of the queues. -/

namespace Sys2Proof.Machine

set_option Elab.async false
variable {β : Type} {s : State} {k : Core} {r : Fin 8} {c : Fin 16} {tag : Tag} {who : Who}

/-! ## Machine/Flash -/

theorem QueuesFit.programPage {pg : Nat} {tag : BitVec 192} {bytes : List Byte} (h : QueuesFit s) :
    QueuesFit (s.programPage pg tag bytes) :=
  h.update

theorem QueuesFit.eraseBlock {b : Nat} (h : QueuesFit s) : QueuesFit (s.eraseBlock b) := h.update

theorem QueuesFit.copyBlock {src dst : Nat} (h : QueuesFit s) : QueuesFit (s.copyBlock src dst) :=
  h.foldl (fun _ _ h => .ite h.programPage h)

theorem QueuesFit.showInhibit (h : QueuesFit s) : QueuesFit s.showInhibit := h.setFld

theorem QueuesFit.countHeld (h : QueuesFit s) : QueuesFit s.countHeld := h.bump

/-! ## Machine/FlashJobs -/

theorem QueuesFit.pushJob {j : FlashJob} (h : QueuesFit s) : QueuesFit (s.pushJob j) :=
  .ite h.update.countHeld.update h.update

theorem QueuesFit.dropJob {j : FlashJob} (h : QueuesFit s) : QueuesFit (s.dropJob j) := h.update

theorem QueuesFit.replaceJob {j k : FlashJob} (h : QueuesFit s) : QueuesFit (s.replaceJob j k) := h.update

theorem QueuesFit.schedule {b : Nat} {rescue : Bool} (h : QueuesFit s) : QueuesFit (s.schedule b rescue) := .ite h h.pushJob

theorem QueuesFit.tidyQueue (h : QueuesFit s) : QueuesFit s.tidyQueue := .ite h.update h

theorem QueuesFit.flashIssue (h : QueuesFit s) : QueuesFit s.flashIssue := by
  unfold State.flashIssue
  split
  · exact h
  · split
    · exact h.tidyQueue
    · exact .ite (.ite h.tidyQueue h.tidyQueue.countHeld.update) h.tidyQueue.update

theorem QueuesFit.enqueueFlash {j : FlashJob} (h : QueuesFit s) : QueuesFit (s.enqueueFlash j) := h.pushJob.flashIssue

theorem QueuesFit.takeSeq {area top : Nat} (h : QueuesFit s) : QueuesFit (s.takeSeq area top).1 := h.update

theorem QueuesFit.pushPages {area : Nat} {bytes : List Byte} {fresh : Bool} {next : AppendNext} (h : QueuesFit s) :
    QueuesFit (s.pushPages area bytes fresh next) :=
  .ite h h.pushJob

theorem QueuesFit.pushEntry {area type : Nat} {body : List Byte} {next : AppendNext} (h : QueuesFit s) :
    QueuesFit (s.pushEntry area type body next) :=
  h.takeSeq.pushPages

theorem QueuesFit.appendEntry {area type : Nat} {body : List Byte} (h : QueuesFit s) :
    QueuesFit (s.appendEntry area type body) :=
  h.pushEntry.flashIssue

theorem QueuesFit.writeTable (h : QueuesFit s) : QueuesFit s.writeTable := h.takeSeq.pushPages.pushPages

theorem QueuesFit.retireBlock {b : Nat} (h : QueuesFit s) : QueuesFit (s.retireBlock b) :=
  .ite h h.update.bump.bump.setFld.log.writeTable

theorem QueuesFit.eraseOrRetire {b : Nat} (h : QueuesFit s) : QueuesFit (s.eraseOrRetire b) :=
  .ite h.retireBlock h.eraseBlock

theorem QueuesFit.programLog (h : QueuesFit s) : QueuesFit s.programLog := h.update.pushPages.flashIssue

theorem NextFits.execLogPageProgram (h : QueuesFit s) : NextFits (execLogPageProgram s) :=
  QueuesFit.nextFits (.ite h (.ite h.countHeld h.programLog))

theorem QueuesFit.logSecurity {source code arg0 arg1 : Nat} (h : QueuesFit s) :
    QueuesFit (s.logSecurity source code arg0 arg1) :=
  .ite h.log h.update.pushPages.flashIssue

theorem QueuesFit.logRead {code arg0 arg1 : Nat} (h : QueuesFit s) : QueuesFit (s.logRead code arg0 arg1) :=
  .ite h.log h.logSecurity

theorem QueuesFit.readFailed {pg : Nat} (h : QueuesFit s) : QueuesFit (s.readFailed pg) := h.bump.setFld.logRead

theorem QueuesFit.countRead {b : Nat} (h : QueuesFit s) : QueuesFit (s.countRead b) :=
  .ite (.ite h.update.schedule h.update) h

theorem QueuesFit.readEnds {area : Nat} {noise : List (List (Nat × BitVec 10))} {pg : Nat} (h : QueuesFit s) :
    QueuesFit (s.readEnds area noise pg) := by
  unfold State.readEnds
  extract_lets s1
  split
  · exact h.countRead
  · split
    · exact h.countRead.readFailed.schedule
    · extract_lets s2 s3
      have h3 : QueuesFit s3 := .ite h.countRead.bump.schedule h.countRead.bump
      exact .ite h3 h3.readFailed

theorem QueuesFit.readPages {area : Nat} {l : List Nat} (h : QueuesFit s) : QueuesFit (s.readPages area l) :=
  h.foldl (fun _ _ h => h.readEnds)

theorem NextFits.execFlashScan (h : QueuesFit s) : NextFits (execFlashScan s) :=
  QueuesFit.nextFits (.flashIssue (h.foldl (fun _ _ h => h.readEnds)))

theorem QueuesFit.staged {a n : Nat} (h : QueuesFit s) : QueuesFit (s.staged who a n).1 := by
  unfold State.staged
  split
  · split
    · exact .of_eq ‹_› h.dramRead
    · exact .of_eq ‹_› h.dramRead
  · exact h

theorem QueuesFit.recordStatus {state cause : Nat} (h : QueuesFit s) : QueuesFit (s.recordStatus state cause) :=
  h.setFld.setFld

theorem QueuesFit.recordDone {cause : Nat} (h : QueuesFit s) : QueuesFit (s.recordDone cause) := h.recordStatus.update

theorem QueuesFit.writeRecordNow {type : Nat} {body : List Byte} (h : QueuesFit s) :
    QueuesFit (s.writeRecordNow type body) :=
  .ite h.recordStatus.recordDone h.recordStatus.update.pushEntry.flashIssue

theorem QueuesFit.recordRequest (h : QueuesFit s) : QueuesFit (s.recordRequest who) := by
  unfold State.recordRequest
  split
  · exact h.setFld
  · extract_lets a
    split
    · exact .recordStatus (.of_eq ‹_› h.staged)
    · split
      · exact .recordStatus (.of_eq ‹_› h.staged)
      · split
        · exact .recordStatus (.of_eq ‹_› (.staged (.of_eq ‹_› h.staged)))
        · split
          · exact .writeRecordNow (.of_eq ‹_› (.staged (.of_eq ‹_› h.staged)))
          · exact .recordStatus (.of_eq ‹_› (.staged (.of_eq ‹_› h.staged)))

theorem QueuesFit.flsControl {op : Nat} (h : QueuesFit s) : QueuesFit (s.flsControl who op).1 :=
  .iteFst h (.ite h.recordRequest h)

theorem NextFits.execWriteRecord (h : QueuesFit s) : NextFits (execWriteRecord who s) := h.flsControl.nextFits

/-! ## Machine/Container -/

theorem QueuesFit.storeWrite {r : StoreRec} (h : QueuesFit s) : QueuesFit (s.storeWrite r) := .ite h.update h

theorem QueuesFit.showStore (h : QueuesFit s) : QueuesFit s.showStore :=
  h.setFld.setFld.setReg.foldl (fun _ _ h => h.setReg)

/-! ## Machine/Freq -/

theorem QueuesFit.requestVolt {v : Nat} (h : QueuesFit s) : QueuesFit (s.requestVolt v) := h.setFld.update

theorem QueuesFit.raiseVolt {v : Nat} (h : QueuesFit s) : QueuesFit (s.raiseVolt v) := .ite h.requestVolt.update h

theorem QueuesFit.setFreq {f : Nat} (h : QueuesFit s) : QueuesFit (s.setFreq r f) :=
  .ite h (h.setFld.foldl (fun _ _ h => h.trace))

theorem QueuesFit.takeCtrl (h : QueuesFit s) : QueuesFit (s.takeCtrl r) := h.update

theorem QueuesFit.startFreq {s0 : State} (h : QueuesFit s0) : QueuesFit (s0.startFreq r) := by
  unfold State.startFreq
  extract_lets s f s1
  split
  · exact h.takeCtrl.setFreq.raiseVolt
  · exact h.takeCtrl.setFreq

/-! ## Machine/Results -/

theorem QueuesFit.rsEnableNow {stream : Fin 16} (h : QueuesFit s) : QueuesFit (s.rsEnableNow r stream) := by
  unfold State.rsEnableNow
  extract_lets t
  split
  · exact h
  · split
    · exact h.setFld.onRing
    · exact h.setFld.setFld

theorem RingFits.emptyStream {stream : Nat} {k : Ring} (hk : RingFits k) : RingFits (emptyStream stream k) := hk

theorem QueuesFit.rsDisableNow {stream : Fin 16} (h : QueuesFit s) : QueuesFit (s.rsDisableNow r stream) :=
  .ite (.setFld (.setFld (h.onRing (fun _ hk => hk.emptyStream)))) h

theorem QueuesFit.rsRequest {stream : Fin 16} {op : Nat} (h : QueuesFit s) : QueuesFit (s.rsRequest r stream op) := by
  unfold State.rsRequest
  split
  · exact h.rsEnableNow
  · exact h.rsDisableNow
  · exact h

theorem QueuesFit.rsControl {stream : Fin 16} {op : Nat} (h : QueuesFit s) : QueuesFit (s.rsControl r who stream op).1 :=
  h.request (fun _ h => h.rsRequest)

theorem NextFits.execRstreamEnable {ring : Fin 8} {stream : Fin 16} (h : QueuesFit s) :
    NextFits (execRstreamEnable ring stream who s) :=
  h.rsControl.nextFits

theorem NextFits.execRstreamDisable {ring : Fin 8} {stream : Fin 16} (h : QueuesFit s) :
    NextFits (execRstreamDisable ring stream who s) :=
  h.rsControl.nextFits

theorem QueuesFit.claimSlot {inv : Invocation} {stream : Fin 16} {n : Nat} {overwrite : Bool} (h : QueuesFit s) : QueuesFit
    (s.claimSlot r inv stream n overwrite) := by
  unfold State.claimSlot
  extract_lets t serial s1 slot s2
  have h1 : QueuesFit s1 := .ite h.bump.setFld h
  have h2 : QueuesFit s2 := h1.onRing fun _ hk => hk
  exact h2.bufWrite

theorem QueuesFit.markHeld {slot : Nat} (h : QueuesFit s) : QueuesFit (s.markHeld r slot) := h.foldl (fun _ _ h => h.setFld)

theorem QueuesFit.claimAll {inv : Invocation} (h : QueuesFit s) : QueuesFit (s.claimAll r inv) := by
  unfold State.claimAll
  refine .foldl h.markHeld fun _ _ h => ?_
  split
  · exact h.claimSlot
  · exact h

theorem QueuesFit.dropUnposted (h : QueuesFit s) : QueuesFit (s.dropUnposted r) :=
  h.foldl (fun _ _ h => .bump (h.onRing (fun _ hk => hk.slotPut)))

theorem QueuesFit.slotBytes {n : Nat} {slot : ResultSlot} (h : QueuesFit s) : QueuesFit (s.slotBytes r n slot).1 := by
  unfold State.slotBytes
  extract_lets t
  split
  · exact .of_eq ‹_› h.bufRead
  · exact .of_eq ‹_› h.bufRead

theorem QueuesFit.pushResult {stream : Fin 16} {n : Nat} {slot : ResultSlot} (h : QueuesFit s) :
    QueuesFit (s.pushResult r stream n slot) :=
  .sendOwn (h.slotBytes.onRing (fun _ hk => hk.slotPut))

theorem NextFits.execResult {ring : Fin 8} {stream : Fin 16} (h : QueuesFit s) : NextFits (execResult ring stream s) := by
  unfold Machine.execResult
  refine QueuesFit.nextFits ?_
  split
  · exact h.pushResult
  · exact h

theorem QueuesFit.noticeResult {stream : Fin 16} {n : Nat} {slot : ResultSlot} (h : QueuesFit s) :
    QueuesFit (s.noticeResult r stream n slot) :=
  .sendOwn (h.onRing (fun _ hk => hk.slotPut))

theorem NextFits.execResultNotice {ring : Fin 8} {stream : Fin 16} (h : QueuesFit s) :
    NextFits (execResultNotice ring stream s) := by
  unfold Machine.execResultNotice
  refine QueuesFit.nextFits ?_
  split
  · exact h.noticeResult
  · exact h

theorem QueuesFit.readResult {a : Asker} {stream slot : Nat} (h : QueuesFit s) :
    QueuesFit (s.readResult r a stream slot) := by
  unfold State.readResult
  split
  · exact h.replyStatus
  · split
    · exact h.replyStatus
    · exact .reply (h.slotBytes.onRing (fun _ hk => hk.slotPut))

theorem QueuesFit.releaseSlot {slot : Nat} {serial : Word} (h : QueuesFit s) :
    QueuesFit (s.releaseSlot r slot serial).1 := by
  unfold State.releaseSlot
  split
  · exact h
  · exact .iteFst h (.iteFst h (h.onRing (fun _ hk => hk.slotPut)))

/-! ## Machine/Load -/

theorem CoreFits.withQueues {queues : Vector EngineQueue 5} (hk : CoreFits k) (hq : ∀ q : Fin 5, queues[q].tags.length ≤ 64) :
    CoreFits { k with queues := queues } := by
  obtain ⟨-, hrest⟩ := hk
  exact ⟨hq, hrest⟩

theorem CoreFits.idleCore (hk : CoreFits k) : CoreFits (idleCore k) := by
  obtain ⟨-, -, hlen, hlines, -⟩ := hk
  exact ⟨fun q => by simp [Machine.idleCore], fun n => by simp [Machine.idleCore], hlen, hlines, .nil⟩

theorem QueuesFit.unbindEndpoints (h : QueuesFit s) : QueuesFit (s.unbindEndpoints r) :=
  h.foldl (fun _ _ h => h.setReg.onEp)

theorem QueuesFit.bindEndpoints {m : List Byte} (h : QueuesFit s) : QueuesFit (s.bindEndpoints r m) :=
  h.foldl (fun _ _ h => h.setReg.setRegs.onEp)

theorem QueuesFit.assignWindows {m : List Byte} (h : QueuesFit s) : QueuesFit (s.assignWindows r m) :=
  h.foldl (fun _ _ h => .ite h.setFld.setFld h)

theorem QueuesFit.ownSlices {own : Bool} (h : QueuesFit s) : QueuesFit (s.ownSlices r own) :=
  h.foldl (fun _ _ h => h.setFld.setFld)

theorem QueuesFit.releaseRing (h : QueuesFit s) : QueuesFit (s.releaseRing r) := by
  unfold State.releaseRing
  extract_lets cores s1 s2
  have h2 : QueuesFit s2 := by
    exact h.ownSlices.unbindEndpoints.foldl (fun _ _ h => h.onCore (fun _ hk => hk.idleCore))
  exact h2.setReg.setReg.onRing

theorem QueuesFit.clearStreams (h : QueuesFit s) : QueuesFit (s.clearStreams r) := .onRing (h.foldl (fun _ _ h => h.setReg))

theorem QueuesFit.enterLoading (h : QueuesFit s) : QueuesFit (s.enterLoading r) := h.setRingState.onRing.setRegs.setFld

theorem QueuesFit.sweepRead {n : Nat} (h : QueuesFit s) : QueuesFit (s.sweepRead r n) :=
  .ite (h.ddrCount.lineError (fun _ _ _ h => h.report)) h.ddrCount

theorem QueuesFit.sweepNow {spill : Bool} {u : Nat} (h : QueuesFit s) : QueuesFit (s.sweepNow r spill u) := by
  unfold State.sweepNow
  extract_lets s1
  have h1 : QueuesFit s1 := .ite h (h.foldl (fun _ _ h => h.sweepRead))
  exact h1.update

theorem QueuesFit.sweep (h : QueuesFit s) : QueuesFit (s.sweep r) :=
  h.foldl (fun _ _ h => h.foldl (fun _ _ h => h.sweepNow))

theorem QueuesFit.loadDram {a : Nat} {d : List Byte} (h : QueuesFit s) : SomeFits (s.loadDram r a d) :=
  .ite h.dramWrite.someFits someFits_none

theorem QueuesFit.loadOne {e : List Byte} (h : QueuesFit s) : SomeFits (s.loadOne r e) := by
  unfold State.loadOne
  dsimp only
  split
  · exact someFits_none
  · split
    · split
      · exact h.mwyWrite.someFits
      · split
        · exact someFits_none
        · rw [Option.map_id']
          exact h.loadDram
    · exact h.loadDram
    · split
      · exact someFits_none
      · exact QueuesFit.someFits (h.foldl fun _ _ h => h.cmWrite)

theorem QueuesFit.loadList {l : List (List Byte)} (h : QueuesFit s) : SomeFits (State.loadList r l s) := by
  induction l generalizing s with
  | nil => exact h.someFits
  | cons e t ih =>
    show SomeFits (match s.loadOne r e with | none => none | some s1 => State.loadList r t s1)
    cases hs : s.loadOne r e with
    | none => exact someFits_none
    | some s1 =>
      have h1 : QueuesFit s1 := h.loadOne.of_eq hs
      exact ih h1

theorem QueuesFit.bindRing {m : List Byte} {p : Nat × Nat × Nat} {programs : List Program} (h : QueuesFit s) :
    QueuesFit (s.bindRing r m p programs) := by
  unfold State.bindRing
  extract_lets width mode status s1 s2 s3 s4
  have h2 : QueuesFit s2 := h.setReg.setReg.onRing fun _ _ => Nat.zero_le _
  have h3 : QueuesFit s3 := h2.ownSlices.foldl fun _ _ h => .setRegs (h.onCore fun _ hk => hk.idleCore)
  have h4 : QueuesFit s4 := h3.foldl fun _ _ h => h.setRegs
  exact h4.clearStreams.update

theorem QueuesFit.loadNow (h : QueuesFit s) : QueuesFit (s.loadNow r).1 := by
  unfold State.loadNow
  split
  · exact h
  · extract_lets s0
    have h0 : QueuesFit s0 := h.onRing
    split
    · split
      · exact h0
      · split
        · exact h0
        · extract_lets s1
          have h1 : QueuesFit s1 := h0.bindRing.sweep
          cases hs : State.loadList r (s1.loadEntries r) s1 with
          | none => exact h1
          | some s2 =>
            have h2 : QueuesFit s2 := h1.loadList.of_eq hs
            dsimp only
            exact h2.bindEndpoints.assignWindows
    · exact h0

end Sys2Proof.Machine
end

section
/-! SUPPORT. Commands of the streams keep the depths of the queues: PUSH, RELEASE and the completion of a vector command put an
entry into a data queue only where their gate has found room in it (R105, R106, R108). -/

namespace Sys2Proof.Machine

set_option Elab.async false
variable {β : Type} {s : State} {k : Core} {r : Fin 8} {c : Fin 16} {tag : Tag} {who : Who}

/-! ## Machine/Stream -/

theorem QueuesFit.onSeq {u : SeqUnit} {f : Sequencer → Sequencer} (h : QueuesFit s) : QueuesFit (s.onSeq u f) := by
  unfold State.onSeq
  split
  · exact h
  · exact h.onCore
  · exact h.onCore
  · exact h.onRing

theorem QueuesFit.seqDo {u : SeqUnit} {go : Fin 8 → State} (h : QueuesFit s) (hgo : ∀ x0, QueuesFit (go x0)) :
    QueuesFit (s.seqDo u tag go) := by
  unfold State.seqDo
  split
  · exact h
  · exact hgo _ 

theorem QueuesFit.seqWait {u : SeqUnit} {kind : WaitKind} {index : Nat} (h : QueuesFit s) :
    QueuesFit (s.seqWait u tag kind index) :=
  h.onSeq

theorem QueuesFit.seqGo {u : SeqUnit} (h : QueuesFit s) : QueuesFit (s.seqGo u) := h.onSeq

theorem QueuesFit.loopCount {u : SeqUnit} {x : LoopCount} (h : QueuesFit s) : QueuesFit (s.loopCount tag u r x).1 := by
  unfold State.loopCount
  split
  · exact h
  · split
    · exact h
    · exact h.cmRead

theorem NextFits.execLoop {u : SeqUnit} {count : LoopCount} (h : QueuesFit s) : NextFits (execLoop u tag count s) :=
  .onForm (h.seqDo (fun _ => .ite h.loopCount.poisoned h.loopCount.seqGo.onSeq))

theorem NextFits.execEndloop {u : SeqUnit} (h : QueuesFit s) : NextFits (execEndloop u tag s) :=
  .onForm (h.seqDo (fun _ => h.seqGo.onSeq))

theorem QueuesFit.reachFault {access : Nat} (h : QueuesFit s) : QueuesFit (s.reachFault r tag access) := h.isolation

theorem QueuesFit.seqLooks {u : SeqUnit} {flag : FlagRef} {kind : TestKind} (h : QueuesFit s) : QueuesFit (s.seqLooks u r flag
    kind).1 := by
  unfold State.seqLooks
  extract_lets far
  have hfar : ∀ o t, QueuesFit t → QueuesFit (far o t).1 := by
    intro o t ht
    unfold far
    split
    · exact ht.setProbe
    · exact ht
    · exact .ite ht ht.ask
  split
  · exact hfar _ _ h
  · exact hfar _ _ h.serveMaster
  · exact h
  · exact h
  · exact h

theorem QueuesFit.skipWith {u : SeqUnit} {whenSet v : Bool} {span : List SpanItem} (h : QueuesFit s) :
    QueuesFit (s.skipWith u whenSet v span) :=
  .ite h.seqGo.onSeq h.seqGo

theorem NextFits.execSkip {u : SeqUnit} {flag : FlagRef} {whenSet : Bool} {span : List SpanItem} (h : QueuesFit s) :
    NextFits (execSkip u tag flag whenSet span s) := by
  unfold Machine.execSkip
  refine .onForm ?_
  refine .seqDo h fun _ => ?_
  split
  · exact h.reachFault
  · split
    · exact .skipWith (.of_eq ‹_› h.seqLooks)
    · exact .seqWait (.of_eq ‹_› h.seqLooks)

/-- A data queue changed to one within its depth (R108). -/
theorem QueuesFit.onDq {n : Fin 8} {f : List DqEntry → List DqEntry} (h : QueuesFit s) (hf : (f (s.dq c n)).length ≤ 32) :
    QueuesFit (s.onDq c n f) := by
  refine h.setCore ?_
  obtain ⟨htags, hdqs, hrest⟩ := h.core (c := c)
  refine ⟨htags, fun m => ?_, hrest⟩
  by_cases hm : n = m
  · subst hm
    simpa [State.dq] using hf
  · have hne : n.val ≠ m.val := fun hv => hm (Fin.ext hv)
    simpa [Vector.getElem_set_ne _ _ hne] using hdqs m

/-- A data queue with room takes an entry. -/
theorem QueuesFit.pushDq {n : Fin 8} {e : DqEntry} (h : QueuesFit s) (hroom : (s.dq c n).length < 32) :
    QueuesFit (s.onDq c n fun l => l ++ [e]) :=
  h.onDq (by simpa using hroom)

theorem dq_onSeq {u : SeqUnit} {f : Sequencer → Sequencer} {n : Fin 8} : (s.onSeq u f).dq c n = s.dq c n := by
  rw [State.dq, (seqKept_onSeq s u f).dqs c, State.dq]

theorem NextFits.execPush {u : SeqUnit} {dq : Fin 8} {entry : DqEntry} (h : QueuesFit s) :
    NextFits (execPush u tag dq entry s) := by
  refine .onForm (h.seqDo fun _ => ?_)
  split
  case isTrue hroom =>
    refine h.seqGo.pushDq ?_
    rw [State.seqGo, dq_onSeq]
    exact of_decide_eq_true hroom
  case isFalse => exact h.seqWait

theorem QueuesFit.popNow {u : SeqUnit} {dq : Fin 8} {expect : Option DqEntry} {found : DqEntry} (h : QueuesFit s) :
    QueuesFit (s.popNow u tag dq expect found) := by
  have h1 : QueuesFit ((s.seqGo u).onDq (s.unitCore u) dq fun l => l.drop 1) :=
    h.seqGo.onDq ((List.drop_sublist 1 _).length_le.trans (h.seqGo.core.dqs dq))
  exact .ite h1.setFld.trace h1

theorem NextFits.execPop {u : SeqUnit} {dq : Fin 8} {expect : Option DqEntry} (h : QueuesFit s) :
    NextFits (execPop u tag dq expect s) := by
  unfold Machine.execPop
  refine .onForm ?_
  refine .seqDo h fun _ => ?_
  split
  · exact h.seqWait
  · exact h.popNow

theorem QueuesFit.queueHold {q : Fin 5} {u : Nat} {g : GateHold} (h : QueuesFit s) : QueuesFit (s.queueHold c q tag u g) :=
  .ite h.holdAt.bump h.holdAt

theorem QueuesFit.queueCommand_of_gate {q : Fin 5} {gap occ : Nat} {mask : BitVec 16} {gate : Fin 8 → Nat → Option GateHold}
    {go : Fin 8 → Nat → State → State} (h : QueuesFit s)
    (hgo : ∀ r u, gate r u = none → QueuesFit (go r u (s.issueAt c q tag gap occ occ u))) :
    QueuesFit (s.queueCommand c q tag gap occ mask gate go) := by
  unfold State.queueCommand
  split
  · exact h.front _ ‹_›
  · split
    · exact h.queueHold
    · split
      · exact h.queueHold
      · exact hgo _ _ ‹_›

theorem QueuesFit.queueCommand {q : Fin 5} {gap occ : Nat} {mask : BitVec 16} {gate : Fin 8 → Nat → Option GateHold}
    {go : Fin 8 → Nat → State → State} (h : QueuesFit s) (hgo : ∀ r u t, QueuesFit t → QueuesFit (go r u t)) :
    QueuesFit (s.queueCommand c q tag gap occ mask gate go) :=
  h.queueCommand_of_gate fun _ _ _ => hgo _ _ _ h.issueAt

theorem QueuesFit.noteConsume {q : Fin 5} {consume : Bool} (h : QueuesFit s) : QueuesFit (s.noteConsume c q consume) :=
  h.onQueue

theorem QueuesFit.queueAsks {q : Fin 5} {mask : BitVec 16} {flag : FlagRef} {consume : Bool} (h : QueuesFit s) :
    QueuesFit (s.queueAsks r c q mask flag consume) := by
  unfold State.queueAsks
  split
  · exact h
  · exact .ite h.ask h

theorem QueuesFit.waitPassed {u : SeqUnit} {flag : FlagRef} {consume : Bool} (h : QueuesFit s) : QueuesFit (s.waitPassed u tag
    flag consume) := by
  unfold State.waitPassed
  extract_lets clear
  have hclear : ∀ c exec, QueuesFit (clear c exec) := by
    intro c exec
    unfold clear
    split
    · exact .ite h.consumeCore h
    · exact h
  split
  · exact h
  · exact (hclear _ _).trace
  · exact (hclear _ _).trace
  · exact (hclear _ _).trace

theorem QueuesFit.queueWaitFlag {q : Fin 5} {mask : BitVec 16} {gap : Nat} {flag : FlagRef} {consume : Bool} (h : QueuesFit s) :
    QueuesFit (s.queueWaitFlag c q mask tag gap flag consume) := by
  unfold State.queueWaitFlag
  split
  · exact h.front _ ‹_›
  · split
    · exact h.queueHold
    · split
      · exact h.queueHold.noteConsume.queueAsks
      · exact h.issueAt.waitPassed

theorem QueuesFit.seqWaitFlag {u : SeqUnit} {flag : FlagRef} {consume : Bool} (h : QueuesFit s) :
    QueuesFit (s.seqWaitFlag u tag flag consume) :=
  h.seqDo (fun _ => .ite h.reachFault (.ite h.seqLooks.seqGo.waitPassed h.seqLooks.seqWait.onSeq))

theorem NextFits.execWait {u : SeqUnit} {gap : Byte} {flag : FlagRef} {consume : Bool} (h : QueuesFit s) :
    NextFits (execWait u tag gap flag consume s) := by
  unfold Machine.execWait
  refine .onForm ?_
  split
  · exact h.queueWaitFlag
  · exact h.seqWaitFlag
  · exact h.seqWaitFlag
  · exact h.seqWaitFlag

theorem QueuesFit.masterFlag {flag : FlagRef} {set : Bool} (h : QueuesFit s) : QueuesFit (s.masterFlag r tag flag set) :=
  h.seqDo (fun _ => .ite h.reachFault (.ite h.seqWait h.seqGo.crossPut))

theorem NextFits.execSet {u : SeqUnit} {gap : Byte} {flag : FlagRef} (h : QueuesFit s) :
    NextFits (execSet u tag gap flag s) := by
  unfold Machine.execSet
  refine .onForm ?_
  split
  · exact h.queueCommand (fun _ _ _ h => h.setByCore)
  · exact h.masterFlag
  · exact h
  · exact h

theorem NextFits.execClear {u : SeqUnit} {gap : Byte} {flag : FlagRef} (h : QueuesFit s) :
    NextFits (execClear u tag gap flag s) := by
  unfold Machine.execClear
  refine .onForm ?_
  split
  · exact h.queueCommand (fun _ _ _ h => h.clearByCore)
  · exact h.masterFlag
  · exact h
  · exact h

theorem NextFits.execIdle {e : Eng} {vector : Bool} {n : Nat} (h : QueuesFit s) : NextFits (execIdle e vector n s) :=
  .onForm (h.queueCommand (fun _ _ _ h => h))

theorem NextFits.execMark {u : SeqUnit} {gap : Byte} {operand : Word} (h : QueuesFit s) :
    NextFits (execMark u tag gap operand s) := by
  unfold Machine.execMark
  refine .onForm ?_
  split
  · exact h.queueCommand (fun _ _ _ h => h.trace)
  · exact h
  · exact h
  · exact h

theorem NextFits.execEndStream {u : SeqUnit} {gap : Byte} (h : QueuesFit s) : NextFits (execEndStream u tag gap s) := by
  unfold Machine.execEndStream
  refine .onForm ?_
  split
  · exact h.queueCommand (fun _ _ _ h => h.onQueue)
  · exact h.seqDo (fun _ => h.onSeq)
  · exact h.seqDo (fun _ => h.onSeq)
  · exact h.seqDo (fun _ => h.onSeq)

theorem CoreFits.markPut {b : Buf} {region : Nat} {v : Bool} (hk : CoreFits k) : CoreFits (markPut b region v k) := by
  unfold Machine.markPut
  split
  · exact hk.update
  · exact hk.update
  · exact hk.update

theorem dqs_markPut {buf : Buf} {region : Nat} {v : Bool} : (markPut buf region v k).dqs = k.dqs := by cases buf <;> rfl

theorem QueuesFit.releaseNow {buf : Buf} {region : Fin 16} {sink : ReleaseTo} (h : QueuesFit s)
    (hroom : ∀ n, sink = .dq n → (s.dq c n).length < 32) : QueuesFit (s.releaseNow r c buf region sink) := by
  have h1 : QueuesFit (s.onCore c (markPut buf region.val false)) := h.onCore fun _ hk => hk.markPut
  cases sink with
  | none => exact h1
  | dq n =>
    refine h1.pushDq ?_
    rw [State.dq, core_onCore, dqs_markPut]
    exact hroom n rfl
  | flag f => exact h1.setByCore

theorem dqs_issueAt {d : Fin 16} {q : Fin 5} {gap occ prog u : Nat} :
    ((s.issueAt c q tag gap occ prog u).core d).dqs = (s.core d).dqs := by
  have hi := issued_issueAt s c q tag gap occ prog u
  by_cases hd : d = c
  · subst hd
    rw [hi.core]
    rfl
  · rw [hi.other d hd]
    rfl

theorem NextFits.execRelease {e : Eng} {vector : Bool} {buf : Buf} {region : Fin 16} {sink : ReleaseTo} (h : QueuesFit s) :
    NextFits (execRelease e vector buf region sink s) := by
  refine .ite nextFits_refused (.onForm (h.queueCommand_of_gate fun r u hgate => .ite ?_ h.issueAt.isolation))
  refine h.issueAt.releaseNow fun n hn => ?_
  subst hn
  rw [State.dq, dqs_issueAt]
  by_cases hroom : s.dqRoom e.core n = true
  · exact of_decide_eq_true hroom
  · simp only [State.releaseGate, if_neg hroom] at hgate
    exact nomatch hgate

theorem NextFits.execHint {e : Eng} {cls : Fin 8} {lead duration : Nat} (h : QueuesFit s) :
    NextFits (execHint e cls lead duration s) := by
  unfold Machine.execHint
  refine .onForm ?_
  refine .queueCommand h fun _ _ _ h => ?_
  extract_lets s2
  have h1 : QueuesFit s2 := h.onCore.crossPut
  exact .ite h1.bump h1

/-! ## Machine/Vector -/

theorem dqs_noteVector {e : AuditRec} : ((s.noteVector c e).core c).dqs = (s.core c).dqs := by
  rw [State.noteVector, core_onCore]

/-- A vector command that issues finds the data queues as its gate has seen them (R105, R106). -/
theorem QueuesFit.vectorCommand_of_gate {e : Eng} {occ : Nat} {gate : Nat → Option GateHold} {reads : List (Nat × Nat)}
    {first count vis : Nat} {go : Fin 8 → Nat → State → State} (h : QueuesFit s) (hgo : ∀ r u t, gate u = none → QueuesFit t →
      (t.core e.core).dqs = (s.core e.core).dqs → QueuesFit (go r u t)) :
    QueuesFit (s.vectorCommand e occ gate reads first count vis go) := by
  unfold State.vectorCommand
  dsimp only
  split
  · exact h.front _ ‹_›
  · split
    · exact h.queueHold
    · split
      · exact h.withhold
      · refine hgo _ _ _ ‹_› (.ite h.issueAt h.issueAt.noteVector) ?_
        split
        · exact dqs_issueAt
        · exact dqs_noteVector.trans dqs_issueAt

theorem QueuesFit.vectorCommand {e : Eng} {occ : Nat} {gate : Nat → Option GateHold} {reads : List (Nat × Nat)}
    {first count vis : Nat} {go : Fin 8 → Nat → State → State} (h : QueuesFit s)
    (hgo : ∀ r u t, QueuesFit t → QueuesFit (go r u t)) : QueuesFit (s.vectorCommand e occ gate reads first count vis go) :=
  h.vectorCommand_of_gate fun _ _ _ _ ht _ => hgo _ _ _ ht

theorem QueuesFit.vecWrite {reg slot : Nat} {data : List (List Word)} (h : QueuesFit s) :
    QueuesFit (s.vecWrite c reg slot data) :=
  h.onCore

theorem QueuesFit.vecResult {fmt : VFmt} {reg slot : Nat} {data : List (List Word)} (h : QueuesFit s) :
    QueuesFit (s.vecResult c fmt reg slot data) :=
  .ite h.vecWrite.onCore h.vecWrite

theorem QueuesFit.rxRelease {entry : Fin 4} {free : Nat} (h : QueuesFit s) : QueuesFit (s.rxRelease c entry free) :=
  h.onCore

theorem QueuesFit.vecPoison {level : Nat} (h : QueuesFit s) : QueuesFit (s.vecPoison r c tag level) := h.poisoned

theorem QueuesFit.loadRx {e : Eng} {dst : Fin 64} {L : Nat} {entry : Fin 4} {first : Nat} {release : Bool} {u : Nat}
    (h : QueuesFit s) : QueuesFit (s.loadRx r e dst L entry first release u) :=
  .ite h.vecPoison (.ite h.vecWrite.rxRelease h.vecWrite)

theorem QueuesFit.loadCm {e : Eng} {dst : Fin 64} {L addr : Nat} {fmt : VFmt} {u : Nat} (h : QueuesFit s) :
    QueuesFit (s.loadCm r e dst L addr fmt u) :=
  .ite h.isolation (.ite h.cmRead.vecPoison h.cmRead.vecWrite)

theorem NextFits.execVload {e : Eng} {dst : Fin 64} {L : Nat} {src : VLoadSrc} (h : QueuesFit s) :
    NextFits (execVload e dst L src s) := by
  unfold Machine.execVload
  refine .onForm ?_
  split
  · exact h.vectorCommand (fun _ _ _ h => h.loadRx)
  · exact h.vectorCommand (fun _ _ _ h => h.loadCm)

theorem CoreFits.storeLine {line : Nat} {bytes : List (Nat × Byte)} (hk : CoreFits k) : CoreFits (storeLine k line bytes) := by
  unfold Machine.storeLine
  split
  · exact hk
  · split
    · exact .corePut (hk.dropGather hk List.filter_sublist)
    · exact hk.gatherPut

theorem CoreFits.storeLines {addr : Nat} {d : List (Byte × Bool)} (hk : CoreFits k) : CoreFits (storeLines k addr d) :=
  hk.foldl (fun _ _ hk => hk.storeLine)

theorem QueuesFit.setNamed {exec : Bool} {x : Option FlagRef} (h : QueuesFit s) : QueuesFit (s.setNamed r c exec x) := by
  unfold State.setNamed
  split
  · exact h.setByCore
  · exact h

theorem QueuesFit.complete {exec : Bool} {done : Completion} (h : QueuesFit s)
    (hroom : ∀ n, done.dq = some n → (s.dq c n).length < 32) : QueuesFit (s.complete r c exec done) := by
  unfold State.complete
  split
  case h_1 n hn => exact (h.pushDq (hroom n hn)).setNamed.setNamed
  case h_2 => exact h.setNamed.setNamed

/-- A completion that no gate holds has room for its token (R108). -/
theorem room_of_doneGate {done : Completion} {u : Nat} (hgate : s.doneGate c done r u = none) {n : Fin 8}
    (hn : done.dq = some n) : (s.dq c n).length < 32 := by
  unfold State.doneGate at hgate
  split at hgate
  case h_1 => cases hgate
  case h_2 hfull =>
    rw [hn] at hfull
    simpa [State.dqRoom] using hfull

theorem dqs_decodeWord {w : Nat} : (decodeWord k w).dqs = k.dqs := by
  unfold decodeWord
  split
  · rfl
  · split <;> rfl

theorem dqs_foldl {f : Core → β → Core} (hf : ∀ k x, (f k x).dqs = k.dqs) (l : List β) : (l.foldl f k).dqs = k.dqs :=
  foldl_keeps (P := fun j => j.dqs = k.dqs) (fun j x hj => (hf j x).trans hj) l k rfl

theorem dqs_flushEntry {g : GatherEntry} : (flushEntry k g).dqs = k.dqs := dqs_foldl (fun _ _ => dqs_decodeWord) _

theorem dqs_flushWhere {p : GatherEntry → Bool} : (flushWhere p k).dqs = k.dqs := dqs_foldl (fun _ _ => dqs_flushEntry) _

theorem dqs_corePut {a : Nat} {d : List PByte} : (corePut a d k).dqs = k.dqs :=
  (dqs_foldl (fun _ _ => dqs_decodeWord) (partWords a d.length)).trans dqs_flushWhere

theorem dqs_gatherPut {line : Nat} {bytes : List (Nat × Byte)} : (gatherPut line bytes k).dqs = k.dqs := by
  unfold gatherPut
  extract_lets put old rest k1 g
  have h1 : k1.dqs = k.dqs := by
    unfold k1
    split
    · cases rest with
      | nil => rfl
      | cons g t => exact dqs_flushEntry
    · rfl
  split
  · exact dqs_flushEntry.trans h1
  · exact h1

theorem dqs_storeLine {line : Nat} {bytes : List (Nat × Byte)} : (storeLine k line bytes).dqs = k.dqs := by
  unfold storeLine
  split
  · rfl
  · split
    · exact dqs_corePut
    · exact dqs_gatherPut

theorem dqs_storeLines {addr : Nat} {d : List (Byte × Bool)} : (storeLines k addr d).dqs = k.dqs :=
  dqs_foldl (fun _ _ => dqs_storeLine) _

theorem dqs_trace {event operand q : Nat} {d : Fin 16} : ((s.trace c event tag operand q).core d).dqs = (s.core d).dqs := by
  rw [(traces_trace s c event tag operand q).core d]
  rfl

theorem Reports.core {t : State} (h : Reports s t) (d : Fin 16) : t.core d = s.core d := by
  rw [h.rest]
  rfl

theorem dqs_record {ring : Option (Fin 8)} {faulting : Bool} {i : FaultInfo} {d : Fin 16} :
    ((s.record ring faulting i).core d).dqs = (s.core d).dqs := by
  unfold State.record
  rw [(reports_fileRecord _ _ _ _ _).core d]
  split
  · exact dqs_trace
  · rfl

theorem dqs_coreEcc {w : Nat} {bad : Bool} {d : Fin 16} : ((s.coreEcc tag c w bad).core d).dqs = (s.core d).dqs := by
  unfold State.coreEcc
  split
  · exact dqs_record
  · rfl

theorem dqs_onMem {f : Core → Core} (hf : ∀ k, (f k).dqs = k.dqs) {d : Fin 16} :
    ((s.onMem tag c f).core d).dqs = (s.core d).dqs := by
  refine foldl_keeps (P := fun t : State => (t.core d).dqs = (s.core d).dqs) (fun t e ht => dqs_coreEcc.trans ht) _ _ ?_
  by_cases hd : c = d
  · subst hd
    rw [core_setCore]
    exact hf _
  · rw [core_setCore_ne s _ hd]

theorem QueuesFit.vstoreNow {e : Eng} {src : Fin 64} {L addr : Nat} {fmt : VFmt} {mask : BitVec 128} {done : Completion} {u : Nat}
    (h : QueuesFit s) (hroom : ∀ n, done.dq = some n → (s.dq e.core n).length < 32) :
    QueuesFit (s.vstoreNow r e src L addr fmt mask done u) := by
  unfold State.vstoreNow
  extract_lets c n s1 s2
  split
  · exact h.isolation
  · have h1 : QueuesFit s1 := h.onMem fun _ hk => hk.storeLines
    have h2 : QueuesFit s2 := .ite (h1.onMem fun _ hk => hk.flushRange) h1
    have hdqs : (s2.core c).dqs = (s.core c).dqs := by
      unfold s2
      split
      · exact (dqs_onMem fun _ => dqs_flushWhere).trans (dqs_onMem fun _ => dqs_storeLines)
      · exact dqs_onMem fun _ => dqs_storeLines
    refine h2.complete fun n hn => ?_
    rw [State.dq, hdqs]
    exact hroom n hn

theorem NextFits.execVstore {e : Eng} {src : Fin 64} {L addr : Nat} {fmt : VFmt} {mask : BitVec 128} {done : Completion}
    (h : QueuesFit s) : NextFits (execVstore e src L addr fmt mask done s) := by
  refine .ite nextFits_refused (.onForm (h.vectorCommand_of_gate fun r u t hgate ht hdqs => ht.vstoreNow fun n hn => ?_))
  rw [State.dq, hdqs]
  exact room_of_doneGate hgate hn

theorem NextFits.execVop {e : Eng} {op : VOpKind} {dst : Fin 64} {L : Nat} {a b c : VSrc} {fmt : VFmt} (h : QueuesFit s) :
    NextFits (execVop e op dst L a b c fmt s) :=
  .onForm (h.vectorCommand (fun _ _ _ h => .ite h.vecWrite h.vecResult))

theorem NextFits.execVfma {e : Eng} {dst : Fin 64} {L : Nat} {a b c : VSrc} {fmt : VFmt} (h : QueuesFit s) :
    NextFits (execVfma e dst L a b c fmt s) :=
  .onForm (h.vectorCommand (fun _ _ _ h => h.vecResult))

theorem NextFits.execVconv {e : Eng} {dst : Fin 64} {L : Nat} {a : VSrc} {src dstFmt : VFmt} (h : QueuesFit s) :
    NextFits (execVconv e dst L a src dstFmt s) :=
  .onForm (h.vectorCommand (fun _ _ _ h => h.vecResult))

theorem NextFits.execVfunc {e : Eng} {fn : VFn} {dst : Fin 64} {L : Nat} {a : VSrc} {fmt : VFmt} (h : QueuesFit s) :
    NextFits (execVfunc e fn dst L a fmt s) :=
  .onForm (h.vectorCommand (fun _ _ _ h => h.vecResult))

theorem NextFits.execVreduce {e : Eng} {op : VRed} {dst : Fin 64} {L : Nat} {a : Fin 64} {segments : Bool} {fmt : VFmt}
    (h : QueuesFit s) : NextFits (execVreduce e op dst L a segments fmt s) :=
  .onForm (h.vectorCommand (fun _ _ _ h => h.vecResult))

theorem NextFits.execVlatch {e : Eng} {k : Fin 64} (h : QueuesFit s) : NextFits (execVlatch e k s) :=
  .onForm (h.vectorCommand (fun _ _ _ h => h.onCore (fun _ hk => hk.opPut.update)))

/-! ## Machine/Quant -/

theorem QueuesFit.recPeek {a : Nat} (h : QueuesFit s) : QueuesFit (s.recPeek tag c a).1 := by
  unfold State.recPeek
  split
  · exact h
  · exact h.cmRead

theorem QueuesFit.recKeep {a : Nat} {b : List Byte} (h : QueuesFit s) : QueuesFit (s.recKeep tag c a b) := by
  unfold State.recKeep
  extract_lets rest s1
  have h1 : QueuesFit s1 := by
    unfold s1
    split
    · exact h.cmWrite
    · exact h
  exact h1.onCore

theorem QueuesFit.recsBack (h : QueuesFit s) : QueuesFit (s.recsBack tag c) := h.foldl (fun _ _ h => h.cmWrite)

theorem QueuesFit.recPeeks {a n : Nat} (h : QueuesFit s) : QueuesFit (s.recPeeks tag c a n).1 :=
  h.foldlFst (fun _ _ h => h.recPeek)

theorem QueuesFit.recordErr (h : QueuesFit s) : QueuesFit (s.recordErr c tag) := h.setFld.setReg

theorem QueuesFit.quantEvents {nan inf tooSmall tooBig sat redone : Bool} (h : QueuesFit s) :
    QueuesFit (s.quantEvents c nan inf tooSmall tooBig sat redone) :=
  h.setReg

theorem QueuesFit.requantWrite {record codes expmap : Nat} {f : ArrFmt} {recs : List (List Byte)}
    {res : List (GroupStat × GroupOut × Bool)} (h : QueuesFit s) :
    QueuesFit (s.requantWrite c tag record codes expmap f recs res) := by
  unfold State.requantWrite
  extract_lets stats outs sats redone tooBig tooSmall s1 s2 s3 s4 s5
  have h3 : QueuesFit s3 := by
    unfold s3
    split
    · exact h.cmWrite.cmWrite.recKeep
    · refine .foldl h.cmWrite.cmWrite fun _ _ h => ?_
      split
      · exact h.recKeep
      · exact h
  have h5 : QueuesFit s5 := h3.quantEvents.bump.bump
  exact .ite h5.setReg.trace h5

theorem QueuesFit.quantIssue {e : Eng} {occ prog u : Nat} (h : QueuesFit s) : QueuesFit (s.quantIssue e occ prog u) :=
  h.issueAt.onCore

theorem QueuesFit.requantNow {e : Eng} {src : QuantSrc} {record codes expmap : Nat} {column : Bool} {u : Nat} (h : QueuesFit s) :
    QueuesFit (s.requantNow r e src record codes expmap column u) := by
  unfold State.requantNow
  extract_lets c release
  have hrelease : ∀ n t, QueuesFit t → QueuesFit (release n t) := by
    intro n t ht
    unfold release
    split
    · exact ht.rxRelease
    · exact ht
  refine .ite h.quantIssue.isolation (.ite h.quantIssue.vecPoison ?_)
  have h1 := h.recPeek (tag := e.tag) (c := c) (a := record)
  split
  next s1 first p1 hfirst =>
  rw [hfirst] at h1
  extract_lets n
  have h2 : QueuesFit (if inCore record (64 * n) then s1.recPeeks e.tag c record n else (s1, [], false)).1 :=
    .iteFst h1.recPeeks h1
  split
  next s2 others p2 hothers =>
  rw [hothers] at h2
  refine .ite h2.quantIssue.vecPoison ?_
  split
  · exact (hrelease _ _ h2.quantIssue).recordErr
  · exact .ite h2.quantIssue.isolation (hrelease _ _ h2.quantIssue.requantWrite)

theorem QueuesFit.quantCommand {e : Eng} {gate : Nat → Option GateHold} {reads : List (Nat × Nat)} {go : Fin 8 → Nat → State}
    (h : QueuesFit s) (hgo : ∀ r u, QueuesFit (go r u)) : QueuesFit (s.quantCommand e gate reads go) := by
  unfold State.quantCommand
  dsimp only
  split
  · exact h.front _ ‹_›
  · split
    · exact h.queueHold
    · split
      · exact h.withhold
      · exact hgo _ _

theorem NextFits.execRequant {e : Eng} {src : QuantSrc} {record codes expmap : Nat} {column : Bool} (h : QueuesFit s) :
    NextFits (execRequant e src record codes expmap column s) :=
  .onForm (h.quantCommand (fun _ _ => h.requantNow))

theorem QueuesFit.scaleNow {e : Eng} {record occ : Nat} {f : List Byte → List Byte} {back : Bool} {u : Nat}
    (h : QueuesFit s) : QueuesFit (s.scaleNow r e record occ f back u) := by
  unfold State.scaleNow
  extract_lets c s0
  have h1 : QueuesFit s0 := .ite h.quantIssue h.issueAt
  split
  · exact h1.isolation
  · split
    · split
      · exact .vecPoison (.of_eq ‹_› h1.recPeek)
      · split
        · exact .recordErr (.of_eq ‹_› h1.recPeek)
        · extract_lets s2
          have h2 : QueuesFit s2 := .recKeep (.of_eq ‹_› h1.recPeek)
          exact .ite h2.cmWrite h2

theorem NextFits.execScaleClose {e : Eng} {record : Nat} {ringMax : Option Word} (h : QueuesFit s) :
    NextFits (execScaleClose e record ringMax s) :=
  .onForm (h.quantCommand (fun _ _ => h.scaleNow))

theorem NextFits.execScaleSet {e : Eng} {record : Nat} {exp : Byte} (h : QueuesFit s) :
    NextFits (execScaleSet e record exp s) :=
  .onForm (h.quantCommand (fun _ _ => h.scaleNow))

end Sys2Proof.Machine
end

section
/-! SUPPORT. The front end, the codec, the sample channels and the pages keep the depths of the queues. -/

namespace Sys2Proof.Machine

set_option Elab.async false
variable {β : Type} {s : State} {k : Core} {r : Fin 8} {c : Fin 16} {tag : Tag} {who : Who}

/-! ## Machine/FrontEnd -/

theorem QueuesFit.feSet {n : Fin 256} (h : QueuesFit s) : QueuesFit (s.feSet r n) := h.crossPut

theorem QueuesFit.freeBuffer {x : Fin 64} {k : Nat} (h : QueuesFit s) : QueuesFit (s.freeBuffer x k) := by
  unfold State.freeBuffer
  split
  · exact h.feSet
  · exact h

theorem QueuesFit.enableStream {x : Fin 64} (h : QueuesFit s) : QueuesFit (s.enableStream r x) :=
  .onStream (h.setFld.setRegs.foldl (fun _ _ h => h.feSet))

theorem QueuesFit.feEnable {x : Fin 64} (h : QueuesFit s) : QueuesFit (s.feEnable x) := by
  unfold State.feEnable
  split
  · exact h.enableStream
  · exact h.setFld.setFld

theorem QueuesFit.rxActive {rx : Fin 16} (h : QueuesFit s) : QueuesFit (s.rxActive rx) := h.setFld

theorem QueuesFit.rxOf {x : Fin 64} (h : QueuesFit s) : QueuesFit (s.rxOf x) := .ite h.rxActive h

theorem QueuesFit.abandonFrames {x : Fin 64} (h : QueuesFit s) : QueuesFit (s.abandonFrames x) :=
  .rxOf (h.onStream.foldl (fun _ _ h => h.freeBuffer))

theorem QueuesFit.feDisable {x : Fin 64} (h : QueuesFit s) : QueuesFit (s.feDisable x) := .ite h.abandonFrames.setFld h

theorem QueuesFit.feCommit {x : Fin 64} (h : QueuesFit s) : QueuesFit (s.feCommit x) := h.onStream

theorem QueuesFit.feRequest {x : Fin 64} {op : Nat} (h : QueuesFit s) : QueuesFit (s.feRequest x op) := by
  unfold State.feRequest
  split
  · exact h.feEnable
  · exact h.feDisable
  · exact h.feCommit
  · exact h

theorem QueuesFit.feControl {x : Fin 64} {op : Nat} (h : QueuesFit s) : QueuesFit (s.feControl who x op).1 := by
  unfold State.feControl
  split
  · exact h.request (fun _ h => h.feRequest)
  · exact h.feRequest

theorem NextFits.execStreamEnable {ctx : Fin 64} (h : QueuesFit s) : NextFits (execStreamEnable ctx who s) :=
  h.feControl.nextFits

theorem NextFits.execStreamDisable {ctx : Fin 64} (h : QueuesFit s) : NextFits (execStreamDisable ctx who s) :=
  h.feControl.nextFits

theorem NextFits.execStreamCommit {ctx : Fin 64} (h : QueuesFit s) : NextFits (execStreamCommit ctx who s) :=
  h.feControl.nextFits

theorem QueuesFit.streamOff {x : Fin 64} (h : QueuesFit s) : QueuesFit (s.streamOff x) := h.setFld

theorem NextFits.execStreamDisableDone {ctx : Fin 64} (h : QueuesFit s) : NextFits (execStreamDisableDone ctx s) :=
  QueuesFit.nextFits (.ite h.streamOff h)

theorem QueuesFit.dropFrame {x : Fin 64} {cause : Nat} (h : QueuesFit s) : QueuesFit (s.dropFrame x cause) :=
  h.setFld.setFld.bump

theorem QueuesFit.fePut {x : Fin 64} {k o : Nat} {d : List Byte} (h : QueuesFit s) : QueuesFit (s.fePut x k o d) := by
  unfold State.fePut
  split
  · exact h.bufWrite
  · exact h

theorem QueuesFit.payloadPut {x : Fin 64} {k o : Nat} {d : List Byte} (h : QueuesFit s) :
    QueuesFit (s.payloadPut x k o d) :=
  h.fePut

theorem QueuesFit.rowPut {x : Fin 64} {f : OpenFrame} {p y : Nat} (h : QueuesFit s) : QueuesFit (s.rowPut x f p y) :=
  h.fePut

theorem QueuesFit.rowsPut {x : Fin 64} {f : OpenFrame} {n : Nat} (h : QueuesFit s) : QueuesFit (s.rowsPut x f n).1 :=
  h.foldl (fun _ _ h => h.foldl (fun _ _ h => h.rowPut))

theorem QueuesFit.ispPut {x : Fin 64} {f : OpenFrame} (h : QueuesFit s) : QueuesFit (s.ispPut x f) := h.rowsPut.fePut

theorem QueuesFit.viewPut {x : Fin 64} {f : OpenFrame} (h : QueuesFit s) : QueuesFit (s.viewPut x f).1 := by
  unfold State.viewPut
  split
  · exact h
  · split
    · dsimp only
      split
      · exact h.bump.onSession
      · exact h
    · split
      · dsimp only
        exact h.dramWrite
      · exact h

theorem QueuesFit.stampFrame {x : Fin 64} {f : OpenFrame} (h : QueuesFit s) : QueuesFit (s.stampFrame x f).1 := by
  unfold State.stampFrame
  split
  · split
    · exact h.onStream
    · exact h
  · exact h

theorem QueuesFit.closeFrame {x : Fin 64} {f : OpenFrame} (h : QueuesFit s) : QueuesFit (s.closeFrame x f) := by
  unfold State.closeFrame
  extract_lets s0 s1
  have h2 : QueuesFit s1 := .ite h.onStream.ispPut h.onStream
  exact .onStream (.stampFrame (.iteFst h2.viewPut h2))

theorem QueuesFit.fillLines {x : Fin 64} {f : OpenFrame} (h : QueuesFit s) : QueuesFit (s.fillLines x f).1 :=
  .iteFst h (.ite h h.payloadPut)

theorem QueuesFit.fillGaps {x : Fin 64} {f : OpenFrame} (h : QueuesFit s) : QueuesFit (s.fillGaps x f).1 :=
  .iteFst h (h.foldl (fun _ _ h => h.payloadPut))

theorem QueuesFit.fillFrame {x : Fin 64} {how : FrameEnd} {f : OpenFrame} (h : QueuesFit s) :
    QueuesFit (s.fillFrame x how f).1 :=
  .iteFst h.fillLines h.fillGaps

theorem QueuesFit.finishFrame {x : Fin 64} {how : FrameEnd} (h : QueuesFit s) : QueuesFit (s.finishFrame x how).1 := by
  unfold State.finishFrame
  split
  · exact h
  · split
    · split
      · exact .rxOf (.dropFrame (.onStream (.of_eq ‹_› h.fillFrame)))
      · exact .rxOf (.closeFrame (.of_eq ‹_› h.fillFrame))

theorem QueuesFit.endFrame {x : Fin 64} {how : FrameEnd} (h : QueuesFit s) : QueuesFit (s.endFrame x how) := by
  unfold State.endFrame
  split
  · exact .freeBuffer (.of_eq ‹_› h.finishFrame)
  · exact .of_eq ‹_› h.finishFrame

theorem QueuesFit.applyCommit {x : Fin 64} (h : QueuesFit s) : QueuesFit (s.applyCommit x) := .ite h.onStream h

theorem QueuesFit.beginFrame {x : Fin 64} {number : BitVec 16} {stamp : Option DWord} (h : QueuesFit s) :
    QueuesFit (s.beginFrame r x number stamp) :=
  h.clearRingFlag.onStream.rxOf

theorem QueuesFit.startFrame {x : Fin 64} {number : BitVec 16} {stamp : Option DWord} (h : QueuesFit s) :
    QueuesFit (s.startFrame x number stamp) := by
  unfold State.startFrame
  split
  · extract_lets s1
    have h1 : QueuesFit s1 := .applyCommit (.of_eq ‹_› h.finishFrame)
    split
    · exact h1
    · split
      · exact h1.beginFrame
      · exact h1.dropFrame
      · exact h1.dropFrame.freeBuffer

theorem QueuesFit.rxDiscard {rx : Fin 16} (h : QueuesFit s) : QueuesFit (s.rxDiscard rx) := h.bump

theorem QueuesFit.rxUnbound {rx : Fin 16} (h : QueuesFit s) : QueuesFit (s.rxUnbound rx) := h.rxDiscard.setFld

theorem QueuesFit.rxFlag {rx : Fin 16} {f : Fld} {b : Bool} (h : QueuesFit s) : QueuesFit (s.rxFlag rx f b) :=
  .ite h.setFld h

theorem QueuesFit.rxHead {rx : Fin 16} {hd : CsiHead} (h : QueuesFit s) : QueuesFit (s.rxHead rx hd) := h.rxFlag

theorem QueuesFit.frameStart {rx : Fin 16} {hd : CsiHead} {frame : BitVec 16} (h : QueuesFit s) :
    QueuesFit (s.frameStart rx hd frame) := by
  unfold State.frameStart
  split
  · exact h.rxHead.rxUnbound
  · exact h.rxHead.foldl (fun _ _ h => h.startFrame)

theorem NextFits.execCsiFrameStart {rx : Fin 16} {head : CsiHead} {frame : BitVec 16} (h : QueuesFit s) :
    NextFits (execCsiFrameStart rx head frame s) :=
  QueuesFit.nextFits (.ite h.frameStart h)

theorem QueuesFit.takeLine {x : Fin 64} {f : OpenFrame} {payload : List Byte} {crcOk : Bool} (h : QueuesFit s) :
    QueuesFit (s.takeLine x f payload crcOk) :=
  .ite h.onStream.rxDiscard (.ite h.rowsPut.onStream h.onStream.payloadPut)

theorem QueuesFit.lineLost {rx : Fin 16} {x : Fin 64} (h : QueuesFit s) : QueuesFit (s.lineLost rx x) := h.rxFlag.endFrame

theorem QueuesFit.longPacket {rx : Fin 16} {hd : CsiHead} {dt : Byte} {payload : List Byte} {check : LineCheck}
    (h : QueuesFit s) : QueuesFit (s.longPacket rx hd dt payload check) := by
  unfold State.longPacket
  extract_lets s1
  have h1 : QueuesFit s1 := h.rxHead.rxFlag
  split
  · exact h1.rxUnbound
  · split
    · exact .ite h1.lineLost h1.takeLine
    · exact h1

theorem NextFits.execCsiLongPacket {rx : Fin 16} {vc : Fin 4} {vcExt fixed : Bool} {dt : Byte} {payload : List Byte}
    {check : LineCheck} (h : QueuesFit s) : NextFits (execCsiLongPacket rx vc vcExt fixed dt payload check s) :=
  QueuesFit.nextFits (.ite h.longPacket h)

theorem QueuesFit.embeddedData {rx : Fin 16} {hd : CsiHead} {d : List Byte} {crcOk : Bool} (h : QueuesFit s) :
    QueuesFit (s.embeddedData rx hd d crcOk) := by
  unfold State.embeddedData
  extract_lets s1
  have h1 : QueuesFit s1 := h.rxHead.rxFlag
  split
  · exact h1.rxUnbound
  · refine .foldl h1 fun _ _ h => ?_
    split
    · exact .ite h.onStream h
    · exact h

theorem NextFits.execCsiEmbeddedData {rx : Fin 16} {head : CsiHead} {bytes : List Byte} {crcOk : Bool} (h : QueuesFit s) :
    NextFits (execCsiEmbeddedData rx head bytes crcOk s) :=
  QueuesFit.nextFits (.ite h.embeddedData h)

theorem QueuesFit.frameEnd {rx : Fin 16} {hd : CsiHead} (h : QueuesFit s) : QueuesFit (s.frameEnd rx hd) := by
  unfold State.frameEnd
  split
  · exact h.rxHead.rxUnbound
  · exact h.rxHead.foldl (fun _ _ h => h.endFrame)

theorem NextFits.execCsiFrameEnd {rx : Fin 16} {head : CsiHead} (h : QueuesFit s) : NextFits (execCsiFrameEnd rx head s) :=
  QueuesFit.nextFits (.ite h.frameEnd h)

theorem QueuesFit.sotError {rx : Fin 16} (h : QueuesFit s) : QueuesFit (s.sotError rx) := h.rxFlag.rxDiscard

theorem NextFits.execCsiSotError {rx : Fin 16} (h : QueuesFit s) : NextFits (execCsiSotError rx s) :=
  QueuesFit.nextFits (.ite h.sotError h)

theorem QueuesFit.eccBad {rx : Fin 16} (h : QueuesFit s) : QueuesFit (s.eccBad rx) := h.rxFlag.rxDiscard

theorem NextFits.execCsiEccBad {rx : Fin 16} (h : QueuesFit s) : NextFits (execCsiEccBad rx s) :=
  QueuesFit.nextFits (.ite h.eccBad h)

theorem NextFits.execFrameEndTimeout {ctx : Fin 64} (h : QueuesFit s) : NextFits (execFrameEndTimeout ctx s) :=
  QueuesFit.nextFits (.ite h.endFrame h)

theorem QueuesFit.holdTime {x : Fin 64} {number : BitVec 16} {stamp : DWord} (h : QueuesFit s) :
    QueuesFit (s.holdTime x number stamp) := by
  unfold State.holdTime
  extract_lets k
  split
  · exact h.onStream
  · exact .ite h.bump (.ite h.onStream.bump h.onStream)

theorem QueuesFit.endWait {x : Fin 64} (h : QueuesFit s) : QueuesFit (s.endWait x) := by
  unfold State.endWait
  split
  · exact h.onStream
  · exact h

theorem NextFits.execTsWaitExpiry {ctx : Fin 64} (h : QueuesFit s) : NextFits (execTsWaitExpiry ctx s) := h.endWait.nextFits

theorem QueuesFit.queueView {x : Fin 64} {f : OpenFrame} (h : QueuesFit s) : QueuesFit (s.queueView x f) :=
  .ite h.onStream h

theorem QueuesFit.deliverFrame {x : Fin 64} {f : OpenFrame} (h : QueuesFit s) : QueuesFit (s.deliverFrame r x f) := by
  unfold State.deliverFrame
  extract_lets s1 s2 s3 s4
  have h2 : QueuesFit s2 := h.fePut.queueView.onStream
  have h3 : QueuesFit s3 := .ite h2.setFld h2
  exact .crossPut (.feSet (.ite h3.setFld h3))

theorem NextFits.execFrameDeliver {ctx : Fin 64} (h : QueuesFit s) : NextFits (execFrameDeliver ctx s) := by
  unfold Machine.execFrameDeliver
  refine QueuesFit.nextFits ?_
  split
  · exact .ite h h.deliverFrame
  · exact h

theorem QueuesFit.ethBytes {x : Fin 64} {o : Nat} {d : List Byte} (h : QueuesFit s) : QueuesFit (s.ethBytes x o d) := by
  unfold State.ethBytes
  split
  · exact h
  · exact h.payloadPut.onStream

/-! ## Machine/Codec -/

theorem QueuesFit.setCdc {st : Nat} (h : QueuesFit s) : QueuesFit (s.setCdc c st) := h.setFld

theorem QueuesFit.setCdcCause {cause : Nat} (h : QueuesFit s) : QueuesFit (s.setCdcCause c cause) := h.setFld

theorem QueuesFit.openSession (h : QueuesFit s) : QueuesFit (s.openSession r c) :=
  h.setCdc.setCdcCause.setFld.setReg.onSession

theorem QueuesFit.cdcOpenNow (h : QueuesFit s) : QueuesFit (s.cdcOpenNow r c) := by
  unfold State.cdcOpenNow
  split
  · exact h
  · split
    · exact h.openSession
    · exact h.setCdcCause

theorem QueuesFit.dropViews (h : QueuesFit s) : QueuesFit (s.dropViews c) := .ite h.onStream h

theorem QueuesFit.cdcCloseNow (h : QueuesFit s) : QueuesFit (s.cdcCloseNow c) := .ite h h.dropViews.setCdc

theorem QueuesFit.cdcRequest {op : Nat} (h : QueuesFit s) : QueuesFit (s.cdcRequest r c op) := by
  unfold State.cdcRequest
  split
  · exact h.cdcOpenNow
  · exact h.cdcCloseNow
  · exact h

theorem QueuesFit.cdcControl {op : Nat} (h : QueuesFit s) : QueuesFit (s.cdcControl who c op).1 := by
  unfold State.cdcControl
  split
  · exact h.request (fun _ h => h.cdcRequest)
  · exact h

theorem NextFits.execCdcOpen {session : Fin 16} (h : QueuesFit s) : NextFits (execCdcOpen session who s) :=
  h.cdcControl.nextFits

theorem NextFits.execCdcClose {session : Fin 16} (h : QueuesFit s) : NextFits (execCdcClose session who s) :=
  h.cdcControl.nextFits

theorem QueuesFit.cdcPut {o : Nat} {d : List Byte} (h : QueuesFit s) : QueuesFit (s.cdcPut c o d) := h.dramWrite

theorem QueuesFit.cdcGet {o n : Nat} (h : QueuesFit s) : QueuesFit (s.cdcGet c o n).1 := h.dramRead

theorem QueuesFit.cdcSkip (h : QueuesFit s) : QueuesFit (s.cdcSkip c) := h.bump.onSession

theorem QueuesFit.storeUnit {v : ViewFrame} {au : CodecUnit} {place : Nat × Nat × Bool} (h : QueuesFit s) :
    QueuesFit (s.storeUnit c v au place) :=
  .feSet (.onSession (.setReg (.cdcPut (.cdcPut (.ite h.cdcPut h)))))

theorem QueuesFit.encodeUnit {x : Fin 64} {v : ViewFrame} {au : CodecUnit} (h : QueuesFit s) :
    QueuesFit (s.encodeUnit c x v au) := by
  unfold State.encodeUnit
  extract_lets s1
  split
  · exact h.onStream.storeUnit
  · exact h.onStream.cdcSkip.onSession

theorem NextFits.execEncodeUnitDone {session : Fin 16} {au : CodecUnit} (h : QueuesFit s) :
    NextFits (execEncodeUnitDone session au s) := by
  unfold Machine.execEncodeUnitDone
  refine QueuesFit.nextFits ?_
  extract_lets x
  split
  · exact .ite h.encodeUnit h
  · exact h

theorem QueuesFit.setRptr {o : Nat} (h : QueuesFit s) : QueuesFit (s.setRptr c o) := h.setReg

theorem QueuesFit.handPicture {x : Fin 64} {p : Picture} (h : QueuesFit s) : QueuesFit (s.handPicture r x p) := by
  unfold State.handPicture
  extract_lets s1
  have h1 : QueuesFit s1 := h.applyCommit.beginFrame
  split
  · exact h1
  · exact .closeFrame (.ite h1 h1.payloadPut)

theorem QueuesFit.showPicture {x : Fin 64} {p : Picture} (h : QueuesFit s) : QueuesFit (s.showPicture r x p) :=
  .ite h.dropFrame (.ite h.dropFrame h.handPicture)

theorem QueuesFit.showDue {c : Fin 16} {x : Fin 64} {l : List Picture} (h : QueuesFit s) : QueuesFit (State.showDue r c x l s) := by
  induction l generalizing s with
  | nil => exact h.update
  | cons p l ih =>
    unfold State.showDue
    split
    · exact h.update
    · exact ih h.showPicture

theorem QueuesFit.takeUnit {hd picture : List Byte} {syntaxOk : Bool} {shown : List Nat} (h : QueuesFit s) :
    QueuesFit (s.takeUnit c hd picture syntaxOk shown) :=
  h.onSession.setRptr

theorem QueuesFit.decodeAt {hd picture : List Byte} {supported syntaxOk : Bool} {shown : List Nat} (h : QueuesFit s) :
    QueuesFit (s.decodeAt c hd picture supported syntaxOk shown) := by
  unfold State.decodeAt
  split
  · exact h.setRptr.setCdcCause
  · split
    · exact h.setCdc.setCdcCause
    · split
      · exact h
      · exact .ite h h.takeUnit.showDue

theorem QueuesFit.decodeUnitAt {picture : List Byte} {supported syntaxOk : Bool} {shown : List Nat} (h : QueuesFit s) :
    QueuesFit (s.decodeUnitAt c picture supported syntaxOk shown) := by
  unfold State.decodeUnitAt
  split
  · exact h
  · split
    · split
      · extract_lets s2
        have h1 : QueuesFit s2 := .setRptr (.of_eq ‹_› h.cdcGet)
        split
        · exact h1
        · split
          · exact .decodeAt (.of_eq ‹_› h1.cdcGet)
      · exact .decodeAt (.of_eq ‹_› h.cdcGet)

theorem QueuesFit.decodeNext {picture : List Byte} {supported syntaxOk : Bool} {shown : List Nat} (h : QueuesFit s) :
    QueuesFit (s.decodeNext c picture supported syntaxOk shown) := by
  unfold State.decodeNext
  split
  · exact h.decodeUnitAt
  · exact h
  · exact .ite h.showDue.decodeUnitAt h.showDue

theorem NextFits.execDecodeUnit {session : Fin 16} {picture : List Byte} {check : UnitCheck} {shown : List Nat}
    (h : QueuesFit s) : NextFits (execDecodeUnit session picture check shown s) :=
  QueuesFit.nextFits (.ite h.decodeNext h)

/-! ## Machine/Sample -/

theorem QueuesFit.smpSet {n : Nat} (h : QueuesFit s) : QueuesFit (s.smpSet r n) := h.crossPut

theorem QueuesFit.smpShow (h : QueuesFit s) : QueuesFit (s.smpShow c) := h.setFld.setFld

theorem QueuesFit.openChannel (h : QueuesFit s) : QueuesFit (s.openChannel r c) :=
  .smpShow (h.setReg.setRegs.onChan.foldl (fun _ _ h => h.smpSet))

theorem QueuesFit.smpOpenNow (h : QueuesFit s) : QueuesFit (s.smpOpenNow r c) := by
  unfold State.smpOpenNow
  split
  · exact h.openChannel
  · exact h.setFld.setFld

theorem QueuesFit.smpReport {p : SampleReport} (h : QueuesFit s) : QueuesFit (s.smpReport c p) := h.sendOwn

theorem QueuesFit.smpMode (h : QueuesFit s) : QueuesFit (s.smpMode c) :=
  .ite (.ite h.setFld.smpReport h) (.ite h.setFld.smpReport h)

theorem QueuesFit.smpCount {reason : Nat} (h : QueuesFit s) : QueuesFit (s.smpCount c reason) :=
  .ite h.setFld.setFld.bump h.setFld.setFld.bump

theorem QueuesFit.smpShut (h : QueuesFit s) : QueuesFit (s.smpShut c) := h.onChan.smpShow.setFld.setFld

theorem QueuesFit.smpLeave {m : Sample} (h : QueuesFit s) : QueuesFit (s.smpLeave c m) := by
  unfold State.smpLeave
  extract_lets s1 s2 s3
  have h1 : QueuesFit s1 := h.onChan.smpShow
  have h2 : QueuesFit s2 := .ite h1.setFld h1
  exact .ite h2.smpMode.smpShut h2.smpMode

theorem QueuesFit.smpDrop {m : Sample} {reason : Nat} (h : QueuesFit s) : QueuesFit (s.smpDrop c m reason) := by
  unfold State.smpDrop
  extract_lets s1 s2
  have h2 : QueuesFit s2 := by
    unfold s2
    split
    · exact h.smpCount.smpSet
    · exact h.smpCount
  exact h2.smpLeave.smpReport

theorem QueuesFit.smpCloseNow (h : QueuesFit s) : QueuesFit (s.smpCloseNow c) := by
  unfold State.smpCloseNow
  split
  · exact h
  · extract_lets s1 s2
    have h2 : QueuesFit s2 := h.setFld.foldl (fun _ _ h => h.smpDrop)
    exact .ite h2.smpShut h2

theorem QueuesFit.smpRequest {op : Nat} (h : QueuesFit s) : QueuesFit (s.smpRequest r c op) := by
  unfold State.smpRequest
  split
  · exact h.smpOpenNow
  · exact h.smpCloseNow
  · exact h

theorem QueuesFit.smpControl {op : Nat} (h : QueuesFit s) : QueuesFit (s.smpControl who c op).1 := by
  unfold State.smpControl
  split
  · exact h.request (fun _ h => h.smpRequest)
  · exact h

theorem NextFits.execSmpOpen {chan : Fin 16} (h : QueuesFit s) : NextFits (execSmpOpen chan who s) := h.smpControl.nextFits

theorem NextFits.execSmpClose {chan : Fin 16} (h : QueuesFit s) : NextFits (execSmpClose chan who s) :=
  h.smpControl.nextFits

theorem QueuesFit.smpStopRing (h : QueuesFit s) : QueuesFit (s.smpStopRing r) :=
  h.foldl (fun _ _ h => .ite (.smpShut (.setFld (h.foldl (fun _ _ h => h.smpCount)))) h)

theorem QueuesFit.stagePut {m : Sample} {o : Nat} {d : List Byte} (h : QueuesFit s) : QueuesFit (s.stagePut c m o d) :=
  h.dramWrite.onChan

theorem QueuesFit.stageChunk {m : Sample} {o : Nat} {d : List Byte} (h : QueuesFit s) : QueuesFit (s.stageChunk c m o d) :=
  .ite h.smpDrop h.stagePut

theorem QueuesFit.sampleFirst {msgId : BitVec 16} {d : List Byte} (h : QueuesFit s) :
    QueuesFit (s.sampleFirst c msgId d).1 := by
  unfold State.sampleFirst
  extract_lets m
  split
  · exact h.onChan.smpShow.smpMode.stageChunk
  · exact h.smpCount.smpReport

theorem QueuesFit.sampleMore {msgId : BitVec 16} {slot o : Nat} {d : List Byte} (h : QueuesFit s) :
    QueuesFit (s.sampleMore c msgId slot o d).1 := by
  unfold State.sampleMore
  split
  · exact h.stageChunk
  · exact h

theorem QueuesFit.sampleStale {p : Sample → Bool} (h : QueuesFit s) : QueuesFit (s.sampleStale c p) := by
  unfold State.sampleStale
  split
  · exact h.smpDrop
  · exact h

theorem NextFits.execSampleChunkTimeout {chan : Fin 16} {sampleId : Word} (h : QueuesFit s) :
    NextFits (execSampleChunkTimeout chan sampleId s) :=
  h.sampleStale.nextFits

theorem QueuesFit.takeHead {budget : Nat} (h : QueuesFit s) : QueuesFit (s.takeHead c budget) :=
  h.clearRingFlag.onChan.setFld

theorem QueuesFit.decoderTake (h : QueuesFit s) : QueuesFit (s.decoderTake c) := h.takeHead.setReg.update

theorem NextFits.execSampleTake {jpeg : Bool} {chan : Fin 16} (h : QueuesFit s) : NextFits (execSampleTake jpeg chan s) :=
  QueuesFit.nextFits (.ite (.ite h.decoderTake h) (.ite h.takeHead h))

theorem QueuesFit.smpPut {k o : Nat} {d : List PByte} (h : QueuesFit s) : QueuesFit (s.smpPut c k o d) := h.bufWrite

theorem QueuesFit.samplePlanes {m : Sample} {sub : ChromaSub} {planes : List Byte} (h : QueuesFit s) :
    QueuesFit (s.samplePlanes c m sub planes).1 :=
  .iteFst h h.dramRead

theorem QueuesFit.putPlanes {m : Sample} {k : Nat} {d : List PByte} (h : QueuesFit s) : QueuesFit (s.putPlanes c m k d) :=
  h.foldl (fun _ _ h => h.foldl (fun _ _ h => h.smpPut))

theorem QueuesFit.deliverSample {m : Sample} {k cycles : Nat} {sub : ChromaSub} {planes : List Byte} (h : QueuesFit s) :
    QueuesFit (s.deliverSample c m k cycles sub planes) :=
  h.samplePlanes.putPlanes.smpPut.smpSet.onChan.bump.smpLeave.smpReport

theorem QueuesFit.finishSample {m : Sample} {k cycles : Nat} {sub : ChromaSub} {planes : List Byte} (h : QueuesFit s) :
    QueuesFit (s.finishSample c m k cycles sub planes) :=
  .ite h.smpDrop h.deliverSample

theorem NextFits.execSampleDeliver {chan : Fin 16} {cycles : Nat} {planes : SamplePlanes} (h : QueuesFit s) :
    NextFits (execSampleDeliver chan cycles planes s) := by
  unfold Machine.execSampleDeliver
  refine QueuesFit.nextFits ?_
  split
  · split
    · exact h.finishSample
    · exact h
  · exact h

theorem NextFits.execSampleLate {chan : Fin 16} (h : QueuesFit s) : NextFits (execSampleLate chan s) := by
  unfold Machine.execSampleLate
  refine QueuesFit.nextFits ?_
  split
  · exact .ite h.smpDrop h
  · exact h

theorem NextFits.execSmpDecode {chan : Fin 16} {reason : Byte} (h : QueuesFit s) :
    NextFits (execSmpDecode chan reason s) := by
  unfold Machine.execSmpDecode
  split
  · exact nextFits_refused
  · refine QueuesFit.nextFits ?_
    split
    · exact .ite h.smpDrop h
    · exact h

/-! ## Machine/Pages -/

theorem QueuesFit.mapCores {f : Core → Core} (h : QueuesFit s)
    (hf : ∀ k, CoreFits k → CoreFits (f k) := by exact fun _ hk => hk.update) : QueuesFit { s with cores := s.cores.map f } := by
  obtain ⟨hcores, hrest⟩ := queuesFit_iff.mp h
  refine queuesFit_iff.mpr ⟨fun c => ?_, hrest⟩
  have hc := hf _ (hcores c)
  simpa [State.core] using hc

theorem QueuesFit.ptPut {x : Fin 4096} {n : Nat} {e : DWord} (h : QueuesFit s) : QueuesFit (s.ptPut x n e) :=
  h.ownWrite.mapCores

theorem QueuesFit.givePage {x : Fin 4096} {page : Nat} {f : Bool × Nat × Bool} (h : QueuesFit s) :
    QueuesFit (s.givePage x page f) :=
  .ptPut (.ite h.setFld h)

theorem QueuesFit.allocPage {x : Fin 4096} {page : Nat} (h : QueuesFit s) : SomeFits (s.allocPage r x page) :=
  .map fun _ => h.givePage.onCtx

end Sys2Proof.Machine
end

section
/-! SUPPORT. Contexts, packets, DMA and the store engine keep the depths of the queues. -/

namespace Sys2Proof.Machine

set_option Elab.async false
variable {β : Type} {s : State} {k : Core} {r : Fin 8} {c : Fin 16} {tag : Tag} {who : Who}

/-! ## Machine/Seq -/

theorem QueuesFit.setAge {x : Fin 4096} {v : Word} (h : QueuesFit s) : QueuesFit (s.setAge x v) := h.setReg

theorem QueuesFit.bumpPreempts {x : Fin 4096} (h : QueuesFit s) : QueuesFit (s.bumpPreempts x) := h.setReg

theorem QueuesFit.setCtxCause {x : Fin 4096} {c : Nat} (h : QueuesFit s) : QueuesFit (s.setCtxCause x c) := h.setFld

theorem QueuesFit.frameRead {tier : Bool} {frame : Nat} (h : QueuesFit s) : QueuesFit (s.frameRead r tier frame).1 :=
  .iteFst h.mwyRead h.dramRead

theorem QueuesFit.frameWrite {tier : Bool} {frame gen : Nat} {d : List PByte} (h : QueuesFit s) :
    QueuesFit (s.frameWrite r tier frame gen d) :=
  .ite h.mwyWrite h.dramWrite

theorem QueuesFit.pageSend {x : Fin 4096} {type : Byte} {bad : List Nat} {body : List Byte} (h : QueuesFit s) :
    QueuesFit (s.pageSend r x type bad body) := by
  unfold State.pageSend
  split
  · exact h.sendOwn
  · exact h

theorem QueuesFit.pageDrop {x : Fin 4096} {n gen : Nat} (h : QueuesFit s) : QueuesFit (s.pageDrop r x n gen) := h.pageSend

theorem QueuesFit.pageAgain {x : Fin 4096} {m : PageMove} {type : Byte} {bad : List Nat} {body : List Byte}
    (h : QueuesFit s) : QueuesFit (s.pageAgain r x m type bad body) := by
  unfold State.pageAgain
  split
  · exact h.send
  · exact h

theorem QueuesFit.pageOut {x : Fin 4096} {m : PageMove} {again : Bool} (h : QueuesFit s) :
    QueuesFit (s.pageOut r x m again) :=
  .ite h.frameRead.pageAgain h.frameRead.pageSend

theorem QueuesFit.pageIn {x : Fin 4096} {m : PageMove} {again : Bool} (h : QueuesFit s) :
    QueuesFit (s.pageIn r x m again) :=
  .ite h.pageAgain h.pageSend

theorem QueuesFit.addMove {x : Fin 4096} {m : PageMove} (h : QueuesFit s) : QueuesFit (s.addMove r x m) := h.onCtx

theorem QueuesFit.endMove {x : Fin 4096} {n : Nat} (h : QueuesFit s) : QueuesFit (s.endMove r x n) := h.onCtx

theorem QueuesFit.startOut {x : Fin 4096} {n : Nat} (h : QueuesFit s) : QueuesFit (s.startOut r x n) := by
  unfold State.startOut
  extract_lets e host num m s1
  have h1 : QueuesFit s1 := h.ptPut.addMove
  exact .ite h1.pageOut h1

theorem QueuesFit.startIn {x : Fin 4096} {n : Nat} {f : Bool × Nat × Bool} (h : QueuesFit s) :
    QueuesFit (s.startIn r x n f) := by
  unfold State.startIn
  extract_lets host num m s1 s2
  have h1 : QueuesFit s1 := .ite h.setFld h
  exact .ite h1.addMove.pageIn h1.addMove

theorem QueuesFit.cancelSwaps (h : QueuesFit s) : QueuesFit (s.cancelSwaps r) := h.onRing

theorem QueuesFit.startMoves {x : Fin 4096} {fuel : Nat} (h : QueuesFit s) : QueuesFit (State.startMoves r x fuel s) := by
  induction fuel generalizing s with
  | zero => exact h
  | succ fuel ih =>
    unfold State.startMoves
    split
    · exact h
    · split
      · exact h
      · split
        · split
          · exact ih h.startOut
          · exact h
        · split
          · split
            · exact ih h.startIn
            · exact h
          · exact h

theorem QueuesFit.freeContext {x : Fin 4096} (h : QueuesFit s) : QueuesFit (s.freeContext r x) := by
  unfold State.freeContext
  extract_lets s1 s2
  refine .setCtxState ?_
  exact .onRing (.foldl (h.foldl (fun _ _ h => h.pageDrop)) (fun _ _ h => h.ptPut))

theorem QueuesFit.settleSwap {x : Fin 4096} (h : QueuesFit s) : QueuesFit (s.settleSwap r x) := by
  unfold State.settleSwap
  split
  · exact h
  · split
    · exact h
    · split
      · exact h.freeContext
      · split
        · exact .ite h.setCtxState.setFld (.ite h.setCtxState h)
        · exact .ite (.ite h.setCtxState.setFld.onCtx (.ite h.setCtxState h)) h

theorem QueuesFit.runMoves {x : Fin 4096} (h : QueuesFit s) : QueuesFit (s.runMoves r x) := h.startMoves.settleSwap

theorem QueuesFit.runAllMoves (h : QueuesFit s) : QueuesFit (s.runAllMoves r) := h.foldl (fun _ _ h => h.runMoves)

theorem QueuesFit.leftPage {x : Fin 4096} {n : Nat} {host : Bool} {loc : Nat} (h : QueuesFit s) :
    QueuesFit (s.leftPage r x n host loc) :=
  h.ptPut.endMove.bump.runMoves

theorem QueuesFit.spilled {x : Fin 4096} {m : PageMove} (h : QueuesFit s) : QueuesFit (s.spilled r x m) := by
  unfold State.spilled
  split
  · exact h
  · exact h.frameRead.dramWrite.leftPage

theorem QueuesFit.pageAcked {x : Fin 4096} {m : PageMove} (h : QueuesFit s) : QueuesFit (s.pageAcked r x m) :=
  h.frameRead.leftPage

theorem QueuesFit.outFailed {x : Fin 4096} {m : PageMove} (h : QueuesFit s) : QueuesFit (s.outFailed r x m) :=
  h.ptPut.endMove.onCtx.runMoves

theorem QueuesFit.returned {x : Fin 4096} {m : PageMove} {d : List PByte} (h : QueuesFit s) :
    QueuesFit (s.returned r x m d) := by
  unfold State.returned
  extract_lets old gen s1 s2 s3
  have h2 : QueuesFit s2 := h.frameWrite.ptPut.endMove
  exact .runMoves (.bump (.ite h2.pageDrop h2))

theorem QueuesFit.dropAdmission {ctxs : List Nat} (h : QueuesFit s) : QueuesFit (s.dropAdmission r ctxs) :=
  .onRing (h.foldl (fun _ _ h => .ite h.onCtx.setCtxState h.onCtx))

theorem QueuesFit.refuseInvocation {i : Invocation} {status : Nat} (h : QueuesFit s) :
    QueuesFit (s.refuseInvocation r i status) := by
  unfold State.refuseInvocation
  extract_lets s1 s2
  have h1 : QueuesFit s1 := .ite h.dropAdmission h
  split
  · exact h1.onRing.replyStatus
  · exact h1.onRing

theorem QueuesFit.loseContext {x : Fin 4096} {n cause : Nat} (h : QueuesFit s) : QueuesFit (s.loseContext r x n cause) := by
  unfold State.loseContext
  extract_lets s1
  exact h.endMove.setCtxState.setCtxCause.setFld.foldl (fun _ _ h => h.refuseInvocation)

theorem QueuesFit.inFailed {x : Fin 4096} {m : PageMove} {cause : Nat} (h : QueuesFit s) :
    QueuesFit (s.inFailed r x m cause) :=
  .ite h.endMove.settleSwap (.ite h.onCtx.pageIn h.loseContext)

theorem QueuesFit.pageCame {x : Fin 4096} {m : PageMove} {gen : Nat} {crc : Word} {poisoned : Bool} {d : List Byte}
    (h : QueuesFit s) : QueuesFit (s.pageCame r x m gen crc poisoned d) :=
  .ite h.returned h.inFailed

theorem QueuesFit.noAnswer {x : Fin 4096} {m : PageMove} (h : QueuesFit s) : QueuesFit (s.noAnswer r x m) :=
  .ite (.ite h.onCtx.pageOut h.outFailed) h.inFailed

theorem QueuesFit.refuseCtx {x : Fin 4096} {cause : Nat} (h : QueuesFit s) : QueuesFit (s.refuseCtx r x cause) :=
  h.setFld.setCtxCause

theorem QueuesFit.openContext {x : Fin 4096} {endpoint : Option (Fin 8)} (h : QueuesFit s) :
    QueuesFit (s.openContext r x endpoint) := by
  unfold State.openContext
  extract_lets s1 s2 s3
  refine .setCtxCause ?_
  exact .setCtxState (.onRing (.setReg (.setAge (h.foldl (fun _ _ h => h.ptPut)))))

theorem QueuesFit.ctxOpenNow {x : Fin 4096} (h : QueuesFit s) : QueuesFit (s.ctxOpenNow r x who) := by
  unfold State.ctxOpenNow
  split
  · exact h.refuseCtx
  · split
    · exact h.openContext
    · exact h.refuseCtx

theorem QueuesFit.beginClose {x : Fin 4096} (h : QueuesFit s) : QueuesFit (s.beginClose r x) :=
  h.setCtxState.onCtx.settleSwap

theorem QueuesFit.ctxCloseNow {x : Fin 4096} (h : QueuesFit s) : QueuesFit (s.ctxCloseNow r x) :=
  .ite h.refuseCtx (.ite h.onCtx h.beginClose)

theorem QueuesFit.ctxPrefetchNow {x : Fin 4096} (h : QueuesFit s) : QueuesFit (s.ctxPrefetchNow r x) :=
  .ite h.setCtxState.onCtx.runMoves h.refuseCtx

theorem QueuesFit.preempt {x : Fin 4096} (h : QueuesFit s) : SomeFits (s.preempt r x) := by
  unfold State.preempt
  split
  · exact someFits_none
  · exact h.setCtxState.bumpPreempts.mapCores.onCtx.runMoves.someFits

theorem QueuesFit.spillFull {x : Fin 4096} (h : QueuesFit s) : QueuesFit (s.spillFull r x) := h.setFld.setCtxCause

theorem QueuesFit.ctxEvictNow {x : Fin 4096} (h : QueuesFit s) : QueuesFit (s.ctxEvictNow r x) := by
  unfold State.ctxEvictNow
  split
  · cases he : s.preempt r x with
    | none => exact h.spillFull
    | some t => exact h.preempt.of_eq he
  · exact h.refuseCtx

theorem QueuesFit.ctxRequest {op : Nat} {x : Fin 4096} (h : QueuesFit s) : QueuesFit (s.ctxRequest r who op x) := by
  unfold State.ctxRequest
  split
  · exact h.ctxOpenNow
  · exact h.ctxCloseNow
  · exact h.ctxPrefetchNow
  · exact h.ctxEvictNow
  · exact h

theorem QueuesFit.ctxControl {op : Nat} {x : Fin 4096} (h : QueuesFit s) : QueuesFit (s.ctxControl r who op x).1 :=
  h.request (fun _ h => h.ctxRequest)

theorem NextFits.execCtxOpen {ring : Fin 8} {ctx : Fin 4096} (h : QueuesFit s) : NextFits (execCtxOpen ring ctx who s) :=
  h.ctxControl.nextFits

theorem NextFits.execCtxClose {ring : Fin 8} {ctx : Fin 4096} (h : QueuesFit s) : NextFits (execCtxClose ring ctx who s) :=
  h.ctxControl.nextFits

theorem NextFits.execCtxPrefetch {ring : Fin 8} {ctx : Fin 4096} (h : QueuesFit s) :
    NextFits (execCtxPrefetch ring ctx who s) :=
  h.ctxControl.nextFits

theorem NextFits.execCtxEvict {ring : Fin 8} {ctx : Fin 4096} (h : QueuesFit s) : NextFits (execCtxEvict ring ctx who s) :=
  h.ctxControl.nextFits

theorem QueuesFit.preemptFor {listed skipped : List Nat} {fuel : Nat} (h : QueuesFit s) :
    QueuesFit (State.preemptFor r listed fuel skipped s).1 := by
  induction fuel generalizing s skipped with
  | zero => exact h
  | succ fuel ih =>
    unfold State.preemptFor
    split
    · exact h
    · split
      · exact h
      · split
        · exact ih (h.preempt.of_eq ‹_›)
        · exact ih h.spillFull

theorem QueuesFit.reserveFor {listed : List Nat} (h : QueuesFit s) : QueuesFit (s.reserveFor r listed) :=
  h.foldl (fun _ _ h => h.onCtx)

theorem QueuesFit.swapInFor {listed : List Nat} (h : QueuesFit s) : QueuesFit (s.swapInFor r listed) :=
  h.foldl (fun _ _ h => .ite h.setCtxState.onCtx.runMoves (.ite h.onCtx.runMoves h))

theorem QueuesFit.activateFor {listed : List Nat} (h : QueuesFit s) : QueuesFit (s.activateFor r listed) :=
  .ite (.onRing (h.foldl (fun _ _ h => h.setCtxState.onCtx))) h

theorem QueuesFit.admitFrames {i : Invocation} {listed : List Nat} (h : QueuesFit s) : QueuesFit (s.admitFrames r i listed) := by
  unfold State.admitFrames
  extract_lets adm
  refine .ite h.swapInFor.activateFor ?_
  split
  next hpre =>
  have h1 := QueuesFit.of_eq hpre h.preemptFor
  extract_lets need s2 s3
  have h2 : QueuesFit s2 := h1.onRing
  exact .ite h2.reserveFor.onRing.swapInFor.activateFor
    (.ite h2 (h2.refuseInvocation.setFld.foldl fun _ _ h => h.setCtxCause))

theorem QueuesFit.endSwapOuts {listed : List Nat} (h : QueuesFit s) : QueuesFit (s.endSwapOuts r listed) :=
  h.foldl (fun _ _ h => .ite h.onCtx.settleSwap h)

theorem QueuesFit.admitHead {i : Invocation} (h : QueuesFit s) : QueuesFit (s.admitHead r i) := by
  unfold State.admitHead
  extract_lets listed
  split
  · exact h.refuseInvocation.setFld
  · exact .ite h.endSwapOuts (.ite h.endSwapOuts.onRing h.endSwapOuts.admitFrames)

theorem NextFits.execSeqAdmit {ring : Fin 8} (h : QueuesFit s) : NextFits (execSeqAdmit ring s) := by
  unfold Machine.execSeqAdmit
  refine QueuesFit.nextFits ?_
  split
  · split
    · exact h
    · exact .ite h h.admitHead
  · exact h

theorem NextFits.execSwapOutPageDone {ring : Fin 8} {ctx : Fin 4096} {page : Nat} (h : QueuesFit s) :
    NextFits (execSwapOutPageDone ring ctx page s) := by
  unfold Machine.execSwapOutPageDone
  refine QueuesFit.nextFits ?_
  split
  · exact .ite h.spilled h
  · exact h

theorem QueuesFit.unspilled {x : Fin 4096} {m : PageMove} (h : QueuesFit s) : QueuesFit (s.unspilled r x m) := by
  unfold State.unspilled
  split
  · exact .returned (.of_eq ‹_› h.dramRead)

theorem NextFits.execSwapInPageDone {ring : Fin 8} {ctx : Fin 4096} {page : Nat} (h : QueuesFit s) :
    NextFits (execSwapInPageDone ring ctx page s) := by
  unfold Machine.execSwapInPageDone
  refine QueuesFit.nextFits ?_
  split
  · exact .ite h.unspilled h
  · exact h

theorem NextFits.execPageAnswerTimeout {ring : Fin 8} {ctx : Fin 4096} {page : Nat} (h : QueuesFit s) :
    NextFits (execPageAnswerTimeout ring ctx page s) := by
  unfold Machine.execPageAnswerTimeout
  refine QueuesFit.nextFits ?_
  split
  · exact .ite h.noAnswer h
  · exact h

theorem QueuesFit.stepContexts {i : Invocation} (h : QueuesFit s) : QueuesFit (s.stepContexts r i) :=
  h.foldl (fun _ _ h => h.onCtx)

theorem QueuesFit.demote {x : Fin 4096} {n : Nat} (h : QueuesFit s) : QueuesFit (s.demote r x n) := by
  unfold State.demote
  extract_lets e
  split
  · exact h
  · split
    · exact h
    · split
      next hread => exact (QueuesFit.of_eq hread h.frameRead).frameWrite.ptPut

theorem QueuesFit.demoteAll (h : QueuesFit s) : QueuesFit (s.demoteAll r) :=
  h.foldl (fun _ _ h => h.foldl (fun _ _ h => h.demote))

theorem QueuesFit.contextDone {keep : List Nat} {n : Nat} (h : QueuesFit s) : QueuesFit (s.contextDone r keep n) :=
  .ite h.onCtx (.ite h.onCtx.beginClose (.ite h.onCtx h.onCtx.setCtxState))

theorem QueuesFit.stepEnds {i : Invocation} (h : QueuesFit s) : QueuesFit (s.stepEnds r i) :=
  .onRing (h.demoteAll.foldl (fun _ _ h => h.contextDone))

theorem QueuesFit.releaseContexts (h : QueuesFit s) : QueuesFit (s.releaseContexts r) := by
  unfold State.releaseContexts
  extract_lets region s1
  have h1 : QueuesFit s1 := h.foldl (fun _ _ h => h.freeContext)
  cases region with
  | none => exact h1
  | some p => exact h1.update

/-! ## Machine/Link -/

theorem QueuesFit.setPortState {p : Fin 4} {st : Nat} (h : QueuesFit s) : QueuesFit (s.setPortState p st) := h.setFld

theorem QueuesFit.pumpOut {p : Fin 4} (h : QueuesFit s) : QueuesFit (s.pumpOut p) := .ite h.onPort h

theorem QueuesFit.portSend {p : Fin 4} {x : TxPacket} (h : QueuesFit s) : QueuesFit (s.portSend p x) := h.onPort.pumpOut

theorem QueuesFit.sendLink {p : Fin 4} {nak : Bool} (h : QueuesFit s) : QueuesFit (s.sendLink p nak) := h.onPort

theorem QueuesFit.countNowhere {p : Option (Fin 4)} (h : QueuesFit s) : QueuesFit (s.countNowhere p) := by
  unfold State.countNowhere
  split
  · exact h.bump
  · exact h

theorem QueuesFit.writeLagRecord (h : QueuesFit s) : QueuesFit s.writeLagRecord := by
  unfold State.writeLagRecord
  split
  · exact h.bufWrite
  · exact h

theorem QueuesFit.onWorker {d : Nat} {f : LagWorker → LagWorker} (h : QueuesFit s) : QueuesFit (s.onWorker d f) := h.update

theorem QueuesFit.removeWorker {d : Nat} (h : QueuesFit s) : QueuesFit (s.removeWorker d) := by
  unfold State.removeWorker
  extract_lets k s1 _ s2 s3
  have h2 : QueuesFit s2 := h.setReg.update
  have h3 : QueuesFit s3 := h2.setFld.writeLagRecord
  split
  · split
    · exact h3.crossPut
    · exact h3
  · exact h3

theorem QueuesFit.reportLag {d : Nat} (h : QueuesFit s) : QueuesFit (s.reportLag d) := by
  unfold State.reportLag
  extract_lets s1
  have h1 : QueuesFit s1 := h.setFld.setFld.onWorker
  exact .ite h1.removeWorker h1

theorem QueuesFit.decideStep {d k : Nat} {behind : Bool} (h : QueuesFit s) : QueuesFit (s.decideStep d k behind) := by
  unfold State.decideStep
  split
  · extract_lets s1
    split
    · exact .ite h.onWorker.reportLag h.onWorker
    · exact h.onWorker
  · exact h.onWorker

theorem QueuesFit.formStep (h : QueuesFit s) : QueuesFit s.formStep := h.update.foldl (fun _ _ h => h.decideStep)

theorem QueuesFit.formSteps {fuel : Nat} (h : QueuesFit s) : QueuesFit (State.formSteps fuel s) := by
  induction fuel generalizing s with
  | zero => exact h
  | succ fuel ih =>
    unfold State.formSteps
    exact .ite (ih h.formStep) h

theorem QueuesFit.lagArrival {d : Nat} (h : QueuesFit s) : QueuesFit (s.lagArrival d) := by
  unfold State.lagArrival
  extract_lets now known _ s1 s2 s3
  have h1 : QueuesFit s1 := .ite h h.update
  have h3 : QueuesFit s3 := h1.onWorker.formSteps
  split
  · exact .ite h3.decideStep h3
  · exact h3

theorem QueuesFit.windowWrite {w : Fin 256} {o : Nat} {d : List PByte} (h : QueuesFit s) :
    QueuesFit (s.windowWrite w o d).1 :=
  .iteFst h.dramWrite h.mwyWrite

theorem QueuesFit.windowRead {w : Fin 256} {o n : Nat} (h : QueuesFit s) : QueuesFit (s.windowRead w o n).1 :=
  .iteFst h.dramRead h.mwyRead

theorem QueuesFit.refuseRemote {kind : Nat} {q : Packet} {w : Fin 256} {status : Nat} (h : QueuesFit s) :
    QueuesFit (s.refuseRemote kind q w status).1 :=
  h.bump

theorem QueuesFit.windowFlag {w : Fin 256} {via : Fin 4} (h : QueuesFit s) : QueuesFit (s.windowFlag w via) := by
  unfold State.windowFlag
  split
  · exact h.crossPut
  · exact h

theorem QueuesFit.windowArrival {w : Fin 256} {q : Packet} (h : QueuesFit s) : QueuesFit (s.windowArrival w q) :=
  .ite h.lagArrival h

theorem QueuesFit.serve {via : Fin 4} {kind : Nat} {q : Packet} (h : QueuesFit s) : QueuesFit (s.serve via kind q).1 := by
  unfold State.serve
  extract_lets w
  split
  · split
    · split
      · extract_lets s2 s3
        have h1 : QueuesFit s2 := .bump (.of_eq ‹_› h.windowWrite)
        exact .ite h1.windowFlag.windowArrival h1
      · exact .refuseRemote (.of_eq ‹_› h.windowWrite)
    · split
      · exact .bump (.of_eq ‹_› h.windowRead)
      · exact .refuseRemote (.of_eq ‹_› h.windowRead)
  · exact h.refuseRemote

/-! ## Machine/Dma -/

theorem QueuesFit.cmPieces {l : List (Nat × Nat)} (h : QueuesFit s) : QueuesFit (State.cmPieces tag c l s).1 := by
  induction l generalizing s with
  | nil => exact h
  | cons p t ih => exact ih h.cmRead

theorem QueuesFit.cmRows {addr pitch n : Nat} (h : QueuesFit s) : QueuesFit (s.cmRows tag c addr pitch n).1 := h.cmPieces

theorem QueuesFit.patternRead {addr : Nat} {pat : Pattern} {pos len : Nat} (h : QueuesFit s) :
    QueuesFit (s.patternRead tag c addr pat pos len).1 := by
  unfold State.patternRead
  split
  · exact h.cmRead
  · exact h.cmPieces
  · split
    · exact .of_eq ‹_› h.cmRows
  · split
    · exact .of_eq ‹_› h.cmRows

theorem QueuesFit.dramPieces {gen : Option (BitVec 16)} {l : List (Nat × Nat)} (h : QueuesFit s) :
    QueuesFit (State.dramPieces r tag gen l s).1 := by
  induction l generalizing s with
  | nil => exact h
  | cons p t ih =>
    unfold State.dramPieces
    split
    · exact .of_eq ‹_› h.dramRead
    · split
      · exact .of_eq ‹_› (ih (.of_eq ‹_› h.dramRead))
      · exact .of_eq ‹_› (ih (.of_eq ‹_› h.dramRead))

theorem QueuesFit.placeRead {x : Transfer} {pos len : Nat} (h : QueuesFit s) :
    QueuesFit (s.placeRead r c tag x pos len).1 := by
  unfold State.placeRead
  split
  · exact h.patternRead
  · exact h.mwyRead
  · exact h.dramRead
  · exact .iteFst h.dramPieces (h.foldlFst (fun _ _ h => h.mwyRead))
  · exact h
  · exact h
  · exact h

theorem QueuesFit.putPieces {put : State → Nat → List PByte → State × Bool} {l : List (Nat × Nat)} {d : List PByte}
    (h : QueuesFit s) (hput : ∀ t a d, QueuesFit t → QueuesFit (put t a d).1) : QueuesFit (State.putPieces put l d s).1 := by
  induction l generalizing s d with
  | nil => exact h
  | cons p t ih =>
    unfold State.putPieces
    split
    · exact .of_eq ‹_› (hput _ _ _ h)
    · exact ih (.of_eq ‹_› (hput _ _ _ h))

theorem QueuesFit.placeWrite {x : Transfer} {pos : Nat} {d : List PByte} (h : QueuesFit s) :
    QueuesFit (s.placeWrite r c tag x pos d).1 := by
  unfold State.placeWrite
  split
  · exact h.cmWrite
  · exact h.mwyWrite
  · exact h.dramWrite
  · exact h.onCore (fun _ hk => hk.opPut)
  · exact h.putPieces (fun _ _ _ h => .iteFst h.dramWrite h.mwyWrite)
  · exact h
  · exact h

theorem QueuesFit.dmaFault {row access len addr : Nat} (h : QueuesFit s) :
    QueuesFit (s.dmaFault r c tag row access len addr) :=
  h.isolation

theorem QueuesFit.resolveMwy {access addr bytes : Nat} {fallback : Option Nat} (h : QueuesFit s) :
    QueuesFit (s.resolveMwy r c tag access addr bytes fallback).1 := by
  unfold State.resolveMwy
  split
  · exact h
  · split
    · exact .iteFst h.bump h.dmaFault
    · exact h.dmaFault

theorem QueuesFit.walk {x : Fin 4096} {page : Nat} (h : QueuesFit s) : QueuesFit (s.walk c tag x page).1 := by
  unfold State.walk
  split
  · exact h
  · split
    · exact .of_eq ‹_› h.dramRead
    · exact .of_eq ‹_› h.dramRead

theorem QueuesFit.keepTranslation {x : Fin 4096} {page : Nat} {e : DWord} (h : QueuesFit s) :
    QueuesFit (s.keepTranslation c x page e) :=
  h.onCore

theorem QueuesFit.seqPage {x : Fin 4096} {page first pitch offset per bytes : Nat} {write : Bool} (h : QueuesFit s) :
    QueuesFit (s.seqPage r c tag x page first pitch offset per bytes write).1 := by
  unfold State.seqPage
  split
  · extract_lets gen
    split
    · exact .poisoned (.of_eq ‹_› h.walk)
    · split
      · exact .keepTranslation (.of_eq ‹_› h.walk)
      · split
        · split
          · split
            · extract_lets e2
              refine .keepTranslation ?_
              exact SomeFits.of_eq (QueuesFit.allocPage (.of_eq ‹_› h.walk)) ‹_›
            · exact .dmaFault (.of_eq ‹_› h.walk)
          · exact .setFld (.of_eq ‹_› h.walk)
        · exact .dmaFault (.of_eq ‹_› h.walk)

theorem QueuesFit.resolveSeq {ctx : Fin 4096} {stream token offset per bytes : Nat} {write : Bool} (h : QueuesFit s) :
    QueuesFit (s.resolveSeq r c tag ctx stream token offset per bytes write).1 :=
  .iteFst h.dmaFault h.seqPage

theorem QueuesFit.resolveEnd {bytes : Nat} {write : Bool} {x : DmaEnd} (h : QueuesFit s) :
    QueuesFit (s.resolveEnd r c tag bytes write x).1 := by
  unfold State.resolveEnd
  split
  · exact .iteFst h h.dmaFault
  · split
    · exact .of_eq ‹_› h.resolveMwy
    · exact .of_eq ‹_› h.resolveMwy
  · exact h
  · exact .iteFst h h.dmaFault
  · exact h.resolveSeq
  · exact h

theorem CoreFits.deriveFill {b : FillBuf} {fmt : ArrFmt} {addr bytes : Nat} (hk : CoreFits k) :
    CoreFits (deriveFill b fmt addr bytes k) := by
  unfold Machine.deriveFill
  extract_lets exp
  refine .foldl hk fun _ _ hk => ?_
  extract_lets pair
  refine .foldl hk fun _ _ hk => ?_
  extract_lets places
  split
  · exact hk
  · exact hk.opPut

theorem CoreFits.exponentFill {b : FillBuf} {fmt : ArrFmt} {e : Byte} {addr bytes : Nat} (hk : CoreFits k) :
    CoreFits (exponentFill b fmt e addr bytes k) :=
  hk.foldl (fun _ _ hk => hk.opPut)

theorem CoreFits.fillPiece {x : Transfer} {pos : Nat} (hk : CoreFits k) : CoreFits (fillPiece x pos k) := by
  unfold Machine.fillPiece
  split
  · exact hk.deriveFill
  · exact hk

theorem CoreFits.fillExponents {cmd : DmaCmd} {bytes : Nat} (hk : CoreFits k) : CoreFits (fillExponents cmd bytes k) := by
  unfold Machine.fillExponents
  split
  · split
    · exact hk.exponentFill
    · exact hk.deriveFill
  · exact hk

theorem QueuesFit.onDma {f : EngineBusy → EngineBusy} (h : QueuesFit s) : QueuesFit (s.onDma c f) := h.onCore

theorem QueuesFit.dmaDrop (h : QueuesFit s) : QueuesFit (s.dmaDrop c) := h.update.onCore

theorem QueuesFit.remoteFailed {q : RemoteReq} {status : Nat} (h : QueuesFit s) :
    QueuesFit (s.remoteFailed r q status) := by
  unfold State.remoteFailed
  extract_lets s1 s2
  have h1 : QueuesFit s1 := h.setFld.setFld
  exact .ite h1.setFld.setFld h1.setFld.setFld

theorem QueuesFit.deliver {q : RemoteReq} {d : List PByte} (h : QueuesFit s) : QueuesFit (s.deliver r q d) := by
  unfold State.deliver
  split
  · split
    · exact .onCore (.of_eq ‹_› h.placeWrite) (fun _ hk => hk.fillPiece)
    · exact .dmaDrop (.of_eq ‹_› h.placeWrite)
  · exact h

theorem QueuesFit.remoteReply {txn : BitVec 16} {status : Nat} {d : List PByte} (h : QueuesFit s) :
    QueuesFit (s.remoteReply txn status d) := by
  unfold State.remoteReply
  split
  · exact h
  · extract_lets s1 s2
    split
    · exact h.update.onDma
    · split
      · exact .ite h.update.onDma h.update.onDma.deliver
      · split
        · exact h.update.onDma.remoteFailed.dmaDrop.isolation
        · extract_lets s3
          have h3 : QueuesFit s3 := h.update.onDma.remoteFailed.record
          exact .ite h3 h3.deliver

theorem QueuesFit.dispatch {kind : Nat} {q : Packet} (h : QueuesFit s) : QueuesFit (s.dispatch kind q) := by
  unfold State.dispatch
  split
  · exact h.serve.remoteReply
  · exact h.portSend
  · exact h.countNowhere.remoteReply

theorem QueuesFit.askOne {b : EngineBusy} {x : Transfer} {write : Bool} {device window : Byte} {offset : Nat}
    {setFlag : Bool} (h : QueuesFit s) : QueuesFit (s.askOne r c b x write device window offset setFlag) := by
  unfold State.askOne
  extract_lets pos len txn go
  split
  · split
    · exact .dispatch (.onDma (.update (.of_eq ‹_› h.placeRead)))
    · exact .dmaDrop (.of_eq ‹_› h.placeRead)
  · exact h.update.onDma.dispatch

theorem QueuesFit.askMore {fuel : Nat} (h : QueuesFit s) : QueuesFit (State.askMore r c fuel s) := by
  induction fuel generalizing s with
  | zero => exact h
  | succ fuel ih =>
    unfold State.askMore
    split
    · exact h
    · split
      · exact h
      · split
        · split
          · exact ih h.askOne
          · exact ih h.askOne
          · exact h
        · exact h

theorem QueuesFit.askAll (h : QueuesFit s) : QueuesFit s.askAll := by
  unfold State.askAll
  refine .foldl h fun _ _ h => ?_
  split
  · exact h.askMore
  · exact h

theorem QueuesFit.moveHere {e : Eng} {cmd : DmaCmd} {x : Transfer} (h : QueuesFit s) :
    QueuesFit (s.moveHere r e cmd x) := by
  unfold State.moveHere
  split
  · exact .of_eq ‹_› h.placeRead
  · split
    · exact .of_eq ‹_› (.placeWrite (.of_eq ‹_› h.placeRead))
    · refine .onCore ?_ (fun _ hk => hk.fillExponents.update)
      exact .of_eq ‹_› (.placeWrite (.of_eq ‹_› h.placeRead))

theorem QueuesFit.dmaNow {e : Eng} {cmd : DmaCmd} (h : QueuesFit s) : QueuesFit (s.dmaNow r e cmd) := by
  unfold State.dmaNow
  split
  · exact .of_eq ‹_› h.resolveEnd
  · split
    · exact .of_eq ‹_› (.resolveEnd (.of_eq ‹_› h.resolveEnd))
    · extract_lets x
      split
      · exact .askMore (.onCore (.of_eq ‹_› (.resolveEnd (.of_eq ‹_› h.resolveEnd))))
      · exact .moveHere (.of_eq ‹_› (.resolveEnd (.of_eq ‹_› h.resolveEnd)))

theorem QueuesFit.fillCommand {e : Eng} {q : Fin 5} {regions : List Nat} {go : Fin 8 → State → State} (h : QueuesFit s)
    (hgo : ∀ r t, QueuesFit t → QueuesFit (go r t)) : QueuesFit (s.fillCommand e q regions go) := by
  unfold State.fillCommand
  split
  · exact h.front _ ‹_›
  · split
    · exact h.queueHold
    · split
      · exact h.withhold
      · exact hgo _ _ h.issueAt

theorem NextFits.execDma {e : Eng} {cmd : DmaCmd} (h : QueuesFit s) : NextFits (execDma e cmd s) :=
  .ite nextFits_refused (.onForm (h.fillCommand (fun _ _ h => h.dmaNow)))

theorem CoreFits.setMarks {m : Option (Buf × BitVec 16)} (hk : CoreFits k) : CoreFits (setMarks m k) := by
  unfold Machine.setMarks
  split
  · exact hk
  · exact hk.foldl (fun _ _ hk => hk.markPut)

theorem QueuesFit.engineDone {q : Fin 5} {b : EngineBusy} {put : Option EngineBusy → Core → Core} (h : QueuesFit s)
    (hput : ∀ v k, CoreFits k → CoreFits (put v k)) : QueuesFit (s.engineDone c q b put) := by
  unfold State.engineDone
  extract_lets s1
  have h1 : QueuesFit s1 := .ite h (h.onCore fun _ hk => hk.setMarks)
  split
  case isTrue hdone =>
    split
    · refine .trace (.onCore (h1.complete fun n hn => ?_) (hput _))
      exact room_of_doneGate (Option.isNone_iff_eq_none.mp hdone) hn
    · exact h1.onCore (hput _)
  case isFalse => exact h1.onCore (hput _)

theorem NextFits.execDmaComplete {core : Fin 16} (h : QueuesFit s) : NextFits (execDmaComplete core tag s) := by
  unfold Machine.execDmaComplete
  refine QueuesFit.nextFits ?_
  split
  · exact .ite (h.engineDone (fun _ _ hk => hk.update)) h
  · exact h

/-! ## Machine/Geometry -/

theorem CoreFits.putAll {l : List (Nat × List PByte)} (hk : CoreFits k) : CoreFits (putAll l k) :=
  hk.foldl (fun _ _ hk => hk.corePut)

theorem QueuesFit.touch {l : List (Nat × Nat)} (h : QueuesFit s) : QueuesFit (s.touch tag c l) := by
  unfold State.touch
  extract_lets s1
  have h1 : QueuesFit s1 := h.onMem (fun _ hk => hk.foldl (fun _ _ hk => hk.readyRange))
  exact .ite h1.setFld h1

theorem QueuesFit.geomRefuse {cause : Nat} (h : QueuesFit s) : QueuesFit (s.geomRefuse c tag cause) :=
  h.setFld.setFld.setReg.trace

theorem QueuesFit.unfoldFault {access len : Nat} (h : QueuesFit s) : QueuesFit (s.unfoldFault r c tag access len) :=
  h.isolation

theorem QueuesFit.readRecords {l : List Nat} {go : State → List (List Byte) → State} (h : QueuesFit s)
    (hgo : ∀ x0 x1, QueuesFit x0 → QueuesFit (go x0 x1)) : QueuesFit (s.readRecords r c tag l go) :=
  .ite h.geomRefuse (.ite h.unfoldFault (hgo _ _ h.touch))

theorem CoreFits.unfoldStarted {marks : Option (Buf × BitVec 16)} {done : Completion} (hk : CoreFits k) :
    CoreFits (unfoldStarted tag marks done k) :=
  hk.update

theorem QueuesFit.freeLines (h : QueuesFit s) : QueuesFit (s.freeLines c tag) := h.bump

/-! ## Machine/Store -/

theorem CoreFits.storeStarted {done : Completion} (hk : CoreFits k) : CoreFits (storeStarted tag done k) := hk.update

theorem QueuesFit.storeFault {access len : Nat} (h : QueuesFit s) : QueuesFit (s.storeFault r c tag access len) :=
  h.isolation

theorem QueuesFit.strideNow {srcAddr : Nat} {src : Pattern} {dstAddr : Nat} {dst : Pattern} {count : Nat}
    {done : Completion} (h : QueuesFit s) : QueuesFit (s.strideNow r c tag srcAddr src dstAddr dst count done) := by
  unfold State.strideNow
  extract_lets a b
  split
  · exact h.storeFault
  · exact .ite h.storeFault (h.cmPieces.onMem (fun _ hk => hk.putAll.storeStarted))

theorem NextFits.execStride {e : Eng} {srcAddr : Nat} {src : Pattern} {dstAddr : Nat} {dst : Pattern} {count : Nat}
    {done : Completion} (h : QueuesFit s) : NextFits (execStride e srcAddr src dstAddr dst count done s) :=
  .ite nextFits_refused (.onForm (h.fillCommand (fun _ _ h => h.strideNow)))

theorem QueuesFit.transposeNow {srcAddr : Nat} {src : Pattern} {dstAddr dstPitch : Nat} {done : Completion}
    (h : QueuesFit s) : QueuesFit (s.transposeNow r c tag srcAddr src dstAddr dstPitch done) := by
  unfold State.transposeNow
  extract_lets n
  split
  · exact h.storeFault
  · exact .ite h.storeFault (h.cmRows.onMem (fun _ hk => hk.putAll.storeStarted))

theorem NextFits.execTranspose {e : Eng} {srcAddr : Nat} {src : Pattern} {dstAddr dstPitch : Nat} {done : Completion}
    (h : QueuesFit s) : NextFits (execTranspose e srcAddr src dstAddr dstPitch done s) :=
  .ite nextFits_refused (.onForm (h.fillCommand (fun _ _ h => h.transposeNow)))

theorem QueuesFit.storeEmpty {done : Completion} (h : QueuesFit s) : QueuesFit (s.storeEmpty c tag done) :=
  .engineDone (h.onCore (fun _ hk => hk.storeStarted)) (fun _ _ hk => hk.update)

theorem QueuesFit.fillNow {dst len : Nat} {pattern : Word} {done : Completion} (h : QueuesFit s) :
    QueuesFit (s.fillNow r c tag dst len pattern done) :=
  .ite h.storeEmpty (.ite (h.cmWrite.onCore (fun _ hk => hk.storeStarted)) h.storeFault)

theorem NextFits.execFill {e : Eng} {dst len : Nat} {pattern : Word} {done : Completion} (h : QueuesFit s) :
    NextFits (execFill e dst len pattern done s) :=
  .ite nextFits_refused (.onForm (h.fillCommand (fun _ _ h => h.fillNow)))

theorem QueuesFit.copyNow {src dst len : Nat} {done : Completion} (h : QueuesFit s) :
    QueuesFit (s.copyNow r c tag src dst len done) :=
  .ite h.storeEmpty (.ite h.storeFault (.ite h.storeFault (h.cmRead.cmWrite.onCore (fun _ hk => hk.storeStarted))))

theorem NextFits.execCopy {e : Eng} {src dst len : Nat} {done : Completion} (h : QueuesFit s) :
    NextFits (execCopy e src dst len done s) :=
  .ite nextFits_refused (.onForm (h.fillCommand (fun _ _ h => h.copyNow)))

theorem NextFits.execStoreComplete {core : Fin 16} (h : QueuesFit s) : NextFits (execStoreComplete core s) := by
  unfold Machine.execStoreComplete
  refine QueuesFit.nextFits ?_
  split
  · exact h.engineDone (fun _ _ hk => hk.update)
  · exact h

theorem NextFits.execGatherFlushIdle {core : Fin 16} {line : Nat} (h : QueuesFit s) :
    NextFits (execGatherFlushIdle core line s) :=
  QueuesFit.nextFits (h.onMem (fun _ hk => hk.flushWhere))

theorem QueuesFit.recordMore {i : FaultInfo} (h : QueuesFit s) : QueuesFit (s.recordMore r i) :=
  h.update.trace.storeRecord.pushRecord

theorem QueuesFit.stallNow {core : Fin 16} (h : QueuesFit s) : QueuesFit (s.stallNow r core) := by
  unfold State.stallNow
  extract_lets units seq info s1
  have h1 : QueuesFit s1 := h.onRing
  cases units with
  | nil => exact h1.enterFaulted
  | cons b t => exact (h1.record.foldl fun _ _ h => h.recordMore).enterFaulted

theorem NextFits.execStallFault {ring : Fin 8} {core : Fin 16} (h : QueuesFit s) : NextFits (execStallFault ring core s) :=
  QueuesFit.nextFits (.ite h.stallNow h)

end Sys2Proof.Machine
end

section
/-! SUPPORT. Rings, the trapeze and bring-up keep the depths of the queues; a bind, a stop and a reset empty those that they
reach. -/

namespace Sys2Proof.Machine

set_option Elab.async false
variable {β : Type} {s : State} {k : Core} {r : Fin 8} {c : Fin 16} {tag : Tag} {who : Who}

/-! ## Machine/Rings -/

theorem QueuesFit.refuseRing (h : QueuesFit s) : QueuesFit (s.refuseRing r) := h.setFld

theorem QueuesFit.enterRunning (h : QueuesFit s) : QueuesFit (s.enterRunning r) := h.onRing.moveRing.setFld.startFreq

theorem QueuesFit.startRunning (h : QueuesFit s) : QueuesFit (s.startRunning r) := h.enterRunning.fire

theorem QueuesFit.failRing {cause : Nat} (h : QueuesFit s) : QueuesFit (s.failRing r cause) := h.onRing.setRingState.setFld

theorem QueuesFit.endBoot (h : QueuesFit s) : QueuesFit s.endBoot :=
  .ite h (h.setFld.foldl (fun _ _ h => .ite h.startRunning h))

theorem QueuesFit.startNow (h : QueuesFit s) : QueuesFit (s.startNow r) := by
  unfold State.startNow
  extract_lets go
  exact .ite h.enterLoading.onRing (.ite h.releaseRing.enterLoading.onRing h.refuseRing)

theorem QueuesFit.parkNow (h : QueuesFit s) : QueuesFit (s.parkNow r) := .ite h.moveRing h.refuseRing

theorem CoreFits.cancelCore (hk : CoreFits k) : CoreFits (cancelCore k) :=
  .update (hk.withQueues fun q => by simp)

theorem QueuesFit.cancelInvocation (h : QueuesFit s) : QueuesFit (s.cancelInvocation r) := by
  unfold State.cancelInvocation
  extract_lets s1 s2
  have h1 : QueuesFit s1 := by
    unfold s1
    split
    · exact h.dropUnposted.stepEnds
    · exact h
  have h2 : QueuesFit s2 := h1.foldl (fun _ _ h => h.onCore (fun _ hk => hk.cancelCore))
  exact h2.onRing

theorem QueuesFit.beginStop {cause : Nat} (h : QueuesFit s) : QueuesFit (s.beginStop r cause) := by
  unfold State.beginStop
  extract_lets prev s1 s2 cores s3 s4
  have h3 : QueuesFit s3 :=
    .foldl (h.setRingState.dropPending.dropUnposted.cancelSwaps.smpStopRing) fun _ _ h => h.onCore fun _ hk => hk.idleCore
  have h4 : QueuesFit s4 := h3.onRing fun _ _ => Nat.zero_le _
  exact h4.update

theorem QueuesFit.stopNow (h : QueuesFit s) : QueuesFit (s.stopNow r) := .ite h (.ite h.beginStop.endBoot h.refuseRing)

theorem QueuesFit.resumeRing (h : QueuesFit s) : QueuesFit (s.resumeRing r) := h.enterRunning.runAllMoves

theorem QueuesFit.loadedRing (h : QueuesFit s) : QueuesFit (s.loadedRing r) := .ite h.startRunning (.ite h h.moveRing)

theorem QueuesFit.finishLoad (h : QueuesFit s) : QueuesFit (s.finishLoad r) := by
  unfold State.finishLoad
  split
  · exact .ite h.startRunning h
  · split
    · exact .endBoot (.loadedRing (.of_eq ‹_› h.loadNow))
    · exact .endBoot (.failRing (.of_eq ‹_› h.loadNow))

theorem NextFits.execRingLoadComplete {ring : Fin 8} (h : QueuesFit s) : NextFits (execRingLoadComplete ring s) :=
  QueuesFit.nextFits (.ite h.finishLoad h)

theorem CoreFits.parkCore {draw : Nat} (hk : CoreFits k) : CoreFits (parkCore draw k) := hk.flushAll.update

theorem QueuesFit.parkCores (h : QueuesFit s) : QueuesFit (s.parkCores r) :=
  h.foldl (fun _ _ h => .update (h.recsBack.onMem (fun _ hk => hk.parkCore)))

theorem QueuesFit.parkedNow (h : QueuesFit s) : QueuesFit (s.parkedNow r) := h.parkCores.moveRing.setFld

theorem NextFits.execParkComplete {ring : Fin 8} (h : QueuesFit s) : NextFits (execParkComplete ring s) :=
  QueuesFit.nextFits (.ite h.parkedNow h)

theorem QueuesFit.parkRecords (h : QueuesFit s) : QueuesFit (s.parkRecords r) := h.foldl (fun _ _ h => h.record)

theorem QueuesFit.parkTimeoutNow (h : QueuesFit s) : QueuesFit (s.parkTimeoutNow r) := h.parkRecords.cancelInvocation.setFld

theorem NextFits.execParkTimeout {ring : Fin 8} (h : QueuesFit s) : NextFits (execParkTimeout ring s) :=
  QueuesFit.nextFits (.ite h.parkTimeoutNow h)

theorem CoreFits.zeroCore (hk : CoreFits k) : CoreFits (zeroCore k) :=
  (hk.idleCore.withGather (l := []) (Nat.zero_le 8) List.nodup_nil).update

theorem QueuesFit.zeroSlices (h : QueuesFit s) : QueuesFit (s.zeroSlices r) := h.foldl (fun _ _ h => h.update)

theorem QueuesFit.zeroRegions (h : QueuesFit s) : QueuesFit (s.zeroRegions r) := .ite h.update h

theorem QueuesFit.closeWindows (h : QueuesFit s) : QueuesFit (s.closeWindows r) := h.foldl (fun _ _ h => .ite h.setFld h)

theorem QueuesFit.disableStreams (h : QueuesFit s) : QueuesFit (s.disableStreams r) :=
  h.foldl (fun _ _ h => .ite h.onStream.streamOff.rxOf h)

theorem QueuesFit.clearRing (h : QueuesFit s) : QueuesFit (s.clearRing r) := by
  unfold State.clearRing
  extract_lets s1 s2
  have h2 : QueuesFit s2 := by
    exact h.releaseContexts.closeWindows.disableStreams.foldl (fun _ _ h => h.onCore (fun _ hk => hk.zeroCore))
  exact h2.zeroSlices.zeroRegions.onRing.unbindEndpoints

theorem QueuesFit.stoppedNow (h : QueuesFit s) : QueuesFit (s.stoppedNow r) := by
  unfold State.stoppedNow
  extract_lets s0 s1 cause s2
  have h2 : QueuesFit s1 := .ite h.dropEntries.clearRing h.dropEntries
  exact .setFld (.setRingState (.ite h2.releaseRing h2))

theorem NextFits.execStopComplete {ring : Fin 8} (h : QueuesFit s) : NextFits (execStopComplete ring s) :=
  QueuesFit.nextFits (.ite h.stoppedNow h)

theorem QueuesFit.drainRing (h : QueuesFit s) : QueuesFit (s.drainRing r) := by
  unfold State.drainRing
  refine .foldl h.dropEntries fun _ _ h => ?_
  split
  · exact h.setRingFlag
  · exact h.clearRingFlag
  · exact h

theorem QueuesFit.stopAll (h : QueuesFit s) : QueuesFit s.stopAll :=
  h.foldl (fun _ _ h => .ite h.beginStop.drainRing.stoppedNow (.ite h.setRingState.drainRing.stoppedNow h))

theorem CoreFits.freshCore (hk : CoreFits k) : CoreFits (freshCore k) :=
  ((hk.withFlagPend .nil).withQueues fun q => by simpa using hk.tags q).update

theorem QueuesFit.startCores {i : Invocation} (h : QueuesFit s) : QueuesFit (s.startCores r i) :=
  h.foldl (fun _ _ h => .trace (h.cmWrite.onCore (fun _ hk => hk.freshCore)))

theorem QueuesFit.startInvocation {i : Invocation} (h : QueuesFit s) : QueuesFit (s.startInvocation r i) := by
  unfold State.startInvocation
  extract_lets s1 s2 s3
  have h2 : QueuesFit s2 := h.claimAll.onRing.startCores
  split
  · exact h2.stepContexts.replyStatus
  · exact h2.stepContexts

theorem NextFits.execInvocationStart {ring : Fin 8} (h : QueuesFit s) : NextFits (execInvocationStart ring s) := by
  unfold Machine.execInvocationStart
  refine QueuesFit.nextFits ?_
  split
  · exact .ite h.startInvocation h.markHeld
  · exact h

theorem QueuesFit.endCores {i : Invocation} (h : QueuesFit s) : QueuesFit (s.endCores r i) :=
  h.foldl (fun _ _ h => .trace (h.toSlot.onMem (fun _ hk => hk.flushAll)))

theorem QueuesFit.endInvocation {i : Invocation} (h : QueuesFit s) : QueuesFit (s.endInvocation r i) :=
  h.endCores.dropUnposted.stepEnds.onRing.fire

theorem NextFits.execInvocationEnd {ring : Fin 8} (h : QueuesFit s) : NextFits (execInvocationEnd ring s) := by
  unfold Machine.execInvocationEnd
  refine QueuesFit.nextFits ?_
  split
  · exact .ite h.endInvocation h
  · exact h

theorem QueuesFit.flagWriteNow {index : Fin 256} {clear : Bool} (h : QueuesFit s) :
    QueuesFit (s.flagWriteNow r index clear).1 :=
  .iteFst h h.crossPut

theorem QueuesFit.flagControl {index : Fin 256} {clear : Bool} (h : QueuesFit s) :
    QueuesFit (s.flagControl r who index clear).1 :=
  h.request (fun _ h => h.flagWriteNow)

theorem NextFits.execFlagWriteSet {ring : Fin 8} {index : Byte} (h : QueuesFit s) :
    NextFits (execFlagWriteSet ring index who s) :=
  h.flagControl.nextFits

theorem NextFits.execFlagWriteClear {ring : Fin 8} {index : Byte} (h : QueuesFit s) :
    NextFits (execFlagWriteClear ring index who s) :=
  h.flagControl.nextFits

theorem QueuesFit.ringRequest {act : State → State} (h : QueuesFit s) (hact : ∀ x0, QueuesFit x0 → QueuesFit (act x0)) :
    QueuesFit (s.ringRequest r who act).1 :=
  .iteFst h (.iteFst (hact _ h) h)

theorem NextFits.execRingStart {ring : Fin 8} (h : QueuesFit s) : NextFits (execRingStart ring who s) :=
  QueuesFit.nextFits (h.ringRequest (fun _ h => h.startNow))

theorem NextFits.execRingPark {ring : Fin 8} (h : QueuesFit s) : NextFits (execRingPark ring who s) :=
  QueuesFit.nextFits (h.ringRequest (fun _ h => h.parkNow))

theorem NextFits.execRingStop {ring : Fin 8} (h : QueuesFit s) : NextFits (execRingStop ring who s) :=
  QueuesFit.nextFits (h.ringRequest (fun _ h => h.stopNow))

/-! ## Machine/Trapeze -/

theorem QueuesFit.accepted {p : Fin 4} {kind : Nat} {q : Packet} (h : QueuesFit s) : QueuesFit (s.accepted p kind q) :=
  h.onPort.pumpOut

theorem QueuesFit.countFec {p : Fin 4} {n : Nat} (h : QueuesFit s) : QueuesFit (s.countFec p n) := h.bump

theorem QueuesFit.countWords {p : Fin 4} {corrected uncorrectable : Nat} (h : QueuesFit s) :
    QueuesFit (s.countWords p corrected uncorrectable) :=
  h.countFec.bump

theorem QueuesFit.badPacket {p : Fin 4} (h : QueuesFit s) : QueuesFit (s.badPacket p) := .ite h h.sendLink.onPort

theorem QueuesFit.packetIn {p : Fin 4} {kind : Nat} {q : Packet} {act : State → State} (h : QueuesFit s)
    (hact : ∀ x0, QueuesFit x0 → QueuesFit (act x0)) : QueuesFit (s.packetIn p kind q act) :=
  .ite h (.ite (hact _ h.countFec.accepted) h.countFec.badPacket)

theorem QueuesFit.beginTraining {p : Fin 4} (h : QueuesFit s) : QueuesFit (s.beginTraining p) := h.setPortState.onPort

theorem QueuesFit.retrain {p : Fin 4} (h : QueuesFit s) : QueuesFit (s.retrain p) := h.beginTraining.bump.onPort

theorem QueuesFit.replayAll {p : Fin 4} (h : QueuesFit s) : QueuesFit (s.replayAll p) := h.bump.onPort

theorem QueuesFit.resend {p : Fin 4} (h : QueuesFit s) : QueuesFit (s.resend p) := .ite h (.ite h.retrain h.replayAll)

theorem QueuesFit.linkIn {p : Fin 4} {q : Packet} (h : QueuesFit s) : QueuesFit (s.linkIn p q) := by
  unfold State.linkIn
  extract_lets s1
  have h1 : QueuesFit s1 := h.onPort.pumpOut
  exact .ite h1.resend h1

theorem NextFits.execLink {port : Fin 4} {p : Packet} (h : QueuesFit s) : NextFits (execLink port p s) :=
  QueuesFit.nextFits (.ite h (.ite h.countFec.linkIn h.countFec.badPacket))

theorem NextFits.execReplayTimeout {port : Fin 4} (h : QueuesFit s) : NextFits (execReplayTimeout port s) :=
  QueuesFit.nextFits (.ite h.resend h)

theorem NextFits.execLinkAckTimer {port : Fin 4} (h : QueuesFit s) : NextFits (execLinkAckTimer port s) :=
  QueuesFit.nextFits (.ite h.sendLink h)

theorem NextFits.execTrapezeBadPacket {b : BadPacket} (h : QueuesFit s) : NextFits (execTrapezeBadPacket b s) :=
  QueuesFit.nextFits (.ite h.countWords.badPacket h)

theorem QueuesFit.sendTo {via : Fin 4} {x : TxPacket} (h : QueuesFit s) : QueuesFit (s.sendTo via x) := by
  unfold State.sendTo
  split
  · exact h.portSend
  · exact h
  · exact h.countNowhere

theorem QueuesFit.unroutable {via : Fin 4} {kind : Nat} {q : Packet} {p : Option (Fin 4)} (h : QueuesFit s) :
    QueuesFit (s.unroutable via kind q p) :=
  .ite h.countNowhere.portSend h.countNowhere

theorem QueuesFit.moveOn {p : Fin 4} {l : List (Fin 4 × TxPacket)} (h : QueuesFit s) : QueuesFit (State.moveOn p l s) := by
  induction l generalizing s with
  | nil => exact h
  | cons e l ih =>
    unfold State.moveOn
    split
    · exact ih h.onPort
    · exact ih h.crossPut.onPort

theorem QueuesFit.moveRx {p : Fin 4} (h : QueuesFit s) : QueuesFit (s.moveRx p) := h.onPort.moveOn

theorem QueuesFit.forward {via : Fin 4} {kind : Nat} {q : Packet} {out : Fin 4} (h : QueuesFit s) :
    QueuesFit (s.forward via kind q out) :=
  h.onPort.pumpOut.onPort.moveRx

theorem QueuesFit.forwarded {x : Crossing} {q : TxPacket} (h : QueuesFit s) : QueuesFit (s.forwarded x q) := by
  unfold State.forwarded
  split
  · exact .ite h.onPort h.unroutable
  · exact h

theorem QueuesFit.serveBack {via : Fin 4} {kind : Nat} {q : Packet} (h : QueuesFit s) :
    QueuesFit (s.serveBack via kind q) :=
  h.serve.sendTo

theorem QueuesFit.trafficIn {p : Fin 4} {kind : Nat} {q : Packet} {here : State → State} (h : QueuesFit s)
    (hhere : ∀ t, QueuesFit t → QueuesFit (here t)) : QueuesFit (s.trafficIn p kind q here) := by
  unfold State.trafficIn
  extract_lets act
  have hact : ∀ t, QueuesFit t → QueuesFit (act t) := by
    intro t ht
    unfold act
    split
    · exact hhere t ht
    · exact ht
    · exact ht.unroutable
  split
  · exact h.packetIn fun _ h => h
  · exact .ite h.countFec.forward (h.packetIn fun _ h => h)
  · exact h.packetIn hact

theorem NextFits.execTrapezeWrite {port : Fin 4} {p : Packet} (h : QueuesFit s) : NextFits (execTrapezeWrite port p s) :=
  QueuesFit.nextFits (h.trafficIn (fun _ h => h.serveBack))

theorem NextFits.execTrapezeRead {port : Fin 4} {p : Packet} (h : QueuesFit s) : NextFits (execTrapezeRead port p s) :=
  QueuesFit.nextFits (h.trafficIn (fun _ h => h.serveBack))

theorem QueuesFit.replyIn {q : Packet} (h : QueuesFit s) : QueuesFit (s.replyIn q) := h.remoteReply.askAll

theorem NextFits.execReadData {port : Fin 4} {p : Packet} (h : QueuesFit s) : NextFits (execReadData port p s) :=
  QueuesFit.nextFits (h.trafficIn (fun _ h => h.replyIn))

theorem NextFits.execWriteAck {port : Fin 4} {p : Packet} (h : QueuesFit s) : NextFits (execWriteAck port p s) :=
  QueuesFit.nextFits (h.trafficIn (fun _ h => h.replyIn))

theorem NextFits.execRemoteTimeout {txn : BitVec 16} (h : QueuesFit s) : NextFits (execRemoteTimeout txn s) :=
  h.remoteReply.askAll.nextFits

theorem QueuesFit.message {p : Fin 4} {dst : Nat} {content : List Byte} (h : QueuesFit s) :
    QueuesFit (s.message p dst content) :=
  h.portSend

theorem QueuesFit.sendHello {p : Fin 4} (h : QueuesFit s) : QueuesFit (s.sendHello p) := h.onPort

theorem QueuesFit.helloOnce {p : Fin 4} (h : QueuesFit s) : QueuesFit (s.helloOnce p) := .ite h h.sendHello.onPort

theorem QueuesFit.strand {p : Fin 4} {x : TxPacket} (h : QueuesFit s) : QueuesFit (s.strand p x) := by
  unfold State.strand
  extract_lets s1
  exact .ite (.ite h.countNowhere.remoteReply h.countNowhere.sendTo) h.countNowhere

theorem QueuesFit.portDown {p : Fin 4} (h : QueuesFit s) : QueuesFit (s.portDown p) := by
  unfold State.portDown
  extract_lets k s1 s2
  exact .foldl (h.setPortState.onPort.foldl (fun _ _ h => h.crossPut)) (fun _ _ h => h.strand)

theorem QueuesFit.idlePorts (h : QueuesFit s) : QueuesFit s.idlePorts :=
  h.foldl (fun _ _ h => .ite h.portDown (.ite h.beginTraining h.onPort))

theorem QueuesFit.portUp {p : Fin 4} (h : QueuesFit s) : QueuesFit (s.portUp p) := h.setPortState.onPort.pumpOut

theorem QueuesFit.endTraining {p : Fin 4} (h : QueuesFit s) : QueuesFit (s.endTraining p) := by
  unfold State.endTraining
  split
  · exact .ite h.setPortState (.ite h (.ite h.portDown h.portUp))
  · exact h

theorem QueuesFit.trained {p : Fin 4} {ok : Bool} (h : QueuesFit s) : QueuesFit (s.trained p ok) :=
  .ite h.portDown h.onPort.replayAll.helloOnce.endTraining

theorem NextFits.execPortTrained {port : Fin 4} {ok : Bool} {corrected uncorrectable : Nat} (h : QueuesFit s) :
    NextFits (execPortTrained port ok corrected uncorrectable s) :=
  QueuesFit.nextFits (.ite h.countWords.trained h)

theorem QueuesFit.helloIn {p : Fin 4} {q : Packet} (h : QueuesFit s) : QueuesFit (s.helloIn p q) :=
  .ite h.onPort.helloOnce.endTraining h.sendHello

theorem NextFits.execHello {port : Fin 4} {p : Packet} (h : QueuesFit s) : NextFits (execHello port p s) :=
  QueuesFit.nextFits (h.packetIn (fun _ h => h.helloIn))

theorem QueuesFit.exclude {p : Fin 4} (h : QueuesFit s) : QueuesFit (s.exclude p) := h.setPortState.onPort

theorem QueuesFit.beginRound (h : QueuesFit s) : QueuesFit s.beginRound := by
  unfold State.beginRound
  refine .foldl h fun _ _ h => ?_
  extract_lets s1
  have h1 : QueuesFit s1 := h.setFld.onPort
  exact .ite h1 h1.exclude

theorem QueuesFit.sendSystem {count : Nat} (h : QueuesFit s) : QueuesFit (s.sendSystem count) :=
  h.foldl (fun _ _ h => h.message)

theorem QueuesFit.enterReady {count : Nat} (h : QueuesFit s) : QueuesFit (s.enterReady count) := h.setFld.setFld.sendSystem

theorem QueuesFit.endRound (h : QueuesFit s) : QueuesFit s.endRound := .ite h.update.enterReady h.update.message

theorem QueuesFit.numberNext {fuel : Nat} (h : QueuesFit s) : QueuesFit (State.numberNext fuel s) := by
  induction fuel generalizing s with
  | zero => exact h.endRound
  | succ fuel ih =>
    unfold State.numberNext
    split
    · exact h.endRound
    · split
      · exact ih h.exclude
      · exact h.update.message

theorem QueuesFit.numberBelow {first limit : Nat} (h : QueuesFit s) : QueuesFit (s.numberBelow first limit) :=
  h.beginRound.update.numberNext

theorem QueuesFit.managerNumbers (h : QueuesFit s) : QueuesFit s.managerNumbers := h.setFld.setFld.numberBelow

theorem NextFits.execNumberingStart (h : QueuesFit s) : NextFits (execNumberingStart s) :=
  QueuesFit.nextFits (.ite h.managerNumbers h)

theorem QueuesFit.takeNumber {q : Packet} (h : QueuesFit s) : QueuesFit (s.takeNumber q) := h.setFld.setFld.numberBelow

theorem NextFits.execNumber {port : Fin 4} {p : Packet} (h : QueuesFit s) : NextFits (execNumber port p s) :=
  QueuesFit.nextFits (h.packetIn (fun _ h => .ite h.takeNumber h))

theorem QueuesFit.childNumbered {p : Fin 4} {count : Nat} (h : QueuesFit s) : QueuesFit (s.childNumbered p count) :=
  h.setFld.setFld.setFld.update.numberNext

theorem NextFits.execNumbered {port : Fin 4} {p : Packet} (h : QueuesFit s) : NextFits (execNumbered port p s) :=
  QueuesFit.nextFits (h.packetIn (fun _ h => .ite h.childNumbered h))

theorem QueuesFit.childLost {p : Fin 4} (h : QueuesFit s) : QueuesFit (s.childLost p) := h.message.exclude.update.numberNext

theorem NextFits.execNumberedTimeout {port : Fin 4} (h : QueuesFit s) : NextFits (execNumberedTimeout port s) :=
  QueuesFit.nextFits (.ite h.childLost h)

theorem NextFits.execSystem {port : Fin 4} {p : Packet} (h : QueuesFit s) : NextFits (execSystem port p s) :=
  QueuesFit.nextFits (h.packetIn (fun _ h => .ite h.enterReady h))

theorem QueuesFit.dropNumber (h : QueuesFit s) : QueuesFit s.dropNumber := h.setFld.setFld.setFld.update

theorem NextFits.execDetach {port : Fin 4} {p : Packet} (h : QueuesFit s) : NextFits (execDetach port p s) :=
  QueuesFit.nextFits (h.packetIn (fun _ h => .ite h.dropNumber.setFld h))

theorem QueuesFit.beginCloseWindow {w : Fin 256} (h : QueuesFit s) : QueuesFit (s.beginCloseWindow w) := .ite h.setFld h

theorem QueuesFit.closeAllWindows (h : QueuesFit s) : QueuesFit s.closeAllWindows :=
  h.foldl (fun _ _ h => h.beginCloseWindow)

theorem QueuesFit.failRemotes (h : QueuesFit s) : QueuesFit s.failRemotes := .askAll (h.foldl (fun _ _ h => h.remoteReply))

theorem QueuesFit.renumberBelow (h : QueuesFit s) : QueuesFit s.renumberBelow := by
  unfold State.renumberBelow
  refine .foldl h fun _ _ h => ?_
  extract_lets s1
  split
  · exact .message (.ite h.onPort.setPortState h.onPort)
  · exact .ite h.onPort.beginTraining h.onPort

theorem QueuesFit.discover (h : QueuesFit s) : QueuesFit s.discover := h.dropNumber.setFld

theorem QueuesFit.renumberIn {p : Fin 4} (h : QueuesFit s) : QueuesFit (s.renumberIn p) :=
  h.renumberBelow.discover.onPort.closeAllWindows.failRemotes

theorem NextFits.execRenumber {port : Fin 4} {p : Packet} (h : QueuesFit s) : NextFits (execRenumber port p s) :=
  QueuesFit.nextFits (h.packetIn (fun _ h => .ite h.renumberIn h))

theorem QueuesFit.rediscoverNow (h : QueuesFit s) : QueuesFit s.rediscoverNow := h.renumberBelow.discover.managerNumbers

theorem QueuesFit.trzRequest {op : Nat} (h : QueuesFit s) : QueuesFit (s.trzRequest op) := .ite h.rediscoverNow h

theorem NextFits.execRediscover (h : QueuesFit s) : NextFits (execRediscover who s) :=
  QueuesFit.nextFits (.ite h h.trzRequest)

theorem QueuesFit.openWindow {w : Fin 256} (h : QueuesFit s) : QueuesFit (s.openWindow w) := by
  unfold State.openWindow
  extract_lets s1
  have h1 : QueuesFit s1 := h.setFld.setRegs
  exact .ite h1.update.writeLagRecord h1

theorem QueuesFit.windowOpenNow {w : Fin 256} (h : QueuesFit s) : QueuesFit (s.windowOpenNow r w) := by
  unfold State.windowOpenNow
  split
  · exact h.openWindow
  · exact h.setFld.setFld

theorem QueuesFit.windowRequest {w : Fin 256} {op : Nat} (h : QueuesFit s) : QueuesFit (s.windowRequest r w op) := by
  unfold State.windowRequest
  split
  · exact h.windowOpenNow
  · exact h.beginCloseWindow
  · exact h

theorem QueuesFit.windowControl {w : Fin 256} {op : Nat} (h : QueuesFit s) : QueuesFit (s.windowControl who w op).1 := by
  unfold State.windowControl
  split
  · exact h.request (fun _ h => h.windowRequest)
  · exact h

theorem NextFits.execWindowOpen {w : Fin 256} (h : QueuesFit s) : NextFits (execWindowOpen w who s) :=
  h.windowControl.nextFits

theorem NextFits.execWindowClose {w : Fin 256} (h : QueuesFit s) : NextFits (execWindowClose w who s) :=
  h.windowControl.nextFits

theorem NextFits.execWindowCloseDone {w : Fin 256} (h : QueuesFit s) : NextFits (execWindowCloseDone w s) :=
  QueuesFit.nextFits (.ite h.setFld h)

/-! ## Machine/Boot -/

theorem QueuesFit.drawn (h : QueuesFit s) : QueuesFit s.drawn := h.update

theorem QueuesFit.cutFlash (h : QueuesFit s) : QueuesFit s.cutFlash := by
  unfold State.cutFlash
  extract_lets bad mark
  split
  · exact h
  · exact .ite h.drawn.update.update h.drawn.update
  · exact .ite h.drawn.update.update h.drawn.update
  · exact .ite h.drawn.update.update h.drawn.update

theorem queuesFit_resetDevice : QueuesFit s.resetDevice := queuesFit_reset.update

theorem QueuesFit.restartDevice (h : QueuesFit s) : QueuesFit s.restartDevice := by
  unfold State.restartDevice
  extract_lets s0 s1
  have h0 : QueuesFit s0 := queuesFit_resetDevice
  have hregs : QueuesFit (s0.setRegs (keptRegs.map fun r => (r, s.reg r))) := h0.setRegs
  have h1 : QueuesFit s1 := hregs.setFld
  clear_value s1
  have h2 := h1.withFaults h.faults
  clear_value s0
  exact h2.update

theorem QueuesFit.showSlot {k : Fin 2} (h : QueuesFit s) : QueuesFit (s.showSlot k) := h.setReg.setReg.setReg

theorem QueuesFit.showSlots (h : QueuesFit s) : QueuesFit s.showSlots := h.showSlot.showSlot

theorem QueuesFit.writeHeader {k : Fin 2} {hd : SlotHeader} {next : HeaderNext} (h : QueuesFit s) :
    QueuesFit (s.writeHeader k hd next) :=
  h.enqueueFlash

theorem QueuesFit.enterListener {cause : Nat} (h : QueuesFit s) : QueuesFit (s.enterListener cause) := h.setFld.update

theorem QueuesFit.armNet {seconds : Nat} (h : QueuesFit s) : QueuesFit (s.armNet seconds) := h.setFld.update

theorem QueuesFit.handOver (h : QueuesFit s) : QueuesFit s.handOver := h.setFld.update

theorem QueuesFit.startSlot {k : Fin 2} {tie : Bool} {hd : SlotHeader} {l : List (Nat × List Byte)} (h : QueuesFit s) :
    QueuesFit (s.startSlot k tie hd l) := by
  unfold State.startSlot
  extract_lets a b d s1 s2 s3 s4
  have h2 : QueuesFit s2 := .setReg (.setFld (.setFld (.setFld (.ite h.armNet h))))
  exact .handOver (.update (.ite h2.logSecurity h2))

theorem QueuesFit.romWrite {k : Fin 2} {hd : SlotHeader} {next : HeaderNext} (h : QueuesFit s) :
    QueuesFit (s.romWrite k hd next) :=
  h.update.writeHeader

theorem QueuesFit.romVerify {k : Fin 2} {tie : Bool} (h : QueuesFit s) : QueuesFit (s.romVerify k tie) :=
  .ite h.readPages.startSlot h.readPages.romWrite

theorem QueuesFit.romChoose (h : QueuesFit s) : QueuesFit s.romChoose := by
  unfold State.romChoose
  split
  · exact h.enterListener
  · exact .ite (.ite h.romWrite h.romWrite) h.romVerify

theorem QueuesFit.romRead (h : QueuesFit s) : QueuesFit s.romRead := h.foldl (fun _ _ h => h.readPages)

theorem QueuesFit.romPrepare {m : List Byte} (h : QueuesFit s) : QueuesFit (s.romPrepare m) :=
  h.update.update.update.setFld.setFld.setFld.setFld.showSlots

theorem QueuesFit.romFlash (h : QueuesFit s) : QueuesFit s.romFlash := by
  unfold State.romFlash
  split
  · exact h.romRead.enterListener
  · exact h.romPrepare.romRead.romChoose

theorem QueuesFit.payEpoch (h : QueuesFit s) : QueuesFit s.payEpoch := h.storeWrite.update

theorem QueuesFit.romStore (h : QueuesFit s) : QueuesFit s.romStore := .setFld (.showStore (.ite h.payEpoch h))

theorem QueuesFit.released (h : QueuesFit s) : QueuesFit s.released := h.update.showInhibit

theorem QueuesFit.romBoot (h : QueuesFit s) : QueuesFit s.romBoot := by
  unfold State.romBoot
  extract_lets lc s1 _ s2 _ s3
  have h1 : QueuesFit s1 := h.showStore
  have h2 : QueuesFit s2 := h.setFld
  have h3 : QueuesFit s3 := h.romStore.released
  exact .ite h1.update (.ite h2.update (.ite h3.setFld.enterListener h3.romFlash))

theorem QueuesFit.started (h : QueuesFit s) : QueuesFit s.started := h.update

theorem QueuesFit.startUp (h : QueuesFit s) : QueuesFit s.startUp := .ite h (.ite h.update h.started.romBoot)

theorem queuesFit_coldReset : QueuesFit s.coldReset := queuesFit_resetDevice.update

theorem nextFits_execPoresetAssert : NextFits (execPoresetAssert s) := queuesFit_coldReset.nextFits

theorem NextFits.execPoresetDeassert (h : QueuesFit s) : NextFits (execPoresetDeassert s) :=
  QueuesFit.nextFits (.ite h.update.startUp h)

theorem nextFits_execSysresetAssert : NextFits (execSysresetAssert s) := queuesFit_resetDevice.nextFits

theorem NextFits.execSysresetDeassert (h : QueuesFit s) : NextFits (execSysresetDeassert s) :=
  QueuesFit.nextFits (.ite h.update.startUp h)

theorem QueuesFit.lockedRead {requester : DWord} (h : QueuesFit s) : QueuesFit (s.lockedRead requester) :=
  h.update.bump.setFld.logSecurity

theorem NextFits.execRomRead {requester : DWord} (h : QueuesFit s) : NextFits (execRomRead requester s) :=
  QueuesFit.nextFits (.ite h.lockedRead h)

theorem QueuesFit.afterAppend {x : AppendNext} (h : QueuesFit s) : QueuesFit (s.afterAppend x) := by
  unfold State.afterAppend
  split
  · exact h
  · exact h.recordDone
  · exact queuesFit_resetDevice.startUp
  · exact h.restartDevice.startUp

theorem QueuesFit.logThen {source code arg0 arg1 : Nat} {next : AppendNext} (h : QueuesFit s) :
    QueuesFit (s.logThen source code arg0 arg1 next) :=
  .ite h.afterAppend h.update.pushPages.flashIssue

theorem QueuesFit.netExpired (h : QueuesFit s) : QueuesFit s.netExpired :=
  .ite queuesFit_resetDevice.startUp h.setFld.update.flashIssue

theorem NextFits.execSafetyNetExpiry (h : QueuesFit s) : NextFits (execSafetyNetExpiry s) :=
  QueuesFit.nextFits (.ite h.netExpired h)

theorem QueuesFit.confirmStore (h : QueuesFit s) : QueuesFit s.confirmStore := by
  unfold State.confirmStore
  extract_lets st l c epochs asked granted s1 s2
  have h1 : QueuesFit s1 := h.storeWrite
  have h2 : QueuesFit s2 := .ite h1.setFld.logSecurity h1
  exact h2.showStore

theorem QueuesFit.confirmDone (h : QueuesFit s) : QueuesFit s.confirmDone := h.setFld.setFld.setFld.setFld.update

theorem QueuesFit.installDone (h : QueuesFit s) : QueuesFit s.installDone := h.setFld.setFld.setFld.update

theorem QueuesFit.afterHeader {x : HeaderNext} (h : QueuesFit s) : QueuesFit (s.afterHeader x) := by
  unfold State.afterHeader
  split
  · exact h
  · exact h.confirmDone
  · exact h.installDone
  · exact h.logThen
  · exact h.setFld.logThen
  · exact h.romVerify
  · exact h.logSecurity.setFld.romChoose

theorem QueuesFit.confirmHeader (h : QueuesFit s) : QueuesFit s.confirmHeader := h.update.writeHeader

theorem QueuesFit.confirmFrom (h : QueuesFit s) : QueuesFit s.confirmFrom :=
  .ite h.setFld.update h.confirmStore.confirmHeader

theorem QueuesFit.confirmStart (h : QueuesFit s) : QueuesFit s.confirmStart := h.setFld.setFld.update

theorem QueuesFit.confirmRequest (h : QueuesFit s) : QueuesFit (s.confirmRequest).1 :=
  .iteFst h (.iteFst h (.iteFst h (.iteFst (.ite h.netExpired h) h.confirmStart.confirmFrom)))

theorem QueuesFit.refuseInstall {cause : Nat} (h : QueuesFit s) : QueuesFit (s.refuseInstall cause) :=
  .setFld (.setFld (.ite h h.setFld))

theorem QueuesFit.beginInstall {total version : Nat} {bytes : List Byte} (h : QueuesFit s) :
    QueuesFit (s.beginInstall total version bytes) := by
  unfold State.beginInstall
  extract_lets k seq s1 s2 s3
  exact .flashIssue (h.setFld.setFld.update.pushJob.foldl (fun _ _ h => h.pushJob))

theorem QueuesFit.installRequest (h : QueuesFit s) : QueuesFit (s.installRequest who) := by
  unfold State.installRequest
  split
  · exact h.refuseInstall
  · split
    · exact h.refuseInstall
    · split
      · exact .refuseInstall (.of_eq ‹_› h.staged)
      · split
        · exact .beginInstall (.of_eq ‹_› h.staged)
        · exact .refuseInstall (.of_eq ‹_› h.staged)

theorem QueuesFit.failInstall (h : QueuesFit s) : QueuesFit s.failInstall := h.update.refuseInstall

theorem NextFits.execInstallComplete {readBackOk : Bool} (h : QueuesFit s) :
    NextFits (execInstallComplete readBackOk s) := by
  unfold Machine.execInstallComplete
  refine QueuesFit.nextFits ?_
  split
  · exact h
  · exact .ite h (.ite h.readPages.writeHeader h.readPages.failInstall)

theorem QueuesFit.bootControl {op : Nat} (h : QueuesFit s) : QueuesFit (s.bootControl who op).1 := by
  unfold State.bootControl
  split
  · exact h
  · split
    · exact h.confirmRequest
    · exact h.restartDevice.startUp
    · exact h.installRequest
    · exact h

theorem NextFits.execConfirm (h : QueuesFit s) : NextFits (execConfirm who s) := h.bootControl.nextFits

theorem NextFits.execRestart (h : QueuesFit s) : NextFits (execRestart who s) := h.bootControl.nextFits

theorem NextFits.execInstall (h : QueuesFit s) : NextFits (execInstall who s) := h.bootControl.nextFits

/-! ## Machine/BringUp -/

theorem QueuesFit.testCore {found : List Nat} {confined : Bool} (h : QueuesFit s) :
    QueuesFit (s.testCore found confined c) :=
  h.setReg.setFld

theorem QueuesFit.keepColumns {found : Vector (List Nat) 16} (h : QueuesFit s) : QueuesFit (s.keepColumns found) :=
  .ite h h.appendEntry

theorem QueuesFit.logRetired {kind inst : Nat} {retired : Bool} (h : QueuesFit s) :
    QueuesFit (s.logRetired kind inst retired) :=
  .ite h.log h

theorem QueuesFit.zeroMemories (h : QueuesFit s) : QueuesFit s.zeroMemories :=
  (h.mapCores fun _ hk => (hk.withGather (l := []) (Nat.zero_le 8) List.nodup_nil).update).update

theorem QueuesFit.selfTest {found : Vector (List Nat) 16} {confined : BitVec 16} {slicesBad : BitVec 8} (h : QueuesFit s) :
    QueuesFit (s.selfTest found confined slicesBad) := by
  unfold State.selfTest
  extract_lets s1 s2
  have h1 : QueuesFit s1 := h.zeroMemories.foldl (fun _ _ h => h.testCore.logRetired)
  have h2 : QueuesFit s2 := h1.foldl (fun _ _ h => h.setFld.setFld.logRetired)
  exact h2.keepColumns

theorem QueuesFit.dramFailed {failed : Nat} (h : QueuesFit s) : QueuesFit (s.dramFailed failed) := h.setFld.setFld

theorem QueuesFit.dramReady {grade target channels all density width ranks : Nat} {t : DramTraining} (h : QueuesFit s) :
    QueuesFit (s.dramReady grade target channels all density width ranks t) := by
  unfold State.dramReady
  extract_lets capacity s1 s2
  have h2 : QueuesFit s2 := h.setReg.setFld.setFld.setFld.setFld
  exact .ite h2 h2.appendEntry

theorem QueuesFit.dramUp {t : DramTraining} (h : QueuesFit s) : QueuesFit (s.dramUp t).1 := by
  unfold State.dramUp
  extract_lets s0
  split
  · exact h.update.dramFailed
  · exact .iteFst h.update.dramFailed (.iteFst h.update.dramFailed h.update.dramReady)

theorem QueuesFit.rxApply {x : Fin 16} {r : RxRecord} (h : QueuesFit s) : QueuesFit (s.rxApply x r) :=
  h.setFld.setFld.setFld.update

theorem QueuesFit.applyFrontEnd (h : QueuesFit s) : QueuesFit s.applyFrontEnd := by
  unfold State.applyFrontEnd
  split
  · exact h
  · refine .foldl h fun _ _ h => ?_
    split
    · exact .ite h.rxApply h
    · exact h

theorem QueuesFit.applyPorts (h : QueuesFit s) : QueuesFit s.applyPorts := by
  unfold State.applyPorts
  split
  · exact h
  · exact h.setFld.foldl (fun _ _ h => h.setFld.setFld.update)

theorem QueuesFit.trainPort {role uplink downs : Nat} {p : Fin 4} (h : QueuesFit s) :
    QueuesFit (s.trainPort role uplink downs p) :=
  .ite h h.setFld.beginTraining

theorem QueuesFit.applyTrapeze (h : QueuesFit s) : QueuesFit s.applyTrapeze := by
  unfold State.applyTrapeze
  split
  · exact h
  · exact .ite h (h.setFld.setFld.setFld.foldl (fun _ _ h => h.trainPort))

theorem QueuesFit.loadTrims (h : QueuesFit s) : QueuesFit s.loadTrims := .ite (h.foldl (fun _ _ h => h.setReg)) h

theorem QueuesFit.takeOver (h : QueuesFit s) : QueuesFit s.takeOver :=
  .foldl (h.foldl (fun _ _ h => h.readPages)) (fun _ _ h => h.readPages)

theorem QueuesFit.flashReady (h : QueuesFit s) : QueuesFit s.flashReady := by
  unfold State.flashReady
  extract_lets s0 table bad s1
  have h1 : QueuesFit s1 := h.takeOver.setFld.setFld.setFld.showInhibit
  exact h1.update.flashIssue

theorem QueuesFit.copyDeployment {c : List Byte} (h : QueuesFit s) : QueuesFit (s.copyDeployment c) :=
  h.update.update.ownWrite

theorem QueuesFit.startApp (h : QueuesFit s) : QueuesFit s.startApp := .update (.setFld (.ite h.update h.update.ownWrite))

theorem QueuesFit.logIgnored (h : QueuesFit s) : QueuesFit s.logIgnored := by
  unfold State.logIgnored
  extract_lets s1
  have h1 : QueuesFit s1 := h.foldl (fun _ _ h => .ite h.log h)
  exact h1.foldl (fun _ _ h => .ite h.log h)

theorem QueuesFit.loadRings (h : QueuesFit s) : QueuesFit s.loadRings :=
  .endBoot (h.setFld.foldl (fun _ _ h => h.enterLoading))

theorem QueuesFit.deployRings (h : QueuesFit s) : QueuesFit s.deployRings :=
  .ite h.startApp.logIgnored.loadRings (.setFld (h.update.foldl (fun _ _ h => h.failRing)))

theorem QueuesFit.deployNow (h : QueuesFit s) : QueuesFit s.deployNow := by
  unfold State.deployNow
  extract_lets k d c s1
  have h1 : QueuesFit s1 := h.readPages.setFld
  split
  · exact h1.copyDeployment.deployRings
  · exact h1.writeHeader

theorem QueuesFit.applyRecords (h : QueuesFit s) : QueuesFit s.applyRecords :=
  h.applyFrontEnd.applyPorts.applyTrapeze.loadTrims

theorem QueuesFit.firstVoltage (h : QueuesFit s) : QueuesFit s.firstVoltage := h.requestVolt

theorem QueuesFit.bringUp {found : Vector (List Nat) 16} {confined : BitVec 16} {slicesBad : BitVec 8} {t : DramTraining}
    (h : QueuesFit s) : QueuesFit (s.bringUp found confined slicesBad t) := by
  unfold State.bringUp
  extract_lets s1
  have h1 : QueuesFit s1 := h.flashReady.selfTest
  split
  · exact .log (.setFld (.setFld (.of_eq ‹_› h1.dramUp)))
  · extract_lets s3
    have h2 : QueuesFit s3 := .firstVoltage (.applyRecords (.of_eq ‹_› h1.dramUp))
    exact .ite h2.setFld h2.deployNow

theorem NextFits.execBoothBringUp {badColumns : Vector (List Nat) 16} {confined : BitVec 16} {slicesBad : BitVec 8}
    {dram : DramTraining} (h : QueuesFit s) : NextFits (execBoothBringUp badColumns confined slicesBad dram s) :=
  QueuesFit.nextFits (.ite h.bringUp h)

theorem QueuesFit.recSend {dst : BitVec 48} {type : Nat} {session : BitVec 16} {offset status : Nat} {payload : List Byte}
    (h : QueuesFit s) : QueuesFit (s.recSend dst type session offset status payload) :=
  h.toWire

theorem QueuesFit.setSession {x : Option RecSession} (h : QueuesFit s) : QueuesFit (s.setSession x) := h.update

theorem NextFits.execAnnounce (h : QueuesFit s) : NextFits (execAnnounce s) := QueuesFit.nextFits (.ite h.recSend h)

theorem QueuesFit.beginNow {f : RecFrame} (h : QueuesFit s) : QueuesFit (s.beginNow f) := by
  unfold State.beginNow
  extract_lets total
  split
  · exact .ite h h.recSend
  · exact .ite h.recSend h.setSession

theorem NextFits.execBegin {f : RecFrame} (h : QueuesFit s) : NextFits (execBegin f s) :=
  QueuesFit.nextFits (.ite h.beginNow h)

theorem QueuesFit.dataNow {x : RecSession} {f : RecFrame} (h : QueuesFit s) : QueuesFit (s.dataNow x f) :=
  .ite h.update.setSession.recSend h.recSend

theorem NextFits.execData {f : RecFrame} (h : QueuesFit s) : NextFits (execData f s) := by
  unfold Machine.execData
  refine QueuesFit.nextFits ?_
  split
  · exact h.dataNow
  · exact h

theorem QueuesFit.startRecovery {c : List Byte} (h : QueuesFit s) : QueuesFit (s.startRecovery c) :=
  h.armNet.setFld.setReg.update.handOver

theorem QueuesFit.endImage {x : RecSession} {f : RecFrame} (h : QueuesFit s) : QueuesFit (s.endImage x f) :=
  .ite h.recSend.startRecovery h.recSend.setSession

theorem NextFits.execEndRecoveryImage {f : RecFrame} (h : QueuesFit s) : NextFits (execEndRecoveryImage f s) := by
  unfold Machine.execEndRecoveryImage
  refine QueuesFit.nextFits ?_
  split
  · exact h.endImage
  · exact h

theorem NextFits.execRecoverySessionTimeout (h : QueuesFit s) : NextFits (execRecoverySessionTimeout s) :=
  QueuesFit.nextFits (.ite h.setSession h)

end Sys2Proof.Machine
end

section
/-! SUPPORT. Debug, power, security and register writes keep the depths of the queues; a parked ring holds a write only where
it holds fewer than 256 (R313). -/

namespace Sys2Proof.Machine

set_option Elab.async false
variable {β : Type} {s : State} {k : Core} {r : Fin 8} {c : Fin 16} {tag : Tag} {who : Who}

/-! ## Machine/Debug -/

theorem QueuesFit.debugRequest {act : State → State} (h : QueuesFit s) (hact : ∀ x0, QueuesFit x0 → QueuesFit (act x0)) :
    QueuesFit (s.debugRequest r who act).1 :=
  .iteFst h (.iteFst h (hact _ h))

theorem QueuesFit.haltRing (h : QueuesFit s) : QueuesFit (s.haltRing r) := h.onRing

theorem CoreFits.stepQueues {queues : BitVec 5} (hk : CoreFits k) : CoreFits (stepQueues queues k) := by
  refine hk.withQueues fun q => ?_
  simp only [Fin.getElem_fin, Vector.getElem_ofFn]
  split
  · exact hk.tags q
  · exact hk.tags q

theorem QueuesFit.stepRing {core : Option (Fin 16)} {queues : BitVec 5} (h : QueuesFit s) :
    QueuesFit (s.stepRing r core queues) :=
  .ite (h.foldl (fun _ _ h => h.onCore (fun _ hk => hk.stepQueues))) h

theorem QueuesFit.continueRing (h : QueuesFit s) : QueuesFit (s.continueRing r) := by
  refine .onRing (h.foldl fun _ _ h => h.onCore fun _ hk => hk.withQueues fun q => ?_)
  simpa using hk.tags q

theorem QueuesFit.dbgControl {op : Nat} {core : Option (Fin 16)} {queues : BitVec 5} (h : QueuesFit s) :
    QueuesFit (s.dbgControl r who op core queues).1 := by
  unfold State.dbgControl
  refine .debugRequest h fun _ h => ?_
  split
  · exact h.haltRing
  · exact h.stepRing
  · exact h.continueRing
  · exact h

theorem NextFits.execDbgHalt {ring : Fin 8} (h : QueuesFit s) : NextFits (execDbgHalt ring who s) := h.dbgControl.nextFits

theorem NextFits.execDbgStep {ring : Fin 8} {core : Option (Fin 16)} {queues : BitVec 5} (h : QueuesFit s) :
    NextFits (execDbgStep ring core queues who s) :=
  h.dbgControl.nextFits

theorem NextFits.execDbgResume {ring : Fin 8} (h : QueuesFit s) : NextFits (execDbgResume ring who s) :=
  h.dbgControl.nextFits

theorem QueuesFit.debugGet {x : DebugPlace} (h : QueuesFit s) : QueuesFit (s.debugGet r x).1 := by
  unfold State.debugGet
  split
  · exact h.cmRead
  · exact h.mwyRead
  · split
    · exact .of_eq ‹_› h.dramRead
    · exact .of_eq ‹_› h.dramRead
  · exact h.setFld

theorem QueuesFit.debugPut {d : List PByte} {x : DebugPlace} (h : QueuesFit s) : QueuesFit (s.debugPut r d x) := by
  unfold State.debugPut
  split
  · exact h.remoteWrite
  · exact h.mwyWrite
  · exact h.dramWrite
  · exact h.setFld

theorem QueuesFit.debugRead (h : QueuesFit s) : QueuesFit (s.debugRead r) := h.debugGet.setFld.setReg

theorem QueuesFit.debugWrite {value : Word} (h : QueuesFit s) : QueuesFit (s.debugWrite r value) := h.debugPut

theorem NextFits.execDbgAccRead {ring : Fin 8} (h : QueuesFit s) : NextFits (execDbgAccRead ring who s) :=
  QueuesFit.nextFits (h.debugRequest (fun _ h => h.debugRead))

theorem NextFits.execDbgAccWrite {ring : Fin 8} {value : Word} (h : QueuesFit s) :
    NextFits (execDbgAccWrite ring value who s) :=
  QueuesFit.nextFits (h.debugRequest (fun _ h => h.debugWrite))

theorem length_popHead {seq : Word} {l : List FaultRec} : (popHead seq l).length ≤ l.length := by
  unfold popHead
  split
  · exact (List.drop_sublist 1 l).length_le
  · exact le_rfl

theorem QueuesFit.popFault {ring : Option (Fin 8)} {seq : Word} (h : QueuesFit s) : QueuesFit (s.popFault ring seq who).1 := by
  cases ring with
  | some r => exact h.request fun _ h => h.onRing
  | none => exact .iteFst (h.withFaults (length_popHead.trans h.faults)) h

theorem NextFits.execFaultPop {ring : Option (Fin 8)} {seq : Word} (h : QueuesFit s) :
    NextFits (execFaultPop ring seq who s) :=
  h.popFault.nextFits

theorem NextFits.execTraceStreamTimeout {core : Fin 16} (h : QueuesFit s) : NextFits (execTraceStreamTimeout core s) := by
  unfold Machine.execTraceStreamTimeout
  refine QueuesFit.nextFits ?_
  split
  · exact .ite h.traceBatchOut h
  · exact h

theorem NextFits.execSyncMarker {core : Fin 16} (h : QueuesFit s) : NextFits (execSyncMarker core s) :=
  QueuesFit.nextFits (.ite h h.crossPut)

theorem QueuesFit.syncArrives {cc : BitVec 48} (h : QueuesFit s) : QueuesFit (s.syncArrives c cc) := h.trace

theorem QueuesFit.delivered {x : Crossing} {y : CrossOp} (h : QueuesFit s) : QueuesFit (s.delivered x y) := by
  unfold State.delivered
  split
  · exact h.setRingFlag
  · exact h.clearRingFlag
  · split
    · exact h.flagArrives
    · exact h.foldl (fun _ _ h => h.crossPut)
  · exact h.testArrives
  · exact .ite h.coreTestArrives h.crossPut
  · exact .ite h.answerArrives h.crossPut
  · exact .ite h.update h.crossPut
  · exact .ite h.fire h.crossPut
  · exact h.forwarded
  · split
    · exact h.syncArrives
    · exact h

theorem NextFits.execCrossingDeliver {x : Crossing} (h : QueuesFit s) : NextFits (execCrossingDeliver x s) := by
  refine QueuesFit.nextFits ?_
  split
  · split
    case h_1 o rest htake =>
      have h1 : QueuesFit ((s.crossTaken x rest).delivered x o) := (h.crossTaken htake).delivered
      split
      · dsimp only
        split
        · exact h1.moveRx
        · exact h1
      · exact h
    case h_2 => exact h
  · exact h

/-! ## Machine/Power -/

theorem QueuesFit.setUpd {st cause : Nat} (h : QueuesFit s) : QueuesFit (s.setUpd st cause) := h.setFld.setFld

theorem QueuesFit.showSample {m : PowerSample} (h : QueuesFit s) : QueuesFit (s.showSample m) := by
  unfold State.showSample
  extract_lets s1 s2
  have h1 : QueuesFit s1 := h.setFld.setFld
  exact .foldl (.ite h1 h1.setFld) (fun _ _ h => h.setFld)

theorem QueuesFit.judgePeriod {m : PowerSample} (h : QueuesFit s) : QueuesFit (s.judgePeriod m) :=
  h.setFld.setFld.setFld.update

theorem QueuesFit.countThrottle {l : List Grant} (h : QueuesFit s) : QueuesFit (s.countThrottle l) := by
  unfold State.countThrottle
  extract_lets s0
  refine .foldl ?_ fun _ _ h => ?_
  · exact .update (h.setFld.foldl (fun _ _ h => h.setFld))
  · split
    · exact h
    · exact h.bump.raiseBit.raiseBit.setFld

theorem QueuesFit.setRaise {v : Vector Nat 8} (h : QueuesFit s) : QueuesFit (s.setRaise v) := h.update

theorem QueuesFit.applyGrants {l : List Grant} (h : QueuesFit s) : QueuesFit (s.applyGrants l) := by
  unfold State.applyGrants
  extract_lets s1 want
  have h1 : QueuesFit s1 := h.foldl (fun _ _ h => .ite h.setFreq h)
  split
  · exact h1.setRaise
  · exact .ite h1.requestVolt.update (.setRaise (h1.requestVolt.foldl (fun _ _ h => h.setFreq)))

theorem QueuesFit.keepTargets {l : List (Fin 8 × Nat × Nat × Bool)} (h : QueuesFit s) : QueuesFit (s.keepTargets l) :=
  h.update

theorem QueuesFit.powerLoopNow {m : PowerSample} (h : QueuesFit s) : QueuesFit (s.powerLoopNow m) := by
  unfold State.powerLoopNow
  extract_lets s1 s2 l s3 s4
  have h1 : QueuesFit s1 := .judgePeriod (.showSample (h.foldl (fun _ _ h => h.takeCtrl)))
  have h3 : QueuesFit s3 := h1.setFld.keepTargets.countThrottle.applyGrants
  exact .ite h3.update.setUpd h3.update

theorem NextFits.execPowerLoop {m : PowerSample} (h : QueuesFit s) : NextFits (execPowerLoop m s) :=
  QueuesFit.nextFits (.ite h.powerLoopNow h)

theorem NextFits.execVoltageSettled (h : QueuesFit s) : NextFits (execVoltageSettled s) := by
  unfold Machine.execVoltageSettled
  refine QueuesFit.nextFits ?_
  extract_lets up
  have h1 : QueuesFit up := h.foldl (fun _ _ h => .ite h.setFreq h)
  exact .ite h1.update h

theorem QueuesFit.handleHints (h : QueuesFit s) : QueuesFit s.handleHints := by
  unfold State.handleHints
  extract_lets s1 s2
  split
  · exact h.update.update.raiseVolt
  · exact h.update.update

theorem NextFits.execHintHandler (h : QueuesFit s) : NextFits (execHintHandler s) :=
  QueuesFit.nextFits (.ite h.handleHints h)

theorem NextFits.execHintPhaseEnd {core : Fin 16} (h : QueuesFit s) : NextFits (execHintPhaseEnd core s) :=
  QueuesFit.nextFits (.ite h h.onCore.update)

theorem NextFits.execDroopDetect {core : Fin 16} (h : QueuesFit s) : NextFits (execDroopDetect core s) :=
  QueuesFit.nextFits (.ite h.update h)

theorem NextFits.execDroopRecover {core : Fin 16} (h : QueuesFit s) : NextFits (execDroopRecover core s) :=
  h.update.nextFits

theorem NextFits.execCurrentLimit (h : QueuesFit s) : NextFits (execCurrentLimit s) := h.update.nextFits

theorem NextFits.execCurrentLimitClear (h : QueuesFit s) : NextFits (execCurrentLimitClear s) := h.update.nextFits

theorem QueuesFit.limitAll (h : QueuesFit s) : QueuesFit s.limitAll := h.foldl (fun _ _ h => .ite h.setFreq h)

theorem NextFits.execThermalEmergency {_sensor : Fin 32} {temp : Int} (h : QueuesFit s) :
    NextFits (execThermalEmergency _sensor temp s) :=
  QueuesFit.nextFits (.ite h.setFld.update.limitAll h)

theorem NextFits.execThermalRecover {temps : Vector Int 32} (h : QueuesFit s) : NextFits (execThermalRecover temps s) :=
  QueuesFit.nextFits (.ite h.update h)

theorem QueuesFit.trip (h : QueuesFit s) : QueuesFit s.trip := h.update

theorem NextFits.execThermalCritical {sensor : Fin 32} {temp : Int} (h : QueuesFit s) :
    NextFits (execThermalCritical sensor temp s) :=
  QueuesFit.nextFits (.ite h.setFld.record.trip h)

theorem NextFits.execThermalLoop {sensors : Vector Int 32} {telemetry : Bool} (h : QueuesFit s) :
    NextFits (execThermalLoop sensors telemetry s) :=
  QueuesFit.nextFits (.ite h.setFld.setFld.setFld.update h)

theorem QueuesFit.emptyShadow (h : QueuesFit s) : QueuesFit s.emptyShadow := h.setFld.update

theorem NextFits.execLockstepMismatch {within60s : Bool} (h : QueuesFit s) : NextFits (execLockstepMismatch within60s s) := by
  unfold Machine.execLockstepMismatch
  refine QueuesFit.nextFits (.ite h ?_)
  extract_lets s1 s2 n _ _ s3 s4
  have h2 : QueuesFit s2 := h.bump.setFld.record
  have h3 : QueuesFit s3 := h2.update
  have h4 : QueuesFit s4 := h3.limitAll.emptyShadow
  exact .ite h4.trip h4

theorem QueuesFit.coldStart (h : QueuesFit s) : QueuesFit s.coldStart := by
  unfold State.coldStart
  extract_lets s1 s2
  have h1 : QueuesFit s1 := h.foldl (fun _ _ h => .ite h h.setFreq)
  exact h1.loadTrims.setFld.update

theorem NextFits.execBoothReloadDone {m : PowerSample} (h : QueuesFit s) : NextFits (execBoothReloadDone m s) := by
  unfold Machine.execBoothReloadDone
  refine QueuesFit.nextFits ?_
  split
  · exact h
  · split
    · exact h
    · exact .ite h h.setFld.update.coldStart.powerLoopNow

theorem QueuesFit.markTrim {k : Fin 8} (h : QueuesFit s) : QueuesFit (s.markTrim k) := h.update

theorem QueuesFit.setSteps {k : Fin 8} {n : Nat} (h : QueuesFit s) : QueuesFit (s.setSteps k n) := h.setFld.setFld.markTrim

theorem QueuesFit.disablePoint {k : Fin 8} (h : QueuesFit s) : QueuesFit (s.disablePoint k) :=
  h.setFld.setFld.markTrim.log.foldl (fun _ _ h => .ite h.setFreq h)

theorem QueuesFit.ageNow {k : Fin 8} {low : Nat} {high24h : Bool} (h : QueuesFit s) : QueuesFit (s.ageNow k low high24h) :=
  .ite (.ite h.setSteps h.disablePoint) (.ite h.setSteps h)

theorem NextFits.execAgeingSample {codes : List (BitVec 6)} {steadyPoint : Option (Fin 8)} {high24h : Bool}
    (h : QueuesFit s) : NextFits (execAgeingSample codes steadyPoint high24h s) := by
  unfold Machine.execAgeingSample
  refine QueuesFit.nextFits ?_
  split
  · exact h
  · exact .ite h h.ageNow

theorem NextFits.execTrimWrite {k : Fin 8} (h : QueuesFit s) : NextFits (execTrimWrite k s) :=
  QueuesFit.nextFits (.ite h.appendEntry.update h)

theorem QueuesFit.updateLoadNow (h : QueuesFit s) : QueuesFit (s.updateLoadNow who) := by
  unfold State.updateLoadNow
  split
  · exact .setUpd (.emptyShadow (.of_eq ‹_› h.staged))
  · exact .setUpd (.update (.of_eq ‹_› h.staged))

theorem QueuesFit.updControl {op : Nat} (h : QueuesFit s) : QueuesFit (s.updControl who op).1 := by
  unfold State.updControl
  split
  · exact h
  · split
    · exact .iteFst h.setFld h.updateLoadNow
    · split
      · exact .iteFst h.setFld (.iteFst h.setFld h.setUpd)
      · exact .iteFst (.ite h.emptyShadow.setUpd h) h

theorem NextFits.execUpdateLoad (h : QueuesFit s) : NextFits (execUpdateLoad who s) := h.updControl.nextFits

theorem NextFits.execUpdateActivate (h : QueuesFit s) : NextFits (execUpdateActivate who s) := h.updControl.nextFits

theorem NextFits.execUpdateDiscard (h : QueuesFit s) : NextFits (execUpdateDiscard who s) := h.updControl.nextFits

theorem NextFits.execUpdateLoadDone (h : QueuesFit s) : NextFits (execUpdateLoadDone s) := by
  unfold Machine.execUpdateLoadDone
  refine QueuesFit.nextFits ?_
  split
  · exact h
  · split
    · exact h.setUpd
    · exact h.emptyShadow.setUpd

theorem QueuesFit.switchNow {adopted : Bool} (h : QueuesFit s) : QueuesFit (s.switchNow adopted) := by
  unfold State.switchNow
  extract_lets s1 s2
  have h1 : QueuesFit s1 := h.setUpd.setFld.bump.setFld.setFld
  exact .ite h1.update.setFld h1.update.coldStart

theorem NextFits.execBoothSwitch {adopted : Bool} (h : QueuesFit s) : NextFits (execBoothSwitch adopted s) :=
  QueuesFit.nextFits (.ite h.switchNow (.ite h.setUpd h))

theorem NextFits.execSwitchReadyTimeout (h : QueuesFit s) : NextFits (execSwitchReadyTimeout s) :=
  QueuesFit.nextFits (.ite h.emptyShadow.update h)

theorem NextFits.execActivateTimeout (h : QueuesFit s) : NextFits (execActivateTimeout s) :=
  QueuesFit.nextFits (.ite h.setUpd.setFld h)

/-! ## Machine/Security -/

theorem NextFits.execKeyGenDone (h : QueuesFit s) : NextFits (execKeyGenDone s) := QueuesFit.nextFits (.ite h.setFld h)

theorem QueuesFit.zeroKeys (h : QueuesFit s) : QueuesFit (s.zeroKeys r) := h.foldl (fun _ _ h => h.onEp.setFld)

theorem QueuesFit.zeroAllKeys (h : QueuesFit s) : QueuesFit s.zeroAllKeys := h.foldl (fun _ _ h => h.zeroKeys)

theorem QueuesFit.forgetQuotes (h : QueuesFit s) : QueuesFit s.forgetQuotes := h.update

theorem QueuesFit.rememberQuote {nonce : List Byte} (h : QueuesFit s) : QueuesFit (s.rememberQuote nonce) := h.update

theorem QueuesFit.relayPiece {via : Fin 4} {dst offset status : Nat} {piece : List Byte} (h : QueuesFit s) :
    QueuesFit (s.relayPiece via dst offset status piece) :=
  h.sendTo

theorem QueuesFit.relayQuote {a : Asker} {device : Nat} {body : List Byte} (h : QueuesFit s) :
    QueuesFit (s.relayQuote r a device body) := by
  unfold State.relayQuote
  split
  · exact h.relayPiece.update
  · exact h.replyStatus

theorem QueuesFit.quoteNow {a : Asker} {body : List Byte} (h : QueuesFit s) : QueuesFit (s.quoteNow r a body) := by
  unfold State.quoteNow
  extract_lets device nonce
  exact .ite h.replyStatus (.ite (.ite h.rememberQuote.reply h.replyStatus) h.relayQuote)

theorem QueuesFit.quoteForWorker {via : Fin 4} {q : Packet} (h : QueuesFit s) : QueuesFit (s.quoteForWorker via q) := by
  unfold State.quoteForWorker
  extract_lets body nonce b
  refine .ite h.relayPiece (.ite h.relayPiece ?_)
  exact .foldlFst h.rememberQuote fun _ _ h => h.relayPiece

theorem QueuesFit.quoteForManager {q : Packet} (h : QueuesFit s) : QueuesFit (s.quoteForManager q) := by
  unfold State.quoteForManager
  split
  · exact h
  · exact .ite h.update.replyStatus (.ite h.update.reply h.update)

theorem NextFits.execQuoteRelay {port : Fin 4} {p : Packet} (h : QueuesFit s) : NextFits (execQuoteRelay port p s) :=
  QueuesFit.nextFits (h.trafficIn (fun _ h => .ite h.quoteForManager h.quoteForWorker))

theorem NextFits.execQuoteRelayTimeout {device : Byte} (h : QueuesFit s) : NextFits (execQuoteRelayTimeout device s) := by
  unfold Machine.execQuoteRelayTimeout
  refine QueuesFit.nextFits ?_
  split
  · exact h.update.replyStatus
  · exact h

theorem QueuesFit.refuseWrap {status : Nat} (h : QueuesFit s) : QueuesFit (s.refuseWrap status) :=
  .ite h.setFld.bump h.setFld

theorem QueuesFit.installCak {x : Fin 64} {ckn : List Byte} {k : BitVec 256} (h : QueuesFit s) :
    QueuesFit (s.installCak x ckn k) :=
  h.onEp.setFld.setFld

theorem QueuesFit.keyWrapNow {a : Asker} {plain : Bool} {b : List Byte} (h : QueuesFit s) :
    QueuesFit (s.keyWrapNow r a plain b) := by
  unfold State.keyWrapNow
  split
  · exact h.replyStatus.installCak
  · exact h.refuseWrap.replyStatus

theorem QueuesFit.secResult {state op cause : Nat} (h : QueuesFit s) : QueuesFit (s.secResult state op cause) := h.setReg

theorem QueuesFit.stagedToken (h : QueuesFit s) : QueuesFit (s.stagedToken who).1 := by
  unfold State.stagedToken
  extract_lets a
  split
  · exact .of_eq ‹_› h.staged
  · exact .iteFst (.staged (.of_eq ‹_› h.staged)) (.of_eq ‹_› h.staged)

theorem QueuesFit.installTokenNow {t : List Byte} (h : QueuesFit s) : QueuesFit (s.installTokenNow t) := by
  unfold State.installTokenNow
  extract_lets level s1
  have h1 : QueuesFit s1 := by
    unfold s1
    split
    · exact .zeroAllKeys (h.setFld.foldl (fun _ _ h => h.setReg))
    · exact h.foldl (fun _ _ h => .ite (.ite h.setReg.zeroKeys h.setReg) h)
  exact h1.forgetQuotes.setFld.secResult

theorem QueuesFit.tokenRequest (h : QueuesFit s) : QueuesFit (s.tokenRequest who).1 := by
  unfold State.tokenRequest
  split
  · exact .secResult (.of_eq ‹_› h.stagedToken)
  · extract_lets named
    split
    · exact .secResult (.of_eq ‹_› h.stagedToken)
    · split
      · exact .installTokenNow (.of_eq ‹_› h.stagedToken)
      · exact .secResult (.of_eq ‹_› h.stagedToken)

theorem QueuesFit.debugEnded (h : QueuesFit s) : QueuesFit s.debugEnded := h.forgetQuotes.setFld

theorem QueuesFit.endLevel (h : QueuesFit s) : QueuesFit (s.endLevel r) := .ite h (.debugEnded (.ite h.setFld h.setReg))

theorem QueuesFit.endAllLevels (h : QueuesFit s) : QueuesFit s.endAllLevels := by
  unfold State.endAllLevels
  extract_lets s1
  have h1 : QueuesFit s1 := h.foldl (fun _ _ h => h.endLevel)
  exact .ite (.debugEnded (h1.setFld.foldl (fun _ _ h => h.setReg))) h1

theorem QueuesFit.endDebugRequest {arg : Fin 16} (h : QueuesFit s) : QueuesFit (s.endDebugRequest who arg).1 := by
  unfold State.endDebugRequest
  extract_lets own
  split
  · exact h.secResult
  · split
    · exact h.endAllLevels.secResult
    · split
      · exact h.endLevel.secResult
      · exact h.secResult

theorem QueuesFit.stopRings (h : QueuesFit s) : QueuesFit s.stopRings := h.foldl (fun _ _ h => .ite h.stopNow h)

theorem QueuesFit.setLifecycle {lc : Nat} (h : QueuesFit s) : QueuesFit (s.setLifecycle lc) :=
  h.storeWrite.showStore.forgetQuotes.setFld

theorem QueuesFit.lifecycleNow {op : Nat} (h : QueuesFit s) : QueuesFit (s.lifecycleNow op) := by
  unfold State.lifecycleNow
  split
  · exact h.setLifecycle.secResult
  · split
    · exact h.stopRings.endAllLevels.zeroAllKeys.setLifecycle.secResult
    · exact h.stopRings.zeroAllKeys.setLifecycle.secResult.restartDevice.startUp

theorem QueuesFit.lifecycleOrHold {op : Nat} (h : QueuesFit s) : QueuesFit (s.lifecycleOrHold op) :=
  .ite h.setFld.secResult.update h.lifecycleNow

theorem QueuesFit.lifecycleCause {op : Nat} (h : QueuesFit s) : QueuesFit (s.lifecycleCause who op).1 := by
  unfold State.lifecycleCause
  extract_lets lc
  split
  · exact h
  · split
    · split
      · exact h
      · split
        · exact .of_eq ‹_› h.stagedToken
        · exact .of_eq ‹_› h.stagedToken
    · exact h

theorem QueuesFit.lifecycleRequest {op : Nat} (h : QueuesFit s) : QueuesFit (s.lifecycleRequest who op).1 := by
  unfold State.lifecycleRequest
  split
  · exact h.secResult
  · split
    · exact h.secResult
    · split
      · exact .lifecycleOrHold (.of_eq ‹_› h.lifecycleCause)
      · exact .secResult (.of_eq ‹_› h.lifecycleCause)

theorem NextFits.execSecRequestTimeout (h : QueuesFit s) : NextFits (execSecRequestTimeout s) := by
  unfold Machine.execSecRequestTimeout
  refine QueuesFit.nextFits ?_
  split
  · exact h.update.secResult
  · exact h

theorem QueuesFit.storeResumes (h : QueuesFit s) : QueuesFit s.storeResumes := by
  unfold State.storeResumes
  extract_lets _ s1 _ s2 s3
  have h1 : QueuesFit s1 := h.update
  have h2 : QueuesFit s2 := by
    unfold s2
    split
    · exact h1.update.lifecycleNow
    · exact h1
  have h3 : QueuesFit s3 := .ite h2.confirmFrom h2
  exact .ite h3.romBoot h3

theorem NextFits.execVddAonStoreHold {below : Bool} (h : QueuesFit s) : NextFits (execVddAonStoreHold below s) :=
  QueuesFit.nextFits (.ite h.update h.storeResumes)

theorem QueuesFit.standbyNow (h : QueuesFit s) : QueuesFit s.standbyNow := h.idlePorts.setFld.secResult

theorem QueuesFit.wakeUp (h : QueuesFit s) : QueuesFit s.wakeUp := h.setFld

theorem QueuesFit.standbyRequest (h : QueuesFit s) : QueuesFit (s.standbyRequest who).1 :=
  .iteFst h.secResult (.iteFst h.secResult (.iteFst h.secResult h.standbyNow))

theorem QueuesFit.deepNow (h : QueuesFit s) : QueuesFit s.deepNow := by
  unfold State.deepNow
  extract_lets s1 __src
  exact h.idlePorts.stopAll.zeroAllKeys.endAllLevels.forgetQuotes.setFld.setReg.setFld.secResult.update

theorem QueuesFit.deepRequest (h : QueuesFit s) : QueuesFit (s.deepRequest who).1 :=
  .iteFst h.secResult (.iteFst h.secResult (.iteFst h.secResult h.deepNow))

theorem QueuesFit.secControl {op : Nat} {arg : Fin 16} (h : QueuesFit s) : QueuesFit (s.secControl who op arg).1 := by
  unfold State.secControl
  split
  · exact h.tokenRequest
  · split
    · exact h.endDebugRequest
    · exact .iteFst h.lifecycleRequest (.iteFst h.standbyRequest (.iteFst h.deepRequest h))

theorem NextFits.execInstallToken (h : QueuesFit s) : NextFits (execInstallToken who s) := h.secControl.nextFits

theorem NextFits.execEndDebug {arg : Fin 16} (h : QueuesFit s) : NextFits (execEndDebug arg who s) := h.secControl.nextFits

theorem NextFits.execDeploy (h : QueuesFit s) : NextFits (execDeploy who s) := h.secControl.nextFits

theorem NextFits.execReturnDevice (h : QueuesFit s) : NextFits (execReturnDevice who s) := h.secControl.nextFits

theorem NextFits.execScrap (h : QueuesFit s) : NextFits (execScrap who s) := h.secControl.nextFits

theorem NextFits.execStandby (h : QueuesFit s) : NextFits (execStandby who s) := h.secControl.nextFits

theorem NextFits.execDeepStandby (h : QueuesFit s) : NextFits (execDeepStandby who s) := h.secControl.nextFits

/-! ## Machine/Control -/

theorem QueuesFit.readPair {g : Reg} (h : QueuesFit s) : QueuesFit (s.readPair g).1 := by
  unfold State.readPair
  split
  · exact h
  · exact h.update
  · split
    · exact h.update
    · exact h

theorem QueuesFit.storeWord {g : Reg} {v : Word} (h : QueuesFit s) : QueuesFit (s.storeWord g v) := h.setReg

theorem QueuesFit.storePair {g : Reg} {v : Word} (h : QueuesFit s) : QueuesFit (s.storePair g v) := by
  unfold State.storePair
  split
  · exact h.storeWord
  · exact h.update
  · split
    extract_lets s1
    have h1 : QueuesFit s1 := by
      unfold s1
      split
      · exact h.storeWord
      · exact h
    exact h1.update.storeWord

theorem QueuesFit.regRead {addr : Word} (h : QueuesFit s) : QueuesFit (s.regRead who addr).1 := by
  unfold State.regRead
  split
  · exact h
  · split
    · exact h
    · split
      · exact .of_eq ‹_› (h.debugRequest (fun _ h => h.debugRead))
      · exact h
    · split
      · exact h.readPair
      · exact h

theorem QueuesFit.storeWhen {ok : Bool} {status : Nat} {g : Reg} {v : Word} (h : QueuesFit s) :
    QueuesFit (s.storeWhen ok status g v).1 :=
  .iteFst h.storePair h

theorem QueuesFit.poolWrite {ok : Bool} {g : Reg} {v : Word} (h : QueuesFit s) : QueuesFit (s.poolWrite r ok g v).1 :=
  .iteFst h.storeWhen h

theorem QueuesFit.keyedWrite {v : Word} {act : Nat → State × Nat} (h : QueuesFit s) (hact : ∀ x0, QueuesFit (act x0).1) :
    QueuesFit (s.keyedWrite v act).1 :=
  .iteFst (hact _ ) h

theorem QueuesFit.distribute {k : Fin 4} {v : Word} (h : QueuesFit s) : QueuesFit (s.distribute k v) :=
  h.storeWord.writeLagRecord

theorem QueuesFit.performWrite {g : Reg} {v : Word} (h : QueuesFit s) : QueuesFit (s.performWrite who g v).1 := by
  unfold State.performWrite
  cases g
  case ringFlagWrite => exact .iteFst h.flagWriteNow h
  case ringCtxCtrl => exact .iteFst h.ctxRequest h
  case ringCtxPool | ringCtxPoolMwy => exact h.poolWrite
  case ringCtxDesc | feStreamDesc | cdcSessionDesc | cdcSessionWptr | cdcSessionRptr | smpChanDesc | trsRstreamDesc
    | trzWindowBase | trzWindowLength | trzWindowPermit | trzWindowAttr => exact h.storeWhen
  case feStreamCtrl => exact h.keyedWrite fun _ => h.feRequest
  case cdcSessionCtrl =>
    refine h.keyedWrite fun _ => ?_
    split
    · exact h.cdcRequest
    · exact h
  case smpChanCtrl =>
    refine h.keyedWrite fun _ => ?_
    split
    · exact h.smpRequest
    · exact h
  case trsRstreamCtrl => exact h.keyedWrite fun _ => h.rsRequest
  case trzSystemCtrl => exact h.keyedWrite fun _ => h.trzRequest
  case trzDistribution => exact h.distribute
  case trzWindowCtrl =>
    refine h.keyedWrite fun _ => ?_
    split
    · exact h.windowRequest
    · exact h
  case bootControl => exact h.keyedWrite fun _ => h.bootControl
  case flsCtrl => exact h.keyedWrite fun _ => h.flsControl
  case pwrUpdateCtrl => exact h.keyedWrite fun _ => h.updControl
  case secCtrl => exact h.keyedWrite fun _ => h.secControl
  case dbgTraceCtrl =>
    dsimp only
    split
    · exact h.storeWord
    · exact h
  case dbgRingCtrl => exact h.keyedWrite fun _ => h.dbgControl
  case dbgAccData => exact h.debugRequest fun _ h => h.debugWrite
  case errDevFaultPop => exact h.popFault
  case errRingFaultPop => exact h.onRing
  all_goals exact h.storePair

theorem QueuesFit.performHeld {hd : HeldWrite} (h : QueuesFit s) : QueuesFit (s.performHeld hd) := by
  unfold State.performHeld
  split
  · exact h.performWrite
  · exact h

theorem QueuesFit.paramDone {p : HeldParam} (h : QueuesFit s) : QueuesFit (s.paramDone r p) :=
  .replyStatus (.ite h h.crossPut)

theorem QueuesFit.resumeNow (h : QueuesFit s) : QueuesFit (s.resumeNow r) := by
  unfold State.resumeNow
  split
  · have h1 : QueuesFit ((s.resumeRing r).onRing r fun k => { k with held := [], heldParams := [] }) :=
      h.resumeRing.onRing fun _ _ => Nat.zero_le _
    exact .foldl (h1.foldl fun _ _ h => h.performHeld) fun _ _ h => h.paramDone
  · exact h.refuseRing

theorem NextFits.execRingResume {ring : Fin 8} (h : QueuesFit s) : NextFits (execRingResume ring who s) :=
  QueuesFit.nextFits (h.ringRequest (fun _ h => h.resumeNow))

theorem QueuesFit.ringOp {op : Nat} (h : QueuesFit s) : QueuesFit (s.ringOp r op) := by
  unfold State.ringOp
  split
  · exact h.startNow
  · exact h.parkNow
  · exact h.resumeNow
  · exact h.stopNow
  · exact h

theorem QueuesFit.writeRightly {g : Reg} {v : Word} {x : Right} (h : QueuesFit s) :
    QueuesFit (s.writeRightly who g v x).1 := by
  unfold State.writeRightly
  split
  · exact h
  · split
    · exact h.ringRequest (fun _ h => .ite h.ringOp h)
    · exact h.request (fun _ h => h.performWrite)
  · exact .iteFst h.performWrite h
  · exact .iteFst h.performWrite h
  · exact .iteFst h.performWrite h
  · exact .iteFst h (.iteFst h h.performWrite)
  · exact h.performWrite

theorem QueuesFit.regWrite {addr v : Word} (h : QueuesFit s) : QueuesFit (s.regWrite who addr v).1 := by
  unfold State.regWrite
  split
  · exact h
  · split
    · exact h
    · exact h.writeRightly

theorem NextFits.execRegisterWrite {addr value : Word} (h : QueuesFit s) : NextFits (execRegisterWrite who addr value s) :=
  h.regWrite.nextFits

/-! ## Machine/DramCmd -/

theorem NextFits.execDramRead {owner : DramOwner} {addr : Nat} {expectGen : Option (BitVec 16)} {flips : List (Nat × Byte)}
    (h : QueuesFit s) : NextFits (execDramRead owner tag addr expectGen flips s) :=
  QueuesFit.nextFits (.ite h h.update.dramRead)

theorem NextFits.execDramWrite {owner : DramOwner} {addr : Nat} {bytes : List Byte} {poisoned : Bool}
    {gen : Option (BitVec 16)} (h : QueuesFit s) : NextFits (execDramWrite owner tag addr bytes poisoned gen s) :=
  QueuesFit.nextFits (.ite h h.dramWrite)

theorem NextFits.execDramRefresh {_sub : Fin 8} (h : QueuesFit s) : NextFits (execDramRefresh _sub s) := h.nextFits

theorem NextFits.execDramTempPoll {hot : Bool} (h : QueuesFit s) : NextFits (execDramTempPoll hot s) :=
  QueuesFit.nextFits (.ite h.setFld h)

theorem NextFits.execEcsCollect {sub : Fin 8} {count : Nat} (h : QueuesFit s) : NextFits (execEcsCollect sub count s) :=
  QueuesFit.nextFits (.ite h.bump h)

theorem QueuesFit.scrubBad {n : Nat} {v : Verdict} (h : QueuesFit s) : QueuesFit (s.scrubBad n v) :=
  .ite h h.ddrShow.record.update

theorem QueuesFit.scrubLine {n : Nat} (h : QueuesFit s) : QueuesFit (s.scrubLine n) :=
  .ite h.ddrCount.scrubBad (.ite h.ddrCount.update h.ddrCount)

theorem NextFits.execDramScrub {addr : Nat} {flips : List (Nat × Byte)} {lastOfPass : Bool} (h : QueuesFit s) :
    NextFits (execDramScrub addr flips lastOfPass s) := by
  unfold Machine.execDramScrub
  refine QueuesFit.nextFits ?_
  split
  · exact h
  · split
    · exact h.ddrOutside
    · exact .ite h.update (.ite h.update.scrubLine.setFld.update h.update.scrubLine)

theorem NextFits.execMwyScrub {slice : Fin 8} {word : Fin 1048576} {found : EccOutcome} (h : QueuesFit s) :
    NextFits (execMwyScrub slice word found s) := by
  unfold Machine.execMwyScrub
  extract_lets n
  refine QueuesFit.nextFits ?_
  split
  · exact h
  · split
    · exact h
    · exact h.bump.update
    · exact h.sliceBad

end Sys2Proof.Machine
end

section
/-! SUPPORT. Messages, Ethernet, flash operations, pins and the unfold engine keep the depths of the queues. -/

namespace Sys2Proof.Machine

set_option Elab.async false
variable {β : Type} {s : State} {k : Core} {r : Fin 8} {c : Fin 16} {tag : Tag} {who : Who}

/-! ## Machine/Tirsa -/

theorem QueuesFit.ethCount {via : Via} {k : Fin 5} (h : QueuesFit s) : QueuesFit (s.ethCount via k) := by
  unfold State.ethCount
  split
  · exact h.bump
  · exact h

theorem QueuesFit.epCount {e : Fin 64} {k : Fin 6} (h : QueuesFit s) : QueuesFit (s.epCount e k) := h.bump

theorem QueuesFit.takePeer {e : Fin 64} {f : Frame} (h : QueuesFit s) : QueuesFit (s.takePeer e f) := by
  unfold State.takePeer
  split
  · exact h
  · exact h.setRegs.setFld.pumpEp

theorem QueuesFit.dropReasm {e : Fin 64} {msgId : BitVec 16} (h : QueuesFit s) : QueuesFit (s.dropReasm e msgId) := h.onEp

theorem QueuesFit.keepReasm {e : Fin 64} {m : Reassembly} (h : QueuesFit s) : QueuesFit (s.keepReasm e m) := h.onEp

theorem QueuesFit.refuseMsg {e : Fin 8} {m : Reassembly} {status : Nat} (h : QueuesFit s) :
    QueuesFit (s.refuseMsg r e m status).1 :=
  h.replyStatus

theorem QueuesFit.paramFirst {e : Fin 8} {m : Reassembly} {d : List Byte} (h : QueuesFit s) :
    QueuesFit (s.paramFirst r e m d).1 :=
  .iteFst h.refuseMsg (.iteFst h.refuseMsg (.iteFst h.refuseMsg h))

theorem QueuesFit.paramData {e : Fin 8} {m : Reassembly} {o : Nat} {d : List Byte} {bad : Bool} (h : QueuesFit s) :
    QueuesFit (s.paramData r e m o d bad).1 := by
  unfold State.paramData
  extract_lets lo piece
  split
  · exact h
  · split
    · exact h.refuseMsg
    · split
      · exact .of_eq ‹_› h.bufWrite
      · exact .refuseMsg (.of_eq ‹_› h.bufWrite)

theorem QueuesFit.paramEnd {e : Fin 8} {m : Reassembly} (h : QueuesFit s) : QueuesFit (s.paramEnd r e m) :=
  .ite h (.ite h.replyStatus (.ite h.onRing h.paramDone))

theorem QueuesFit.samplePart {e : Fin 8} {m : Reassembly} {o : Nat} {d : List Byte} {first : Bool} (h : QueuesFit s) :
    QueuesFit (s.samplePart r e m o d first).1 := by
  unfold State.samplePart
  split
  · exact h
  · split
    · extract_lets c
      split
      · split
        · exact h.sampleMore
        · split
          · exact h.smpCount.smpReport
          · split
            · exact .of_eq ‹_› h.sampleFirst
            · exact .of_eq ‹_› h.sampleFirst
      · exact h.refuseMsg
    · exact h.refuseMsg

theorem QueuesFit.streamPart {e : Fin 8} {m : Reassembly} {o : Nat} {d : List Byte} {first last : Bool} (h : QueuesFit s) :
    QueuesFit (s.streamPart r e m o d first last) := by
  unfold State.streamPart
  split
  · exact h
  · extract_lets s1 s2
    have h1 : QueuesFit s1 := .ite h.startFrame h
    exact .ite h1.ethBytes.endFrame h1.ethBytes

theorem QueuesFit.regEntry {write : Bool} {entry : List Byte} (h : QueuesFit s) :
    QueuesFit (s.regEntry who write entry).1 :=
  .iteFst h.regWrite h.regRead

theorem QueuesFit.regEntries {write : Bool} {l : List (List Byte)} (h : QueuesFit s) :
    QueuesFit (State.regEntries who write l s).1 := by
  induction l generalizing s with
  | nil => exact h
  | cons x t ih => exact ih h.regEntry

theorem QueuesFit.regsNow {a : Asker} {write : Bool} {b : List Byte} (h : QueuesFit s) :
    QueuesFit (s.regsNow r a write b) :=
  .ite h.replyStatus h.regEntries.reply

theorem QueuesFit.invokeNow {a : Asker} {stamp : DWord} {b : List Byte} (h : QueuesFit s) :
    QueuesFit (s.invokeNow r a stamp b) := by
  unfold State.invokeNow
  extract_lets slot
  split
  · exact h.replyStatus
  · exact .ite h.replyStatus (.ite h.replyStatus (.ite h.replyStatus h.onRing))

theorem QueuesFit.memReadNow {a : Asker} {b : List Byte} (h : QueuesFit s) : QueuesFit (s.memReadNow r a b) := by
  unfold State.memReadNow
  extract_lets addr n
  split
  · exact h.replyStatus
  · split
    · exact h.replyStatus
    · split
      · exact h.replyStatus
      · split
        · exact .reply (.of_eq ‹_› h.bufRead)
        · exact .replyStatus (.of_eq ‹_› h.bufRead)

theorem QueuesFit.frameTimeNow {e : Fin 8} {stamp : DWord} {b : List Byte} (h : QueuesFit s) :
    QueuesFit (s.frameTimeNow r e stamp b) := by
  unfold State.frameTimeNow
  extract_lets n
  split
  · exact .ite h.holdTime h.epCount
  · exact h.epCount

theorem QueuesFit.resultReadNow {a : Asker} {b : List Byte} (h : QueuesFit s) : QueuesFit (s.resultReadNow r a b) :=
  .ite h.replyStatus (.ite h.replyStatus h.readResult)

theorem QueuesFit.resultReleaseNow {a : Asker} {b : List Byte} (h : QueuesFit s) : QueuesFit (s.resultReleaseNow r a b) :=
  .ite h.replyStatus (.ite h.replyStatus h.releaseSlot.replyStatus)

theorem QueuesFit.pageAckNow {e : Fin 8} {b : List Byte} (h : QueuesFit s) : QueuesFit (s.pageAckNow r e b) := by
  unfold State.pageAckNow
  split
  · exact .ite h.pageAcked h
  · exact h

theorem QueuesFit.pageNakNow {e : Fin 8} {b : List Byte} (h : QueuesFit s) : QueuesFit (s.pageNakNow r e b) := by
  unfold State.pageNakNow
  split
  · exact .ite h (.ite h.outFailed (.ite h.endMove.settleSwap h.loseContext))
  · exact h

theorem QueuesFit.pageDataNow {e : Fin 8} {b : List Byte} (h : QueuesFit s) : QueuesFit (s.pageDataNow r e b) := by
  unfold State.pageDataNow
  split
  · exact .ite h (.ite h.inFailed h.pageCame)
  · exact h

theorem QueuesFit.handle {e : Fin 8} {m : Reassembly} {plain : Bool} {b : List Byte} (h : QueuesFit s) :
    QueuesFit (s.handle r e m plain b) := by
  unfold State.handle
  extract_lets a
  split
  · exact h.regsNow
  · exact h.regsNow
  · exact h.invokeNow
  · exact h.memReadNow
  · exact h.frameTimeNow
  · exact h.resultReadNow
  · exact h.resultReleaseNow
  · exact h.pageAckNow
  · exact h.pageNakNow
  · exact h.pageDataNow
  · exact h.quoteNow
  · exact h.keyWrapNow
  · exact h

theorem QueuesFit.goOn {x : Fin 64} {m : Reassembly} {act : State → State} (h : QueuesFit s)
    (hact : ∀ x0, QueuesFit x0 → QueuesFit (act x0)) : QueuesFit (s.goOn x m act) :=
  .ite (hact _ h.dropReasm) h.keepReasm

theorem QueuesFit.chunk {e : Fin 8} {m0 : Reassembly} {f : Frame} {first : Bool} (h : QueuesFit s) :
    QueuesFit (s.chunk r e m0 f first) := by
  unfold State.chunk
  extract_lets x o m
  split
  · exact .goOn (.paramData (.iteFst h.paramFirst h)) (fun _ h => h.paramEnd)
  · exact h.samplePart.goOn (fun _ h => h)
  · exact .ite h.streamPart.dropReasm h.streamPart.keepReasm
  · exact h.goOn (fun _ h => h.handle)

theorem QueuesFit.abandonMsg {e : Fin 8} {m : Reassembly} (h : QueuesFit s) : QueuesFit (s.abandonMsg r e m) := by
  unfold State.abandonMsg
  extract_lets s1
  split
  · exact .ite h.dropReasm h.dropReasm.replyStatus
  · split
    · exact h.dropReasm.sampleStale
    · exact h.dropReasm
  · split
    · exact h.dropReasm.endFrame
    · exact h.dropReasm
  · split
    · exact .ite h.dropReasm h.dropReasm.inFailed
    · exact h.dropReasm
  · exact h.dropReasm

theorem QueuesFit.endStreams {x : Fin 64} {type : Byte} (h : QueuesFit s) : QueuesFit (s.endStreams x type) := .ite h.onEp h

theorem QueuesFit.beginMsg {e : Fin 8} {type : Byte} {f : Frame} (h : QueuesFit s) : QueuesFit (s.beginMsg r e type f) := by
  unfold State.beginMsg
  extract_lets x m s1
  have h1 : QueuesFit s1 := by
    unfold s1
    split
    · exact h.abandonMsg
    · exact h
  exact .ite h.epCount (.ite (.epCount (.ite h1.replyStatus h1)) h1.onEp.endStreams.chunk)

theorem QueuesFit.identify {e : Fin 8} {type : Byte} {f : Frame} (h : QueuesFit s) : QueuesFit (s.identify r e type f) := by
  unfold State.identify
  extract_lets x d
  split
  · split
    · exact h.chunk
    · exact .epCount (.ite h.replyStatus h)
  · exact .ite h.beginMsg h.epCount

theorem QueuesFit.acceptFrame {x : Fin 64} {type : Byte} {f : Frame} (h : QueuesFit s) :
    QueuesFit (s.acceptFrame x type f) := by
  unfold State.acceptFrame
  extract_lets s1
  have h1 : QueuesFit s1 := h.epCount.takePeer.identify
  exact .ite h1.wakeUp h1

theorem QueuesFit.noteNumber {f : Frame} {e : Fin 64} (h : QueuesFit s) : QueuesFit (s.noteNumber f e) := .ite h.onEp h

theorem QueuesFit.frameIn {type : Byte} {f : Frame} (h : QueuesFit s) : QueuesFit (s.frameIn type f) := by
  unfold State.frameIn
  split
  · exact h
  · exact h.ethCount.ethCount
  · exact h.noteNumber.ethCount.epCount
  · exact h.ethCount
  · exact h.noteNumber.ethCount.acceptFrame

theorem NextFits.execRegRead {f : Frame} (h : QueuesFit s) : NextFits (execRegRead f s) := h.frameIn.nextFits

theorem NextFits.execRegWrite {f : Frame} (h : QueuesFit s) : NextFits (execRegWrite f s) := h.frameIn.nextFits

theorem NextFits.execInvoke {f : Frame} (h : QueuesFit s) : NextFits (execInvoke f s) := h.frameIn.nextFits

theorem NextFits.execParamWrite {f : Frame} (h : QueuesFit s) : NextFits (execParamWrite f s) := h.frameIn.nextFits

theorem NextFits.execMemRead {f : Frame} (h : QueuesFit s) : NextFits (execMemRead f s) := h.frameIn.nextFits

theorem NextFits.execSampleData {f : Frame} (h : QueuesFit s) : NextFits (execSampleData f s) := h.frameIn.nextFits

theorem NextFits.execStreamData {f : Frame} (h : QueuesFit s) : NextFits (execStreamData f s) := h.frameIn.nextFits

theorem NextFits.execFrameTime {f : Frame} (h : QueuesFit s) : NextFits (execFrameTime f s) := h.frameIn.nextFits

theorem NextFits.execResultRead {f : Frame} (h : QueuesFit s) : NextFits (execResultRead f s) := h.frameIn.nextFits

theorem NextFits.execResultRelease {f : Frame} (h : QueuesFit s) : NextFits (execResultRelease f s) := h.frameIn.nextFits

theorem NextFits.execPageAck {f : Frame} (h : QueuesFit s) : NextFits (execPageAck f s) := h.frameIn.nextFits

theorem NextFits.execPageNak {f : Frame} (h : QueuesFit s) : NextFits (execPageNak f s) := h.frameIn.nextFits

theorem NextFits.execPageData {f : Frame} (h : QueuesFit s) : NextFits (execPageData f s) := h.frameIn.nextFits

theorem NextFits.execQuoteRequest {f : Frame} (h : QueuesFit s) : NextFits (execQuoteRequest f s) := h.frameIn.nextFits

theorem NextFits.execKeyWrap {f : Frame} (h : QueuesFit s) : NextFits (execKeyWrap f s) := h.frameIn.nextFits

theorem NextFits.execReassemblyTimeout {ring endpoint : Fin 8} {msgId : BitVec 16} (h : QueuesFit s) :
    NextFits (execReassemblyTimeout ring endpoint msgId s) := by
  unfold Machine.execReassemblyTimeout
  refine QueuesFit.nextFits ?_
  split
  · exact h.abandonMsg
  · exact h

/-! ## Machine/Ethernet -/

theorem QueuesFit.mkaTakes {e : Fin 64} {live newSak : Bool} (h : QueuesFit s) : QueuesFit (s.mkaTakes e live newSak) :=
  .ite h (.ite h.onEp.setFld.pumpEp h.setFld)

theorem NextFits.execMkaFrame {f : Frame} {effect : MkaEffect} (h : QueuesFit s) : NextFits (execMkaFrame f effect s) := by
  unfold Machine.execMkaFrame
  refine QueuesFit.nextFits ?_
  split
  · exact h.ethCount.mkaTakes
  · exact h.frameIn

theorem QueuesFit.sendMkpdu {e : Fin 64} (h : QueuesFit s) : QueuesFit (s.sendMkpdu e) := h.toWire.onEp

theorem NextFits.execMkaHelloTime {ring endpoint : Fin 8} (h : QueuesFit s) : NextFits (execMkaHelloTime ring endpoint s) :=
  QueuesFit.nextFits (.ite h.sendMkpdu h)

theorem NextFits.execMkaLifeTimeExpiry {ring endpoint : Fin 8} (h : QueuesFit s) :
    NextFits (execMkaLifeTimeExpiry ring endpoint s) :=
  QueuesFit.nextFits (.ite h.setFld h)

theorem QueuesFit.unpause {p : Fin 4} (h : QueuesFit s) : QueuesFit (s.unpause p) := h.setFld.pumpPortEps

theorem NextFits.execPauseFrame {port : Fin 4} {quanta : BitVec 16} (h : QueuesFit s) :
    NextFits (execPauseFrame port quanta s) :=
  QueuesFit.nextFits (.ite h (.ite h.ethCount.unpause h.ethCount.setFld))

theorem NextFits.execPauseTimeExpiry {port : Fin 4} (h : QueuesFit s) : NextFits (execPauseTimeExpiry port s) :=
  h.unpause.nextFits

theorem NextFits.execEthPortLink {port : Fin 4} {up : Bool} {quality : Fin 8} (h : QueuesFit s) :
    NextFits (execEthPortLink port up quality s) :=
  QueuesFit.nextFits (.ite h.setFld.setFld h)

theorem NextFits.execEthFrameDrop {f : Frame} {type : Byte} {full : Bool} (h : QueuesFit s) :
    NextFits (execEthFrameDrop f type full s) := by
  unfold Machine.execEthFrameDrop
  refine QueuesFit.nextFits ?_
  split
  · exact h
  · exact .ite h.ethCount.ethCount h.ethCount.ethCount
  · exact .ite h.ethCount.ethCount h.ethCount.epCount
  · exact .ite h.ethCount.ethCount h
  · exact .ite h.ethCount.ethCount h

theorem QueuesFit.setInboundRead {n : Nat} (h : QueuesFit s) : QueuesFit (s.setInboundRead n) := h.ownWrite

theorem QueuesFit.takeEntry {read : Nat} (h : QueuesFit s) : QueuesFit (s.takeEntry read) :=
  .ite h.ownRead.setInboundRead h.ownRead.ownRead.setInboundRead.frameIn

theorem QueuesFit.takeEntries {fuel : Nat} (h : QueuesFit s) : QueuesFit (State.takeEntries fuel s) := by
  induction fuel generalizing s with
  | zero => exact h
  | succ fuel ih =>
    rw [State.takeEntries]
    have h1 := h.intLine (o := 0)
    split
    next hline =>
    rw [hline] at h1
    exact .ite h1 (ih h1.takeEntry)

theorem NextFits.execIntInboundPoll (h : QueuesFit s) : NextFits (execIntInboundPoll s) :=
  QueuesFit.nextFits (.ite h.takeEntries h)

theorem NextFits.execIntOutboundReadAdvance {read : Word} (h : QueuesFit s) :
    NextFits (execIntOutboundReadAdvance read s) :=
  QueuesFit.nextFits (.ite (h.ownWrite.foldl (fun _ _ h => .ite h.pumpEp h)) h)

/-! ## Machine/FlashOps -/

theorem QueuesFit.pageAppended {job : FlashJob} {area pg : Nat} {rest : List (List Byte)} {next : AppendNext}
    (h : QueuesFit s) : QueuesFit (s.pageAppended job area pg rest next) :=
  .ite h.dropJob.afterAppend h.replaceJob

theorem QueuesFit.blockCopied {src dst : Nat} (h : QueuesFit s) : QueuesFit (s.blockCopied src dst) := h.readPages.copyBlock

theorem QueuesFit.refreshDone {b : Nat} {rescue : Bool} {op : FlashStep} (h : QueuesFit s) :
    QueuesFit (s.refreshDone b rescue op) := by
  unfold State.refreshDone
  extract_lets job finish
  split
  · exact .ite (.ite h.update.dropJob.retireBlock h.update.dropJob) h
  · exact .ite (.ite h.dropJob.retireBlock h.dropJob) h
  · exact .ite (.ite h.dropJob.retireBlock h.dropJob) h

theorem QueuesFit.stepDone {job : FlashJob} {op : FlashStep} (h : QueuesFit s) : QueuesFit (s.stepDone job op) := by
  unfold State.stepDone
  split
  · exact h.dropJob.showSlots.afterHeader
  · exact h
  · exact h.dropJob
  · exact h
  · exact h.pageAppended
  · exact h
  · exact h.dropJob
  · exact h.refreshDone

theorem QueuesFit.programFailed {job : FlashJob} {pg : Nat} {tag : BitVec 192} {bytes : List Byte} (h : QueuesFit s) :
    QueuesFit (s.programFailed job pg tag bytes) := by
  unfold State.programFailed
  extract_lets b area
  split
  · exact h.copyBlock.programPage.stepDone.retireBlock
  · exact h.retireBlock

theorem QueuesFit.eraseFailed {job : FlashJob} {b : Nat} (h : QueuesFit s) : QueuesFit (s.eraseFailed job b) := by
  unfold State.eraseFailed
  split
  · exact h.dropJob.retireBlock
  · exact .retireBlock (.ite h.dropJob h)
  · exact h.retireBlock

theorem QueuesFit.wear {pg : Nat} {l : List (Nat × BitVec 10)} (h : QueuesFit s) : QueuesFit (s.wear pg l) := h.update

theorem QueuesFit.flashIdle (h : QueuesFit s) : QueuesFit s.flashIdle := h.update

theorem QueuesFit.opDone {x : FlashOp} (h : QueuesFit s) : QueuesFit (s.opDone x) := by
  unfold State.opDone
  split
  · exact h.wear.readEnds.flashIssue
  · split
    · split
      · exact .flashIssue (.ite h.flashIdle.programPage.stepDone h.flashIdle.programFailed)
      · exact h
    · exact .ite (.flashIssue (.ite h.flashIdle.blockCopied.stepDone h.flashIdle.retireBlock)) h
    · exact h
  · split
    · split
      · exact .flashIssue (.ite h.flashIdle.eraseOrRetire.stepDone h.flashIdle.eraseFailed)
      · exact h
    · exact h

theorem NextFits.execFlashOpDone {op : FlashOp} (h : QueuesFit s) : NextFits (execFlashOpDone op s) :=
  .ite h.opDone.nextFits nextFits_fault

theorem QueuesFit.resumeWrites (h : QueuesFit s) : QueuesFit s.resumeWrites := by
  unfold State.resumeWrites
  extract_lets _ s1 _ s2
  have h1 : QueuesFit s1 := h.update.showInhibit
  have h2 : QueuesFit s2 := .ite h1.update.log h1
  exact h2.flashIssue

theorem NextFits.execFlashWriteResume (h : QueuesFit s) : NextFits (execFlashWriteResume s) :=
  QueuesFit.nextFits (.ite h h.resumeWrites)

theorem NextFits.execPwrWarnAssert (h : QueuesFit s) : NextFits (execPwrWarnAssert s) := h.update.showInhibit.nextFits

theorem NextFits.execPwrWarnDeassert (h : QueuesFit s) : NextFits (execPwrWarnDeassert s) :=
  QueuesFit.nextFits (.ite h.update.showInhibit h)

theorem NextFits.execVddIo18WriteInhibit (h : QueuesFit s) : NextFits (execVddIo18WriteInhibit s) :=
  h.update.showInhibit.nextFits

theorem QueuesFit.writeCut {job : FlashJob} (h : QueuesFit s) : QueuesFit (s.writeCut job) := by
  unfold State.writeCut
  split
  · exact h.failInstall
  · exact h.dropJob.recordDone
  · exact h.dropJob.afterAppend
  · exact h

theorem QueuesFit.floorCut (h : QueuesFit s) : QueuesFit s.floorCut := by
  unfold State.floorCut
  split
  · exact h
  · exact h.cutFlash.bump.setFld.writeCut

theorem NextFits.execFlashFloorCutoff (h : QueuesFit s) : NextFits (execFlashFloorCutoff s) :=
  h.floorCut.update.showInhibit.nextFits

theorem QueuesFit.dropRecord (h : QueuesFit s) : QueuesFit s.dropRecord := .ite h.update.recordDone h

theorem NextFits.execFlashHoldTimeout (h : QueuesFit s) : NextFits (execFlashHoldTimeout s) :=
  QueuesFit.nextFits (.ite (.dropRecord (.ite h.failInstall h)) h)

/-! ## Machine/Pins -/

theorem NextFits.execWakeNAssert (h : QueuesFit s) : NextFits (execWakeNAssert s) :=
  QueuesFit.nextFits (.ite queuesFit_coldReset.startUp (.ite h.wakeUp h))

theorem NextFits.execRailDetectFall {rail : Rail} (h : QueuesFit s) : NextFits (execRailDetectFall rail s) :=
  QueuesFit.nextFits (.ite h (.ite queuesFit_coldReset (.ite h.update queuesFit_resetDevice)))

theorem NextFits.execRailDetectClear {rail : Rail} (h : QueuesFit s) : NextFits (execRailDetectClear rail s) :=
  QueuesFit.nextFits (.ite h (.ite h.update h.update.startUp))

theorem NextFits.execRefclkWindow {edges : Nat} (h : QueuesFit s) : NextFits (execRefclkWindow edges s) := by
  unfold Machine.execRefclkWindow
  refine QueuesFit.nextFits ?_
  split
  · exact h
  · split
    · exact .ite h.update (.ite h.update h.update.startUp)
    · exact .ite h.update (.ite h.update queuesFit_resetDevice)

theorem QueuesFit.tapNow {ir : Byte} (h : QueuesFit s) : QueuesFit (s.tapNow ir) := .ite h.update.update.startUp h.update

theorem QueuesFit.tapLoad {ir : Byte} {condition : Bool} (h : QueuesFit s) : QueuesFit (s.tapLoad ir condition) :=
  .ite h h.tapNow

theorem NextFits.execTrstAssert (h : QueuesFit s) : NextFits (execTrstAssert s) := h.tapNow.nextFits

theorem NextFits.execExtest (h : QueuesFit s) : NextFits (execExtest s) := h.tapLoad.nextFits

theorem NextFits.execIdcode (h : QueuesFit s) : NextFits (execIdcode s) := h.tapLoad.nextFits

theorem NextFits.execSamplePreload (h : QueuesFit s) : NextFits (execSamplePreload s) := h.tapLoad.nextFits

theorem NextFits.execHighz (h : QueuesFit s) : NextFits (execHighz s) := h.tapLoad.nextFits

theorem NextFits.execClamp (h : QueuesFit s) : NextFits (execClamp s) := h.tapLoad.nextFits

theorem NextFits.execExtestPulse (h : QueuesFit s) : NextFits (execExtestPulse s) := h.tapLoad.nextFits

theorem NextFits.execExtestTrain (h : QueuesFit s) : NextFits (execExtestTrain s) := h.tapLoad.nextFits

theorem NextFits.execPrivateDebug {code : Byte} (h : QueuesFit s) : NextFits (execPrivateDebug code s) := h.tapLoad.nextFits

theorem NextFits.execBypass (h : QueuesFit s) : NextFits (execBypass s) := h.tapLoad.nextFits

/-! ## Machine/Unfold -/

theorem CoreFits.putChunk {f : ArrFmt} {dest : UnfoldDest} {j : Nat} {image exps : List PByte} (hk : CoreFits k) :
    CoreFits (putChunk f dest j image exps k) := by
  unfold Machine.putChunk
  split
  · exact hk.opPut.opPut
  · exact hk.corePut.corePut

theorem QueuesFit.unfoldGo {g : Geom} {p0 gw nl : Nat} {dest : UnfoldDest} {marks : BitVec 16} {done : Completion}
    {chunks : List (List (List Tap))} (h : QueuesFit s) : QueuesFit (s.unfoldGo c tag g p0 gw nl dest marks done chunks) := by
  unfold State.unfoldGo
  extract_lets used s1 k images k1 k2 pads h0 padOnly s2 s3
  have hk1 : CoreFits k1 := by
    refine CoreFits.foldl h.touch.core fun k' j hk => ?_
    split
    · exact hk.putChunk
    · exact hk
  have hk2 : CoreFits k2 := by
    unfold k2
    split
    · exact hk1.corePut
    · exact hk1
    · exact hk1
  have h2 : QueuesFit s2 := h.touch.onMem fun _ _ => hk2.unfoldStarted
  have h3 : QueuesFit s3 := .ite h2.setFld h2
  exact h3.bump.bump

theorem QueuesFit.unfoldNow {e : Eng} {geom p0 gw k0 nl : Nat} {dest : UnfoldDest} {marks : BitVec 16} {done : Completion}
    (h : QueuesFit s) : QueuesFit (s.unfoldNow r e geom p0 gw k0 nl dest marks done) := by
  unfold State.unfoldNow
  extract_lets c
  refine .readRecords h fun _ _ h => ?_
  extract_lets b g
  split
  · exact h.geomRefuse
  · exact .ite h.unfoldFault (.ite h.unfoldFault h.unfoldGo)

theorem NextFits.execUnfold {e : Eng} {geom p0 gw k0 nl : Nat} {dest : UnfoldDest} {marks : BitVec 16} {done : Completion}
    (h : QueuesFit s) : NextFits (execUnfold e geom p0 gw k0 nl dest marks done s) :=
  .ite nextFits_refused (.onForm (h.fillCommand (fun _ _ h => h.unfoldNow)))

theorem QueuesFit.poolGo {g d : Geom} {isMin : Bool} {rows : List Nat} {reads : List (Nat × Nat)} {done : Completion}
    (h : QueuesFit s) : QueuesFit (s.poolGo r c tag g d isMin rows reads done) := by
  unfold State.poolGo
  extract_lets s1 k ps nan padOnly mismatch single k1 s2 s3 s4
  have h1 : QueuesFit s1 := h.touch
  have hk : CoreFits k1 := h1.core.putAll
  have h2 : QueuesFit s2 := (h1.onMem fun _ _ => hk.unfoldStarted).freeLines
  have h3 : QueuesFit s3 := .ite h2.setFld h2
  have h4 : QueuesFit s4 := .ite h3.setFld h3
  exact .ite h1.poisoned (.ite h4.setFld.setReg.trace h4)

theorem QueuesFit.poolNow {e : Eng} {src dst : Nat} {isMin : Bool} {row0 rows : Nat} {done : Completion} (h : QueuesFit s) :
    QueuesFit (s.poolNow r e src dst isMin row0 rows done) := by
  unfold State.poolNow
  extract_lets c
  refine .readRecords h fun _ _ h => ?_
  extract_lets a b
  split
  · exact h.geomRefuse
  · exact .ite h.unfoldFault (.ite h.unfoldFault h.poolGo)

theorem NextFits.execPool {e : Eng} {src dst : Nat} {isMin : Bool} {row0 rows : Nat} {done : Completion} (h : QueuesFit s) :
    NextFits (execPool e src dst isMin row0 rows done s) :=
  .ite nextFits_refused (.onForm (h.fillCommand (fun _ _ h => h.poolNow)))

theorem QueuesFit.resampleGo {x : Resample} {coord : Core → Nat → Nat → Coord} {done : Completion} (h : QueuesFit s) :
    QueuesFit (s.resampleGo r c tag x coord done) := by
  unfold State.resampleGo
  extract_lets s1 s2 k
  have h1 : QueuesFit s1 := h.touch
  have h2 : QueuesFit s2 := h1.touch
  refine .ite h.unfoldFault (.ite h1.unfoldFault (.ite h2.unfoldFault ?_))
  exact (h2.onMem fun _ _ => h2.core.putAll.unfoldStarted).freeLines

theorem QueuesFit.resampleNow {e : Eng} {src dst : Nat} {bilinear : Option Bilinear} {warp : Option WarpSrc}
    {coord : Geom → Geom → Core → Nat → Nat → Coord} {row0 rows : Nat} {done : Completion} (h : QueuesFit s) :
    QueuesFit (s.resampleNow r e src dst bilinear warp coord row0 rows done) := by
  unfold State.resampleNow
  refine .readRecords h fun _ _ h => ?_
  extract_lets a b
  split
  · exact h.geomRefuse
  · exact h.resampleGo

theorem NextFits.execResize {e : Eng} {src dst : Nat} {bilinear : Option Bilinear} {corners : Bool} {row0 rows : Nat}
    {done : Completion} (h : QueuesFit s) : NextFits (execResize e src dst bilinear corners row0 rows done s) :=
  .ite nextFits_refused (.onForm (h.fillCommand (fun _ _ h => h.resampleNow)))

theorem NextFits.execCrop {e : Eng} {src dst : Nat} {y0 x0 : Int} {row0 rows : Nat} {done : Completion} (h : QueuesFit s) :
    NextFits (execCrop e src dst y0 x0 row0 rows done s) :=
  .ite nextFits_refused (.onForm (h.fillCommand (fun _ _ h => h.resampleNow)))

theorem NextFits.execWarp {e : Eng} {src dst : Nat} {bilinear : Option Bilinear} {coords : WarpSrc} {row0 rows : Nat}
    {done : Completion} (h : QueuesFit s) : NextFits (execWarp e src dst bilinear coords row0 rows done s) :=
  .ite nextFits_refused (.onForm (h.fillCommand (fun _ _ h => h.resampleNow)))

theorem NextFits.execUnfoldComplete {core : Fin 16} (h : QueuesFit s) : NextFits (execUnfoldComplete core s) := by
  unfold Machine.execUnfoldComplete
  refine QueuesFit.nextFits ?_
  split
  · exact h.engineDone (fun _ _ hk => hk.update)
  · exact h

end Sys2Proof.Machine
end

section
/-! SUPPORT. Every instruction, and so every step, keeps the depths of the queues. And the statement about every step. -/

namespace Sys2Proof.Machine

set_option Elab.async false
variable {β : Type} {s : State} {k : Core} {r : Fin 8} {c : Fin 16} {tag : Tag} {who : Who}

/-! ## Machine/Dispatch -/

theorem NextFits.exec {i : Instr} (h : QueuesFit s) : NextFits (exec i s) := by
  unfold Machine.exec
  split
  · exact .execStep h
  · exact .execDrain h
  · exact .execAccLoad h
  · exact .execLoop h
  · exact .execEndloop h
  · exact .execSkip h
  · exact .execPush h
  · exact .execPop h
  · exact .execWait h
  · exact .execSet h
  · exact .execClear h
  · exact .execIdle h
  · exact .execMark h
  · exact .execEndStream h
  · exact .execRelease h
  · exact .execHint h
  · exact .execVload h
  · exact .execVstore h
  · exact .execVop h
  · exact .execVfma h
  · exact .execVconv h
  · exact .execVfunc h
  · exact .execVreduce h
  · exact .execVlatch h
  · exact .execRequant h
  · exact .execScaleClose h
  · exact .execScaleSet h
  · exact .execDma h
  · exact .execDmaComplete h
  · exact .execUnfold h
  · exact .execPool h
  · exact .execResize h
  · exact .execCrop h
  · exact .execWarp h
  · exact .execUnfoldComplete h
  · exact .execStride h
  · exact .execTranspose h
  · exact .execFill h
  · exact .execCopy h
  · exact .execStoreComplete h
  · exact .execGatherFlushIdle h
  · exact .execCrossingDeliver h
  · exact .execStallFault h
  · exact .execInvocationStart h
  · exact .execInvocationEnd h
  · exact .execRingStart h
  · exact .execRingLoadComplete h
  · exact .execRingPark h
  · exact .execParkComplete h
  · exact .execParkTimeout h
  · exact .execRingResume h
  · exact .execRingStop h
  · exact .execStopComplete h
  · exact .execFlagWriteSet h
  · exact .execFlagWriteClear h
  · exact .execCtxOpen h
  · exact .execCtxClose h
  · exact .execCtxPrefetch h
  · exact .execCtxEvict h
  · exact .execSeqAdmit h
  · exact .execSwapOutPageDone h
  · exact .execSwapInPageDone h
  · exact .execPageAck h
  · exact .execPageNak h
  · exact .execPageData h
  · exact .execPageAnswerTimeout h
  · exact .execCsiFrameStart h
  · exact .execCsiLongPacket h
  · exact .execCsiEmbeddedData h
  · exact .execCsiFrameEnd h
  · exact .execCsiSotError h
  · exact .execFrameEndTimeout h
  · exact .execTsWaitExpiry h
  · exact .execFrameDeliver h
  · exact .execStreamEnable h
  · exact .execStreamDisable h
  · exact .execStreamDisableDone h
  · exact .execStreamCommit h
  · exact .execCdcOpen h
  · exact .execCdcClose h
  · exact .execEncodeUnitDone h
  · exact .execDecodeUnit h
  · exact .execSmpOpen h
  · exact .execSmpClose h
  · exact .execSampleData h
  · exact .execSampleTake h
  · exact .execSampleDeliver h
  · exact .execSampleLate h
  · exact .execSampleChunkTimeout h
  · exact .execRegRead h
  · exact .execRegWrite h
  · exact .execRegisterWrite h
  · exact .execInvoke h
  · exact .execParamWrite h
  · exact .execMemRead h
  · exact .execStreamData h
  · exact .execFrameTime h
  · exact .execResultRead h
  · exact .execResultRelease h
  · exact .execResult h
  · exact .execResultNotice h
  · exact .execRstreamEnable h
  · exact .execRstreamDisable h
  · exact .execReassemblyTimeout h
  · exact .execMkaFrame h
  · exact .execPauseFrame h
  · exact .execIntInboundPoll h
  · exact .execQuoteRequest h
  · exact .execKeyWrap h
  · exact .execTrapezeWrite h
  · exact .execTrapezeRead h
  · exact .execReadData h
  · exact .execWriteAck h
  · exact .execLink h
  · exact .execReplayTimeout h
  · exact .execLinkAckTimer h
  · exact .execPortTrained h
  · exact .execHello h
  · exact .execNumberingStart h
  · exact .execNumber h
  · exact .execNumbered h
  · exact .execNumberedTimeout h
  · exact .execSystem h
  · exact .execDetach h
  · exact .execRenumber h
  · exact .execRediscover h
  · exact .execQuoteRelay h
  · exact .execQuoteRelayTimeout h
  · exact .execWindowOpen h
  · exact .execWindowClose h
  · exact .execWindowCloseDone h
  · exact .execRemoteTimeout h
  · exact nextFits_execPoresetAssert
  · exact .execPoresetDeassert h
  · exact nextFits_execSysresetAssert
  · exact .execSysresetDeassert h
  · exact .execBoothBringUp h
  · exact .execSafetyNetExpiry h
  · exact .execConfirm h
  · exact .execRestart h
  · exact .execInstall h
  · exact .execInstallComplete h
  · exact .execRomRead h
  · exact .execAnnounce h
  · exact .execBegin h
  · exact .execData h
  · exact .execEndRecoveryImage h
  · exact .execRecoverySessionTimeout h
  · exact .execWriteRecord h
  · exact .execFlashOpDone h
  · exact .execFlashScan h
  · exact .execLogPageProgram h
  · exact .execFlashWriteResume h
  · exact .execFlashFloorCutoff h
  · exact .execFlashHoldTimeout h
  · exact .execPowerLoop h
  · exact .execThermalLoop h
  · exact .execHintHandler h
  · exact .execHintPhaseEnd h
  · exact .execVoltageSettled h
  · exact .execDroopDetect h
  · exact .execDroopRecover h
  · exact .execCurrentLimit h
  · exact .execThermalEmergency h
  · exact .execThermalRecover h
  · exact .execThermalCritical h
  · exact .execLockstepMismatch h
  · exact .execBoothReloadDone h
  · exact .execAgeingSample h
  · exact .execTrimWrite h
  · exact .execUpdateLoad h
  · exact .execUpdateLoadDone h
  · exact .execUpdateActivate h
  · exact .execUpdateDiscard h
  · exact .execBoothSwitch h
  · exact .execSwitchReadyTimeout h
  · exact .execActivateTimeout h
  · exact .execDramRead h
  · exact .execDramWrite h
  · exact .execDramRefresh h
  · exact .execDramTempPoll h
  · exact .execEcsCollect h
  · exact .execDramScrub h
  · exact .execMwyScrub h
  · exact .execInstallToken h
  · exact .execEndDebug h
  · exact .execDeploy h
  · exact .execReturnDevice h
  · exact .execScrap h
  · exact .execSecRequestTimeout h
  · exact .execStandby h
  · exact .execDeepStandby h
  · exact .execKeyGenDone h
  · exact .execWakeNAssert h
  · exact .execPwrWarnAssert h
  · exact .execPwrWarnDeassert h
  · exact .execRailDetectFall h
  · exact .execRailDetectClear h
  · exact .execRefclkWindow h
  · exact .execTrstAssert h
  · exact .execExtest h
  · exact .execIdcode h
  · exact .execSamplePreload h
  · exact .execHighz h
  · exact .execClamp h
  · exact .execExtestPulse h
  · exact .execExtestTrain h
  · exact .execPrivateDebug h
  · exact .execBypass h
  · exact .execDbgHalt h
  · exact .execDbgStep h
  · exact .execDbgResume h
  · exact .execDbgAccRead h
  · exact .execDbgAccWrite h
  · exact .execFaultPop h
  · exact .execTraceStreamTimeout h
  · exact .execSyncMarker h
  · exact .execEthFrameDrop h
  · exact .execPauseTimeExpiry h
  · exact .execMkaHelloTime h
  · exact .execMkaLifeTimeExpiry h
  · exact .execEthPortLink h
  · exact .execCsiEccBad h
  · exact .execSmpDecode h
  · exact .execTrapezeBadPacket h
  · exact .execCurrentLimitClear h
  · exact .execVddIo18WriteInhibit h
  · exact .execVddAonStoreHold h
  · exact .execIntOutboundReadAdvance h

/-! ## Machine/Step -/

theorem NextFits.step (h : QueuesFit s) : NextFits (step s) := by
  unfold Machine.step
  split
  · exact h.idleTick.nextFits
  · exact .exec h.update

/-- Settles O55: the depths hold of the next state of every instruction, by the lemma of each, and of an idle tick. -/
theorem everyStepKeepsQueuesWithinTheirDepth : Obligations.EveryStepKeepsQueuesWithinTheirDepth := by
  unfold Obligations.EveryStepKeepsQueuesWithinTheirDepth
  intro s t h hst
  exact NextFits.step h t hst

end Sys2Proof.Machine
end

section
/-! SUPPORT. A tick with nothing in the queue (R25, log 1). And the statement about it. -/

namespace Sys2Proof.Machine

/-- `t` differs from `s` in registers, in the booth's own state and in what is left of the safety net only. -/
def OnlyTallies (s t : State) : Prop := t = { s with regs := t.regs, power := t.power, boot := t.boot }

theorem OnlyTallies.trans {s t u : State} (h : OnlyTallies s t) (g : OnlyTallies t u) : OnlyTallies s u := by
  unfold OnlyTallies at *
  rw [g, h]

/-- What is counted and held elsewhere stays. -/
theorem OnlyTallies.keeps {s t : State} (h : OnlyTallies s t) : t.cycles = s.cycles ∧ t.cores = s.cores ∧
    t.rings = s.rings ∧ t.mwy = s.mwy ∧ t.dram = s.dram ∧ t.flash = s.flash ∧ t.pending = s.pending := by
  rw [h]
  exact ⟨rfl, rfl, rfl, rfl, rfl, rfl, rfl⟩

theorem onlyTallies_microsecond (s : State) (r : Fin 8) : OnlyTallies s (s.microsecond r) := by
  unfold State.microsecond
  split
  · rfl
  · split
    · split
      · rfl
      · rfl
    · split
      · rfl
      · rfl

theorem onlyTallies_timed (s : State) : OnlyTallies s s.timed := by
  have hrings : OnlyTallies s ((List.finRange 8).foldl State.microsecond s) :=
    foldl_keeps (P := OnlyTallies s) (fun t r ht => ht.trans (onlyTallies_microsecond t r)) _ s rfl
  unfold State.timed
  extract_lets s1
  have h1 : OnlyTallies s s1 := by
    unfold s1
    split
    · exact hrings
    · rfl
  split
  · exact h1.trans rfl
  · exact h1

theorem count_ticked (s : State) (i : Fin 43) :
    s.ticked.count i = if s.clockRuns i then s.count i + 1 else s.count i := by
  simp [State.ticked, State.count]

theorem ticked_keeps (s : State) : s.ticked.cores = s.cores ∧ s.ticked.rings = s.rings ∧ s.ticked.mwy = s.mwy ∧
    s.ticked.dram = s.dram ∧ s.ticked.flash = s.flash ∧ s.ticked.pending = s.pending := by
  simp [State.ticked]

/-- Settles O2: the tick counts the islands that run, and what it times beyond that stands in registers. -/
theorem idleStepCountsRunningIslands : Obligations.IdleStepCountsRunningIslands := by
  unfold Obligations.IdleStepCountsRunningIslands
  intro s hpending
  obtain ⟨hcores, hrings, hmwy, hdram, hflash, hrest⟩ := ticked_keeps s
  obtain ⟨tcycles, tcores, trings, tmwy, tdram, tflash, trest⟩ := (onlyTallies_timed s.ticked).keeps
  refine ⟨s.ticked.timed, ?_, fun i => ?_, tcores.trans hcores, trings.trans hrings, tmwy.trans hmwy, tdram.trans hdram,
    tflash.trans hflash, trest.trans (hrest.trans hpending)⟩
  · rw [step, hpending, idleTick]
  · rw [State.count, tcycles]
    exact count_ticked s i

end Sys2Proof.Machine
end

section
/-! SUPPORT. What an issue leaves of the core beside its queue, and what stands in the flags afterwards (R104, R126, R127);
what a RELEASE does to its mark (R135). And the statement about IDLE, MARK, END, HINT and RELEASE. -/

namespace Sys2Proof.Machine

/-! ## Forms and queues -/

theorem onForm_formOk {i : Instr} {mnemonic : String} {t : State} (h : formOk i = true) : onForm i mnemonic t = .next t :=
  if_pos h

theorem queue_onQueue (s : State) (c : Fin 16) (q : Fin 5) (f : EngineQueue → EngineQueue) :
    (s.onQueue c q f).queue c q = f (s.queue c q) := by
  simp [State.queue, State.onQueue]

theorem dq_onDq (s : State) (c : Fin 16) (n : Fin 8) (f : List DqEntry → List DqEntry) :
    (s.onDq c n f).dq c n = f (s.dq c n) := by
  simp [State.dq, State.onDq]

/-! ## Crossings -/

theorem core_crossPut (s : State) (x : Crossing) (o : CrossOp) (c : Fin 16) : (s.crossPut x o).core c = s.core c := by
  unfold State.crossPut
  split
  · rfl
  · rfl

theorem fld_crossPut (s : State) (x : Crossing) (o : CrossOp) (g : Reg) (f : Fld) : (s.crossPut x o).fld g f = s.fld g f := by
  unfold State.crossPut
  split
  · rfl
  · rfl

/-- What leaves the crossings alone is not seen in what they have taken. -/
theorem SameCrossings.sentOn {s t : State} (h : SameCrossings s t) (x : Crossing) : t.sentOn x = s.sentOn x := by
  obtain ⟨hcross, hheld⟩ := h
  rw [State.sentOn, State.sentOn, hcross, hheld]

theorem SameCrossings.sends {s s1 t : State} {x : Crossing} {o : CrossOp} (hs : SameCrossings s s1) (h : Sends s1 t x o) :
    Sends s t x o := by
  obtain ⟨hx, hother⟩ := h
  exact ⟨by rw [hx, hs.sentOn], fun y hy => by rw [hother y hy, hs.sentOn]⟩

theorem Sends.same {s t t1 : State} {x : Crossing} {o : CrossOp} (h : Sends s t x o) (ht : SameCrossings t t1) :
    Sends s t1 x o := by
  obtain ⟨hx, hother⟩ := h
  exact ⟨by rw [ht.sentOn, hx], fun y hy => by rw [ht.sentOn, hother y hy]⟩

theorem SameCrossings.onCore {s t : State} (h : SameCrossings s t) (c : Fin 16) (f : Core → Core) :
    SameCrossings s (t.onCore c f) := h

theorem sameCrossings_bump (s : State) (g : Reg) (f : Fld) (n : Nat) : SameCrossings s (s.bump g f n) := ⟨rfl, rfl⟩

/-! ## After an issue -/

section
variable {c : Fin 16} {s t : State}

theorem Issued.sameCrossings (h : Issued c s t) : SameCrossings s t := by
  rw [h.rest]
  exact ⟨rfl, rfl⟩

theorem Issued.mwy (h : Issued c s t) : t.mwy = s.mwy := by rw [h.rest]

theorem Issued.mem (h : Issued c s t) : (t.core c).mem = (s.core c).mem := by
  rw [h.core]
  rfl

theorem Issued.sameMarks (h : Issued c s t) : SameMarks (s.core c) (t.core c) := by
  rw [h.core]
  exact ⟨rfl, rfl, rfl⟩

end

theorem core_writesDue (s : State) (c : Fin 16) (u : Nat) : (s.writesDue c u).core c = s.core c := by
  unfold State.writesDue
  dsimp only
  split
  · rfl
  · rfl

theorem core_reachFlags (s : State) (c : Fin 16) (v : BitVec 64 × Bool) (p : FlagOp → Bool) :
    (s.reachFlags c v p).core c = { s.core c with flags := v.1, flagPend := (s.core c).flagPend.filter fun o => !p o } := by
  unfold State.reachFlags
  dsimp only
  split
  · simp
  · simp

theorem flagsBy_settle (u : Nat) (k : Core) : flagsBy u { settle u k with slot := u } = flagsBy u k := by
  unfold flagsBy
  rw [(settled_settle u k).rest]

/-- A core that has moved on to slot `u`: the operations that reach its flags by then have done so (R126). -/
theorem core_toSlot (s : State) (c : Fin 16) (u : Nat) : ((s.toSlot c u).core c).slot = u ∧
    ((s.toSlot c u).core c).flags = (flagsBy u (s.core c)).1 ∧
    ((s.toSlot c u).core c).flagPend = (s.core c).flagPend.filter fun o => !decide (o.slot ≤ u) := by
  unfold State.toSlot State.flagsTo
  rw [core_reachFlags, core_onCore, core_tick, core_writesDue, flagsBy_settle]
  refine ⟨rfl, rfl, ?_⟩
  dsimp only
  rw [(settled_settle u (s.core c)).rest]

theorem Traces.slot_flags {c : Fin 16} {s t : State} (h : Traces c s t) (d : Fin 16) :
    (t.core d).slot = (s.core d).slot ∧ (t.core d).flags = (s.core d).flags ∧ (t.core d).flagPend = (s.core d).flagPend := by
  rw [h.core d]
  exact ⟨rfl, rfl, rfl⟩

/-- What an issue of a command of the execute side leaves in the flags (R126, R127). -/
theorem flags_issueAt (s : State) (c : Fin 16) {q : Fin 5} (tag : Tag) (gap occ prog u : Nat) (hq : isExecQueue q = true) :
    ((s.issueAt c q tag gap occ prog u).core c).slot = u ∧
    ((s.issueAt c q tag gap occ prog u).core c).flags = (flagsBy u (s.core c)).1 ∧
    ((s.issueAt c q tag gap occ prog u).core c).flagPend = (s.core c).flagPend.filter fun o => !decide (o.slot ≤ u) := by
  obtain ⟨hslot, hflags, hpend⟩ := core_toSlot s c u
  unfold State.issueAt
  dsimp only
  obtain ⟨tslot, tflags, tpend⟩ := (traces_trace ((if isExecQueue q then s.toSlot c u else s).onQueue c q _) c evIssue tag
    q.val q.val).slot_flags c
  rw [tslot, tflags, tpend, if_pos hq, State.onQueue, core_onCore]
  exact ⟨hslot, hflags, hpend⟩

theorem isExecQueue_execQueue (vector : Bool) : isExecQueue (execQueue vector) = true := by
  cases vector
  · rfl
  · rfl

/-! ## RELEASE -/

theorem sameMarks_markPut (b : Buf) (region : Nat) (v : Bool) {k j : Core} (h : SameMarks k j) :
    SameMarks (markPut b region v k) (markPut b region v j) := by
  obtain ⟨hw, ha, hds⟩ := h
  cases b with
  | w => exact ⟨by simp [markPut, hw], ha, hds⟩
  | a => exact ⟨hw, by simp [markPut, ha], hds⟩
  | ds => exact ⟨hw, ha, by simp [markPut, hds]⟩

theorem markPut_flags (b : Buf) (region : Nat) (v : Bool) (k : Core) : (markPut b region v k).flags = k.flags ∧
    (markPut b region v k).flagPend = k.flagPend ∧ (markPut b region v k).slot = k.slot := by
  cases b with
  | w => exact ⟨rfl, rfl, rfl⟩
  | a => exact ⟨rfl, rfl, rfl⟩
  | ds => exact ⟨rfl, rfl, rfl⟩

section
variable {s : State} {e : Eng} {vector : Bool} {buf : Buf} {region : Fin 16} {r : Fin 8} {u : Nat}

/-- The state after the issue of a RELEASE, with its mark cleared (R135). -/
def releaseIssued (s : State) (e : Eng) (vector : Bool) (buf : Buf) (region : Fin 16) (u : Nat) : State :=
  (s.issueAt e.core (execQueue vector) e.tag e.gap.toNat 1 1 u).onCore e.core (markPut buf region.val false)

theorem sameCrossings_releaseIssued : SameCrossings s (releaseIssued s e vector buf region u) :=
  (issued_issueAt s e.core (execQueue vector) e.tag e.gap.toNat 1 1 u).sameCrossings.onCore e.core _

theorem sameMarks_releaseIssued :
    SameMarks (markPut buf region.val false (s.core e.core)) ((releaseIssued s e vector buf region u).core e.core) := by
  rw [releaseIssued, core_onCore]
  exact sameMarks_markPut buf region.val false (issued_issueAt s e.core _ e.tag _ 1 1 u).sameMarks

/-- A RELEASE that may issue, and whose token or flag has room, clears its mark, and its token or its flag follows. -/
theorem execRelease_ready {sink : ReleaseTo} (hmark : markExists buf region.val = true)
    (hready : Ready s e.core (execQueue vector) e.mask e.tag e.gap r u)
    (hform : ∀ n, sink = .dq n → s.noDataQueues e.core = false) (hgate : s.releaseGate e.core sink r u = none) :
    exec (.release e vector buf region sink) s =
      .next ((s.issueAt e.core (execQueue vector) e.tag e.gap.toNat 1 1 u).releaseNow r e.core buf region sink) := by
  show execRelease e vector buf region sink s = _
  unfold execRelease
  rw [if_neg, onForm_formOk rfl, queueCommand_ready 1 _ hready hgate, if_pos hmark]
  cases sink with
  | none => exact Bool.false_ne_true
  | dq n => simp [hform n rfl]
  | flag f => exact Bool.false_ne_true

theorem execRelease_none (hmark : markExists buf region.val = true)
    (hready : Ready s e.core (execQueue vector) e.mask e.tag e.gap r u) :
    exec (.release e vector buf region .none) s = .next (releaseIssued s e vector buf region u) :=
  execRelease_ready hmark hready nofun rfl

theorem execRelease_dq (n : Fin 8) (hmark : markExists buf region.val = true)
    (hready : Ready s e.core (execQueue vector) e.mask e.tag e.gap r u) (hqueues : s.noDataQueues e.core = false)
    (hroom : (s.dq e.core n).length < 32) : ∃ t, exec (.release e vector buf region (.dq n)) s = .next t ∧
      t.dq e.core n = s.dq e.core n ++ [.release (regionCode buf region.val)] ∧
      SameMarks (markPut buf region.val false (s.core e.core)) (t.core e.core) := by
  have hgate : s.releaseGate e.core (.dq n) r u = none := if_pos (decide_eq_true hroom)
  refine ⟨_, execRelease_ready hmark hready (fun _ _ => hqueues) hgate, ?_, ?_⟩
  · rw [State.releaseNow, dq_onDq, State.dq, core_onCore, dqs_markPut, dqs_issueAt, State.dq]
  · rw [State.releaseNow, State.onDq, core_onCore]
    exact sameMarks_releaseIssued

theorem execRelease_coreFlag (n : Fin 64) (on : BitVec 16) (hmark : markExists buf region.val = true)
    (hready : Ready s e.core (execQueue vector) e.mask e.tag e.gap r u) :
    ∃ t, exec (.release e vector buf region (.flag (.core n on))) s = .next t ∧
      FlagSent s t e.core (execQueue vector) u n true ∧
      SameMarks (markPut buf region.val false (s.core e.core)) (t.core e.core) := by
  have hq := isExecQueue_execQueue vector
  obtain ⟨hslot, hflags, hpend⟩ := flags_issueAt s e.core e.tag e.gap.toNat 1 1 u hq
  obtain ⟨mflags, mpend, mslot⟩ := markPut_flags buf region.val false
    ((s.issueAt e.core (execQueue vector) e.tag e.gap.toNat 1 1 u).core e.core)
  refine ⟨_, execRelease_ready hmark hready nofun rfl, ⟨?_, ?_⟩, ?_⟩
  · simp [State.releaseNow, State.setByCore, State.pendFlag, mflags, hflags, queueFlags, hq]
  · simp [State.releaseNow, State.setByCore, State.pendFlag, mpend, hpend, mslot, hslot, hq]
  · simp only [State.releaseNow, State.setByCore, State.pendFlag, if_true, core_onCore]
    have h := sameMarks_releaseIssued (s := s) (e := e) (vector := vector) (buf := buf) (region := region) (u := u)
    rwa [releaseIssued, core_onCore] at h

theorem execRelease_ringFlag (n : Fin 256) (hmark : markExists buf region.val = true)
    (hready : Ready s e.core (execQueue vector) e.mask e.tag e.gap r u)
    (hroom : s.crossFull (.coreToConcourse e.core) = false) :
    ∃ t, exec (.release e vector buf region (.flag (.ring n))) s = .next t ∧
      Sends s t (.coreToConcourse e.core) (.setFlag r n) ∧
      SameMarks (markPut buf region.val false (s.core e.core)) (t.core e.core) := by
  have hgate : s.releaseGate e.core (.flag (.ring n)) r u = none := if_neg (by simp [hroom])
  refine ⟨_, execRelease_ready hmark hready nofun hgate, ?_, ?_⟩
  · exact sameCrossings_releaseIssued.sends (sends_crossPut _ _ _)
  · rw [State.releaseNow, State.setByCore, core_crossPut]
    exact sameMarks_releaseIssued

end

/-! ## IDLE, MARK and HINT -/

section
variable {s : State} {e : Eng} {r : Fin 8} {u : Nat}

theorem execIdle_ready {vector : Bool} {n : Nat} (hlo : 1 ≤ n) (hhi : n ≤ 65536)
    (hready : Ready s e.core (execQueue vector) e.mask e.tag e.gap r u) :
    exec (.idle e vector n) s = .next (s.issueAt e.core (execQueue vector) e.tag e.gap.toNat n n u) := by
  show execIdle e vector n s = _
  rw [execIdle, onForm_formOk (by simp [formOk, hlo, hhi]), queueCommand_ready n _ hready rfl]

theorem execMark_ready {q : Fin 5} {mask : BitVec 16} (operand : Word) (hready : Ready s e.core q mask e.tag e.gap r u) :
    exec (.mark (.queue e.core q mask) e.tag e.gap operand) s =
      .next ((s.issueAt e.core q e.tag e.gap.toNat 1 1 u).trace e.core evMark e.tag operand.toNat) := by
  show execMark (.queue e.core q mask) e.tag e.gap operand s = _
  rw [execMark, onForm_formOk rfl, queueCommand_ready 1 _ hready rfl]

/-- The state after the issue of a HINT, with its announcement in force and on its way (R134). -/
def hintIssued (s : State) (e : Eng) (cls : Fin 8) (lead duration : Nat) (r : Fin 8) (u : Nat) : State :=
  ((s.issueAt e.core qArray e.tag e.gap.toNat 1 1 u).onCore e.core fun k =>
    { k with hint := hintOf cls.val lead duration u }).crossPut
      (.coreToConcourse e.core) (.hint r e.core cls.val (decide (lead < 20000)))

theorem execHint_ready {cls : Fin 8} {lead duration : Nat} (hlead : lead ≤ 1048575) (hlo : 1 ≤ duration)
    (hhi : duration ≤ 65535) (hready : Ready s e.core qArray e.mask e.tag e.gap r u)
    (hroom : s.crossFull (.coreToConcourse e.core) = false) :
    exec (.hint e cls lead duration) s = .next (if lead < 20000 then
      (hintIssued s e cls lead duration r u).bump (.ringHint r) F.ringHint_LATE 1 else hintIssued s e cls lead duration r u) := by
  have hgate : s.crossGate e.core (.ring 0) r u = none := if_neg (by simp [hroom])
  show execHint e cls lead duration s = _
  rw [execHint, onForm_formOk (by simp [formOk, hlead, hlo, hhi]), queueCommand_ready 1 _ hready hgate]
  rfl

theorem core_hintIssued {cls : Fin 8} {lead duration : Nat} : ((hintIssued s e cls lead duration r u).core e.core).hint =
    if cls.val = 0 then none else some ⟨cls.val, u, u + lead + 1024 * duration⟩ := by
  rw [hintIssued, core_crossPut, core_onCore]
  rfl

theorem sends_hintIssued {cls : Fin 8} {lead duration : Nat} : Sends s (hintIssued s e cls lead duration r u)
    (.coreToConcourse e.core) (.hint r e.core cls.val (decide (lead < 20000))) :=
  ((issued_issueAt s e.core qArray e.tag e.gap.toNat 1 1 u).sameCrossings.onCore e.core _).sends (sends_crossPut _ _ _)

/-- An issue writes no hint register of a ring. -/
theorem Issued.ringHint {c : Fin 16} {t : State} (h : Issued c s t) : t.reg (.ringHint r) = s.reg (.ringHint r) := by
  apply h.regs <;> simp [reportAddrs, addr_injective.eq_iff]

theorem fld_hintIssued {cls : Fin 8} {lead duration : Nat} : (hintIssued s e cls lead duration r u).fld (.ringHint r)
    F.ringHint_LATE = s.fld (.ringHint r) F.ringHint_LATE := by
  rw [hintIssued, fld_crossPut, fld_onCore, State.fld, State.fld,
    (issued_issueAt s e.core qArray e.tag e.gap.toNat 1 1 u).ringHint]

end


/-! ## END -/

theorem seqTakes_ended {s : State} {u : SeqUnit} (tag : Tag) (h : (s.seq u).ended = true) : s.seqTakes u tag = none := by
  simp [State.seqTakes, h]

theorem Takes.isStream {s : State} {u : SeqUnit} {tag : Tag} {r : Fin 8} (h : Takes s u tag r) : isStream u = true := by
  obtain ⟨hring, -⟩ := h
  cases u with
  | queue c q mask => exact nomatch hring
  | access c => rfl
  | execute c => rfl
  | ringmaster r => rfl

/-- An END of a queue ends its part of the invocation. -/
theorem execEnd_queue {s : State} {e : Eng} {r : Fin 8} {u : Nat} {q : Fin 5} {mask : BitVec 16}
    (hready : Ready s e.core q mask e.tag e.gap r u) : ∃ t, exec (.endStream (.queue e.core q mask) e.tag e.gap) s = .next t ∧
      (t.queue e.core q).ended = true ∧ (t.core e.core).mem = (s.core e.core).mem ∧ t.mwy = s.mwy := by
  have hissued := issued_issueAt s e.core q e.tag e.gap.toNat 1 1 u
  refine ⟨(s.issueAt e.core q e.tag e.gap.toNat 1 1 u).onQueue e.core q fun k => { k with ended := true }, ?_, ?_, ?_, ?_⟩
  · show execEndStream (.queue e.core q mask) e.tag e.gap s = _
    rw [execEndStream, onForm_formOk rfl, queueCommand_ready 1 _ hready rfl]
  · rw [queue_onQueue]
  · rw [State.onQueue, core_onCore]
    exact hissued.mem
  · exact hissued.mwy

/-- An END of a sequencer that takes it ends its stream. -/
theorem execEnd_stream {s : State} {u : SeqUnit} {tag : Tag} {r : Fin 8} (gap : Byte) (h : Takes s u tag r) :
    exec (.endStream u tag gap) s = .next (s.onSeq u fun q => { q with ended := true, wait := none }) := by
  have htakes := seqTakes_takes h
  show execEndStream u tag gap s = _
  unfold execEndStream
  rw [onForm_formOk rfl]
  cases u with
  | queue c q mask => exact nomatch h.isStream
  | access c => simp only [State.seqDo, htakes]
  | execute c => simp only [State.seqDo, htakes]
  | ringmaster q => simp only [State.seqDo, htakes]

theorem SeqKept.sameMemory {s t : State} (h : SeqKept s t) : SameMemory s t := by
  refine ⟨fun c a => ?_, fun a => ?_, fun a => ?_⟩
  · rw [h.mem c]
  · rw [h.mwy]
  · rw [h.dram]

/-- Settles O10, command by command. -/
theorem queueCommandsOfTheStreams : Obligations.QueueCommandsOfTheStreams := by
  unfold Obligations.QueueCommandsOfTheStreams
  refine ⟨fun s e r u => ⟨?_, ?_, ?_, ?_, ?_⟩, ?_⟩
  · intro vector n hlo hhi hready
    exact execIdle_ready hlo hhi hready
  · intro q mask operand hready
    exact execMark_ready operand hready
  · intro q mask hready
    exact execEnd_queue hready
  · intro cls lead duration hlead hlo hhi hready hroom
    refine ⟨_, execHint_ready hlead hlo hhi hready hroom, ?_⟩
    split
    next hlate =>
      refine ⟨?_, sends_hintIssued.same (sameCrossings_bump _ _ _ _), fun _ => ?_⟩
      · rw [core_bump, core_hintIssued]
      · rw [fld_bump _ _ _ _ ⟨by decide, by decide⟩, fld_hintIssued]
        rfl
    next hearly => exact ⟨core_hintIssued, sends_hintIssued, fun hlate => absurd hlate hearly⟩
  · intro vector buf region hmark hready
    exact ⟨execRelease_none hmark hready, fun n => execRelease_dq n hmark hready,
      fun n on => execRelease_coreFlag n on hmark hready, fun n => execRelease_ringFlag n hmark hready⟩
  · intro s u tag tag' gap r h
    have hkept := seqKept_onSeq s u fun q => { q with ended := true, wait := none }
    have hended : ((s.onSeq u fun q => { q with ended := true, wait := none }).seq u).ended = true := by
      rw [seq_onSeq s _ h.isStream]
    exact ⟨_, execEnd_stream gap h, hended, hkept.sameMemory, hkept.regs, seqTakes_ended tag' hended⟩

end Sys2Proof.Machine
end

section
/-! SUPPORT. The gathering buffer's flush (R154, R155): without an error in core memory no word needs decoding, so that a
flush writes the entry's bytes and nothing else. -/

namespace Sys2Proof.Machine

theorem decodeWord_noErrors {k : Core} (h : k.memFlips = []) (w : Nat) : decodeWord k w = k := by
  have hclean : eccOf k.memFlips w = .clean := by
    have hread : (smRead 0 k.memFlips (36 * w) 36).countP (fun e => e != 0) = 0 := by
      rw [h, List.countP_eq_zero]
      simp [smRead, smGet]
    simp only [eccOf, hread]
  rw [decodeWord, hclean]
  split
  · rfl
  · rfl

theorem foldl_decodeWord {k : Core} (h : k.memFlips = []) (l : List Nat) : l.foldl decodeWord k = k := by
  induction l with
  | nil => rfl
  | cons w l ih => rw [List.foldl_cons, decodeWord_noErrors h, ih]

/-- The bytes of an entry's mask written, each at its own place: the byte of a place that the mask has, or what stood there. -/
theorem smGet_foldl_entry (base b : Nat) (p : Nat → Bool) (f : Nat → Byte) (l : List Nat) (m : SparseMap 8) :
    smGet 0 ((l.filterMap fun i => if p i then some (i, f i) else none).foldl (fun m e => smSet 0 m (base + e.1) e.2) m) b =
      if base ≤ b ∧ b - base ∈ l ∧ p (b - base) = true then f (b - base) else smGet 0 m b := by
  induction l generalizing m with
  | nil => simp
  | cons i l ih =>
    by_cases hp : p i = true
    · rw [List.filterMap_cons]
      simp only [if_pos hp]
      rw [List.foldl_cons, ih, smGet_smSet]
      by_cases hib : base + i = b
      · subst hib
        simp [hp]
      · have hne : base ≤ b → b - base ≠ i := by omega
        rw [if_neg hib]
        grind
    · rw [List.filterMap_cons]
      simp only [if_neg hp]
      rw [ih]
      grind

theorem mem_flushEntry {k : Core} (h : k.memFlips = []) (g : GatherEntry) (b : Nat) : smGet 0 (flushEntry k g).mem b =
    if 64 * g.line ≤ b ∧ b < 64 * g.line + 64 ∧ g.mask.getLsbD (b - 64 * g.line) = true
    then g.data.extractLsb' (8 * (b - 64 * g.line)) 8 else smGet 0 k.mem b := by
  unfold flushEntry entryBytes
  dsimp only
  rw [foldl_decodeWord h, smGet_foldl_entry]
  have hrange : (64 * g.line ≤ b ∧ b - 64 * g.line ∈ List.range 64 ∧ g.mask.getLsbD (b - 64 * g.line) = true) ↔
      (64 * g.line ≤ b ∧ b < 64 * g.line + 64 ∧ g.mask.getLsbD (b - 64 * g.line) = true) := by
    rw [List.mem_range]
    constructor
    · rintro ⟨hlo, hhi, hm⟩
      exact ⟨hlo, by omega, hm⟩
    · rintro ⟨hlo, hhi, hm⟩
      exact ⟨hlo, by omega, hm⟩
  simp only [hrange]

theorem ecc_flushEntry {k : Core} (h : k.memFlips = []) (g : GatherEntry) : (flushEntry k g).ecc = k.ecc := by
  unfold flushEntry
  dsimp only
  rw [foldl_decodeWord h]

/-- A flush of one entry of a core without errors. -/
theorem flushWhere_one {k : Core} {p : GatherEntry → Bool} {g : GatherEntry} (hg : k.gather.filter p = [g]) (h : NoErrors k) :
    (flushWhere p k).ecc = [] ∧ (flushWhere p k).gather = (k.gather.filter fun x => !p x) ∧
      (flushWhere p k).mem = (flushEntry k g).mem := by
  obtain ⟨hflips, hecc⟩ := h
  unfold flushWhere
  rw [hg]
  exact ⟨(ecc_flushEntry hflips g).trans hecc, rfl, rfl⟩

/-- What a core's decoder has not found, `onMem` does not report. -/
theorem onMem_clean {s : State} {tag : Tag} {c : Fin 16} {f : Core → Core} (h : (f (s.core c)).ecc = []) :
    s.onMem tag c f = s.setCore c { f (s.core c) with ecc := [] } := by
  unfold State.onMem
  dsimp only
  rw [h]
  rfl

theorem exec_gatherFlushIdle (s : State) (c : Fin 16) (line : Nat) :
    exec (.gatherFlushIdle c line) s = .next (s.onMem (s.coreTag c) c (flushWhere fun g => g.line == line)) := rfl

theorem gatherFlush_one {s : State} {c : Fin 16} {line : Nat} {g : GatherEntry}
    (hg : ((s.core c).gather.filter fun x => x.line == line) = [g]) (h : NoErrors (s.core c)) :
    ∃ t, exec (.gatherFlushIdle c line) s = .next t ∧
      (t.core c).gather = (s.core c).gather.filter (fun x => x.line != line) ∧
      (∀ i < 64, smGet 0 (t.core c).mem (64 * line + i) =
        if g.mask.getLsbD i then g.data.extractLsb' (8 * i) 8 else smGet 0 (s.core c).mem (64 * line + i)) ∧
      (∀ a : Nat, (a < 64 * line ∨ 64 * line + 64 ≤ a) → smGet 0 (t.core c).mem a = smGet 0 (s.core c).mem a) ∧
      t.mwy = s.mwy ∧ t.regs = s.regs := by
  obtain ⟨hecc, hgather, hmem⟩ := flushWhere_one hg h
  have hline : g.line = line := by
    have hin : g ∈ (s.core c).gather.filter fun x => x.line == line := hg ▸ List.mem_singleton_self g
    simpa using (List.mem_filter.mp hin).2
  subst hline
  refine ⟨s.setCore c { flushWhere (fun x => x.line == g.line) (s.core c) with ecc := [] },
    by rw [exec_gatherFlushIdle, onMem_clean hecc], ?_, fun i hi => ?_, fun a ha => ?_, rfl, rfl⟩
  · rw [core_setCore]
    exact hgather
  · rw [core_setCore]
    dsimp only
    rw [hmem, mem_flushEntry h.1, Nat.add_sub_cancel_left]
    simp [hi]
  · rw [core_setCore]
    dsimp only
    rw [hmem, mem_flushEntry h.1, if_neg (by omega)]

end Sys2Proof.Machine
end

section
/-! SUPPORT. What a delivery does to its crossing (R23, R24), and what the delivered operation does where it arrives: at ring
flags, at core flags, at a unit and in the booth (R125 to R127, R268, R398). -/

namespace Sys2Proof.Machine

/-! ## The crossings -/

/-- What stands in the crossings, or is held back, is all that may differ. -/
structure OnlyCrossings (s t : State) : Prop where
  rest : t = { s with cross := t.cross, heldBack := t.heldBack }

namespace OnlyCrossings
variable {s t t' : State}

theorem trans (h : OnlyCrossings s t) (h' : OnlyCrossings t t') : OnlyCrossings s t' := by
  constructor
  rw [h'.rest, h.rest]

theorem cores (h : OnlyCrossings s t) : t.cores = s.cores := by rw [h.rest]
theorem rings (h : OnlyCrossings s t) : t.rings = s.rings := by rw [h.rest]
theorem regs (h : OnlyCrossings s t) : t.regs = s.regs := by rw [h.rest]
theorem mwy (h : OnlyCrossings s t) : t.mwy = s.mwy := by rw [h.rest]
theorem power (h : OnlyCrossings s t) : t.power = s.power := by rw [h.rest]
theorem dram (h : OnlyCrossings s t) : t.dram = s.dram := by rw [h.rest]
theorem ring (h : OnlyCrossings s t) (r : Fin 8) : t.ring r = s.ring r := by rw [State.ring, State.ring, h.rings]
theorem core (h : OnlyCrossings s t) (c : Fin 16) : t.core c = s.core c := by rw [State.core, State.core, h.cores]
theorem reg (h : OnlyCrossings s t) (x : Reg) : t.reg x = s.reg x := by rw [State.reg, State.reg, h.regs]
theorem fld (h : OnlyCrossings s t) (x : Reg) (f : Fld) : t.fld x f = s.fld x f := by rw [State.fld, State.fld, h.reg]

theorem ringFlag (h : OnlyCrossings s t) (r : Fin 8) (n : Fin 256) : t.ringFlag r n = s.ringFlag r n := by
  rw [State.ringFlag, State.ringFlag, h.ring]

theorem probeOf (h : OnlyCrossings s t) (u : SeqUnit) : t.probeOf u = s.probeOf u := by rw [h.rest]; rfl

theorem sameMemory (h : OnlyCrossings s t) : SameMemory s t := by
  refine ⟨fun c a => ?_, fun a => ?_, fun a => ?_⟩
  · rw [h.core]
  · rw [h.mwy]
  · rw [h.dram]

theorem takesTriggers (h : OnlyCrossings s t) (r : Fin 8) : t.takesTriggers r = s.takesTriggers r := by
  rw [State.takesTriggers, State.takesTriggers, State.ringLive, State.ringLive, State.ringState, State.ringState, h.reg]

theorem pendingRoom (h : OnlyCrossings s t) (r : Fin 8) : t.pendingRoom r = s.pendingRoom r := by
  rw [State.pendingRoom, State.pendingRoom, h.ring]

theorem postStreams (h : OnlyCrossings s t) (r : Fin 8) (n : Fin 256) : t.postStreams r n = s.postStreams r n := by
  simp only [State.postStreams, State.rsEnabled, State.rsPostFlag, h.fld, h.reg]

theorem flagTrigger (h : OnlyCrossings s t) (r : Fin 8) (n : Fin 256) : t.flagTrigger r n = s.flagTrigger r n := by
  rw [State.flagTrigger, State.flagTrigger, h.ring]

end OnlyCrossings

theorem onlyCrossings_crossPut (s : State) (x : Crossing) (o : CrossOp) : OnlyCrossings s (s.crossPut x o) := by
  constructor
  unfold State.crossPut
  split
  · rfl
  · rfl

theorem onlyCrossings_crossTaken (s : State) (x : Crossing) (rest : List (Crossing × CrossOp)) :
    OnlyCrossings s (s.crossTaken x rest) := by
  constructor
  unfold State.crossTaken
  split
  · rfl
  · rfl

/-- The entry taken is the oldest of its crossing; those of the other crossings stay. -/
theorem filter_takeCross {x : Crossing} {o : CrossOp} {l rest : List (Crossing × CrossOp)}
    (h : takeCross x l = some (o, rest)) : (l.filter fun e => e.1 == x) = (x, o) :: (rest.filter fun e => e.1 == x) ∧
      ∀ y : Crossing, y ≠ x → (l.filter fun e => e.1 == y) = rest.filter fun e => e.1 == y := by
  induction l generalizing rest with
  | nil => cases h
  | cons e l ih =>
    obtain ⟨y, p⟩ := e
    unfold takeCross at h
    split at h
    case isTrue he =>
      cases h
      subst he
      exact ⟨by simp, fun z hz => by simp [hz.symm]⟩
    case isFalse he =>
      obtain ⟨⟨o', rest'⟩, ht, heq⟩ := Option.map_eq_some_iff.mp h
      cases heq
      obtain ⟨hx, hother⟩ := ih ht
      refine ⟨by simpa [he] using hx, fun z hz => ?_⟩
      rw [List.filter_cons, List.filter_cons, hother z hz]

theorem Drains.same {s t t1 : State} {x : Crossing} (h : Drains s t x) (ht : SameCrossings t t1) : Drains s t1 x := by
  obtain ⟨hx, hother⟩ := h
  exact ⟨by rw [ht.sentOn, hx], fun y hy => by rw [ht.sentOn, hother y hy]⟩

theorem Drains.hops {s m t : State} {x y : Crossing} {o : CrossOp} (h : Drains s m x) (ht : Sends m t y o) : Hops s t x y o :=
  ⟨m, h, ht⟩

/-- A delivery takes the oldest entry; the place that it frees takes the oldest that the sender holds back (R23). -/
theorem drains_crossTaken {s : State} {x : Crossing} {o : CrossOp} {rest : List (Crossing × CrossOp)}
    (h : takeCross x s.cross = some (o, rest)) : Drains s (s.crossTaken x rest) x := by
  obtain ⟨hx, hother⟩ := filter_takeCross h
  unfold Drains State.sentOn State.crossTaken
  cases hback : takeCross x s.heldBack with
  | none =>
    refine ⟨?_, fun y hy => ?_⟩
    · simp only [List.filter_append, hx]
      rfl
    · simp only [List.filter_append, hother y hy]
  | some p =>
    obtain ⟨o', back⟩ := p
    obtain ⟨hbx, hbother⟩ := filter_takeCross hback
    refine ⟨?_, fun y hy => ?_⟩
    · simp only [List.filter_append, hx, hbx]
      simp
    · simp only [List.filter_append, hother y hy, hbother y hy]
      simp [hy.symm]

theorem crossingDeliver_idle {s : State} {x : Crossing}
    (h : s.clockRuns (s.receiver x) = false ∨ takeCross x s.cross = none) : exec (.crossingDeliver x) s = .next s := by
  show execCrossingDeliver x s = _
  unfold execCrossingDeliver
  cases h with
  | inl hclock => rw [hclock]; rfl
  | inr hnone => rw [hnone]; simp

/-- Everything but a packet of a trapeze port is taken. -/
theorem crossingDeliver_taken {s : State} {x : Crossing} {o : CrossOp} {rest : List (Crossing × CrossOp)}
    (htake : takeCross x s.cross = some (o, rest)) (hpath : FlagPath x) (hclock : s.clockRuns (s.receiver x) = true)
    (ho : s.takesPacket x o = true) : exec (.crossingDeliver x) s = .next ((s.crossTaken x rest).delivered x o) := by
  show execCrossingDeliver x s = _
  unfold execCrossingDeliver
  rw [if_pos hclock, htake]
  dsimp only
  rw [if_pos ho]
  cases x with
  | trzToTrz a b v => exact absurd rfl (hpath a b v)
  | _ => rfl

/-! ## Ring flags -/

theorem ring_eq_of_onRing (s : State) (r : Fin 8) : (s.onRing r fun _ => s.ring r) = s := by
  simp [State.onRing, State.setRing, State.ring]

theorem sameCrossings_onRing (s : State) (r : Fin 8) (f : Ring → Ring) : SameCrossings s (s.onRing r f) := ⟨rfl, rfl⟩

theorem sameCrossings_clearRingFlag (s : State) (r : Fin 8) (n : Fin 256) : SameCrossings s (s.clearRingFlag r n) :=
  sameCrossings_onRing s r _

/-- A set that no test waits for changes no test (R126). -/
theorem serveTests_none {s : State} {r : Fin 8} {n : Fin 256} (h : ∀ w ∈ (s.ring r).tests, w.flag ≠ n) :
    s.serveTests r n = s := by
  have hhere : ((s.ring r).tests.filter fun t => t.flag == n) = [] := by simpa using h
  have hkeep : ∀ p : FlagTest → Bool, ((s.ring r).tests.filter fun t => !(t.flag == n && p t)) = (s.ring r).tests := fun p => by
    rw [List.filter_eq_self]
    intro w hw
    simp [h w hw]
  unfold State.serveTests
  split
  · rfl
  · rw [hhere]
    simp only [List.foldl_nil, List.filter_nil, Option.isSome_none, Bool.false_eq_true, if_false]
    rw [State.onRing, hkeep]
    exact ring_eq_of_onRing s r

/-- The only test that waits for a flag passes with its set; a test that consumes clears the flag (R126). -/
theorem serveTests_one {s : State} {r : Fin 8} {n : Fin 256} {w : FlagTest} (hset : s.ringFlag r n = true)
    (htests : (s.ring r).tests = [w]) (hw : w.flag = n) : s.serveTests r n =
      if w.consume then ((s.answerTo r w.unit true).onRing r fun k => { k with tests := [] }).clearRingFlag r n
      else (s.answerTo r w.unit true).onRing r fun k => { k with tests := [] } := by
  have hring : ((s.answerTo r w.unit true).ring r).tests = [w] := by
    rw [State.answerTo, (onlyCrossings_crossPut s _ _).ring, htests]
  subst hw
  unfold State.serveTests
  rw [hset, htests]
  cases hc : w.consume with
  | false => simp [State.onRing, hring, hc]
  | true => simp [State.onRing, hring, hc]

/-- A ring with flag `n` set, and FLAG_OVERRUN raised where it was set before (R126). -/
def ringFlagSet (s : State) (r : Fin 8) (n : Fin 256) : State :=
  (if s.ringFlag r n then s.setFld (.ringSeqStatus r) F.ringSeqStatus_FLAG_OVERRUN 1 else s).onRing r fun k =>
    { k with flags := k.flags ||| (1#256).shiftLeft n }

section
variable (s : State) (r : Fin 8) (n : Fin 256)

theorem sameCrossings_ringFlagSet : SameCrossings s (ringFlagSet s r n) := by
  unfold ringFlagSet
  split
  · exact ⟨rfl, rfl⟩
  · exact ⟨rfl, rfl⟩

theorem ring_ringFlagSet : (ringFlagSet s r n).ring r =
    { s.ring r with flags := (s.ring r).flags ||| (1#256).shiftLeft n } := by
  unfold ringFlagSet
  rw [ring_onRing]
  split
  · rfl
  · rfl

theorem kept_ringFlagSet : (ringFlagSet s r n).cores = s.cores ∧ (ringFlagSet s r n).mwy = s.mwy := by
  unfold ringFlagSet
  split
  · exact ⟨rfl, rfl⟩
  · exact ⟨rfl, rfl⟩

theorem flagOverrun_ringFlagSet : (ringFlagSet s r n).fld (.ringSeqStatus r) F.ringSeqStatus_FLAG_OVERRUN =
    if s.ringFlag r n then 1 else s.fld (.ringSeqStatus r) F.ringSeqStatus_FLAG_OVERRUN := by
  unfold ringFlagSet
  rw [fld_onRing]
  split
  · rw [fld_setFld _ _ _ _ ⟨by decide, by decide⟩]
    rfl
  · rfl

theorem reg_ringFlagSet {q : Reg} (h : q ≠ .ringSeqStatus r) : (ringFlagSet s r n).reg q = s.reg q := by
  unfold ringFlagSet
  rw [reg_onRing]
  split
  · exact reg_setFld_ne _ _ _ (addr_injective.ne h.symm)
  · rfl

theorem ringFlag_ringFlagSet : (ringFlagSet s r n).ringFlag r n = true := by
  rw [State.ringFlag, ring_ringFlagSet]
  simp [BitVec.shiftLeft_eq]

theorem postStreams_ringFlagSet : (ringFlagSet s r n).postStreams r n = s.postStreams r n := by
  unfold State.postStreams
  congr 1
  funext t
  rw [State.rsEnabled, State.rsEnabled, State.rsPostFlag, State.rsPostFlag, State.fld, State.fld,
    reg_ringFlagSet s r n (by simp), reg_ringFlagSet s r n (by simp)]

theorem flagTrigger_ringFlagSet : (ringFlagSet s r n).flagTrigger r n = s.flagTrigger r n := by
  rw [State.flagTrigger, State.flagTrigger, ring_ringFlagSet]

end

/-- A set of a ring flag that is neither a POST_FLAG nor a trigger (R126). -/
theorem setRingFlag_plain {s : State} {r : Fin 8} {n : Fin 256} (hpost : s.postStreams r n = [])
    (htrig : s.flagTrigger r n = false) : s.setRingFlag r n = (ringFlagSet s r n).serveTests r n := by
  have hp : (ringFlagSet s r n).postStreams r n = [] := (postStreams_ringFlagSet s r n).trans hpost
  have ht : (ringFlagSet s r n).flagTrigger r n = false := (flagTrigger_ringFlagSet s r n).trans htrig
  unfold State.setRingFlag
  dsimp only
  rw [← ringFlagSet, hp]
  simp [ht]

theorem flag_set_clear (v : BitVec 256) (n : Fin 256) :
    (v ||| (1#256).shiftLeft n) &&& ~~~ (1#256).shiftLeft n = v &&& ~~~ (1#256).shiftLeft n := by
  ext i hi
  simp only [BitVec.getElem_and, BitVec.getElem_or, BitVec.getElem_not]
  cases v[i] <;> simp

/-- What CROSSING_DELIVER takes from a crossing: the crossing is no trapeze link, and its receiver's clock runs. -/
structure Delivers (s : State) (x : Crossing) (o : CrossOp) (rest : List (Crossing × CrossOp)) : Prop where
  take : takeCross x s.cross = some (o, rest)
  path : FlagPath x
  clock : s.clockRuns (s.receiver x) = true

section
variable {s : State} {x : Crossing} {o : CrossOp} {rest : List (Crossing × CrossOp)}

theorem Delivers.exec (h : Delivers s x o rest) (ho : s.takesPacket x o = true) :
    exec (.crossingDeliver x) s = .next ((s.crossTaken x rest).delivered x o) :=
  crossingDeliver_taken h.take h.path h.clock ho

theorem Delivers.drains (h : Delivers s x o rest) : Drains s (s.crossTaken x rest) x := drains_crossTaken h.take

end

section
variable {s : State} {x : Crossing} {rest : List (Crossing × CrossOp)} {r : Fin 8} {n : Fin 256}

theorem deliver_clearFlag (h : Delivers s x (.clearFlag r n) rest) : ∃ t, exec (.crossingDeliver x) s = .next t ∧ Drains s t x ∧
    (t.ring r).flags = (s.ring r).flags &&& ~~~ (1#256).shiftLeft n ∧ t.cores = s.cores ∧ t.mwy = s.mwy := by
  have htaken := onlyCrossings_crossTaken s x rest
  refine ⟨(s.crossTaken x rest).clearRingFlag r n, h.exec rfl, h.drains.same (sameCrossings_clearRingFlag _ r n), ?_, htaken.cores, htaken.mwy⟩
  rw [State.clearRingFlag, ring_onRing, htaken.ring]

theorem deliver_setFlag (h : Delivers s x (.setFlag r n) rest) (hpost : s.postStreams r n = [])
    (htrig : s.flagTrigger r n = false) : exec (.crossingDeliver x) s =
      .next ((ringFlagSet (s.crossTaken x rest) r n).serveTests r n) := by
  have htaken := onlyCrossings_crossTaken s x rest
  rw [h.exec rfl, State.delivered,
    setRingFlag_plain ((htaken.postStreams r n).trans hpost) ((htaken.flagTrigger r n).trans htrig)]

theorem deliver_setFlag_untested (h : Delivers s x (.setFlag r n) rest) (hpost : s.postStreams r n = [])
    (htrig : s.flagTrigger r n = false) (htests : ∀ w ∈ (s.ring r).tests, w.flag ≠ n) :
    ∃ t, exec (.crossingDeliver x) s = .next t ∧ Drains s t x ∧
      (t.ring r).flags = (s.ring r).flags ||| (1#256).shiftLeft n ∧ t.cores = s.cores ∧ t.mwy = s.mwy ∧
      t.fld (.ringSeqStatus r) F.ringSeqStatus_FLAG_OVERRUN =
        if s.ringFlag r n then 1 else s.fld (.ringSeqStatus r) F.ringSeqStatus_FLAG_OVERRUN := by
  have htaken := onlyCrossings_crossTaken s x rest
  obtain ⟨hcores, hmwy⟩ := kept_ringFlagSet (s.crossTaken x rest) r n
  have hserve : (ringFlagSet (s.crossTaken x rest) r n).serveTests r n = ringFlagSet (s.crossTaken x rest) r n := by
    refine serveTests_none ?_
    rw [ring_ringFlagSet, htaken.ring]
    exact htests
  refine ⟨ringFlagSet (s.crossTaken x rest) r n, by rw [deliver_setFlag h hpost htrig, hserve],
    h.drains.same (sameCrossings_ringFlagSet _ r n), ?_, hcores.trans htaken.cores, hmwy.trans htaken.mwy, ?_⟩
  · rw [ring_ringFlagSet, htaken.ring]
  · rw [flagOverrun_ringFlagSet, htaken.ringFlag, htaken.fld]

theorem deliver_setFlag_tested {w : FlagTest} (h : Delivers s x (.setFlag r n) rest) (hpost : s.postStreams r n = [])
    (htrig : s.flagTrigger r n = false) (htests : (s.ring r).tests = [w]) (hw : w.flag = n) :
    ∃ t, exec (.crossingDeliver x) s = .next t ∧ Hops s t x (crossBack w.unit) (.answer r w.unit true) ∧
      (t.ring r).tests = [] ∧ (t.ring r).flags = (if w.consume then (s.ring r).flags &&& ~~~ (1#256).shiftLeft n
        else (s.ring r).flags ||| (1#256).shiftLeft n) := by
  have htaken := onlyCrossings_crossTaken s x rest
  have hring := ring_ringFlagSet (s.crossTaken x rest) r n
  rw [htaken.ring] at hring
  have hdrains : Drains s (ringFlagSet (s.crossTaken x rest) r n) x := h.drains.same (sameCrossings_ringFlagSet _ r n)
  have hsends := sends_crossPut (ringFlagSet (s.crossTaken x rest) r n) (crossBack w.unit) (.answer r w.unit true)
  have hput := onlyCrossings_crossPut (ringFlagSet (s.crossTaken x rest) r n) (crossBack w.unit) (.answer r w.unit true)
  have hserve := serveTests_one (ringFlag_ringFlagSet (s.crossTaken x rest) r n) (by rw [hring]; exact htests) hw
  rw [State.answerTo] at hserve
  refine ⟨_, deliver_setFlag h hpost htrig, ?_⟩
  rw [hserve]
  split
  case isTrue hc =>
    refine ⟨hdrains.hops ((hsends.same (sameCrossings_onRing _ r _)).same (sameCrossings_clearRingFlag _ r n)), ?_, ?_⟩
    · rw [State.clearRingFlag, ring_onRing, ring_onRing]
    · rw [State.clearRingFlag, ring_onRing, ring_onRing, hput.ring, hring]
      exact flag_set_clear _ n
  case isFalse hc =>
    refine ⟨hdrains.hops (hsends.same (sameCrossings_onRing _ r _)), ?_, ?_⟩
    · rw [ring_onRing]
    · rw [ring_onRing, hput.ring, hring]

end

/-! ## Core flags -/

section
variable {s : State} {rest : List (Crossing × CrossOp)} {r : Fin 8} {on : BitVec 16} {n : Fin 64} {set : Bool}

theorem sameCrossings_reachFlags (s : State) (c : Fin 16) (v : BitVec 64 × Bool) (p : FlagOp → Bool) :
    SameCrossings s (s.reachFlags c v p) := by
  unfold State.reachFlags
  dsimp only
  split
  · exact ⟨rfl, rfl⟩
  · exact ⟨rfl, rfl⟩

theorem core_reachFlags_ne (s : State) {c d : Fin 16} (v : BitVec 64 × Bool) (p : FlagOp → Bool) (h : c ≠ d) :
    (s.reachFlags c v p).core d = s.core d := by
  unfold State.reachFlags
  dsimp only
  split
  · rw [core_setFld, core_onCore_ne _ _ h]
  · rw [core_onCore_ne _ _ h]

theorem flagOverrun_reachFlags (s : State) (c : Fin 16) {v : BitVec 64 × Bool} (p : FlagOp → Bool) (h : v.2 = true) :
    (s.reachFlags c v p).fld (.coreSeqStatus c) F.coreSeqStatus_FLAG_OVERRUN = 1 := by
  unfold State.reachFlags
  dsimp only
  rw [if_pos h, fld_setFld _ _ _ _ ⟨by decide, by decide⟩]
  rfl

theorem deliver_coreFlag {c : Fin 16} (h : Delivers s (.concourseToCore c) (.coreFlag r on n set) rest) :
    ∃ t, exec (.crossingDeliver (.concourseToCore c)) s = .next t ∧ Drains s t (.concourseToCore c) ∧
      (t.core c).flags = (if set then (s.core c).flags ||| (1#64).shiftLeft n else (s.core c).flags &&& ~~~ (1#64).shiftLeft n) ∧
      OnlyCore c s t ∧ (set = true → (s.core c).flags.getLsbD n = true →
        t.fld (.coreSeqStatus c) F.coreSeqStatus_FLAG_OVERRUN = 1) := by
  have htaken := onlyCrossings_crossTaken s (.concourseToCore c) rest
  refine ⟨(s.crossTaken (.concourseToCore c) rest).flagArrives c n set, h.exec rfl,
    h.drains.same (sameCrossings_reachFlags _ _ _ _), ?_, fun d hd => ?_, fun hset hflag => ?_⟩
  · rw [State.flagArrives, core_reachFlags, htaken.core]
    cases set with
    | false => rfl
    | true => rfl
  · rw [State.flagArrives, core_reachFlags_ne _ _ _ hd.symm, htaken.core]
  · refine flagOverrun_reachFlags _ _ _ ?_
    rw [htaken.core, hset]
    exact hflag

/-- One operation to each core of a list: each crossing of a core of the list takes it, and no other crossing. -/
theorem sentOn_foldl_crossPut (f : Fin 16 → CrossOp) {l : List (Fin 16)} (hl : l.Nodup) (s : State) :
    OnlyCrossings s (l.foldl (fun s c => s.crossPut (.concourseToCore c) (f c)) s) ∧
    (∀ c : Fin 16, (l.foldl (fun s c => s.crossPut (.concourseToCore c) (f c)) s).sentOn (.concourseToCore c) =
      s.sentOn (.concourseToCore c) ++ if c ∈ l then [f c] else []) ∧
    ∀ x : Crossing, (∀ c, x ≠ .concourseToCore c) →
      (l.foldl (fun s c => s.crossPut (.concourseToCore c) (f c)) s).sentOn x = s.sentOn x := by
  induction l generalizing s with
  | nil => exact ⟨⟨rfl⟩, fun c => by simp, fun x hx => rfl⟩
  | cons d l ih =>
    obtain ⟨hd, hl⟩ := List.nodup_cons.mp hl
    obtain ⟨hrest, hcore, hother⟩ := ih hl (s.crossPut (.concourseToCore d) (f d))
    obtain ⟨hput, hne⟩ := sends_crossPut s (.concourseToCore d) (f d)
    rw [List.foldl_cons]
    refine ⟨(onlyCrossings_crossPut _ _ _).trans hrest, fun c => ?_, fun x hx => ?_⟩
    · rw [hcore]
      by_cases hc : c = d
      · subst hc
        simp [hput, hd]
      · simp [hne _ (fun heq => hc (Crossing.concourseToCore.inj heq)), hc]
    · rw [hother x hx, hne x (hx d)]

theorem deliver_coreFlags {q : Fin 8} (h : Delivers s (.ringmasterToConcourse q) (.coreFlag r on n set) rest) :
    ∃ t, exec (.crossingDeliver (.ringmasterToConcourse q)) s = .next t ∧ t.cores = s.cores ∧
      t.sentOn (.ringmasterToConcourse q) = (s.sentOn (.ringmasterToConcourse q)).drop 1 ∧
      ∀ c : Fin 16, t.sentOn (.concourseToCore c) = s.sentOn (.concourseToCore c) ++
        if on.getLsbD c then [.coreFlag r ((1#16).shiftLeft c) n set] else [] := by
  obtain ⟨hx, hother⟩ := h.drains
  have hnodup : (maskCores on).Nodup := (List.nodup_finRange 16).filter _
  obtain ⟨hrest, hcore, hsent⟩ := sentOn_foldl_crossPut (fun c => .coreFlag r ((1#16).shiftLeft c) n set) hnodup
    (s.crossTaken (.ringmasterToConcourse q) rest)
  have hdelivered : (s.crossTaken (.ringmasterToConcourse q) rest).delivered (.ringmasterToConcourse q) (.coreFlag r on n set) =
    (maskCores on).foldl (fun s c => s.crossPut (.concourseToCore c) (.coreFlag r ((1#16).shiftLeft c) n set))
      (s.crossTaken (.ringmasterToConcourse q) rest) := rfl
  refine ⟨_, (h.exec rfl).trans (congrArg _ hdelivered), ((onlyCrossings_crossTaken s _ rest).trans hrest).cores, ?_, fun c => ?_⟩
  · rw [hsent _ (by simp), hx]
  · have hmem : c ∈ maskCores on ↔ on.getLsbD c = true := by simp [maskCores]
    rw [hcore, hother _ (by simp)]
    simp only [hmem]

end

/-! ## Tests, answers, hints and triggers -/

section
variable {s : State} {x : Crossing} {rest : List (Crossing × CrossOp)} {r : Fin 8}

theorem deliver_look {u : SeqUnit} {n : Fin 256} (h : Delivers s x (.test r u n .look) rest) (hasked : s.probeOf u = .asked) :
    ∃ t, exec (.crossingDeliver x) s = .next t ∧ Hops s t x (crossBack u) (.answer r u (s.ringFlag r n)) ∧
      t.rings = s.rings ∧ t.cores = s.cores := by
  have htaken := onlyCrossings_crossTaken s x rest
  have hput := htaken.trans (onlyCrossings_crossPut (s.crossTaken x rest) (crossBack u) (.answer r u (s.ringFlag r n)))
  refine ⟨_, ?_, h.drains.hops (sends_crossPut _ _ _), hput.rings, hput.cores⟩
  rw [h.exec rfl, State.delivered, State.testArrives, if_neg (by simp [htaken.probeOf, hasked]), htaken.ringFlag]
  rfl

theorem probeOf_setProbe (s : State) (u : SeqUnit) (p : Probe) : (s.setProbe u p).probeOf u = p := by
  cases u with
  | queue c q mask => simp [State.setProbe, State.probeOf]
  | access c => simp [State.setProbe, State.probeOf]
  | execute c => simp [State.setProbe, State.probeOf]
  | ringmaster r => simp [State.setProbe, State.probeOf]

theorem sameCrossings_setProbe (s : State) (u : SeqUnit) (p : Probe) : SameCrossings s (s.setProbe u p) := by
  cases u with
  | queue c q mask => exact ⟨rfl, rfl⟩
  | access c => exact ⟨rfl, rfl⟩
  | execute c => exact ⟨rfl, rfl⟩
  | ringmaster r => exact ⟨rfl, rfl⟩

/-- What leaves every core's memory alone when one core is written. -/
theorem sameMemory_onCore (s : State) (c : Fin 16) {f : Core → Core} (h : (f (s.core c)).mem = (s.core c).mem) :
    SameMemory s (s.onCore c f) := by
  refine ⟨fun d a => ?_, fun a => rfl, fun a => rfl⟩
  by_cases hd : c = d
  · subst hd
    rw [core_onCore, h]
  · rw [core_onCore_ne _ _ hd]

theorem sameMemory_setProbe (s : State) (u : SeqUnit) (p : Probe) : SameMemory s (s.setProbe u p) := by
  cases u with
  | queue c q mask => exact sameMemory_onCore s c rfl
  | access c => exact sameMemory_onCore s c rfl
  | execute c => exact sameMemory_onCore s c rfl
  | ringmaster r => exact ⟨fun c a => rfl, fun a => rfl, fun a => rfl⟩

theorem SameMemory.trans {s t t' : State} (h : SameMemory s t) (h' : SameMemory t t') : SameMemory s t' := by
  obtain ⟨hcore, hmwy, hdram⟩ := h
  obtain ⟨hcore', hmwy', hdram'⟩ := h'
  exact ⟨fun c a => (hcore' c a).trans (hcore c a), fun a => (hmwy' a).trans (hmwy a), fun a => (hdram' a).trans (hdram a)⟩

theorem deliver_answer {u : SeqUnit} {v : Bool} (h : Delivers s x (.answer r u v) rest) (hx : x = crossBack u)
    (hasked : s.probeOf u = .asked) : ∃ t, exec (.crossingDeliver x) s = .next t ∧ Drains s t x ∧
      t.probeOf u = .answered v ∧ SameMemory s t := by
  have htaken := onlyCrossings_crossTaken s x rest
  refine ⟨(s.crossTaken x rest).setProbe u (.answered v), ?_, h.drains.same (sameCrossings_setProbe _ _ _),
    probeOf_setProbe _ _ _, htaken.sameMemory.trans (sameMemory_setProbe _ _ _)⟩
  rw [h.exec rfl, State.delivered, if_pos hx, State.answerArrives, if_pos ((htaken.probeOf u).trans hasked)]

variable {c : Fin 16} {cls : Nat} {late : Bool}

theorem deliver_hint_onward (h : Delivers s x (.hint r c cls late) rest) (hx : x ≠ .concourseToBooth) :
    ∃ t, exec (.crossingDeliver x) s = .next t ∧ Hops s t x .concourseToBooth (.hint r c cls late) ∧ t.power = s.power := by
  have hput := (onlyCrossings_crossTaken s x rest).trans
    (onlyCrossings_crossPut (s.crossTaken x rest) .concourseToBooth (.hint r c cls late))
  refine ⟨_, ?_, h.drains.hops (sends_crossPut _ _ _), hput.power⟩
  rw [h.exec rfl, State.delivered, if_neg hx]

theorem deliver_hint_booth (h : Delivers s x (.hint r c cls late) rest) (hx : x = .concourseToBooth) :
    ∃ t, exec (.crossingDeliver x) s = .next t ∧ Drains s t x ∧
      t.power.arrived = s.power.arrived ++ [(r, c, cls)] ∧ t.cores = s.cores ∧ t.regs = s.regs := by
  have htaken := onlyCrossings_crossTaken s x rest
  refine ⟨{ s.crossTaken x rest with power := { (s.crossTaken x rest).power with
    arrived := (s.crossTaken x rest).power.arrived ++ [(r, c, cls)] } }, ?_, h.drains.same ⟨rfl, rfl⟩, ?_, htaken.cores, htaken.regs⟩
  · rw [h.exec rfl, State.delivered, if_pos hx]
  · rw [htaken.power]

end

/-- What the booth's triggers leave of the machine: the crossings, the cores and a ring's flags and programs. -/
structure TriggerKept (r : Fin 8) (s t : State) : Prop where
  crossings : SameCrossings s t
  cores : t.cores = s.cores
  flags : (t.ring r).flags = (s.ring r).flags
  programs : (t.ring r).programs = (s.ring r).programs

theorem triggerKept_queueTrigger (s : State) (r : Fin 8) (slot kind arg : Nat) (stamp : DWord) :
    TriggerKept r s (s.queueTrigger r slot kind arg stamp) := by
  unfold State.queueTrigger
  split
  · exact ⟨⟨rfl, rfl⟩, rfl, rfl, rfl⟩
  · split
    · exact ⟨⟨rfl, rfl⟩, rfl, by rw [ring_onRing], by rw [ring_onRing]⟩
    · exact ⟨⟨rfl, rfl⟩, rfl, rfl, rfl⟩

/-- The step of `fire` for one program slot. -/
def fireSlot (r : Fin 8) (kind arg : Nat) (stamp : DWord) (s : State) (slot : Nat) : State :=
  if (s.ring r).programs.any fun p => p.slot == slot && p.kind == kind && (kind == 1 || p.arg == arg)
  then s.queueTrigger r slot kind (match (s.ring r).programs.find? fun p => p.slot == slot with
    | some p => p.arg
    | none => arg) stamp
  else s

theorem fire_eq_foldl (s : State) (r : Fin 8) (kind arg : Nat) (stamp : DWord) :
    s.fire r kind arg stamp = (List.range 32).foldl (fireSlot r kind arg stamp) s := rfl

section
variable {s : State} {r : Fin 8} {kind arg : Nat} {stamp : DWord}

theorem triggerKept_foldl_fireSlot (l : List Nat) (s : State) : TriggerKept r s (l.foldl (fireSlot r kind arg stamp) s) := by
  induction l generalizing s with
  | nil => exact ⟨⟨rfl, rfl⟩, rfl, rfl, rfl⟩
  | cons slot l ih =>
    have hstep : TriggerKept r s (fireSlot r kind arg stamp s slot) := by
      unfold fireSlot
      split
      · exact triggerKept_queueTrigger _ _ _ _ _ _
      · exact ⟨⟨rfl, rfl⟩, rfl, rfl, rfl⟩
    obtain ⟨⟨hcross, hback⟩, hcores, hflags, hprograms⟩ := hstep
    obtain ⟨⟨icross, iback⟩, icores, iflags, iprograms⟩ := ih (fireSlot r kind arg stamp s slot)
    exact ⟨⟨icross.trans hcross, iback.trans hback⟩, icores.trans hcores, iflags.trans hflags, iprograms.trans hprograms⟩

/-- Slots without a program queue nothing. -/
theorem foldl_fireSlot_other {p : Program} {l : List Nat} (hp : (s.ring r).programs = [p]) (hl : p.slot ∉ l) :
    l.foldl (fireSlot r kind arg stamp) s = s := by
  induction l with
  | nil => rfl
  | cons slot l ih =>
    simp only [List.mem_cons, not_or] at hl
    obtain ⟨hslot, hrest⟩ := hl
    have hstep : fireSlot r kind arg stamp s slot = s := by
      unfold fireSlot
      rw [hp]
      simp [hslot]
    rw [List.foldl_cons, hstep, ih hrest]

/-- The trigger of a ring's only program queues that program (R268). -/
theorem fire_one {p : Program} (hp : (s.ring r).programs = [p]) (hkind : p.kind = kind) (harg : p.arg = arg)
    (hslot : p.slot < 32) : s.fire r kind arg stamp = s.queueTrigger r p.slot kind arg stamp := by
  obtain ⟨before, after, hrange⟩ := List.append_of_mem (List.mem_range.mpr hslot)
  have hnodup : (before ++ p.slot :: after).Nodup := hrange ▸ List.nodup_range
  have hbefore : p.slot ∉ before := fun hin =>
    (List.nodup_append.mp hnodup).2.2 _ hin _ List.mem_cons_self rfl
  have hafter : p.slot ∉ after := (List.nodup_cons.mp (List.nodup_append.mp hnodup).2.1).1
  have hstep : fireSlot r kind arg stamp s p.slot = s.queueTrigger r p.slot kind arg stamp := by
    unfold fireSlot
    rw [hp]
    simp [hkind, harg]
  rw [fire_eq_foldl, hrange, List.foldl_append, foldl_fireSlot_other hp hbefore, List.foldl_cons, hstep]
  exact foldl_fireSlot_other ((triggerKept_queueTrigger s r p.slot kind arg stamp).programs.trans hp) hafter

theorem waiting_queueTrigger {slot : Nat} (htakes : s.takesTriggers r = true) (hroom : s.pendingRoom r = true) :
    ((s.queueTrigger r slot kind arg stamp).ring r).waiting =
      (s.ring r).waiting ++ [⟨slot, triggerBlock kind arg stamp, stamp, none, false⟩] := by
  simp [State.queueTrigger, htakes, hroom]

variable {x : Crossing} {rest : List (Crossing × CrossOp)}

theorem deliver_trigger_onward (h : Delivers s x (.trigger r kind arg stamp) rest) (hx : x ≠ .concourseToBooth) :
    ∃ t, exec (.crossingDeliver x) s = .next t ∧ Hops s t x .concourseToBooth (.trigger r kind arg stamp) ∧
      t.rings = s.rings ∧ t.cores = s.cores := by
  have hput := (onlyCrossings_crossTaken s x rest).trans
    (onlyCrossings_crossPut (s.crossTaken x rest) .concourseToBooth (.trigger r kind arg stamp))
  refine ⟨_, ?_, h.drains.hops (sends_crossPut _ _ _), hput.rings, hput.cores⟩
  rw [h.exec rfl, State.delivered, if_neg hx]

theorem deliver_trigger_booth (h : Delivers s x (.trigger r kind arg stamp) rest) (hx : x = .concourseToBooth) :
    ∃ t, exec (.crossingDeliver x) s = .next t ∧ Drains s t x ∧ t.cores = s.cores ∧ (t.ring r).flags = (s.ring r).flags ∧
      ∀ p, (s.ring r).programs = [p] → p.kind = kind → p.arg = arg → p.slot < 32 →
        s.takesTriggers r = true → s.pendingRoom r = true →
        (t.ring r).waiting = (s.ring r).waiting ++ [⟨p.slot, triggerBlock kind arg stamp, stamp, none, false⟩] := by
  have htaken := onlyCrossings_crossTaken s x rest
  have hkept : TriggerKept r (s.crossTaken x rest) ((s.crossTaken x rest).fire r kind arg stamp) := by
    rw [fire_eq_foldl]
    exact triggerKept_foldl_fireSlot _ _
  refine ⟨(s.crossTaken x rest).fire r kind arg stamp, ?_, h.drains.same hkept.crossings, hkept.cores.trans htaken.cores, ?_, ?_⟩
  · rw [h.exec rfl, State.delivered, if_pos hx]
  · rw [hkept.flags, htaken.ring]
  · intro p hp hkind harg hslot htakes hroom
    rw [fire_one ((congrArg Ring.programs (htaken.ring r)).trans hp) hkind harg hslot,
      waiting_queueTrigger ((htaken.takesTriggers r).trans htakes) ((htaken.pendingRoom r).trans hroom), htaken.ring]

end

end Sys2Proof.Machine
end

section
/-! SUPPORT. What the records, the answers and the traces of a fault leave of a ring and of the memories, and the statement
about the gathering buffer, the crossings and stalls (R53, R130, R131). -/

namespace Sys2Proof.Machine

/-- What the reports of a fault of ring `r` leave alone: its state, its events, its pending list, its stall count and the
memories. -/
structure FaultKept (r : Fin 8) (s t : State) : Prop where
  status : t.reg (.ringManifestStatus r) = s.reg (.ringManifestStatus r)
  event : t.reg (.ringEvent r) = s.reg (.ringEvent r)
  waiting : (t.ring r).waiting = (s.ring r).waiting
  stallSeq : (t.ring r).stallSeq = (s.ring r).stallSeq
  mem : ∀ d : Fin 16, (t.core d).mem = (s.core d).mem
  mwy : t.mwy = s.mwy

section
variable {r : Fin 8} {s t t' : State}

theorem FaultKept.refl (r : Fin 8) (s : State) : FaultKept r s s := ⟨rfl, rfl, rfl, rfl, fun _ => rfl, rfl⟩

theorem FaultKept.trans (h : FaultKept r s t) (h' : FaultKept r t t') : FaultKept r s t' :=
  ⟨h'.status.trans h.status, h'.event.trans h.event, h'.waiting.trans h.waiting, h'.stallSeq.trans h.stallSeq,
    fun d => (h'.mem d).trans (h.mem d), h'.mwy.trans h.mwy⟩

theorem faultKept_foldl {α : Type} {f : State → α → State} (hf : ∀ s a, FaultKept r s (f s a)) (l : List α) (s : State) :
    FaultKept r s (l.foldl f s) := by
  induction l generalizing s with
  | nil => exact .refl r s
  | cons a l ih => exact (hf s a).trans (ih _)

theorem Traces.faultKept {c : Fin 16} (r : Fin 8) (h : Traces c s t) : FaultKept r s t := by
  refine ⟨?_, ?_, ?_, ?_, h.mem, h.mwy⟩
  · exact h.regs _ (by simp [reportAddrs, addr_injective.eq_iff]) (by simp [addr_injective.eq_iff])
      (by simp [addr_injective.eq_iff])
  · exact h.regs _ (by simp [reportAddrs, addr_injective.eq_iff]) (by simp [addr_injective.eq_iff])
      (by simp [addr_injective.eq_iff])
  · rw [h.ring]
  · rw [h.ring]

theorem Reports.faultKept (r : Fin 8) (h : Reports s t) : FaultKept r s t := (h.traces 0).faultKept r

theorem faultKept_setFld (s : State) {q : Reg} (f : Fld) (n : Nat) (hs : q ≠ .ringManifestStatus r) (he : q ≠ .ringEvent r) :
    FaultKept r s (s.setFld q f n) :=
  ⟨reg_setFld_ne s f n (addr_injective.ne hs), reg_setFld_ne s f n (addr_injective.ne he), rfl, rfl, fun _ => rfl, rfl⟩

/-- The ring's other fields may change. -/
theorem faultKept_onRing (s : State) {f : Ring → Ring} (hw : (f (s.ring r)).waiting = (s.ring r).waiting)
    (hs : (f (s.ring r)).stallSeq = (s.ring r).stallSeq) : FaultKept r s (s.onRing r f) := by
  refine ⟨rfl, rfl, ?_, ?_, fun _ => rfl, rfl⟩
  · rw [ring_onRing, hw]
  · rw [ring_onRing, hs]

theorem faultKept_recordMore (s : State) (r : Fin 8) (i : FaultInfo) : FaultKept r s (s.recordMore r i) := by
  unfold State.recordMore
  dsimp only
  exact ((((reports_faultSeq s (s.faultSeq + 1)).faultKept r).trans ((traces_trace _ (coreFin i.inst) _ _ _ _).faultKept r)).trans
    ((reports_storeRecord _ _ _).faultKept r)).trans ((reports_pushRecord _ _ _).faultKept r)

theorem faultKept_record (s : State) (r : Fin 8) (i : FaultInfo) : FaultKept r s (s.record (some r) true i) := by
  unfold State.record
  dsimp only
  split
  · exact (((reports_faultSeq s (s.faultSeq + 1)).faultKept r).trans ((traces_trace _ (coreFin i.inst) _ _ _ _).faultKept r)).trans
      ((reports_fileRecord _ _ _ _ _).faultKept r)
  · exact ((reports_faultSeq s (s.faultSeq + 1)).faultKept r).trans ((reports_fileRecord _ _ _ _ _).faultKept r)

theorem faultKept_traceDrain (s : State) (r : Fin 8) : FaultKept r s (s.traceDrain r) := by
  refine faultKept_foldl (fun s c => ?_) _ s
  dsimp only
  split
  · exact .refl r s
  · split
    · exact (traces_dumpOut _ _ _ _).faultKept r
    · exact faultKept_foldl (fun s _ => (traces_batchOut s r c 64).faultKept r) _ s
    · exact .refl r s

theorem faultKept_contextsBack (s : State) (r : Fin 8) : FaultKept r s (s.contextsBack r) := by
  refine faultKept_foldl (fun s p => ?_) _ s
  have hback := faultKept_onRing (r := r) s (f := fun k => { k with ctxs := k.ctxs.map fun p' =>
    if p'.1 == (ctxFin p.1).val then (p'.1, { p'.2 with reserve := 0, next := 0, awaited := false }) else p' }) rfl rfl
  dsimp only
  split
  · exact hback.trans (faultKept_setFld _ _ _ (by simp) (by simp))
  · exact hback

/-- A pending list dropped, before its askers are answered (R53). -/
def pendingCleared (s : State) (r : Fin 8) : State :=
  ((List.finRange 16).foldl (fun s t => s.setFld (.trsRstreamStatus (rsIx r t)) F.trsRstreamStatus_HELD 0) s).onRing
    r fun k => { k with waiting := [], admission := none }

theorem faultKept_dropPending (s : State) (r : Fin 8) (status : Nat) :
    FaultKept r (pendingCleared s r) (s.dropPending r status) := by
  refine faultKept_foldl (fun s i => ?_) _ _
  split
  · exact (reports_replyStatus _ _ _ _).faultKept r
  · exact .refl r s

/-- The state of a ring that a fault has just stopped, before its pending list is dropped. -/
def faultMarked (s : State) (r : Fin 8) (cause : Nat) : State :=
  (s.setRingState r stFaulted cause).setFld (.ringEvent r) F.ringEvent_FAULTED 1

theorem faultMarked_fields (s : State) (r : Fin 8) {cause : Nat} (hcause : cause < 16) :
    (faultMarked s r cause).fld (.ringManifestStatus r) F.ringManifestStatus_STATE = stFaulted ∧
      (faultMarked s r cause).fld (.ringManifestStatus r) F.ringManifestStatus_CAUSE = cause ∧
      (faultMarked s r cause).fld (.ringEvent r) F.ringEvent_FAULTED = 1 := by
  unfold faultMarked State.setRingState
  refine ⟨?_, ?_, ?_⟩
  · rw [fld_setFld_ne _ _ _ _ (addr_injective.ne (by simp)),
      fld_setFld_other _ _ _ _ _ ⟨by decide, by decide⟩ (by decide) (by decide), fld_setFld _ _ _ _ ⟨by decide, by decide⟩]
    rfl
  · rw [fld_setFld_ne _ _ _ _ (addr_injective.ne (by simp)), fld_setFld _ _ _ _ ⟨by decide, by decide⟩]
    exact Nat.mod_eq_of_lt hcause
  · rw [fld_setFld _ _ _ _ ⟨by decide, by decide⟩]
    rfl

/-- What a ring that a fault stops shows, and what it keeps (R53). -/
structure Faulted (r : Fin 8) (cause : Nat) (s t : State) : Prop where
  state : t.ringState r = stFaulted
  cause : t.fld (.ringManifestStatus r) F.ringManifestStatus_CAUSE = cause
  event : t.fld (.ringEvent r) F.ringEvent_FAULTED = 1
  waiting : (t.ring r).waiting = []
  stallSeq : (t.ring r).stallSeq = (s.ring r).stallSeq
  mem : ∀ d : Fin 16, (t.core d).mem = (s.core d).mem
  mwy : t.mwy = s.mwy

theorem Faulted.kept {cause : Nat} (h : Faulted r cause s t) (h' : FaultKept r t t') : Faulted r cause s t' := by
  refine ⟨?_, ?_, ?_, h'.waiting.trans h.waiting, h'.stallSeq.trans h.stallSeq, fun d => (h'.mem d).trans (h.mem d),
    h'.mwy.trans h.mwy⟩
  · rw [State.ringState, h'.status]
    exact h.state
  · rw [State.fld, h'.status]
    exact h.cause
  · rw [State.fld, h'.event]
    exact h.event

/-- A ring marked FAULTED, without its pending list. -/
theorem faulted_emptied {cause : Nat} (hcause : cause < 16) (h : FaultKept r (faultMarked s r cause) t) :
    Faulted r cause s (t.onRing r fun k => { k with waiting := [], admission := none }) := by
  obtain ⟨hstate, hcauseField, hevent⟩ := faultMarked_fields s r hcause
  refine ⟨?_, ?_, ?_, ?_, ?_, h.mem, h.mwy⟩
  · rw [State.ringState, reg_onRing, h.status]
    exact hstate
  · rw [fld_onRing, State.fld, h.status]
    exact hcauseField
  · rw [fld_onRing, State.fld, h.event]
    exact hevent
  · rw [ring_onRing]
  · rw [ring_onRing]
    exact h.stallSeq

/-- Its trace out and its result streams released, a ring marked FAULTED drops its pending list. -/
theorem faulted_pendingCleared {cause : Nat} (hcause : cause < 16) (h : FaultKept r (faultMarked s r cause) t) :
    Faulted r cause s (pendingCleared t r) :=
  faulted_emptied hcause (h.trans (faultKept_foldl (fun s _ => faultKept_setFld s _ 0 (by simp) (by simp)) (List.finRange 16) t))

theorem faulted_enterFaulted (s : State) (r : Fin 8) {cause : Nat} (hcause : cause < 16) :
    Faulted r cause s (s.enterFaulted r cause) :=
  ((faulted_pendingCleared hcause (faultKept_traceDrain _ r)).kept (faultKept_dropPending _ r stRingState)).kept
    (faultKept_contextsBack _ r)

theorem FaultKept.faulted {cause : Nat} (h : FaultKept r s t) (h' : Faulted r cause t t') : Faulted r cause s t' :=
  ⟨h'.state, h'.cause, h'.event, h'.waiting, h'.stallSeq.trans h.stallSeq, fun d => (h'.mem d).trans (h.mem d), h'.mwy.trans h.mwy⟩

/-- A stall raises the ring's stall count and faults the ring, whatever units wait (R130, R131). -/
theorem faulted_stallNow (s : State) (r : Fin 8) (c : Fin 16) :
    Faulted r cauStall (s.onRing r fun k => { k with stallSeq := (s.ring r).stallSeq + 1 }) (s.stallNow r c) := by
  unfold State.stallNow
  dsimp only
  split
  · exact faulted_enterFaulted _ r (by decide)
  · exact ((faultKept_record _ r _).trans (faultKept_foldl (fun s b => faultKept_recordMore s r _) _ _)).faulted
      (faulted_enterFaulted _ r (by decide))

theorem exec_stallFault (s : State) (r : Fin 8) (c : Fin 16) : exec (.stallFault r c) s =
    .next (if s.stalled r && (s.coresOf r).contains c && s.mayFault r then s.stallNow r c else s) := rfl

end

/-- Settles O22: the gathering buffer's flush, the crossings' deliveries operation by operation, and the stall. -/
theorem buffersDrainAndStallsFault : Obligations.BuffersDrainAndStallsFault := by
  unfold Obligations.BuffersDrainAndStallsFault
  refine ⟨⟨?_, fun s x h => crossingDeliver_idle h, ?_⟩, ?_⟩
  · intro s c line
    exact ⟨exec_gatherFlushIdle s c line, fun g hg herr => gatherFlush_one hg herr⟩
  · intro s x o rest htake hpath hclock
    have h : Delivers s x o rest := ⟨htake, hpath, hclock⟩
    refine ⟨?_, ?_, ?_, ?_, ?_, ?_, ?_⟩
    · rintro r n rfl
      exact deliver_clearFlag h
    · rintro r n rfl hpost htrig
      exact ⟨deliver_setFlag_untested h hpost htrig, fun w htests hw => deliver_setFlag_tested h hpost htrig htests hw⟩
    · rintro r on n set rfl
      refine ⟨?_, ?_⟩
      · rintro c rfl
        exact deliver_coreFlag h
      · rintro q rfl
        exact deliver_coreFlags h
    · rintro r u n rfl hasked
      exact deliver_look h hasked
    · rintro r u v rfl hx hasked
      exact deliver_answer h hx hasked
    · rintro r c cls late rfl
      exact ⟨deliver_hint_onward h, deliver_hint_booth h⟩
    · rintro r kind arg stamp rfl
      exact ⟨deliver_trigger_onward h, deliver_trigger_booth h⟩
  · intro s r c hcore hfault
    refine ⟨fun hstall => ?_, fun hstall => ?_⟩
    · have hstop := faulted_stallNow s r c
      refine ⟨s.stallNow r c, by rw [exec_stallFault, hstall, hcore, hfault]; rfl, hstop.state, hstop.cause, hstop.event,
        hstop.waiting, ?_, hstop.mem, hstop.mwy⟩
      rw [hstop.stallSeq, ring_onRing]
    · rw [exec_stallFault, hstall]
      rfl

end Sys2Proof.Machine
end

section
/-! SUPPORT. FLAG_WRITE (R51, R56, R124, R127, R313): a write of an event flag enters its crossing, and a parked ring holds it. -/

namespace Sys2Proof.Machine

/-- FLAG_WRITE_SET or FLAG_WRITE_CLEAR. -/
def flagWriteInstr (clear : Bool) (r : Fin 8) (index : Byte) (who : Who) : Instr :=
  if clear then .flagWriteClear r index who else .flagWriteSet r index who

/-- What a FLAG_WRITE puts into its crossing. -/
def flagWriteOp (clear : Bool) (r : Fin 8) (index : Byte) : CrossOp :=
  if clear then .clearFlag r (flagOf index) else .setFlag r (flagOf index)

theorem exec_flagWrite (clear : Bool) (r : Fin 8) (index : Byte) (who : Who) (s : State) :
    exec (flagWriteInstr clear r index who) s = .next (s.flagControl r who (flagOf index) clear).1 := by
  cases clear <;> rfl

/-- The low nine bits of the word tell the flag, and whether it is cleared. -/
theorem flagWord_low (index : Byte) (clear : Bool) :
    (flagWord (flagOf index) clear).toNat % 512 = 256 * bitNat clear + index.toNat := by
  have hindex : (flagOf index).val = index.toNat := rfl
  have hlt : index.toNat < 256 := index.isLt
  cases clear <;> simp only [flagWord, bitNat, hindex, BitVec.toNat_ofNat] <;> simp <;> omega

section
variable {s : State} {r : Fin 8} {index : Byte} {who : Who} (clear : Bool)

theorem flagWrite_event (h : Heard s r who) (hevent : 192 ≤ index.toNat) :
    ∃ t, exec (flagWriteInstr clear r index who) s = .next t ∧ Sends s t .ethToConcourse (flagWriteOp clear r index) ∧
      t.rings = s.rings ∧ t.cores = s.cores ∧ t.regs = s.regs := by
  have hact : s.flagWriteNow r (flagOf index) clear = (s.crossPut .ethToConcourse (flagWriteOp clear r index), stOk) :=
    if_neg (Nat.not_lt.mpr hevent)
  have hkept := onlyCrossings_crossPut s .ethToConcourse (flagWriteOp clear r index)
  exact ⟨_, by rw [exec_flagWrite, State.flagControl, request_heard _ _ _ h, hact], sends_crossPut _ _ _, hkept.rings,
    hkept.cores, hkept.regs⟩

theorem flagWrite_reserved (h : Heard s r who) (hlow : index.toNat < 192) :
    exec (flagWriteInstr clear r index who) s = .next s := by
  have hact : s.flagWriteNow r (flagOf index) clear = (s, stAccessFlag) := if_pos hlow
  rw [exec_flagWrite, State.flagControl, request_heard _ _ _ h, hact]

theorem flagWrite_held (h : MayAsk s r who) (hholds : s.holdsWrites r = true) (hwho : who ≠ .booth)
    (hroom : (s.ring r).held.length < 256) : ∃ t w, exec (flagWriteInstr clear r index who) s = .next t ∧ SameCrossings s t ∧
      (t.ring r).held = (s.ring r).held ++ [⟨who, BitVec.ofNat 32 (Reg.ringFlagWrite r).addr, w⟩] ∧
      w.toNat % 512 = 256 * bitNat clear + index.toNat := by
  have hexec := exec_flagWrite clear r index who s
  rw [State.flagControl, request_held _ _ _ h hholds hwho hroom] at hexec
  exact ⟨_, _, hexec, ⟨rfl, rfl⟩, by rw [ring_onRing], flagWord_low index clear⟩

theorem flagWrite_denied (h : s.ringAccess r who = false) : exec (flagWriteInstr clear r index who) s = .next s := by
  rw [exec_flagWrite, State.flagControl, request_denied _ _ _ h]

end

/-- Settles O28: each of the two writes, by who asks, the flag's number and whether the ring holds writes. -/
theorem flagWritesReachEventFlags : Obligations.FlagWritesReachEventFlags := by
  unfold Obligations.FlagWritesReachEventFlags
  intro s r index who
  refine ⟨fun h hevent => ⟨flagWrite_event false h hevent, flagWrite_event true h hevent⟩,
    fun h hlow => ⟨flagWrite_reserved false h hlow, flagWrite_reserved true h hlow⟩,
    fun h hholds hwho hroom => ⟨?_, flagWrite_held true h hholds hwho hroom⟩,
    fun h => ⟨flagWrite_denied false h, flagWrite_denied true h⟩⟩
  obtain ⟨t, w, hexec, hcross, hheld, hw⟩ := flagWrite_held (index := index) false h hholds hwho hroom
  exact ⟨t, w, hexec, hcross, hheld, by simpa [bitNat] using hw⟩

end Sys2Proof.Machine
end

section
/-! SUPPORT. What several registers set at once, and what the release and the fresh load of a ring leave alone (R36, R48, R54, R139).
And the statement about RING_START. -/

namespace Sys2Proof.Machine

/-! ## Registers set one after the other -/

section
variable {s t u : State} {l l' : List Reg}

theorem OnlyRegs.refl (l : List Reg) (s : State) : OnlyRegs l s s := ⟨rfl, fun _ _ => rfl⟩

theorem KeepsRegs.trans (h : KeepsRegs l s t) (g : KeepsRegs l t u) : KeepsRegs l s u :=
  fun q hq => (g q hq).trans (h q hq)

theorem KeepsRegs.mono (h : KeepsRegs l s t) (hl : l ⊆ l') : KeepsRegs l' s t := fun q hq => h q fun hm => hq (hl hm)

theorem OnlyRegs.trans (h : OnlyRegs l s t) (g : OnlyRegs l t u) : OnlyRegs l s u := by
  obtain ⟨hs, hkeep⟩ := h
  obtain ⟨ht, gkeep⟩ := g
  exact ⟨by rw [ht, hs], hkeep.trans gkeep⟩

theorem OnlyRegs.mono (h : OnlyRegs l s t) (hl : l ⊆ l') : OnlyRegs l' s t := ⟨h.1, h.2.mono hl⟩

theorem OnlyRegs.rings (h : OnlyRegs l s t) : t.rings = s.rings := by rw [h.1]
theorem OnlyRegs.cores (h : OnlyRegs l s t) : t.cores = s.cores := by rw [h.1]
theorem OnlyRegs.mwy (h : OnlyRegs l s t) : t.mwy = s.mwy := by rw [h.1]
theorem OnlyRegs.ring (h : OnlyRegs l s t) (r : Fin 8) : t.ring r = s.ring r := by rw [State.ring, State.ring, h.rings]
theorem OnlyRegs.core (h : OnlyRegs l s t) (c : Fin 16) : t.core c = s.core c := by rw [State.core, State.core, h.cores]

theorem OnlyRegs.foldl {α : Type} {f : State → α → State} (hf : ∀ s a, OnlyRegs l s (f s a)) (x : List α) (s : State) :
    OnlyRegs l s (x.foldl f s) := by
  induction x generalizing s with
  | nil => exact .refl l s
  | cons a x ih => exact (hf s a).trans (ih _)

theorem onlyRegs_setFld (s : State) (g : Reg) (f : Fld) (n : Nat) : OnlyRegs [g] s (s.setFld g f n) := onlyRegs_setReg s g _

theorem OnlyRegs.setReg {g : Reg} (h : OnlyRegs l s t) (v : Word) (hg : g ∈ l) : OnlyRegs l s (t.setReg g v) :=
  h.trans ((onlyRegs_setReg t g v).mono (by simpa using hg))

theorem OnlyRegs.setFld {g : Reg} (h : OnlyRegs l s t) (f : Fld) (n : Nat) (hg : g ∈ l) : OnlyRegs l s (t.setFld g f n) :=
  h.setReg _ hg

theorem onlyRegs_setRegs (x : List (Reg × Word)) (s : State) : OnlyRegs (x.map Prod.fst) s (s.setRegs x) := by
  induction x generalizing s with
  | nil => exact .refl _ s
  | cons p x ih =>
    exact ((onlyRegs_setReg s p.1 p.2).mono (by simp)).trans ((ih _).mono (by simp))

end

/-- Registers set to zero, among others, read zero. -/
theorem reg_setRegs_zero {g : Reg} {x : List (Reg × Word)} (hg : g ∈ x.map Prod.fst) (hzero : ∀ p ∈ x, p.2 = 0) (s : State) :
    (s.setRegs x).reg g = 0 := by
  induction x generalizing s with
  | nil => cases hg
  | cons p x ih =>
    have hp : p.2 = 0 := hzero p (by simp)
    show ((s.setReg p.1 p.2).setRegs x).reg g = 0
    by_cases hx : g ∈ x.map Prod.fst
    · exact ih hx (fun q hq => hzero q (by simp [hq])) _
    · obtain rfl : g = p.1 := by simpa [hx] using hg
      rw [(onlyRegs_setRegs x _).2 _ hx, reg_setReg, hp]

/-- No field of a register that reads zero is set. -/
theorem fld_of_reg_zero {s : State} {g : Reg} (h : s.reg g = 0) (f : Fld) : s.fld g f = 0 := by
  simp [State.fld, h, Fld.get]

/-! ## The state that a ring shows -/

theorem ringState_eq_fld (s : State) (r : Fin 8) : s.ringState r = s.fld (.ringManifestStatus r) F.ringManifestStatus_STATE := rfl

/-- A ring given a state and a cause shows them. -/
theorem setRingState_fields (s : State) (r : Fin 8) {st cause : Nat} (hst : st < 16) (hcause : cause < 16) :
    (s.setRingState r st cause).ringState r = st ∧
      (s.setRingState r st cause).fld (.ringManifestStatus r) F.ringManifestStatus_CAUSE = cause := by
  unfold State.setRingState
  refine ⟨?_, ?_⟩
  · rw [ringState_eq_fld, fld_setFld_other _ _ _ _ _ ⟨by decide, by decide⟩ (by decide) (by decide),
      fld_setFld _ _ _ _ ⟨by decide, by decide⟩]
    exact Nat.mod_eq_of_lt hst
  · rw [fld_setFld _ _ _ _ ⟨by decide, by decide⟩]
    exact Nat.mod_eq_of_lt hcause

/-! ## What a ring's own turns leave alone -/

/-- No other ring, no byte of a memory differs. -/
structure RingTurn (r : Fin 8) (s t : State) : Prop where
  others : OnlyRing r s t
  mwy : t.mwy = s.mwy
  dram : t.dram = s.dram
  mem : ∀ c : Fin 16, (t.core c).mem = (s.core c).mem

section
variable {r : Fin 8} {s t u : State}

theorem RingTurn.refl (r : Fin 8) (s : State) : RingTurn r s s := ⟨fun _ _ => rfl, rfl, rfl, fun _ => rfl⟩

theorem RingTurn.trans (h : RingTurn r s t) (g : RingTurn r t u) : RingTurn r s u :=
  ⟨fun q hq => (g.others q hq).trans (h.others q hq), g.mwy.trans h.mwy, g.dram.trans h.dram,
    fun c => (g.mem c).trans (h.mem c)⟩

theorem RingTurn.foldl {α : Type} {f : State → α → State} (hf : ∀ s a, RingTurn r s (f s a)) (l : List α) (s : State) :
    RingTurn r s (l.foldl f s) := by
  induction l generalizing s with
  | nil => exact .refl r s
  | cons a l ih => exact (hf s a).trans (ih _)

theorem OnlyRegs.ringTurn {l : List Reg} (r : Fin 8) (h : OnlyRegs l s t) : RingTurn r s t := by
  obtain ⟨hs, -⟩ := h
  rw [hs]
  exact ⟨fun _ _ => rfl, rfl, rfl, fun _ => rfl⟩

theorem ringTurn_onRing (s : State) (r : Fin 8) (f : Ring → Ring) : RingTurn r s (s.onRing r f) :=
  ⟨onlyRing_onRing s r f, rfl, rfl, fun _ => rfl⟩

theorem ringTurn_onEp (s : State) (r : Fin 8) (e : Fin 64) (f : Endpoint → Endpoint) : RingTurn r s (s.onEp e f) :=
  ⟨fun _ _ => rfl, rfl, rfl, fun _ => rfl⟩

theorem ringTurn_onCore (s : State) (r : Fin 8) (c : Fin 16) {f : Core → Core} (h : ∀ k, (f k).mem = k.mem) :
    RingTurn r s (s.onCore c f) := by
  refine ⟨fun _ _ => rfl, rfl, rfl, fun d => ?_⟩
  by_cases hd : c = d
  · subst hd
    rw [core_onCore, h]
  · rw [core_onCore_ne s f hd]

end

theorem ringTurn_ownSlices (s : State) (r : Fin 8) (own : Bool) : RingTurn r s (s.ownSlices r own) :=
  RingTurn.foldl (fun s _ => ((onlyRegs_setFld s _ _ _).ringTurn r).trans ((onlyRegs_setFld _ _ _ _).ringTurn r)) _ s

theorem ringTurn_unbindEndpoints (s : State) (r : Fin 8) : RingTurn r s (s.unbindEndpoints r) :=
  RingTurn.foldl (fun s _ => ((onlyRegs_setReg s _ _).ringTurn r).trans (ringTurn_onEp _ r _ _)) _ s

theorem ringTurn_releaseRing (s : State) (r : Fin 8) : RingTurn r s (s.releaseRing r) := by
  have hunbound := (ringTurn_ownSlices s r false).trans (ringTurn_unbindEndpoints _ r)
  have hidle := hunbound.trans (RingTurn.foldl (f := fun s c => s.onCore c idleCore)
    (fun s c => ringTurn_onCore s r c fun _ => rfl) (s.coresOf r) _)
  unfold State.releaseRing
  exact ((hidle.trans ((onlyRegs_setReg _ _ _).ringTurn r)).trans ((onlyRegs_setReg _ _ _).ringTurn r)).trans
    (ringTurn_onRing _ r _)

/-- A released ring has no resources. -/
theorem releaseRing_unbound (s : State) (r : Fin 8) :
    ((s.releaseRing r).ring r).bound = false ∧ (s.releaseRing r).reg (.ringResources r) = 0 := by
  unfold State.releaseRing
  refine ⟨by rw [ring_onRing], ?_⟩
  rw [reg_onRing, reg_setReg_ne _ _ (addr_injective.ne (by simp)), reg_setReg]

/-! ## RING_START -/

/-- The registers that the fresh load of a ring changes (R48, R139). -/
def loadingRegs (r : Fin 8) : List Reg := .ringManifestStatus r :: .ringHint r :: (ringCounters r).map Prod.fst

/-- The state of START from a state in which the ring holds what it is to hold (R49). -/
def startLoading (s : State) (r : Fin 8) : State := (s.enterLoading r).onRing r fun k => { k with starting := true }

section
variable (s : State) (r : Fin 8)

/-- LOADING, with its fault queue cleared and its contexts counted anew, before the counters are zeroed. -/
def loadingMarked (s : State) (r : Fin 8) : State := (s.setRingState r stLoading 0).onRing r fun k => { k with faults := [], openCount := 1 }

theorem onlyRegs_enterLoading : OnlyRegs (loadingRegs r) (loadingMarked s r) (s.enterLoading r) := by
  have hcounters : (ringCounters r).map Prod.fst ⊆ loadingRegs r :=
    fun _ hg => List.mem_cons_of_mem _ (List.mem_cons_of_mem _ hg)
  have hhint : Reg.ringHint r ∈ loadingRegs r := List.mem_cons_of_mem _ List.mem_cons_self
  exact ((onlyRegs_setRegs (ringCounters r) (loadingMarked s r)).mono hcounters).setFld _ _ hhint

theorem ring_enterLoading (q : Fin 8) : (s.enterLoading r).ring q = (loadingMarked s r).ring q :=
  (onlyRegs_enterLoading s r).ring q

/-- Every counter of a ring is set to zero. -/
theorem ringCounters_zero : ∀ p ∈ ringCounters r, p.2 = 0 := List.forall_mem_map.mpr fun _ _ => rfl

theorem status_enterLoading : (s.enterLoading r).reg (.ringManifestStatus r) = (s.setRingState r stLoading 0).reg (.ringManifestStatus r) := by
  have hstatus : Reg.ringManifestStatus r ∉ (ringCounters r).map Prod.fst := by simp [ringCounters]
  unfold State.enterLoading
  dsimp only
  rw [reg_setFld_ne _ _ _ (addr_injective.ne (by simp)), (onlyRegs_setRegs _ _).2 _ hstatus, reg_onRing]

theorem ringTurn_startLoading : RingTurn r s (startLoading s r) :=
  ((((onlyRegs_setFld s _ _ _).ringTurn r).trans ((onlyRegs_setFld _ _ _ _).ringTurn r)).trans (ringTurn_onRing _ r _)).trans
    (((onlyRegs_enterLoading s r).ringTurn r).trans (ringTurn_onRing _ r _))

theorem startLoading_ring : (startLoading s r).ringState r = stLoading ∧
    (startLoading s r).fld (.ringManifestStatus r) F.ringManifestStatus_CAUSE = 0 ∧
    (startLoading s r).ring r = { s.ring r with faults := [], openCount := 1, starting := true } := by
  obtain ⟨hstate, hcause⟩ := setRingState_fields s r (st := stLoading) (cause := 0) (by decide) (by decide)
  refine ⟨?_, ?_, ?_⟩
  · rw [ringState_eq_fld, startLoading, fld_onRing, State.fld, status_enterLoading]
    exact hstate
  · rw [startLoading, fld_onRing, State.fld, status_enterLoading]
    exact hcause
  · rw [startLoading, ring_onRing, ring_enterLoading, loadingMarked, ring_onRing]
    rfl

theorem startLoading_counters : (startLoading s r).reg (.ringInvokeDropped r) = 0 ∧
    (startLoading s r).fld (.ringHint r) F.ringHint_LATE = 0 ∧
    (startLoading s r).reg (.ringResources r) = s.reg (.ringResources r) := by
  have hkeeps : Reg.ringResources r ∉ loadingRegs r := by simp [loadingRegs, ringCounters]
  refine ⟨?_, ?_, ?_⟩
  · rw [startLoading, reg_onRing]
    unfold State.enterLoading
    dsimp only
    rw [reg_setFld_ne _ _ _ (addr_injective.ne (by simp)), reg_setRegs_zero (by simp [ringCounters]) (ringCounters_zero r)]
  · rw [startLoading, fld_onRing]
    exact fld_setFld _ _ _ _ ⟨by decide, by decide⟩
  · rw [startLoading, reg_onRing, (onlyRegs_enterLoading s r).2 _ hkeeps, loadingMarked, reg_onRing, State.setRingState,
      reg_setFld_ne _ _ _ (addr_injective.ne (by simp)), reg_setFld_ne _ _ _ (addr_injective.ne (by simp))]

/-- What START from LOADED, STOPPED or FAILED does: from the latter two the ring is unbound first. -/
theorem startNow_starts (h : s.ringState r = stLoaded ∨ s.ringState r = stStopped ∨ s.ringState r = stFailed) :
    ∃ s0, s.startNow r = startLoading s0 r ∧ RingTurn r s s0 ∧
      (s.ringState r ≠ stLoaded → (s0.ring r).bound = false ∧ s0.reg (.ringResources r) = 0) := by
  unfold State.startNow
  by_cases hloaded : s.ringState r = stLoaded
  · exact ⟨s, if_pos hloaded, .refl r s, fun hne => absurd hloaded hne⟩
  · exact ⟨s.releaseRing r, by rw [if_neg hloaded, if_pos (h.resolve_left hloaded)]; rfl, ringTurn_releaseRing s r,
      fun _ => releaseRing_unbound s r⟩

theorem startNow_refuses (hl : s.ringState r ≠ stLoaded) (hs : s.ringState r ≠ stStopped) (hf : s.ringState r ≠ stFailed) :
    s.startNow r = s.refuseRing r := by
  unfold State.startNow
  rw [if_neg hl, if_neg (by simp [hs, hf])]

/-- A refused request raises REFUSED and changes nothing else. -/
theorem refuseRing_shows : (s.refuseRing r).fld (.ringEvent r) F.ringEvent_REFUSED = 1 ∧
    (s.refuseRing r).ringState r = s.ringState r ∧ (s.refuseRing r).rings = s.rings ∧ (s.refuseRing r).cores = s.cores :=
  ⟨fld_setFld _ _ _ _ ⟨by decide, by decide⟩, fld_setFld_ne _ _ _ _ (addr_injective.ne (by simp)), rfl, rfl⟩

end

section
variable {s : State} {r : Fin 8} {who : Who} (act : State → State)

theorem ringRequest_asked (h : MayAsk s r who) : (s.ringRequest r who act).1 = act s := by
  obtain ⟨hawake, haccess⟩ := h
  simp [State.ringRequest, hawake, haccess]

theorem ringRequest_denied (h : s.ringAccess r who = false) : (s.ringRequest r who act).1 = s := by
  unfold State.ringRequest
  split <;> simp [h]

theorem exec_ringStart (r : Fin 8) (who : Who) (s : State) :
    exec (.ringStart r who) s = .next (s.ringRequest r who fun s => s.startNow r).1 := rfl

end

/-- Settles O23: START by the ring's state, and by the right of its sender. -/
theorem startEntersLoading : Obligations.StartEntersLoading := by
  unfold Obligations.StartEntersLoading
  intro s r who
  refine ⟨fun h hstate => ?_, fun h hl hs hf => ?_, fun h => by rw [exec_ringStart, ringRequest_denied _ h]⟩
  · obtain ⟨s0, hstart, hturn, hunbound⟩ := startNow_starts s r hstate
    obtain ⟨hloading, hcause, hring⟩ := startLoading_ring s0 r
    obtain ⟨hdropped, hlate, hresources⟩ := startLoading_counters s0 r
    have hall := hturn.trans (ringTurn_startLoading s0 r)
    refine ⟨startLoading s0 r, by rw [exec_ringStart, ringRequest_asked _ h, hstart], hloading, hcause, by rw [hring],
      by rw [hring], hdropped, hlate, fun hne => ?_, hall.others, hall.mwy, by rw [hall.dram], hall.mem⟩
    rw [hring, hresources]
    exact hunbound hne
  · exact ⟨_, by rw [exec_ringStart, ringRequest_asked _ h, startNow_refuses s r hl hs hf], refuseRing_shows s r⟩

end Sys2Proof.Machine
end

section
/-! SUPPORT. What access to the midway and to DRAM keeps. A property of states that survives reports, records and changes of the
memories survives every read and write that no command of a ring makes: midway words are decoded, DRAM lines are checked, and what
is found is counted, shown and recorded (R146, R174, R183, R184, R446). -/

namespace Sys2Proof.Machine

/-- A record of no core is a report alone. -/
theorem reports_record {s : State} {ring : Option (Fin 8)} {faulting : Bool} {i : FaultInfo} (h : i.island ≠ isCore) :
    Reports s (s.record ring faulting i) := by
  unfold State.record
  dsimp only
  rw [if_neg h]
  exact (reports_faultSeq s _).trans (reports_fileRecord _ _ _ _ _)

/-- What reports, records and changes of the memories keep. -/
structure AccessKeeps (P : State → Prop) : Prop where
  traces : ∀ {c : Fin 16} {t u : State}, P t → Traces c t u → P u
  eccCount : ∀ {t : State} {m : Fin 8} {v : Word}, P t → P (t.setReg (.errSliceEcc m) v)
  sliceStatus : ∀ {t : State} {m : Fin 8} {v : Word}, P t → P (t.setReg (.mwySliceStatus m) v)
  midway : ∀ {t : State} {m : SparseMap 8} {b : SparseMap 1} {x : SparseMap 8}, P t → P { t with mwy := m, mwyBad := b, mwyFlips := x }
  lines : ∀ {t : State} {d : Dram}, P t → P { t with dram := d }

namespace AccessKeeps

variable {P : State → Prop} {t : State}

theorem reports (hP : AccessKeeps P) {u : State} (h : P t) (g : Reports t u) : P u := hP.traces h (g.traces 0)

theorem record (hP : AccessKeeps P) {ring : Option (Fin 8)} {faulting : Bool} {i : FaultInfo} (h : P t) :
    P (t.record ring faulting i) := by
  have hseq := hP.reports h (reports_faultSeq t (t.faultSeq + 1))
  unfold State.record
  dsimp only
  refine hP.reports ?_ (reports_fileRecord _ _ _ _ _)
  split
  · exact hP.traces hseq (traces_trace _ _ _ _ _ _)
  · exact hseq

/-! ## The midway -/

theorem sliceBad (hP : AccessKeeps P) {ring : Option (Fin 8)} {tag : Tag} {n : Nat} (h : P t) : P (t.sliceBad ring tag n) :=
  hP.record (hP.midway (hP.eccCount h))

theorem sliceDecode (hP : AccessKeeps P) {r : Fin 8} {tag : Tag} {n : Nat} (h : P t) : P (t.sliceDecode r tag n) := by
  unfold State.sliceDecode
  split
  · exact h
  · split
    · exact h
    · exact hP.eccCount h
    · exact hP.sliceBad h

theorem mwyRead (hP : AccessKeeps P) {r : Fin 8} {tag : Tag} {a n : Nat} (h : P t) : P (t.mwyRead r tag a n).1 :=
  foldl_keeps (fun _ _ h => hP.sliceStatus h) _ _ (foldl_keeps (fun _ _ h => hP.sliceDecode h) _ _ h)

theorem mwyWrite (hP : AccessKeeps P) {r : Fin 8} {tag : Tag} {a : Nat} {d : List PByte} (h : P t) : P (t.mwyWrite r tag a d) :=
  hP.midway (foldl_keeps (fun _ _ h => hP.sliceDecode h) _ _ h)

/-! ## DRAM -/

/-- A requester that is no ring's command records its errors. -/
theorem report (hP : AccessKeeps P) {q : Requester} (hq : q.faults = none) (b : Bool) (i : FaultInfo) (t : State) (h : P t) :
    P (q.report b i t) := by
  unfold Requester.report
  rw [hq]
  split
  · contradiction
  · exact hP.record h

section
variable {rep : Bool → FaultInfo → State → State} {q : Requester} {tag : Tag}

theorem lineError (hP : AccessKeeps P) (hrep : ∀ b i t, P t → P (rep b i t)) {n access : Nat} {v : Verdict} (h : P t) :
    P (State.lineError rep t q tag n access v) := by
  unfold State.lineError
  split
  · exact h
  · exact hrep _ _ _ (hP.reports h (reports_ddrShow t q _ _ _))

theorem lineReadBy (hP : AccessKeeps P) (hrep : ∀ b i t, P t → P (rep b i t)) {gen : Option (BitVec 16)} {n : Nat} (h : P t) :
    P (State.lineReadBy rep t q tag gen n).1 := hP.lineError hrep (hP.reports h (reports_ddrCount t n _))

theorem linesReadBy (hP : AccessKeeps P) (hrep : ∀ b i t, P t → P (rep b i t)) {gen : Option (BitVec 16)} {k n : Nat} (h : P t) :
    P (State.linesReadBy rep q tag gen k n t).1 := by
  induction k generalizing n t with
  | zero => exact h
  | succ k ih =>
    have hline := hP.lineReadBy (q := q) (tag := tag) (gen := gen) (n := n) hrep h
    unfold State.linesReadBy
    split
    next heq =>
      rw [heq] at hline
      exact hline
    next heq =>
      rw [heq] at hline
      have hrest := ih (n := n + 1) hline
      split
      next heq' =>
        rw [heq'] at hrest
        exact hrest
      next heq' =>
        rw [heq'] at hrest
        exact hrest

theorem rangeReadBy (hP : AccessKeeps P) (hrep : ∀ b i t, P t → P (rep b i t)) {gen : Option (BitVec 16)} {a n : Nat} (h : P t) :
    P (State.rangeReadBy rep t q tag gen a n).1 := by
  have hall := hP.linesReadBy (q := q) (tag := tag) (gen := gen) (k := (a + n + 63) / 64 - a / 64) (n := a / 64) hrep h
  unfold State.rangeReadBy
  split
  next heq =>
    rw [heq] at hall
    exact hall
  next heq =>
    rw [heq] at hall
    exact hall

theorem lineWriteBy (hP : AccessKeeps P) (hrep : ∀ b i t, P t → P (rep b i t)) {gen : BitVec 16} {n a : Nat} {d : List PByte}
    (h : P t) : P (State.lineWriteBy rep t q tag gen n a d).1 := by
  have herror : ∀ v, P (State.lineError rep (t.ddrCount n v) q tag n 1 v) := fun v =>
    hP.lineError hrep (hP.reports h (reports_ddrCount t n v))
  unfold State.lineWriteBy
  split
  · exact hP.lines h
  · dsimp only
    split
    · exact herror _
    · exact hP.lines (herror _)

theorem linesWriteBy (hP : AccessKeeps P) (hrep : ∀ b i t, P t → P (rep b i t)) {gen : BitVec 16} {k a : Nat} {d : List PByte}
    (h : P t) : P (State.linesWriteBy rep q tag gen k a d t).1 := by
  induction k generalizing a d t with
  | zero => exact h
  | succ k ih =>
    unfold State.linesWriteBy
    split
    · exact h
    · have hline := hP.lineWriteBy (q := q) (tag := tag) (gen := gen) (n := a / 64) (a := a % 64)
        (d := d.take (min d.length (64 - a % 64))) hrep h
      dsimp only
      split
      next heq =>
        rw [heq] at hline
        exact hline
      next heq =>
        rw [heq] at hline
        exact ih hline

end

theorem dramRead (hP : AccessKeeps P) {q : Requester} {tag : Tag} {gen : Option (BitVec 16)} {a n : Nat} (h : P t)
    (hq : q.faults = none) : P (t.dramRead q tag gen a n).1 := by
  unfold State.dramRead
  split
  · exact h
  · split
    · exact hP.rangeReadBy (hP.report hq) h
    · exact hP.report hq _ _ _ h

theorem dramWrite (hP : AccessKeeps P) {q : Requester} {tag : Tag} {gen : BitVec 16} {a : Nat} {d : List PByte} (h : P t)
    (hq : q.faults = none) : P (t.dramWrite q tag gen a d).1 := by
  unfold State.dramWrite
  split
  · exact h
  · split
    · exact hP.linesWriteBy (hP.report hq) h
    · exact hP.report hq _ _ _ h

/-! ## A ring's memories, for the L9 (R259, R313) -/

theorem bufRead (hP : AccessKeeps P) {r : Fin 8} {a : DWord} {o n : Nat} (h : P t) : P (t.bufRead r a o n).1 := by
  unfold State.bufRead
  split
  · exact hP.dramRead h rfl
  · exact hP.mwyRead h

theorem bufWrite (hP : AccessKeeps P) {r : Fin 8} {a : DWord} {o : Nat} {d : List PByte} (h : P t) : P (t.bufWrite r a o d).1 := by
  unfold State.bufWrite
  split
  · exact hP.dramWrite h rfl
  · exact hP.mwyWrite h

end AccessKeeps

end Sys2Proof.Machine
end

section
/-! SUPPORT. What work in the background shows: messages, records, traces, result streams, sample channels, contexts, windows and
frequencies have registers of their own. The registers in which a ring, the boot, the ports, DRAM and the security processor
show their states change only where a command changes them. `ShownKept.f` says that the model's function `f` leaves them alone. -/

namespace Sys2Proof.Machine

/-- The registers that show the state of a ring, of the boot, of a port, of DRAM, of the security processor. -/
def shownReg : Reg → Bool
  | .ringManifestStatus _ | .ringEvent _ | .ringResources _ | .bootStatus | .bootNet | .ddrConfig | .ddrStatus | .secStatus
  | .secRingDebug _ | .secResult | .secEvent | .trzPortStatus _ => true
  | _ => false

/-- Of these registers only those of a list may differ; security store and boot are as before. -/
structure ShownKept (l : List Reg) (s t : State) : Prop where
  regs : ∀ q : Reg, shownReg q = true → q ∉ l → t.reg q = s.reg q
  sec : t.sec = s.sec
  boot : t.boot = s.boot

/-- A register that the reports of errors show is none of them. -/
theorem shownReg_of_report {q : Reg} (h : q.addr ∈ reportAddrs) : shownReg q = false := by
  simp only [reportAddrs, List.mem_append, List.mem_cons, List.mem_map, addr_injective.eq_iff, List.not_mem_nil, or_false] at h
  obtain (((rfl | rfl | rfl | rfl) | ⟨u, -, rfl⟩) | ⟨u, -, rfl⟩) | ⟨u, -, rfl⟩ := h
  all_goals rfl

section
variable {l l' : List Reg} {s t u : State}

theorem ShownKept.refl (l : List Reg) (s : State) : ShownKept l s s := ⟨fun _ _ _ => rfl, rfl, rfl⟩

theorem ShownKept.trans (h : ShownKept l s t) (g : ShownKept l t u) : ShownKept l s u :=
  ⟨fun q hf hq => (g.regs q hf hq).trans (h.regs q hf hq), g.sec.trans h.sec, g.boot.trans h.boot⟩

theorem ShownKept.mono (h : ShownKept l s t) (hl : l ⊆ l') : ShownKept l' s t :=
  ⟨fun q hf hq => h.regs q hf fun hm => hq (hl hm), h.sec, h.boot⟩

/-- What changes neither a register nor the security store nor the boot. -/
theorem ShownKept.same (h : ShownKept l s t) (hr : u.regs = t.regs) (hs : u.sec = t.sec) (hb : u.boot = t.boot) : ShownKept l s u :=
  h.trans ⟨fun q _ _ => by rw [State.reg, State.reg, hr], hs, hb⟩

theorem ShownKept.fld (h : ShownKept l s t) {q : Reg} (hf : shownReg q = true) (hq : q ∉ l) (f : Fld) : t.fld q f = s.fld q f := by
  rw [State.fld, State.fld, h.regs q hf hq]

theorem ShownKept.ringState (h : ShownKept l s t) {r : Fin 8} (hq : .ringManifestStatus r ∉ l) : t.ringState r = s.ringState r :=
  h.fld rfl hq _

theorem ShownKept.coresOf (h : ShownKept l s t) {r : Fin 8} (hq : .ringResources r ∉ l) : t.coresOf r = s.coresOf r := by
  simp only [State.coresOf, State.ringMask, h.regs (.ringResources r) rfl hq]

theorem ShownKept.slicesOf (h : ShownKept l s t) {r : Fin 8} (hq : .ringResources r ∉ l) : t.slicesOf r = s.slicesOf r := by
  simp only [State.slicesOf, h.regs (.ringResources r) rfl hq]

end

section
variable {l : List Reg} {s t u : State} {r : Fin 8}

theorem ShownKept.ite {b : Prop} {_ : Decidable b} (ht : ShownKept l s t) (hu : ShownKept l s u) : ShownKept l s (if b then t else u) := by
  split
  · exact ht
  · exact hu

theorem ShownKept.iteFst {α : Type} {b : Prop} {_ : Decidable b} {p q : State × α} (hp : ShownKept l s p.1) (hq : ShownKept l s q.1) :
    ShownKept l s (if b then p else q).1 := by
  split
  · exact hp
  · exact hq

theorem ShownKept.foldl {α : Type} {f : State → α → State} {x : List α} (h : ShownKept l s t)
    (hf : ∀ t a, ShownKept l s t → ShownKept l s (f t a)) : ShownKept l s (x.foldl f t) :=
  foldl_keeps (fun t a ht => hf t a ht) x t h

/-- What is not shown, or may differ, is set. -/
theorem ShownKept.setReg {g : Reg} {v : Word} (h : ShownKept l s t) (hg : shownReg g = true → g ∈ l) : ShownKept l s (t.setReg g v) :=
  h.trans ⟨fun _ hf hq => reg_setReg_ne t v (addr_injective.ne fun he => hq (he ▸ hg (he ▸ hf))), rfl, rfl⟩

/-- A register that is not shown is set. -/
theorem ShownKept.setBack {g : Reg} {v : Word} (h : ShownKept l s t) (hg : shownReg g = false) : ShownKept l s (t.setReg g v) :=
  h.setReg fun hf => by rw [hg] at hf; cases hf

theorem ShownKept.setFld {g : Reg} {f : Fld} {n : Nat} (h : ShownKept l s t) (hg : shownReg g = false) : ShownKept l s (t.setFld g f n) :=
  h.setBack hg

theorem ShownKept.bump {g : Reg} {f : Fld} {n : Nat} (h : ShownKept l s t) (hg : shownReg g = false) : ShownKept l s (t.bump g f n) :=
  h.setBack hg

theorem ShownKept.setRegs {x : List (Reg × Word)} (h : ShownKept l s t) (hx : ∀ p ∈ x, shownReg p.1 = false) :
    ShownKept l s (t.setRegs x) := by
  induction x generalizing t with
  | nil => exact h
  | cons p x ih => exact ih (h.setBack (hx p (by simp))) fun q hq => hx q (by simp [hq])

theorem ShownKept.onRing {f : Ring → Ring} (h : ShownKept l s t) : ShownKept l s (t.onRing r f) := h.same rfl rfl rfl

theorem ShownKept.onCore {c : Fin 16} {f : Core → Core} (h : ShownKept l s t) : ShownKept l s (t.onCore c f) := h.same rfl rfl rfl

theorem ShownKept.onEp {e : Fin 64} {f : Endpoint → Endpoint} (h : ShownKept l s t) : ShownKept l s (t.onEp e f) := h.same rfl rfl rfl

theorem ShownKept.crossPut {x : Crossing} {o : CrossOp} (h : ShownKept l s t) : ShownKept l s (t.crossPut x o) := by
  have hrest := (onlyCrossings_crossPut t x o).rest
  refine h.same ?_ ?_ ?_ <;> rw [hrest]

theorem Traces.shownKept {c : Fin 16} (l : List Reg) (h : Traces c s t) : ShownKept l s t := by
  have hrest := h.rest
  refine ⟨fun q hf _ => h.regs q (fun hq => ?_) (addr_injective.ne ?_) (addr_injective.ne ?_), by rw [hrest], by rw [hrest]⟩
  · rw [shownReg_of_report hq] at hf
    cases hf
  · rintro rfl
    cases hf
  · rintro rfl
    cases hf

theorem ShownKept.traces {c : Fin 16} (h : ShownKept l s t) (g : Traces c t u) : ShownKept l s u := h.trans (g.shownKept l)

theorem ShownKept.reports (h : ShownKept l s t) (g : Reports t u) : ShownKept l s u := h.traces (g.traces 0)

/-! ## Records and messages -/

theorem ShownKept.trace {c : Fin 16} {event operand q : Nat} {tag : Tag} (h : ShownKept l s t) :
    ShownKept l s (t.trace c event tag operand q) := h.traces (traces_trace t c event tag operand q)

theorem ShownKept.record {ring : Option (Fin 8)} {faulting : Bool} {i : FaultInfo} (h : ShownKept l s t) :
    ShownKept l s (t.record ring faulting i) := by
  have hseq : ShownKept l s { t with faultSeq := t.faultSeq + 1 } := h.reports (reports_faultSeq t _)
  unfold State.record
  exact (ShownKept.ite hseq.trace hseq).reports (reports_fileRecord _ _ _ _ _)

theorem ShownKept.replyStatus {a : Asker} {status : Nat} (h : ShownKept l s t) : ShownKept l s (t.replyStatus r a status) :=
  h.reports (reports_replyStatus t r a status)

theorem ShownKept.ownWrite {q : Requester} {a : Nat} {d : List Byte} (h : ShownKept l s t) : ShownKept l s (t.ownWrite q a d) :=
  h.reports (reports_ownWrite t q a d)

theorem ShownKept.sendOwn {e : Fin 64} {cls : Nat} {type : Byte} {id : Word} {stamp : DWord} {bad : List Nat} {body : List Byte}
    (h : ShownKept l s t) : ShownKept l s (t.sendOwn e cls type id stamp bad body) :=
  h.reports (reports_sendOwn t e cls type id stamp bad body)

theorem ShownKept.dropPending {status : Nat} (h : ShownKept l s t) : ShownKept l s (t.dropPending r status) := by
  have hcleared : ShownKept l s (pendingCleared t r) := (h.foldl fun t _ h => h.setFld rfl).onRing
  unfold State.dropPending
  refine hcleared.foldl fun t i h => ?_
  split
  · exact h.replyStatus
  · exact h

theorem ShownKept.dropUnposted (h : ShownKept l s t) : ShownKept l s (t.dropUnposted r) := h.foldl fun _ _ h => h.onRing.bump rfl

/-! ## Midway and DRAM -/

theorem ShownKept.access (l : List Reg) (s : State) : AccessKeeps (ShownKept l s) where
  traces := fun h g => h.traces g
  eccCount := fun h => h.setBack rfl
  sliceStatus := fun h => h.setBack rfl
  midway := fun h => h.same rfl rfl rfl
  lines := fun h => h.same rfl rfl rfl

theorem ShownKept.mwyRead {tag : Tag} {a n : Nat} (h : ShownKept l s t) : ShownKept l s (t.mwyRead r tag a n).1 :=
  (ShownKept.access l s).mwyRead h

theorem ShownKept.mwyWrite {tag : Tag} {a : Nat} {d : List PByte} (h : ShownKept l s t) : ShownKept l s (t.mwyWrite r tag a d) :=
  (ShownKept.access l s).mwyWrite h

theorem ShownKept.dramRead {q : Requester} {tag : Tag} {gen : Option (BitVec 16)} {a n : Nat} (h : ShownKept l s t)
    (hq : q.faults = none) : ShownKept l s (t.dramRead q tag gen a n).1 := (ShownKept.access l s).dramRead h hq

theorem ShownKept.dramWrite {q : Requester} {tag : Tag} {gen : BitVec 16} {a : Nat} {d : List PByte} (h : ShownKept l s t)
    (hq : q.faults = none) : ShownKept l s (t.dramWrite q tag gen a d).1 := (ShownKept.access l s).dramWrite h hq

theorem ShownKept.frameRead {tier : Bool} {frame : Nat} (h : ShownKept l s t) : ShownKept l s (t.frameRead r tier frame).1 :=
  .iteFst h.mwyRead (h.dramRead rfl)

theorem ShownKept.frameWrite {tier : Bool} {frame gen : Nat} {d : List PByte} (h : ShownKept l s t) :
    ShownKept l s (t.frameWrite r tier frame gen d) :=
  .ite h.mwyWrite (h.dramWrite rfl)

/-! ## Contexts -/

variable {x : Fin 4096}

theorem ShownKept.ptPut {n : Nat} {e : DWord} (h : ShownKept l s t) : ShownKept l s (t.ptPut x n e) := h.ownWrite.same rfl rfl rfl

theorem ShownKept.setCtxState {st : Nat} (h : ShownKept l s t) : ShownKept l s (t.setCtxState x st) := h.setFld rfl

theorem ShownKept.onCtx {f : CtxInfo → CtxInfo} (h : ShownKept l s t) : ShownKept l s (t.onCtx r x f) := h.onRing

theorem ShownKept.pageDrop {n gen : Nat} (h : ShownKept l s t) : ShownKept l s (t.pageDrop r x n gen) := by
  unfold State.pageDrop State.pageSend
  split
  · exact h.sendOwn
  · exact h

theorem ShownKept.freeContext (h : ShownKept l s t) : ShownKept l s (t.freeContext r x) := by
  unfold State.freeContext
  exact ((h.foldl fun _ _ h => h.pageDrop).foldl fun _ _ h => h.ptPut).onRing.setCtxState

theorem ShownKept.settleSwap (h : ShownKept l s t) : ShownKept l s (t.settleSwap r x) := by
  unfold State.settleSwap
  split
  · exact h
  · split
    · exact h
    · split
      · exact h.freeContext
      · split
        · exact .ite (h.setCtxState.setFld rfl) (.ite h.setCtxState h)
        · exact .ite (.ite (h.setCtxState.setFld rfl).onCtx (.ite h.setCtxState h)) h

theorem ShownKept.beginClose (h : ShownKept l s t) : ShownKept l s (t.beginClose r x) := h.setCtxState.onCtx.settleSwap

theorem ShownKept.demote {n : Nat} (h : ShownKept l s t) : ShownKept l s (t.demote r x n) := by
  unfold State.demote
  dsimp only
  split
  · exact h
  · split
    · exact h
    · exact h.frameRead.frameWrite.ptPut

theorem ShownKept.contextDone {keep : List Nat} {n : Nat} (h : ShownKept l s t) : ShownKept l s (t.contextDone r keep n) :=
  .ite h.onCtx (.ite h.onCtx.beginClose (.ite h.onCtx h.onCtx.setCtxState))

theorem ShownKept.stepEnds {i : Invocation} (h : ShownKept l s t) : ShownKept l s (t.stepEnds r i) := by
  have hdemoted : ShownKept l s (t.demoteAll r) := h.foldl fun _ _ h => h.foldl fun _ _ h => h.demote
  unfold State.stepEnds
  extract_lets keep
  exact (hdemoted.foldl fun _ _ h => h.contextDone).onRing

theorem ShownKept.releaseContexts (h : ShownKept l s t) : ShownKept l s (t.releaseContexts r) := by
  have hfreed : ShownKept l s ((t.ring r).ctxs.foldl (fun s p => s.freeContext r (ctxFin p.1)) t) :=
    h.foldl fun _ _ h => h.freeContext
  unfold State.releaseContexts
  dsimp only
  split
  · exact hfreed.same rfl rfl rfl
  · exact hfreed

/-! ## Sample channels, windows, stream contexts, endpoints, slices -/

theorem ShownKept.smpCount {c : Fin 16} {reason : Nat} (h : ShownKept l s t) : ShownKept l s (t.smpCount c reason) :=
  .ite (((h.setFld rfl).setFld rfl).bump rfl) (((h.setFld rfl).setFld rfl).bump rfl)

theorem ShownKept.smpShut {c : Fin 16} (h : ShownKept l s t) : ShownKept l s (t.smpShut c) := by
  have hemptied : ShownKept l s (t.onChan c fun k => { k with samples := [] }) := h.same rfl rfl rfl
  exact (((hemptied.setFld rfl).setFld rfl).setFld rfl).setFld rfl

theorem ShownKept.smpStopRing (h : ShownKept l s t) : ShownKept l s (t.smpStopRing r) :=
  h.foldl fun _ _ h => .ite (.smpShut (.setFld (h.foldl fun _ _ h => h.smpCount) rfl)) h

theorem ShownKept.closeWindows (h : ShownKept l s t) : ShownKept l s (t.closeWindows r) := h.foldl fun _ _ h => .ite (h.setFld rfl) h

theorem ShownKept.disableStreams (h : ShownKept l s t) : ShownKept l s (t.disableStreams r) := by
  refine h.foldl fun t x h => .ite ?_ h
  have hoff : ShownKept l s ((t.onStream x fun k => { k with opened := none, ready := [], times := [], views := [] }).streamOff x) :=
    .setFld (h.same rfl rfl rfl) rfl
  exact .ite (hoff.setFld rfl) hoff

theorem ShownKept.unbindEndpoints (h : ShownKept l s t) : ShownKept l s (t.unbindEndpoints r) := h.foldl fun _ _ h => (h.setBack rfl).onEp

theorem ShownKept.ownSlices {own : Bool} (h : ShownKept l s t) : ShownKept l s (t.ownSlices r own) :=
  h.foldl fun _ _ h => (h.setFld rfl).setFld rfl

/-! ## Rings -/

/-- A ring's state shown. -/
theorem ShownKept.setRingState {st cause : Nat} (h : ShownKept l s t) (hl : .ringManifestStatus r ∈ l) :
    ShownKept l s (t.setRingState r st cause) := (h.setReg fun _ => hl).setReg fun _ => hl

theorem ShownKept.dropEntries (h : ShownKept l s t) : ShownKept l s (t.dropEntries r) := by
  unfold State.dropEntries
  exact ShownKept.foldl (h.same rfl rfl rfl) fun _ _ h => h.crossPut

theorem ShownKept.clearRing (h : ShownKept l s t) : ShownKept l s (t.clearRing r) := by
  unfold State.clearRing
  extract_lets s1 s2
  have hcores : ShownKept l s s2 := h.releaseContexts.closeWindows.disableStreams.foldl fun _ _ h => h.onCore
  have hslices : ShownKept l s (s2.zeroSlices r) := hcores.foldl fun _ _ h => h.same rfl rfl rfl
  have hregions : ShownKept l s ((s2.zeroSlices r).zeroRegions r) := .ite (hslices.same rfl rfl rfl) hslices
  exact hregions.onRing.unbindEndpoints

theorem ShownKept.releaseRing (h : ShownKept l s t) (hs : .ringManifestStatus r ∈ l) (hr : .ringResources r ∈ l) :
    ShownKept l s (t.releaseRing r) := by
  unfold State.releaseRing
  exact (((h.ownSlices.unbindEndpoints.foldl fun _ _ h => h.onCore).setReg fun _ => hr).setReg fun _ => hs).onRing

theorem ShownKept.stoppedNow (h : ShownKept l s t) (hs : .ringManifestStatus r ∈ l) (hr : .ringResources r ∈ l)
    (he : .ringEvent r ∈ l) : ShownKept l s (t.stoppedNow r) := by
  have hcleared : ShownKept l s (if ((t.dropEntries r).ring r).bound then (t.dropEntries r).clearRing r else t.dropEntries r) :=
    .ite h.dropEntries.clearRing h.dropEntries
  unfold State.stoppedNow
  exact ((ShownKept.ite (hcleared.releaseRing hs hr) hcleared).setRingState hs).setReg fun _ => he

theorem ShownKept.beginStop {cause : Nat} (h : ShownKept l s t) (hs : .ringManifestStatus r ∈ l) :
    ShownKept l s (t.beginStop r cause) := by
  unfold State.beginStop
  extract_lets prev s1 s2 cores s3 s4
  have hswaps : ShownKept l s ((s1.dropUnposted r).cancelSwaps r) := (h.setRingState hs).dropPending.dropUnposted.onRing
  have hcores : ShownKept l s s3 := hswaps.smpStopRing.foldl fun _ _ h => h.onCore
  have hring : ShownKept l s s4 := hcores.onRing
  exact hring.same rfl rfl rfl

theorem ShownKept.queueTrigger {slot kind arg : Nat} {stamp : DWord} (h : ShownKept l s t) :
    ShownKept l s (t.queueTrigger r slot kind arg stamp) := .ite h (.ite h.onRing ((h.bump rfl).setFld rfl))

theorem ShownKept.fire {kind arg : Nat} {stamp : DWord} (h : ShownKept l s t) : ShownKept l s (t.fire r kind arg stamp) :=
  h.foldl fun _ _ h => .ite h.queueTrigger h

theorem ShownKept.setFreq {f : Nat} (h : ShownKept l s t) : ShownKept l s (t.setFreq r f) :=
  .ite h ((h.setFld rfl).foldl fun _ _ h => h.trace)

theorem ShownKept.raiseVolt {v : Nat} (h : ShownKept l s t) : ShownKept l s (t.raiseVolt v) :=
  .ite ((h.setFld rfl).same rfl rfl rfl) h

theorem ShownKept.startFreq (h : ShownKept l s t) : ShownKept l s (t.startFreq r) := by
  have hctrl : ShownKept l s (t.takeCtrl r) := h.same rfl rfl rfl
  unfold State.startFreq
  dsimp only
  split
  · exact hctrl.setFreq.raiseVolt
  · exact hctrl.setFreq

theorem ShownKept.startRunning (h : ShownKept l s t) (hs : .ringManifestStatus r ∈ l) (he : .ringEvent r ∈ l) :
    ShownKept l s (t.startRunning r) :=
  ((h.onRing.setReg fun _ => hs).setReg fun _ => he).startFreq.fire

theorem ShownKept.parkRecords (h : ShownKept l s t) : ShownKept l s (t.parkRecords r) := h.foldl fun _ _ h => h.record

theorem ShownKept.cancelInvocation (h : ShownKept l s t) : ShownKept l s (t.cancelInvocation r) := by
  unfold State.cancelInvocation
  dsimp only
  refine ShownKept.onRing (ShownKept.foldl ?_ fun _ _ h => h.onCore)
  split
  · exact h.dropUnposted.stepEnds
  · exact h

end

end Sys2Proof.Machine
end

section
/-! SUPPORT. What leaves the midway, the cores' own state and some rings undisturbed: reports, traces, answers, frequencies and the
triggers of other rings (R113, R317, R397, R447, R451); and what an operation on a core's memory changes of a core (R140, R154). -/

namespace Sys2Proof.Machine

/-- What no step of a fold changes, the fold does not. -/
theorem foldl_same {α β γ : Type} (view : α → γ) {f : α → β → α} (l : List β) (x : α)
    (hf : ∀ x y, view (f x y) = view x := by intros; rfl) : view (l.foldl f x) = view x := by
  induction l generalizing x with
  | nil => rfl
  | cons y l ih => exact (ih _).trans (hf x y)

/-- The midway is as before, every core but for its traces, and the rings of a list but for their result slots and their fault
queues. -/
structure Undisturbed (rs : List (Fin 8)) (s t : State) : Prop where
  mwy : t.mwy = s.mwy
  core : ∀ c : Fin 16, t.core c = (s.core c).withTrace (t.core c)
  ring : ∀ r ∈ rs, t.ring r = { s.ring r with slots := (t.ring r).slots, faults := (t.ring r).faults }

section
variable {rs : List (Fin 8)} {s t u : State} {g r : Fin 8}

theorem Undisturbed.refl (rs : List (Fin 8)) (s : State) : Undisturbed rs s s := ⟨rfl, fun _ => rfl, fun _ _ => rfl⟩

theorem Undisturbed.trans (h : Undisturbed rs s t) (k : Undisturbed rs t u) : Undisturbed rs s u := by
  refine ⟨k.mwy.trans h.mwy, fun c => ?_, fun r hr => ?_⟩
  · rw [k.core c, h.core c]
    rfl
  · rw [k.ring r hr, h.ring r hr]

/-- What changes neither midway nor cores nor rings. -/
theorem Undisturbed.same (h : Undisturbed rs s t) (hm : u.mwy = t.mwy) (hc : u.cores = t.cores) (hr : u.rings = t.rings) :
    Undisturbed rs s u :=
  h.trans ⟨hm, fun c => by rw [State.core, State.core, hc]; rfl, fun r _ => by rw [State.ring, State.ring, hr]⟩

theorem Undisturbed.foldl {α : Type} {f : State → α → State} {x : List α} (h : Undisturbed rs s t)
    (hf : ∀ t a, Undisturbed rs s t → Undisturbed rs s (f t a)) : Undisturbed rs s (x.foldl f t) :=
  foldl_keeps (fun t a ht => hf t a ht) x t h

theorem Undisturbed.ite {b : Prop} {_ : Decidable b} (ht : Undisturbed rs s t) (hu : Undisturbed rs s u) :
    Undisturbed rs s (if b then t else u) := by
  split
  · exact ht
  · exact hu

theorem Undisturbed.setReg {q : Reg} {v : Word} (h : Undisturbed rs s t) : Undisturbed rs s (t.setReg q v) := h.same rfl rfl rfl

theorem Undisturbed.setFld {q : Reg} {f : Fld} {n : Nat} (h : Undisturbed rs s t) : Undisturbed rs s (t.setFld q f n) := h.setReg

theorem Undisturbed.bump {q : Reg} {f : Fld} {n : Nat} (h : Undisturbed rs s t) : Undisturbed rs s (t.bump q f n) := h.setReg

/-- A ring outside the list changes. -/
theorem Undisturbed.onRing {f : Ring → Ring} (h : Undisturbed rs s t) (hg : g ∉ rs) : Undisturbed rs s (t.onRing g f) := by
  refine h.trans ⟨rfl, fun _ => rfl, fun r hr => ?_⟩
  have hne : g ≠ r := fun he => hg (he ▸ hr)
  rw [ring_onRing_ne t f hne]

theorem Traces.undisturbed {c : Fin 16} (rs : List (Fin 8)) (h : Traces c s t) : Undisturbed rs s t :=
  ⟨h.mwy, h.core, fun r _ => h.ring r⟩

theorem Undisturbed.traces {c : Fin 16} (h : Undisturbed rs s t) (k : Traces c t u) : Undisturbed rs s u :=
  h.trans (k.undisturbed rs)

theorem Undisturbed.reports (h : Undisturbed rs s t) (k : Reports t u) : Undisturbed rs s u := h.traces (k.traces 0)

theorem Undisturbed.record {ring : Option (Fin 8)} {faulting : Bool} {i : FaultInfo} (h : Undisturbed rs s t) :
    Undisturbed rs s (t.record ring faulting i) := by
  have hseq : Undisturbed rs s { t with faultSeq := t.faultSeq + 1 } := h.reports (reports_faultSeq t _)
  unfold State.record
  exact (Undisturbed.ite (hseq.traces (traces_trace _ _ _ _ _ _)) hseq).reports (reports_fileRecord _ _ _ _ _)

theorem Undisturbed.coreEcc {tag : Tag} {c : Fin 16} {w : Nat} {bad : Bool} (h : Undisturbed rs s t) :
    Undisturbed rs s (t.coreEcc tag c w bad) := .ite h.bump.record h.bump

theorem Undisturbed.smpCount {c : Fin 16} {reason : Nat} (h : Undisturbed rs s t) : Undisturbed rs s (t.smpCount c reason) :=
  .ite h.setFld.setFld.bump h.setFld.setFld.bump

theorem Undisturbed.smpShut {c : Fin 16} (h : Undisturbed rs s t) : Undisturbed rs s (t.smpShut c) := by
  have hemptied : Undisturbed rs s (t.onChan c fun k => { k with samples := [] }) := h.same rfl rfl rfl
  exact hemptied.setFld.setFld.setFld.setFld

theorem Undisturbed.smpStopRing (h : Undisturbed rs s t) : Undisturbed rs s (t.smpStopRing g) :=
  h.foldl fun _ _ h => .ite (h.foldl fun _ _ h => h.smpCount).setFld.smpShut h

/-- The answers to a dropped pending list. -/
theorem undisturbed_dropPending (rs : List (Fin 8)) (s : State) (g : Fin 8) (status : Nat) :
    Undisturbed rs (pendingCleared s g) (s.dropPending g status) := by
  refine Undisturbed.foldl (.refl rs _) fun t i h => ?_
  split
  · exact h.reports (reports_replyStatus _ _ _ _)
  · exact h

theorem undisturbed_dropUnposted (rs : List (Fin 8)) (s : State) (g : Fin 8) : Undisturbed rs s (s.dropUnposted g) := by
  refine Undisturbed.foldl (.refl rs s) fun t p h => .bump (h.trans ⟨rfl, fun _ => rfl, fun r _ => ?_⟩)
  by_cases hr : g = r
  · subst hr
    rw [ring_onRing]
    exact slotPut_rest _ _ _
  · rw [ring_onRing_ne t _ hr]

/-! ## A ring that comes to run -/

theorem Undisturbed.startFreq (h : Undisturbed rs s t) : Undisturbed rs s (t.startFreq g) := by
  have hctrl : Undisturbed rs s (t.takeCtrl g) := h.same rfl rfl rfl
  have hfreq : ∀ f, Undisturbed rs s ((t.takeCtrl g).setFreq g f) := fun f =>
    .ite hctrl (hctrl.setFld.foldl fun _ _ h => h.traces (traces_trace _ _ _ _ _ _))
  have hvolt : ∀ f v, Undisturbed rs s (((t.takeCtrl g).setFreq g f).raiseVolt v) := fun f v =>
    .ite ((hfreq f).same rfl rfl rfl) (hfreq f)
  unfold State.startFreq
  dsimp only
  split
  · exact hvolt _ _
  · exact hfreq _

theorem Undisturbed.fire {kind arg : Nat} {stamp : DWord} (h : Undisturbed rs s t) (hg : g ∉ rs) :
    Undisturbed rs s (t.fire g kind arg stamp) :=
  h.foldl fun _ _ h => .ite (.ite h (.ite (h.onRing hg) h.bump.setFld)) h

theorem Undisturbed.startRunning (h : Undisturbed rs s t) (hg : g ∉ rs) : Undisturbed rs s (t.startRunning g) :=
  (h.onRing hg).setFld.setFld.startFreq.fire hg

end

/-! ## The end of boot -/

/-- What the end of boot may change of the registers that are shown, but for those of ring `r`. -/
def bootEndRegs (r : Fin 8) : List Reg :=
  .bootStatus :: ((List.finRange 8).filter fun g => g ≠ r).flatMap fun g => [.ringManifestStatus g, .ringEvent g]

theorem mem_bootEndRegs {r g : Fin 8} (h : g ≠ r) :
    Reg.ringManifestStatus g ∈ bootEndRegs r ∧ Reg.ringEvent g ∈ bootEndRegs r := by
  simp [bootEndRegs, h]

theorem ringManifestStatus_not_mem_bootEndRegs (r : Fin 8) : Reg.ringManifestStatus r ∉ bootEndRegs r := by
  simp [bootEndRegs]

/-- The end of boot leaves a ring alone that does not stand in LOADING (R49, R360). -/
theorem endBoot_keeps (s : State) {r : Fin 8} (hr : s.ringState r ≠ stLoading) :
    ShownKept (bootEndRegs r) s s.endBoot ∧ Undisturbed [r] s s.endBoot := by
  unfold State.endBoot
  split
  · exact ⟨.refl _ s, .refl _ s⟩
  · refine foldl_keeps (P := fun t => ShownKept (bootEndRegs r) s t ∧ Undisturbed [r] s t) (fun t g ht => ?_) _ _
      ⟨ShownKept.setReg (.refl _ s) fun _ => by simp [bootEndRegs], Undisturbed.setFld (.refl _ s)⟩
    obtain ⟨hshown, hkept⟩ := ht
    split
    case isTrue hloading =>
      have hg : g ≠ r := by
        rintro rfl
        exact hr ((hshown.ringState (ringManifestStatus_not_mem_bootEndRegs g)).symm.trans hloading)
      obtain ⟨hstatus, hevent⟩ := mem_bootEndRegs hg
      exact ⟨hshown.startRunning hstatus hevent, hkept.startRunning (by simpa using hg)⟩
    case isFalse => exact ⟨hshown, hkept⟩

/-! ## Operations on a core's memory -/

/-- Core memory with its marks, what its decoder found, and the gathering buffer are all that may differ. -/
structure MemTouched (k j : Core) : Prop where
  rest : j = { k with mem := j.mem, memBad := j.memBad, memFlips := j.memFlips, ecc := j.ecc, gather := j.gather }

section
variable {k j i : Core}

theorem MemTouched.refl (k : Core) : MemTouched k k := ⟨rfl⟩

theorem MemTouched.trans (h : MemTouched k j) (g : MemTouched j i) : MemTouched k i := by
  constructor
  rw [g.rest, h.rest]

theorem MemTouched.foldl {α : Type} {f : Core → α → Core} {x : List α} (h : MemTouched k j)
    (hf : ∀ j a, MemTouched j (f j a)) : MemTouched k (x.foldl f j) :=
  foldl_keeps (fun j a hj => hj.trans (hf j a)) x j h

theorem memTouched_decodeWord (k : Core) (w : Nat) : MemTouched k (decodeWord k w) := by
  unfold decodeWord
  constructor
  split
  · rfl
  · split
    · rfl
    · rfl
    · rfl

theorem memTouched_flushEntry (k : Core) (g : GatherEntry) : MemTouched k (flushEntry k g) := by
  unfold flushEntry
  extract_lets some_ whole k'
  have hdecoded : MemTouched k k' := MemTouched.foldl (.refl k) memTouched_decodeWord
  exact hdecoded.trans ⟨rfl⟩

theorem memTouched_flushWhere (p : GatherEntry → Bool) (k : Core) : MemTouched k (flushWhere p k) := by
  have hflushed : MemTouched k ((k.gather.filter p).foldl flushEntry k) := MemTouched.foldl (.refl k) memTouched_flushEntry
  exact hflushed.trans ⟨rfl⟩

theorem memTouched_corePut (a : Nat) (d : List PByte) (k : Core) : MemTouched k (corePut a d k) := by
  have hdecoded : MemTouched k ((partWords a d.length).foldl decodeWord (flushRange a d.length k)) :=
    (memTouched_flushWhere _ k).foldl memTouched_decodeWord
  exact hdecoded.trans ⟨rfl⟩

/-- A flush of everything leaves nothing in the gathering buffer. -/
theorem gather_flushAll (k : Core) : (flushAll k).gather = [] := by
  simp [flushAll, flushWhere]

end

/-- What an operation on the memory of core `c` does beside what its decoder reports (R140). -/
theorem undisturbed_onMem (rs : List (Fin 8)) (s : State) (tag : Tag) (c : Fin 16) (f : Core → Core) :
    Undisturbed rs (s.setCore c { f (s.core c) with ecc := [] }) (s.onMem tag c f) :=
  Undisturbed.foldl (.refl rs _) fun _ _ h => h.coreEcc

theorem core_onMem_ne (s : State) (tag : Tag) {c d : Fin 16} (f : Core → Core) (h : c ≠ d) :
    (s.onMem tag c f).core d = (s.core d).withTrace ((s.onMem tag c f).core d) := by
  have hcore := (undisturbed_onMem [] s tag c f).core d
  rwa [core_setCore_ne s _ h] at hcore

theorem core_onMem (s : State) (tag : Tag) (c : Fin 16) (f : Core → Core) :
    (s.onMem tag c f).core c = ({ f (s.core c) with ecc := [] } : Core).withTrace ((s.onMem tag c f).core c) := by
  have hcore := (undisturbed_onMem [] s tag c f).core c
  rwa [core_setCore] at hcore

theorem mwy_onMem (s : State) (tag : Tag) (c : Fin 16) (f : Core → Core) : (s.onMem tag c f).mwy = s.mwy :=
  (undisturbed_onMem [] s tag c f).mwy

end Sys2Proof.Machine
end

section
/-! SUPPORT. PARK, PARK_COMPLETE, PARK_TIMEOUT and RESUME (R49 to R51, R54, R147), and the statement about them. -/

namespace Sys2Proof.Machine

/-! ## The state of a ring moved on -/

theorem moveRing_shows (s : State) (r : Fin 8) {st : Nat} (hst : st < 16) : (s.moveRing r st).ringState r = st := by
  rw [ringState_eq_fld, State.moveRing, fld_setFld _ _ _ _ ⟨by decide, by decide⟩]
  exact Nat.mod_eq_of_lt hst

/-- A ring moved to a state, with an event set, shows both. -/
theorem moveRing_event (s : State) (r : Fin 8) {st : Nat} (hst : st < 16) (f : Fld) (hf : f.ok) :
    ((s.moveRing r st).setFld (.ringEvent r) f 1).ringState r = st ∧
      ((s.moveRing r st).setFld (.ringEvent r) f 1).fld (.ringEvent r) f = 1 := by
  refine ⟨?_, ?_⟩
  · rw [ringState_eq_fld, fld_setFld_ne _ _ _ _ (addr_injective.ne (by simp)), ← ringState_eq_fld, moveRing_shows s r hst]
  · obtain ⟨hle, hlt⟩ := hf
    rw [fld_setFld _ _ _ _ ⟨hle, hlt⟩]
    exact Nat.mod_eq_of_lt (Nat.one_lt_two_pow (by omega))

/-! ## PARK -/

theorem exec_ringPark (r : Fin 8) (who : Who) (s : State) :
    exec (.ringPark r who) s = .next (s.ringRequest r who fun s => s.parkNow r).1 := rfl

theorem ringPark_running {s : State} {r : Fin 8} {who : Who} (h : MayAsk s r who) (hrun : s.ringState r = stRunning) :
    exec (.ringPark r who) s = .next (s.moveRing r stParking) := by
  rw [exec_ringPark, ringRequest_asked _ h, State.parkNow, if_pos hrun]

theorem ringPark_refused {s : State} {r : Fin 8} {who : Who} (h : MayAsk s r who) (hrun : s.ringState r ≠ stRunning) :
    exec (.ringPark r who) s = .next (s.refuseRing r) := by
  rw [exec_ringPark, ringRequest_asked _ h, State.parkNow, if_neg hrun]

/-! ## The end of a park -/

/-- A core's marks are clear, and its gathering buffer is empty (R50). -/
def CoreParked (k : Core) : Prop :=
  k.wValid = 0 ∧ k.aValid = 0 ∧ k.dsValid = 0 ∧ k.latchValid = false ∧ k.gather = []

/-- Neither what its decoder found nor its traces count. -/
theorem CoreParked.traced {k : Core} (h : CoreParked k) (l : List (Nat × Bool)) (j : Core) :
    CoreParked (({ k with ecc := l } : Core).withTrace j) := h

theorem parkCore_parks (draw : Nat) (k : Core) : CoreParked (parkCore draw k) ∧ (parkCore draw k).vregs = k.vregs := by
  have hvregs : (flushAll k).vregs = k.vregs := by rw [flushAll, (memTouched_flushWhere _ _).rest]
  unfold parkCore
  generalize smWrite 0 [] 0 ((List.range 0x8E000).map (Config.parkedByte draw)) = m
  exact ⟨⟨rfl, rfl, rfl, rfl, gather_flushAll k⟩, hvregs⟩

theorem vregs_traced (k : Core) (l : List (Nat × Bool)) (j : Core) :
    (({ k with ecc := l } : Core).withTrace j).vregs = k.vregs := rfl

/-- One core parked: its records written back, then the core as a park leaves it. -/
def parkOne (r : Fin 8) (s : State) (c : Fin 16) : State :=
  let s1 := s.recsBack (noCommand r) c
  { s1.onMem (noCommand r) c (parkCore s1.fresh) with fresh := s1.fresh + 1 }

theorem parkCores_eq_foldl (s : State) (r : Fin 8) : s.parkCores r = (s.coresOf r).foldl (parkOne r) s := rfl

/-- The records of a core written back leave its registers, and the other cores, alone. -/
theorem recsBack_keeps (s : State) (tag : Tag) (c : Fin 16) : (s.recsBack tag c).mwy = s.mwy ∧
    ((s.recsBack tag c).core c).vregs = (s.core c).vregs ∧
    ∀ d, c ≠ d → (s.recsBack tag c).core d = (s.core d).withTrace ((s.recsBack tag c).core d) := by
  unfold State.recsBack
  refine foldl_keeps (P := fun t : State => t.mwy = s.mwy ∧ (t.core c).vregs = (s.core c).vregs ∧
    ∀ d, c ≠ d → t.core d = (s.core d).withTrace (t.core d)) (fun t rec ht => ?_) _ _ ⟨rfl, rfl, fun _ _ => rfl⟩
  obtain ⟨hmwy, hvregs, hother⟩ := ht
  refine ⟨(mwy_onMem _ _ _ _).trans hmwy, ?_, fun d hd => ?_⟩
  · rw [State.cmWrite, core_onMem]
    show (corePut rec.addr (cleanBytes rec.bytes) (t.core c)).vregs = _
    rw [(memTouched_corePut _ _ _).rest, hvregs]
  · rw [State.cmWrite, core_onMem_ne t tag _ hd, hother d hd]
    rfl

theorem core_parkOne (r : Fin 8) (s : State) (c : Fin 16) : (parkOne r s c).mwy = s.mwy ∧
    CoreParked ((parkOne r s c).core c) ∧ ((parkOne r s c).core c).vregs = (s.core c).vregs ∧
    ∀ d, c ≠ d → (parkOne r s c).core d = (s.core d).withTrace ((parkOne r s c).core d) := by
  obtain ⟨hmwy, hvregs, hother⟩ := recsBack_keeps s (noCommand r) c
  generalize hs1 : s.recsBack (noCommand r) c = s1 at hmwy hvregs hother
  have hone : ∀ d, (parkOne r s c).core d = (s1.onMem (noCommand r) c (parkCore s1.fresh)).core d := fun d => by
    subst hs1
    rfl
  have hcore := hone c
  rw [core_onMem] at hcore
  refine ⟨?_, ?_, ?_, fun d hd => ?_⟩
  · subst hs1
    exact (mwy_onMem _ _ _ _).trans hmwy
  · rw [hcore]
    exact (parkCore_parks _ _).1.traced _ _
  · rw [hcore, vregs_traced, (parkCore_parks _ _).2, hvregs]
  · rw [hone d, core_onMem_ne s1 _ _ hd, hother d hd]
    rfl

/-- The cores of a list parked one after the other: a core that is parked stays so while the others park. -/
theorem foldl_parkOne (r : Fin 8) (l : List (Fin 16)) (s : State) : (l.foldl (parkOne r) s).mwy = s.mwy ∧
    ∀ c, ((l.foldl (parkOne r) s).core c).vregs = (s.core c).vregs ∧
      (CoreParked (s.core c) ∨ c ∈ l → CoreParked ((l.foldl (parkOne r) s).core c)) := by
  induction l generalizing s with
  | nil => exact ⟨rfl, fun c => ⟨rfl, by simp⟩⟩
  | cons a l ih =>
    obtain ⟨hmwy, hparked, hvregs, hother⟩ := core_parkOne r s a
    obtain ⟨hmwy', hcores⟩ := ih (parkOne r s a)
    refine ⟨hmwy'.trans hmwy, fun c => ?_⟩
    obtain ⟨hregs, hstays⟩ := hcores c
    by_cases hc : a = c
    · subst hc
      exact ⟨hregs.trans hvregs, fun _ => hstays (.inl hparked)⟩
    · have hkept := hother c hc
      refine ⟨hregs.trans (by rw [hkept]; rfl), fun h => hstays ?_⟩
      rcases h with h | h
      · exact .inl (by rw [hkept]; exact h)
      · exact .inr ((List.mem_cons.mp h).resolve_left (Ne.symm hc))

theorem exec_parkComplete (r : Fin 8) (s : State) :
    exec (.parkComplete r) s = .next (if s.parkReady r then s.parkedNow r else s) := rfl

theorem parkedNow_parks (s : State) (r : Fin 8) : (s.parkedNow r).ringState r = stParked ∧
    (s.parkedNow r).fld (.ringEvent r) F.ringEvent_PARKED = 1 ∧ (s.parkedNow r).mwy = s.mwy ∧
    ∀ c ∈ s.coresOf r, CoreParked ((s.parkedNow r).core c) ∧ ((s.parkedNow r).core c).vregs = (s.core c).vregs := by
  obtain ⟨hstate, hevent⟩ := moveRing_event (s.parkCores r) r (st := stParked) (by decide) F.ringEvent_PARKED
    ⟨by decide, by decide⟩
  obtain ⟨hmwy, hcores⟩ := foldl_parkOne r (s.coresOf r) s
  exact ⟨hstate, hevent, hmwy, fun c hc => ⟨(hcores c).2 (.inr hc), (hcores c).1⟩⟩

/-! ## PARK_TIMEOUT -/

/-- Cores changed one after the other: each of them takes the change, no other does. -/
theorem core_foldl_onCore (f : Core → Core) {l : List (Fin 16)} (hl : l.Nodup) (s : State) (c : Fin 16) :
    (l.foldl (fun s c => s.onCore c f) s).core c = if c ∈ l then f (s.core c) else s.core c := by
  induction l generalizing s with
  | nil => simp
  | cons a l ih =>
    obtain ⟨hnot, hnodup⟩ := List.nodup_cons.mp hl
    rw [List.foldl_cons, ih hnodup]
    by_cases hc : a = c
    · subst hc
      simp [hnot]
    · simp [core_onCore_ne s f hc, Ne.symm hc]

theorem nodup_coresOf (s : State) (r : Fin 8) : (s.coresOf r).Nodup := (List.nodup_finRange 16).filter _

/-- A cancelled invocation is no longer under way, and nothing is queued on the ring's cores (R50). -/
theorem cancelInvocation_idle (s : State) (r : Fin 8) : ((s.cancelInvocation r).ring r).current = none ∧
    ∀ c ∈ s.coresOf r, ∀ q : Fin 5, ((s.cancelInvocation r).queue c q).tags = [] := by
  unfold State.cancelInvocation
  extract_lets s1 s2
  have hshown : ShownKept [] s s1 := by
    unfold s1
    split
    · exact (ShownKept.refl [] s).dropUnposted.stepEnds
    · exact .refl [] s
  refine ⟨by rw [ring_onRing], fun c hc q => ?_⟩
  rw [State.queue, core_onRing, core_foldl_onCore cancelCore (nodup_coresOf s1 r),
    if_pos (by rwa [hshown.coresOf (by simp)])]
  simp [cancelCore]

theorem exec_parkTimeout (r : Fin 8) (s : State) : exec (.parkTimeout r) s =
    .next (if s.ringState r = stParking ∧ (s.ring r).current.isSome then s.parkTimeoutNow r else s) := rfl

theorem parkTimeoutNow_cancels (s : State) (r : Fin 8) : (s.parkTimeoutNow r).ringState r = s.ringState r ∧
    (s.parkTimeoutNow r).fld (.ringManifestStatus r) F.ringManifestStatus_CAUSE = cauParkTimeout ∧
    ((s.parkTimeoutNow r).ring r).current = none ∧
    ∀ c ∈ s.coresOf r, ∀ q : Fin 5, ((s.parkTimeoutNow r).queue c q).tags = [] := by
  have hrecorded : ShownKept [] s (s.parkRecords r) := (ShownKept.refl [] s).parkRecords
  obtain ⟨hcurrent, hqueues⟩ := cancelInvocation_idle (s.parkRecords r) r
  refine ⟨?_, fld_setFld _ _ _ _ ⟨by decide, by decide⟩, hcurrent, fun c hc => hqueues c ?_⟩
  · rw [ringState_eq_fld, State.parkTimeoutNow, fld_setFld_other _ _ _ _ _ ⟨by decide, by decide⟩ (by decide) (by decide),
      ← ringState_eq_fld, hrecorded.cancelInvocation.ringState (by simp)]
  · rwa [hrecorded.coresOf (by simp)]

/-! ## RESUME -/

theorem exec_ringResume (r : Fin 8) (who : Who) (s : State) :
    exec (.ringResume r who) s = .next (s.ringRequest r who fun s => s.resumeNow r).1 := rfl

theorem ringResume_parked {s : State} {r : Fin 8} {who : Who} (h : MayAsk s r who) (hparked : s.ringState r = stParked) :
    exec (.ringResume r who) s = .next ((s.ring r).heldParams.foldl (fun s p => s.paramDone r p)
      ((s.ring r).held.foldl State.performHeld
        ((s.resumeRing r).onRing r fun k => { k with held := [], heldParams := [] }))) := by
  rw [exec_ringResume, ringRequest_asked _ h, State.resumeNow, if_pos hparked]

theorem ringResume_refused {s : State} {r : Fin 8} {who : Who} (h : MayAsk s r who) (hparked : s.ringState r ≠ stParked) :
    exec (.ringResume r who) s = .next (s.refuseRing r) := by
  rw [exec_ringResume, ringRequest_asked _ h, State.resumeNow, if_neg hparked]

/-- A ring that reaches RUNNING shows it; the midway and the core memories are as before (R49, R55). -/
theorem enterRunning_shows (s : State) (r : Fin 8) : (s.enterRunning r).ringState r = stRunning ∧
    (s.enterRunning r).fld (.ringEvent r) F.ringEvent_RUNNING = 1 ∧ Undisturbed [] s (s.enterRunning r) ∧
    ((s.enterRunning r).ring r).ctxs = (s.ring r).ctxs ∧ ((s.enterRunning r).ring r).bound = (s.ring r).bound := by
  obtain ⟨hstate, hevent⟩ := moveRing_event (s.onRing r fun k => { k with starting := false }) r (st := stRunning)
    (by decide) F.ringEvent_RUNNING ⟨by decide, by decide⟩
  unfold State.enterRunning
  generalize hmarked : ((s.onRing r fun k => { k with starting := false }).moveRing r stRunning).setFld (.ringEvent r)
    F.ringEvent_RUNNING 1 = s1 at hstate hevent
  have hshown : ShownKept [] s1 (s1.startFreq r) := (ShownKept.refl [] s1).startFreq
  have hkept : Undisturbed [r] s1 (s1.startFreq r) := (Undisturbed.refl [r] s1).startFreq
  have hring := hkept.ring r (by simp)
  have hmarkedRing : s1.ring r = { s.ring r with starting := false } := by
    subst hmarked
    rw [ring_setFld, ring_moveRing, ring_onRing]
  refine ⟨(hshown.ringState (by simp)).trans hstate, (hshown.fld rfl (by simp) _).trans hevent, ?_, ?_, ?_⟩
  · subst hmarked
    exact ((Undisturbed.refl [] s).onRing (by simp)).setFld.setFld.startFreq
  · rw [hring, hmarkedRing]
  · rw [hring, hmarkedRing]

/-- A ring without contexts and without held writes resumes. -/
theorem ringResume_idle {s : State} {r : Fin 8} {who : Who} (h : MayAsk s r who) (hparked : s.ringState r = stParked)
    (hheld : (s.ring r).held = []) (hparams : (s.ring r).heldParams = []) (hctxs : (s.ring r).ctxs = []) :
    exec (.ringResume r who) s =
      .next ((s.enterRunning r).onRing r fun k => { k with held := [], heldParams := [] }) := by
  obtain ⟨-, -, -, hkept, -⟩ := enterRunning_shows s r
  have hmoves : s.resumeRing r = s.enterRunning r := by
    rw [State.resumeRing, State.runAllMoves, hkept, hctxs]
    rfl
  rw [ringResume_parked h hparked, hheld, hparams, hmoves]
  rfl

/-- Settles O26: PARK, the end of a park, PARK_TIMEOUT and RESUME, by the state of the ring. -/
theorem ringsParkAndResume : Obligations.RingsParkAndResume := by
  unfold Obligations.RingsParkAndResume
  intro s r who
  refine ⟨fun h hrun => ⟨_, ringPark_running h hrun, moveRing_shows s r (by decide), rfl, rfl, rfl⟩, fun h hrun => ?_,
    fun hready => ?_, fun hready => by rw [exec_parkComplete, hready]; rfl, fun hparking hcurrent => ?_,
    fun h hparked hheld hparams hctxs => ?_, fun h hparked => ringResume_parked h hparked, fun h hparked => ?_⟩
  · obtain ⟨hrefused, hstate, -, hcores⟩ := refuseRing_shows s r
    exact ⟨_, ringPark_refused h hrun, hrefused, hstate, hcores⟩
  · obtain ⟨hstate, hevent, hmwy, hcores⟩ := parkedNow_parks s r
    refine ⟨_, by rw [exec_parkComplete, if_pos hready], hstate, hevent, hmwy, fun c hc => ?_⟩
    obtain ⟨⟨hw, ha, hds, hlatch, hgather⟩, hvregs⟩ := hcores c hc
    exact ⟨hw, ha, hds, hlatch, hgather, hvregs⟩
  · obtain ⟨hstate, hcause, hnone, hqueues⟩ := parkTimeoutNow_cancels s r
    exact ⟨_, by rw [exec_parkTimeout, if_pos ⟨hparking, hcurrent⟩], hstate.trans hparking, hcause, hnone, hqueues⟩
  · obtain ⟨hstate, hevent, hkept, -, -⟩ := enterRunning_shows s r
    refine ⟨_, ringResume_idle h hparked hheld hparams hctxs, hstate, hevent, hkept.mwy, fun c => ?_⟩
    rw [core_onRing, hkept.core c]
    rfl
  · obtain ⟨hrefused, hstate, -, hcores⟩ := refuseRing_shows s r
    exact ⟨_, ringResume_refused h hparked, hrefused, hstate, hcores⟩

end Sys2Proof.Machine
end

section
/-! SUPPORT. STOP and the end of a stop (R49, R52, R54, R237), and the statement about them. -/

namespace Sys2Proof.Machine

/-! ## The beginning of a stop -/

/-- What a stop takes of a ring at once: its invocations, what it holds, the pages on the move (R52, R237). -/
structure RingCancelled (k : Ring) : Prop where
  current : k.current = none
  waiting : k.waiting = []
  held : k.held = []
  still : ∀ p ∈ k.ctxs, p.2.moves = []

/-- Nothing is queued on a core, and no engine of it has a command under way (R52). -/
def CoreIdle (k : Core) : Prop :=
  k.dmaBusy = none ∧ k.unfoldBusy = none ∧ k.storeBusy = none ∧ ∀ q : Fin 5, k.queues[q].tags = []

theorem CoreIdle.traced {k : Core} (h : CoreIdle k) (j : Core) : CoreIdle (k.withTrace j) := h

theorem idleCore_idles (k : Core) : CoreIdle (idleCore k) := ⟨rfl, rfl, rfl, fun q => by simp [idleCore]⟩

theorem RingCancelled.of_undisturbed {s t : State} {r : Fin 8} (h : RingCancelled (s.ring r)) (g : Undisturbed [r] s t) :
    RingCancelled (t.ring r) := by
  obtain ⟨hcurrent, hwaiting, hheld, hstill⟩ := h
  rw [g.ring r (by simp)]
  exact ⟨hcurrent, hwaiting, hheld, hstill⟩

/-- The state of a ring as its stop begins, before its cores are idle. -/
def stopMarked (s : State) (r : Fin 8) (cause : Nat) : State :=
  ((((s.setRingState r stStopping cause).dropPending r stRingState).dropUnposted r).cancelSwaps r).smpStopRing r

/-- Its pending list is gone, and no page of its contexts is on the move. -/
theorem ring_stopMarked (s : State) (r : Fin 8) (cause : Nat) :
    ((stopMarked s r cause).ring r).waiting = [] ∧ ∀ p ∈ ((stopMarked s r cause).ring r).ctxs, p.2.moves = [] := by
  unfold stopMarked
  generalize s.setRingState r stStopping cause = s0
  have hdropped := (undisturbed_dropPending [r] s0 r stRingState).trans (undisturbed_dropUnposted [r] _ r)
  generalize (s0.dropPending r stRingState).dropUnposted r = s1 at hdropped
  have hwaiting : (s1.ring r).waiting = [] := by
    rw [hdropped.ring r (by simp), pendingCleared, ring_onRing]
  have hshut : Undisturbed [r] (s1.cancelSwaps r) ((s1.cancelSwaps r).smpStopRing r) := (Undisturbed.refl [r] _).smpStopRing
  have hring := hshut.ring r (by simp)
  refine ⟨?_, ?_⟩
  · rw [hring, State.cancelSwaps, ring_onRing, hwaiting]
  · rw [hring, State.cancelSwaps, ring_onRing]
    intro p hp
    obtain ⟨p0, -, rfl⟩ := List.mem_map.mp hp
    rfl

theorem mwy_stopMarked (s : State) (r : Fin 8) (cause : Nat) : (stopMarked s r cause).mwy = s.mwy := by
  unfold stopMarked
  generalize hs0 : s.setRingState r stStopping cause = s0
  have hdropped := (undisturbed_dropPending [] s0 r stRingState).trans (undisturbed_dropUnposted [] _ r)
  have hswaps : Undisturbed [] (pendingCleared s0 r) (((s0.dropPending r stRingState).dropUnposted r).cancelSwaps r) :=
    hdropped.onRing (by simp)
  have hcleared : (pendingCleared s0 r).mwy = s0.mwy := by
    unfold pendingCleared
    rw [onRing_mwy]
    exact foldl_same State.mwy _ _
  exact (hswaps.smpStopRing.mwy.trans hcleared).trans (by subst hs0; rfl)

theorem shownKept_stopMarked (s : State) (r : Fin 8) (cause : Nat) :
    ShownKept [] (s.setRingState r stStopping cause) (stopMarked s r cause) :=
  (ShownKept.refl [] _).dropPending.dropUnposted.onRing.smpStopRing

/-- The stop of a ring begins: it is STOPPING with its cause, its invocations are cancelled, its cores idle (R52, R54). -/
structure StopBegun (r : Fin 8) (cause : Nat) (s t : State) : Prop where
  state : t.ringState r = stStopping
  cause : t.fld (.ringManifestStatus r) F.ringManifestStatus_CAUSE = cause
  ring : RingCancelled (t.ring r)
  mwy : t.mwy = s.mwy
  cores : ∀ c ∈ s.coresOf r, CoreIdle (t.core c)

theorem stopBegun_beginStop (s : State) (r : Fin 8) {cause : Nat} (hcause : cause < 16) :
    StopBegun r cause s (s.beginStop r cause) := by
  obtain ⟨hstate, hcauseField⟩ := setRingState_fields s r (st := stStopping) (by decide) hcause
  obtain ⟨hwaiting, hstill⟩ := ring_stopMarked s r cause
  have hshown := shownKept_stopMarked s r cause
  have hcores : (stopMarked s r cause).coresOf r = s.coresOf r := by
    rw [hshown.coresOf (by simp)]
    exact ((ShownKept.refl [.ringManifestStatus r] s).setRingState (by simp)).coresOf (by simp)
  have hidle : ShownKept [] (stopMarked s r cause)
      (((stopMarked s r cause).coresOf r).foldl (fun s c => s.onCore c idleCore) (stopMarked s r cause)) :=
    (ShownKept.refl [] _).foldl fun _ _ h => h.onCore
  have hkept := hshown.trans hidle
  have hrings := foldl_same State.rings (f := fun s c => s.onCore c idleCore)
    ((stopMarked s r cause).coresOf r) (stopMarked s r cause)
  have hmwy := foldl_same State.mwy (f := fun s c => s.onCore c idleCore)
    ((stopMarked s r cause).coresOf r) (stopMarked s r cause)
  have hcore := core_foldl_onCore idleCore (nodup_coresOf (stopMarked s r cause) r) (stopMarked s r cause)
  unfold State.beginStop
  extract_lets prev s1 s2 cores s3 s4
  change ShownKept [] _ s3 at hkept
  change s3.rings = s2.rings at hrings
  change s3.mwy = s2.mwy at hmwy
  have hring4 : s4.ring r = { s2.ring r with
      current := none, master := {}, ports := .replicate 4 none, tests := [], held := [], heldParams := [], admission := none
      abandon := prev == stLoading || prev == stFailed } := by
    have h3 : s3.ring r = s2.ring r := by rw [State.ring, State.ring, hrings]
    rw [← h3]
    exact ring_onRing s3 r _
  refine ⟨(hkept.ringState (by simp)).trans hstate, (hkept.fld rfl (by simp) _).trans hcauseField, ?_,
    hmwy.trans (mwy_stopMarked s r cause), fun c hc => ?_⟩
  · show RingCancelled (s4.ring r)
    rw [hring4]
    exact ⟨rfl, hwaiting, rfl, hstill⟩
  · show CoreIdle (s3.core c)
    have hc3 : s3.core c = _ := hcore c
    rw [hc3, if_pos (by rwa [hcores])]
    exact idleCore_idles _

/-- The end of boot, which a stop may bring about, leaves the stopping ring alone. -/
theorem stopBegun_endBoot {s t : State} {r : Fin 8} {cause : Nat} (h : StopBegun r cause s t) :
    StopBegun r cause s t.endBoot := by
  obtain ⟨hstate, hcause, hring, hmwy, hcores⟩ := h
  obtain ⟨hshown, hkept⟩ := endBoot_keeps t (r := r) (by rw [hstate]; decide)
  have hnot := ringManifestStatus_not_mem_bootEndRegs r
  refine ⟨(hshown.ringState hnot).trans hstate, (hshown.fld rfl hnot _).trans hcause, hring.of_undisturbed hkept,
    hkept.mwy.trans hmwy, fun c hc => ?_⟩
  rw [hkept.core c]
  exact (hcores c hc).traced _

theorem exec_ringStop (r : Fin 8) (who : Who) (s : State) :
    exec (.ringStop r who) s = .next (s.ringRequest r who fun s => s.stopNow r).1 := rfl

section
variable {s : State} {r : Fin 8} {who : Who}

theorem ringStop_stoppable (h : MayAsk s r who) (hstop : stoppable (s.ringState r) = true) :
    exec (.ringStop r who) s = .next (s.beginStop r cauHost).endBoot := by
  have hne : s.ringState r ≠ stStopping := by
    intro he
    rw [he] at hstop
    exact absurd hstop (by decide)
  rw [exec_ringStop, ringRequest_asked _ h, State.stopNow, if_neg hne, if_pos hstop]

theorem ringStop_stopping (h : MayAsk s r who) (hstop : s.ringState r = stStopping) :
    exec (.ringStop r who) s = .next s := by
  rw [exec_ringStop, ringRequest_asked _ h, State.stopNow, if_pos hstop]

theorem ringStop_refused (h : MayAsk s r who) (hstop : s.ringState r = stAbsent ∨ s.ringState r = stStopped) :
    exec (.ringStop r who) s = .next (s.refuseRing r) := by
  have hstate : s.ringState r ≠ stStopping ∧ stoppable (s.ringState r) = false := by
    rcases hstop with he | he <;> rw [he] <;> decide
  rw [exec_ringStop, ringRequest_asked _ h, State.stopNow, if_neg hstate.1, hstate.2]
  rfl

end

/-! ## The end of a stop -/

theorem Fld.get_lt (f : Fld) (w : Word) : f.get w < 2 ^ (f.hi + 1 - f.lo) := Nat.mod_lt _ (Nat.two_pow_pos _)

/-- A core is zeroised (R52). -/
def CoreZero (k : Core) : Prop := k.mem = [] ∧ k.opnd = [] ∧ k.acc = [] ∧ k.flags = 0 ∧ k.trace = []

theorem CoreZero.idle {k : Core} (h : CoreZero k) : CoreZero (idleCore k) := h

theorem unbindEndpoints_keeps (s : State) (r : Fin 8) : (s.unbindEndpoints r).cores = s.cores ∧
    (s.unbindEndpoints r).rings = s.rings ∧ (s.unbindEndpoints r).mwy = s.mwy := by
  unfold State.unbindEndpoints
  exact ⟨foldl_same State.cores _ _, foldl_same State.rings _ _,
    foldl_same State.mwy _ _⟩

theorem ownSlices_keeps (s : State) (r : Fin 8) (own : Bool) : (s.ownSlices r own).cores = s.cores ∧
    (s.ownSlices r own).rings = s.rings := by
  unfold State.ownSlices
  exact ⟨foldl_same State.cores _ _, foldl_same State.rings _ _⟩

/-- The release of a ring's resources keeps a zeroised core zeroised. -/
theorem coreZero_releaseRing {s : State} {r : Fin 8} {c : Fin 16} (h : CoreZero (s.core c)) :
    CoreZero ((s.releaseRing r).core c) := by
  obtain ⟨hslices, -⟩ := ownSlices_keeps s r false
  obtain ⟨hunbound, -, -⟩ := unbindEndpoints_keeps (s.ownSlices r false) r
  have hcore : ((s.ownSlices r false).unbindEndpoints r).core c = s.core c := by
    rw [State.core, State.core, hunbound, hslices]
  unfold State.releaseRing
  dsimp only
  rw [core_onRing, core_setReg, core_setReg, core_foldl_onCore idleCore (nodup_coresOf s r), hcore]
  split
  · exact h.idle
  · exact h

theorem ring_releaseRing (s : State) (r : Fin 8) :
    ((s.releaseRing r).ring r).flags = (s.ring r).flags ∧ ((s.releaseRing r).ring r).slots = (s.ring r).slots := by
  have hrings : (((s.ownSlices r false).unbindEndpoints r)).rings = s.rings := by
    obtain ⟨-, hunbound, -⟩ := unbindEndpoints_keeps (s.ownSlices r false) r
    exact hunbound.trans (ownSlices_keeps s r false).2
  have hcores := (foldl_same State.rings (f := fun s c => s.onCore c idleCore) (s.coresOf r)
    ((s.ownSlices r false).unbindEndpoints r)).trans hrings
  unfold State.releaseRing
  dsimp only
  rw [ring_onRing, ring_setReg, ring_setReg, State.ring, hcores]
  exact ⟨rfl, rfl⟩

/-- A slice of the midway zeroised (R52). -/
def zeroSlice (s : State) (m : Nat) : State :=
  { s with
    mwy := smClear s.mwy (33554432 * m) (33554432 * (m + 1))
    mwyBad := smClear s.mwyBad (1048576 * m) (1048576 * (m + 1))
    mwyFlips := smClear s.mwyFlips (36 * 1048576 * m) (36 * 1048576 * (m + 1)) }

/-- The slices of a list zeroised: their bytes are zero, and what was zero stays so. -/
theorem mwy_foldl_zeroSlice (a : Nat) (l : List Nat) (s : State)
    (h : smGet 0 s.mwy a = 0 ∨ ∃ m ∈ l, 33554432 * m ≤ a ∧ a < 33554432 * (m + 1)) :
    smGet 0 (l.foldl zeroSlice s).mwy a = 0 := by
  induction l generalizing s with
  | nil => simpa using h
  | cons n l ih =>
    refine ih (zeroSlice s n) ?_
    have hzero : smGet 0 (zeroSlice s n).mwy a =
        if 33554432 * n ≤ a ∧ a < 33554432 * (n + 1) then 0 else smGet 0 s.mwy a := smGet_smClear 0 _ _ _ _
    rcases h with h | ⟨m, hm, hin⟩
    · exact .inl (by rw [hzero, h, ite_self])
    · rcases List.mem_cons.mp hm with rfl | hm
      · exact .inl (by rw [hzero, if_pos hin])
      · exact .inr ⟨m, hm, hin⟩

/-- What a stop leaves of a ring's memories, flags and slots (R52). -/
structure Zeroised (r : Fin 8) (s t : State) : Prop where
  flags : (t.ring r).flags = 0
  slots : (t.ring r).slots = []
  cores : ∀ c ∈ s.coresOf r, CoreZero (t.core c)
  mwy : ∀ m ∈ s.slicesOf r, ∀ a : Nat, 33554432 * m ≤ a → a < 33554432 * (m + 1) → smGet 0 t.mwy a = 0

theorem zeroised_clearRing (s : State) (r : Fin 8) : Zeroised r s (s.clearRing r) := by
  have hshown : ShownKept [] s (((s.releaseContexts r).closeWindows r).disableStreams r) :=
    (ShownKept.refl [] s).releaseContexts.closeWindows.disableStreams
  unfold State.clearRing
  extract_lets s1 s2
  have hshown2 : ShownKept [] s s2 := hshown.foldl fun _ _ h => h.onCore
  have hcores2 : ∀ c ∈ s.coresOf r, CoreZero (s2.core c) := fun c hc => by
    have hcore : s2.core c = _ := core_foldl_onCore zeroCore (nodup_coresOf s1 r) s1 c
    rw [hcore, if_pos (by rwa [hshown.coresOf (by simp)])]
    exact ⟨rfl, rfl, rfl, rfl, rfl⟩
  have hslices : (s2.zeroSlices r).cores = s2.cores := by
    unfold State.zeroSlices
    exact foldl_same State.cores _ _
  have hregions : ((s2.zeroSlices r).zeroRegions r).cores = s2.cores ∧
      ((s2.zeroSlices r).zeroRegions r).mwy = (s2.zeroSlices r).mwy := by
    unfold State.zeroRegions
    split
    · exact ⟨hslices, rfl⟩
    · exact ⟨hslices, rfl⟩
  obtain ⟨hregionCores, hregionMwy⟩ := hregions
  obtain ⟨hcores, hrings, hmwy⟩ := unbindEndpoints_keeps
    (((s2.zeroSlices r).zeroRegions r).onRing r fun k => { k with flags := 0, slots := [] }) r
  refine ⟨?_, ?_, fun c hc => ?_, fun m hm a hlo hhi => ?_⟩
  · rw [State.ring, hrings, ← State.ring, ring_onRing]
  · rw [State.ring, hrings, ← State.ring, ring_onRing]
  · rw [State.core, hcores, ← State.core, core_onRing, State.core, hregionCores]
    exact hcores2 c hc
  · rw [hmwy, onRing_mwy, hregionMwy]
    exact mwy_foldl_zeroSlice a _ s2 (.inr ⟨m, by rwa [hshown2.slicesOf (by simp)], hlo, hhi⟩)

theorem Zeroised.release {s t : State} {r : Fin 8} (h : Zeroised r s t) : Zeroised r s (t.releaseRing r) := by
  obtain ⟨hflags, hslots⟩ := ring_releaseRing t r
  exact ⟨hflags.trans h.flags, hslots.trans h.slots, fun c hc => coreZero_releaseRing (h.cores c hc),
    fun m hm a hlo hhi => by rw [(ringTurn_releaseRing t r).mwy]; exact h.mwy m hm a hlo hhi⟩

theorem onlyCrossings_dropEntries (s : State) (r : Fin 8) : OnlyCrossings s (s.dropEntries r) :=
  foldl_keeps (P := OnlyCrossings s) (fun t e h => h.trans (onlyCrossings_crossPut t e.1 e.2)) _ _ ⟨rfl⟩

/-- A stop that ends: STOPPED with the cause that it was given, and the ring zeroised (R52, R54). -/
structure StopEnded (r : Fin 8) (s t : State) : Prop where
  state : t.ringState r = stStopped
  event : t.fld (.ringEvent r) F.ringEvent_STOPPED = 1
  cause : t.fld (.ringManifestStatus r) F.ringManifestStatus_CAUSE = s.fld (.ringManifestStatus r) F.ringManifestStatus_CAUSE

theorem stopEnded_stoppedNow (s : State) (r : Fin 8) : StopEnded r s (s.stoppedNow r) := by
  have hlt : F.ringManifestStatus_CAUSE.get (s.reg (.ringManifestStatus r)) < 16 := Fld.get_lt _ _
  unfold State.stoppedNow
  extract_lets s0 s1 cause s2
  obtain ⟨hstate, hcause⟩ := setRingState_fields s2 r (st := stStopped) (cause := cause) (by decide) hlt
  refine ⟨?_, fld_setFld _ _ _ _ ⟨by decide, by decide⟩, ?_⟩
  · rw [ringState_eq_fld, fld_setFld_ne _ _ _ _ (addr_injective.ne (by simp))]
    exact hstate
  · rw [fld_setFld_ne _ _ _ _ (addr_injective.ne (by simp))]
    exact hcause

theorem zeroised_stoppedNow (s : State) {r : Fin 8} (hbound : (s.ring r).bound = true) : Zeroised r s (s.stoppedNow r) := by
  have hdropped := onlyCrossings_dropEntries s r
  have hbound0 : ((s.dropEntries r).ring r).bound = true := by rw [hdropped.ring, hbound]
  have hresources : (s.dropEntries r).reg (.ringResources r) = s.reg (.ringResources r) := hdropped.reg _
  have hcleared : Zeroised r s ((s.dropEntries r).clearRing r) := by
    obtain ⟨hflags, hslots, hcores, hmwy⟩ := zeroised_clearRing (s.dropEntries r) r
    simp only [State.coresOf, State.ringMask, State.slicesOf, hresources] at hcores hmwy
    exact ⟨hflags, hslots, hcores, hmwy⟩
  unfold State.stoppedNow
  extract_lets s0 s1 cause s2
  have hs1 : Zeroised r s s1 := by
    unfold s1
    rw [if_pos hbound0]
    exact hcleared
  have hs2 : Zeroised r s s2 := by
    unfold s2
    split
    · exact hs1.release
    · exact hs1
  exact ⟨hs2.flags, hs2.slots, hs2.cores, hs2.mwy⟩

theorem exec_stopComplete (r : Fin 8) (s : State) : exec (.stopComplete r) s =
    .next (if s.ringState r = stStopping ∧ s.flagsDrained r ∧ s.answersWait r = false then s.stoppedNow r else s) := rfl

/-- Settles O27: STOP by the state of the ring, and the end of the stop. -/
theorem stopZeroisesTheRing : Obligations.StopZeroisesTheRing := by
  unfold Obligations.StopZeroisesTheRing
  intro s r who
  refine ⟨fun h hstop => ?_, fun h hstop => ringStop_stopping h hstop, fun h hstop => ?_,
    fun hstopping hdrained hanswers hbound => ?_, fun hwait => ?_⟩
  · obtain ⟨hstate, hcause, ⟨hcurrent, hwaiting, hheld, hstill⟩, hmwy, hcores⟩ :=
      stopBegun_endBoot (stopBegun_beginStop s r (cause := cauHost) (by decide))
    exact ⟨_, ringStop_stoppable h hstop, hstate, hcause, hcurrent, hwaiting, hheld, hmwy, hstill, hcores⟩
  · obtain ⟨hrefused, -, hrings, hcores⟩ := refuseRing_shows s r
    exact ⟨_, ringStop_refused h hstop, hrefused, hrings, hcores⟩
  · obtain ⟨hstate, hevent, hcause⟩ := stopEnded_stoppedNow s r
    obtain ⟨hflags, hslots, hcores, hmwy⟩ := zeroised_stoppedNow s hbound
    exact ⟨_, by rw [exec_stopComplete, if_pos ⟨hstopping, hdrained, hanswers⟩], hstate, hevent, hcause, hflags, hslots,
      hcores, hmwy⟩
  · rw [exec_stopComplete, if_neg]
    rintro ⟨hstopping, hdrained, hanswers⟩
    simp [hstopping, hdrained, hanswers] at hwait

end Sys2Proof.Machine
end

section
/-! SUPPORT. The load of a ring (R40, R46, R48, R49, R186, R360, R361): what a load that succeeds has bound stays bound through
sweep, load list, endpoints and windows; what a ring reaches at its end. -/

namespace Sys2Proof.Machine

/-- A ring is as before but for its result slots and its fault queue. -/
def RingStands (r : Fin 8) (s t : State) : Prop :=
  t.ring r = { s.ring r with slots := (t.ring r).slots, faults := (t.ring r).faults }

section
variable {r : Fin 8} {s t u : State}

theorem RingStands.refl (r : Fin 8) (s : State) : RingStands r s s := rfl

theorem RingStands.trans (h : RingStands r s t) (g : RingStands r t u) : RingStands r s u := by
  unfold RingStands at h g ⊢
  rw [g, h]

theorem RingStands.same (h : RingStands r s t) (hr : u.rings = t.rings) : RingStands r s u := by
  refine h.trans ?_
  unfold RingStands State.ring
  rw [hr]

theorem RingStands.bound (h : RingStands r s t) : (t.ring r).bound = (s.ring r).bound := by
  rw [h]

theorem RingStands.undisturbed (h : RingStands r s t) (g : Undisturbed [r] t u) : RingStands r s u :=
  h.trans (g.ring r (by simp))

theorem RingStands.reports (h : RingStands r s t) (g : Reports t u) : RingStands r s u := h.trans (g.ring r)

theorem RingStands.foldl {α : Type} {f : State → α → State} {x : List α} (h : RingStands r s t)
    (hf : ∀ t a, RingStands r s t → RingStands r s (f t a)) : RingStands r s (x.foldl f t) :=
  foldl_keeps (fun t a ht => hf t a ht) x t h

/-- Access to the midway and to DRAM for no ring's command leaves a ring as it is. -/
theorem RingStands.access (r : Fin 8) (s : State) : AccessKeeps (RingStands r s) where
  traces := fun h g => h.trans (g.ring r)
  eccCount := fun h => h.same rfl
  sliceStatus := fun h => h.same rfl
  midway := fun h => h.same rfl
  lines := fun h => h.same rfl

theorem RingStands.mwyWrite {g : Fin 8} {tag : Tag} {a : Nat} {d : List PByte} (h : RingStands r s t) :
    RingStands r s (t.mwyWrite g tag a d) := (RingStands.access r s).mwyWrite h

theorem RingStands.cmWrite {tag : Tag} {c : Fin 16} {a : Nat} {d : List PByte} (h : RingStands r s t) :
    RingStands r s (t.cmWrite tag c a d) := by
  have hput : RingStands r s (t.setCore c { corePut a d (t.core c) with ecc := [] }) := h.same rfl
  exact hput.undisturbed (undisturbed_onMem [r] t tag c _)

theorem RingStands.dramWrite {q : Requester} {tag : Tag} {gen : BitVec 16} {a : Nat} {d : List PByte} (h : RingStands r s t)
    (hq : q.faults = none) : RingStands r s (t.dramWrite q tag gen a d).1 := (RingStands.access r s).dramWrite h hq

/-! ## The steps of a load -/

theorem RingStands.sweep (h : RingStands r s t) : RingStands r s (t.sweep r) := by
  have hread : ∀ t n, RingStands r s t → RingStands r s (t.sweepRead r n) := fun t n h => by
    have hcount := h.reports (reports_ddrCount t n (checkLine t.dram n r.val none))
    unfold State.sweepRead
    dsimp only
    split
    · exact (RingStands.access r s).lineError ((RingStands.access r s).report rfl) hcount
    · exact hcount
  have hnow : ∀ t spill u, RingStands r s t → RingStands r s (t.sweepNow r spill u) := fun t spill u h => by
    unfold State.sweepNow
    dsimp only
    split
    · exact h.same rfl
    · exact (h.foldl hread).same rfl
  exact h.foldl fun _ _ h => h.foldl fun t _ h => hnow t _ _ h

theorem RingStands.loadDram {a : Nat} {d : List Byte} (h : RingStands r s t) : ∀ u ∈ t.loadDram r a d, RingStands r s u := by
  intro u hu
  unfold State.loadDram at hu
  split at hu
  · cases hu
    exact h.dramWrite rfl
  · cases hu

theorem RingStands.loadOne {e : List Byte} (h : RingStands r s t) : ∀ u ∈ t.loadOne r e, RingStands r s u := by
  intro u hu
  unfold State.loadOne at hu
  extract_lets n dest d at hu
  split at hu
  · cases hu
  · split at hu
    · split at hu
      · cases hu
        exact h.mwyWrite
      · split at hu
        · cases hu
        · rw [Option.map_id'] at hu
          exact h.loadDram u hu
    · exact h.loadDram u hu
    · split at hu
      · cases hu
      · cases hu
        exact h.foldl fun _ _ h => h.cmWrite

theorem RingStands.loadList {l : List (List Byte)} (h : RingStands r s t) : ∀ u ∈ State.loadList r l t, RingStands r s u := by
  induction l generalizing t with
  | nil =>
    intro u hu
    cases hu
    exact h
  | cons e l ih =>
    intro u hu
    unfold State.loadList at hu
    split at hu
    · cases hu
    next heq => exact ih (h.loadOne _ heq) u hu

theorem RingStands.bindEndpoints {m : List Byte} (h : RingStands r s t) : RingStands r s (t.bindEndpoints r m) :=
  h.foldl fun _ _ h => h.same rfl

theorem RingStands.assignWindows {m : List Byte} (h : RingStands r s t) : RingStands r s (t.assignWindows r m) := by
  refine h.foldl fun t w h => ?_
  split
  · exact h.same rfl
  · exact h

end

/-- A ring that is bound to a placement is bound. -/
theorem bindRing_bound (s : State) (r : Fin 8) (m : List Byte) (p : Nat × Nat × Nat) (programs : List Program) :
    ((s.bindRing r m p programs).ring r).bound = true := by
  have hregs : ∀ (t : State) x, ((t.setRegs x).ring r).bound = (t.ring r).bound := fun t x =>
    congrArg Ring.bound ((onlyRegs_setRegs x t).ring r)
  unfold State.bindRing
  extract_lets width mode status s1 s2 s3 s4
  have hstreams : ((s4.clearStreams r).ring r).bound = (s4.ring r).bound := by
    unfold State.clearStreams
    rw [ring_onRing]
    exact foldl_same (fun t : State => (t.ring r).bound) _ _
  have hslices : (s4.ring r).bound = (s3.ring r).bound :=
    foldl_same (fun t : State => (t.ring r).bound)
      (f := fun t k => t.setRegs ((List.finRange 4).map fun i => (.mwyWaitMax (subFin k) i, 0))) (s3.slicesOf r) s3 fun t _ => hregs t _
  have hcores : (s3.ring r).bound = ((s2.ownSlices r true).ring r).bound :=
    foldl_same (fun t : State => (t.ring r).bound) (f := fun t c => (t.onCore c idleCore).setRegs (coreCounters c))
      (s2.coresOf r) (s2.ownSlices r true) fun t c => hregs (t.onCore c idleCore) _
  have hown : ((s2.ownSlices r true).ring r).bound = (s2.ring r).bound := by
    rw [State.ring, (ownSlices_keeps s2 r true).2, State.ring]
  have hbound : (s2.ring r).bound = true := congrArg Ring.bound (ring_onRing s1 r _)
  have hquotes : ∀ (t : State) (x : Security), ({ t with sec := x } : State).ring r = t.ring r := fun _ _ => rfl
  rw [hquotes, hstreams, hslices, hcores, hown, hbound]

theorem manifestCause_lt (s : State) (r : Fin 8) (m : List Byte) : s.manifestCause r m < 16 := by
  unfold State.manifestCause
  dsimp only
  split
  · decide
  · split
    · decide
    · split <;> decide

/-- How a load ends: with a cause that MANIFEST_STATUS can hold, or with the ring bound (R46, R54, R361). -/
theorem loadNow_ends (s : State) (r : Fin 8) : (s.loadNow r).2 < 16 ∧ ((s.loadNow r).2 = 0 → ((s.loadNow r).1.ring r).bound = true) := by
  have hfailed : ∀ (t : State) (cause : Nat), cause < 16 → cause ≠ 0 →
      (t, cause).2 < 16 ∧ ((t, cause).2 = 0 → ((t, cause).1.ring r).bound = true) := fun t cause hlt hne =>
    ⟨hlt, fun h => absurd h hne⟩
  unfold State.loadNow
  split
  · exact hfailed _ _ (by decide) (by decide)
  next m _ =>
    extract_lets s0
    split
    · split
      · exact hfailed _ _ (by decide) (by decide)
      next p _ =>
        split
        · exact hfailed _ _ (by decide) (by decide)
        next programs _ =>
          extract_lets s2
          have hswept : (s2.ring r).bound = true := (RingStands.sweep (.refl r _)).bound.trans (bindRing_bound s0 r m p programs)
          split
          · exact hfailed _ _ (by decide) (by decide)
          next s3 hlist =>
            have hloaded : RingStands r s2 ((s3.bindEndpoints r m).assignWindows r m) :=
              ((RingStands.refl r s2).loadList s3 hlist).bindEndpoints.assignWindows
            refine ⟨Nat.zero_lt_succ 15, fun _ => ?_⟩
            dsimp only
            rw [hloaded.bound, hswept]
    next hcause => exact hfailed _ _ (manifestCause_lt s0 r m) hcause

/-! ## The end of a load -/

/-- The load step of a LOADING ring whose turn has come. -/
theorem exec_ringLoadComplete_turn {s : State} {r : Fin 8} (hload : s.ringState r = stLoading) (hturn : s.loadTurn r = true) :
    exec (.ringLoadComplete r) s = .next (s.finishLoad r) :=
  congrArg Host.Outcome.next (if_pos ⟨hload, hturn⟩)

/-- A trigger that is queued, or dropped, leaves a ring bound. -/
theorem fireSlot_bound (s : State) (r : Fin 8) {kind arg : Nat} {stamp : DWord} (slot : Nat) :
    ((fireSlot r kind arg stamp s slot).ring r).bound = (s.ring r).bound := by
  unfold fireSlot State.queueTrigger
  split
  · split
    · rfl
    · split
      · rw [ring_onRing]
      · rfl
  · rfl

/-- What a ring shows that reaches RUNNING at the end of a load. -/
theorem startRunning_shows (s : State) (r : Fin 8) : (s.startRunning r).ringState r = stRunning ∧
    (s.startRunning r).fld (.ringEvent r) F.ringEvent_RUNNING = 1 ∧ (s.startRunning r).mwy = s.mwy ∧
    ((s.startRunning r).ring r).bound = (s.ring r).bound := by
  obtain ⟨hstate, hevent, hkept, -, hbound⟩ := enterRunning_shows s r
  have hshown : ShownKept [] (s.enterRunning r) (s.startRunning r) := (ShownKept.refl [] _).fire
  have hfire : ((s.startRunning r).ring r).bound = ((s.enterRunning r).ring r).bound := by
    rw [State.startRunning, fire_eq_foldl]
    exact foldl_same (fun t : State => (t.ring r).bound) _ _ fun t slot => fireSlot_bound t r slot
  refine ⟨(hshown.ringState (by simp)).trans hstate, (hshown.fld rfl (by simp) _).trans hevent, ?_, hfire.trans hbound⟩
  exact ((Undisturbed.refl [] _).fire (by simp)).mwy.trans hkept.mwy

/-- What a ring shows that a load fails. -/
theorem failRing_shows (s : State) (r : Fin 8) {cause : Nat} (hcause : cause < 16) : (s.failRing r cause).ringState r = stFailed ∧
    (s.failRing r cause).fld (.ringManifestStatus r) F.ringManifestStatus_CAUSE = cause ∧
    (s.failRing r cause).fld (.ringEvent r) F.ringEvent_FAILED = 1 := by
  obtain ⟨hstate, hshown⟩ := setRingState_fields (s.onRing r fun k => { k with starting := false }) r (st := stFailed)
    (by decide) hcause
  have hne : (Reg.ringEvent r).addr ≠ (Reg.ringManifestStatus r).addr := addr_injective.ne (by simp)
  unfold State.failRing
  refine ⟨?_, ?_, ?_⟩
  · rw [ringState_eq_fld, fld_setFld_ne _ _ _ _ hne, ← ringState_eq_fld, hstate]
  · rw [fld_setFld_ne _ _ _ _ hne, hshown]
  · rw [fld_setFld _ _ _ _ ⟨by decide, by decide⟩]
    rfl

/-- What a ring reaches stands over the end of boot, but for LOADING. -/
theorem endBoot_stands (s : State) {r : Fin 8} (hr : s.ringState r ≠ stLoading) : s.endBoot.mwy = s.mwy ∧
    (s.endBoot.ring r).bound = (s.ring r).bound ∧ s.endBoot.ringState r = s.ringState r ∧
    (∀ f, s.endBoot.fld (.ringManifestStatus r) f = s.fld (.ringManifestStatus r) f) ∧
    ∀ f, s.endBoot.fld (.ringEvent r) f = s.fld (.ringEvent r) f := by
  obtain ⟨hshown, hkept⟩ := endBoot_keeps s hr
  have hevent : Reg.ringEvent r ∉ bootEndRegs r := by simp [bootEndRegs]
  have hstatus := ringManifestStatus_not_mem_bootEndRegs r
  exact ⟨hkept.mwy, (RingStands.undisturbed (.refl r s) hkept).bound, hshown.ringState hstatus, hshown.fld rfl hstatus,
    hshown.fld rfl hevent⟩

theorem finishLoad_fails {s s1 : State} {r : Fin 8} {cause : Nat} (hbound : (s.ring r).bound = false)
    (hnow : s.loadNow r = (s1, cause)) (hcause : cause ≠ 0) : s.finishLoad r = (s1.failRing r cause).endBoot := by
  unfold State.finishLoad
  rw [hbound, hnow, if_neg Bool.false_ne_true]
  split
  next heq => exact absurd (Prod.mk.inj heq).2 hcause
  next heq =>
    obtain ⟨rfl, rfl⟩ := Prod.mk.inj heq
    rfl

theorem finishLoad_loads {s s1 : State} {r : Fin 8} (hbound : (s.ring r).bound = false) (hnow : s.loadNow r = (s1, 0)) :
    s.finishLoad r = (s1.loadedRing r).endBoot := by
  unfold State.finishLoad
  rw [hbound, hnow, if_neg Bool.false_ne_true]
  rfl

/-- Settles O24: the ring that is bound already, the load that fails, and the three ends of one that does not. -/
theorem loadEndsInLoadedRunningOrFailed : Obligations.LoadEndsInLoadedRunningOrFailed := by
  unfold Obligations.LoadEndsInLoadedRunningOrFailed
  refine fun s r => ⟨fun hload hturn => ?_, fun h => congrArg Host.Outcome.next (if_neg fun ⟨hload, hturn⟩ => ?_)⟩
  · rw [exec_ringLoadComplete_turn hload hturn]
    refine ⟨fun hbound hgo => ?_, fun hbound hboot hstart => ?_, fun s1 cause hbound hnow => ⟨fun hcause => ?_, ?_, ?_, ?_⟩⟩
    · have hfinish : s.finishLoad r = s.startRunning r := by simp [State.finishLoad, hbound, hgo]
      obtain ⟨hstate, hevent, hmwy, -⟩ := startRunning_shows s r
      exact ⟨_, congrArg Host.Outcome.next hfinish, hstate, hevent, hmwy⟩
    · simp [State.finishLoad, hbound, hboot, hstart]
    · obtain ⟨hlt, -⟩ := loadNow_ends s r
      rw [hnow] at hlt
      obtain ⟨hstate, hshown, hevent⟩ := failRing_shows s1 r hlt
      obtain ⟨-, -, hstate', hstatus', hevent'⟩ := endBoot_stands (s1.failRing r cause) (r := r) (by rw [hstate]; decide)
      exact ⟨_, congrArg Host.Outcome.next (finishLoad_fails hbound hnow hcause), hstate'.trans hstate, (hstatus' _).trans hshown, (hevent' _).trans hevent⟩
    all_goals
      rintro rfl
      obtain ⟨-, hbinds⟩ := loadNow_ends s r
      rw [hnow] at hbinds
      rw [finishLoad_loads hbound hnow]
    · intro hgo
      have hrun : s1.loadedRing r = s1.startRunning r := if_pos (by simpa using hgo)
      obtain ⟨hstate, hevent, hmwy, hkept⟩ := startRunning_shows s1 r
      obtain ⟨hmwy', hkept', hstate', -, hevent'⟩ := endBoot_stands (s1.startRunning r) (r := r) (by rw [hstate]; decide)
      rw [hrun]
      exact ⟨_, rfl, hstate'.trans hstate, hkept'.trans (hkept.trans (hbinds rfl)), (hevent' _).trans hevent, hmwy'.trans hmwy⟩
    · intro hboot hstart hbit
      have hloaded : s1.loadedRing r = s1.moveRing r stLoaded := by simp [State.loadedRing, hboot, hstart, hbit]
      have hstate := moveRing_shows s1 r (st := stLoaded) (by decide)
      obtain ⟨hmwy', hkept', hstate', -, -⟩ := endBoot_stands (s1.moveRing r stLoaded) (r := r) (by rw [hstate]; decide)
      rw [hloaded]
      exact ⟨_, rfl, hstate'.trans hstate, hkept'.trans (hbinds rfl), hmwy'⟩
    · intro hboot hstart hbit
      have hwaits : s1.loadedRing r = s1 := by simp [State.loadedRing, hboot, hstart, hbit]
      rw [hwaits]
  · rcases h with h | h
    · exact h hload
    · rw [h] at hturn
      cases hturn

end Sys2Proof.Machine
end

section
/-! SUPPORT. VLOAD and VSTORE (R73, R79, R106, R108, R154 to R156, R481): what a fault of a ring leaves of the cores, what stores
through the gathering buffer and the completion of a command do to a core. -/

namespace Sys2Proof.Machine

/-! ## A fault of a ring -/

section
variable {rs : List (Fin 8)} {s t u : State} {r : Fin 8}

theorem Undisturbed.traceDrain (h : Undisturbed rs s t) : Undisturbed rs s (t.traceDrain r) := by
  refine h.foldl fun t c h => ?_
  dsimp only
  split
  · exact h
  · split
    · exact h.traces (traces_dumpOut _ _ _ _)
    · exact h.foldl fun _ _ h => h.traces (traces_batchOut _ _ _ _)
    · exact h

theorem Undisturbed.enterFaulted {cause : Nat} (h : Undisturbed rs s t) (hr : r ∉ rs) : Undisturbed rs s (t.enterFaulted r cause) := by
  have hdrained : Undisturbed rs s (((t.setRingState r stFaulted cause).setFld (.ringEvent r) F.ringEvent_FAULTED 1).traceDrain r) :=
    h.setFld.setFld.setFld.traceDrain
  have hcleared : Undisturbed rs s (pendingCleared _ r) := (hdrained.foldl fun _ _ h => h.setFld).onRing hr
  refine (hcleared.trans (undisturbed_dropPending rs _ r stRingState)).foldl fun t p h => ?_
  exact .ite (h.onRing hr).setFld (h.onRing hr)

/-- A fault of a ring disturbs no core and nothing of the midway. -/
theorem Undisturbed.faultRing {i : FaultInfo} (h : Undisturbed rs s t) (hr : r ∉ rs) : Undisturbed rs s (t.faultRing r i) :=
  .ite (h.record.enterFaulted hr) (.ite h.record h)

end

/-- A ring that may fault is FAULTED by an error with a cause. -/
theorem faultRing_faults {s : State} {r : Fin 8} {i : FaultInfo} (hmay : s.mayFault r = true) (hcause : i.cause < 16) :
    (s.faultRing r i).ringState r = stFaulted := by
  rw [State.faultRing, if_pos hmay]
  exact (faulted_enterFaulted _ r hcause).state

/-! ## Stores -/

section
variable {k j : Core}

theorem memTouched_gatherPut (k : Core) (line : Nat) (bytes : List (Nat × Byte)) : MemTouched k (gatherPut line bytes k) := by
  unfold gatherPut
  extract_lets put old rest k1 g
  have hroom : MemTouched k k1 := by
    unfold k1
    split
    · cases rest with
      | nil => exact .refl k
      | cons g l => exact (memTouched_flushEntry k g).trans ⟨rfl⟩
    · exact ⟨rfl⟩
  split
  · exact hroom.trans (memTouched_flushEntry k1 g)
  · exact hroom.trans ⟨rfl⟩

theorem memTouched_storeLine (k : Core) (line : Nat) (bytes : List (Nat × Byte)) : MemTouched k (storeLine k line bytes) := by
  unfold storeLine
  split
  · exact .refl k
  · split
    · exact (MemTouched.mk rfl).trans (memTouched_corePut _ _ _)
    · exact memTouched_gatherPut k line bytes

theorem memTouched_storeLines (k : Core) (addr : Nat) (d : List (Byte × Bool)) : MemTouched k (storeLines k addr d) :=
  MemTouched.foldl (.refl k) fun k _ => memTouched_storeLine k _ _

end

/-! ## Crossings -/

theorem SameCrossings.trans {s t u : State} (h : SameCrossings s t) (g : SameCrossings t u) : SameCrossings s u :=
  ⟨g.1.trans h.1, g.2.trans h.2⟩

theorem Traces.sameCrossings {c : Fin 16} {s t : State} (h : Traces c s t) : SameCrossings s t := h.cross

theorem sameCrossings_record (s : State) (ring : Option (Fin 8)) (faulting : Bool) (i : FaultInfo) :
    SameCrossings s (s.record ring faulting i) := by
  have hseq : SameCrossings s { s with faultSeq := s.faultSeq + 1 } := ⟨rfl, rfl⟩
  unfold State.record
  refine SameCrossings.trans ?_ ((reports_fileRecord _ _ _ _ _).traces 0).sameCrossings
  split
  · exact hseq.trans (traces_trace _ _ _ _ _ _).sameCrossings
  · exact hseq

theorem sameCrossings_onMem (s : State) (tag : Tag) (c : Fin 16) (f : Core → Core) : SameCrossings s (s.onMem tag c f) := by
  refine foldl_keeps (P := fun t => SameCrossings s t) (fun t e ht => ht.trans ?_) _ _ ⟨rfl, rfl⟩
  unfold State.coreEcc
  split
  · exact (sameCrossings_bump t _ _ 1).trans (sameCrossings_record _ _ _ _)
  · exact sameCrossings_bump t _ _ 1

/-! ## Completions -/

/-- What flags that a completion names do: operations of core flags wait in their cores, and sets of ring flags stand in the
crossing, in their order (R127). -/
structure FlagsNamed (s t : State) (c : Fin 16) (r : Fin 8) (l : List FlagRef) : Prop where
  mwy : t.mwy = s.mwy
  core : ∀ d : Fin 16, t.core d = { s.core d with flagPend := (t.core d).flagPend }
  sent : t.sentOn (.coreToConcourse c) = s.sentOn (.coreToConcourse c) ++ ringSets r l
  other : ∀ x : Crossing, x ≠ .coreToConcourse c → t.sentOn x = s.sentOn x

section
variable {s t u : State} {c : Fin 16} {r : Fin 8} {l l' : List FlagRef}

theorem FlagsNamed.append (h : FlagsNamed s t c r l) (g : FlagsNamed t u c r l') : FlagsNamed s u c r (l ++ l') := by
  refine ⟨g.mwy.trans h.mwy, fun d => ?_, ?_, fun x hx => (g.other x hx).trans (h.other x hx)⟩
  · rw [g.core d, h.core d]
  · rw [g.sent, h.sent, List.append_assoc, ringSets, ringSets, ringSets, List.filterMap_append]

theorem flagsNamed_setNamed (s : State) (r : Fin 8) (c : Fin 16) (o : Option FlagRef) :
    FlagsNamed s (s.setNamed r c true o) c r o.toList := by
  match o with
  | none => exact ⟨rfl, fun _ => rfl, (List.append_nil _).symm, fun _ _ => rfl⟩
  | some (.core n on) =>
    refine ⟨rfl, fun d => ?_, (List.append_nil _).symm, fun _ _ => rfl⟩
    by_cases hd : c = d
    · subst hd
      simp [State.setNamed, State.setByCore, State.pendFlag]
    · simp [State.setNamed, State.setByCore, State.pendFlag, core_onCore_ne _ _ hd]
  | some (.ring n) =>
    have hput := onlyCrossings_crossPut s (.coreToConcourse c) (.setFlag r n)
    obtain ⟨hsent, hother⟩ := sends_crossPut s (.coreToConcourse c) (.setFlag r n)
    exact ⟨hput.mwy, fun d => by rw [State.setNamed, State.setByCore, hput.core d], hsent, hother⟩

end

/-- A completion: its token is given, its flags are named, and no memory changes (R108, R127). -/
theorem complete_gives (s : State) (r : Fin 8) (c : Fin 16) (done : Completion) :
    TokenGiven s (s.complete r c true done) c done ∧ RingFlagsSent s (s.complete r c true done) c r done ∧
    (s.complete r c true done).mwy = s.mwy ∧ ∀ d : Fin 16,
      ((s.complete r c true done).core d).mem = (s.core d).mem ∧ ((s.complete r c true done).core d).gather = (s.core d).gather := by
  unfold State.complete
  extract_lets s1
  have hflags := (flagsNamed_setNamed s1 r c done.ready).append (flagsNamed_setNamed _ r c done.flag)
  have hgiven : TokenGiven s s1 c done ∧ SameCrossings s s1 ∧ s1.mwy = s.mwy ∧
      ∀ d : Fin 16, (s1.core d).mem = (s.core d).mem ∧ (s1.core d).gather = (s.core d).gather := by
    unfold s1
    split
    next n hn =>
      refine ⟨fun m => ?_, ⟨rfl, rfl⟩, rfl, fun d => ?_⟩
      · by_cases hm : n = m
        · subst hm
          rw [if_pos hn, dq_onDq]
        · rw [if_neg (by simp [hn, hm])]
          simp [State.dq, State.onDq, Vector.getElem_set_ne, Fin.val_ne_of_ne hm]
      · by_cases hd : c = d
        · subst hd
          simp [State.onDq]
        · simp [State.onDq, core_onCore_ne _ _ hd]
    next hn => exact ⟨fun m => by simp [hn], ⟨rfl, rfl⟩, rfl, fun _ => ⟨rfl, rfl⟩⟩
  obtain ⟨htoken, hcross, hmwy, hmem⟩ := hgiven
  refine ⟨fun n => ?_, ⟨?_, fun x hx => ?_⟩, hflags.mwy.trans hmwy, fun d => ?_⟩
  · rw [← htoken n, State.dq, hflags.core c, State.dq]
  · rw [hflags.sent, hcross.sentOn, doneFlags]
  · rw [hflags.other x hx, hcross.sentOn]
  · rw [hflags.core d]
    exact hmem d

/-! ## VLOAD -/

theorem rawBytes_opGet (k : Core) (a n : Nat) : rawBytes (opGet k a n) = smRead 0 k.opnd a n := by
  rw [rawBytes, opGet, List.map_map]
  induction n generalizing a with
  | zero => rfl
  | succ n ih =>
    rw [List.range_succ_eq_map, List.map_cons, List.map_map, smRead, ← ih (a + 1)]
    simp [Function.comp_def, Nat.add_comm, Nat.add_left_comm]

section
variable {s : State} {e : Eng} {dst : Fin 64} {L : Nat} {r : Fin 8} {u : Nat}

/-- The state in which a vector command has issued, after a note of the audit. -/
theorem core_vectorIssued (s : State) (e : Eng) (occ first count vis u : Nat) :
    (vectorIssued s e occ first count vis u).core e.core = { (s.issueAt e.core qVector e.tag e.gap.toNat occ occ u).core e.core with
      auditVec := ((vectorIssued s e occ first count vis u).core e.core).auditVec } := by
  rw [vectorIssued, State.noteVector, core_onCore]

theorem Issued.rx {c : Fin 16} {t : State} (h : Issued c s t) : (t.core c).rx = (s.core c).rx := by
  rw [h.core]
  rfl

theorem Issued.opnd {c : Fin 16} {t : State} (h : Issued c s t) : (t.core c).opnd = (s.core c).opnd := by
  rw [h.core]
  rfl

theorem mwy_noteVector (t : State) (c : Fin 16) (x : AuditRec) : (t.noteVector c x).mwy = t.mwy := rfl

/-- What an issue of a vector command leaves of the core's memories and receive entries. -/
theorem vectorIssued_keeps (s : State) (e : Eng) (occ first count vis u : Nat) :
    ((vectorIssued s e occ first count vis u).core e.core).rx = (s.core e.core).rx ∧
    ((vectorIssued s e occ first count vis u).core e.core).opnd = (s.core e.core).opnd ∧
    ((vectorIssued s e occ first count vis u).core e.core).mem = (s.core e.core).mem ∧
    (vectorIssued s e occ first count vis u).mwy = s.mwy := by
  have hissued := issued_issueAt s e.core qVector e.tag e.gap.toNat occ occ u
  have hmwy : (vectorIssued s e occ first count vis u).mwy = (s.issueAt e.core qVector e.tag e.gap.toNat occ occ u).mwy := by
    rw [vectorIssued, mwy_noteVector]
  rw [core_vectorIssued]
  exact ⟨hissued.rx, hissued.opnd, hissued.mem, hmwy.trans hissued.mwy⟩

theorem ne_zero_of_regSpan {v : Fin 64} {L : Nat} (h : regSpan v L = true) : L ≠ 0 := by
  simp only [regSpan, Bool.and_eq_true, decide_eq_true_eq] at h
  omega

theorem execVload_rx {entry : Fin 4} {first : Nat} {release : Bool} (hform : Instr.WellFormed (.vload e dst L (.rx entry first release)))
    (hready : Ready s e.core qVector e.mask e.tag e.gap r u) (hpass : Passes s r (vectorAudit s e [] dst.val L (L + latRx - 1)))
    (hheld : ((s.core e.core).rx[entry]).held = true) (hslot : ((s.core e.core).rx[entry]).readable ≤ u) :
    exec (.vload e dst L (.rx entry first release)) s =
      .next ((vectorIssued s e L dst.val L (L + latRx - 1) u).loadRx r e dst L entry first release u) := by
  have hL : L ≠ 0 := ne_zero_of_regSpan (v := dst) (Bool.and_eq_true_iff.mp hform).1
  have hgate : s.rxGate e.core entry u = none := if_pos (by rw [hheld, decide_eq_true hslot]; rfl)
  show execVload e dst L (.rx entry first release) s = _
  unfold execVload
  rw [onForm_formOk hform]
  dsimp only
  rw [vectorCommand_ready L _ hready hgate hpass, if_neg hL]
  rfl

theorem execVload_cm {addr : Nat} {fmt : VFmt} (hform : Instr.WellFormed (.vload e dst L (.cm addr fmt)))
    (hready : Ready s e.core qVector e.mask e.tag e.gap r u) (hpass : Passes s r (vectorAudit s e [] dst.val L (L + latCm - 1))) :
    exec (.vload e dst L (.cm addr fmt)) s =
      .next ((vectorIssued s e L dst.val L (L + latCm - 1) u).loadCm r e dst L addr fmt u) := by
  have hL : L ≠ 0 := ne_zero_of_regSpan (v := dst) hform
  show execVload e dst L (.cm addr fmt) s = _
  unfold execVload
  rw [onForm_formOk hform]
  dsimp only
  rw [vectorCommand_ready L _ hready rfl hpass, if_neg hL]
  rfl

/-- A clean receive entry is loaded, and freed where it is released (R73, R481). -/
theorem loadRx_clean {t : State} {entry : Fin 4} {first : Nat} {release : Bool} (hclean : ((t.core e.core).rx[entry]).poisoned = false) :
    ((t.loadRx r e dst L entry first release u).core e.core) = { t.core e.core with
      vPend := (t.core e.core).vPend ++ [⟨dst.val, u + L + latRx - 1, chunksOf 128 (L + 1) (laneWords 4
        (smRead 0 (t.core e.core).opnd (opRx + 4096 * entry.val + 512 * first) (512 * L)))⟩]
      rx := if release then (t.core e.core).rx.set entry ⟨false, 0, u + L, false⟩ else (t.core e.core).rx } ∧
    (t.loadRx r e dst L entry first release u).mwy = t.mwy := by
  unfold State.loadRx
  extract_lets c d s1
  have hs1 : s1.core e.core = { t.core e.core with
      vPend := (t.core e.core).vPend ++ [⟨dst.val, u + L + latRx - 1, chunksOf 128 (L + 1) (laneWords 4
        (smRead 0 (t.core e.core).opnd (opRx + 4096 * entry.val + 512 * first) (512 * L)))⟩] } := by
    rw [← rawBytes_opGet]
    exact core_onCore t e.core _
  rw [if_neg (by rw [hclean]; exact Bool.false_ne_true)]
  cases release with
  | true =>
    rw [if_pos rfl, if_pos rfl, State.rxRelease, core_onCore, hs1]
    exact ⟨rfl, rfl⟩
  | false =>
    rw [if_neg Bool.false_ne_true, if_neg Bool.false_ne_true, hs1]
    exact ⟨rfl, rfl⟩

/-- A load from core memory that comes back poisoned writes no register and faults its ring (R79, R156). -/
theorem loadCm_read {t s1 : State} {addr : Nat} {fmt : VFmt} {d : List PByte} (hin : inCore addr (128 * L * laneBytes fmt) = true)
    (hread : t.cmRead e.tag e.core addr (128 * L * laneBytes fmt) = (s1, d)) :
    t.loadCm r e dst L addr fmt u = if anyPoison d then s1.vecPoison r e.core e.tag 1
      else s1.vecWrite e.core dst.val (u + L + latCm - 1) (chunksOf 128 (L + 1) (laneWords (laneBytes fmt) (rawBytes d))) := by
  unfold State.loadCm
  dsimp only
  rw [if_neg (by rw [hin]; exact Bool.false_ne_true), hread]

end

/-! ## VSTORE -/

section
variable {s : State} {e : Eng} {src : Fin 64} {L addr : Nat} {fmt : VFmt} {mask : BitVec 128} {done : Completion} {r : Fin 8} {u : Nat}

/-- The state in which the bytes of a VSTORE have been put (R154). -/
def vstorePut (s : State) (e : Eng) (src : Fin 64) (L addr : Nat) (fmt : VFmt) (mask : BitVec 128) (u : Nat) : State :=
  (s.issueAt e.core qVector e.tag e.gap.toNat L L u).onMem e.tag e.core fun k => storeLines k addr (storeBytes k u L src fmt mask)

theorem execVstore_ready (hform : Instr.WellFormed (.vstore e src L addr fmt mask done)) (hdone : s.badCompletion e.core done = false)
    (hready : Ready s e.core qVector e.mask e.tag e.gap r u) (hgate : s.doneGate e.core done 0 u = none)
    (hpass : Passes s r (vectorAudit s e (srcReads L (.reg src)) 0 0 0)) (halign : addr % 8 = 0)
    (hin : inCore addr (128 * L * laneBytes fmt) = true) : exec (.vstore e src L addr fmt mask done) s =
      .next ((if completes done then (vstorePut s e src L addr fmt mask u).onMem e.tag e.core
        (flushRange addr (128 * L * laneBytes fmt)) else vstorePut s e src L addr fmt mask u).complete r e.core true done) := by
  show execVstore e src L addr fmt mask done s = _
  unfold execVstore
  rw [if_neg (by rw [hdone]; exact Bool.false_ne_true), onForm_formOk hform, vectorCommand_ready L _ hready hgate hpass, if_pos rfl]
  unfold State.vstoreNow
  rw [if_neg (by simp [halign, hin])]
  rfl

/-- A completion that names nothing does nothing. -/
theorem complete_nothing (t : State) (h : completes done = false) : t.complete r e.core true done = t := by
  simp only [completes, Bool.or_eq_false_iff, Option.isSome_eq_false_iff, Option.isNone_iff_eq_none] at h
  obtain ⟨⟨hdq, hready⟩, hflag⟩ := h
  rw [State.complete, hdq, hready, hflag]
  rfl

/-- What the stores of a VSTORE, with or without their flush, leave alone. -/
theorem vstorePut_keeps (s : State) (e : Eng) (src : Fin 64) (L addr : Nat) (fmt : VFmt) (mask : BitVec 128) (u : Nat) :
    SameCrossings s (vstorePut s e src L addr fmt mask u) ∧ (vstorePut s e src L addr fmt mask u).mwy = s.mwy ∧
    (∀ d : Fin 16, ((vstorePut s e src L addr fmt mask u).core d).dqs = (s.core d).dqs) ∧
    ∀ d : Fin 16, d ≠ e.core → ((vstorePut s e src L addr fmt mask u).core d).mem = (s.core d).mem := by
  have hissued := issued_issueAt s e.core qVector e.tag e.gap.toNat L L u
  have hdqs : ∀ d : Fin 16, ((s.issueAt e.core qVector e.tag e.gap.toNat L L u).core d).dqs = (s.core d).dqs := fun d => dqs_issueAt
  unfold vstorePut
  generalize s.issueAt e.core qVector e.tag e.gap.toNat L L u = t at hissued hdqs
  refine ⟨hissued.sameCrossings.trans (sameCrossings_onMem _ _ _ _), (mwy_onMem _ _ _ _).trans hissued.mwy, fun d => ?_, fun d hd => ?_⟩
  · exact (dqs_onMem (fun k => dqs_storeLines)).trans (hdqs d)
  · rw [core_onMem_ne _ _ _ hd.symm, hissued.other d hd]
    rfl

/-- A VSTORE that names a completion flushes its lines and completes (R108, R127, R155). -/
theorem vstore_completes (s : State) (e : Eng) (src : Fin 64) (L addr : Nat) (fmt : VFmt) (mask : BitVec 128) (done : Completion)
    (r : Fin 8) (u : Nat) :
    let put := vstorePut s e src L addr fmt mask u
    let t := (put.onMem e.tag e.core (flushRange addr (128 * L * laneBytes fmt))).complete r e.core true done
    t.mwy = s.mwy ∧ (∀ d : Fin 16, d ≠ e.core → (t.core d).mem = (s.core d).mem) ∧ TokenGiven s t e.core done ∧
    RingFlagsSent s t e.core r done ∧
    (t.core e.core).mem = (flushRange addr (128 * L * laneBytes fmt) (put.core e.core)).mem ∧
    (t.core e.core).gather = (flushRange addr (128 * L * laneBytes fmt) (put.core e.core)).gather := by
  intro put t
  obtain ⟨hcross, hmwy, hdqs, hother⟩ := vstorePut_keeps s e src L addr fmt mask u
  obtain ⟨htoken, ⟨hsent, hquiet⟩, hmwy', hmem⟩ := complete_gives
    (put.onMem e.tag e.core (flushRange addr (128 * L * laneBytes fmt))) r e.core done
  have hcross' := hcross.trans (sameCrossings_onMem put e.tag e.core (flushRange addr (128 * L * laneBytes fmt)))
  have hflushed := core_onMem put e.tag e.core (flushRange addr (128 * L * laneBytes fmt))
  have hdq : ∀ n : Fin 8, (put.onMem e.tag e.core (flushRange addr (128 * L * laneBytes fmt))).dq e.core n = s.dq e.core n :=
    fun n => by rw [State.dq, dqs_onMem (f := flushRange addr (128 * L * laneBytes fmt)) (fun k => dqs_flushWhere), hdqs, State.dq]
  refine ⟨hmwy'.trans ((mwy_onMem _ _ _ _).trans hmwy), fun d hd => (hmem d).1.trans ?_, fun n => ?_,
    ⟨hsent.trans (by rw [hcross'.sentOn]), fun x hx => (hquiet x hx).trans (hcross'.sentOn x)⟩, (hmem e.core).1.trans ?_,
    (hmem e.core).2.trans ?_⟩
  · rw [core_onMem_ne _ _ _ hd.symm]
    exact hother d hd
  · rw [htoken n, hdq]
  · rw [hflushed]
    rfl
  · rw [hflushed]
    rfl

end

/-- Settles O15: a clean receive entry, core memory clean and poisoned, and a store with and without a completion. -/
theorem vectorRegistersAreLoadedAndStored : Obligations.VectorRegistersAreLoadedAndStored := by
  unfold Obligations.VectorRegistersAreLoadedAndStored
  refine ⟨fun s e dst L r u hready => ⟨fun entry first release hform hpass hheld hslot hclean => ?_,
    fun addr fmt s1 d hform hpass hin hread => ⟨fun hd => ?_, fun hd => ?_⟩⟩, ?_⟩
  · obtain ⟨hrx, hopnd, hmem, hmwy⟩ := vectorIssued_keeps s e L dst.val L (L + latRx - 1) u
    have hpend : ((vectorIssued s e L dst.val L (L + latRx - 1) u).core e.core).vPend =
        ((s.issueAt e.core qVector e.tag e.gap.toNat L L u).core e.core).vPend := by rw [core_vectorIssued]
    obtain ⟨hcore, hmwy'⟩ := loadRx_clean (t := vectorIssued s e L dst.val L (L + latRx - 1) u) (e := e) (dst := dst) (L := L)
      (r := r) (u := u) (entry := entry) (first := first) (release := release) (by rw [hrx]; exact hclean)
    refine ⟨_, execVload_rx hform hready hpass hheld hslot, ?_, ?_, ?_, ?_, hmwy'.trans hmwy⟩
    · rw [hcore, ← hpend, ← hopnd]
    · intro hrelease
      rw [hcore, if_pos hrelease]
      exact Vector.getElem_set_self _
    · intro hrelease
      rw [hcore, if_neg (by rw [hrelease]; exact Bool.false_ne_true)]
      exact hrx
    · rw [hcore]
      exact hmem
  · rw [execVload_cm hform hready hpass, loadCm_read hin hread, if_neg (by rw [hd]; exact Bool.false_ne_true)]
  · have hexec : exec (.vload e dst L (.cm addr fmt)) s = .next (s1.vecPoison r e.core e.tag 1) := by
      rw [execVload_cm hform hready hpass, loadCm_read hin hread, if_pos hd]
    have hkept : Undisturbed [] s1 (s1.vecPoison r e.core e.tag 1) := (Undisturbed.refl [] s1).faultRing (by simp)
    refine ⟨_, hexec, ?_, fun hmay => faultRing_faults hmay (show cauPoison < 16 by decide)⟩
    rw [hkept.core e.core]
    rfl
  · intro s e src L addr fmt mask done r u hform hdone hready hgate hpass halign hin
    have hexec := execVstore_ready hform hdone hready hgate hpass halign hin
    refine ⟨fun hc => ?_, fun hc => ?_⟩
    · rw [hexec, complete_nothing _ hc, if_neg (by rw [hc]; exact Bool.false_ne_true)]
      rfl
    · rw [if_pos hc] at hexec
      exact ⟨_, hexec, vstore_completes s e src L addr fmt mask done r u⟩

end Sys2Proof.Machine
end

section
/-! SUPPORT. A counterexample to the statement about DRAM lines. The application cores' regions stand in the deployment image's
copy, which is DRAM itself (R170, R361). Where that copy lies within such a region, a burst's errors in the line of its directory
take the region away in the read that finds them: the read is then outside the requester's reach, and shows no KIND (R185, R195). -/

namespace Sys2Proof.Machine

/-- A deployment image whose only line is a directory with one application-core region: unit 1, in which the copy itself lies. -/
def ownRegionImage : List Byte := (List.range 64).map fun i => if i = 0x07 ∨ i = 0x24 ∨ i = 0x26 then 1 else 0

/-- A device that is up, with that image. -/
def ownRegionState : State := { tUp with
  boot := { tUp.boot with dirBad := false, deployLen := 1 }
  dram := linePut tUp.dram 262144 ownRegionImage 0x80 }

/-- Errors in seven symbols of a codeword, more than the code corrects; with them the directory names no region. -/
def regionFlips : List (Nat × Byte) := [(0, 1), (1, 1), (2, 1), (3, 1), (5, 1), (6, 1), (8, 1)]

/-- What the application cores' read of the directory line finds. -/
def regionVerdict : Verdict := checkLine (flipLine 262144 regionFlips ownRegionState.dram) 262144 Requester.app.code none

theorem ownRegionState_up : ownRegionState.dramUsed = true ∧ NoInternal ownRegionState ∧
    ownRegionState.dramAllowed .app (64 * 262144) 64 = true := by
  unfold NoInternal
  decide +kernel

theorem regionVerdict_uncorrectable : regionVerdict.kind = 1 := by decide +kernel

/-- The read shows no KIND: with the errors in, the line lies outside the application cores' reach. -/
theorem regionRead_shows_nothing : gives (exec (.dramRead .app 0 (64 * 262144) none regionFlips) ownRegionState)
    (fun t => t.reg .ddrErrInfo == 0) = true := by decide +kernel

/-- Refutes O48: of a line whose errors take away the very region that it lies in, the KIND is not shown. -/
theorem not_dramLinesAreReadWrittenAndScrubbed : ¬ Obligations.DramLinesAreReadWrittenAndScrubbed := by
  unfold Obligations.DramLinesAreReadWrittenAndScrubbed
  intro h
  obtain ⟨hused, hinternal, hallowed⟩ := ownRegionState_up
  obtain ⟨-, hread, -⟩ := h ownRegionState .app 0 (64 * 262144) regionFlips .app 262144 rfl rfl
  obtain ⟨-, -, -, hbad, -⟩ := hread none regionVerdict hused rfl hallowed
  obtain ⟨t, hexec, hkind, -⟩ := hbad (by rw [regionVerdict_uncorrectable]; decide) (by rw [regionVerdict_uncorrectable]; decide)
    hinternal
  have hshown := regionRead_shows_nothing
  rw [hexec] at hshown
  have hzero : t.reg .ddrErrInfo = 0 := eq_of_beq hshown
  rw [hzero, regionVerdict_uncorrectable] at hkind
  cases hkind

end Sys2Proof.Machine
end

section
/-! SUPPORT. Host messages (R51, R114, R305 to R308, R312, R313): what hearing a frame, reaching a ring's memories for the L9 and
answering leave alone; INVOKE, PARAM_WRITE of one frame, MEM_READ, and a message whose chunks stop coming. -/

namespace Sys2Proof.Machine

/-! ## What the L9's work for a host leaves alone -/

/-- The registers that are shown, the crossings, the rings but for their result slots and fault queues, and what an endpoint is
bound to. -/
structure HostKept (s t : State) : Prop where
  shown : ShownKept [] s t
  cross : SameCrossings s t
  rings : OnlySent s t
  bound : ∀ y : Fin 64, t.epBound y = s.epBound y
  internal : ∀ y : Fin 64, t.epInternal y = s.epInternal y

section
variable {s t u : State}

theorem HostKept.refl (s : State) : HostKept s s := ⟨.refl [] s, ⟨rfl, rfl⟩, .refl s, fun _ => rfl, fun _ => rfl⟩

theorem HostKept.trans (h : HostKept s t) (g : HostKept t u) : HostKept s u :=
  ⟨h.shown.trans g.shown, h.cross.trans g.cross, h.rings.trans g.rings, fun y => (g.bound y).trans (h.bound y),
    fun y => (g.internal y).trans (h.internal y)⟩

/-- What changes no register, no ring and no crossing. -/
theorem HostKept.same (h : HostKept s t) (hr : u.regs = t.regs) (hs : u.sec = t.sec) (hb : u.boot = t.boot)
    (hc : SameCrossings t u) (hk : u.rings = t.rings) : HostKept s u := by
  have hreg : ∀ g, u.reg g = t.reg g := fun g => by rw [State.reg, State.reg, hr]
  refine h.trans ⟨(ShownKept.refl [] t).same hr hs hb, hc, fun r => ?_, fun y => ?_, fun y => ?_⟩
  · rw [State.ring, State.ring, hk]
  · rw [State.epBound, State.epBound, State.fld, State.fld, hreg]
  · rw [State.epInternal, State.epInternal, State.fld, State.fld, hreg]

theorem HostKept.setReg {g : Reg} {v : Word} (h : HostKept s t) (hg : shownReg g = false) (hy : ∀ y, g ≠ .trsEpStatus y) :
    HostKept s (t.setReg g v) := by
  have hreg : ∀ y, (t.setReg g v).reg (.trsEpStatus y) = t.reg (.trsEpStatus y) := fun y =>
    reg_setReg_ne t v (addr_injective.ne (hy y))
  refine h.trans ⟨(ShownKept.refl [] t).setBack hg, ⟨rfl, rfl⟩, .refl t, fun y => ?_, fun y => ?_⟩
  · rw [State.epBound, State.epBound, State.fld, State.fld, hreg]
  · rw [State.epInternal, State.epInternal, State.fld, State.fld, hreg]

theorem HostKept.onEp {y : Fin 64} {f : Endpoint → Endpoint} (h : HostKept s t) : HostKept s (t.onEp y f) :=
  h.same rfl rfl rfl ⟨rfl, rfl⟩ rfl

theorem Traces.trsEpStatus {c : Fin 16} (h : Traces c s t) (y : Fin 64) : t.reg (.trsEpStatus y) = s.reg (.trsEpStatus y) :=
  h.regs _ (by simp [reportAddrs, addr_injective.eq_iff]) (by simp [addr_injective.eq_iff]) (by simp [addr_injective.eq_iff])

theorem HostKept.traces {c : Fin 16} (h : HostKept s t) (g : Traces c t u) : HostKept s u := by
  refine h.trans ⟨g.shownKept [], g.sameCrossings, g.ring, fun y => ?_, fun y => ?_⟩
  · rw [State.epBound, State.epBound, State.fld, State.fld, g.trsEpStatus]
  · rw [State.epInternal, State.epInternal, State.fld, State.fld, g.trsEpStatus]

theorem HostKept.reports (h : HostKept s t) (g : Reports t u) : HostKept s u := h.traces (g.traces 0)

theorem HostKept.access (s : State) : AccessKeeps (HostKept s) where
  traces := HostKept.traces
  eccCount := fun h => h.setReg rfl (by simp)
  sliceStatus := fun h => h.setReg rfl (by simp)
  midway := fun h => h.same rfl rfl rfl ⟨rfl, rfl⟩ rfl
  lines := fun h => h.same rfl rfl rfl ⟨rfl, rfl⟩ rfl

/-! ## A frame heard -/

theorem HostKept.peerKnown {y : Fin 64} (h : HostKept s t) : HostKept s (t.setFld (.trsEpStatus y) F.trsEpStatus_PEER_KNOWN 1) := by
  have hfld : ∀ (x : Fin 64) (f : Fld), f.lo ≤ f.hi → (f.hi < F.trsEpStatus_PEER_KNOWN.lo ∨ F.trsEpStatus_PEER_KNOWN.hi < f.lo) →
      (t.setFld (.trsEpStatus y) F.trsEpStatus_PEER_KNOWN 1).fld (.trsEpStatus x) f = t.fld (.trsEpStatus x) f := by
    intro x f hok hapart
    by_cases hx : y = x
    · subst hx
      exact fld_setFld_other t _ _ _ 1 ⟨by decide, by decide⟩ hok hapart
    · exact fld_setFld_ne t _ _ 1 (addr_injective.ne (by simpa using hx))
  refine h.trans ⟨(ShownKept.refl [] t).setFld rfl, ⟨rfl, rfl⟩, .refl t, fun x => ?_, fun x => ?_⟩
  · rw [State.epBound, State.epBound, hfld x _ (by decide) (by decide)]
  · rw [State.epInternal, State.epInternal, hfld x _ (by decide) (by decide)]

theorem hostKept_heard (s : State) (f : Frame) (y : Fin 64) : HostKept s (s.heard f y) := by
  have hnoted : HostKept s (s.noteNumber f y) := by
    unfold State.noteNumber
    split
    · exact (HostKept.refl s).onEp
    · exact .refl s
  have hcounted : HostKept s ((s.noteNumber f y).ethCount f.via 0) := by
    unfold State.ethCount
    split
    · exact hnoted.setReg rfl (by simp)
    · exact hnoted
  have hendpoint : HostKept s (((s.noteNumber f y).ethCount f.via 0).epCount y 0) := hcounted.setReg rfl (by simp)
  unfold State.heard State.takePeer
  split
  · exact hendpoint
  · exact (((hendpoint.setReg rfl (by simp)).setReg rfl (by simp)).peerKnown).reports (reports_pumpEp _ y)

theorem hostKept_arrived (s : State) (f : Frame) (y : Fin 64) : HostKept s (arrived s f y) := by
  rw [arrived_eq]
  exact (hostKept_heard s f y).onEp.onEp

/-! ## What is read of a state -/

theorem HostKept.takesTriggers (h : HostKept s t) (r : Fin 8) : t.takesTriggers r = s.takesTriggers r := by
  have hstate : t.ringState r = s.ringState r := h.shown.ringState (by simp)
  rw [State.takesTriggers, State.takesTriggers, State.ringLive, State.ringLive, hstate]

theorem HostKept.served (h : HostKept s t) (r : Fin 8) : t.served r = s.served r := by
  have hstate : t.ringState r = s.ringState r := h.shown.ringState (by simp)
  rw [State.served, State.served, hstate]

theorem HostKept.holdsWrites (h : HostKept s t) (r : Fin 8) : t.holdsWrites r = s.holdsWrites r := by
  have hstate : t.ringState r = s.ringState r := h.shown.ringState (by simp)
  rw [State.holdsWrites, State.holdsWrites, hstate]

theorem HostKept.programs (h : HostKept s t) (r : Fin 8) : (t.ring r).programs = (s.ring r).programs := by rw [h.rings r]

theorem HostKept.waiting (h : HostKept s t) (r : Fin 8) : (t.ring r).waiting = (s.ring r).waiting := by rw [h.rings r]

theorem HostKept.heldParams (h : HostKept s t) (r : Fin 8) : (t.ring r).heldParams = (s.ring r).heldParams := by rw [h.rings r]

theorem HostKept.pendingRoom (h : HostKept s t) (r : Fin 8) : t.pendingRoom r = s.pendingRoom r := by
  rw [State.pendingRoom, State.pendingRoom, h.waiting]

/-- Where a host may reach depends on the ring's placement alone (R259, R313). -/
theorem HostKept.bufInside (h : HostKept s t) (r : Fin 8) (a : DWord) (n : Nat) : t.bufInside r a n = s.bufInside r a n := by
  have hsize : t.dramSize = s.dramSize := by rw [State.dramSize, State.dramSize, h.shown.regs .ddrConfig rfl (by simp)]
  have hmidway : t.mwySize r = s.mwySize r := by rw [State.mwySize, State.mwySize, h.shown.slicesOf (by simp)]
  have hunits : ∀ u, t.unitFlags r u = s.unitFlags r u := fun u => by rw [State.unitFlags, State.unitFlags, h.rings r]
  simp only [State.bufInside, State.inRegions, hsize, hmidway, hunits]

end

/-! ## Answers -/

theorem hostKept_reply (s : State) (r : Fin 8) (a : Asker) (cls status : Nat) (stamp : DWord) (bad : List Nat)
    (body : List Byte) : HostKept s (s.reply r a cls status stamp bad body) := (HostKept.refl s).reports (reports_reply _ _ _ _ _ _ _ _)

theorem dram_portFrame (s : State) (e : Fin 64) (m : Msg) : (s.portFrame e m).dram = s.dram := rfl

theorem dram_passed (s : State) (e : Fin 64) (m : Msg) : (s.passed e m).dram = s.dram := by
  unfold State.passed
  dsimp only
  split
  · rfl
  · rfl

theorem dram_onEp (s : State) (e : Fin 64) (f : Endpoint → Endpoint) : (s.onEp e f).dram = s.dram := rfl

/-- An endpoint that is not the internal one sends nothing to DRAM (R299, R322). -/
theorem dram_sendOne {s : State} {e : Fin 64} (h : s.epInternal e = false) : (s.sendOne e).1.dram = s.dram := by
  unfold State.sendOne
  split
  · rfl
  · rw [if_neg (by rw [h]; exact Bool.false_ne_true)]
    simp only [Bool.not_true, Bool.false_eq_true, if_false]
    split
    · rw [dram_passed, dram_onEp, dram_portFrame]
    · rw [dram_onEp, dram_onEp, dram_portFrame]

theorem dram_pump {e : Fin 64} (n : Nat) {s : State} (h : s.epInternal e = false) : (State.pump e n s).dram = s.dram := by
  induction n generalizing s with
  | zero => rfl
  | succ n ih =>
    have hone := dram_sendOne h
    have hkept : HostKept s (s.sendOne e).1 := (HostKept.refl s).reports (sent_sendOne s e).reports
    unfold State.pump
    split
    next heq =>
      rw [heq] at hone hkept
      exact (ih ((hkept.internal e).trans h)).trans hone
    next heq =>
      rw [heq] at hone
      exact hone

theorem dram_replyStatus {s : State} {r : Fin 8} {a : Asker} {status : Nat} (h : s.epInternal (epIx r a.endpoint) = false) :
    (s.replyStatus r a status).dram = s.dram := by
  unfold State.replyStatus State.reply State.send
  split
  · exact dram_pump _ h
  · rfl

/-! ## INVOKE -/

section
variable {s : State} {f : Frame} {y : Fin 64}

theorem exec_invoke (h : WholeMessage s 0x03 f y) : exec (.invoke f) s = .next (woken s ((arrived s f y).invokeNow (epRing y)
    ⟨epNo y, 0x03, f.msgId, f.gen, f.id⟩ f.timestamp f.payload)) :=
  congrArg _ (frameIn_whole h ⟨by decide, by decide, by decide⟩)

theorem invokeNow_takes {r : Fin 8} {a : Asker} {stamp : DWord} {b : List Byte} (hlen : b.length = 260) (hslot : beAt b 0 1 < 32)
    (hzero : beAt b 1 3 = 0) (htakes : s.takesTriggers r = true)
    (hprogram : ((s.ring r).programs.any fun p => p.slot == beAt b 0 1) = true) : s.invokeNow r a stamp b =
      if s.pendingRoom r then s.onRing r fun k => { k with waiting := k.waiting ++ [⟨beAt b 0 1, b.drop 4, stamp, some a, false⟩] }
      else s.replyStatus r a stPendingFull := by
  unfold State.invokeNow
  dsimp only
  rw [if_neg (by omega), htakes, hprogram]
  cases s.pendingRoom r <;> rfl

theorem invokeNow_asleep {r : Fin 8} {a : Asker} {stamp : DWord} {b : List Byte} (hlen : b.length = 260) (hslot : beAt b 0 1 < 32)
    (hzero : beAt b 1 3 = 0) (htakes : s.takesTriggers r = false) : s.invokeNow r a stamp b = s.replyStatus r a stRingState := by
  unfold State.invokeNow
  dsimp only
  rw [if_neg (by omega), htakes]
  rfl

/-- A message that is answered with a status alone changes nothing else of a ring. -/
theorem refused_answers {type : Byte} (h : WholeMessage s type f y) (status : Nat) :
    let t := (arrived s f y).replyStatus (epRing y) ⟨epNo y, type, f.msgId, f.gen, f.id⟩ status
    OnlySent s t ∧ Answered t y type f f.id status [] ∧ t.cores = s.cores ∧ t.mwy = s.mwy := by
  obtain ⟨hcores, hmwy, hsent, hbound⟩ := arrived_keeps s f y
  obtain ⟨hcores', hsent', hmwy'⟩ := reply_keeps (arrived s f y) (epRing y) ⟨epNo y, type, f.msgId, f.gen, f.id⟩ 0 status 0 [] []
  rw [epBound_of_judge h.1] at hbound
  exact ⟨hsent.trans hsent', answered_reply hbound _ f f.id 0 status 0 [] [], hcores'.trans hcores, hmwy'.trans hmwy⟩

/-! ## MEM_READ -/

theorem exec_memRead (h : WholeMessage s 0x05 f y) : exec (.memRead f) s = .next (woken s ((arrived s f y).memReadNow (epRing y)
    ⟨epNo y, 0x05, f.msgId, f.gen, f.id⟩ f.payload)) := congrArg _ (frameIn_whole h ⟨by decide, by decide, by decide⟩)

theorem memReadNow_inside {s1 : State} {r : Fin 8} {a : Asker} {b : List Byte} {d : List PByte} (hlen : b.length = 16)
    (hzero : beAt b 12 4 = 0) (hlo : 1 ≤ beAt b 8 4) (hhi : beAt b 8 4 ≤ 16777216) (hserved : s.served r = true)
    (hinside : s.bufInside r (BitVec.ofNat 64 (beAt b 0 8)) (beAt b 8 4) = true)
    (hread : s.bufRead r (BitVec.ofNat 64 (beAt b 0 8)) 0 (beAt b 8 4) = (s1, some d)) :
    s.memReadNow r a b = s1.reply r a 2 stOk 0 (badPlaces 0 d) (rawBytes d) := by
  unfold State.memReadNow
  dsimp only
  rw [if_neg (by simp [hlen, hzero, within, hlo, hhi]), hserved, hinside, hread]
  rfl

theorem memReadNow_outside {r : Fin 8} {a : Asker} {b : List Byte} (hlen : b.length = 16)
    (hzero : beAt b 12 4 = 0) (hlo : 1 ≤ beAt b 8 4) (hhi : beAt b 8 4 ≤ 16777216) (hserved : s.served r = true)
    (hinside : s.bufInside r (BitVec.ofNat 64 (beAt b 0 8)) (beAt b 8 4) = false) :
    s.memReadNow r a b = s.replyStatus r a stAccessRange := by
  unfold State.memReadNow
  dsimp only
  rw [if_neg (by simp [hlen, hzero, within, hlo, hhi]), hserved, hinside]
  rfl

/-! ## PARAM_WRITE of one frame -/

/-- No message of an identifier is under way: none is dropped. -/
theorem dropReasm_none {x : Fin 64} {id : BitVec 16} (h : s.reasmOf x id = none) : s.dropReasm x id = s := by
  have hfilter : ((s.ep x).reasm.filter fun m => m.msgId != id) = (s.ep x).reasm := by
    rw [List.filter_eq_self]
    intro m hm
    have hother := List.find?_eq_none.mp h m hm
    simpa using hother
  have hep : (s.onEp x fun _ => s.ep x) = s := by simp [State.onEp, State.ep]
  calc s.dropReasm x id = s.onEp x fun _ => { s.ep x with reasm := (s.ep x).reasm.filter fun m => m.msgId != id } := rfl
    _ = s := by rw [hfilter, hep]

/-- What the only frame of a message makes of its reassembly, before its type says more (R307). -/
def onlyFrame (type : Byte) (f : Frame) : Reassembly := { onlyChunk type f with body := [] }

/-- A whole message of one frame begins in the state `arrived`. -/
theorem frameIn_begins {type : Byte} (h : WholeMessage s type f y) (h7 : type ≠ 0x07) : s.frameIn type f =
    woken s ((arrived s f y).chunk (epRing y) (epNo y) ⟨f.msgId, f.gen, type, f.id, f.timestamp, [], none, [], 0, 0, 0, false⟩
      f true) := by
  obtain ⟨hjudge, ho, hl, hnone, hpos, hlt⟩ := h
  have hn := noted_heard s f y
  have hnone' : (s.heard f y).reasmOf y f.msgId = none := by rw [State.reasmOf, hn.reasm]; exact hnone
  have hlast : ((s.heard f y).onEp y fun k => { k with last := smSet 0 k.last f.msgId.toNat f.gen }).reasmOf y f.msgId = none := by
    rw [State.reasmOf, ep_onEp]
    exact hnone'
  rw [frameIn_accept hjudge, arrived_eq, dropReasm_none hlast]
  unfold State.identify State.beginMsg
  simp only [epIx_epRing, hn.last]
  rw [if_neg (by omega), if_pos hlt, if_neg (by simp [ho])]
  simp [hnone', hl, endStreams_ne _ _ h7]

end

section
variable {s s1 : State} {f : Frame} {y : Fin 64} {addr : DWord} {total flag : Nat}

/-- The reassembly of a PARAM_WRITE of one frame, with its prefix. -/
def paramFrame (f : Frame) (addr : DWord) (total flag : Nat) : Reassembly :=
  { onlyFrame 0x04 f with addr := addr, total := total, flag := flag }

theorem paramFirst_ok {m : Reassembly} {r e : Fin 8} {d : List Byte} (haddr : addr = BitVec.ofNat 64 (beAt d 0 8))
    (htotal : total = beAt d 8 4) (hflag : flag = beAt d 12 1) (hlen : 16 ≤ d.length) (hzero : beAt d 13 3 = 0)
    (hevent : flag = 0 ∨ 192 ≤ flag) (hserved : s.served r = true) (hinside : s.bufInside r addr total = true) :
    s.paramFirst r e m d = (s, { m with addr := addr, total := total, flag := flag }) := by
  subst haddr htotal hflag
  unfold State.paramFirst
  dsimp only
  rw [if_neg (by omega), hserved, hinside]
  rfl

theorem paramData_ok {m : Reassembly} {r e : Fin 8} {d : List Byte} {bad : Bool} (hlen : d.length = 16 + m.total) (htotal : 0 < m.total)
    (hgoes : m.refused = false) (hserved : s.served r = true)
    (hwrite : s.bufWrite r m.addr 0 ((d.drop 16).map fun b => (b, bad)) = (s1, true)) :
    s.paramData r e m 0 d bad = (s1, m) := by
  have hpiece : (d.drop 16).take (16 + m.total - 16) = d.drop 16 := List.take_of_length_le (by rw [List.length_drop]; omega)
  have hne : (d.drop 16).isEmpty = false := by
    rw [List.isEmpty_eq_false_iff]
    exact List.ne_nil_of_length_pos (by rw [List.length_drop]; omega)
  unfold State.paramData
  simp only [Nat.zero_le, Nat.max_eq_right, Nat.sub_zero, Nat.sub_self, hpiece, hgoes, hne, hserved, hwrite]
  rfl

/-- A first chunk of a PARAM_WRITE: its prefix is read, its data written, and the message goes on (R307, R313). -/
theorem chunk_param (s : State) (r e : Fin 8) (f : Frame) {m : Reassembly} (hm : (⟨f.msgId, f.gen, 0x04, f.id, f.timestamp, [], none,
    [], 0, 0, 0, false⟩ : Reassembly).add f = m) :
    s.chunk r e ⟨f.msgId, f.gen, 0x04, f.id, f.timestamp, [], none, [], 0, 0, 0, false⟩ f true =
      (((s.paramFirst r e m f.payload).1.paramData r e (s.paramFirst r e m f.payload).2 f.offset.toNat f.payload
        (f.flags.getLsbD 2)).1.goOn (epIx r e) ((s.paramFirst r e m f.payload).1.paramData r e (s.paramFirst r e m f.payload).2
          f.offset.toNat f.payload (f.flags.getLsbD 2)).2 fun t => t.paramEnd r e ((s.paramFirst r e m f.payload).1.paramData r e
            (s.paramFirst r e m f.payload).2 f.offset.toNat f.payload (f.flags.getLsbD 2)).2) := by
  subst hm
  rfl

/-- A PARAM_WRITE of one frame that passes its checks writes its bytes, and then it ends. -/
theorem exec_paramWrite (h : WholeMessage s 0x04 f y) (haddr : addr = BitVec.ofNat 64 (beAt f.payload 0 8))
    (htotal : total = beAt f.payload 8 4) (hflag : flag = beAt f.payload 12 1) (hlen : f.payload.length = 16 + total)
    (hzero : beAt f.payload 13 3 = 0) (hpos : 0 < total) (hevent : flag = 0 ∨ 192 ≤ flag) (hserved : s.served (epRing y) = true)
    (hinside : s.bufInside (epRing y) addr total = true)
    (hwrite : (arrived s f y).bufWrite (epRing y) addr 0 ((f.payload.drop 16).map fun b => (b, f.flags.getLsbD 2)) = (s1, true)) :
    exec (.paramWrite f) s =
      .next (woken s ((s1.dropReasm y f.msgId).paramEnd (epRing y) (epNo y) (paramFrame f addr total flag))) := by
  have hkept := hostKept_arrived s f y
  have hserved' : (arrived s f y).served (epRing y) = true := (hkept.served _).trans hserved
  have hfirst : (arrived s f y).paramFirst (epRing y) (epNo y) (onlyFrame 0x04 f) f.payload =
      (arrived s f y, paramFrame f addr total flag) := paramFirst_ok haddr htotal hflag (by omega) hzero hevent hserved'
    ((hkept.bufInside _ _ _).trans hinside)
  have hdata := paramData_ok (m := paramFrame f addr total flag) (e := epNo y) hlen hpos rfl hserved' hwrite
  have hadd : (⟨f.msgId, f.gen, 0x04, f.id, f.timestamp, [], none, [], 0, 0, 0, false⟩ : Reassembly).add f = onlyFrame 0x04 f :=
    add_only h.2.1 h.2.2.1
  have ho : f.offset.toNat = 0 := by rw [h.2.1]; rfl
  have hwhole : (paramFrame f addr total flag).whole = true := onlyChunk_whole 0x04 f
  have hchunk : (arrived s f y).chunk (epRing y) (epNo y) ⟨f.msgId, f.gen, 0x04, f.id, f.timestamp, [], none, [], 0, 0, 0, false⟩ f
      true = (s1.dropReasm y f.msgId).paramEnd (epRing y) (epNo y) (paramFrame f addr total flag) := by
    rw [chunk_param _ _ _ f hadd, hfirst, ho]
    dsimp only
    rw [hdata, epIx_epRing]
    exact if_pos hwhole
  exact congrArg Host.Outcome.next ((frameIn_begins h (by decide)).trans (congrArg (woken s) hchunk))

/-- The end of a PARAM_WRITE of the right length: it is held by a ring that holds writes, and done by any other (R51, R313). -/
theorem paramEnd_ends (t : State) (r e : Fin 8) (hlen : f.payload.length = 16 + total) :
    t.paramEnd r e (paramFrame f addr total flag) =
      if t.holdsWrites r then t.onRing r fun k =>
        { k with heldParams := k.heldParams ++ [⟨⟨e, 0x04, f.msgId, f.gen, f.id⟩, flag⟩] }
      else t.paramDone r ⟨⟨e, 0x04, f.msgId, f.gen, f.id⟩, flag⟩ := by
  have hlast : (paramFrame f addr total flag).last = some (16 + (paramFrame f addr total flag).total) := congrArg some hlen
  have hgoes : (paramFrame f addr total flag).refused = false := rfl
  unfold State.paramEnd
  rw [if_neg (by rw [hgoes]; exact Bool.false_ne_true), if_neg (fun h => h hlast)]
  rfl

/-- The DONE_FLAG of a PARAM_WRITE, as it crosses to the concourse (R127, R313). -/
def doneFlagOps (r : Fin 8) (flag : Nat) : List CrossOp := if h : 0 < flag ∧ flag < 256 then [.setFlag r ⟨flag, h.2⟩] else []

/-- A PARAM_WRITE that is done sets its flag and is answered OK; beside the answer nothing changes (R313). -/
theorem paramDone_answers {t : State} (hflag : flag < 256) (hbound : t.epBound y = true) (hinternal : t.epInternal y = false) :
    (t.paramDone (epRing y) ⟨⟨epNo y, 0x04, f.msgId, f.gen, f.id⟩, flag⟩).mwy = t.mwy ∧
    (t.paramDone (epRing y) ⟨⟨epNo y, 0x04, f.msgId, f.gen, f.id⟩, flag⟩).dram = t.dram ∧
    Answered (t.paramDone (epRing y) ⟨⟨epNo y, 0x04, f.msgId, f.gen, f.id⟩, flag⟩) y 0x04 f f.id stOk [] ∧
    SendsAll t (t.paramDone (epRing y) ⟨⟨epNo y, 0x04, f.msgId, f.gen, f.id⟩, flag⟩) .ethToConcourse (doneFlagOps (epRing y) flag) := by
  have hreply : ∀ u : State, u.epBound y = true → u.epInternal y = false →
      let v := u.replyStatus (epRing y) ⟨epNo y, 0x04, f.msgId, f.gen, f.id⟩ stOk
      v.mwy = u.mwy ∧ v.dram = u.dram ∧ Answered v y 0x04 f f.id stOk [] ∧ SameCrossings u v := fun u hb hi =>
    ⟨(reply_keeps u _ _ _ _ _ _ _).2.2, dram_replyStatus (by rw [epIx_epRing]; exact hi), answered_reply hb _ f f.id 0 stOk 0 [] [],
      (hostKept_reply u _ _ _ _ _ _ _).cross⟩
  unfold State.paramDone
  by_cases h : flag = 0
  · subst h
    obtain ⟨hmwy, hdram, hanswer, hcross⟩ := hreply t hbound hinternal
    exact ⟨hmwy, hdram, hanswer, (hcross.sentOn _).trans (List.append_nil _).symm, fun x _ => hcross.sentOn x⟩
  · have hput := onlyCrossings_crossPut t .ethToConcourse (.setFlag (epRing y) ⟨flag % 256, by omega⟩)
    obtain ⟨hsent, hother⟩ := sends_crossPut t .ethToConcourse (.setFlag (epRing y) ⟨flag % 256, by omega⟩)
    obtain ⟨hmwy, hdram, hanswer, hcross⟩ := hreply (t.crossPut .ethToConcourse (.setFlag (epRing y) ⟨flag % 256, by omega⟩))
      ((congrArg (· == 1) (hput.fld (.trsEpStatus y) _)).trans hbound) ((congrArg (· == 1) (hput.fld (.trsEpStatus y) _)).trans hinternal)
    have hops : doneFlagOps (epRing y) flag = [.setFlag (epRing y) ⟨flag % 256, by omega⟩] := by
      rw [doneFlagOps, dif_pos ⟨by omega, hflag⟩]
      simp only [Nat.mod_eq_of_lt hflag]
    rw [if_neg h]
    refine ⟨hmwy.trans hput.mwy, hdram.trans hput.dram, hanswer, (hcross.sentOn _).trans ?_, fun x hx => (hcross.sentOn x).trans (hother x hx)⟩
    rw [hsent, hops]

theorem beAt_one_lt (b : List Byte) (o : Nat) : beAt b o 1 < 256 := by
  unfold beAt part
  cases b.drop o with
  | nil => decide
  | cons x l => simpa [beVal, leVal] using x.isLt

end

/-! ## A message whose chunks stop coming -/

section
variable {s : State} {r e : Fin 8} {m : Reassembly}

theorem exec_reassemblyTimeout (h : s.reasmOf (epIx r e) m.msgId = some m) :
    exec (.reassemblyTimeout r e m.msgId) s = .next (s.abandonMsg r e m) := by
  show execReassemblyTimeout r e m.msgId s = _
  unfold execReassemblyTimeout
  rw [h]

/-- A message of any other type than these four is dropped without more (R306, R308). -/
theorem abandonMsg_other (h : m.type ∉ ([0x04, 0x06, 0x07, 0x0D] : List Byte)) :
    s.abandonMsg r e m = s.dropReasm (epIx r e) m.msgId := by
  have hne : ∀ n : Byte, n ∈ ([0x04, 0x06, 0x07, 0x0D] : List Byte) → m.type.toNat ≠ n.toNat := fun n hn heq =>
    h (BitVec.eq_of_toNat_eq heq ▸ hn)
  unfold State.abandonMsg
  dsimp only
  split
  case h_1 heq => exact absurd heq (hne 0x04 (by simp))
  case h_2 heq => exact absurd heq (hne 0x06 (by simp))
  case h_3 heq => exact absurd heq (hne 0x07 (by simp))
  case h_4 heq => exact absurd heq (hne 0x0D (by simp))
  case h_5 => rfl

theorem abandonMsg_param (htype : m.type = 0x04) (hgoes : m.refused = false) :
    s.abandonMsg r e m = (s.dropReasm (epIx r e) m.msgId).replyStatus r (m.asker e) stIncomplete := by
  unfold State.abandonMsg
  rw [htype]
  exact if_neg (by rw [hgoes]; exact Bool.false_ne_true)

theorem abandonMsg_stream {x : Fin 64} (htype : m.type = 0x07)
    (hcontext : (s.dropReasm (epIx r e) m.msgId).ethContext r e = some x) :
    s.abandonMsg r e m = (s.dropReasm (epIx r e) m.msgId).endFrame x .noEnd := by
  unfold State.abandonMsg
  rw [htype]
  show (match (s.dropReasm (epIx r e) m.msgId).ethContext r e with | some x => _ | none => _) = _
  rw [hcontext]

theorem reasmOf_dropReasm (s : State) (x : Fin 64) (id : BitVec 16) : (s.dropReasm x id).reasmOf x id = none := by
  rw [State.reasmOf, State.dropReasm, ep_onEp, List.find?_eq_none]
  intro n hn
  simpa using (List.mem_filter.mp hn).2

/-- A PARAM_WRITE that stays incomplete is dropped and answered so (R308). -/
theorem param_incomplete (hbound : s.epBound (epIx r e) = true) :
    let t := (s.dropReasm (epIx r e) m.msgId).replyStatus r (m.asker e) stIncomplete
    t.reasmOf (epIx r e) m.msgId = none ∧ Replied t r (m.asker e) stIncomplete ∧ t.cores = s.cores ∧ t.mwy = s.mwy := by
  intro t
  obtain ⟨hcores, -, hmwy⟩ := reply_keeps (s.dropReasm (epIx r e) m.msgId) r (m.asker e) 0 stIncomplete 0 [] []
  have hbound' : (s.dropReasm (epIx r e) m.msgId).epBound (epIx r e) = true := hbound
  obtain ⟨n, hn⟩ := mem_msgs_send hbound' ⟨0, m.type, m.msgId, m.gen, true, [], stIncomplete, m.id, 0, [], 0⟩
  have hsent : Noted (epIx r e) (s.dropReasm (epIx r e) m.msgId) t := by
    have hsend : t = (State.onEp _ (epIx r e) fun k => { k with queue := k.queue ++ [_] }).pumpEp (epIx r e) := if_pos hbound'
    rw [hsend]
    exact (noted_onEp (epIx r e) _ _ rfl rfl).trans (noted_sent (sent_pumpEp _ _))
  refine ⟨?_, ⟨_, hn, rfl, rfl, rfl, rfl, rfl, rfl⟩, hcores, hmwy⟩
  rw [State.reasmOf, hsent.reasm]
  exact reasmOf_dropReasm s (epIx r e) m.msgId

end

/-- Settles O37: INVOKE, PARAM_WRITE, MEM_READ and the timeout, each by the checks that its message passes. -/
theorem hostMessagesInvokeWriteAndRead : Obligations.HostMessagesInvokeWriteAndRead := by
  unfold Obligations.HostMessagesInvokeWriteAndRead
  rintro s f y s0 rfl
  have hkept := hostKept_arrived s f y
  obtain ⟨hcores, hmwy, hsent, hbound⟩ := arrived_keeps s f y
  refine ⟨fun h hlen hslot hzero => ⟨fun htakes hprogram => ?_, fun htakes => ?_⟩,
    fun addr total flag h haddr htotal hflag hlen hzero hpos hevent hserved hinside s1 hwrite hno => ?_,
    fun addr n h haddr hn hlen hzero hlo hhi hserved => ⟨fun s1 d hinside hread => ?_, fun hinside => ?_⟩,
    fun r e m hm => ⟨fun htype => ?_, fun htype hgoes hb => ?_, fun x htype hcontext => ?_⟩⟩
  · have hnow := invokeNow_takes (a := ⟨epNo y, 0x03, f.msgId, f.gen, f.id⟩) (stamp := f.timestamp) hlen hslot hzero
      ((hkept.takesTriggers _).trans htakes) (by rw [hkept.programs]; exact hprogram)
    rw [hkept.pendingRoom] at hnow
    refine ⟨fun hroom => ?_, fun hroom => ?_⟩
    · rw [if_pos hroom] at hnow
      have hexec := exec_invoke h
      rw [hnow] at hexec
      refine ⟨_, hexec, fun r => ?_, hcores, hmwy⟩
      by_cases hr : epRing y = r
      · subst hr
        rw [ring_onRing, ring_onRing, hsent]
      · rw [ring_onRing_ne _ _ hr, ring_onRing_ne _ _ hr, hsent r]
    · rw [if_neg (by rw [hroom]; exact Bool.false_ne_true)] at hnow
      obtain ⟨hrings, hanswer, -, -⟩ := refused_answers h stPendingFull
      exact ⟨_, (exec_invoke h).trans (by rw [hnow]), hrings, hanswer⟩
  · obtain ⟨hrings, hanswer, -, -⟩ := refused_answers h stRingState
    exact ⟨_, (exec_invoke h).trans (by rw [invokeNow_asleep hlen hslot hzero ((hkept.takesTriggers _).trans htakes)]), hrings, hanswer⟩
  · have hexec := exec_paramWrite h haddr htotal hflag hlen hzero hpos hevent hserved hinside hwrite
    have hwritten : HostKept s s1 := by
      have hafter := (HostKept.access s).bufWrite (r := epRing y) (a := addr) (o := 0)
        (d := (f.payload.drop 16).map fun b => (b, f.flags.getLsbD 2)) hkept
      rwa [hwrite] at hafter
    have hdone : HostKept s (s1.dropReasm y f.msgId) := hwritten.onEp
    rw [paramEnd_ends _ _ _ hlen, hdone.holdsWrites] at hexec
    refine ⟨fun hholds => ?_, fun hholds => ?_⟩
    · rw [if_neg (by rw [hholds]; exact Bool.false_ne_true)] at hexec
      obtain ⟨pmwy, pdram, panswer, psent, pother⟩ := paramDone_answers (f := f) (t := s1.dropReasm y f.msgId)
        (hflag ▸ beAt_one_lt _ _) ((hdone.bound y).trans (epBound_of_judge h.1)) ((hdone.internal y).trans (hno y))
      exact ⟨_, hexec, pmwy, by rw [pdram]; rfl, panswer, psent.trans (by rw [hdone.cross.sentOn]; rfl),
        fun x hx => (pother x hx).trans (hdone.cross.sentOn x)⟩
    · rw [if_pos hholds] at hexec
      exact ⟨_, hexec, rfl, rfl, hdone.cross, by rw [ring_onRing, hdone.heldParams]⟩
  · have hread' : HostKept s s1 := by
      have hafter := (HostKept.access s).bufRead (r := epRing y) (a := addr) (o := 0) (n := n) hkept
      rwa [hread] at hafter
    subst haddr hn
    have hnow := memReadNow_inside (a := ⟨epNo y, 0x05, f.msgId, f.gen, f.id⟩) hlen hzero hlo hhi ((hkept.served _).trans hserved)
      ((hkept.bufInside _ _ _).trans hinside) hread
    have hb : s1.epBound y = true := (hread'.bound y).trans (epBound_of_judge h.1)
    exact ⟨_, (exec_memRead h).trans (by rw [hnow]), answered_reply hb _ f f.id 2 stOk 0 _ _, (reply_keeps s1 _ _ _ _ _ _ _).2.2,
      hread'.cross.trans (hostKept_reply s1 _ _ _ _ _ _ _).cross⟩
  · subst haddr hn
    obtain ⟨hrings, hanswer, hc, hm⟩ := refused_answers h stAccessRange
    exact ⟨_, (exec_memRead h).trans (by rw [memReadNow_outside hlen hzero hlo hhi ((hkept.served _).trans hserved)
      ((hkept.bufInside _ _ _).trans hinside)]), hanswer, hc, hrings, hm⟩
  · rw [exec_reassemblyTimeout hm, abandonMsg_other htype]
  · exact ⟨_, (exec_reassemblyTimeout hm).trans (by rw [abandonMsg_param htype hgoes]), param_incomplete hb⟩
  · rw [exec_reassemblyTimeout hm, abandonMsg_stream htype hcontext]

end Sys2Proof.Machine
end

section
/-! SUPPORT. A counterexample to the statement about the power states. At STANDBY the links end (R325), and a remote read that
still waits at a port is answered UNREACHABLE: its missing bytes are delivered, poisoned, at the command's destination (R334,
R340). Where that is the midway, STANDBY does not leave the midway as it was. The bytes of a lost read are not given (log 30), so
the byte of the state below that is overwritten is chosen to differ from them. -/

namespace Sys2Proof.Machine

/-- A state in which a remote read has ended as lost: its request is gone, and it has been shown and recorded. -/
def State.lostRead (s : State) (r : Fin 8) (q : RemoteReq) : State :=
  (((({ s with trz := { s.trz with remotes := s.trz.remotes.filter fun p => p.txn != q.txn } } : State).onDma q.core
    fun b => { b with wait := b.wait - 1 }).remoteFailed r q rmUnreachable).record (some r) false
      ⟨q.tag, cauRemote, isCore, q.core.val, 0, remoteArea q rmUnreachable⟩)

/-- The answer UNREACHABLE to a read delivers its bytes as lost (R340). -/
theorem remoteReply_unreachable_read {s : State} {r : Fin 8} {q : RemoteReq}
    (hfind : (s.trz.remotes.find? fun p => p.txn == q.txn) = some q) (hring : s.ringOfCore q.core = some r)
    (hread : q.write = false) :
    s.remoteReply q.txn rmUnreachable [] = (s.lostRead r q).deliver r q (lostBytes q.pos q.bytes) := by
  simp [State.remoteReply, hfind, hring, hread, State.lostRead, rmUnreachable, rmOk]

/-- The device's own read that waits at a port that went DOWN is answered UNREACHABLE (R334). -/
theorem strand_own_read {s : State} {p : Fin 4} {x : TxPacket} (hkind : x.kind = kRead)
    (hsrc : x.body.src.toNat = s.deviceNo) :
    s.strand p x = (s.countNowhere (some p)).remoteReply x.body.txn rmUnreachable [] := by
  simp [State.strand, hkind, hsrc]

/-- A port as it is when it has gone DOWN, before what waits there is answered (R335). -/
def State.downPort (s : State) (p : Fin 4) : State :=
  (s.setPortState p ptDown).onPort p fun k => { excluded := k.excluded, helloOnly := true, sent := k.sent }

/-- A port that forwards nothing goes DOWN and answers the one packet that waits there. -/
theorem portDown_of_one_waiting {s : State} {p : Fin 4} {x : TxPacket} (hrx : (s.port p).rx = [])
    (hwaiting : (s.port p).waiting = [x]) : s.portDown p = (s.downPort p).strand p x := by
  simp [State.portDown, hrx, hwaiting, State.downPort]

/-- A byte written to the midway stands there, whatever its slice decodes on the way. -/
theorem mwyWrite_byte (s : State) (r : Fin 8) (tag : Tag) (a : Nat) (b : PByte) :
    smGet 0 (s.mwyWrite r tag a [b]).mwy (s.mwyPlace r a) = b.1 := by
  simp [State.mwyWrite, bytesPut]

/-- A read's byte delivered at a place of the midway stands there. -/
theorem deliver_mwy_byte {s : State} {r : Fin 8} {q : RemoteReq} {x : Transfer} {a : Nat}
    (hjob : ((s.core q.core).dmaBusy.bind fun b => b.job) = some x) (hdst : x.dst = .mwy a) (b : PByte) :
    smGet 0 (s.deliver r q [b]).mwy (s.mwyPlace r (a + q.pos)) = b.1 := by
  simp only [State.deliver, hjob, State.placeWrite, hdst, onCore_mwy]
  exact mwyWrite_byte s r q.tag (a + q.pos) b

/-- What the ports' going idle does to one of them (R325). -/
def State.idlePort (s : State) (p : Fin 4) : State :=
  if s.portState p = ptUp then s.portDown p
  else if s.portState p = ptTraining then s.beginTraining p
  else s.onPort p fun k => { k with linkUp := false, locked := false, helloSent := false, peer := none }

theorem idlePorts_eq (s : State) : s.idlePorts = (((s.idlePort 0).idlePort 1).idlePort 2).idlePort 3 := rfl

theorem standbyNow_mwy (s : State) : s.standbyNow.mwy = s.idlePorts.mwy := rfl

/-- STANDBY from rest, in a lifecycle state other than Blank, enters Standby (R438). -/
theorem exec_standby {s : State} {who : Who} (hwho : s.mayManage who = true) (hlife : s.lifecycle ≠ lcBlank)
    (hrings : s.ringsBusy = false) (hwrites : s.writesBusy = false) (hupd : s.updBusy = false) :
    exec (.standby who) s = .next s.standbyNow := by
  have hrequest : s.standbyRequest who = (s.standbyNow, stOk) := by
    simp [State.standbyRequest, hwho, hlife, hrings, hwrites, hupd]
  have hexec : exec (.standby who) s = .next (s.standbyRequest who).1 := rfl
  rw [hexec, hrequest]

/-- A byte differs from itself with a bit changed. -/
theorem xor_one_ne (b : Byte) : b ^^^ 1 ≠ b := by
  decide +revert

/-- A one-byte remote read of core 0 into the midway's first byte. -/
def lostTransfer : Transfer := ⟨.remote 1 0 0 false, .mwy 0, 1, 0, none, 1, none⟩

/-- Its request. -/
def lostRequest : RemoteReq := ⟨1, 0, 1, false, 1, 0, 0, 1, 0⟩

/-- Its READ packet, from device 0 to device 1. -/
def lostPacket : TxPacket := ⟨kRead, mkPacket 0 1 0 0 1 1 0 0 []⟩

/-- A byte other than the one that the lost read delivers. -/
def unlostByte : Byte := Config.lostByte 0 ^^^ 1

/-- Device 0 with ring 0 FAULTED on C0 and M0: the read above waits at port 3, which is UP. -/
def lostReadState : State :=
  let s := tUp.setRegs [(.ringManifestStatus 0, 0x90480000), (.ringResources 0, 0x00010100), (.trzPortStatus 3, tPort ptUp 2)]
  let s1 := (s.onRing 0 fun k => { k with bound := true }).onCore 0 fun k =>
    { k with dmaBusy := some ⟨1, none, ⟨none, 0, none, none⟩, 1, some lostTransfer, false⟩ }
  let s2 := s1.onPort 3 fun k => { k with linkUp := true, waiting := [lostPacket] }
  { s2 with
    mwy := smSet 0 [] 0 unlostByte
    trz := { s2.trz with remotes := [lostRequest] }
    sec := { s2.sec with store := [(0, 1)] } }

/-- STANDBY may be asked for, and the device is at rest. -/
theorem lostReadState_at_rest : lostReadState.mayManage .booth = true ∧ lostReadState.lifecycle ≠ lcBlank ∧
    lostReadState.ringsBusy = false ∧ lostReadState.writesBusy = false ∧ lostReadState.updBusy = false := by
  decide +kernel

/-- The state when port 3 goes idle, after the three ports without a link. -/
def lostReadIdle : State := ((lostReadState.idlePort 0).idlePort 1).idlePort 2

theorem lostReadIdle_port : lostReadIdle.portState 3 = ptUp ∧ (lostReadIdle.port 3).rx = [] ∧
    (lostReadIdle.port 3).waiting = [lostPacket] := by
  decide +kernel

/-- The state when the waiting read is answered: port 3 is DOWN, and the packet is counted. -/
def lostReadDown : State := (lostReadIdle.downPort 3).countNowhere (some 3)

theorem lostReadIdle_deviceNo : lostPacket.body.src.toNat = (lostReadIdle.downPort 3).deviceNo := by decide +kernel

/-- Port 3's going idle answers the read that waits there. -/
theorem lostReadIdle_idlePort : lostReadIdle.idlePort 3 = lostReadDown.remoteReply lostRequest.txn rmUnreachable [] := by
  obtain ⟨hup, hrx, hwaiting⟩ := lostReadIdle_port
  have htxn : lostPacket.body.txn = lostRequest.txn := by decide
  rw [State.idlePort, if_pos hup, portDown_of_one_waiting hrx hwaiting, strand_own_read rfl lostReadIdle_deviceNo, htxn,
    lostReadDown]

/-- The facts about the waiting read by which its byte is delivered at the midway's byte 0. -/
theorem lostReadDown_request :
    (lostReadDown.trz.remotes.find? fun p => p.txn == lostRequest.txn) = some lostRequest ∧
      lostReadDown.ringOfCore lostRequest.core = some 0 ∧
      (((lostReadDown.lostRead 0 lostRequest).core lostRequest.core).dmaBusy.bind fun b => b.job) = some lostTransfer ∧
      (lostReadDown.lostRead 0 lostRequest).mwyPlace 0 (0 + lostRequest.pos) = 0 := by
  decide +kernel

/-- In Standby the midway's first byte is the lost read's. -/
theorem lostReadState_standby_byte : smGet 0 lostReadState.standbyNow.mwy 0 = Config.lostByte 0 := by
  obtain ⟨hfind, hring, hjob, hplace⟩ := lostReadDown_request
  have hbyte := deliver_mwy_byte (r := 0) hjob (a := 0) rfl (Config.lostByte 0, true)
  rw [hplace] at hbyte
  have hidle : lostReadState.idlePorts = lostReadIdle.idlePort 3 := idlePorts_eq _
  rw [standbyNow_mwy, hidle, lostReadIdle_idlePort, remoteReply_unreachable_read hfind hring rfl]
  exact hbyte

/-- Refutes O50: a remote read that waits at a port when the device enters Standby is lost, and its byte overwrites the
midway's. -/
theorem not_lifecycleAndPowerStatesChange : ¬ Obligations.LifecycleAndPowerStatesChange := by
  unfold Obligations.LifecycleAndPowerStatesChange
  intro h
  obtain ⟨hwho, hlife, hrings, hwrites, hupd⟩ := lostReadState_at_rest
  obtain ⟨-, -, -, -, -, -, -, -, -, -, -, hpower, -⟩ := h lostReadState .booth
  obtain ⟨t, hexec, -, -, -, hmwy, -⟩ := (hpower hwho hlife).1 hrings hwrites hupd
  rw [exec_standby hwho hlife hrings hwrites hupd] at hexec
  obtain rfl : lostReadState.standbyNow = t := Host.Outcome.next.inj hexec
  have hlost := lostReadState_standby_byte
  rw [hmwy] at hlost
  have hbyte : smGet 0 lostReadState.mwy 0 = unlostByte := smGet_smSet_same 0 [] 0 unlostByte
  rw [hbyte] at hlost
  exact absurd hlost (xor_one_ne _)

end Sys2Proof.Machine
end

section
/-! SUPPORT. The dot-product array (R58 to R79): what a slot passed leaves of the engine queues, what a drain, a STEP and a fill
of the load latch do to their core, and the statements about STEP, DRAIN, ACC_LOAD and VLATCH. -/

namespace Sys2Proof.Machine

/-! ## Queues over an issue (R105) -/

theorem Traces.queues {c : Fin 16} {s t : State} (h : Traces c s t) (d : Fin 16) : (t.core d).queues = (s.core d).queues := by
  rw [h.core d]
  rfl

theorem queues_toSlot (s : State) (c : Fin 16) (u : Nat) : ((s.toSlot c u).core c).queues = (s.core c).queues := by
  unfold State.toSlot State.flagsTo
  rw [core_reachFlags, core_onCore, core_tick, core_writesDue]
  dsimp only
  rw [(settled_settle u (s.core c)).rest]

/-- A command that issues occupies its queue for its slots (R105). -/
theorem free_issueAt (s : State) (c : Fin 16) (q : Fin 5) (tag : Tag) (gap occ prog u : Nat) :
    ((s.issueAt c q tag gap occ prog u).queue c q).free = u + occ := by
  unfold State.issueAt
  dsimp only
  rw [State.queue, (traces_trace _ c evIssue tag q.val q.val).queues c, ← State.queue, queue_onQueue]

section
variable {c : Fin 16} {s t : State}

theorem Issued.opndBad (h : Issued c s t) : (t.core c).opndBad = (s.core c).opndBad := by
  rw [h.core]
  rfl

theorem Issued.dqs (h : Issued c s t) : (t.core c).dqs = (s.core c).dqs := by
  rw [h.core]
  rfl

theorem Issued.latch (h : Issued c s t) : (t.core c).latchValid = (s.core c).latchValid := by
  rw [h.core]
  rfl

/-- An issue changes no core's width. -/
theorem Issued.width (h : Issued c s t) (d : Fin 16) : t.width d = s.width d := by
  rw [State.width, State.width, State.fld, State.fld, h.regs (.coreColwidth d)]
  all_goals simp [reportAddrs, addr_injective.eq_iff]

theorem Issued.opGet (h : Issued c s t) (a n : Nat) : opGet (t.core c) a n = opGet (s.core c) a n := by
  simp only [Sys2Proof.Machine.opGet, h.opnd, h.opndBad]

end

/-! ## What changes registers alone -/

theorem core_arrayEvents (s : State) (c d : Fin 16) (ovf nan opParity accParity : Bool) :
    (s.arrayEvents c ovf nan opParity accParity).core d = s.core d := rfl

theorem core_ite_poisonTag (b : Bool) (s : State) (c d : Fin 16) (tag : Tag) :
    (if b = true then s.poisonTag c tag else s).core d = s.core d := by
  cases b
  · rfl
  · rfl

theorem mwy_ite_poisonTag (b : Bool) (s : State) (c : Fin 16) (tag : Tag) :
    (if b = true then s.poisonTag c tag else s).mwy = s.mwy := by
  cases b
  · rfl
  · rfl

/-! ## The drain (R72, R73, R79) -/

/-- A receive entry that a drain delivers is poisoned by the set, by the parity of its accumulators, and by that of its
drain-scale entry (R79). -/
def drainPoison (k : Core) (u : Nat) (d : DrainOrder) : Bool :=
  (settle u k).setPoison.getLsbD d.set || setParity (settle u k) d.set.val || scaleBad k d.scale

/-- The core after a drain of one of its sets. -/
def drainedCore (k : Core) (width u : Nat) (d : DrainOrder) : Core :=
  { opPut (opRx + 4096 * d.entry.val) (cleanBytes (drainBytes k width u d)) k with
    rx := k.rx.set d.entry ⟨true, u + 9, 0, drainPoison k u d⟩
    drainFree := u + 8
    setPoison := if setParity (settle u k) d.set.val then k.setPoison ||| (1#16).shiftLeft d.set else k.setPoison }

theorem core_drainNow (s : State) (c : Fin 16) (tag : Tag) (u : Nat) (d : DrainOrder) :
    (s.drainNow c tag u d).core c = drainedCore (s.core c) (s.width c) u d := by
  unfold State.drainNow
  extract_lets k k0 parity bad poison k1 k2 s1
  rw [core_ite_poisonTag]
  exact core_setCore s c k2

theorem mwy_drainNow (s : State) (c : Fin 16) (tag : Tag) (u : Nat) (d : DrainOrder) :
    (s.drainNow c tag u d).mwy = s.mwy := by
  unfold State.drainNow
  extract_lets k k0 parity bad poison k1 k2 s1
  exact mwy_ite_poisonTag parity s1 c tag

theorem length_flatMap_of_forall {α β : Type} {f : α → List β} {n : Nat} {l : List α} (hf : ∀ x ∈ l, (f x).length = n) :
    (l.flatMap f).length = l.length * n := by
  rw [List.length_flatMap, List.map_congr_left hf, List.map_const', List.sum_replicate, smul_eq_mul]

theorem length_leBytes (n v : Nat) : (leBytes n v).length = n := by
  induction n generalizing v with
  | zero => rfl
  | succ n ih => rw [leBytes, List.length_cons, ih]

theorem length_drainBytes (k : Core) (width u : Nat) (d : DrainOrder) : (drainBytes k width u d).length = 4096 := by
  unfold drainBytes
  dsimp only
  rw [length_flatMap_of_forall fun i _ => length_leBytes 4 _, List.length_range]

theorem rawBytes_cleanBytes (l : List Byte) : rawBytes (cleanBytes l) = l := by
  simp [rawBytes, cleanBytes, Function.comp_def]

/-- A drain fills its receive entry with the set's bytes, readable from slot `u + 9`, and keeps the path busy up to slot
`u + 8` (R72, R73). -/
theorem drainedCore_entry (k : Core) (width u : Nat) (d : DrainOrder) :
    (drainedCore k width u d).rx[d.entry] = ⟨true, u + 9, 0, drainPoison k u d⟩ ∧ (drainedCore k width u d).drainFree = u + 8 ∧
    smRead 0 (drainedCore k width u d).opnd (opRx + 4096 * d.entry.val) 4096 = drainBytes k width u d := by
  refine ⟨Vector.getElem_set_self _, rfl, ?_⟩
  have hread := smRead_smWrite_same 0 k.opnd (opRx + 4096 * d.entry.val) (drainBytes k width u d)
  rw [length_drainBytes] at hread
  rw [drainedCore, opPut, rawBytes_cleanBytes]
  exact hread

/-! ## STEP (R58 to R65, R79) -/

section
variable (s : State) (e : Eng) (w a : ArrOperand) (set : Fin 16) (overwrite : Bool) (drain : Option DrainOrder) (u : Nat)

/-- The state in which a STEP has issued. -/
def stepIssued : State := s.issueAt e.core qArray e.tag e.gap.toNat (stepSlots w a) (stepSlots w a) u

/-- The write that a STEP which issues on a core `k` puts in line. -/
def stepWrite (k : Core) (width : Nat) : AccWrite :=
  let vals := stepValues k width w a (if overwrite then none else some (readSet k u set.val))
  ⟨set.val, u + stepLatency w a, vals.map fun v => v.1,
    operandBad k width w a || (!overwrite && setParity k set.val) || (!overwrite && k.setPoison.getLsbD set), overwrite,
    vals.any fun v => v.2.1, vals.any fun v => v.2.2⟩

/-- The core of a STEP once its drain order, where it has one, has been followed. -/
def stepDrained : Core :=
  match drain with
  | some d => drainedCore ((stepIssued s e w a u).core e.core) (s.width e.core) u d
  | none => (stepIssued s e w a u).core e.core

theorem stepDrained_none : stepDrained s e w a none u = (stepIssued s e w a u).core e.core := rfl

theorem stepDrained_some (d : DrainOrder) :
    stepDrained s e w a (some d) u = drainedCore ((stepIssued s e w a u).core e.core) (s.width e.core) u d := rfl

theorem core_stepNow : (s.stepNow e w a set overwrite drain u).core e.core =
    { stepDrained s e w a drain u with
      accPend := (stepDrained s e w a drain u).accPend ++
        [stepWrite w a set overwrite u ((stepIssued s e w a u).core e.core) (s.width e.core)]
      macUntil := u + stepSlots w a
      pipeUntil := max (stepDrained s e w a drain u).pipeUntil (u + stepLatency w a)
      auditArr := ⟨e.tag, s.position e.core qArray e.gap.toNat, if stepSlots w a = 4 then 2 else 1, set.val, 1,
        stepLatency w a⟩ :: (stepDrained s e w a drain u).auditArr } := by
  unfold State.stepNow
  extract_lets c pos n s1 k old vals opBad accBad carried s2 s3 s4 s5
  have hs2 : s2.core e.core = stepDrained s e w a drain u := by
    unfold s2 stepDrained
    cases drain with
    | some d => exact (core_drainNow s1 e.core e.tag u d).trans (by rw [(issued_issueAt s e.core _ _ _ _ _ _).width]; rfl)
    | none => rfl
  have hs4 : s4.core e.core = stepDrained s e w a drain u := by
    rw [← hs2]
    exact core_ite_poisonTag _ s3 c e.core e.tag
  rw [State.noteArray, core_onCore]
  unfold s5
  rw [core_onCore, hs4]
  rfl

theorem mwy_stepNow : (s.stepNow e w a set overwrite drain u).mwy = s.mwy := by
  have hissued : (stepIssued s e w a u).mwy = s.mwy := (issued_issueAt s e.core _ _ _ _ _ _).mwy
  unfold State.stepNow
  extract_lets c pos n s1 k old vals opBad accBad carried s2 s3 s4 s5
  clear_value opBad accBad carried vals
  have hs2 : s2.mwy = s1.mwy := by
    unfold s2
    cases drain with
    | some d => exact mwy_drainNow s1 c e.tag u d
    | none => rfl
  have hs4 : s4.mwy = s2.mwy := mwy_ite_poisonTag _ s3 c e.tag
  exact hs4.trans (hs2.trans hissued)

end

section
variable {s : State} {e : Eng} {r : Fin 8} {u : Nat}

/-- A STEP that may issue, whose operands exist, that its gate and the audit let pass, takes effect. -/
theorem execStep_ready {w a : ArrOperand} {set : Fin 16} {overwrite : Bool} {drain : Option DrainOrder}
    (hw : operandExists w = true) (ha : operandExists a = true) (hd : scaleExists drain = true)
    (hready : Ready s e.core qArray e.mask e.tag e.gap r u)
    (hgate : arrayGate (s.core e.core) u (some (lineRegion a.line)) (some (lineRegion w.line)) false drain = none)
    (hpass : Passes s r (arrayAudit s e ((if overwrite then [] else [set.val]) ++
      drain.toList.map fun d => d.set.val) [])) :
    exec (.step e w a set overwrite drain) s = .next (s.stepNow e w a set overwrite drain u) := by
  have hexists : (operandExists w && operandExists a && scaleExists drain) = true := by simp [hw, ha, hd]
  show execStep e w a set overwrite drain s = _
  unfold execStep
  rw [onForm_formOk rfl, hexists]
  cases drain with
  | none => exact congrArg Host.Outcome.next (arrayCommand_ready _ hready hgate hpass)
  | some d => exact congrArg Host.Outcome.next (arrayCommand_ready _ hready hgate hpass)

/-- A DRAIN that may issue, whose scale entry exists, that its gate and the audit let pass, takes effect. -/
theorem execDrain_ready {d : DrainOrder} (hd : scaleExists (some d) = true)
    (hready : Ready s e.core qArray e.mask e.tag e.gap r u)
    (hgate : arrayGate (s.core e.core) u none none false (some d) = none)
    (hpass : Passes s r (arrayAudit s e [d.set.val] [])) :
    exec (.drain e d) s = .next ((s.issueAt e.core qArray e.tag e.gap.toNat 1 1 u).drainNow e.core e.tag u d) := by
  show execDrain e d s = _
  unfold execDrain
  rw [onForm_formOk rfl, hd]
  exact congrArg Host.Outcome.next (arrayCommand_ready _ hready hgate hpass)

/-- The units of logical columns from the width on write +0.0 (R75). -/
theorem stepValues_beyond (k : Core) {width : Nat} (w a : ArrOperand) (old : Option (List Word)) {i : Nat} (hi : i < 1024)
    (hcol : width ≤ i % 32) : (stepValues k width w a old)[i]? = some (0, false, false) := by
  have hnone : ((List.range width).map fun c => (blockElems k opA opAexp a c, blockExpOf k opAexp a c))[i % 32]? = none := by
    rw [List.getElem?_eq_none_iff, List.length_map, List.length_range]
    exact hcol
  unfold stepValues
  dsimp only
  rw [List.getElem?_map, List.getElem?_range hi, Option.map_some, hnone]
  split
  next heq => cases heq
  next => rfl

end

/-- Settles O11: what the issue and the write of a STEP without a drain order leave, and the columns beyond the width. -/
theorem stepWritesItsSet : Obligations.StepWritesItsSet := by
  unfold Obligations.StepWritesItsSet
  refine ⟨fun s e w a set overwrite r u hw ha hready hgate hpass => ?_,
    fun k width w a old i hi hcol _ => stepValues_beyond k w a old hi hcol⟩
  have hissued := issued_issueAt s e.core qArray e.tag e.gap.toNat (stepSlots w a) (stepSlots w a) u
  have hfree := free_issueAt s e.core qArray e.tag e.gap.toNat (stepSlots w a) (stepSlots w a) u
  obtain ⟨-, hflags, -⟩ := flags_issueAt s e.core (q := qArray) e.tag e.gap.toNat (stepSlots w a) (stepSlots w a) u rfl
  have hcore := core_stepNow s e w a set overwrite none u
  rw [stepDrained_none, stepIssued] at hcore
  generalize s.issueAt e.core qArray e.tag e.gap.toNat (stepSlots w a) (stepSlots w a) u = i at hissued hfree hflags hcore ⊢
  refine ⟨_, execStep_ready hw ha rfl hready hgate (by rwa [Option.toList_none, List.map_nil, List.append_nil]),
    ?_, ?_, ?_, ?_, ?_, ?_, ?_, ?_, ?_⟩
  · rw [hcore]
    rfl
  · rw [State.queue, hcore]
    exact hfree
  · rw [hcore]
    exact hissued.mem
  · rw [hcore]
    exact hissued.opnd
  · rw [hcore]
    exact hissued.sameMarks
  · rw [hcore]
    exact hflags
  · rw [hcore]
    exact hissued.dqs
  · rw [hcore]
    exact hissued.rx
  · exact mwy_stepNow s e w a set overwrite none u

/-- Settles O12: a drain fills its entry, alone or as a STEP's order. -/
theorem drainFillsAReceiveEntry : Obligations.DrainFillsAReceiveEntry := by
  unfold Obligations.DrainFillsAReceiveEntry
  refine fun s e d r u hscale hready => ⟨fun hgate hpass => ?_, fun w a set overwrite hw ha hgate hpass => ?_⟩
  · have hexec := execDrain_ready hscale hready hgate hpass
    have hissued := issued_issueAt s e.core qArray e.tag e.gap.toNat 1 1 u
    obtain ⟨-, hflags, -⟩ := flags_issueAt s e.core (q := qArray) e.tag e.gap.toNat 1 1 u rfl
    generalize s.issueAt e.core qArray e.tag e.gap.toNat 1 1 u = i at hexec hissued hflags ⊢
    have hcore := core_drainNow i e.core e.tag u d
    rw [hissued.width] at hcore
    obtain ⟨hentry, hfree, hbytes⟩ := drainedCore_entry (i.core e.core) (s.width e.core) u d
    refine ⟨_, drainPoison (i.core e.core) u d, hexec, ?_, ?_, ?_, ?_, ?_, ?_⟩
    · rw [hcore]
      exact hentry
    · rw [hcore]
      exact hfree
    · rw [hcore]
      exact hbytes
    · rw [hcore]
      exact hissued.mem
    · rw [hcore]
      exact hflags
    · exact (mwy_drainNow i e.core e.tag u d).trans hissued.mwy
  · have hexec := execStep_ready (drain := some d) hw ha hscale hready hgate hpass
    have hcore := core_stepNow s e w a set overwrite (some d) u
    rw [stepDrained_some, stepIssued] at hcore
    generalize s.issueAt e.core qArray e.tag e.gap.toNat (stepSlots w a) (stepSlots w a) u = i at hcore ⊢
    obtain ⟨hentry, hfree, hbytes⟩ := drainedCore_entry (i.core e.core) (s.width e.core) u d
    refine ⟨_, drainPoison (i.core e.core) u d, hexec, ?_, ?_, ?_⟩
    · rw [hcore]
      exact hentry
    · rw [hcore]
      exact hfree
    · rw [hcore]
      exact hbytes

/-! ## The load latch (R62, R65, R69, R106) -/

section
variable {s : State} {e : Eng} {r : Fin 8} {u : Nat}

/-- An ACC_LOAD that may issue, whose latch is marked valid, that the audit lets pass, takes effect. -/
theorem execAccLoad_ready {set : Fin 16} (hready : Ready s e.core qArray e.mask e.tag e.gap r u)
    (hvalid : (s.core e.core).latchValid = true) (hfrom : (s.core e.core).latchFrom ≤ u)
    (hpass : Passes s r (arrayAudit s e [] [set.val])) : exec (.accLoad e set) s = .next (s.accLoadNow e set u) := by
  have hgate : arrayGate (s.core e.core) u none none true none = none := by simp [arrayGate, hvalid, hfrom]
  show execAccLoad e set s = _
  unfold execAccLoad
  rw [onForm_formOk rfl]
  exact congrArg Host.Outcome.next (arrayCommand_ready _ hready hgate hpass)

/-- The write that an ACC_LOAD puts in line: the latch as it stood (R62, R65, R79). -/
def latchWrite (k : Core) (set : Fin 16) (u : Nat) : AccWrite :=
  ⟨set.val, u + 4, (chunksOf 4 1025 (smRead 0 k.opnd opLatch 4096)).map fun b => BitVec.ofNat 32 (leVal b),
    anyPoison (opGet k opLatch 4096), true, false, false⟩

theorem core_accLoadNow (s : State) (e : Eng) (set : Fin 16) (u : Nat) : (s.accLoadNow e set u).core e.core =
    { (s.issueAt e.core qArray e.tag e.gap.toNat 1 1 u).core e.core with
      accPend := ((s.issueAt e.core qArray e.tag e.gap.toNat 1 1 u).core e.core).accPend ++ [latchWrite (s.core e.core) set u]
      latchValid := false
      auditArr := ⟨e.tag, s.position e.core qArray e.gap.toNat, 3, set.val, 1, 4⟩ ::
        ((s.issueAt e.core qArray e.tag e.gap.toNat 1 1 u).core e.core).auditArr } := by
  have hissued := issued_issueAt s e.core qArray e.tag e.gap.toNat 1 1 u
  unfold State.accLoadNow
  extract_lets c pos s1 d bad vals s2 s3
  have hwrite : (⟨set.val, u + 4, vals, bad, true, false, false⟩ : AccWrite) = latchWrite (s.core e.core) set u := by
    unfold vals bad d
    rw [rawBytes_opGet, hissued.opGet, hissued.opnd]
    rfl
  clear_value vals bad
  have h2 : s2.core e.core = s1.core e.core := core_arrayEvents s1 c e.core false false bad false
  have h3 : s3.core e.core = s2.core e.core := core_ite_poisonTag bad s2 c e.core e.tag
  clear_value s3 s2
  rw [State.noteArray, core_onCore, core_onCore, h3, h2, hwrite]

theorem mwy_accLoadNow (s : State) (e : Eng) (set : Fin 16) (u : Nat) : (s.accLoadNow e set u).mwy = s.mwy := by
  unfold State.accLoadNow
  extract_lets c pos s1 d bad vals s2 s3
  have h1 : s1.mwy = s.mwy := (issued_issueAt s e.core qArray e.tag e.gap.toNat 1 1 u).mwy
  clear_value vals bad s1
  have h2 : s2.mwy = s1.mwy := rfl
  have h3 : s3.mwy = s2.mwy := mwy_ite_poisonTag bad s2 c e.tag
  clear_value s3 s2
  exact h3.trans (h2.trans h1)

/-- The bytes of eight registers, each as it stands in the slot in which it is read (R111, R118). -/
def latchBytes (k : Core) (u reg : Nat) : List Byte :=
  (List.range 8).flatMap fun j => (readVec k (u + j) (reg + j)).flatMap fun w => leBytes 4 w.toNat

/-- The core whose load latch a VLATCH has filled. -/
def latchedCore (k : Core) (u reg : Nat) : Core :=
  { opPut opLatch (cleanBytes (latchBytes k u reg)) k with latchValid := true, latchFrom := u + 8 }

theorem execVlatch_ready {k : Fin 64} (hform : k.val + 8 ≤ 64) (hready : Ready s e.core qVector e.mask e.tag e.gap r u)
    (hpass : Passes s r (vectorAudit s e (srcReads 8 (.reg k)) 0 0 0)) (hlatch : (s.core e.core).latchValid = false) :
    exec (.vlatch e k) s = .next ((s.issueAt e.core qVector e.tag e.gap.toNat 8 8 u).onCore e.core fun kc =>
      latchedCore kc u k.val) := by
  have hform' : formOk (.vlatch e k) = true := decide_eq_true hform
  have hgate : s.latchGate e.core u = none := if_neg (by rw [hlatch]; exact Bool.false_ne_true)
  show execVlatch e k s = _
  unfold execVlatch
  rw [onForm_formOk hform', vectorCommand_ready 8 _ hready hgate hpass]
  rfl

theorem execVlatch_held {k : Fin 64} (hform : k.val + 8 ≤ 64) (hready : Ready s e.core qVector e.mask e.tag e.gap r u)
    (hlatch : (s.core e.core).latchValid = true) :
    exec (.vlatch e k) s = .next (s.queueHold e.core qVector e.tag u ⟨.gate, 0x30, 3⟩) := by
  have hform' : formOk (.vlatch e k) = true := decide_eq_true hform
  have hgate : s.latchGate e.core u = some ⟨.gate, 0x30, 3⟩ := if_pos hlatch
  show execVlatch e k s = _
  unfold execVlatch
  rw [onForm_formOk hform']
  unfold State.vectorCommand
  simp only [front_ready hready, hgate]

end

/-! ### The bytes of the latch -/

theorem length_smRead {w : Nat} (d : BitVec w) (m : SparseMap w) (a n : Nat) : (smRead d m a n).length = n := by
  induction n generalizing a with
  | zero => rfl
  | succ n ih => rw [smRead, List.length_cons, ih]

theorem leVal_leBytes (n v : Nat) : leVal (leBytes n v) = v % 256 ^ n := by
  induction n generalizing v with
  | zero => rw [pow_zero, Nat.mod_one]; rfl
  | succ n ih =>
    rw [leBytes, leVal, ih, BitVec.toNat_ofNat, pow_succ' 256 n]
    exact (Nat.mod_mul (x := v) (a := 256)).symm

/-- A part that lies within one of equally long pieces is a part of that piece. -/
theorem part_flatMap {α β : Type} {f : α → List β} {n : Nat} {l : List α} (hf : ∀ x ∈ l, (f x).length = n) {j o k : Nat}
    {x : α}
    (hx : l[j]? = some x) (hok : o + k ≤ n) : part (l.flatMap f) (n * j + o) k = part (f x) o k := by
  induction l generalizing j with
  | nil => cases hx
  | cons y l ih =>
    have hy : (f y).length = n := hf y List.mem_cons_self
    rw [List.flatMap_cons]
    unfold part at ih ⊢
    cases j with
    | zero =>
      obtain rfl : y = x := Option.some.inj hx
      rw [Nat.mul_zero, Nat.zero_add, List.drop_append, List.take_append_of_le_length]
      rw [List.length_drop]
      omega
    | succ j =>
      rw [← ih (fun z hz => hf z (List.mem_cons_of_mem _ hz)) hx, List.drop_append, List.drop_eq_nil_of_le, List.nil_append, hy]
      · congr 2
        rw [Nat.mul_succ]
        omega
      · rw [hy, Nat.mul_succ]
        omega

theorem length_wordBytes (l : List Word) : (l.flatMap fun w => leBytes 4 w.toNat).length = 4 * l.length := by
  rw [length_flatMap_of_forall fun w _ => length_leBytes 4 _, Nat.mul_comm]

theorem length_readVec (k : Core) (u n : Nat) : (readVec k u n).length = 128 := length_smRead _ _ _ _

theorem length_latchBytes (k : Core) (u reg : Nat) : (latchBytes k u reg).length = 4096 := by
  unfold latchBytes
  rw [length_flatMap_of_forall fun j _ => (length_wordBytes _).trans (congrArg (4 * ·) (length_readVec k _ _)), List.length_range]

/-- Lane `l` of register `j` stands in the latch at byte `512 j + 4 l` (R62, R111). -/
theorem leAt_latchBytes (k : Core) (u reg : Nat) {j l : Nat} (hj : j < 8) (hl : l < 128) :
    leAt (latchBytes k u reg) (512 * j + 4 * l) 4 = ((readVec k (u + j) (reg + j)).getD l 0).toNat := by
  have hlane : (readVec k (u + j) (reg + j))[l]? = some ((readVec k (u + j) (reg + j)).getD l 0) := by
    rw [List.getD_eq_getElem?_getD, List.getElem?_eq_getElem (by rw [length_readVec]; exact hl), Option.getD_some]
  have hregister : part (latchBytes k u reg) (512 * j + 4 * l) 4 =
      part ((readVec k (u + j) (reg + j)).flatMap fun w => leBytes 4 w.toNat) (4 * l) 4 :=
    part_flatMap (n := 512) (fun i _ => by rw [length_wordBytes, length_readVec]) (List.getElem?_range hj) (by omega)
  have hword : part ((readVec k (u + j) (reg + j)).flatMap fun w => leBytes 4 w.toNat) (4 * l + 0) 4 =
      part (leBytes 4 ((readVec k (u + j) (reg + j)).getD l 0).toNat) 0 4 :=
    part_flatMap (n := 4) (fun _ _ => length_leBytes 4 _) hlane (by omega)
  rw [leAt, hregister]
  rw [Nat.add_zero] at hword
  rw [hword]
  exact (leVal_leBytes 4 _).trans (Nat.mod_eq_of_lt (BitVec.isLt _))

/-- The latch that a VLATCH has filled, and the operand space beside it. -/
theorem latchedCore_opnd (k : Core) (u reg : Nat) :
    smRead 0 (latchedCore k u reg).opnd opLatch 4096 = latchBytes k u reg ∧
    ∀ a : Nat, (a < opLatch ∨ opLatch + 4096 ≤ a) → smGet 0 (latchedCore k u reg).opnd a = smGet 0 k.opnd a := by
  have hread := smRead_smWrite_same 0 k.opnd opLatch (latchBytes k u reg)
  rw [length_latchBytes] at hread
  rw [latchedCore, opPut, rawBytes_cleanBytes]
  refine ⟨hread, fun a ha => ?_⟩
  rw [smGet_smWrite, length_latchBytes, if_neg (by omega)]

/-! ### A command held at its queue -/

/-- A command held waits at the head of its queue for what its gate names (R105, R106). -/
theorem holdAt_waits (s : State) (c : Fin 16) (q : Fin 5) (tag : Tag) (kind : WaitKind) (index cond u : Nat) :
    ((s.holdAt c q tag kind index cond u).queue c q).wait = some ⟨tag, kind, index, q.val, 0, false⟩ ∧
    ((s.holdAt c q tag kind index cond u).core c).opnd = (s.core c).opnd ∧
    ((s.holdAt c q tag kind index cond u).core c).latchValid = (s.core c).latchValid := by
  have hstep : ∀ (b : Bool) (t : State) (v : Nat), ((if b = true then t.toSlot c v else t).core c).queues = (t.core c).queues ∧
      ((if b = true then t.toSlot c v else t).core c).opnd = (t.core c).opnd ∧
      ((if b = true then t.toSlot c v else t).core c).latchValid = (t.core c).latchValid := by
    intro b t v
    cases b with
    | false => exact ⟨rfl, rfl, rfl⟩
    | true => exact ⟨queues_toSlot t c v, (issued_toSlot t c v).opnd, (issued_toSlot t c v).latch⟩
  unfold State.holdAt
  extract_lets s1 s2 s3
  have hwait : ((s1.core c).queues[q]).wait = some ⟨tag, kind, index, q.val, 0, false⟩ ∧
      (s1.core c).opnd = (s.core c).opnd ∧ (s1.core c).latchValid = (s.core c).latchValid := by
    unfold s1 State.onQueue
    rw [core_onCore]
    exact ⟨congrArg EngineQueue.wait (Vector.getElem_set_self _), rfl, rfl⟩
  have htraced : Traces c s2 s3 := by
    unfold s3
    split
    · exact .refl c s2
    · exact traces_trace s2 c evHold tag _ _
  obtain ⟨hwait, hopnd, hlatch⟩ := hwait
  obtain ⟨hqueues2, hopnd2, hlatch2⟩ := hstep (isExecQueue q) s1 u
  obtain ⟨hqueues4, hopnd4, hlatch4⟩ := hstep (isExecQueue q) s3 (u + 1)
  refine ⟨?_, ?_, ?_⟩
  · rw [State.queue, hqueues4, htraced.queues c, hqueues2, hwait]
  · rw [hopnd4, htraced.issued.opnd, hopnd2, hopnd]
  · rw [hlatch4, htraced.issued.latch, hlatch2, hlatch]

theorem queueHold_waits (s : State) (c : Fin 16) (q : Fin 5) (tag : Tag) (u : Nat) (g : GateHold) :
    ((s.queueHold c q tag u g).queue c q).wait = some ⟨tag, g.kind, g.index, q.val, 0, false⟩ ∧
    ((s.queueHold c q tag u g).core c).opnd = (s.core c).opnd ∧
    ((s.queueHold c q tag u g).core c).latchValid = (s.core c).latchValid := by
  unfold State.queueHold
  dsimp only
  split
  · exact holdAt_waits s c q tag g.kind g.index g.cond u
  · exact holdAt_waits s c q tag g.kind g.index g.cond u

/-- Settles O13: the copy of the latch, its filling, and the VLATCH that is held while the latch is marked valid. -/
theorem latchIsFilledAndCopied : Obligations.LatchIsFilledAndCopied := by
  unfold Obligations.LatchIsFilledAndCopied
  refine ⟨fun s e set r u hready hvalid hfrom hpass => ?_,
    fun s e k r u hform hready hpass => ⟨fun hlatch => ?_, fun hlatch => ?_⟩⟩
  · have hissued := issued_issueAt s e.core qArray e.tag e.gap.toNat 1 1 u
    have hcore := core_accLoadNow s e set u
    obtain ⟨-, hflags, -⟩ := flags_issueAt s e.core (q := qArray) e.tag e.gap.toNat 1 1 u rfl
    refine ⟨_, execAccLoad_ready hready hvalid hfrom hpass, ?_, ?_, ?_, ?_, mwy_accLoadNow s e set u⟩
    · rw [hcore]
    · rw [hcore]
      rfl
    · rw [hcore]
      exact hissued.mem
    · rw [hcore]
      exact hflags
  · have hissued := issued_issueAt s e.core qVector e.tag e.gap.toNat 8 8 u
    have hexec := execVlatch_ready hform hready hpass hlatch
    obtain ⟨hbytes, hbeside⟩ :=
      latchedCore_opnd ((s.issueAt e.core qVector e.tag e.gap.toNat 8 8 u).core e.core) u k.val
    generalize s.issueAt e.core qVector e.tag e.gap.toNat 8 8 u = i at hissued hbytes hbeside hexec ⊢
    refine ⟨_, hexec, ?_, ?_, fun j l hj hl => ?_, fun a ha => ?_, ?_, hissued.mwy⟩
    · rw [core_onCore]
      rfl
    · rw [core_onCore]
      rfl
    · rw [core_onCore, hbytes, leAt_latchBytes _ _ _ hj hl]
    · rw [core_onCore, hbeside a ha, hissued.opnd]
    · rw [core_onCore]
      exact hissued.mem
  · obtain ⟨hwait, hopnd, hvalid⟩ := queueHold_waits s e.core qVector e.tag u ⟨.gate, 0x30, 3⟩
    exact ⟨_, execVlatch_held hform hready hlatch, hvalid.trans hlatch, hopnd, hwait⟩

end Sys2Proof.Machine
end

section
/-! SUPPORT. The local DMA engine on this device (R59, R111, R141, R149, R161): the places of midway bytes are different places,
reads and writes without errors in the memories move bytes and nothing else, and the statement about DMA. -/

namespace Sys2Proof.Machine

/-! ## Memories without errors (R140) -/

theorem eccOf_nil (w : Nat) : eccOf [] w = .clean := by
  have hread : (smRead 0 ([] : SparseMap 8) (36 * w) 36).countP (fun e => e != 0) = 0 := by
    rw [List.countP_eq_zero]
    simp [smRead, smGet]
  simp only [eccOf, hread]

theorem freshWords_nil (l : List Nat) : freshWords l [] = [] :=
  foldl_keeps (P := (· = [])) (fun m w hm => by rw [hm]; rfl) l [] rfl

/-- A memory with the bytes of a gathering-buffer entry written (R155). -/
def flushedBytes (m : SparseMap 8) (g : GatherEntry) : SparseMap 8 :=
  (entryBytes g).foldl (fun m p => smSet 0 m (64 * g.line + p.1) p.2) m

theorem flushEntry_noErrors {k : Core} (h : NoErrors k) (g : GatherEntry) :
    NoErrors (flushEntry k g) ∧ (flushEntry k g).mem = flushedBytes k.mem g := by
  obtain ⟨hflips, hecc⟩ := h
  refine ⟨⟨?_, (ecc_flushEntry hflips g).trans hecc⟩, ?_⟩
  · unfold flushEntry
    dsimp only
    rw [foldl_decodeWord hflips, hflips, freshWords_nil]
  · unfold flushEntry
    dsimp only
    rw [foldl_decodeWord hflips]
    rfl

theorem flushEntries_noErrors (l : List GatherEntry) {k : Core} (h : NoErrors k) :
    NoErrors (l.foldl flushEntry k) ∧ (l.foldl flushEntry k).mem = l.foldl flushedBytes k.mem := by
  induction l generalizing k with
  | nil => exact ⟨h, rfl⟩
  | cons g l ih =>
    obtain ⟨hg, hmem⟩ := flushEntry_noErrors h g
    rw [List.foldl_cons, List.foldl_cons, ← hmem]
    exact ih hg

/-- A flush of a core without errors leaves none, and what it writes depends on memory and gathering buffer alone. -/
theorem flushRange_noErrors (a n : Nat) {k j : Core} (hk : NoErrors k) (hj : NoErrors j) (hmem : j.mem = k.mem)
    (hgather : j.gather = k.gather) :
    NoErrors (flushRange a n k) ∧ (flushRange a n j).mem = (flushRange a n k).mem := by
  obtain ⟨hnone, hk'⟩ := flushEntries_noErrors (k.gather.filter fun g =>
    decide (a / 64 ≤ g.line) && decide (64 * g.line < a + n)) hk
  obtain ⟨-, hj'⟩ := flushEntries_noErrors (j.gather.filter fun g =>
    decide (a / 64 ≤ g.line) && decide (64 * g.line < a + n)) hj
  refine ⟨hnone, hj'.trans ?_⟩
  rw [hmem, hgather]
  exact hk'.symm

theorem readyRange_noErrors (a n : Nat) {k : Core} (h : NoErrors k) : readyRange a n k = flushRange a n k :=
  foldl_decodeWord (flushRange_noErrors a n h h rfl rfl).1.1 _

theorem rawBytes_bytesGet (place : Nat → Nat) (m : SparseMap 8) (bad : SparseMap 1) (a n : Nat) :
    rawBytes (bytesGet place m bad a n) = (List.range n).map fun i => smGet 0 m (place (a + i)) := by
  rw [rawBytes, bytesGet, List.map_map]
  rfl

theorem getElem?_bytesGet (place : Nat → Nat) (m : SparseMap 8) (bad : SparseMap 1) (a : Nat) {n i : Nat} (hi : i < n) :
    (bytesGet place m bad a n)[i]? = some (smGet 0 m (place (a + i)), smGet 0 bad (place (a + i) / 32) == 1) := by
  rw [bytesGet, List.getElem?_map, List.getElem?_range hi]
  rfl

theorem length_bytesGet (place : Nat → Nat) (m : SparseMap 8) (bad : SparseMap 1) (a n : Nat) :
    (bytesGet place m bad a n).length = n := by
  rw [bytesGet, List.length_map, List.length_range]

/-- A port's read of core memory without errors flushes the lines read and delivers what stands there then (R155, R156). -/
theorem cmRead_noErrors {s : State} (tag : Tag) {c : Fin 16} (a n : Nat) (h : NoErrors (s.core c)) :
    (s.cmRead tag c a n).2 = coreGet (flushRange a n (s.core c)) a n ∧
    ((s.cmRead tag c a n).1.core c) = flushRange a n (s.core c) ∧ (s.cmRead tag c a n).1.mwy = s.mwy ∧
    (s.cmRead tag c a n).1.mwyFlips = s.mwyFlips ∧ ∀ r, (s.cmRead tag c a n).1.slicesOf r = s.slicesOf r := by
  have hecc : (flushRange a n (s.core c)).ecc = [] := (flushRange_noErrors a n h h rfl rfl).1.2
  have hready : readyRange a n (s.core c) = flushRange a n (s.core c) := readyRange_noErrors a n h
  have hsame : ({ flushRange a n (s.core c) with ecc := [] } : Core) = flushRange a n (s.core c) := by rw [← hecc]
  have hmem : s.onMem tag c (readyRange a n) = s.setCore c (flushRange a n (s.core c)) := by
    rw [onMem_clean (by rw [hready]; exact hecc), hready, hsame]
  unfold State.cmRead
  extract_lets s1 d
  have hs1 : s1 = s.setCore c (flushRange a n (s.core c)) := hmem
  have hcore : s1.core c = flushRange a n (s.core c) := by rw [hs1, core_setCore]
  refine ⟨by unfold d; rw [hcore], ?_, ?_, ?_, fun r => ?_⟩
  · split
    · rw [core_setFld, hcore]
    · exact hcore
  · split
    · rw [setFld_mwy, hs1]; rfl
    · rw [hs1]; rfl
  · split
    · rw [setFld_mwyFlips, hs1]; rfl
    · rw [hs1]; rfl
  · have hslices : s1.slicesOf r = s.slicesOf r := by rw [hs1]; rfl
    split
    · rw [← hslices, State.slicesOf, State.slicesOf, reg_setFld_ne _ _ _ (addr_injective.ne (by simp))]
    · exact hslices

theorem sliceDecode_noErrors {s : State} (h : s.mwyFlips = []) (r : Fin 8) (tag : Tag) (n : Nat) : s.sliceDecode r tag n = s := by
  unfold State.sliceDecode
  rw [h, eccOf_nil]
  split
  · rfl
  · rfl

theorem sliceDecodes_noErrors {s : State} (h : s.mwyFlips = []) (r : Fin 8) (tag : Tag) (l : List Nat) :
    l.foldl (fun t w => t.sliceDecode r tag w) s = s :=
  foldl_keeps (P := (· = s)) (fun t w ht => by rw [ht, sliceDecode_noErrors h]) l s rfl

/-- A read of the midway without errors delivers what stands there, and changes no memory (R161). -/
theorem mwyRead_noErrors {s : State} (h : s.mwyFlips = []) (r : Fin 8) (tag : Tag) (a n : Nat) :
    (s.mwyRead r tag a n).2 = bytesGet (s.mwyPlace r) s.mwy s.mwyBad a n ∧ (s.mwyRead r tag a n).1.mwy = s.mwy ∧
    (s.mwyRead r tag a n).1.cores = s.cores := by
  unfold State.mwyRead
  rw [sliceDecodes_noErrors h]
  exact ⟨rfl, foldl_same State.mwy _ s, foldl_same State.cores _ s⟩

/-- A write of the midway without errors puts its bytes, and changes no core (R161). -/
theorem mwyWrite_noErrors {s : State} (h : s.mwyFlips = []) (r : Fin 8) (tag : Tag) (a : Nat) (d : List PByte) :
    (s.mwyWrite r tag a d).mwy = bytesPut (s.mwyPlace r) a d s.mwy ∧ (s.mwyWrite r tag a d).cores = s.cores := by
  unfold State.mwyWrite
  rw [sliceDecodes_noErrors h]
  exact ⟨rfl, rfl⟩

/-! ## Bytes put at places (R161) -/

theorem smGet_bytesPut_ne (place : Nat → Nat) (d : List PByte) (a : Nat) (m : SparseMap 8) {p : Nat}
    (hp : ∀ i < d.length, p ≠ place (a + i)) : smGet 0 (bytesPut place a d m) p = smGet 0 m p := by
  induction d generalizing a m with
  | nil => rfl
  | cons b d ih =>
    have hhere : place a ≠ p := (hp 0 (Nat.succ_pos _)).symm
    rw [bytesPut, ih (a + 1) _ fun i hi => ?_, smGet_smSet_ne _ _ _ hhere]
    rw [Nat.add_assoc, Nat.add_comm 1]
    exact hp (i + 1) (Nat.succ_lt_succ hi)

/-- Bytes put at different places stand there. -/
theorem smGet_bytesPut (place : Nat → Nat) (d : List PByte) (a : Nat) (m : SparseMap 8)
    (hplace : ∀ i < d.length, ∀ j < d.length, place (a + i) = place (a + j) → i = j) {i : Nat} {b : PByte}
    (hb : d[i]? = some b) : smGet 0 (bytesPut place a d m) (place (a + i)) = b.1 := by
  induction d generalizing a m i with
  | nil => cases hb
  | cons x d ih =>
    have hnext : ∀ j, a + 1 + j = a + (j + 1) := fun j => by omega
    rw [bytesPut]
    cases i with
    | zero =>
      obtain rfl : x = b := Option.some.inj hb
      rw [smGet_bytesPut_ne, Nat.add_zero, smGet_smSet_same]
      intro j hj he
      rw [hnext] at he
      cases hplace 0 (Nat.succ_pos _) (j + 1) (Nat.succ_lt_succ hj) he
    | succ i =>
      rw [← hnext i]
      refine ih (a + 1) _ (fun j hj k hk he => ?_) hb
      rw [hnext, hnext] at he
      exact Nat.succ.inj (hplace (j + 1) (Nat.succ_lt_succ hj) (k + 1) (Nat.succ_lt_succ hk) he)

theorem slicesOf_nodup (s : State) (r : Fin 8) : (s.slicesOf r).Nodup := List.nodup_range.filter _

/-- Different addresses of a ring's midway space are different places (R161). -/
theorem mwyPlace_inj (s : State) (r : Fin 8) {a b : Nat} (ha : a < s.mwySize r) (hb : b < s.mwySize r)
    (h : s.mwyPlace r a = s.mwyPlace r b) : a = b := by
  have hnodup := slicesOf_nodup s r
  unfold State.mwySize at ha hb
  unfold State.mwyPlace at h
  dsimp only at h
  generalize s.slicesOf r = l at ha hb h hnodup
  have hn : 0 < l.length := by
    rcases Nat.eq_zero_or_pos l.length with h0 | hpos
    · rw [h0] at ha
      omega
    · exact hpos
  have hrow : ∀ x, x < 33554432 * l.length → x / (512 * l.length) < 65536 := fun x hx => by
    rw [Nat.div_lt_iff_lt_mul (by omega)]
    calc x < 33554432 * l.length := hx
      _ = 65536 * (512 * l.length) := by ring
  have hra := hrow a ha
  have hrb := hrow b hb
  have hslice : l.getD (a / 512 % l.length) 0 = l.getD (b / 512 % l.length) 0 := by omega
  have hla : a / 512 % l.length < l.length := Nat.mod_lt _ hn
  have hlb : b / 512 % l.length < l.length := Nat.mod_lt _ hn
  rw [List.getD_eq_getElem _ _ hla, List.getD_eq_getElem _ _ hlb, hnodup.getElem_inj_iff] at hslice
  have hquot : a / 512 / l.length = b / 512 / l.length := by
    rw [Nat.div_div_eq_div_mul, Nat.div_div_eq_div_mul]
    omega
  have hblock : a / 512 = b / 512 := by
    rw [← Nat.div_add_mod (a / 512) l.length, ← Nat.div_add_mod (b / 512) l.length, hquot, hslice]
  omega

section
variable {s : State} {r : Fin 8} {a b n : Nat} (k : Core) (m : SparseMap 8)

/-- Bytes of core memory put into a ring's midway space stand there, each at its address (R161). -/
theorem smGet_bytesPut_coreGet (hsize : b + n ≤ s.mwySize r) {i : Nat} (hi : i < n) :
    smGet 0 (bytesPut (s.mwyPlace r) b (coreGet k a n) m) (s.mwyPlace r (b + i)) = smGet 0 k.mem (a + i) := by
  have hbyte : (coreGet k a n)[i]? = _ := getElem?_bytesGet id k.mem k.memBad a hi
  rw [smGet_bytesPut _ _ _ _ ?_ hbyte]
  · rfl
  · rw [coreGet, length_bytesGet]
    intro j hj k hk he
    have := mwyPlace_inj s r (by omega) (by omega) he
    omega

/-- No other byte of the midway changes. -/
theorem smGet_bytesPut_coreGet_ne {p : Nat} (hp : ∀ i < n, p ≠ s.mwyPlace r (b + i)) :
    smGet 0 (bytesPut (s.mwyPlace r) b (coreGet k a n) m) p = smGet 0 m p :=
  smGet_bytesPut_ne _ _ _ _ (by rw [coreGet, length_bytesGet]; exact hp)

end

/-- A flush changes neither operand memories nor flags nor data queues (R155). -/
theorem flushRange_keeps (a n : Nat) (k : Core) : (flushRange a n k).opnd = k.opnd ∧ (flushRange a n k).flags = k.flags ∧
    (flushRange a n k).dqs = k.dqs := by
  rw [flushRange, (memTouched_flushWhere (fun g => decide (a / 64 ≤ g.line) && decide (64 * g.line < a + n)) k).rest]
  exact ⟨rfl, rfl, rfl⟩

/-! ## After an issue of an access-side engine -/

section
variable {c : Fin 16} {s t : State}

theorem Issued.slicesOf (h : Issued c s t) (r : Fin 8) : t.slicesOf r = s.slicesOf r := by
  rw [State.slicesOf, State.slicesOf, h.regs (.ringResources r)]
  all_goals simp [reportAddrs, addr_injective.eq_iff]

theorem Issued.mwyFlips (h : Issued c s t) : t.mwyFlips = s.mwyFlips := by rw [h.rest]

theorem Issued.gather (h : Issued c s t) : (t.core c).gather = (s.core c).gather := by
  rw [h.core]
  rfl

theorem Issued.noErrors (h : Issued c s t) (hs : NoErrors (s.core c)) : NoErrors (t.core c) := by
  rw [h.core]
  exact hs

end

/-- An issue of the access side leaves the flags as they are (R126). -/
theorem flags_issueAt_access (s : State) (c : Fin 16) {q : Fin 5} (tag : Tag) (gap occ prog u : Nat) (hq : isExecQueue q = false) :
    ((s.issueAt c q tag gap occ prog u).core c).flags = (s.core c).flags := by
  unfold State.issueAt
  dsimp only
  rw [if_neg (by rw [hq]; exact Bool.false_ne_true)]
  obtain ⟨-, hflags, -⟩ := (traces_trace (s.onQueue c q _) c evIssue tag q.val q.val).slot_flags c
  rw [hflags, State.onQueue, core_onCore]

theorem mwyPlace_slices {s t : State} {r : Fin 8} (h : t.slicesOf r = s.slicesOf r) : t.mwyPlace r = s.mwyPlace r := by
  funext a
  rw [State.mwyPlace, State.mwyPlace, h]

theorem mwySize_slices {s t : State} {r : Fin 8} (h : t.slicesOf r = s.slicesOf r) : t.mwySize r = s.mwySize r := by
  rw [State.mwySize, State.mwySize, h]

/-! ## DMA -/

section
variable {s : State} {e : Eng} {cmd : DmaCmd} {r : Fin 8} {u : Nat}

theorem execDma_ready (hform : Instr.WellFormed (.dma e cmd)) (hdone : s.badCompletion e.core cmd.done = false)
    (hstarts : Starts s e qDma r u (dmaRegions cmd)) :
    exec (.dma e cmd) s = .next ((s.issueAt e.core qDma e.tag e.gap.toNat 0 0 u).dmaNow r e cmd) := by
  obtain ⟨hready, hpass⟩ := hstarts
  show execDma e cmd s = _
  unfold execDma
  rw [if_neg (by rw [hdone]; exact Bool.false_ne_true), onForm_formOk hform, fillCommand_ready _ hready hpass]

/-- A transfer of which the ends have been resolved, with the generations of its pages (R111, R183, R228). -/
def dmaTransfer (cmd : DmaCmd) (src dst : Place) (sg dg : Option (BitVec 16)) (fill : Option ArrFmt) : Transfer :=
  ⟨src, dst, cmd.bytes, dg.getD (cmd.gen.getD 0), sg.orElse fun _ => cmd.expectGen, 0, fill⟩

/-- The core of a transfer that has moved its bytes, with its completion due (R88, R141). -/
def dmaMoved (e : Eng) (cmd : DmaCmd) (k : Core) : Core :=
  { fillExponents cmd cmd.bytes k with dmaBusy := some ⟨e.tag, cmd.marks, cmd.done, 0, none, false⟩ }

section
variable {t s1 s2 s3 s4 : State} {src dst : Place} {sg dg : Option (BitVec 16)} {d : List PByte}

theorem moveHere_moves {x : Transfer} (hread : s2.placeRead r e.core e.tag x 0 x.bytes = (s3, some d))
    (hwrite : s3.placeWrite r e.core e.tag x 0 d = (s4, true)) : s2.moveHere r e cmd x = s4.onCore e.core fun k =>
      { fillExponents cmd x.bytes k with dmaBusy := some ⟨e.tag, cmd.marks, cmd.done, 0, none, false⟩ } := by
  unfold State.moveHere
  rw [hread]
  dsimp only
  rw [hwrite]

/-- A transfer on this device moves its bytes at once (log 11). -/
theorem dmaNow_moves (hsrc : isRemote cmd.src = false) (hdst : isRemote cmd.dst = false)
    (hfrom : t.resolveEnd r e.core e.tag cmd.bytes false cmd.src = (s1, some (src, sg)))
    (hto : s1.resolveEnd r e.core e.tag cmd.bytes true cmd.dst = (s2, some (dst, dg)))
    (hread : s2.placeRead r e.core e.tag (dmaTransfer cmd src dst sg dg none) 0 cmd.bytes = (s3, some d))
    (hwrite : s3.placeWrite r e.core e.tag (dmaTransfer cmd src dst sg dg none) 0 d = (s4, true)) :
    t.dmaNow r e cmd = s4.onCore e.core (dmaMoved e cmd) := by
  unfold State.dmaNow
  rw [hfrom]
  dsimp only
  rw [hto]
  dsimp only
  rw [hsrc, hdst, if_neg (by simp)]
  exact moveHere_moves hread hwrite

/-- A remote transfer starts with its first packets (R339). -/
theorem dmaNow_asks (hremote : isRemote cmd.src = true ∨ isRemote cmd.dst = true)
    (hfrom : t.resolveEnd r e.core e.tag cmd.bytes false cmd.src = (s1, some (src, sg)))
    (hto : s1.resolveEnd r e.core e.tag cmd.bytes true cmd.dst = (s2, some (dst, dg))) :
    t.dmaNow r e cmd = State.askMore r e.core 32769 (s2.onCore e.core fun k =>
      { k with dmaBusy := some ⟨e.tag, cmd.marks, cmd.done, 0, some (dmaTransfer cmd src dst sg dg cmd.fmt), false⟩ }) := by
  unfold State.dmaNow
  rw [hfrom]
  dsimp only
  rw [hto]
  dsimp only
  rw [if_pos (by rw [Bool.or_eq_true]; exact hremote)]
  rfl

end

/-- A midway end that lies within the ring's space is resolved to itself (R167). -/
theorem resolveEnd_mwy {t : State} {b : Nat} {f : Option Nat} (write : Bool) (h : b + cmd.bytes ≤ t.mwySize r) :
    t.resolveEnd r e.core e.tag cmd.bytes write (.mwy b f) = (t, some (.mwy b, none)) := by
  rw [State.resolveEnd, State.resolveMwy.eq_def, if_pos (Or.inr h)]

/-- A transfer from core memory to the midway, without errors in either (R149, R161). -/
theorem dma_cm_mwy {t : State} {a b : Nat} {f : Option Nat} (hsrc : cmd.src = .cm a .contiguous) (hdst : cmd.dst = .mwy b f)
    (hin : inCore a cmd.bytes = true) (hsize : b + cmd.bytes ≤ t.mwySize r) (hcore : NoErrors (t.core e.core))
    (hmwy : t.mwyFlips = []) :
    ∃ v : State, t.dmaNow r e cmd = v.onCore e.core (dmaMoved e cmd) ∧ v.core e.core = flushRange a cmd.bytes (t.core e.core) ∧
      v.mwy = bytesPut (t.mwyPlace r) b (coreGet (flushRange a cmd.bytes (t.core e.core)) a cmd.bytes) t.mwy := by
  obtain ⟨hdata, hcore', hmwy', hflips, hslices⟩ := cmRead_noErrors e.tag a cmd.bytes hcore
  generalize hread : t.cmRead e.tag e.core a cmd.bytes = p at hdata hcore' hmwy' hflips hslices
  obtain ⟨s3, d⟩ := p
  dsimp only at hdata hcore' hmwy' hflips hslices
  obtain ⟨hput, hcores⟩ := mwyWrite_noErrors (hflips.trans hmwy) r e.tag b d
  have hfrom : t.resolveEnd r e.core e.tag cmd.bytes false cmd.src = (t, some (.cm a .contiguous, none)) := by
    rw [hsrc, State.resolveEnd]
    exact if_pos (Or.inr hin)
  have hto : t.resolveEnd r e.core e.tag cmd.bytes true cmd.dst = (t, some (.mwy b, none)) := by
    rw [hdst]
    exact resolveEnd_mwy true hsize
  refine ⟨_, dmaNow_moves (by rw [hsrc]; rfl) (by rw [hdst]; rfl) hfrom hto (s3 := s3) (d := d) ?_ rfl, ?_, ?_⟩
  · show ((t.cmRead e.tag e.core a cmd.bytes).1, some (t.cmRead e.tag e.core a cmd.bytes).2) = _
    rw [hread]
  · show (s3.mwyWrite r e.tag b d).cores[e.core] = _
    rw [hcores]
    exact hcore'
  · rw [← hdata, ← hmwy', ← mwyPlace_slices (hslices r)]
    exact hput

/-- A transfer from the midway, without errors in it, to an operand memory (R59, R161). -/
theorem dma_mwy_buf {t : State} {a b : Nat} {f : Option Nat} {m : FillBuf} (hsrc : cmd.src = .mwy b f) (hdst : cmd.dst = .buf m a)
    (hsize : b + cmd.bytes ≤ t.mwySize r) (hfill : fillOk m a cmd.bytes = true) (hmwy : t.mwyFlips = []) :
    ∃ v : State, t.dmaNow r e cmd = v.onCore e.core (dmaMoved e cmd) ∧ v.mwy = t.mwy ∧
      v.core e.core = opPut (fillBase m + a) (bytesGet (t.mwyPlace r) t.mwy t.mwyBad b cmd.bytes) (t.core e.core) := by
  obtain ⟨hdata, hmwy', hcores⟩ := mwyRead_noErrors hmwy r e.tag b cmd.bytes
  generalize hread : t.mwyRead r e.tag b cmd.bytes = p at hdata hmwy' hcores
  obtain ⟨s3, d⟩ := p
  dsimp only at hdata hmwy' hcores
  have hfrom : t.resolveEnd r e.core e.tag cmd.bytes false cmd.src = (t, some (.mwy b, none)) := by
    rw [hsrc]
    exact resolveEnd_mwy false hsize
  have hto : t.resolveEnd r e.core e.tag cmd.bytes true cmd.dst = (t, some (.buf m a, none)) := by
    rw [hdst, State.resolveEnd, if_pos hfill]
  refine ⟨s3.onCore e.core (opPut (fillBase m + a) d),
    dmaNow_moves (by rw [hsrc]; rfl) (by rw [hdst]; rfl) hfrom hto (s3 := s3) (d := d) ?_ rfl, hmwy', ?_⟩
  · show ((t.mwyRead r e.tag b cmd.bytes).1, some (t.mwyRead r e.tag b cmd.bytes).2) = _
    rw [hread]
  · rw [core_onCore, hdata, State.core, State.core, hcores]

/-- A transfer that is no fill of 16-bit blocks derives no exponents. -/
theorem fillExponents_none (k : Core) (h : cmd.fmt = none ∨ ∃ b f, cmd.dst = .mwy b f) : fillExponents cmd cmd.bytes k = k := by
  unfold fillExponents
  obtain h | ⟨b, f, h⟩ := h
  · rw [h]
    split
    next heq => cases heq
    next => rfl
  · rw [h]

theorem core_dmaMoved (v : State) (h : cmd.fmt = none ∨ ∃ b f, cmd.dst = .mwy b f) :
    (v.onCore e.core (dmaMoved e cmd)).core e.core =
      { v.core e.core with dmaBusy := some ⟨e.tag, cmd.marks, cmd.done, 0, none, false⟩ } := by
  rw [core_onCore, dmaMoved, fillExponents_none _ h]

end

/-- Settles O17: a transfer on this device, from core memory to the midway, from the midway to an operand memory, and a remote
one. -/
theorem dmaMovesItsBytes : Obligations.DmaMovesItsBytes := by
  unfold Obligations.DmaMovesItsBytes
  intro s e cmd r u hform hdone hstarts
  have hexec := execDma_ready hform hdone hstarts
  have hissued := issued_issueAt s e.core qDma e.tag e.gap.toNat 0 0 u
  have hslices := hissued.slicesOf r
  refine ⟨fun s1 s2 s3 s4 src dst sg dg d hsrc hdst hfrom hto hread hwrite => ?_,
    fun a b f hsrc hdst hin hsize hcore hmwy => ?_, fun b a f m hsrc hdst hfmt hsize hfill hmwy => ?_,
    fun s1 s2 src dst sg dg hremote hfrom hto => ?_⟩
  · rw [hexec, dmaNow_moves hsrc hdst hfrom hto hread hwrite]
    rfl
  · have hcore' := hissued.noErrors hcore
    have hflags := flags_issueAt_access s e.core e.tag e.gap.toNat 0 0 u (q := qDma) rfl
    generalize s.issueAt e.core qDma e.tag e.gap.toNat 0 0 u = t at hexec hissued hslices hcore' hflags
    obtain ⟨v, hmoved, hvcore, hvmwy⟩ := dma_cm_mwy (r := r) (e := e) hsrc hdst hin
      (by rw [mwySize_slices hslices]; exact hsize) hcore' (hissued.mwyFlips.trans hmwy)
    have hmem := (flushRange_noErrors a cmd.bytes hcore hcore' hissued.mem hissued.gather).2
    obtain ⟨hopnd, hkept, hdqs⟩ := flushRange_keeps a cmd.bytes (t.core e.core)
    rw [← hvcore] at hvmwy hmem hopnd hkept hdqs
    rw [mwyPlace_slices hslices, hissued.mwy] at hvmwy
    have hbusy := core_dmaMoved (e := e) v (Or.inr ⟨b, f, hdst⟩)
    refine ⟨_, hexec.trans (congrArg Host.Outcome.next hmoved), by rw [hbusy], fun i hi => ?_, fun p hp => ?_, ?_, ?_, ?_⟩
    · rw [← hmem, ← smGet_bytesPut_coreGet (v.core e.core) s.mwy hsize hi, ← hvmwy]
      rfl
    · rw [← smGet_bytesPut_coreGet_ne (v.core e.core) s.mwy hp, ← hvmwy]
      rfl
    · rw [hbusy]
      exact hopnd.trans hissued.opnd
    · rw [hbusy]
      exact hkept.trans hflags
    · rw [hbusy]
      exact hdqs.trans hissued.dqs
  · obtain ⟨v, hmoved, hvmwy, hvcore⟩ := dma_mwy_buf (r := r) (e := e) hsrc hdst
      (by rw [mwySize_slices hslices]; exact hsize) hfill (hissued.mwyFlips.trans hmwy)
    have hbusy := core_dmaMoved (e := e) v (Or.inl hfmt)
    have hopnd : (v.core e.core).opnd = smWrite 0 (s.core e.core).opnd (fillBase m + a)
        ((List.range cmd.bytes).map fun i => smGet 0 s.mwy (s.mwyPlace r (b + i))) := by
      rw [hvcore, opPut, rawBytes_bytesGet, hissued.opnd, hissued.mwy, mwyPlace_slices hslices]
    refine ⟨_, hexec.trans (congrArg Host.Outcome.next hmoved), by rw [hbusy], fun i hi => ?_, fun p hp => ?_, ?_, ?_,
      hvmwy.trans hissued.mwy⟩
    · rw [hbusy]
      dsimp only
      rw [hopnd, smGet_smWrite, List.length_map, List.length_range, if_pos ⟨by omega, by omega⟩, Nat.add_sub_cancel_left,
        List.getD_eq_getElem?_getD, List.getElem?_map, List.getElem?_range hi]
      rfl
    · rw [hbusy]
      dsimp only
      rw [hopnd, smGet_smWrite, List.length_map, List.length_range, if_neg (by omega)]
    · rw [hbusy, hvcore]
      exact hissued.mem
    · rw [hbusy, hvcore]
      exact hissued.sameMarks
  · rw [hexec, dmaNow_asks hremote hfrom hto]
    rfl

end Sys2Proof.Machine
end

section
/-! SUPPORT. The booth's bring-up (R76, R147, R166, R192, R360 to R362, R464): what a turn of the flash's controller leaves alone,
what the self-tests establish, the rings that a directory fails or loads, and the statement about it. -/

namespace Sys2Proof.Machine

/-! ## A fold that sets something for each of its elements -/

/-- What a step establishes for its element, and every step keeps, holds at the end for every element. -/
theorem foldl_establishes {α β : Type} {P : α → β → Prop} {f : β → α → β} (hset : ∀ s a, P a (f s a))
    (hkeep : ∀ s a b, P a s → P a (f s b)) (l : List α) (s : β) {a : α} (ha : a ∈ l) : P a (l.foldl f s) := by
  induction l generalizing s with
  | nil => cases ha
  | cons b l ih =>
    rcases List.mem_cons.mp ha with rfl | ha
    · exact foldl_keeps (fun t b => hkeep t a b) l _ (hset s a)
    · exact ih _ ha

/-! ## Turns of the flash's controller (R373, R382 to R387) -/

/-- The registers of the flash's controller. -/
def flashReg : Reg → Bool
  | .flsStatus | .flsGeometry | .flsCount _ => true
  | _ => false

/-- Those of the flash's controller and those in which the self-tests show the cores and the slices. -/
def testReg (q : Reg) : Bool :=
  flashReg q || match q with
    | .coreColwidth _ | .coreMemStatus _ | .mwySliceStatus _ => true
    | _ => false

/-- Nothing but the flash and the registers that may change differs. -/
structure FlashTurn (may : Reg → Bool) (s t : State) : Prop where
  rest : t = { s with flash := t.flash, regs := t.regs }
  regs : ∀ q : Reg, may q = false → t.reg q = s.reg q

section
variable {may : Reg → Bool} {s t u : State}

theorem FlashTurn.refl (may : Reg → Bool) (s : State) : FlashTurn may s s := ⟨rfl, fun _ _ => rfl⟩

theorem FlashTurn.trans (h : FlashTurn may s t) (g : FlashTurn may t u) : FlashTurn may s u :=
  ⟨by rw [g.rest, h.rest], fun q hq => (g.regs q hq).trans (h.regs q hq)⟩

theorem FlashTurn.mono {may' : Reg → Bool} (h : FlashTurn may s t) (hmay : ∀ q, may' q = false → may q = false) :
    FlashTurn may' s t := ⟨h.rest, fun q hq => h.regs q (hmay q hq)⟩

theorem FlashTurn.fld (h : FlashTurn may s t) {q : Reg} (hq : may q = false) (f : Fld) : t.fld q f = s.fld q f := by
  rw [State.fld, State.fld, h.regs q hq]

theorem FlashTurn.boot (h : FlashTurn may s t) : t.boot = s.boot := by rw [h.rest]
theorem FlashTurn.cores (h : FlashTurn may s t) : t.cores = s.cores := by rw [h.rest]
theorem FlashTurn.mwy (h : FlashTurn may s t) : t.mwy = s.mwy := by rw [h.rest]
theorem FlashTurn.mwyBad (h : FlashTurn may s t) : t.mwyBad = s.mwyBad := by rw [h.rest]
theorem FlashTurn.mwyFlips (h : FlashTurn may s t) : t.mwyFlips = s.mwyFlips := by rw [h.rest]

theorem FlashTurn.ite {b : Prop} {_ : Decidable b} (ht : FlashTurn may s t) (hu : FlashTurn may s u) :
    FlashTurn may s (if b then t else u) := by
  split
  · exact ht
  · exact hu

theorem FlashTurn.foldl {α : Type} {f : State → α → State} {x : List α} (h : FlashTurn may s t)
    (hf : ∀ t a, FlashTurn may s t → FlashTurn may s (f t a)) : FlashTurn may s (x.foldl f t) :=
  foldl_keeps (fun t a ht => hf t a ht) x t h

theorem FlashTurn.flash {f : Flash} (h : FlashTurn may s t) : FlashTurn may s { t with flash := f } :=
  h.trans ⟨rfl, fun _ _ => rfl⟩

theorem FlashTurn.setReg {g : Reg} {v : Word} (h : FlashTurn may s t) (hg : may g = true) : FlashTurn may s (t.setReg g v) := by
  refine h.trans ⟨rfl, fun q hq => reg_setReg_ne t v (addr_injective.ne ?_)⟩
  rintro rfl
  rw [hg] at hq
  cases hq

theorem FlashTurn.setFld {g : Reg} {f : Fld} {n : Nat} (h : FlashTurn may s t) (hg : may g = true) :
    FlashTurn may s (t.setFld g f n) := h.setReg hg

theorem FlashTurn.bump {g : Reg} {f : Fld} {n : Nat} (h : FlashTurn may s t) (hg : may g = true) :
    FlashTurn may s (t.bump g f n) := h.setReg hg

theorem FlashTurn.log {source code arg0 arg1 : Nat} (h : FlashTurn may s t) : FlashTurn may s (t.log source code arg0 arg1) :=
  .ite h.flash h.flash

end

section
variable {s t : State}

theorem FlashTurn.pushJob {j : FlashJob} (h : FlashTurn flashReg s t) : FlashTurn flashReg s (t.pushJob j) := by
  have hcounted := (h.flash (f := { t.flash with queue := t.flash.queue ++ [j] })).bump (g := .flsCount 3)
    (f := F.flsCount_COUNT) (n := 1) rfl
  exact .ite hcounted.flash h.flash

theorem FlashTurn.schedule {b : Nat} {rescue : Bool} (h : FlashTurn flashReg s t) : FlashTurn flashReg s (t.schedule b rescue) :=
  .ite h h.pushJob

theorem FlashTurn.tidyQueue (h : FlashTurn flashReg s t) : FlashTurn flashReg s t.tidyQueue := .ite h.flash h

theorem FlashTurn.flashIssue (h : FlashTurn flashReg s t) : FlashTurn flashReg s t.flashIssue := by
  have hcounted : FlashTurn flashReg s t.tidyQueue.countHeld := h.tidyQueue.bump rfl
  unfold State.flashIssue
  split
  · exact h
  · split
    · exact h.tidyQueue
    · exact .ite (.ite h.tidyQueue hcounted.flash) h.tidyQueue.flash

theorem FlashTurn.pushPages {area : Nat} {bytes : List Byte} {fresh : Bool} {next : AppendNext} (h : FlashTurn flashReg s t) :
    FlashTurn flashReg s (t.pushPages area bytes fresh next) := .ite h h.pushJob

theorem FlashTurn.appendEntry {area type : Nat} {body : List Byte} (h : FlashTurn flashReg s t) :
    FlashTurn flashReg s (t.appendEntry area type body) := h.flash.pushPages.flashIssue

theorem FlashTurn.writeHeader {k : Fin 2} {hd : SlotHeader} {next : HeaderNext} (h : FlashTurn flashReg s t) :
    FlashTurn flashReg s (t.writeHeader k hd next) := h.pushJob.flashIssue

theorem FlashTurn.logSecurity {source code arg0 arg1 : Nat} (h : FlashTurn flashReg s t) :
    FlashTurn flashReg s (t.logSecurity source code arg0 arg1) := .ite h.log h.flash.pushPages.flashIssue

theorem FlashTurn.readFailed {pg : Nat} (h : FlashTurn flashReg s t) : FlashTurn flashReg s (t.readFailed pg) := by
  have hshown := (h.bump (g := .flsCount 1) (f := F.flsCount_COUNT) (n := 1) rfl).setFld (g := .flsStatus)
    (f := F.flsStatus_UNCORRECTABLE) (n := 1) rfl
  exact .ite hshown.log hshown.logSecurity

theorem FlashTurn.countRead {b : Nat} (h : FlashTurn flashReg s t) : FlashTurn flashReg s (t.countRead b) :=
  .ite (.ite h.flash.schedule h.flash) h

theorem FlashTurn.readEnds {area pg : Nat} {noise : List (List (Nat × BitVec 10))} (h : FlashTurn flashReg s t) :
    FlashTurn flashReg s (t.readEnds area noise pg) := by
  unfold State.readEnds
  extract_lets s1
  have h1 : FlashTurn flashReg s s1 := h.countRead
  split
  · exact h1
  · split
    · exact h1.readFailed.schedule
    next n _ =>
      extract_lets s2 s3
      have h2 : FlashTurn flashReg s s2 := h1.bump rfl
      have h3 : FlashTurn flashReg s s3 := .ite h2.schedule h2
      exact .ite h3 h3.readFailed

theorem FlashTurn.readPages {area : Nat} {l : List Nat} (h : FlashTurn flashReg s t) : FlashTurn flashReg s (t.readPages area l) :=
  h.foldl fun _ _ h => h.readEnds

theorem FlashTurn.flashReady (h : FlashTurn flashReg s t) : FlashTurn flashReg s t.flashReady := by
  have htaken : FlashTurn flashReg s t.takeOver := .foldl (h.foldl fun _ _ h => h.readPages) fun _ _ h => h.readPages
  unfold State.flashReady
  extract_lets s0 table bad s1
  have h1 : FlashTurn flashReg s s1 := ((htaken.setFld rfl).setFld rfl).setFld rfl |>.setFld rfl
  exact h1.flash.flashIssue

end

/-- A header that waits keeps waiting when the next operation is issued (R386). -/
theorem header_mem_flashIssue {s : State} {k : Fin 2} {h : SlotHeader} {next : HeaderNext}
    (hj : FlashJob.header k h next ∈ s.flash.queue) : FlashJob.header k h next ∈ s.flashIssue.flash.queue := by
  have htidy : FlashJob.header k h next ∈ s.tidyQueue.flash.queue := by
    unfold State.tidyQueue
    split
    · exact List.mem_append_left _ (List.mem_filter.mpr ⟨hj, rfl⟩)
    · exact hj
  unfold State.flashIssue
  split
  · exact hj
  · split
    · exact htidy
    · dsimp only
      split
      · split
        · exact htidy
        · exact htidy
      · exact htidy

/-- A header to be written is on its way into the flash (R363, R386). -/
theorem header_mem_writeHeader (s : State) (k : Fin 2) (h : SlotHeader) (next : HeaderNext) :
    FlashJob.header k h next ∈ (s.writeHeader k h next).flash.queue := by
  refine header_mem_flashIssue ?_
  have hlast : FlashJob.header k h next ∈ s.flash.queue ++ [.header k h next] := by simp
  unfold State.pushJob
  dsimp only
  split
  · exact hlast
  · exact hlast

/-! ## The self-tests (R76, R147, R166) -/

/-- What the self-test shows of a slice. -/
def SliceShown (slicesBad : BitVec 8) (m : Fin 8) (t : State) : Prop :=
  t.fld (.mwySliceStatus m) F.mwySliceStatus_RETIRED = bitNat (slicesBad.getLsbD m.val) ∧
    t.fld (.mwySliceStatus m) F.mwySliceStatus_INIT_DONE = 1

/-- What the self-tests have established: memories zeroed, and the slices with their faults shown. -/
structure SelfTested (slicesBad : BitVec 8) (t : State) : Prop where
  coreDone : ∀ c : Fin 16, t.fld (.coreMemStatus c) F.coreMemStatus_INIT_DONE = 1
  coreMem : ∀ c : Fin 16, (t.core c).mem = [] ∧ (t.core c).memBad = [] ∧ (t.core c).memFlips = []
  midway : t.mwy = [] ∧ t.mwyBad = [] ∧ t.mwyFlips = []
  slices : ∀ m : Fin 8, SliceShown slicesBad m t

/-- It stands where neither memories nor the registers that show it change. -/
theorem SelfTested.keeps {b : BitVec 8} {s t : State} (h : SelfTested b s) (hcores : t.cores = s.cores)
    (hmwy : t.mwy = s.mwy ∧ t.mwyBad = s.mwyBad ∧ t.mwyFlips = s.mwyFlips)
    (hregs : ∀ q : Reg, (∃ c, q = .coreMemStatus c) ∨ (∃ m, q = .mwySliceStatus m) → t.reg q = s.reg q) : SelfTested b t := by
  obtain ⟨hm, hbad, hflips⟩ := hmwy
  refine ⟨fun c => ?_, fun c => ?_, ?_, fun m => ?_⟩
  · rw [State.fld, hregs _ (.inl ⟨c, rfl⟩)]
    exact h.coreDone c
  · rw [State.core, hcores]
    exact h.coreMem c
  · rw [hm, hbad, hflips]
    exact h.midway
  · rw [SliceShown, State.fld, State.fld, hregs _ (.inr ⟨m, rfl⟩)]
    exact h.slices m

section
variable (found : Vector (List Nat) 16) (confined : BitVec 16) (slicesBad : BitVec 8)

/-- The self-test of one core, with the log of its retirement. -/
def testOneCore (s : State) (c : Fin 16) : State :=
  (s.testCore found[c] (confined.getLsbD c.val) c).logRetired 0 c.val
    ((s.testCore found[c] (confined.getLsbD c.val) c).fld (.coreColwidth c) F.coreColwidth_RETIRED == 1)

/-- The self-test of one slice, with the log of its retirement. -/
def testOneSlice (s : State) (m : Fin 8) : State :=
  ((s.setFld (.mwySliceStatus m) F.mwySliceStatus_RETIRED (bitNat (slicesBad.getLsbD m.val))).setFld (.mwySliceStatus m)
    F.mwySliceStatus_INIT_DONE 1).logRetired 1 m.val (slicesBad.getLsbD m.val)

/-- Every core and every slice tested. -/
def unitsTested (s : State) : State :=
  (List.finRange 8).foldl (testOneSlice slicesBad) ((List.finRange 16).foldl (testOneCore found confined) s.zeroMemories)

theorem selfTest_eq (s : State) : s.selfTest found confined slicesBad =
    (unitsTested found confined slicesBad s).keepColumns found := rfl

variable {s t : State}

theorem FlashTurn.logRetired {may : Reg → Bool} {kind inst : Nat} {retired : Bool} (h : FlashTurn may s t) :
    FlashTurn may s (t.logRetired kind inst retired) := .ite h.log h

theorem FlashTurn.testOneCore {c : Fin 16} (h : FlashTurn testReg s t) :
    FlashTurn testReg s (testOneCore found confined t c) := by
  have htested : FlashTurn testReg s (t.testCore found[c] (confined.getLsbD c.val) c) := (h.setReg rfl).setFld rfl
  exact htested.logRetired

theorem FlashTurn.testOneSlice {m : Fin 8} (h : FlashTurn testReg s t) : FlashTurn testReg s (testOneSlice slicesBad t m) :=
  ((h.setFld rfl).setFld rfl).logRetired

theorem FlashTurn.keepColumns (h : FlashTurn flashReg s t) : FlashTurn flashReg s (t.keepColumns found) := .ite h h.appendEntry

/-- A retirement that is logged changes no register. -/
theorem reg_logRetired (s : State) (kind inst : Nat) (retired : Bool) (q : Reg) : (s.logRetired kind inst retired).reg q = s.reg q :=
  ((FlashTurn.refl (fun _ => false) s).logRetired).regs q rfl

theorem coreDone_testOneCore (s : State) (c : Fin 16) :
    (testOneCore found confined s c).fld (.coreMemStatus c) F.coreMemStatus_INIT_DONE = 1 := by
  rw [testOneCore, State.fld, reg_logRetired, ← State.fld, State.testCore, fld_setFld _ _ _ _ ⟨by decide, by decide⟩]
  rfl

theorem coreStatus_testOneCore_ne (s : State) {c b : Fin 16} (hb : b ≠ c) :
    (testOneCore found confined s b).reg (.coreMemStatus c) = s.reg (.coreMemStatus c) := by
  rw [testOneCore, reg_logRetired, State.testCore, reg_setFld_ne _ _ _ (addr_injective.ne (by simp [hb])),
    reg_setReg_ne _ _ (addr_injective.ne (by simp))]

theorem sliceShown_testOneSlice (s : State) (m : Fin 8) : SliceShown slicesBad m (testOneSlice slicesBad s m) := by
  constructor
  · rw [testOneSlice, State.fld, reg_logRetired, ← State.fld,
      fld_setFld_other _ _ _ _ _ ⟨by decide, by decide⟩ (by decide) (by decide), fld_setFld _ _ _ _ ⟨by decide, by decide⟩]
    cases slicesBad.getLsbD m.val
    · rfl
    · rfl
  · rw [testOneSlice, State.fld, reg_logRetired, ← State.fld, fld_setFld _ _ _ _ ⟨by decide, by decide⟩]
    rfl

theorem sliceStatus_testOneSlice_ne (s : State) {m b : Fin 8} (hb : b ≠ m) :
    (testOneSlice slicesBad s b).reg (.mwySliceStatus m) = s.reg (.mwySliceStatus m) := by
  rw [testOneSlice, reg_logRetired, reg_setFld_ne _ _ _ (addr_injective.ne (by simp [hb])),
    reg_setFld_ne _ _ _ (addr_injective.ne (by simp [hb]))]

theorem coreStatus_testOneSlice (s : State) (c : Fin 16) (m : Fin 8) :
    (testOneSlice slicesBad s m).reg (.coreMemStatus c) = s.reg (.coreMemStatus c) := by
  rw [testOneSlice, reg_logRetired, reg_setFld_ne _ _ _ (addr_injective.ne (by simp)),
    reg_setFld_ne _ _ _ (addr_injective.ne (by simp))]

/-- Every core has been tested once all have had their turn. -/
theorem coreDone_foldl (s : State) (c : Fin 16) :
    ((List.finRange 16).foldl (testOneCore found confined) s).fld (.coreMemStatus c) F.coreMemStatus_INIT_DONE = 1 := by
  refine foldl_establishes (P := fun (c : Fin 16) (t : State) => t.fld (.coreMemStatus c) F.coreMemStatus_INIT_DONE = 1)
    (coreDone_testOneCore found confined) (fun t c b ht => ?_) _ s (List.mem_finRange c)
  by_cases hb : b = c
  · rw [hb]
    exact coreDone_testOneCore found confined t c
  · rw [State.fld, coreStatus_testOneCore_ne found confined t hb]
    exact ht

theorem sliceShown_foldl (s : State) (m : Fin 8) : SliceShown slicesBad m ((List.finRange 8).foldl (testOneSlice slicesBad) s) := by
  refine foldl_establishes (P := SliceShown slicesBad) (sliceShown_testOneSlice slicesBad) (fun t m b ht => ?_) _ s
    (List.mem_finRange m)
  by_cases hb : b = m
  · rw [hb]
    exact sliceShown_testOneSlice slicesBad t m
  · rw [SliceShown, State.fld, State.fld, sliceStatus_testOneSlice_ne slicesBad t hb]
    exact ht

/-- The self-tests change, besides the memories, the flash and the registers that show them. -/
theorem FlashTurn.selfTest (s : State) : FlashTurn testReg s.zeroMemories (s.selfTest found confined slicesBad) := by
  have htests : FlashTurn testReg s.zeroMemories (unitsTested found confined slicesBad s) :=
    ((FlashTurn.refl testReg s.zeroMemories).foldl fun _ _ h => h.testOneCore found confined).foldl
      fun _ _ h => h.testOneSlice slicesBad
  rw [selfTest_eq]
  exact htests.trans (((FlashTurn.refl flashReg _).keepColumns found).mono fun q hq => (Bool.or_eq_false_iff.mp hq).1)

theorem boot_selfTest (s : State) : (s.selfTest found confined slicesBad).boot = s.boot :=
  (FlashTurn.selfTest found confined slicesBad s).boot

theorem selfTested_selfTest (s : State) : SelfTested slicesBad (s.selfTest found confined slicesBad) := by
  have hrest := FlashTurn.selfTest found confined slicesBad s
  have hlast : FlashTurn flashReg (unitsTested found confined slicesBad s) (s.selfTest found confined slicesBad) :=
    (FlashTurn.refl flashReg _).keepColumns found
  refine ⟨fun c => ?_, fun c => ?_, ⟨hrest.mwy, hrest.mwyBad, hrest.mwyFlips⟩, fun m => ?_⟩
  · rw [hlast.fld rfl, State.fld, unitsTested,
      foldl_same (fun t : State => t.reg (.coreMemStatus c)) _ _ fun t m => coreStatus_testOneSlice slicesBad t c m]
    exact coreDone_foldl found confined _ c
  · rw [State.core, hrest.cores, State.zeroMemories, Fin.getElem_fin, Vector.getElem_map]
    exact ⟨rfl, rfl, rfl⟩
  · rw [SliceShown, hlast.fld rfl, hlast.fld rfl]
    exact sliceShown_foldl slicesBad _ m

end

/-! ## DRAM that is not used (R192) -/

/-- Where no DRAM is used, DDR_STATUS says so, and no other register and no memory changes. -/
structure DramFailed (s t : State) : Prop where
  rest : t = { s with pins := t.pins, regs := t.regs }
  regs : ∀ q : Reg, q ≠ .ddrStatus → t.reg q = s.reg q
  failed : t.fld .ddrStatus F.ddrStatus_FAILED = 1

theorem dramFailed_dramFailed (s : State) (p : Pins) (failed : Nat) :
    DramFailed s (({ s with pins := p } : State).dramFailed failed) := by
  have hturn : OnlyRegs [.ddrStatus] ({ s with pins := p } : State) (({ s with pins := p } : State).dramFailed failed) :=
    (onlyRegs_setFld _ _ _ _).setFld _ _ (by simp)
  have hpins : (({ s with pins := p } : State).dramFailed failed).pins = p := by rw [hturn.1]
  refine ⟨by rw [hpins]; exact hturn.1, fun q hq => ?_, ?_⟩
  · exact hturn.2 q (by simpa using hq)
  · rw [State.dramFailed, fld_setFld_other _ _ _ _ _ ⟨by decide, by decide⟩ (by decide) (by decide),
      fld_setFld _ _ _ _ ⟨by decide, by decide⟩]
    rfl

/-- Each of the three ways in which DRAM is not brought up. -/
theorem dramFailed_of_dramUp {s t : State} {d : DramTraining} (h : s.dramUp d = (t, false)) : DramFailed s t := by
  unfold State.dramUp at h
  dsimp only at h
  split at h
  · obtain ⟨rfl, -⟩ := Prod.mk.inj h
    exact dramFailed_dramFailed s _ _
  · split at h
    · obtain ⟨rfl, -⟩ := Prod.mk.inj h
      exact dramFailed_dramFailed s _ _
    · split at h
      · obtain ⟨rfl, -⟩ := Prod.mk.inj h
        exact dramFailed_dramFailed s _ _
      · cases (Prod.mk.inj h).2

/-- BOOT_STATUS. -/
def bootStatusReg : Reg → Bool
  | .bootStatus => true
  | _ => false

/-- The bring-up halted because no DRAM is used. -/
def haltedBringUp (s : State) : State :=
  ((s.setFld .bootStatus F.bootStatus_STAGE 7).setFld .bootStatus F.bootStatus_HALT_CAUSE 1).log logBooth 0x83
    (s.reg .ddrStatus).toNat 0

theorem flashTurn_haltedBringUp (s : State) : FlashTurn bootStatusReg s (haltedBringUp s) :=
  (((FlashTurn.refl bootStatusReg s).setFld rfl).setFld rfl).log

theorem haltedBringUp_shows (s : State) : (haltedBringUp s).fld .bootStatus F.bootStatus_STAGE = 7 ∧
    (haltedBringUp s).fld .bootStatus F.bootStatus_HALT_CAUSE = 1 := by
  have hlog : FlashTurn (fun _ => false) _ (haltedBringUp s) := (FlashTurn.refl _ _).log
  constructor
  · rw [hlog.fld rfl, fld_setFld_other _ _ _ _ _ ⟨by decide, by decide⟩ (by decide) (by decide),
      fld_setFld _ _ _ _ ⟨by decide, by decide⟩]
    rfl
  · rw [hlog.fld rfl, fld_setFld _ _ _ _ ⟨by decide, by decide⟩]
    rfl

/-- A bring-up that finds no DRAM to use halts with ALERT_N, the memories tested and zeroed (R192). -/
theorem haltedBringUp_stands {b : BitVec 8} {s t : State} (htested : SelfTested b s) (hphase : s.boot.phase = .handedOver)
    (h : DramFailed s t) : SelfTested b (haltedBringUp t) ∧ (haltedBringUp t).alert = true ∧
    (haltedBringUp t).fld .ddrStatus F.ddrStatus_FAILED = 1 := by
  have hturn := flashTurn_haltedBringUp t
  obtain ⟨hrest, hregs, hfailed⟩ := h
  refine ⟨htested.keeps ?_ ⟨?_, ?_, ?_⟩ fun q hq => ?_, ?_, (hturn.fld rfl _).trans hfailed⟩
  · rw [hturn.cores, hrest]
  · rw [hturn.mwy, hrest]
  · rw [hturn.mwyBad, hrest]
  · rw [hturn.mwyFlips, hrest]
  · obtain ⟨c, rfl⟩ | ⟨m, rfl⟩ := hq
    · exact (hturn.regs _ rfl).trans (hregs _ (by simp))
    · exact (hturn.regs _ rfl).trans (hregs _ (by simp))
  · obtain ⟨-, hcause⟩ := haltedBringUp_shows t
    have hhere : (haltedBringUp t).boot.phase = .handedOver := by rw [hturn.boot, hrest, hphase]
    rw [State.alert, hhere, hcause]
    simp

/-! ## The rings that a directory fails (R361) -/

theorem status_failRing_ne (s : State) {r q : Fin 8} (cause : Nat) (hr : q ≠ r) :
    (s.failRing q cause).reg (.ringManifestStatus r) = s.reg (.ringManifestStatus r) := by
  have hne : (Reg.ringManifestStatus q).addr ≠ (Reg.ringManifestStatus r).addr := addr_injective.ne (by simp [hr])
  unfold State.failRing State.setRingState
  rw [reg_setFld_ne _ _ _ (addr_injective.ne (by simp)), reg_setFld_ne _ _ _ hne, reg_setFld_ne _ _ _ hne, reg_onRing]

/-- A ring has failed because of the directory. -/
def FormatFailed (r : Fin 8) (t : State) : Prop :=
  t.ringState r = stFailed ∧ t.fld (.ringManifestStatus r) F.ringManifestStatus_CAUSE = cauFormat

theorem formatFailed_reg {r : Fin 8} {s t : State} (h : FormatFailed r s)
    (hreg : t.reg (.ringManifestStatus r) = s.reg (.ringManifestStatus r)) : FormatFailed r t := by
  rw [FormatFailed, State.ringState, State.fld, hreg]
  exact h

theorem formatFailed_failRing (s : State) (r : Fin 8) : FormatFailed r (s.failRing r cauFormat) := by
  obtain ⟨hstate, hcause, -⟩ := failRing_shows s r (cause := cauFormat) (by decide)
  exact ⟨hstate, hcause⟩

theorem formatFailed_foldl (s : State) (r : Fin 8) :
    FormatFailed r ((List.finRange 8).foldl (fun s r => s.failRing r cauFormat) s) := by
  refine foldl_establishes (P := FormatFailed) formatFailed_failRing (fun t r q ht => ?_) _ s (List.mem_finRange r)
  by_cases hq : q = r
  · rw [hq]
    exact formatFailed_failRing t r
  · exact formatFailed_reg ht (status_failRing_ne t cauFormat hq)

/-- A bad directory ends the boot, with every ring failed (R361). -/
theorem deployRings_bad {s : State} (h : s.dirOk = false) : s.deployRings.bootDone = true ∧ s.deployRings.boot.dirBad = true ∧
    ∀ r, FormatFailed r s.deployRings := by
  unfold State.deployRings
  rw [if_neg (by rw [h]; exact Bool.false_ne_true)]
  refine ⟨?_, ?_, fun r => formatFailed_reg (formatFailed_foldl _ r) (reg_setFld_ne _ _ _ (addr_injective.ne (by simp)))⟩
  · rw [State.bootDone, fld_setFld _ _ _ _ ⟨by decide, by decide⟩]
    rfl
  · rw [setFld_boot, foldl_same State.boot]

/-! ## The rings that a directory loads (R360 step 6, R361) -/

theorem boot_startRunning (s : State) (r : Fin 8) : (s.startRunning r).boot = s.boot :=
  ((ShownKept.refl [.ringManifestStatus r, .ringEvent r] s).startRunning (by simp) (by simp)).boot

theorem boot_endBoot (s : State) : s.endBoot.boot = s.boot := by
  unfold State.endBoot
  split
  · rfl
  · refine foldl_same State.boot _ _ fun t r => ?_
    split
    · exact boot_startRunning t r
    · rfl

/-- The boot does not end while a ring is still to be loaded (R360). -/
theorem endBoot_loading {s : State} {r : Fin 8} (hload : s.ringState r = stLoading) (hbound : (s.ring r).bound = false) :
    s.endBoot = s := by
  have hover : s.loadsOver = false := by
    rw [State.loadsOver, List.all_eq_false]
    exact ⟨r, List.mem_finRange r, by simp [hload, hbound]⟩
  unfold State.endBoot
  rw [if_pos (by rw [hover]; simp)]

theorem ringState_enterLoading (s : State) (r : Fin 8) : (s.enterLoading r).ringState r = stLoading := by
  rw [ringState_eq_fld, State.fld, status_enterLoading]
  exact (setRingState_fields s r (by decide) (by decide)).1

theorem ringState_enterLoading_ne (s : State) {r q : Fin 8} (hq : q ≠ r) : (s.enterLoading q).ringState r = s.ringState r := by
  have hkeeps : Reg.ringManifestStatus r ∉ loadingRegs q := by simp [loadingRegs, ringCounters, hq.symm]
  have hne : (Reg.ringManifestStatus q).addr ≠ (Reg.ringManifestStatus r).addr := addr_injective.ne (by simp [hq])
  rw [State.ringState, State.ringState, (onlyRegs_enterLoading s q).2 _ hkeeps, loadingMarked, reg_onRing, State.setRingState,
    reg_setFld_ne _ _ _ hne, reg_setFld_ne _ _ _ hne]

theorem bound_enterLoading (s : State) (r q : Fin 8) : ((s.enterLoading q).ring r).bound = (s.ring r).bound := by
  rw [ring_enterLoading, loadingMarked]
  by_cases hq : q = r
  · rw [hq, ring_onRing]
    rfl
  · rw [ring_onRing_ne _ _ hq]
    rfl

theorem boot_enterLoading (s : State) (r : Fin 8) : (s.enterLoading r).boot = s.boot := by
  rw [(onlyRegs_enterLoading s r).1]
  rfl

/-- Every ring of a list, none of them bound, has entered LOADING once all have had their turn. -/
theorem ringState_foldl_enterLoading {l : List (Fin 8)} (s : State) {r : Fin 8} (hr : r ∈ l) :
    (l.foldl (fun s r => s.enterLoading r) s).ringState r = stLoading := by
  refine foldl_establishes (P := fun (r : Fin 8) (t : State) => t.ringState r = stLoading)
    ringState_enterLoading (fun t r q ht => ?_) l s hr
  by_cases hq : q = r
  · rw [hq]
    exact ringState_enterLoading t r
  · exact (ringState_enterLoading_ne t hq).trans ht

theorem boot_loadRings (s : State) : s.loadRings.boot = s.boot := by
  rw [State.loadRings, boot_endBoot, foldl_same State.boot _ _ boot_enterLoading]
  rfl

/-- The rings that a manifest names are in LOADING, where none is bound yet (R360 step 6). -/
theorem ringState_loadRings {s : State} (hbound : ∀ r : Fin 8, (s.ring r).bound = false) {r : Fin 8}
    (hr : s.manifestsOf r.val ≠ []) : s.loadRings.ringState r = stLoading := by
  have hmem : r ∈ (List.finRange 8).filter fun r => !(s.manifestsOf r.val).isEmpty :=
    List.mem_filter.mpr ⟨List.mem_finRange r, by simpa using hr⟩
  have hload := ringState_foldl_enterLoading (s.setFld .bootStatus F.bootStatus_STAGE 5) hmem
  rw [State.loadRings, endBoot_loading hload]
  · exact hload
  · rw [foldl_same (fun t : State => (t.ring r).bound) _ _ fun t q => bound_enterLoading t r q]
    exact hbound r

/-- What the log does not change, the log of what names no ring does not. -/
theorem logIgnored_same {γ : Type} (view : State → γ)
    (hview : ∀ t source code arg0 arg1, view (State.log t source code arg0 arg1) = view t) (s : State) : view s.logIgnored = view s := by
  have hlog : ∀ (b : Prop) [Decidable b] (t : State) (code arg0 arg1 : Nat),
      view (if b then t.log logBooth code arg0 arg1 else t) = view t := fun b _ t code arg0 arg1 => by
    split
    · exact hview t _ _ _ _
    · rfl
  unfold State.logIgnored
  exact (foldl_same view _ _ fun t i => hlog _ t _ _ _).trans (foldl_same view _ _ fun t i => hlog _ t _ _ _)

theorem bound_startApp (s : State) (r : Fin 8) : (s.startApp.ring r).bound = (s.ring r).bound := by
  unfold State.startApp
  extract_lets s1 base image s2 s3
  have h1 : s1.ring r = s.ring r := rfl
  have h2 : (s2.ring r).bound = (s.ring r).bound := by
    clear_value s1 image base
    rw [← h1]
    unfold s2
    split
    · rfl
    · rw [(reports_ownWrite s1 .app base image).ring r]
  clear_value s2
  exact h2

/-- A directory that holds starts the application cores and loads the rings with manifests (R361). -/
theorem deployRings_good {s : State} (h : s.dirOk = true) (hbound : ∀ r : Fin 8, (s.ring r).bound = false) :
    s.deployRings.boot.appRunning = true ∧
    ∀ r : Fin 8, s.startApp.logIgnored.manifestsOf r.val ≠ [] → s.deployRings.ringState r = stLoading := by
  unfold State.deployRings
  rw [if_pos h]
  refine ⟨?_, fun r hr => ringState_loadRings (fun q => ?_) hr⟩
  · rw [boot_loadRings, logIgnored_same State.boot fun t _ _ _ _ => ((FlashTurn.refl (fun _ => false) t).log).boot]
    rfl
  · rw [logIgnored_same (fun t => (t.ring q).bound) fun t _ _ _ _ => by rw [(reports_log t _ _ _ _).ring q], bound_startApp]
    exact hbound q

/-! ## The bring-up (R360, R362) -/

/-- DEPLOYMENT read, and step 4 of R360 shown. -/
def deploymentRead (s : State) : State :=
  (s.readPages (slotArea s.runningSlot)
    (s.containerPages s.runningSlot [((s.slotSet s.runningSlot).getD []).getD 2 (0, [])])).setFld .bootStatus F.bootStatus_STAGE 4

theorem deployNow_verified {s : State} {image : List Byte}
    (himage : image = s.slotContainer s.runningSlot (((s.slotSet s.runningSlot).getD []).getD 2 (0, [])))
    (h : s.deployCause image = 0) : s.deployNow = ((deploymentRead s).copyDeployment image).deployRings := by
  subst himage
  unfold State.deployNow
  dsimp only
  rw [h]
  rfl

theorem deployNow_fails {s : State} {image : List Byte} {cause : Nat}
    (himage : image = s.slotContainer s.runningSlot (((s.slotSet s.runningSlot).getD []).getD 2 (0, [])))
    (h : s.deployCause image = cause) (hcause : cause ≠ 0) : s.deployNow =
      (deploymentRead s).writeHeader s.runningSlot (s.failedHeader s.runningSlot cause) (.restart s.runningSlot cause) := by
  subst himage
  unfold State.deployNow
  dsimp only
  rw [h]
  split
  · exact absurd rfl hcause
  · rfl

section
variable {s s2 : State} {found : Vector (List Nat) 16} {confined : BitVec 16} {slicesBad : BitVec 8} {d : DramTraining}

theorem exec_boothBringUp (hphase : s.boot.phase = .handedOver) (hstage : s.fld .bootStatus F.bootStatus_STAGE = 1) :
    exec (.boothBringUp found confined slicesBad d) s = .next (s.bringUp found confined slicesBad d) :=
  congrArg Host.Outcome.next (if_pos ⟨hphase, hstage⟩)

theorem bringUp_halts (h : (s.flashReady.selfTest found confined slicesBad).dramUp d = (s2, false)) :
    s.bringUp found confined slicesBad d = haltedBringUp s2 := by
  unfold State.bringUp
  dsimp only
  rw [h]
  rfl

theorem bringUp_goes (h : (s.flashReady.selfTest found confined slicesBad).dramUp d = (s2, true)) :
    s.bringUp found confined slicesBad d =
      if s2.applyRecords.firstVoltage.inRecovery then s2.applyRecords.firstVoltage.setFld .bootStatus F.bootStatus_STAGE stageDone
      else s2.applyRecords.firstVoltage.deployNow := by
  unfold State.bringUp
  dsimp only
  rw [h]

end

/-- Settles O43: the halt without DRAM, the end under a recovery image, and the three ends of the copy of DEPLOYMENT. -/
theorem bringUpLoadsTheRings : Obligations.BringUpLoadsTheRings := by
  unfold Obligations.BringUpLoadsTheRings
  intro s found confined slicesBad d s1 hphase hstage hs1
  subst hs1
  have hexec := exec_boothBringUp (found := found) (confined := confined) (slicesBad := slicesBad) (d := d) hphase hstage
  refine ⟨fun s2 hfail => ?_, fun s2 s3 hup hs3 => ?_⟩
  · have hboot : (s.flashReady.selfTest found confined slicesBad).boot = s.boot :=
      (boot_selfTest found confined slicesBad s.flashReady).trans ((FlashTurn.refl flashReg s).flashReady).boot
    obtain ⟨htested, halert, hfailed⟩ := haltedBringUp_stands (selfTested_selfTest found confined slicesBad s.flashReady)
      ((congrArg Boot.phase hboot).trans hphase) (dramFailed_of_dramUp hfail)
    obtain ⟨hstage', hcause⟩ := haltedBringUp_shows s2
    obtain ⟨hmwy, hbad, hflips⟩ := htested.midway
    rw [hexec, bringUp_halts hfail]
    exact ⟨_, rfl, hstage', hcause, halert, hfailed, fun c => ⟨htested.coreDone c, htested.coreMem c⟩, hmwy, hbad, hflips,
      fun m => htested.slices m⟩
  · rw [hexec, bringUp_goes hup, ← hs3]
    refine ⟨fun hrec => ?_, fun k p image s4 hrec hk hp himage hs4 => ?_⟩
    · rw [if_pos hrec]
      refine ⟨_, rfl, ?_, rfl, by rw [hs3]; rfl⟩
      rw [State.bootDone, fld_setFld _ _ _ _ ⟨by decide, by decide⟩]
      rfl
    · rw [if_neg (by rw [hrec]; exact Bool.false_ne_true)]
      subst hk hp
      refine ⟨fun hok hdir => ?_, fun hok hdir hbound => ?_, fun cause hcause hne => ?_⟩
      · obtain ⟨hdone, hbad, hrings⟩ := deployRings_bad hdir
        rw [deployNow_verified himage hok]
        rw [hs4] at hdone hbad hrings
        exact ⟨_, rfl, hdone, hbad, hrings⟩
      · obtain ⟨happ, hrings⟩ := deployRings_good hdir hbound
        rw [deployNow_verified himage hok]
        rw [hs4] at happ hrings ⊢
        exact ⟨_, rfl, happ, hrings⟩
      · rw [deployNow_fails himage hcause hne]
        refine ⟨_, rfl, ?_, header_mem_writeHeader _ _ _ _⟩
        rw [State.bootDone, ((FlashTurn.refl flashReg _).writeHeader).fld rfl, deploymentRead,
          fld_setFld _ _ _ _ ⟨by decide, by decide⟩]
        rfl

end Sys2Proof.Machine
end

section
/-! SUPPORT. Magnitudes as rational numbers, the code8 table and the derived exponent (R83, R94, R95, R98, R101), and the
statement about them. -/

namespace Sys2Proof.Machine

/-! ## Magnitudes compared -/

/-- The integer multiple of a power of two that a magnitude is compared by, as a rational number. -/
theorem cast_mul_two_pow (m : Nat) {e k : Int} (h : k ≤ e) :
    ((m * 2 ^ (e - k).toNat : Nat) : ℚ) = (m : ℚ) * 2 ^ e / 2 ^ k := by
  have hpow : (2 : ℚ) ^ e = 2 ^ (e - k).toNat * 2 ^ k := by
    rw [← zpow_natCast, Int.toNat_of_nonneg (sub_nonneg.mpr h), ← zpow_add₀ two_ne_zero, sub_add_cancel]
  rw [hpow, Nat.cast_mul, Nat.cast_pow, Nat.cast_ofNat, ← mul_assoc, mul_div_cancel_right₀ _ (zpow_ne_zero k two_ne_zero)]

theorem magLe_iff (m1 : Nat) (e1 : Int) (m2 : Nat) (e2 : Int) :
    magLe m1 e1 m2 e2 = true ↔ (m1 : ℚ) * 2 ^ e1 ≤ (m2 : ℚ) * 2 ^ e2 := by
  unfold magLe
  rw [decide_eq_true_iff, ← Nat.cast_le (α := ℚ), cast_mul_two_pow m1 (min_le_left e1 e2),
    cast_mul_two_pow m2 (min_le_right e1 e2), div_le_div_iff_of_pos_right (zpow_pos two_pos _)]

theorem not_magLe_iff (m1 : Nat) (e1 : Int) (m2 : Nat) (e2 : Int) :
    (!magLe m1 e1 m2 e2) = true ↔ (m2 : ℚ) * 2 ^ e2 < (m1 : ℚ) * 2 ^ e1 := by
  rw [Bool.not_eq_true', ← Bool.not_eq_true, magLe_iff, not_le]

/-! ## code8 (R83) -/

theorem expand_code8 {c : Nat} (h : c < 256) : expand .code8 c = .fin (decide (128 ≤ c)) (code8Mag (c % 128)) (-8) := by
  have hsign : (c / 128 % 2 == 1) = decide (128 ≤ c) := by
    rw [beq_eq_decide]
    exact decide_eq_decide.mpr (by omega)
  rw [← hsign]
  rfl

/-- The magnitudes of R83, segment by segment. -/
theorem code8Mag_segments (m : Nat) :
    (m ≤ 71 → (code8Mag m : ℚ) / 256 = (m : ℚ) / 256) ∧
    (72 ≤ m → m ≤ 103 → (code8Mag m : ℚ) / 256 = ((m : ℚ) - 36) / 128) ∧
    (104 ≤ m → m ≤ 119 → (code8Mag m : ℚ) / 256 = ((m : ℚ) - 70) / 64) ∧
    (120 ≤ m → (code8Mag m : ℚ) / 256 = ((m : ℚ) - 95) / 32) := by
  unfold code8Mag
  refine ⟨fun h => ?_, fun h1 h2 => ?_, fun h1 h2 => ?_, fun h => ?_⟩
  · rw [if_pos h]
  · rw [if_neg (by omega), if_pos h2, Nat.cast_mul, Nat.cast_sub (by omega)]
    push_cast
    ring
  · rw [if_neg (by omega), if_neg (by omega), if_pos h2, Nat.cast_mul, Nat.cast_sub (by omega)]
    push_cast
    ring
  · rw [if_neg (by omega), if_neg (by omega), if_neg (by omega), Nat.cast_mul, Nat.cast_sub (by omega)]
    push_cast
    ring

/-- The steps between the magnitudes, which join the segments without a gap. -/
theorem code8Mag_succ (m : Nat) : code8Mag (m + 1) =
    code8Mag m + (if m ≤ 71 then 1 else if m ≤ 103 then 2 else if m ≤ 119 then 4 else 8) := by
  unfold code8Mag
  split_ifs <;> omega

/-! ## Codes that the quantiser writes (R94, R95) -/

theorem nearestIn_lt (k : Nat) (q : Int) (l : List Int) {n i : Nat} {best : Nat × Nat} (hbest : best.1 < n)
    (hlen : i + l.length ≤ n) : nearestIn k q i l best < n := by
  induction l generalizing i best with
  | nil => exact hbest
  | cons v t ih =>
    rw [List.length_cons] at hlen
    unfold nearestIn
    refine ih ?_ (by omega)
    split
    · show i < n
      omega
    · exact hbest

/-- The nearest grid point is one of the grid's. -/
theorem nearest_lt {grid : List Int} {n : Nat} (hlen : grid.length = n) (hn : 0 < n) (neg : Bool) (m : Nat) (e : Int) :
    nearest grid neg m e < n := by
  cases grid with
  | nil => exact hn
  | cons v t => exact nearestIn_lt _ _ t hn ((Nat.add_comm 1 _).trans hlen).le

/-- A magnitude index with its sign is never code 0x80, since a zero is written without its sign. -/
theorem signed_index_ne_0x80 {i : Nat} (h : i < 128) (neg : Bool) : (if i = 0 then 0 else i + 128 * bitNat neg) ≠ 0x80 := by
  cases neg <;> simp only [bitNat] <;> split_ifs <;> omega

theorem satCode_code8_ne_0x80 (neg : Bool) : satCode .code8 neg ≠ 0x80 := by
  cases neg <;> decide

theorem narrow_code8_ne_0x80 (E : Nat) (neg : Bool) (m : Nat) (e : Int) : (narrow .code8 E neg m e).1 ≠ 0x80 := by
  unfold narrow
  dsimp only
  split
  · exact satCode_code8_ne_0x80 neg
  · have hlen : ((List.range 128).map fun i => (code8Mag i : Int)).length = 128 := by
      rw [List.length_map, List.length_range]
    have hindex := nearest_lt hlen (by decide) false m (e + (127 - (E : Int)))
    dsimp only
    exact signed_index_ne_0x80 hindex neg

theorem quantise_code8_ne_0x80 (E : Nat) (w : Word) : (quantise .code8 E w).1 ≠ 0x80 := by
  unfold quantise
  split
  · exact narrow_code8_ne_0x80 E _ _ _
  · exact satCode_code8_ne_0x80 _
  · decide

/-! ## Derived exponents (R98) and what a group is measured against (R101) -/

section
variable {f : ArrFmt} {w : Word} {m : Nat} {e : Int}

/-- Under exponent `E` the format represents a magnitude: it is at most the group's representable maximum (R98). -/
def Represents (f : ArrFmt) (m : Nat) (e : Int) (E : Nat) : Prop :=
  (m : ℚ) * 2 ^ e ≤ (fmtMax f : ℚ) * 2 ^ ((E : Int) - 127)

theorem derivedExp_of_fin (h : f32.decode w.toNat = .fin false m e) : derivedExp f w =
    ((List.range 256).find? fun E : Nat => magLe m e (fmtMax f) ((E : Int) - 127)).getD 255 := by
  unfold derivedExp
  rw [h]
  rfl

/-- The search over the exponents stops at the first that represents the magnitude. -/
theorem derivedExp_least (h : f32.decode w.toNat = .fin false m e) (hex : ∃ E ≤ 255, Represents f m e E) :
    derivedExp f w ≤ 255 ∧ Represents f m e (derivedExp f w) ∧ ∀ E, Represents f m e E → derivedExp f w ≤ E := by
  rw [derivedExp_of_fin h]
  cases hfind : (List.range 256).find? fun E : Nat => magLe m e (fmtMax f) ((E : Int) - 127) with
  | none =>
    obtain ⟨E, hE, hrep⟩ := hex
    exact absurd ((magLe_iff _ _ _ _).mpr hrep) (List.find?_eq_none.mp hfind E (List.mem_range.mpr (by omega)))
  | some D =>
    obtain ⟨hrep, hrange, hbelow⟩ := List.find?_range_eq_some.mp hfind
    have hD : D < 256 := List.mem_range.mp hrange
    refine ⟨Nat.le_of_lt_succ hD, (magLe_iff _ _ _ _).mp hrep, fun E hE => ?_⟩
    by_contra hlt
    have hno := hbelow E (not_le.mp hlt)
    rw [(magLe_iff _ _ _ _).mpr hE] at hno
    exact Bool.noConfusion hno

theorem derivedExp_of_none (h : f32.decode w.toNat = .fin false m e) (hno : ∀ E ≤ 255, ¬ Represents f m e E) :
    derivedExp f w = 255 := by
  have hfind : ((List.range 256).find? fun E : Nat => magLe m e (fmtMax f) ((E : Int) - 127)) = none :=
    List.find?_eq_none.mpr fun E hE hle =>
      hno E (Nat.le_of_lt_succ (List.mem_range.mp hE)) ((magLe_iff _ _ _ _).mp hle)
  rw [derivedExp_of_fin h, hfind]
  rfl

variable {l : List Word}

/-- A group overflows above twice its representable maximum. -/
theorem measure_tooBig_iff (h : f32.decode (largest l).toNat = .fin false m e) (E : Nat) :
    (measure f E l).tooBig = true ↔ 2 * ((fmtMax f : ℚ) * 2 ^ ((E : Int) - 127)) < (m : ℚ) * 2 ^ e := by
  have htwice : 2 * ((fmtMax f : ℚ) * 2 ^ ((E : Int) - 127)) = (fmtMax f : ℚ) * 2 ^ ((E : Int) - 127 + 1) := by
    rw [zpow_add_one₀ two_ne_zero]
    ring
  unfold measure
  dsimp only
  rw [h, htwice]
  exact not_magLe_iff _ _ _ _

/-- A group is under-used below a sixteenth of its representable maximum, unless it is zero. -/
theorem measure_tooSmall_iff (h : f32.decode (largest l).toNat = .fin false m e) (E : Nat) :
    (measure f E l).tooSmall = true ↔
      0 < (m : ℚ) * 2 ^ e ∧ (m : ℚ) * 2 ^ e < (fmtMax f : ℚ) * 2 ^ ((E : Int) - 127) / 16 := by
  have hsixteenth : (fmtMax f : ℚ) * 2 ^ ((E : Int) - 127) / 16 = (fmtMax f : ℚ) * 2 ^ ((E : Int) - 127 - 4) := by
    rw [zpow_sub₀ two_ne_zero _ 4, mul_div_assoc]
    norm_num
  have hpos : 0 < (m : ℚ) * 2 ^ e ↔ (m != 0) = true := by
    rw [mul_pos_iff_of_pos_right (zpow_pos two_pos e), Nat.cast_pos, bne_iff_ne, Nat.pos_iff_ne_zero]
  unfold measure
  dsimp only
  rw [h, hsixteenth, hpos, ← not_magLe_iff]
  exact Bool.and_eq_true_iff

end

/-- Settles O58: the code8 table by its segments, the codes of the quantiser by the length of its grid, and the derived exponent
as the first that its search finds. -/
theorem code8AndDerivedExponentsFollowTheirTables : Obligations.Code8AndDerivedExponentsFollowTheirTables := by
  unfold Obligations.Code8AndDerivedExponentsFollowTheirTables
  refine ⟨fun c hc => ⟨code8Mag (c % 128), expand_code8 hc, ?_⟩, fun m _ => code8Mag_succ m, quantise_code8_ne_0x80,
    fun code f w m e _ hdecode => ⟨derivedExp_least hdecode,
      fun hno => derivedExp_of_none hdecode fun E hE => not_le.mpr (hno E hE), fun E l hl => ?_⟩⟩
  · obtain ⟨hfirst, hsecond, hthird, hfourth⟩ := code8Mag_segments (c % 128)
    refine ⟨hfirst, hsecond, hthird, hfourth, fun hlast => ?_, fun hzero => ?_⟩
    · rw [hlast, code8Mag]
      norm_num
    · rw [hzero]
      rfl
  · subst hl
    exact ⟨measure_tooBig_iff hdecode E, measure_tooSmall_iff hdecode E⟩

end Sys2Proof.Machine
end

section
/-! SUPPORT. The commands of the quantiser that may issue: REQUANT with valid records, SCALE_CLOSE and SCALE_SET (R93, R96,
R97, R99, R101), and the statement about them. -/

namespace Sys2Proof.Machine

/-! ## A record that is not valid (R96, R103) -/

theorem fld_recordErr (s : State) (c : Fin 16) (tag : Tag) :
    (s.recordErr c tag).fld (.coreQuantStatus c) F.coreQuantStatus_RECORD_ERR = 1 := by
  have hne : (Reg.coreQuantEventTag c).addr ≠ (Reg.coreQuantStatus c).addr := by
    revert c
    decide
  rw [State.recordErr, State.fld, reg_setReg_ne _ _ hne, ← State.fld, fld_setFld _ _ _ _ ⟨by decide, by decide⟩]
  rfl

theorem reg_recordErr (s : State) (c : Fin 16) (tag : Tag) : (s.recordErr c tag).reg (.coreQuantEventTag c) = tag :=
  reg_setReg _ _ _

theorem cores_recordErr (s : State) (c : Fin 16) (tag : Tag) : (s.recordErr c tag).cores = s.cores := rfl

section
variable {s s1 s2 : State} {e : Eng} {r : Fin 8} {u record : Nat}

/-! ## SCALE_CLOSE and SCALE_SET -/

section
variable {b : List Byte} {f : List Byte → List Byte} {back : Bool} {occ : Nat}

/-- The state in which a SCALE_CLOSE or SCALE_SET has issued. -/
def scaleIssued (s : State) (e : Eng) (occ : Nat) (back : Bool) (u : Nat) : State :=
  if back then s.quantIssue e occ occ u else s.issueAt e.core qVector e.tag e.gap.toNat occ occ u

/-- A clean record that is valid is kept as changed, and where the command says so written back. -/
theorem scaleNow_valid (hin : inCore record 64 = true)
    (hpeek : (scaleIssued s e occ back u).recPeek e.tag e.core record = (s1, b, false)) (hvalid : recValid b = true) :
    s.scaleNow r e record occ f back u = if back then
      (s1.recKeep e.tag e.core record (f b)).cmWrite e.tag e.core record (cleanBytes (f b))
      else s1.recKeep e.tag e.core record (f b) := by
  unfold scaleIssued at hpeek
  simp [State.scaleNow, hin, hpeek, hvalid]

theorem scaleNow_invalid (hin : inCore record 64 = true)
    (hpeek : (scaleIssued s e occ back u).recPeek e.tag e.core record = (s1, b, false)) (hvalid : recValid b = false) :
    s.scaleNow r e record occ f back u = s1.recordErr e.core e.tag := by
  unfold scaleIssued at hpeek
  simp [State.scaleNow, hin, hpeek, hvalid]

/-- A SCALE_CLOSE that may issue, and that the audit lets pass, takes effect. -/
theorem execScaleClose_ready {ringMax : Option Word} (hready : Ready s e.core qVector e.mask e.tag e.gap r u)
    (hpass : Passes s r (vectorAudit s e [] 0 0 0)) :
    exec (.scaleClose e record ringMax) s = .next (s.scaleNow r e record 2 (recClose ringMax) true u) := by
  show execScaleClose e record ringMax s = _
  unfold execScaleClose
  rw [onForm_formOk rfl, quantCommand_ready _ hready rfl hpass]

/-- A SCALE_SET that may issue, and that the audit lets pass, takes effect. -/
theorem execScaleSet_ready {exp : Byte} (hready : Ready s e.core qVector e.mask e.tag e.gap r u)
    (hpass : Passes s r (vectorAudit s e [] 0 0 0)) :
    exec (.scaleSet e record exp) s = .next (s.scaleNow r e record 1 (recScaleSet exp) false u) := by
  show execScaleSet e record exp s = _
  unfold execScaleSet
  rw [onForm_formOk rfl, quantCommand_ready _ hready rfl hpass]

end

/-! ## REQUANT -/

section
variable {src : QuantSrc} {codes expmap : Nat} {column : Bool}

/-- The source of a REQUANT is at hand: the audit lets its registers be read, or its receive entry is held, readable and
clean (R73, R79, R106, R121). -/
structure SourceReady (s : State) (e : Eng) (src : QuantSrc) (r : Fin 8) (u : Nat) : Prop where
  reg : ∀ v, src = .reg v → Passes s r (vectorAudit s e (srcReads 8 (.reg v)) 0 0 0)
  rx : ∀ entry free, src = .rx entry free → Passes s r (vectorAudit s e [] 0 0 0) ∧ ((s.core e.core).rx[entry]).held = true ∧
    ((s.core e.core).rx[entry]).readable ≤ u ∧ ((s.core e.core).rx[entry]).poisoned = false

/-- A REQUANT that may issue, whose source is at hand, takes effect. -/
theorem execRequant_ready (hform : Instr.WellFormed (.requant e src record codes expmap column))
    (hready : Ready s e.core qVector e.mask e.tag e.gap r u) (hsrc : SourceReady s e src r u) :
    exec (.requant e src record codes expmap column) s = .next (s.requantNow r e src record codes expmap column u) := by
  show execRequant e src record codes expmap column s = _
  unfold execRequant
  rw [onForm_formOk hform]
  cases src with
  | rx entry free =>
    obtain ⟨hpass, hheld, hslot, -⟩ := hsrc.rx entry free rfl
    have hgate : s.rxGate e.core entry u = none := if_pos (by rw [hheld, decide_eq_true hslot]; rfl)
    exact congrArg Host.Outcome.next (quantCommand_ready _ hready hgate hpass)
  | reg v => exact congrArg Host.Outcome.next (quantCommand_ready _ hready rfl (hsrc.reg v rfl))

/-- A REQUANT takes its values from a poisoned receive entry. -/
def sourcePoisoned (k : Core) : QuantSrc → Bool
  | .rx x _ => (k.rx[x]).poisoned
  | .reg _ => false

theorem SourceReady.clean (h : SourceReady s e src r u) : sourcePoisoned (s.core e.core) src = false := by
  cases src with
  | rx entry free => exact (h.rx entry free rfl).2.2.2
  | reg v => rfl

/-- The state with the receive entry of a REQUANT released, where it names one to release. -/
def State.sourceReleased (s : State) (c : Fin 16) (src : QuantSrc) (free : Nat) : State :=
  match quantRelease src with
  | some x => s.rxRelease c x free
  | none => s

/-- A REQUANT of a clean source whose records are clean and valid, and whose ranges exist, writes its results (R93, R101). -/
theorem requantNow_valid {b : List Byte} {others recs : List (List Byte)} {f : ArrFmt}
    (hclean : sourcePoisoned (s.core e.core) src = false) (hin : inCore record 64 = true)
    (hpeek : s.recPeek e.tag e.core record = (s1, b, false))
    (hinAll : inCore record (64 * if recPerChannel b then 32 else 0) = true)
    (hpeeks : s1.recPeeks e.tag e.core record (if recPerChannel b then 32 else 0) = (s2, others, false))
    (hrecs : quantRecords b others column = some (f, recs)) (hcodes : inCore codes (codeSpan f) = true)
    (hmap : inCore expmap 32 = true) :
    let res := quantResults f recs (quantValues (s2.core e.core) u src) column
    let occ := if res.any fun p => p.2.2 then 16 else 8
    s.requantNow r e src record codes expmap column u =
      ((s2.quantIssue e occ 8 u).requantWrite e.core e.tag record codes expmap f recs res).sourceReleased e.core src (u + occ) := by
  unfold State.requantNow
  simp only [hin, hpeek, hinAll, hpeeks, hrecs, hcodes, hmap, Bool.not_true, Bool.or_self, Bool.false_eq_true, if_false, if_true]
  exact if_neg (ne_true_of_eq_false hclean)

end

end

/-- Settles O16: REQUANT by its source at hand and its valid records, SCALE_CLOSE and SCALE_SET by whether their record is valid. -/
theorem quantiserWritesCodesAndRecords : Obligations.QuantiserWritesCodesAndRecords := by
  unfold Obligations.QuantiserWritesCodesAndRecords
  refine ⟨fun s e src record codes expmap column r u f b others recs s1 s2 hform hready hreg hrx hin hpeek hinAll hpeeks hrecs
    hcodes hmap => ?_, fun s e record r u s1 b hready hpass hin => ⟨fun ringMax hpeek => ⟨fun hvalid => ?_, fun hvalid => ?_⟩,
      fun exp hpeek => ⟨fun hvalid => ?_, fun hvalid => ?_⟩⟩⟩
  · have hsrc : SourceReady s e src r u := ⟨hreg, hrx⟩
    exact (execRequant_ready hform hready hsrc).trans (congrArg Host.Outcome.next
      (requantNow_valid hsrc.clean hin hpeek hinAll hpeeks hrecs hcodes hmap))
  · exact (execScaleClose_ready hready hpass).trans (congrArg Host.Outcome.next (scaleNow_valid hin hpeek hvalid))
  · refine ⟨_, (execScaleClose_ready hready hpass).trans (congrArg Host.Outcome.next (scaleNow_invalid hin hpeek hvalid)),
      fld_recordErr _ _ _, reg_recordErr _ _ _, cores_recordErr _ _ _⟩
  · exact (execScaleSet_ready hready hpass).trans (congrArg Host.Outcome.next (scaleNow_valid hin hpeek hvalid))
  · refine ⟨_, (execScaleSet_ready hready hpass).trans (congrArg Host.Outcome.next (scaleNow_invalid hin hpeek hvalid)),
      fld_recordErr _ _ _, reg_recordErr _ _ _, cores_recordErr _ _ _⟩

end Sys2Proof.Machine
end

section
/-! SUPPORT. What a command comes to, by its form (R109, R370; log 10): a form of its class, in a ring that has what it names, goes
on; the others are refused, and FLASH_OP_DONE of a block that does not exist faults. And the statements about it. -/

namespace Sys2Proof.Machine

/-- A command goes on where it is a form of its class and the ring has what it names, and is refused otherwise. -/
def DecidedByForm (c : Instr) (s : State) : Prop :=
  if formOk c = true ∧ stateForm c s = true then ∃ t, exec c s = .next t else ∃ m, exec c s = .refused (.illFormed m)

section
variable {c : Instr} {s t : State} {m : String}

/-- A command that is a form of its class whatever its operands. -/
theorem decidedByForm_of_next (h : exec c s = .next t) (hform : formOk c = true) (hstate : stateForm c s = true) :
    DecidedByForm c s := by
  rw [DecidedByForm, if_pos ⟨hform, hstate⟩]
  exact ⟨t, h⟩

/-- A command that is refused for its operands alone. -/
theorem decidedByForm_of_onForm (h : exec c s = onForm c m t) (hstate : stateForm c s = true) : DecidedByForm c s := by
  unfold DecidedByForm
  rw [h, onForm]
  cases formOk c <;> simp [hstate]

/-- A command that is refused for its operands, or for what the ring lacks. -/
theorem decidedByForm_of_refused {b : Bool} (h : exec c s = if b then .refused (.illFormed m) else onForm c m t)
    (hstate : stateForm c s = !b) : DecidedByForm c s := by
  unfold DecidedByForm
  rw [h, onForm, hstate]
  cases b <;> cases formOk c <;> simp

theorem decidedByForm_smpDecode (chan : Fin 16) (reason : Byte) : DecidedByForm (.smpDecode chan reason) s := by
  unfold DecidedByForm
  by_cases hform : formOk (.smpDecode chan reason) = true
  · have hreason : within 10 12 reason.toNat = true := hform
    rw [if_pos ⟨hform, rfl⟩]
    simp [exec, execSmpDecode, hreason]
  · have hreason : within 10 12 reason.toNat = false := Bool.eq_false_iff.mpr hform
    rw [if_neg fun h => hform h.1]
    simp [exec, execSmpDecode, hreason]

/-- Every command but FLASH_OP_DONE is decided by its form. -/
theorem decidedByForm (hop : ∀ op, c ≠ .flashOpDone op) : DecidedByForm c s := by
  cases c with
  | loop | endloop | skip | push | pop | wait | set | clear | idle | mark | hint | vload | vop | vfma | vconv | vfunc | vreduce
  | vlatch | requant => exact decidedByForm_of_onForm rfl rfl
  | vstore | dma | unfold | pool | resize | crop | warp | stride | transpose | fill | copy =>
    exact decidedByForm_of_refused rfl rfl
  | release e vector buf region sink =>
    cases sink with
    | dq n => exact decidedByForm_of_refused rfl rfl
    | none | flag => exact decidedByForm_of_next rfl rfl rfl
  | smpDecode chan reason => exact decidedByForm_smpDecode chan reason
  | flashOpDone op => exact absurd rfl (hop op)
  | _ => exact decidedByForm_of_next rfl rfl rfl

end

theorem opBlock_lt_of_placeExists {op : FlashOp} {s : State} (h : placeExists (.flashOpDone op) s = true) :
    opBlock op < s.flashBlocks := of_decide_eq_true h

theorem exec_flashOpDone (op : FlashOp) (s : State) :
    exec (.flashOpDone op) s = if opBlock op < s.flashBlocks then .next (s.opDone op) else .fault .noSuchAddress := rfl

/-- Settles O3: FLASH_OP_DONE by its block, every other command by its form. -/
theorem wellFormedCommandsAnswer : Obligations.WellFormedCommandsAnswer := by
  unfold Obligations.WellFormedCommandsAnswer
  intro c s hform hstate hplace
  by_cases hop : ∃ op, c = .flashOpDone op
  · obtain ⟨op, rfl⟩ := hop
    rw [exec_flashOpDone, if_pos (opBlock_lt_of_placeExists hplace)]
    exact ⟨_, rfl⟩
  · have h := decidedByForm (c := c) (s := s) fun op he => hop ⟨op, he⟩
    rwa [DecidedByForm, if_pos ⟨hform, hstate⟩] at h

/-- A command of which the form or the ring's part in it fails is refused. -/
theorem refused_of_not_form {c : Instr} {s : State} (h : ¬ (formOk c = true ∧ stateForm c s = true)) :
    ∃ m, exec c s = .refused (.illFormed m) := by
  have hc : DecidedByForm c s := decidedByForm fun op he => h (he ▸ ⟨rfl, rfl⟩)
  rwa [DecidedByForm, if_neg h] at hc

/-- Settles O4: the refusals and the one fault, by the form and by the block. -/
theorem commandsWithoutAFormOrAPlaceStop : Obligations.CommandsWithoutAFormOrAPlaceStop := by
  unfold Obligations.CommandsWithoutAFormOrAPlaceStop
  refine ⟨fun c s hform => refused_of_not_form fun h => hform h.1,
    fun c s hstate => refused_of_not_form fun h => by simp [hstate] at h, fun s op hblock => ?_, fun c s f hf => ?_⟩
  · rw [exec_flashOpDone, if_neg (Nat.not_lt.mpr hblock)]
  · by_cases hop : ∃ op, c = .flashOpDone op
    · obtain ⟨op, rfl⟩ := hop
      refine ⟨op, rfl, Nat.not_lt.mp fun hlt => ?_⟩
      rw [exec_flashOpDone, if_pos hlt] at hf
      cases hf
    · have hc := decidedByForm (c := c) (s := s) fun op he => hop ⟨op, he⟩
      unfold DecidedByForm at hc
      split at hc
      · obtain ⟨t, ht⟩ := hc
        cases hf.symm.trans ht
      · obtain ⟨m, hm⟩ := hc
        cases hf.symm.trans hm

end Sys2Proof.Machine
end

section
/-! SUPPORT. The queue of commands is the host's alone (log 1): no operation of the model puts a command into it or takes one
out. One lemma per operation, in the order of the model's files: `f_pending` says that the state which `f` leaves holds the
queue of the state that it was given. Here: the state's own operations, reports, the ports of memory and the flags. -/

namespace Sys2Proof.Machine

set_option Elab.async false

/-! ## Branches and folds -/

/-- What an operation that also answers a value says of the state, once its answer is taken apart. -/
theorem pending_of_eq {α : Type} {p : State × α} {t : State} {a : α} (h : p = (t, a)) : t.pending = p.1.pending := by rw [h]

@[simp] theorem foldl_pending {β : Type} (f : State → β → State) (l : List β) (s : State)
    (hf : ∀ t x, (f t x).pending = t.pending) : (l.foldl f s).pending = s.pending := by
  induction l generalizing s with
  | nil => rfl
  | cons x l ih => rw [List.foldl_cons, ih, hf]

@[simp] theorem foldl_fst_pending {α β : Type} (f : State × α → β → State × α) (l : List β) (p : State × α)
    (hf : ∀ p x, (f p x).1.pending = p.1.pending) : (l.foldl f p).1.pending = p.1.pending := by
  induction l generalizing p with
  | nil => rfl
  | cons x l ih => rw [List.foldl_cons, ih, hf]

/-! ## Machine/Ops -/

@[simp] theorem setRegs_pending (s : State) (l : List (Reg × Word)) : (s.setRegs l).pending = s.pending := by
  induction l generalizing s with
  | nil => rfl
  | cons p l ih => exact (ih _).trans (setReg_pending s p.1 p.2)

/-! ## Machine/Records -/

@[simp] theorem log_pending (s : State) (source code arg0 arg1 : Nat) : (s.log source code arg0 arg1).pending = s.pending := by
  unfold State.log
  split <;> rfl

@[simp] theorem recordLost_pending (s : State) (ring : Option (Fin 8)) : (s.recordLost ring).pending = s.pending := by
  unfold State.recordLost
  split <;> simp

@[simp] theorem storeRecord_pending (s : State) (ring : Option (Fin 8)) (f : FaultRec)
    : (s.storeRecord ring f).pending = s.pending := by
  unfold State.storeRecord
  dsimp only
  repeat' split
  all_goals simp

@[simp] theorem logRecord_pending (s : State) (ring : Option (Fin 8)) (faulting : Bool) (i : FaultInfo) (seq : Word)
    : (s.logRecord ring faulting i seq).pending = s.pending := by
  unfold State.logRecord
  repeat' split
  all_goals simp

@[simp] theorem deviceRecord_pending (s : State) (i : FaultInfo) : (s.deviceRecord i).pending = s.pending :=
  by simp [State.deviceRecord]

/-! ## Machine/Lines -/

@[simp] theorem ddrShow_pending (s : State) (q : Requester) (a kind owner : Nat)
    : (s.ddrShow q a kind owner).pending = s.pending := rfl

@[simp] theorem ddrCount_pending (s : State) (n : Nat) (v : Verdict) : (s.ddrCount n v).pending = s.pending := by
  unfold State.ddrCount
  dsimp only
  repeat' split
  all_goals simp

@[simp] theorem lineError_pending (rep : Bool → FaultInfo → State → State) (s : State) (q : Requester) (tag : Tag)
    (n access : Nat) (v : Verdict) (hrep : ∀ x y z, (rep x y z).pending = z.pending)
    : (State.lineError rep s q tag n access v).pending = s.pending := by
  unfold State.lineError
  grind [ddrShow_pending]

@[simp] theorem lineReadBy_pending (rep : Bool → FaultInfo → State → State) (s : State) (q : Requester) (tag : Tag)
    (gen : Option (BitVec 16)) (n : Nat) (hrep : ∀ x y z, (rep x y z).pending = z.pending)
    : (State.lineReadBy rep s q tag gen n).1.pending = s.pending := by
  unfold State.lineReadBy
  grind [lineError_pending, ddrCount_pending]

@[simp] theorem linesReadBy_pending (rep : Bool → FaultInfo → State → State) (q : Requester) (tag : Tag)
    (gen : Option (BitVec 16)) (n : Nat) (m : Nat) (s : State) (hrep : ∀ x y z, (rep x y z).pending = z.pending)
    : (State.linesReadBy rep q tag gen n m s).1.pending = s.pending := by
  induction n generalizing m s with
  | zero => rfl
  | succ k ih =>
    unfold State.linesReadBy
    grind [pending_of_eq, lineReadBy_pending]

@[simp] theorem rangeReadBy_pending (rep : Bool → FaultInfo → State → State) (s : State) (q : Requester) (tag : Tag)
    (gen : Option (BitVec 16)) (a n : Nat) (hrep : ∀ x y z, (rep x y z).pending = z.pending)
    : (State.rangeReadBy rep s q tag gen a n).1.pending = s.pending := by
  unfold State.rangeReadBy
  grind [linesReadBy_pending]

@[simp] theorem lineWriteBy_pending (rep : Bool → FaultInfo → State → State) (s : State) (q : Requester) (tag : Tag)
    (gen : BitVec 16) (n at_ : Nat) (d : List PByte) (hrep : ∀ x y z, (rep x y z).pending = z.pending)
    : (State.lineWriteBy rep s q tag gen n at_ d).1.pending = s.pending := by
  unfold State.lineWriteBy
  grind [lineError_pending, ddrCount_pending]

@[simp] theorem linesWriteBy_pending (rep : Bool → FaultInfo → State → State) (q : Requester) (tag : Tag)
    (gen : BitVec 16) (n : Nat) (m : Nat) (l : List PByte) (s : State) (hrep : ∀ x y z, (rep x y z).pending = z.pending)
    : (State.linesWriteBy rep q tag gen n m l s).1.pending = s.pending := by
  induction n generalizing m l s with
  | zero => rfl
  | succ k ih =>
    unfold State.linesWriteBy
    grind [pending_of_eq, lineWriteBy_pending]

@[simp] theorem ownRead_pending (s : State) (q : Requester) (a n : Nat) : (s.ownRead q a n).1.pending = s.pending :=
  by simp [State.ownRead]

@[simp] theorem ownWrite_pending (s : State) (q : Requester) (a : Nat) (d : List Byte)
    : (s.ownWrite q a d).pending = s.pending := by simp [State.ownWrite]

/-! ## Machine/Report -/

@[simp] theorem toWire_pending (s : State) (p : Fin 4) (f : TxFrame) : (s.toWire p f).pending = s.pending := rfl

@[simp] theorem portFrame_pending (s : State) (e : Fin 64) (m : Msg) : (s.portFrame e m).pending = s.pending := rfl

@[simp] theorem intLine_pending (s : State) (o : Nat) : (s.intLine o).1.pending = s.pending := by simp [State.intLine]

@[simp] theorem areaEntry_pending (s : State) (e : Fin 64) (m : Msg) : (s.areaEntry e m).1.pending = s.pending := by
  unfold State.areaEntry
  dsimp only
  repeat' split
  all_goals simp

@[simp] theorem passed_pending (s : State) (e : Fin 64) (m : Msg) : (s.passed e m).pending = s.pending := by
  unfold State.passed
  split <;> rfl

@[simp] theorem sendOne_pending (s : State) (e : Fin 64) : (s.sendOne e).1.pending = s.pending := by
  unfold State.sendOne
  dsimp only
  repeat' split
  all_goals simp

@[simp] theorem pump_pending (e : Fin 64) (n : Nat) (s : State) : (State.pump e n s).pending = s.pending := by
  induction n generalizing s with
  | zero => rfl
  | succ n ih =>
    unfold State.pump
    grind [pending_of_eq, sendOne_pending]

@[simp] theorem pumpEp_pending (s : State) (e : Fin 64) : (s.pumpEp e).pending = s.pending := by simp [State.pumpEp]

@[simp] theorem servePort_pending (p : Fin 4) (n : Nat) (s : State) : (State.servePort p n s).pending = s.pending := by
  induction n generalizing s with
  | zero => rfl
  | succ n ih =>
    unfold State.servePort
    split
    · rw [ih, sendOne_pending]
    · rfl

@[simp] theorem pumpPortEps_pending (s : State) (p : Fin 4) : (s.pumpPortEps p).pending = s.pending :=
  by simp [State.pumpPortEps]

@[simp] theorem send_pending (s : State) (e : Fin 64) (m : Msg) : (s.send e m).pending = s.pending := by
  unfold State.send
  split <;> simp

@[simp] theorem sendOwn_pending (s : State) (e : Fin 64) (cls : Nat) (type : Byte) (id : Word) (stamp : DWord)
    (bad : List Nat) (body : List Byte) : (s.sendOwn e cls type id stamp bad body).pending = s.pending :=
  by simp [State.sendOwn]

@[simp] theorem reply_pending (s : State) (r : Fin 8) (a : Asker) (cls status : Nat) (stamp : DWord) (bad : List Nat)
    (body : List Byte) : (s.reply r a cls status stamp bad body).pending = s.pending := by simp [State.reply]

@[simp] theorem replyStatus_pending (s : State) (r : Fin 8) (a : Asker) (status : Nat)
    : (s.replyStatus r a status).pending = s.pending := by simp [State.replyStatus]

@[simp] theorem pushRecord_pending (s : State) (ring : Option (Fin 8)) (f : FaultRec)
    : (s.pushRecord ring f).pending = s.pending := by
  unfold State.pushRecord
  repeat' split
  all_goals simp

@[simp] theorem fileRecord_pending (s : State) (ring : Option (Fin 8)) (faulting : Bool) (i : FaultInfo) (f : FaultRec)
    : (s.fileRecord ring faulting i f).pending = s.pending := by simp [State.fileRecord]

@[simp] theorem recordUnseen_pending (s : State) (ring : Option (Fin 8)) (i : FaultInfo)
    : (s.recordUnseen ring i).pending = s.pending := by simp [State.recordUnseen]

@[simp] theorem traceBatchOut_pending (s : State) (r : Fin 8) (c : Fin 16) (n : Nat)
    : (s.traceBatchOut r c n).pending = s.pending := by
  unfold State.traceBatchOut
  split <;> simp

@[simp] theorem traceDumpOut_pending (s : State) (r : Fin 8) (c : Fin 16) (n : Nat)
    : (s.traceDumpOut r c n).pending = s.pending := by simp [State.traceDumpOut]

@[simp] theorem traceLose_pending (s : State) (c : Fin 16) : (s.traceLose c).pending = s.pending := rfl

@[simp] theorem traceStore_pending (s : State) (r : Fin 8) (c : Fin 16) (t : TraceRec)
    : (s.traceStore r c t).pending = s.pending := by
  unfold State.traceStore
  dsimp only
  repeat' split
  all_goals simp

@[simp] theorem trace_pending (s : State) (c : Fin 16) (event : Nat) (tag : Tag) (operand : Nat) (q : Nat)
    : (s.trace c event tag operand q).pending = s.pending := by
  unfold State.trace
  repeat' split
  all_goals simp

@[simp] theorem traceDrain_pending (s : State) (r : Fin 8) : (s.traceDrain r).pending = s.pending := by
  unfold State.traceDrain
  grind [foldl_pending, traceDumpOut_pending, traceBatchOut_pending]

@[simp] theorem record_pending (s : State) (ring : Option (Fin 8)) (faulting : Bool) (i : FaultInfo)
    : (s.record ring faulting i).pending = s.pending := by
  unfold State.record
  split <;> simp

@[simp] theorem dropPending_pending (s : State) (r : Fin 8) (status : Nat) : (s.dropPending r status).pending = s.pending := by
  unfold State.dropPending
  grind [foldl_pending, replyStatus_pending, setFld_pending, onRing_pending]

@[simp] theorem setCtxState_pending (s : State) (x : Fin 4096) (st : Nat) : (s.setCtxState x st).pending = s.pending := rfl

@[simp] theorem onCtx_pending (s : State) (r : Fin 8) (x : Fin 4096) (f : CtxInfo → CtxInfo)
    : (s.onCtx r x f).pending = s.pending := rfl

@[simp] theorem contextsBack_pending (s : State) (r : Fin 8) : (s.contextsBack r).pending = s.pending :=
  by simp [State.contextsBack, apply_ite State.pending]

@[simp] theorem enterFaulted_pending (s : State) (r : Fin 8) (cause : Nat) : (s.enterFaulted r cause).pending = s.pending :=
  by simp [State.enterFaulted]

@[simp] theorem faultRing_pending (s : State) (r : Fin 8) (i : FaultInfo) : (s.faultRing r i).pending = s.pending := by
  unfold State.faultRing
  repeat' split
  all_goals simp

@[simp] theorem isolation_pending (s : State) (r : Fin 8) (tag : Tag) (island inst row access len addr : Nat)
    : (s.isolation r tag island inst row access len addr).pending = s.pending := by simp [State.isolation]

@[simp] theorem poisoned_pending (s : State) (r : Fin 8) (tag sourceTag : Tag) (island inst level queue addr : Nat)
    : (s.poisoned r tag sourceTag island inst level queue addr).pending = s.pending := by simp [State.poisoned]

/-! ## Machine/OnChip -/

@[simp] theorem coreEcc_pending (s : State) (tag : Tag) (c : Fin 16) (w : Nat) (bad : Bool)
    : (s.coreEcc tag c w bad).pending = s.pending := by
  unfold State.coreEcc
  split <;> simp

@[simp] theorem onMem_pending (s : State) (tag : Tag) (c : Fin 16) (f : Core → Core)
    : (s.onMem tag c f).pending = s.pending := by simp [State.onMem]

@[simp] theorem cmRead_pending (s : State) (tag : Tag) (c : Fin 16) (a n : Nat)
    : (s.cmRead tag c a n).1.pending = s.pending := by
  unfold State.cmRead
  dsimp only
  repeat' split
  all_goals simp

@[simp] theorem cmWrite_pending (s : State) (tag : Tag) (c : Fin 16) (a : Nat) (d : List PByte)
    : (s.cmWrite tag c a d).pending = s.pending := by simp [State.cmWrite]

@[simp] theorem remoteWrite_pending (s : State) (tag : Tag) (c : Fin 16) (a : Nat) (bytes : List Byte)
    : (s.remoteWrite tag c a bytes).pending = s.pending := by simp [State.remoteWrite]

@[simp] theorem sliceBad_pending (s : State) (ring : Option (Fin 8)) (tag : Tag) (n : Nat)
    : (s.sliceBad ring tag n).pending = s.pending := by simp [State.sliceBad]

@[simp] theorem sliceDecode_pending (s : State) (r : Fin 8) (tag : Tag) (n : Nat)
    : (s.sliceDecode r tag n).pending = s.pending := by
  unfold State.sliceDecode
  repeat' split
  all_goals simp

@[simp] theorem mwyRead_pending (s : State) (r : Fin 8) (tag : Tag) (a n : Nat)
    : (s.mwyRead r tag a n).1.pending = s.pending := by
  unfold State.mwyRead
  grind [foldl_pending, sliceDecode_pending, setFld_pending]

@[simp] theorem mwyWrite_pending (s : State) (r : Fin 8) (tag : Tag) (a : Nat) (d : List PByte)
    : (s.mwyWrite r tag a d).pending = s.pending := by simp [State.mwyWrite]

/-! ## Machine/DramPort -/

@[simp] theorem report_pending (q : Requester) (isolation : Bool) (i : FaultInfo) (s : State)
    : (Requester.report q isolation i s).pending = s.pending := by
  unfold Requester.report
  split <;> simp

@[simp] theorem ddrOutside_pending (s : State) (q : Requester) (tag : Tag) (a n access : Nat)
    : (s.ddrOutside q tag a n access).pending = s.pending := by simp [State.ddrOutside]

@[simp] theorem dramRead_pending (s : State) (q : Requester) (tag : Tag) (gen : Option (BitVec 16)) (a n : Nat)
    : (s.dramRead q tag gen a n).1.pending = s.pending := by
  unfold State.dramRead
  repeat' split
  all_goals simp

@[simp] theorem dramWrite_pending (s : State) (q : Requester) (tag : Tag) (gen : BitVec 16) (a : Nat) (d : List PByte)
    : (s.dramWrite q tag gen a d).1.pending = s.pending := by
  unfold State.dramWrite
  repeat' split
  all_goals simp

@[simp] theorem bufRead_pending (s : State) (r : Fin 8) (a : DWord) (o n : Nat)
    : (s.bufRead r a o n).1.pending = s.pending := by
  unfold State.bufRead
  split <;> simp

@[simp] theorem bufWrite_pending (s : State) (r : Fin 8) (a : DWord) (o : Nat) (d : List PByte)
    : (s.bufWrite r a o d).1.pending = s.pending := by
  unfold State.bufWrite
  split <;> simp

/-! ## Machine/Flags -/

@[simp] theorem reachFlags_pending (s : State) (c : Fin 16) (v : BitVec 64 × Bool) (p : FlagOp → Bool)
    : (s.reachFlags c v p).pending = s.pending := by
  unfold State.reachFlags
  split <;> rfl

@[simp] theorem flagsTo_pending (s : State) (c : Fin 16) (u : Nat) : (s.flagsTo c u).pending = s.pending :=
  by simp [State.flagsTo]

@[simp] theorem flagsNow_pending (s : State) (c : Fin 16) : (s.flagsNow c).pending = s.pending := by simp [State.flagsNow]

@[simp] theorem pendFlag_pending (s : State) (c : Fin 16) (exec : Bool) (n : Fin 64) (set : Bool)
    : (s.pendFlag c exec n set).pending = s.pending := by
  unfold State.pendFlag
  split <;> simp

@[simp] theorem flagArrives_pending (s : State) (c : Fin 16) (n : Fin 64) (set : Bool)
    : (s.flagArrives c n set).pending = s.pending := by simp [State.flagArrives]

@[simp] theorem consumeCore_pending (s : State) (c : Fin 16) (exec : Bool) (n : Fin 64)
    : (s.consumeCore c exec n).pending = s.pending := by
  unfold State.consumeCore
  split <;> simp

@[simp] theorem crossPut_pending (s : State) (x : Crossing) (o : CrossOp) : (s.crossPut x o).pending = s.pending := by
  unfold State.crossPut
  split <;> rfl

@[simp] theorem crossTaken_pending (s : State) (x : Crossing) (rest : List (Crossing × CrossOp))
    : (s.crossTaken x rest).pending = s.pending := by
  unfold State.crossTaken
  split <;> rfl

@[simp] theorem dropEntries_pending (s : State) (r : Fin 8) : (s.dropEntries r).pending = s.pending :=
  by simp [State.dropEntries]

@[simp] theorem queueTrigger_pending (s : State) (r : Fin 8) (slot kind arg : Nat) (stamp : DWord)
    : (s.queueTrigger r slot kind arg stamp).pending = s.pending := by
  unfold State.queueTrigger
  repeat' split
  all_goals simp

@[simp] theorem fire_pending (s : State) (r : Fin 8) (kind arg : Nat) (stamp : DWord)
    : (s.fire r kind arg stamp).pending = s.pending := by simp [State.fire, apply_ite State.pending]

@[simp] theorem post_pending (s : State) (r : Fin 8) (stream : Fin 16) : (s.post r stream).pending = s.pending := by
  unfold State.post
  split <;> simp

@[simp] theorem clearRingFlag_pending (s : State) (r : Fin 8) (n : Fin 256) : (s.clearRingFlag r n).pending = s.pending :=
  rfl

@[simp] theorem setProbe_pending (s : State) (u : SeqUnit) (p : Probe) : (s.setProbe u p).pending = s.pending := by
  unfold State.setProbe
  split <;> rfl

@[simp] theorem ask_pending (s : State) (u : SeqUnit) (o : CrossOp) : (s.ask u o).pending = s.pending := by simp [State.ask]

@[simp] theorem answerTo_pending (s : State) (r : Fin 8) (u : SeqUnit) (v : Bool)
    : (s.answerTo r u v).pending = s.pending := by simp [State.answerTo]

@[simp] theorem serveTests_pending (s : State) (r : Fin 8) (n : Fin 256) : (s.serveTests r n).pending = s.pending := by
  unfold State.serveTests
  dsimp only
  repeat' split
  all_goals simp

@[simp] theorem setRingFlag_pending (s : State) (r : Fin 8) (n : Fin 256) : (s.setRingFlag r n).pending = s.pending := by
  unfold State.setRingFlag
  dsimp only
  repeat' split
  all_goals simp

@[simp] theorem testArrives_pending (s : State) (r : Fin 8) (u : SeqUnit) (n : Fin 256) (kind : TestKind)
    : (s.testArrives r u n kind).pending = s.pending := by
  unfold State.testArrives
  repeat' split
  all_goals simp

@[simp] theorem serveMaster_pending (s : State) (r : Fin 8) (c : Fin 16) : (s.serveMaster r c).pending = s.pending := by
  unfold State.serveMaster
  repeat' split
  all_goals simp

@[simp] theorem coreTestArrives_pending (s : State) (r : Fin 8) (c : Fin 16) (n : Fin 64) (kind : TestKind)
    : (s.coreTestArrives r c n kind).pending = s.pending := by
  unfold State.coreTestArrives
  repeat' split
  all_goals simp

@[simp] theorem answerArrives_pending (s : State) (u : SeqUnit) (v : Bool) : (s.answerArrives u v).pending = s.pending := by
  unfold State.answerArrives
  split <;> simp

@[simp] theorem setByCore_pending (s : State) (r : Fin 8) (c : Fin 16) (exec : Bool) (flag : FlagRef)
    : (s.setByCore r c exec flag).pending = s.pending := by
  unfold State.setByCore
  split <;> simp

@[simp] theorem clearByCore_pending (s : State) (r : Fin 8) (c : Fin 16) (exec : Bool) (flag : FlagRef)
    : (s.clearByCore r c exec flag).pending = s.pending := by
  unfold State.clearByCore
  split <;> simp

end Sys2Proof.Machine
end

section
/-! SUPPORT. The queue of commands is as before (log 1): the queues and engines of a core, the flash, the loading of a ring. -/

namespace Sys2Proof.Machine

set_option Elab.async false

/-! ## Machine/Queue -/

@[simp] theorem onQueue_pending (s : State) (c : Fin 16) (q : Fin 5) (f : EngineQueue → EngineQueue)
    : (s.onQueue c q f).pending = s.pending := rfl

@[simp] theorem feederWaits_pending (s : State) (r : Fin 8) (c : Fin 16) (q : Fin 5) (w : Option Wait)
    : (s.feederWaits r c q w).pending = s.pending := by
  unfold State.feederWaits
  repeat' split
  all_goals simp

@[simp] theorem lineUp_pending (s : State) (r : Fin 8) (c : Fin 16) (q : Fin 5) (tag : Tag) (cores : List (Fin 16))
    : (s.lineUp r c q tag cores).pending = s.pending := by
  unfold State.lineUp
  split
  · rw [feederWaits_pending, foldl_pending _ _ _ fun t x => onQueue_pending ..]
  · exact feederWaits_pending ..

@[simp] theorem foreignCore_pending (s : State) (t : Tag) (c : Fin 16) : (s.foreignCore t c).pending = s.pending := by
  unfold State.foreignCore
  split <;> simp

@[simp] theorem arrayEvents_pending (s : State) (c : Fin 16) (ovf nan opParity accParity : Bool)
    : (s.arrayEvents c ovf nan opParity accParity).pending = s.pending := rfl

@[simp] theorem writesDue_pending (s : State) (c : Fin 16) (u : Nat) : (s.writesDue c u).pending = s.pending := by
  unfold State.writesDue
  dsimp only
  repeat' split
  all_goals simp

@[simp] theorem toSlot_pending (s : State) (c : Fin 16) (u : Nat) : (s.toSlot c u).pending = s.pending :=
  by simp [State.toSlot]

@[simp] theorem holdAt_pending (s : State) (c : Fin 16) (q : Fin 5) (tag : Tag) (kind : WaitKind) (index cond u : Nat)
    : (s.holdAt c q tag kind index cond u).pending = s.pending := by
  unfold State.holdAt
  repeat' split
  all_goals simp

@[simp] theorem issueAt_pending (s : State) (c : Fin 16) (q : Fin 5) (tag : Tag) (gap occ prog u : Nat)
    : (s.issueAt c q tag gap occ prog u).pending = s.pending := by
  unfold State.issueAt
  split <;> simp

@[simp] theorem auditFault_pending (s : State) (r : Fin 8) (c : Fin 16) (q : Fin 5) (tag : Tag) (v : Violation)
    : (s.auditFault r c q tag v).pending = s.pending := by simp [State.auditFault]

@[simp] theorem withhold_pending (s : State) (r : Fin 8) (c : Fin 16) (q : Fin 5) (tag : Tag) (u : Nat) (v : Violation)
    : (s.withhold r c q tag u v).pending = s.pending := by
  unfold State.withhold
  split <;> simp

@[simp] theorem noteArray_pending (s : State) (c : Fin 16) (e : AuditRec) : (s.noteArray c e).pending = s.pending := rfl

@[simp] theorem noteVector_pending (s : State) (c : Fin 16) (e : AuditRec) : (s.noteVector c e).pending = s.pending := rfl

/-! ## Machine/Array -/

@[simp] theorem poisonTag_pending (s : State) (c : Fin 16) (tag : Tag) : (s.poisonTag c tag).pending = s.pending := rfl

@[simp] theorem macSlots_pending (s : State) (c : Fin 16) (n : Nat) : (s.macSlots c n).pending = s.pending := rfl

@[simp] theorem drainNow_pending (s : State) (c : Fin 16) (tag : Tag) (u : Nat) (d : DrainOrder)
    : (s.drainNow c tag u d).pending = s.pending := by
  unfold State.drainNow
  dsimp only
  repeat' split
  all_goals simp

@[simp] theorem arrayHold_pending (s : State) (c : Fin 16) (tag : Tag) (u : Nat) (g : GateHold)
    : (s.arrayHold c tag u g).pending = s.pending := by
  unfold State.arrayHold
  split <;> simp

theorem pending_of_front {s t : State} {c : Fin 16} {q : Fin 5} {tag : Tag} {gap : Nat} {mask : BitVec 16}
    (h : s.front c q tag gap mask = .not t) : t.pending = s.pending := by
  unfold State.front at h
  grind [foreignCore_pending, lineUp_pending]

@[simp] theorem arrayCommand_pending (s : State) (e : Eng) (exists_ : Bool) (gate : Nat → Option GateHold)
    (pairs : Nat → AuditRec → List Violation) (go : Fin 8 → Nat → State) (hgo : ∀ x y, (go x y).pending = s.pending)
    : (s.arrayCommand e exists_ gate pairs go).pending = s.pending := by
  unfold State.arrayCommand
  split
  · exact pending_of_front ‹_›
  · grind [isolation_pending, toSlot_pending, arrayHold_pending, withhold_pending]

@[simp] theorem stepNow_pending (s : State) (e : Eng) (w a : ArrOperand) (set : Fin 16) (overwrite : Bool)
    (drain : Option DrainOrder) (u : Nat) : (s.stepNow e w a set overwrite drain u).pending = s.pending := by
  unfold State.stepNow
  dsimp only
  repeat' split
  all_goals simp

@[simp] theorem accLoadNow_pending (s : State) (e : Eng) (set : Fin 16) (u : Nat)
    : (s.accLoadNow e set u).pending = s.pending := by
  unfold State.accLoadNow
  dsimp only
  repeat' split
  all_goals simp

/-! ## Machine/Access -/

@[simp] theorem holdWrite_pending (s : State) (r : Fin 8) (who : Who) (addr value : Word)
    : (s.holdWrite r who addr value).1.pending = s.pending := by
  unfold State.holdWrite
  split <;> rfl

@[simp] theorem request_pending (s : State) (r : Fin 8) (who : Who) (addr value : Word) (act : State → State × Nat)
    (hact : ∀ x, (act x).1.pending = x.pending) : (s.request r who addr value act).1.pending = s.pending := by
  unfold State.request
  grind [holdWrite_pending]

/-! ## Machine/Flash -/

@[simp] theorem programPage_pending (s : State) (pg : Nat) (tag : BitVec 192) (bytes : List Byte)
    : (s.programPage pg tag bytes).pending = s.pending := rfl

@[simp] theorem eraseBlock_pending (s : State) (b : Nat) : (s.eraseBlock b).pending = s.pending := rfl

@[simp] theorem copyBlock_pending (s : State) (src dst : Nat) : (s.copyBlock src dst).pending = s.pending :=
  by simp [State.copyBlock, apply_ite State.pending]

@[simp] theorem showInhibit_pending (s : State) : s.showInhibit.pending = s.pending := rfl

@[simp] theorem countHeld_pending (s : State) : s.countHeld.pending = s.pending := rfl

/-! ## Machine/FlashJobs -/

@[simp] theorem pushJob_pending (s : State) (j : FlashJob) : (s.pushJob j).pending = s.pending := by
  unfold State.pushJob
  dsimp only
  repeat' split
  all_goals simp

@[simp] theorem dropJob_pending (s : State) (j : FlashJob) : (s.dropJob j).pending = s.pending := rfl

@[simp] theorem replaceJob_pending (s : State) (j k : FlashJob) : (s.replaceJob j k).pending = s.pending := rfl

@[simp] theorem schedule_pending (s : State) (b : Nat) (rescue : Bool) : (s.schedule b rescue).pending = s.pending := by
  unfold State.schedule
  split <;> simp

@[simp] theorem tidyQueue_pending (s : State) : s.tidyQueue.pending = s.pending := by
  unfold State.tidyQueue
  split <;> rfl

@[simp] theorem flashIssue_pending (s : State) : s.flashIssue.pending = s.pending := by
  unfold State.flashIssue
  dsimp only
  repeat' split
  all_goals simp

@[simp] theorem enqueueFlash_pending (s : State) (j : FlashJob) : (s.enqueueFlash j).pending = s.pending :=
  by simp [State.enqueueFlash]

@[simp] theorem takeSeq_pending (s : State) (area top : Nat) : (s.takeSeq area top).1.pending = s.pending := rfl

@[simp] theorem pushPages_pending (s : State) (area : Nat) (bytes : List Byte) (fresh : Bool) (next : AppendNext)
    : (s.pushPages area bytes fresh next).pending = s.pending := by
  unfold State.pushPages
  split <;> simp

@[simp] theorem pushEntry_pending (s : State) (area type : Nat) (body : List Byte) (next : AppendNext)
    : (s.pushEntry area type body next).pending = s.pending := by simp [State.pushEntry]

@[simp] theorem appendEntry_pending (s : State) (area type : Nat) (body : List Byte)
    : (s.appendEntry area type body).pending = s.pending := by simp [State.appendEntry]

@[simp] theorem writeTable_pending (s : State) : s.writeTable.pending = s.pending := by simp [State.writeTable]

@[simp] theorem retireBlock_pending (s : State) (b : Nat) : (s.retireBlock b).pending = s.pending := by
  unfold State.retireBlock
  split <;> simp

@[simp] theorem eraseOrRetire_pending (s : State) (b : Nat) : (s.eraseOrRetire b).pending = s.pending := by
  unfold State.eraseOrRetire
  split <;> simp

@[simp] theorem programLog_pending (s : State) : s.programLog.pending = s.pending := by simp [State.programLog]

@[simp] theorem logSecurity_pending (s : State) (source code arg0 arg1 : Nat)
    : (s.logSecurity source code arg0 arg1).pending = s.pending := by
  unfold State.logSecurity
  split <;> simp

@[simp] theorem logRead_pending (s : State) (code arg0 arg1 : Nat) : (s.logRead code arg0 arg1).pending = s.pending := by
  unfold State.logRead
  split <;> simp

@[simp] theorem readFailed_pending (s : State) (pg : Nat) : (s.readFailed pg).pending = s.pending :=
  by simp [State.readFailed]

@[simp] theorem countRead_pending (s : State) (b : Nat) : (s.countRead b).pending = s.pending := by
  unfold State.countRead
  dsimp only
  repeat' split
  all_goals simp

@[simp] theorem readEnds_pending (s : State) (area : Nat) (noise : List (List (Nat × BitVec 10))) (pg : Nat)
    : (s.readEnds area noise pg).pending = s.pending := by
  unfold State.readEnds
  dsimp only
  repeat' split
  all_goals simp

@[simp] theorem readPages_pending (s : State) (area : Nat) (l : List Nat) : (s.readPages area l).pending = s.pending :=
  by simp [State.readPages]

@[simp] theorem staged_pending (s : State) (who : Who) (a n : Nat) : (s.staged who a n).1.pending = s.pending := by
  unfold State.staged
  grind [dramRead_pending]

@[simp] theorem recordStatus_pending (s : State) (state cause : Nat) : (s.recordStatus state cause).pending = s.pending :=
  rfl

@[simp] theorem recordDone_pending (s : State) (cause : Nat) : (s.recordDone cause).pending = s.pending := rfl

@[simp] theorem writeRecordNow_pending (s : State) (type : Nat) (body : List Byte)
    : (s.writeRecordNow type body).pending = s.pending := by
  unfold State.writeRecordNow
  dsimp only
  repeat' split
  all_goals simp

@[simp] theorem recordRequest_pending (s : State) (who : Who) : (s.recordRequest who).pending = s.pending := by
  unfold State.recordRequest
  grind [setFld_pending, staged_pending, recordStatus_pending, writeRecordNow_pending]

@[simp] theorem flsControl_pending (s : State) (who : Who) (op : Nat) : (s.flsControl who op).1.pending = s.pending := by
  unfold State.flsControl
  repeat' split
  all_goals simp

/-! ## Machine/Container -/

@[simp] theorem storeWrite_pending (s : State) (r : StoreRec) : (s.storeWrite r).pending = s.pending := by
  unfold State.storeWrite
  split <;> rfl

@[simp] theorem showStore_pending (s : State) : s.showStore.pending = s.pending := by
  unfold State.showStore
  grind [foldl_pending, setFld_pending, setReg_pending]

/-! ## Machine/Freq -/

@[simp] theorem requestVolt_pending (s : State) (v : Nat) : (s.requestVolt v).pending = s.pending := rfl

@[simp] theorem raiseVolt_pending (s : State) (v : Nat) : (s.raiseVolt v).pending = s.pending := by
  unfold State.raiseVolt
  split <;> rfl

@[simp] theorem setFreq_pending (s : State) (r : Fin 8) (f : Nat) : (s.setFreq r f).pending = s.pending := by
  unfold State.setFreq
  split <;> simp

@[simp] theorem takeCtrl_pending (s : State) (r : Fin 8) : (s.takeCtrl r).pending = s.pending := rfl

@[simp] theorem startFreq_pending (s0 : State) (r : Fin 8) : (State.startFreq s0 r).pending = s0.pending := by
  unfold State.startFreq
  dsimp only
  repeat' split
  all_goals simp

/-! ## Machine/Results -/

@[simp] theorem rsEnableNow_pending (s : State) (r : Fin 8) (stream : Fin 16)
    : (s.rsEnableNow r stream).pending = s.pending := by
  unfold State.rsEnableNow
  dsimp only
  repeat' split
  all_goals simp

@[simp] theorem rsDisableNow_pending (s : State) (r : Fin 8) (stream : Fin 16)
    : (s.rsDisableNow r stream).pending = s.pending := by
  unfold State.rsDisableNow
  dsimp only
  repeat' split
  all_goals simp

@[simp] theorem rsRequest_pending (s : State) (r : Fin 8) (stream : Fin 16) (op : Nat)
    : (s.rsRequest r stream op).pending = s.pending := by
  unfold State.rsRequest
  split <;> simp

@[simp] theorem rsControl_pending (s : State) (r : Fin 8) (who : Who) (stream : Fin 16) (op : Nat)
    : (s.rsControl r who stream op).1.pending = s.pending := by simp [State.rsControl]

@[simp] theorem claimSlot_pending (s : State) (r : Fin 8) (inv : Invocation) (stream : Fin 16) (n : Nat)
    (overwrite : Bool) : (s.claimSlot r inv stream n overwrite).pending = s.pending := by
  unfold State.claimSlot
  split <;> simp

@[simp] theorem markHeld_pending (s : State) (r : Fin 8) (slot : Nat) : (s.markHeld r slot).pending = s.pending := by
  unfold State.markHeld
  grind [foldl_pending, setFld_pending]

@[simp] theorem claimAll_pending (s : State) (r : Fin 8) (inv : Invocation) : (s.claimAll r inv).pending = s.pending := by
  unfold State.claimAll
  grind [foldl_pending, claimSlot_pending, markHeld_pending]

@[simp] theorem dropUnposted_pending (s : State) (r : Fin 8) : (s.dropUnposted r).pending = s.pending := by
  unfold State.dropUnposted
  grind [foldl_pending, onRing_pending, bump_pending]

@[simp] theorem slotBytes_pending (s : State) (r : Fin 8) (n : Nat) (slot : ResultSlot)
    : (s.slotBytes r n slot).1.pending = s.pending := by
  unfold State.slotBytes
  grind [bufRead_pending]

@[simp] theorem pushResult_pending (s : State) (r : Fin 8) (stream : Fin 16) (n : Nat) (slot : ResultSlot)
    : (s.pushResult r stream n slot).pending = s.pending := by simp [State.pushResult]

@[simp] theorem noticeResult_pending (s : State) (r : Fin 8) (stream : Fin 16) (n : Nat) (slot : ResultSlot)
    : (s.noticeResult r stream n slot).pending = s.pending := by simp [State.noticeResult]

@[simp] theorem readResult_pending (s : State) (r : Fin 8) (a : Asker) (stream slot : Nat)
    : (s.readResult r a stream slot).pending = s.pending := by
  unfold State.readResult
  dsimp only
  repeat' split
  all_goals simp

@[simp] theorem releaseSlot_pending (s : State) (r : Fin 8) (slot : Nat) (serial : Word)
    : (s.releaseSlot r slot serial).1.pending = s.pending := by
  unfold State.releaseSlot
  repeat' split
  all_goals simp

/-! ## Machine/Load -/

@[simp] theorem unbindEndpoints_pending (s : State) (r : Fin 8) : (s.unbindEndpoints r).pending = s.pending := by
  unfold State.unbindEndpoints
  grind [foldl_pending, setReg_pending, onEp_pending]

@[simp] theorem bindEndpoints_pending (s : State) (r : Fin 8) (m : List Byte) : (s.bindEndpoints r m).pending = s.pending :=
  by simp [State.bindEndpoints]

@[simp] theorem assignWindows_pending (s : State) (r : Fin 8) (m : List Byte) : (s.assignWindows r m).pending = s.pending :=
  by simp [State.assignWindows, apply_ite State.pending]

@[simp] theorem ownSlices_pending (s : State) (r : Fin 8) (own : Bool) : (s.ownSlices r own).pending = s.pending := by
  unfold State.ownSlices
  grind [foldl_pending, setFld_pending]

@[simp] theorem releaseRing_pending (s : State) (r : Fin 8) : (s.releaseRing r).pending = s.pending := by
  unfold State.releaseRing
  grind [foldl_pending, ownSlices_pending, unbindEndpoints_pending, onCore_pending, setReg_pending, onRing_pending]

@[simp] theorem clearStreams_pending (s : State) (r : Fin 8) : (s.clearStreams r).pending = s.pending := by
  unfold State.clearStreams
  grind [foldl_pending, setReg_pending, onRing_pending]

@[simp] theorem enterLoading_pending (s : State) (r : Fin 8) : (s.enterLoading r).pending = s.pending := by
  exact (setFld_pending _ _ _ _).trans (setRegs_pending _ _)

@[simp] theorem sweepRead_pending (s : State) (r : Fin 8) (n : Nat) : (s.sweepRead r n).pending = s.pending := by
  unfold State.sweepRead
  dsimp only
  repeat' split
  all_goals simp

@[simp] theorem sweepNow_pending (s : State) (r : Fin 8) (spill : Bool) (u : Nat)
    : (s.sweepNow r spill u).pending = s.pending := by
  unfold State.sweepNow
  split <;> simp

@[simp] theorem sweep_pending (s : State) (r : Fin 8) : (s.sweep r).pending = s.pending := by simp [State.sweep]

@[simp] theorem loadDram_pending (s : State) (r : Fin 8) (a : Nat) (d : List Byte) {t : State}
    : (s.loadDram r a d) = some t → t.pending = s.pending := by
  unfold State.loadDram
  grind [dramWrite_pending]

@[simp] theorem loadOne_pending (s : State) (r : Fin 8) (e : List Byte) {t : State}
    : (s.loadOne r e) = some t → t.pending = s.pending := by
  intro h
  unfold State.loadOne at h
  dsimp only at h
  split at h
  · cases h
  · split at h
    · split at h
      · obtain rfl := Option.some.inj h
        exact mwyWrite_pending ..
      · split at h
        · cases h
        · rw [Option.map_id'] at h
          exact loadDram_pending s r _ _ h
    · exact loadDram_pending s r _ _ h
    · split at h
      · cases h
      · obtain rfl := Option.some.inj h
        exact foldl_pending _ _ _ fun t c => cmWrite_pending ..

@[simp] theorem loadList_pending (r : Fin 8) (l : List (List Byte)) (s : State) {t : State}
    : State.loadList r l s = some t → t.pending = s.pending := by
  induction l generalizing s with
  | nil => rintro ⟨⟩; rfl
  | cons e l ih =>
    unfold State.loadList
    grind [loadOne_pending]

@[simp] theorem bindRing_pending (s : State) (r : Fin 8) (m : List Byte) (p : Nat × Nat × Nat) (programs : List Program)
    : (s.bindRing r m p programs).pending = s.pending := by simp [State.bindRing]

@[simp] theorem loadNow_pending (s : State) (r : Fin 8) : (s.loadNow r).1.pending = s.pending := by
  unfold State.loadNow
  split
  · rfl
  · extract_lets s0
    split
    · split
      · rfl
      · split
        · rfl
        · extract_lets s1
          have h1 : s1.pending = s.pending := by rw [sweep_pending, bindRing_pending, onRing_pending]
          cases hs : State.loadList r (s1.loadEntries r) s1 with
          | none => exact h1
          | some s2 =>
            dsimp only
            rw [assignWindows_pending, bindEndpoints_pending, loadList_pending _ _ _ hs, h1]
    · rfl

/-! ## Machine/Stream -/

@[simp] theorem onSeq_pending (s : State) (u : SeqUnit) (f : Sequencer → Sequencer) : (s.onSeq u f).pending = s.pending := by
  unfold State.onSeq
  split <;> rfl

@[simp] theorem seqDo_pending (s : State) (u : SeqUnit) (tag : Tag) (go : Fin 8 → State)
    (hgo : ∀ x, (go x).pending = s.pending) : (s.seqDo u tag go).pending = s.pending := by
  unfold State.seqDo
  split
  · rfl
  · exact hgo _

@[simp] theorem seqWait_pending (s : State) (u : SeqUnit) (tag : Tag) (kind : WaitKind) (index : Nat)
    : (s.seqWait u tag kind index).pending = s.pending := by simp [State.seqWait]

@[simp] theorem seqGo_pending (s : State) (u : SeqUnit) : (s.seqGo u).pending = s.pending := by simp [State.seqGo]

@[simp] theorem loopCount_pending (s : State) (tag : Tag) (u : SeqUnit) (r : Fin 8) (count : LoopCount)
    : (s.loopCount tag u r count).1.pending = s.pending := by
  unfold State.loopCount
  dsimp only
  repeat' split
  all_goals simp

@[simp] theorem reachFault_pending (s : State) (r : Fin 8) (tag : Tag) (access : Nat)
    : (s.reachFault r tag access).pending = s.pending := by simp [State.reachFault]

@[simp] theorem seqLooks_pending (s : State) (u : SeqUnit) (r : Fin 8) (flag : FlagRef) (kind : TestKind)
    : (s.seqLooks u r flag kind).1.pending = s.pending := by
  unfold State.seqLooks
  dsimp only
  repeat' split
  all_goals simp

@[simp] theorem skipWith_pending (s : State) (u : SeqUnit) (whenSet v : Bool) (span : List SpanItem)
    : (s.skipWith u whenSet v span).pending = s.pending := by
  unfold State.skipWith
  split <;> simp

@[simp] theorem onDq_pending (s : State) (c : Fin 16) (n : Fin 8) (f : List DqEntry → List DqEntry)
    : (s.onDq c n f).pending = s.pending := rfl

@[simp] theorem popNow_pending (s : State) (u : SeqUnit) (tag : Tag) (dq : Fin 8) (expect : Option DqEntry)
    (found : DqEntry) : (s.popNow u tag dq expect found).pending = s.pending := by
  unfold State.popNow
  split <;> simp

@[simp] theorem queueHold_pending (s : State) (c : Fin 16) (q : Fin 5) (tag : Tag) (u : Nat) (g : GateHold)
    : (s.queueHold c q tag u g).pending = s.pending := by
  unfold State.queueHold
  split <;> simp

@[simp] theorem queueCommand_pending (s : State) (c : Fin 16) (q : Fin 5) (tag : Tag) (gap occ : Nat) (mask : BitVec 16)
    (gate : Fin 8 → Nat → Option GateHold) (go : Fin 8 → Nat → State → State)
    (hgo : ∀ x y z, (go x y z).pending = z.pending) : (s.queueCommand c q tag gap occ mask gate go).pending = s.pending := by
  unfold State.queueCommand
  split
  · exact pending_of_front ‹_›
  · grind [queueHold_pending, issueAt_pending]

@[simp] theorem noteConsume_pending (s : State) (c : Fin 16) (q : Fin 5) (consume : Bool)
    : (s.noteConsume c q consume).pending = s.pending := rfl

@[simp] theorem queueAsks_pending (s : State) (r : Fin 8) (c : Fin 16) (q : Fin 5) (mask : BitVec 16) (flag : FlagRef)
    (consume : Bool) : (s.queueAsks r c q mask flag consume).pending = s.pending := by
  unfold State.queueAsks
  repeat' split
  all_goals simp

@[simp] theorem waitPassed_pending (s : State) (u : SeqUnit) (tag : Tag) (flag : FlagRef) (consume : Bool)
    : (s.waitPassed u tag flag consume).pending = s.pending := by
  unfold State.waitPassed
  repeat' split
  all_goals simp

@[simp] theorem queueWaitFlag_pending (s : State) (c : Fin 16) (q : Fin 5) (mask : BitVec 16) (tag : Tag) (gap : Nat)
    (flag : FlagRef) (consume : Bool) : (s.queueWaitFlag c q mask tag gap flag consume).pending = s.pending := by
  unfold State.queueWaitFlag
  split
  · exact pending_of_front ‹_›
  · grind [queueHold_pending, issueAt_pending, noteConsume_pending, queueAsks_pending, waitPassed_pending]

@[simp] theorem seqWaitFlag_pending (s : State) (u : SeqUnit) (tag : Tag) (flag : FlagRef) (consume : Bool)
    : (s.seqWaitFlag u tag flag consume).pending = s.pending := by simp [State.seqWaitFlag, apply_ite State.pending]

@[simp] theorem masterFlag_pending (s : State) (r : Fin 8) (tag : Tag) (flag : FlagRef) (set : Bool)
    : (s.masterFlag r tag flag set).pending = s.pending := by
  unfold State.masterFlag
  repeat' split
  all_goals simp

@[simp] theorem releaseNow_pending (s : State) (r : Fin 8) (c : Fin 16) (buf : Buf) (region : Fin 16) (sink : ReleaseTo)
    : (s.releaseNow r c buf region sink).pending = s.pending := by
  unfold State.releaseNow
  split <;> simp

/-! ## Machine/Vector -/

@[simp] theorem vectorCommand_pending (s : State) (e : Eng) (occ : Nat) (gate : Nat → Option GateHold)
    (reads : List (Nat × Nat)) (first count vis : Nat) (go : Fin 8 → Nat → State → State)
    (hgo : ∀ x y z, (go x y z).pending = z.pending)
    : (s.vectorCommand e occ gate reads first count vis go).pending = s.pending := by
  unfold State.vectorCommand
  extract_lets c
  split
  · exact pending_of_front ‹_›
  · grind [queueHold_pending, issueAt_pending, withhold_pending, noteVector_pending]

@[simp] theorem vecWrite_pending (s : State) (c : Fin 16) (reg slot : Nat) (data : List (List Word))
    : (s.vecWrite c reg slot data).pending = s.pending := rfl

@[simp] theorem vecResult_pending (s : State) (c : Fin 16) (fmt : VFmt) (reg slot : Nat) (data : List (List Word))
    : (s.vecResult c fmt reg slot data).pending = s.pending := by
  unfold State.vecResult
  split <;> rfl

@[simp] theorem rxRelease_pending (s : State) (c : Fin 16) (entry : Fin 4) (free : Nat)
    : (s.rxRelease c entry free).pending = s.pending := rfl

@[simp] theorem vecPoison_pending (s : State) (r : Fin 8) (c : Fin 16) (tag : Tag) (level : Nat)
    : (s.vecPoison r c tag level).pending = s.pending := by simp [State.vecPoison]

@[simp] theorem loadRx_pending (s : State) (r : Fin 8) (e : Eng) (dst : Fin 64) (L : Nat) (entry : Fin 4) (first : Nat)
    (release : Bool) (u : Nat) : (s.loadRx r e dst L entry first release u).pending = s.pending := by
  unfold State.loadRx
  dsimp only
  repeat' split
  all_goals simp

@[simp] theorem loadCm_pending (s : State) (r : Fin 8) (e : Eng) (dst : Fin 64) (L addr : Nat) (fmt : VFmt) (u : Nat)
    : (s.loadCm r e dst L addr fmt u).pending = s.pending := by
  unfold State.loadCm
  dsimp only
  repeat' split
  all_goals simp

@[simp] theorem setNamed_pending (s : State) (r : Fin 8) (c : Fin 16) (exec : Bool) (flag : Option FlagRef)
    : (s.setNamed r c exec flag).pending = s.pending := by
  unfold State.setNamed
  split <;> simp

@[simp] theorem complete_pending (s : State) (r : Fin 8) (c : Fin 16) (exec : Bool) (done : Completion)
    : (s.complete r c exec done).pending = s.pending := by
  unfold State.complete
  split <;> simp

@[simp] theorem vstoreNow_pending (s : State) (r : Fin 8) (e : Eng) (src : Fin 64) (L addr : Nat) (fmt : VFmt)
    (mask : BitVec 128) (done : Completion) (u : Nat) : (s.vstoreNow r e src L addr fmt mask done u).pending = s.pending := by
  unfold State.vstoreNow
  dsimp only
  repeat' split
  all_goals simp

/-! ## Machine/Quant -/

@[simp] theorem recPeek_pending (s : State) (tag : Tag) (c : Fin 16) (a : Nat)
    : (s.recPeek tag c a).1.pending = s.pending := by
  unfold State.recPeek
  split <;> simp

@[simp] theorem recKeep_pending (s : State) (tag : Tag) (c : Fin 16) (a : Nat) (b : List Byte)
    : (s.recKeep tag c a b).pending = s.pending := by
  unfold State.recKeep
  dsimp only
  repeat' split
  all_goals simp

@[simp] theorem recsBack_pending (s : State) (tag : Tag) (c : Fin 16) : (s.recsBack tag c).pending = s.pending :=
  by simp [State.recsBack]

@[simp] theorem recPeeks_pending (s : State) (tag : Tag) (c : Fin 16) (a n : Nat)
    : (s.recPeeks tag c a n).1.pending = s.pending := by simp [State.recPeeks]

@[simp] theorem recordErr_pending (s : State) (c : Fin 16) (tag : Tag) : (s.recordErr c tag).pending = s.pending := rfl

@[simp] theorem quantEvents_pending (s : State) (c : Fin 16) (nan inf tooSmall tooBig sat redone : Bool)
    : (s.quantEvents c nan inf tooSmall tooBig sat redone).pending = s.pending := rfl

@[simp] theorem requantWrite_pending (s : State) (c : Fin 16) (tag : Tag) (record codes expmap : Nat) (f : ArrFmt)
    (recs : List (List Byte)) (res : List (GroupStat × GroupOut × Bool))
    : (s.requantWrite c tag record codes expmap f recs res).pending = s.pending := by
  unfold State.requantWrite
  grind [foldl_pending, cmWrite_pending, recKeep_pending, quantEvents_pending, bump_pending, setReg_pending,
    trace_pending]

@[simp] theorem quantIssue_pending (s : State) (e : Eng) (occ prog u : Nat)
    : (s.quantIssue e occ prog u).pending = s.pending := by simp [State.quantIssue]

@[simp] theorem requantNow_pending (s : State) (r : Fin 8) (e : Eng) (src : QuantSrc) (record codes expmap : Nat)
    (column : Bool) (u : Nat) : (s.requantNow r e src record codes expmap column u).pending = s.pending := by
  unfold State.requantNow
  dsimp only
  repeat' split
  all_goals simp

@[simp] theorem quantCommand_pending (s : State) (e : Eng) (gate : Nat → Option GateHold) (reads : List (Nat × Nat))
    (go : Fin 8 → Nat → State) (hgo : ∀ x y, (go x y).pending = s.pending)
    : (s.quantCommand e gate reads go).pending = s.pending := by
  unfold State.quantCommand
  extract_lets c
  split
  · exact pending_of_front ‹_›
  · grind [queueHold_pending, withhold_pending]

@[simp] theorem scaleNow_pending (s : State) (r : Fin 8) (e : Eng) (record occ : Nat) (f : List Byte → List Byte)
    (back : Bool) (u : Nat) : (s.scaleNow r e record occ f back u).pending = s.pending := by
  unfold State.scaleNow
  dsimp only
  repeat' split
  all_goals simp

end Sys2Proof.Machine
end

section
/-! SUPPORT. The queue of commands is as before (log 1): the front end, the codecs, the sample channels and the contexts. -/

namespace Sys2Proof.Machine

set_option Elab.async false

/-! ## Machine/FrontEnd -/

@[simp] theorem feSet_pending (s : State) (r : Fin 8) (n : Fin 256) : (s.feSet r n).pending = s.pending :=
  by simp [State.feSet]

@[simp] theorem freeBuffer_pending (s : State) (x : Fin 64) (k : Nat) : (s.freeBuffer x k).pending = s.pending := by
  unfold State.freeBuffer
  split <;> simp

@[simp] theorem enableStream_pending (s : State) (r : Fin 8) (x : Fin 64) : (s.enableStream r x).pending = s.pending :=
  by simp [State.enableStream]

@[simp] theorem feEnable_pending (s : State) (x : Fin 64) : (s.feEnable x).pending = s.pending := by
  unfold State.feEnable
  split <;> simp

@[simp] theorem rxActive_pending (s : State) (rx : Fin 16) : (s.rxActive rx).pending = s.pending := rfl

@[simp] theorem rxOf_pending (s : State) (x : Fin 64) : (s.rxOf x).pending = s.pending := by
  unfold State.rxOf
  split <;> rfl

@[simp] theorem abandonFrames_pending (s : State) (x : Fin 64) : (s.abandonFrames x).pending = s.pending := by
  unfold State.abandonFrames
  grind [foldl_pending, freeBuffer_pending, onStream_pending, rxOf_pending]

@[simp] theorem feDisable_pending (s : State) (x : Fin 64) : (s.feDisable x).pending = s.pending := by
  unfold State.feDisable
  split <;> simp

@[simp] theorem feCommit_pending (s : State) (x : Fin 64) : (s.feCommit x).pending = s.pending := rfl

@[simp] theorem feRequest_pending (s : State) (x : Fin 64) (op : Nat) : (s.feRequest x op).pending = s.pending := by
  unfold State.feRequest
  split <;> simp

@[simp] theorem feControl_pending (s : State) (who : Who) (x : Fin 64) (op : Nat)
    : (s.feControl who x op).1.pending = s.pending := by
  unfold State.feControl
  split <;> simp

@[simp] theorem streamOff_pending (s : State) (x : Fin 64) : (s.streamOff x).pending = s.pending := rfl

@[simp] theorem dropFrame_pending (s : State) (x : Fin 64) (cause : Nat) : (s.dropFrame x cause).pending = s.pending := rfl

@[simp] theorem fePut_pending (s : State) (x : Fin 64) (k o : Nat) (d : List Byte)
    : (s.fePut x k o d).pending = s.pending := by
  unfold State.fePut
  split <;> simp

@[simp] theorem payloadPut_pending (s : State) (x : Fin 64) (k o : Nat) (d : List Byte)
    : (s.payloadPut x k o d).pending = s.pending := by simp [State.payloadPut]

@[simp] theorem rowPut_pending (s : State) (x : Fin 64) (f : OpenFrame) (p y : Nat)
    : (s.rowPut x f p y).pending = s.pending := by simp [State.rowPut]

@[simp] theorem rowsPut_pending (s : State) (x : Fin 64) (f : OpenFrame) (n : Nat)
    : (s.rowsPut x f n).1.pending = s.pending := by simp [State.rowsPut]

@[simp] theorem ispPut_pending (s : State) (x : Fin 64) (f : OpenFrame) : (s.ispPut x f).pending = s.pending :=
  by simp [State.ispPut]

@[simp] theorem viewPut_pending (s : State) (x : Fin 64) (f : OpenFrame) : (s.viewPut x f).1.pending = s.pending := by
  unfold State.viewPut
  repeat' split
  all_goals simp

@[simp] theorem stampFrame_pending (s : State) (x : Fin 64) (f : OpenFrame) : (s.stampFrame x f).1.pending = s.pending := by
  unfold State.stampFrame
  repeat' split
  all_goals simp

@[simp] theorem closeFrame_pending (s : State) (x : Fin 64) (f : OpenFrame) : (s.closeFrame x f).pending = s.pending := by
  unfold State.closeFrame
  split <;> simp

@[simp] theorem fillLines_pending (s : State) (x : Fin 64) (f : OpenFrame) : (s.fillLines x f).1.pending = s.pending := by
  unfold State.fillLines
  dsimp only
  repeat' split
  all_goals simp

@[simp] theorem fillGaps_pending (s : State) (x : Fin 64) (f : OpenFrame) : (s.fillGaps x f).1.pending = s.pending := by
  unfold State.fillGaps
  dsimp only
  repeat' split
  all_goals simp

@[simp] theorem fillFrame_pending (s : State) (x : Fin 64) (how : FrameEnd) (f : OpenFrame)
    : (s.fillFrame x how f).1.pending = s.pending := by
  unfold State.fillFrame
  repeat' split
  all_goals simp

@[simp] theorem finishFrame_pending (s : State) (x : Fin 64) (how : FrameEnd)
    : (s.finishFrame x how).1.pending = s.pending := by
  unfold State.finishFrame
  dsimp only
  repeat' split
  all_goals simp

@[simp] theorem endFrame_pending (s : State) (x : Fin 64) (how : FrameEnd) : (s.endFrame x how).pending = s.pending := by
  unfold State.endFrame
  grind [finishFrame_pending, freeBuffer_pending]

@[simp] theorem applyCommit_pending (s : State) (x : Fin 64) : (s.applyCommit x).pending = s.pending := by
  unfold State.applyCommit
  split <;> rfl

@[simp] theorem beginFrame_pending (s : State) (r : Fin 8) (x : Fin 64) (number : BitVec 16) (stamp : Option DWord)
    : (s.beginFrame r x number stamp).pending = s.pending := by simp [State.beginFrame]

@[simp] theorem startFrame_pending (s : State) (x : Fin 64) (number : BitVec 16) (stamp : Option DWord)
    : (s.startFrame x number stamp).pending = s.pending := by
  unfold State.startFrame
  dsimp only
  repeat' split
  all_goals simp

@[simp] theorem rxDiscard_pending (s : State) (rx : Fin 16) : (s.rxDiscard rx).pending = s.pending := rfl

@[simp] theorem rxUnbound_pending (s : State) (rx : Fin 16) : (s.rxUnbound rx).pending = s.pending := rfl

@[simp] theorem rxFlag_pending (s : State) (rx : Fin 16) (f : Fld) (b : Bool) : (s.rxFlag rx f b).pending = s.pending := by
  unfold State.rxFlag
  split <;> rfl

@[simp] theorem rxHead_pending (s : State) (rx : Fin 16) (h : CsiHead) : (s.rxHead rx h).pending = s.pending :=
  by simp [State.rxHead]

@[simp] theorem frameStart_pending (s : State) (rx : Fin 16) (h : CsiHead) (frame : BitVec 16)
    : (s.frameStart rx h frame).pending = s.pending := by
  unfold State.frameStart
  split <;> simp

@[simp] theorem takeLine_pending (s : State) (x : Fin 64) (f : OpenFrame) (payload : List Byte) (crcOk : Bool)
    : (s.takeLine x f payload crcOk).pending = s.pending := by
  unfold State.takeLine
  repeat' split
  all_goals simp

@[simp] theorem lineLost_pending (s : State) (rx : Fin 16) (x : Fin 64) : (s.lineLost rx x).pending = s.pending :=
  by simp [State.lineLost]

@[simp] theorem longPacket_pending (s : State) (rx : Fin 16) (h : CsiHead) (dt : Byte) (payload : List Byte)
    (check : LineCheck) : (s.longPacket rx h dt payload check).pending = s.pending := by
  unfold State.longPacket
  dsimp only
  repeat' split
  all_goals simp

@[simp] theorem embeddedData_pending (s : State) (rx : Fin 16) (h : CsiHead) (d : List Byte) (crcOk : Bool)
    : (s.embeddedData rx h d crcOk).pending = s.pending := by
  unfold State.embeddedData
  grind [foldl_pending, rxHead_pending, rxFlag_pending, rxUnbound_pending, onStream_pending]

@[simp] theorem frameEnd_pending (s : State) (rx : Fin 16) (h : CsiHead) : (s.frameEnd rx h).pending = s.pending := by
  unfold State.frameEnd
  split <;> simp

@[simp] theorem sotError_pending (s : State) (rx : Fin 16) : (s.sotError rx).pending = s.pending := rfl

@[simp] theorem eccBad_pending (s : State) (rx : Fin 16) : (s.eccBad rx).pending = s.pending := rfl

@[simp] theorem holdTime_pending (s : State) (x : Fin 64) (number : BitVec 16) (stamp : DWord)
    : (s.holdTime x number stamp).pending = s.pending := by
  unfold State.holdTime
  dsimp only
  repeat' split
  all_goals simp

@[simp] theorem endWait_pending (s : State) (x : Fin 64) : (s.endWait x).pending = s.pending := by
  unfold State.endWait
  split <;> rfl

@[simp] theorem queueView_pending (s : State) (x : Fin 64) (f : OpenFrame) : (s.queueView x f).pending = s.pending := by
  unfold State.queueView
  split <;> rfl

@[simp] theorem deliverFrame_pending (s : State) (r : Fin 8) (x : Fin 64) (f : OpenFrame)
    : (s.deliverFrame r x f).pending = s.pending := by
  unfold State.deliverFrame
  repeat' split
  all_goals simp

@[simp] theorem ethBytes_pending (s : State) (x : Fin 64) (o : Nat) (d : List Byte)
    : (s.ethBytes x o d).pending = s.pending := by
  unfold State.ethBytes
  split <;> simp

/-! ## Machine/Codec -/

@[simp] theorem setCdc_pending (s : State) (c : Fin 16) (st : Nat) : (s.setCdc c st).pending = s.pending := rfl

@[simp] theorem setCdcCause_pending (s : State) (c : Fin 16) (cause : Nat) : (s.setCdcCause c cause).pending = s.pending :=
  rfl

@[simp] theorem openSession_pending (s : State) (r : Fin 8) (c : Fin 16) : (s.openSession r c).pending = s.pending := rfl

@[simp] theorem cdcOpenNow_pending (s : State) (r : Fin 8) (c : Fin 16) : (s.cdcOpenNow r c).pending = s.pending := by
  unfold State.cdcOpenNow
  repeat' split
  all_goals simp

@[simp] theorem dropViews_pending (s : State) (c : Fin 16) : (s.dropViews c).pending = s.pending := by
  unfold State.dropViews
  split <;> rfl

@[simp] theorem cdcCloseNow_pending (s : State) (c : Fin 16) : (s.cdcCloseNow c).pending = s.pending := by
  unfold State.cdcCloseNow
  split <;> simp

@[simp] theorem cdcRequest_pending (s : State) (r : Fin 8) (c : Fin 16) (op : Nat)
    : (s.cdcRequest r c op).pending = s.pending := by
  unfold State.cdcRequest
  split <;> simp

@[simp] theorem cdcControl_pending (s : State) (who : Who) (c : Fin 16) (op : Nat)
    : (s.cdcControl who c op).1.pending = s.pending := by
  unfold State.cdcControl
  split <;> simp

@[simp] theorem cdcPut_pending (s : State) (c : Fin 16) (o : Nat) (d : List Byte) : (s.cdcPut c o d).pending = s.pending :=
  by simp [State.cdcPut]

@[simp] theorem cdcGet_pending (s : State) (c : Fin 16) (o n : Nat) : (s.cdcGet c o n).1.pending = s.pending :=
  by simp [State.cdcGet]

@[simp] theorem cdcSkip_pending (s : State) (c : Fin 16) : (s.cdcSkip c).pending = s.pending := rfl

@[simp] theorem storeUnit_pending (s : State) (c : Fin 16) (v : ViewFrame) (au : CodecUnit) (place : Nat × Nat × Bool)
    : (s.storeUnit c v au place).pending = s.pending := by
  unfold State.storeUnit
  split <;> simp

@[simp] theorem encodeUnit_pending (s : State) (c : Fin 16) (x : Fin 64) (v : ViewFrame) (au : CodecUnit)
    : (s.encodeUnit c x v au).pending = s.pending := by
  unfold State.encodeUnit
  split <;> simp

@[simp] theorem setRptr_pending (s : State) (c : Fin 16) (o : Nat) : (s.setRptr c o).pending = s.pending := rfl

@[simp] theorem handPicture_pending (s : State) (r : Fin 8) (x : Fin 64) (p : Picture)
    : (s.handPicture r x p).pending = s.pending := by
  unfold State.handPicture
  dsimp only
  repeat' split
  all_goals simp

@[simp] theorem showPicture_pending (s : State) (r : Fin 8) (x : Fin 64) (p : Picture)
    : (s.showPicture r x p).pending = s.pending := by
  unfold State.showPicture
  repeat' split
  all_goals simp

@[simp] theorem showDue_pending (r : Fin 8) (c : Fin 16) (x : Fin 64) (l : List Picture) (s : State)
    : (State.showDue r c x l s).pending = s.pending := by
  induction l generalizing s with
  | nil => rfl
  | cons p l ih =>
    unfold State.showDue
    split
    · rfl
    · rw [ih, showPicture_pending]

@[simp] theorem takeUnit_pending (s : State) (c : Fin 16) (h picture : List Byte) (syntaxOk : Bool) (shown : List Nat)
    : (s.takeUnit c h picture syntaxOk shown).pending = s.pending := rfl

@[simp] theorem decodeAt_pending (s : State) (c : Fin 16) (h picture : List Byte) (supported syntaxOk : Bool)
    (shown : List Nat) : (s.decodeAt c h picture supported syntaxOk shown).pending = s.pending := by
  unfold State.decodeAt
  dsimp only
  repeat' split
  all_goals simp

@[simp] theorem decodeUnitAt_pending (s : State) (c : Fin 16) (picture : List Byte) (supported syntaxOk : Bool)
    (shown : List Nat) : (s.decodeUnitAt c picture supported syntaxOk shown).pending = s.pending := by
  unfold State.decodeUnitAt
  dsimp only
  repeat' split
  all_goals simp

@[simp] theorem decodeNext_pending (s : State) (c : Fin 16) (picture : List Byte) (supported syntaxOk : Bool)
    (shown : List Nat) : (s.decodeNext c picture supported syntaxOk shown).pending = s.pending := by
  unfold State.decodeNext
  dsimp only
  repeat' split
  all_goals simp

/-! ## Machine/Sample -/

@[simp] theorem smpSet_pending (s : State) (r : Fin 8) (n : Nat) : (s.smpSet r n).pending = s.pending :=
  by simp [State.smpSet]

@[simp] theorem smpShow_pending (s : State) (c : Fin 16) : (s.smpShow c).pending = s.pending := rfl

@[simp] theorem openChannel_pending (s : State) (r : Fin 8) (c : Fin 16) : (s.openChannel r c).pending = s.pending :=
  by simp [State.openChannel]

@[simp] theorem smpOpenNow_pending (s : State) (r : Fin 8) (c : Fin 16) : (s.smpOpenNow r c).pending = s.pending := by
  unfold State.smpOpenNow
  split <;> simp

@[simp] theorem smpReport_pending (s : State) (c : Fin 16) (p : SampleReport) : (s.smpReport c p).pending = s.pending :=
  by simp [State.smpReport]

@[simp] theorem smpMode_pending (s : State) (c : Fin 16) : (s.smpMode c).pending = s.pending := by
  unfold State.smpMode
  dsimp only
  repeat' split
  all_goals simp

@[simp] theorem smpCount_pending (s : State) (c : Fin 16) (reason : Nat) : (s.smpCount c reason).pending = s.pending := by
  unfold State.smpCount
  split <;> rfl

@[simp] theorem smpShut_pending (s : State) (c : Fin 16) : (s.smpShut c).pending = s.pending := rfl

@[simp] theorem smpLeave_pending (s : State) (c : Fin 16) (m : Sample) : (s.smpLeave c m).pending = s.pending := by
  unfold State.smpLeave
  dsimp only
  repeat' split
  all_goals simp

@[simp] theorem smpDrop_pending (s : State) (c : Fin 16) (m : Sample) (reason : Nat)
    : (s.smpDrop c m reason).pending = s.pending := by
  unfold State.smpDrop
  split <;> simp

@[simp] theorem smpCloseNow_pending (s : State) (c : Fin 16) : (s.smpCloseNow c).pending = s.pending := by
  unfold State.smpCloseNow
  dsimp only
  repeat' split
  all_goals simp

@[simp] theorem smpRequest_pending (s : State) (r : Fin 8) (c : Fin 16) (op : Nat)
    : (s.smpRequest r c op).pending = s.pending := by
  unfold State.smpRequest
  split <;> simp

@[simp] theorem smpControl_pending (s : State) (who : Who) (c : Fin 16) (op : Nat)
    : (s.smpControl who c op).1.pending = s.pending := by
  unfold State.smpControl
  split <;> simp

@[simp] theorem smpStopRing_pending (s : State) (r : Fin 8) : (s.smpStopRing r).pending = s.pending :=
  by simp [State.smpStopRing, apply_ite State.pending]

@[simp] theorem stagePut_pending (s : State) (c : Fin 16) (m : Sample) (o : Nat) (d : List Byte)
    : (s.stagePut c m o d).pending = s.pending := by simp [State.stagePut]

@[simp] theorem stageChunk_pending (s : State) (c : Fin 16) (m : Sample) (o : Nat) (d : List Byte)
    : (s.stageChunk c m o d).pending = s.pending := by
  unfold State.stageChunk
  split <;> simp

@[simp] theorem sampleFirst_pending (s : State) (c : Fin 16) (msgId : BitVec 16) (d : List Byte)
    : (s.sampleFirst c msgId d).1.pending = s.pending := by
  unfold State.sampleFirst
  dsimp only
  repeat' split
  all_goals simp

@[simp] theorem sampleMore_pending (s : State) (c : Fin 16) (msgId : BitVec 16) (slot o : Nat) (d : List Byte)
    : (s.sampleMore c msgId slot o d).1.pending = s.pending := by
  unfold State.sampleMore
  split <;> simp

@[simp] theorem sampleStale_pending (s : State) (c : Fin 16) (p : Sample → Bool)
    : (s.sampleStale c p).pending = s.pending := by
  unfold State.sampleStale
  split <;> simp

@[simp] theorem takeHead_pending (s : State) (c : Fin 16) (budget : Nat) : (s.takeHead c budget).pending = s.pending := rfl

@[simp] theorem decoderTake_pending (s : State) (c : Fin 16) : (s.decoderTake c).pending = s.pending := rfl

@[simp] theorem smpPut_pending (s : State) (c : Fin 16) (k o : Nat) (d : List PByte)
    : (s.smpPut c k o d).pending = s.pending := by simp [State.smpPut]

@[simp] theorem samplePlanes_pending (s : State) (c : Fin 16) (m : Sample) (sub : ChromaSub) (planes : List Byte)
    : (s.samplePlanes c m sub planes).1.pending = s.pending := by
  unfold State.samplePlanes
  split <;> simp

@[simp] theorem putPlanes_pending (s : State) (c : Fin 16) (m : Sample) (k : Nat) (d : List PByte)
    : (s.putPlanes c m k d).pending = s.pending := by simp [State.putPlanes]

@[simp] theorem deliverSample_pending (s : State) (c : Fin 16) (m : Sample) (k cycles : Nat) (sub : ChromaSub)
    (planes : List Byte) : (s.deliverSample c m k cycles sub planes).pending = s.pending := by
  unfold State.deliverSample
  extract_lets t
  split
  rename_i h
  extract_lets s1 s2 s3
  have h3 : s3.pending = s.pending := by
    rw [show s3.pending = s2.pending from rfl, smpSet_pending, smpPut_pending, putPlanes_pending, pending_of_eq h, samplePlanes_pending]
  rw [smpReport_pending, smpLeave_pending, h3]

@[simp] theorem finishSample_pending (s : State) (c : Fin 16) (m : Sample) (k cycles : Nat) (sub : ChromaSub)
    (planes : List Byte) : (s.finishSample c m k cycles sub planes).pending = s.pending := by
  unfold State.finishSample
  split <;> simp

/-! ## Machine/Pages -/

@[simp] theorem ptPut_pending (s : State) (x : Fin 4096) (n : Nat) (e : DWord) : (s.ptPut x n e).pending = s.pending :=
  by simp [State.ptPut]

@[simp] theorem givePage_pending (s : State) (x : Fin 4096) (page : Nat) (f : Bool × Nat × Bool)
    : (s.givePage x page f).pending = s.pending := by
  unfold State.givePage
  split <;> simp

@[simp] theorem allocPage_pending (s : State) (r : Fin 8) (x : Fin 4096) (page : Nat) {t : State}
    : (s.allocPage r x page) = some t → t.pending = s.pending := by
  intro h
  obtain ⟨f, -, rfl⟩ := Option.map_eq_some_iff.mp h
  simp

/-! ## Machine/Seq -/

@[simp] theorem setAge_pending (s : State) (x : Fin 4096) (v : Word) : (s.setAge x v).pending = s.pending := rfl

@[simp] theorem bumpPreempts_pending (s : State) (x : Fin 4096) : (s.bumpPreempts x).pending = s.pending := rfl

@[simp] theorem setCtxCause_pending (s : State) (x : Fin 4096) (c : Nat) : (s.setCtxCause x c).pending = s.pending := rfl

@[simp] theorem frameRead_pending (s : State) (r : Fin 8) (tier : Bool) (frame : Nat)
    : (s.frameRead r tier frame).1.pending = s.pending := by
  unfold State.frameRead
  split <;> simp

@[simp] theorem frameWrite_pending (s : State) (r : Fin 8) (tier : Bool) (frame gen : Nat) (d : List PByte)
    : (s.frameWrite r tier frame gen d).pending = s.pending := by
  unfold State.frameWrite
  split <;> simp

@[simp] theorem pageSend_pending (s : State) (r : Fin 8) (x : Fin 4096) (type : Byte) (bad : List Nat) (body : List Byte)
    : (s.pageSend r x type bad body).pending = s.pending := by
  unfold State.pageSend
  split <;> simp

@[simp] theorem pageDrop_pending (s : State) (r : Fin 8) (x : Fin 4096) (n gen : Nat)
    : (s.pageDrop r x n gen).pending = s.pending := by simp [State.pageDrop]

@[simp] theorem pageAgain_pending (s : State) (r : Fin 8) (x : Fin 4096) (m : PageMove) (type : Byte) (bad : List Nat)
    (body : List Byte) : (s.pageAgain r x m type bad body).pending = s.pending := by
  unfold State.pageAgain
  split <;> simp

@[simp] theorem pageOut_pending (s : State) (r : Fin 8) (x : Fin 4096) (m : PageMove) (again : Bool)
    : (s.pageOut r x m again).pending = s.pending := by
  unfold State.pageOut
  dsimp only
  repeat' split
  all_goals simp

@[simp] theorem pageIn_pending (s : State) (r : Fin 8) (x : Fin 4096) (m : PageMove) (again : Bool)
    : (s.pageIn r x m again).pending = s.pending := by
  unfold State.pageIn
  split <;> simp

@[simp] theorem addMove_pending (s : State) (r : Fin 8) (x : Fin 4096) (m : PageMove)
    : (s.addMove r x m).pending = s.pending := rfl

@[simp] theorem endMove_pending (s : State) (r : Fin 8) (x : Fin 4096) (n : Nat) : (s.endMove r x n).pending = s.pending :=
  rfl

@[simp] theorem startOut_pending (s : State) (r : Fin 8) (x : Fin 4096) (n : Nat)
    : (s.startOut r x n).pending = s.pending := by
  unfold State.startOut
  dsimp only
  repeat' split
  all_goals simp

@[simp] theorem startIn_pending (s : State) (r : Fin 8) (x : Fin 4096) (n : Nat) (f : Bool × Nat × Bool)
    : (s.startIn r x n f).pending = s.pending := by
  unfold State.startIn
  dsimp only
  repeat' split
  all_goals simp

@[simp] theorem cancelSwaps_pending (s : State) (r : Fin 8) : (s.cancelSwaps r).pending = s.pending := rfl

@[simp] theorem startMoves_pending (r : Fin 8) (x : Fin 4096) (n : Nat) (s : State)
    : (State.startMoves r x n s).pending = s.pending := by
  induction n generalizing s with
  | zero => rfl
  | succ n ih =>
    unfold State.startMoves
    grind [startOut_pending, startIn_pending]

@[simp] theorem freeContext_pending (s : State) (r : Fin 8) (x : Fin 4096) : (s.freeContext r x).pending = s.pending :=
  by simp [State.freeContext]

@[simp] theorem settleSwap_pending (s : State) (r : Fin 8) (x : Fin 4096) : (s.settleSwap r x).pending = s.pending := by
  unfold State.settleSwap
  repeat' split
  all_goals simp

@[simp] theorem runMoves_pending (s : State) (r : Fin 8) (x : Fin 4096) : (s.runMoves r x).pending = s.pending :=
  by simp [State.runMoves]

@[simp] theorem runAllMoves_pending (s : State) (r : Fin 8) : (s.runAllMoves r).pending = s.pending :=
  by simp [State.runAllMoves]

@[simp] theorem leftPage_pending (s : State) (r : Fin 8) (x : Fin 4096) (n : Nat) (host : Bool) (loc : Nat)
    : (s.leftPage r x n host loc).pending = s.pending := by simp [State.leftPage]

@[simp] theorem spilled_pending (s : State) (r : Fin 8) (x : Fin 4096) (m : PageMove)
    : (s.spilled r x m).pending = s.pending := by
  unfold State.spilled
  split <;> simp

@[simp] theorem pageAcked_pending (s : State) (r : Fin 8) (x : Fin 4096) (m : PageMove)
    : (s.pageAcked r x m).pending = s.pending := by simp [State.pageAcked]

@[simp] theorem outFailed_pending (s : State) (r : Fin 8) (x : Fin 4096) (m : PageMove)
    : (s.outFailed r x m).pending = s.pending := by simp [State.outFailed]

@[simp] theorem returned_pending (s : State) (r : Fin 8) (x : Fin 4096) (m : PageMove) (d : List PByte)
    : (s.returned r x m d).pending = s.pending := by
  unfold State.returned
  split <;> simp

@[simp] theorem dropAdmission_pending (s : State) (r : Fin 8) (ctxs : List Nat)
    : (s.dropAdmission r ctxs).pending = s.pending := by simp [State.dropAdmission, apply_ite State.pending]

@[simp] theorem refuseInvocation_pending (s : State) (r : Fin 8) (i : Invocation) (status : Nat)
    : (s.refuseInvocation r i status).pending = s.pending := by
  unfold State.refuseInvocation
  repeat' split
  all_goals simp

@[simp] theorem loseContext_pending (s : State) (r : Fin 8) (x : Fin 4096) (n cause : Nat)
    : (s.loseContext r x n cause).pending = s.pending := by
  unfold State.loseContext
  extract_lets s1
  rw [foldl_pending _ _ _ fun t i => refuseInvocation_pending .., setFld_pending, setCtxCause_pending, setCtxState_pending, endMove_pending]

@[simp] theorem inFailed_pending (s : State) (r : Fin 8) (x : Fin 4096) (m : PageMove) (cause : Nat)
    : (s.inFailed r x m cause).pending = s.pending := by
  unfold State.inFailed
  repeat' split
  all_goals simp

@[simp] theorem pageCame_pending (s : State) (r : Fin 8) (x : Fin 4096) (m : PageMove) (gen : Nat) (crc : Word)
    (poisoned : Bool) (d : List Byte) : (s.pageCame r x m gen crc poisoned d).pending = s.pending := by
  unfold State.pageCame
  dsimp only
  repeat' split
  all_goals simp

@[simp] theorem noAnswer_pending (s : State) (r : Fin 8) (x : Fin 4096) (m : PageMove)
    : (s.noAnswer r x m).pending = s.pending := by
  unfold State.noAnswer
  repeat' split
  all_goals simp

@[simp] theorem refuseCtx_pending (s : State) (r : Fin 8) (x : Fin 4096) (cause : Nat)
    : (s.refuseCtx r x cause).pending = s.pending := rfl

@[simp] theorem openContext_pending (s : State) (r : Fin 8) (x : Fin 4096) (endpoint : Option (Fin 8))
    : (s.openContext r x endpoint).pending = s.pending := by simp [State.openContext]

@[simp] theorem ctxOpenNow_pending (s : State) (r : Fin 8) (x : Fin 4096) (who : Who)
    : (s.ctxOpenNow r x who).pending = s.pending := by
  unfold State.ctxOpenNow
  repeat' split
  all_goals simp

@[simp] theorem beginClose_pending (s : State) (r : Fin 8) (x : Fin 4096) : (s.beginClose r x).pending = s.pending :=
  by simp [State.beginClose]

@[simp] theorem ctxCloseNow_pending (s : State) (r : Fin 8) (x : Fin 4096) : (s.ctxCloseNow r x).pending = s.pending := by
  unfold State.ctxCloseNow
  repeat' split
  all_goals simp

@[simp] theorem ctxPrefetchNow_pending (s : State) (r : Fin 8) (x : Fin 4096)
    : (s.ctxPrefetchNow r x).pending = s.pending := by
  unfold State.ctxPrefetchNow
  split <;> simp

@[simp] theorem preempt_pending (s : State) (r : Fin 8) (x : Fin 4096) {t : State}
    : (s.preempt r x) = some t → t.pending = s.pending := by
  unfold State.preempt
  grind [setCtxState_pending, bumpPreempts_pending, onCtx_pending, runMoves_pending]

@[simp] theorem spillFull_pending (s : State) (r : Fin 8) (x : Fin 4096) : (s.spillFull r x).pending = s.pending := rfl

@[simp] theorem ctxEvictNow_pending (s : State) (r : Fin 8) (x : Fin 4096) : (s.ctxEvictNow r x).pending = s.pending := by
  unfold State.ctxEvictNow
  split
  · cases h : s.preempt r x with
    | none => simp
    | some t => exact preempt_pending s r x h
  · simp

@[simp] theorem ctxRequest_pending (s : State) (r : Fin 8) (who : Who) (op : Nat) (x : Fin 4096)
    : (s.ctxRequest r who op x).pending = s.pending := by
  unfold State.ctxRequest
  split <;> simp

@[simp] theorem ctxControl_pending (s : State) (r : Fin 8) (who : Who) (op : Nat) (x : Fin 4096)
    : (s.ctxControl r who op x).1.pending = s.pending := by simp [State.ctxControl]

@[simp] theorem preemptFor_pending (r : Fin 8) (listed : List Nat) (n : Nat) (l : List Nat) (s : State)
    : (State.preemptFor r listed n l s).1.pending = s.pending := by
  induction n generalizing l s with
  | zero => rfl
  | succ n ih =>
    unfold State.preemptFor
    grind [preempt_pending, spillFull_pending]

@[simp] theorem reserveFor_pending (s : State) (r : Fin 8) (listed : List Nat)
    : (s.reserveFor r listed).pending = s.pending := by
  exact foldl_pending _ _ _ fun t n => onCtx_pending ..

@[simp] theorem swapInFor_pending (s : State) (r : Fin 8) (listed : List Nat)
    : (s.swapInFor r listed).pending = s.pending := by simp [State.swapInFor, apply_ite State.pending]

@[simp] theorem activateFor_pending (s : State) (r : Fin 8) (listed : List Nat)
    : (s.activateFor r listed).pending = s.pending := by
  unfold State.activateFor
  split
  · rw [onRing_pending, foldl_pending _ _ _ fun t n => (onCtx_pending ..).trans (setCtxState_pending ..)]
  · rfl

@[simp] theorem admitFrames_pending (s : State) (r : Fin 8) (i : Invocation) (listed : List Nat)
    : (s.admitFrames r i listed).pending = s.pending := by
  unfold State.admitFrames
  extract_lets adm
  split
  · rw [activateFor_pending, swapInFor_pending]
  · split
    rename_i h
    extract_lets need s2 s3
    have h2 : s2.pending = s.pending := by rw [onRing_pending, pending_of_eq h, preemptFor_pending]
    split
    · rw [activateFor_pending, swapInFor_pending, onRing_pending, reserveFor_pending, h2]
    · split
      · exact h2
      · rw [foldl_pending _ _ _ fun t n => setCtxCause_pending .., setFld_pending, refuseInvocation_pending, h2]

@[simp] theorem endSwapOuts_pending (s : State) (r : Fin 8) (listed : List Nat)
    : (s.endSwapOuts r listed).pending = s.pending := by simp [State.endSwapOuts, apply_ite State.pending]

@[simp] theorem admitHead_pending (s : State) (r : Fin 8) (i : Invocation) : (s.admitHead r i).pending = s.pending := by
  unfold State.admitHead
  dsimp only
  repeat' split
  all_goals simp

@[simp] theorem unspilled_pending (s : State) (r : Fin 8) (x : Fin 4096) (m : PageMove)
    : (s.unspilled r x m).pending = s.pending := by simp [State.unspilled]

@[simp] theorem stepContexts_pending (s : State) (r : Fin 8) (i : Invocation) : (s.stepContexts r i).pending = s.pending := by
  exact foldl_pending _ _ _ fun t n => onCtx_pending ..

@[simp] theorem demote_pending (s : State) (r : Fin 8) (x : Fin 4096) (n : Nat) : (s.demote r x n).pending = s.pending := by
  unfold State.demote
  dsimp only
  repeat' split
  all_goals simp

@[simp] theorem demoteAll_pending (s : State) (r : Fin 8) : (s.demoteAll r).pending = s.pending := by simp [State.demoteAll]

@[simp] theorem contextDone_pending (s : State) (r : Fin 8) (keep : List Nat) (n : Nat)
    : (s.contextDone r keep n).pending = s.pending := by
  unfold State.contextDone
  dsimp only
  repeat' split
  all_goals simp

@[simp] theorem stepEnds_pending (s : State) (r : Fin 8) (i : Invocation) : (s.stepEnds r i).pending = s.pending :=
  by simp [State.stepEnds]

@[simp] theorem releaseContexts_pending (s : State) (r : Fin 8) : (s.releaseContexts r).pending = s.pending := by
  unfold State.releaseContexts
  dsimp only
  repeat' split
  all_goals simp

end Sys2Proof.Machine
end

section
/-! SUPPORT. The queue of commands is as before (log 1): the ports of a trapeze, the DMA and store engines, the requests of a ring. -/

namespace Sys2Proof.Machine

set_option Elab.async false

/-! ## Machine/Link -/

@[simp] theorem setPortState_pending (s : State) (p : Fin 4) (st : Nat) : (s.setPortState p st).pending = s.pending := rfl

@[simp] theorem pumpOut_pending (s : State) (p : Fin 4) : (s.pumpOut p).pending = s.pending := by
  unfold State.pumpOut
  split <;> rfl

@[simp] theorem portSend_pending (s : State) (p : Fin 4) (x : TxPacket) : (s.portSend p x).pending = s.pending :=
  by simp [State.portSend]

@[simp] theorem sendLink_pending (s : State) (p : Fin 4) (nak : Bool) : (s.sendLink p nak).pending = s.pending := rfl

@[simp] theorem countNowhere_pending (s : State) (p : Option (Fin 4)) : (s.countNowhere p).pending = s.pending := by
  unfold State.countNowhere
  split <;> rfl

@[simp] theorem writeLagRecord_pending (s : State) : s.writeLagRecord.pending = s.pending := by
  unfold State.writeLagRecord
  split <;> simp

@[simp] theorem onWorker_pending (s : State) (d : Nat) (f : LagWorker → LagWorker) : (s.onWorker d f).pending = s.pending :=
  rfl

@[simp] theorem removeWorker_pending (s : State) (d : Nat) : (s.removeWorker d).pending = s.pending := by
  unfold State.removeWorker
  dsimp only
  repeat' split
  all_goals simp

@[simp] theorem reportLag_pending (s : State) (d : Nat) : (s.reportLag d).pending = s.pending := by
  unfold State.reportLag
  dsimp only
  repeat' split
  all_goals simp

@[simp] theorem decideStep_pending (s : State) (d k : Nat) (behind : Bool)
    : (s.decideStep d k behind).pending = s.pending := by
  unfold State.decideStep
  dsimp only
  repeat' split
  all_goals simp

@[simp] theorem formStep_pending (s : State) : s.formStep.pending = s.pending := by simp [State.formStep]

@[simp] theorem formSteps_pending (n : Nat) (s : State) : (State.formSteps n s).pending = s.pending := by
  induction n generalizing s with
  | zero => rfl
  | succ n ih =>
    unfold State.formSteps
    grind [formStep_pending]

@[simp] theorem lagArrival_pending (s : State) (d : Nat) : (s.lagArrival d).pending = s.pending := by
  unfold State.lagArrival
  dsimp only
  repeat' split
  all_goals simp

@[simp] theorem windowWrite_pending (s : State) (w : Fin 256) (o : Nat) (d : List PByte)
    : (s.windowWrite w o d).1.pending = s.pending := by
  unfold State.windowWrite
  dsimp only
  repeat' split
  all_goals simp

@[simp] theorem windowRead_pending (s : State) (w : Fin 256) (o n : Nat) : (s.windowRead w o n).1.pending = s.pending := by
  unfold State.windowRead
  dsimp only
  repeat' split
  all_goals simp

@[simp] theorem refuseRemote_pending (s : State) (kind : Nat) (q : Packet) (w : Fin 256) (status : Nat)
    : (s.refuseRemote kind q w status).1.pending = s.pending := rfl

@[simp] theorem windowFlag_pending (s : State) (w : Fin 256) (via : Fin 4) : (s.windowFlag w via).pending = s.pending := by
  unfold State.windowFlag
  split <;> simp

@[simp] theorem windowArrival_pending (s : State) (w : Fin 256) (q : Packet) : (s.windowArrival w q).pending = s.pending := by
  unfold State.windowArrival
  split <;> simp

@[simp] theorem serve_pending (s : State) (via : Fin 4) (kind : Nat) (q : Packet)
    : (s.serve via kind q).1.pending = s.pending := by
  unfold State.serve
  grind [windowWrite_pending, bump_pending, windowFlag_pending, windowArrival_pending, refuseRemote_pending,
    windowRead_pending]

/-! ## Machine/Dma -/

@[simp] theorem cmPieces_pending (tag : Tag) (c : Fin 16) (l : List (Nat × Nat)) (s : State)
    : (State.cmPieces tag c l s).1.pending = s.pending := by
  induction l generalizing s with
  | nil => rfl
  | cons p l ih => exact (ih _).trans (cmRead_pending s tag c p.1 p.2)

@[simp] theorem cmRows_pending (s : State) (tag : Tag) (c : Fin 16) (addr pitch n : Nat)
    : (s.cmRows tag c addr pitch n).1.pending = s.pending := by simp [State.cmRows]

@[simp] theorem patternRead_pending (s : State) (tag : Tag) (c : Fin 16) (addr : Nat) (pat : Pattern) (pos len : Nat)
    : (s.patternRead tag c addr pat pos len).1.pending = s.pending := by
  unfold State.patternRead
  split <;> simp

@[simp] theorem dramPieces_pending (r : Fin 8) (tag : Tag) (gen : Option (BitVec 16)) (l : List (Nat × Nat)) (s : State)
    : (State.dramPieces r tag gen l s).1.pending = s.pending := by
  induction l generalizing s with
  | nil => rfl
  | cons p l ih =>
    unfold State.dramPieces
    grind [pending_of_eq, dramRead_pending]

@[simp] theorem placeRead_pending (s : State) (r : Fin 8) (c : Fin 16) (tag : Tag) (x : Transfer) (pos len : Nat)
    : (s.placeRead r c tag x pos len).1.pending = s.pending := by
  unfold State.placeRead
  dsimp only
  repeat' split
  all_goals simp

@[simp] theorem putPieces_pending (put : State → Nat → List PByte → State × Bool) (l : List (Nat × Nat)) (d : List PByte)
    (s : State) (hput : ∀ x y z, (put x y z).1.pending = x.pending) : (State.putPieces put l d s).1.pending = s.pending := by
  induction l generalizing d s with
  | nil => rfl
  | cons p l ih =>
    unfold State.putPieces
    grind [pending_of_eq]

@[simp] theorem placeWrite_pending (s : State) (r : Fin 8) (c : Fin 16) (tag : Tag) (x : Transfer) (pos : Nat)
    (d : List PByte) : (s.placeWrite r c tag x pos d).1.pending = s.pending := by
  unfold State.placeWrite
  repeat' split
  all_goals simp

@[simp] theorem dmaFault_pending (s : State) (r : Fin 8) (c : Fin 16) (tag : Tag) (row access len addr : Nat)
    : (s.dmaFault r c tag row access len addr).pending = s.pending := by simp [State.dmaFault]

@[simp] theorem resolveMwy_pending (s : State) (r : Fin 8) (c : Fin 16) (tag : Tag) (access addr bytes : Nat)
    (fallback : Option Nat) : (s.resolveMwy r c tag access addr bytes fallback).1.pending = s.pending := by
  unfold State.resolveMwy
  repeat' split
  all_goals simp

@[simp] theorem walk_pending (s : State) (c : Fin 16) (tag : Tag) (x : Fin 4096) (page : Nat)
    : (s.walk c tag x page).1.pending = s.pending := by
  unfold State.walk
  grind [dramRead_pending]

@[simp] theorem keepTranslation_pending (s : State) (c : Fin 16) (x : Fin 4096) (page : Nat) (e : DWord)
    : (s.keepTranslation c x page e).pending = s.pending := rfl

@[simp] theorem seqPage_pending (s : State) (r : Fin 8) (c : Fin 16) (tag : Tag) (x : Fin 4096)
    (page first pitch offset per bytes : Nat) (write : Bool)
    : (s.seqPage r c tag x page first pitch offset per bytes write).1.pending = s.pending := by
  unfold State.seqPage
  grind [walk_pending, poisoned_pending, keepTranslation_pending, allocPage_pending, dmaFault_pending, setFld_pending]

@[simp] theorem resolveSeq_pending (s : State) (r : Fin 8) (c : Fin 16) (tag : Tag) (ctx : Fin 4096)
    (stream token offset per bytes : Nat) (write : Bool)
    : (s.resolveSeq r c tag ctx stream token offset per bytes write).1.pending = s.pending := by
  unfold State.resolveSeq
  dsimp only
  repeat' split
  all_goals simp

@[simp] theorem resolveEnd_pending (s : State) (r : Fin 8) (c : Fin 16) (tag : Tag) (bytes : Nat) (write : Bool)
    (d : DmaEnd) : (s.resolveEnd r c tag bytes write d).1.pending = s.pending := by
  unfold State.resolveEnd
  grind [dmaFault_pending, resolveMwy_pending, resolveSeq_pending]

@[simp] theorem onDma_pending (s : State) (c : Fin 16) (f : EngineBusy → EngineBusy) : (s.onDma c f).pending = s.pending :=
  rfl

@[simp] theorem dmaDrop_pending (s : State) (c : Fin 16) : (s.dmaDrop c).pending = s.pending := rfl

@[simp] theorem remoteFailed_pending (s : State) (r : Fin 8) (q : RemoteReq) (status : Nat)
    : (s.remoteFailed r q status).pending = s.pending := by
  unfold State.remoteFailed
  split <;> rfl

@[simp] theorem deliver_pending (s : State) (r : Fin 8) (q : RemoteReq) (d : List PByte)
    : (s.deliver r q d).pending = s.pending := by
  unfold State.deliver
  grind [placeWrite_pending, onCore_pending, dmaDrop_pending]

@[simp] theorem remoteReply_pending (s : State) (txn : BitVec 16) (status : Nat) (d : List PByte)
    : (s.remoteReply txn status d).pending = s.pending := by
  unfold State.remoteReply
  repeat' split
  all_goals simp

@[simp] theorem dispatch_pending (s : State) (kind : Nat) (q : Packet) : (s.dispatch kind q).pending = s.pending := by
  unfold State.dispatch
  split <;> simp

@[simp] theorem askOne_pending (s : State) (r : Fin 8) (c : Fin 16) (b : EngineBusy) (x : Transfer) (write : Bool)
    (device window : Byte) (offset : Nat) (setFlag : Bool)
    : (s.askOne r c b x write device window offset setFlag).pending = s.pending := by
  unfold State.askOne
  grind [onDma_pending, dispatch_pending, placeRead_pending, dmaDrop_pending]

@[simp] theorem askMore_pending (r : Fin 8) (c : Fin 16) (n : Nat) (s : State)
    : (State.askMore r c n s).pending = s.pending := by
  induction n generalizing s with
  | zero => rfl
  | succ n ih =>
    unfold State.askMore
    grind [askOne_pending]

@[simp] theorem askAll_pending (s : State) : s.askAll.pending = s.pending := by
  unfold State.askAll
  grind [foldl_pending, askMore_pending]

@[simp] theorem moveHere_pending (s : State) (r : Fin 8) (e : Eng) (cmd : DmaCmd) (x : Transfer)
    : (s.moveHere r e cmd x).pending = s.pending := by
  unfold State.moveHere
  grind [placeRead_pending, placeWrite_pending, onCore_pending]

@[simp] theorem dmaNow_pending (s : State) (r : Fin 8) (e : Eng) (cmd : DmaCmd) : (s.dmaNow r e cmd).pending = s.pending := by
  unfold State.dmaNow
  grind [resolveEnd_pending, askMore_pending, onCore_pending, moveHere_pending]

@[simp] theorem fillCommand_pending (s : State) (e : Eng) (q : Fin 5) (regions : List Nat) (go : Fin 8 → State → State)
    (hgo : ∀ x y, (go x y).pending = y.pending) : (s.fillCommand e q regions go).pending = s.pending := by
  unfold State.fillCommand
  split
  · exact pending_of_front ‹_›
  · grind [queueHold_pending, issueAt_pending, withhold_pending]

@[simp] theorem engineDone_pending (s : State) (c : Fin 16) (q : Fin 5) (b : EngineBusy)
    (put : Option EngineBusy → Core → Core) : (s.engineDone c q b put).pending = s.pending := by
  unfold State.engineDone
  dsimp only
  repeat' split
  all_goals simp

/-! ## Machine/Geometry -/

@[simp] theorem touch_pending (s : State) (tag : Tag) (c : Fin 16) (l : List (Nat × Nat))
    : (s.touch tag c l).pending = s.pending := by
  unfold State.touch
  dsimp only
  repeat' split
  all_goals simp

@[simp] theorem geomRefuse_pending (s : State) (c : Fin 16) (tag : Tag) (cause : Nat)
    : (s.geomRefuse c tag cause).pending = s.pending := by simp [State.geomRefuse]

@[simp] theorem unfoldFault_pending (s : State) (r : Fin 8) (c : Fin 16) (tag : Tag) (access len : Nat)
    : (s.unfoldFault r c tag access len).pending = s.pending := by simp [State.unfoldFault]

@[simp] theorem readRecords_pending (s : State) (r : Fin 8) (c : Fin 16) (tag : Tag) (l : List Nat)
    (go : State → List (List Byte) → State) (hgo : ∀ x y, (go x y).pending = x.pending)
    : (s.readRecords r c tag l go).pending = s.pending := by
  unfold State.readRecords
  grind [geomRefuse_pending, unfoldFault_pending, touch_pending]

@[simp] theorem freeLines_pending (s : State) (c : Fin 16) (tag : Tag) : (s.freeLines c tag).pending = s.pending := rfl

/-! ## Machine/Store -/

@[simp] theorem storeFault_pending (s : State) (r : Fin 8) (c : Fin 16) (tag : Tag) (access len : Nat)
    : (s.storeFault r c tag access len).pending = s.pending := by simp [State.storeFault]

@[simp] theorem strideNow_pending (s : State) (r : Fin 8) (c : Fin 16) (tag : Tag) (srcAddr : Nat) (src : Pattern)
    (dstAddr : Nat) (dst : Pattern) (count : Nat) (done : Completion)
    : (s.strideNow r c tag srcAddr src dstAddr dst count done).pending = s.pending := by
  unfold State.strideNow
  dsimp only
  repeat' split
  all_goals simp

@[simp] theorem transposeNow_pending (s : State) (r : Fin 8) (c : Fin 16) (tag : Tag) (srcAddr : Nat) (src : Pattern)
    (dstAddr dstPitch : Nat) (done : Completion)
    : (s.transposeNow r c tag srcAddr src dstAddr dstPitch done).pending = s.pending := by
  unfold State.transposeNow
  dsimp only
  repeat' split
  all_goals simp

@[simp] theorem storeEmpty_pending (s : State) (c : Fin 16) (tag : Tag) (done : Completion)
    : (s.storeEmpty c tag done).pending = s.pending := by simp [State.storeEmpty]

@[simp] theorem fillNow_pending (s : State) (r : Fin 8) (c : Fin 16) (tag : Tag) (dst len : Nat) (pattern : Word)
    (done : Completion) : (s.fillNow r c tag dst len pattern done).pending = s.pending := by
  unfold State.fillNow
  repeat' split
  all_goals simp

@[simp] theorem copyNow_pending (s : State) (r : Fin 8) (c : Fin 16) (tag : Tag) (src dst len : Nat) (done : Completion)
    : (s.copyNow r c tag src dst len done).pending = s.pending := by
  unfold State.copyNow
  dsimp only
  repeat' split
  all_goals simp

@[simp] theorem recordMore_pending (s : State) (r : Fin 8) (i : FaultInfo) : (s.recordMore r i).pending = s.pending :=
  by simp [State.recordMore]

@[simp] theorem stallNow_pending (s : State) (r : Fin 8) (core : Fin 16) : (s.stallNow r core).pending = s.pending := by
  unfold State.stallNow
  dsimp only
  repeat' split
  all_goals simp

/-! ## Machine/Rings -/

@[simp] theorem refuseRing_pending (s : State) (r : Fin 8) : (s.refuseRing r).pending = s.pending := rfl

@[simp] theorem enterRunning_pending (s : State) (r : Fin 8) : (s.enterRunning r).pending = s.pending :=
  by simp [State.enterRunning]

@[simp] theorem startRunning_pending (s : State) (r : Fin 8) : (s.startRunning r).pending = s.pending :=
  by simp [State.startRunning]

@[simp] theorem failRing_pending (s : State) (r : Fin 8) (cause : Nat) : (s.failRing r cause).pending = s.pending := rfl

@[simp] theorem endBoot_pending (s : State) : s.endBoot.pending = s.pending :=
  by simp [State.endBoot, apply_ite State.pending]

@[simp] theorem startNow_pending (s : State) (r : Fin 8) : (s.startNow r).pending = s.pending := by
  unfold State.startNow
  grind [enterLoading_pending, onRing_pending, releaseRing_pending, refuseRing_pending]

@[simp] theorem parkNow_pending (s : State) (r : Fin 8) : (s.parkNow r).pending = s.pending := by
  unfold State.parkNow
  split <;> rfl

@[simp] theorem cancelInvocation_pending (s : State) (r : Fin 8) : (s.cancelInvocation r).pending = s.pending := by
  unfold State.cancelInvocation
  grind [foldl_pending, dropUnposted_pending, stepEnds_pending, onCore_pending, onRing_pending]

@[simp] theorem beginStop_pending (s : State) (r : Fin 8) (cause : Nat) : (s.beginStop r cause).pending = s.pending := by
  unfold State.beginStop
  grind [foldl_pending, setRingState_pending, dropPending_pending, dropUnposted_pending, cancelSwaps_pending,
    smpStopRing_pending, onCore_pending, onRing_pending]

@[simp] theorem stopNow_pending (s : State) (r : Fin 8) : (s.stopNow r).pending = s.pending := by
  unfold State.stopNow
  repeat' split
  all_goals simp

@[simp] theorem resumeRing_pending (s : State) (r : Fin 8) : (s.resumeRing r).pending = s.pending :=
  by simp [State.resumeRing]

@[simp] theorem loadedRing_pending (s : State) (r : Fin 8) : (s.loadedRing r).pending = s.pending := by
  unfold State.loadedRing
  repeat' split
  all_goals simp

@[simp] theorem finishLoad_pending (s : State) (r : Fin 8) : (s.finishLoad r).pending = s.pending := by
  unfold State.finishLoad
  grind [startRunning_pending, loadNow_pending, loadedRing_pending, endBoot_pending, failRing_pending]

@[simp] theorem parkCores_pending (s : State) (r : Fin 8) : (s.parkCores r).pending = s.pending := by simp [State.parkCores]

@[simp] theorem parkedNow_pending (s : State) (r : Fin 8) : (s.parkedNow r).pending = s.pending := by simp [State.parkedNow]

@[simp] theorem parkRecords_pending (s : State) (r : Fin 8) : (s.parkRecords r).pending = s.pending :=
  by simp [State.parkRecords]

@[simp] theorem parkTimeoutNow_pending (s : State) (r : Fin 8) : (s.parkTimeoutNow r).pending = s.pending :=
  by simp [State.parkTimeoutNow]

@[simp] theorem zeroSlices_pending (s : State) (r : Fin 8) : (s.zeroSlices r).pending = s.pending :=
  by simp [State.zeroSlices]

@[simp] theorem zeroRegions_pending (s : State) (r : Fin 8) : (s.zeroRegions r).pending = s.pending := by
  unfold State.zeroRegions
  split <;> rfl

@[simp] theorem closeWindows_pending (s : State) (r : Fin 8) : (s.closeWindows r).pending = s.pending :=
  by simp [State.closeWindows, apply_ite State.pending]

@[simp] theorem disableStreams_pending (s : State) (r : Fin 8) : (s.disableStreams r).pending = s.pending :=
  by simp [State.disableStreams, apply_ite State.pending]

@[simp] theorem clearRing_pending (s : State) (r : Fin 8) : (s.clearRing r).pending = s.pending := by
  unfold State.clearRing
  grind [foldl_pending, releaseContexts_pending, closeWindows_pending, disableStreams_pending, onCore_pending,
    zeroSlices_pending, zeroRegions_pending, onRing_pending, unbindEndpoints_pending]

@[simp] theorem stoppedNow_pending (s : State) (r : Fin 8) : (s.stoppedNow r).pending = s.pending := by
  unfold State.stoppedNow
  extract_lets s0 s1 cause s2
  have h1 : s1.pending = s.pending := by
    unfold s1
    split
    · rw [clearRing_pending, dropEntries_pending]
    · exact dropEntries_pending s r
  have h2 : s2.pending = s.pending := by
    unfold s2
    split
    · rw [releaseRing_pending, h1]
    · exact h1
  rw [setFld_pending, setRingState_pending, h2]

@[simp] theorem drainRing_pending (s : State) (r : Fin 8) : (s.drainRing r).pending = s.pending := by
  unfold State.drainRing
  grind [foldl_pending, setRingFlag_pending, clearRingFlag_pending, dropEntries_pending]

@[simp] theorem stopAll_pending (s : State) : s.stopAll.pending = s.pending := by
  refine foldl_pending _ _ _ fun t r => ?_
  split
  · rw [stoppedNow_pending, drainRing_pending, beginStop_pending]
  · split
    · rw [stoppedNow_pending, drainRing_pending, setRingState_pending]
    · rfl

@[simp] theorem startCores_pending (s : State) (r : Fin 8) (i : Invocation) : (s.startCores r i).pending = s.pending :=
  by simp [State.startCores]

@[simp] theorem startInvocation_pending (s : State) (r : Fin 8) (i : Invocation)
    : (s.startInvocation r i).pending = s.pending := by
  unfold State.startInvocation
  split <;> simp

@[simp] theorem endCores_pending (s : State) (r : Fin 8) (i : Invocation) : (s.endCores r i).pending = s.pending :=
  by simp [State.endCores]

@[simp] theorem endInvocation_pending (s : State) (r : Fin 8) (i : Invocation)
    : (s.endInvocation r i).pending = s.pending := by simp [State.endInvocation]

@[simp] theorem flagWriteNow_pending (s : State) (r : Fin 8) (index : Fin 256) (clear : Bool)
    : (s.flagWriteNow r index clear).1.pending = s.pending := by
  unfold State.flagWriteNow
  split <;> simp

@[simp] theorem flagControl_pending (s : State) (r : Fin 8) (who : Who) (index : Fin 256) (clear : Bool)
    : (s.flagControl r who index clear).1.pending = s.pending := by simp [State.flagControl]

@[simp] theorem ringRequest_pending (s : State) (r : Fin 8) (who : Who) (act : State → State)
    (hact : ∀ x, (act x).pending = x.pending) : (s.ringRequest r who act).1.pending = s.pending := by
  unfold State.ringRequest
  grind

/-! ## Machine/Trapeze -/

@[simp] theorem accepted_pending (s : State) (p : Fin 4) (kind : Nat) (q : Packet)
    : (s.accepted p kind q).pending = s.pending := by simp [State.accepted]

@[simp] theorem countFec_pending (s : State) (p : Fin 4) (n : Nat) : (s.countFec p n).pending = s.pending := rfl

@[simp] theorem countWords_pending (s : State) (p : Fin 4) (corrected uncorrectable : Nat)
    : (s.countWords p corrected uncorrectable).pending = s.pending := rfl

@[simp] theorem badPacket_pending (s : State) (p : Fin 4) : (s.badPacket p).pending = s.pending := by
  unfold State.badPacket
  split <;> rfl

@[simp] theorem packetIn_pending (s : State) (p : Fin 4) (kind : Nat) (q : Packet) (act : State → State)
    (hact : ∀ x, (act x).pending = x.pending) : (s.packetIn p kind q act).pending = s.pending := by
  unfold State.packetIn
  grind [countFec_pending, accepted_pending, badPacket_pending]

@[simp] theorem beginTraining_pending (s : State) (p : Fin 4) : (s.beginTraining p).pending = s.pending := rfl

@[simp] theorem retrain_pending (s : State) (p : Fin 4) : (s.retrain p).pending = s.pending := rfl

@[simp] theorem replayAll_pending (s : State) (p : Fin 4) : (s.replayAll p).pending = s.pending := rfl

@[simp] theorem resend_pending (s : State) (p : Fin 4) : (s.resend p).pending = s.pending := by
  unfold State.resend
  repeat' split
  all_goals simp

@[simp] theorem linkIn_pending (s : State) (p : Fin 4) (q : Packet) : (s.linkIn p q).pending = s.pending := by
  unfold State.linkIn
  dsimp only
  repeat' split
  all_goals simp

@[simp] theorem sendTo_pending (s : State) (via : Fin 4) (x : TxPacket) : (s.sendTo via x).pending = s.pending := by
  unfold State.sendTo
  split <;> simp

@[simp] theorem unroutable_pending (s : State) (via : Fin 4) (kind : Nat) (q : Packet) (p : Option (Fin 4))
    : (s.unroutable via kind q p).pending = s.pending := by
  unfold State.unroutable
  split <;> simp

@[simp] theorem moveOn_pending (p : Fin 4) (l : List (Fin 4 × TxPacket)) (s : State)
    : (State.moveOn p l s).pending = s.pending := by
  induction l generalizing s with
  | nil => rfl
  | cons x l ih =>
    unfold State.moveOn
    grind [onPort_pending, crossPut_pending]

@[simp] theorem moveRx_pending (s : State) (p : Fin 4) : (s.moveRx p).pending = s.pending := by simp [State.moveRx]

@[simp] theorem forward_pending (s : State) (via : Fin 4) (kind : Nat) (q : Packet) (out : Fin 4)
    : (s.forward via kind q out).pending = s.pending := by simp [State.forward]

@[simp] theorem forwarded_pending (s : State) (x : Crossing) (q : TxPacket) : (s.forwarded x q).pending = s.pending := by
  unfold State.forwarded
  repeat' split
  all_goals simp

@[simp] theorem serveBack_pending (s : State) (via : Fin 4) (kind : Nat) (q : Packet)
    : (s.serveBack via kind q).pending = s.pending := by simp [State.serveBack]

@[simp] theorem trafficIn_pending (s : State) (p : Fin 4) (kind : Nat) (q : Packet) (here : State → State)
    (hhere : ∀ x, (here x).pending = x.pending) : (s.trafficIn p kind q here).pending = s.pending := by
  unfold State.trafficIn
  grind [unroutable_pending, packetIn_pending, countFec_pending, forward_pending]

@[simp] theorem replyIn_pending (s : State) (q : Packet) : (s.replyIn q).pending = s.pending := by simp [State.replyIn]

@[simp] theorem message_pending (s : State) (p : Fin 4) (dst : Nat) (content : List Byte)
    : (s.message p dst content).pending = s.pending := by simp [State.message]

@[simp] theorem sendHello_pending (s : State) (p : Fin 4) : (s.sendHello p).pending = s.pending := rfl

@[simp] theorem helloOnce_pending (s : State) (p : Fin 4) : (s.helloOnce p).pending = s.pending := by
  unfold State.helloOnce
  split <;> rfl

@[simp] theorem strand_pending (s : State) (p : Fin 4) (x : TxPacket) : (s.strand p x).pending = s.pending := by
  unfold State.strand
  repeat' split
  all_goals simp

@[simp] theorem portDown_pending (s : State) (p : Fin 4) : (s.portDown p).pending = s.pending := by simp [State.portDown]

@[simp] theorem idlePorts_pending (s : State) : s.idlePorts.pending = s.pending :=
  by simp [State.idlePorts, apply_ite State.pending]

@[simp] theorem portUp_pending (s : State) (p : Fin 4) : (s.portUp p).pending = s.pending := by simp [State.portUp]

@[simp] theorem endTraining_pending (s : State) (p : Fin 4) : (s.endTraining p).pending = s.pending := by
  unfold State.endTraining
  repeat' split
  all_goals simp

@[simp] theorem trained_pending (s : State) (p : Fin 4) (ok : Bool) : (s.trained p ok).pending = s.pending := by
  unfold State.trained
  split <;> simp

@[simp] theorem helloIn_pending (s : State) (p : Fin 4) (q : Packet) : (s.helloIn p q).pending = s.pending := by
  unfold State.helloIn
  split <;> simp

@[simp] theorem exclude_pending (s : State) (p : Fin 4) : (s.exclude p).pending = s.pending := rfl

@[simp] theorem beginRound_pending (s : State) : s.beginRound.pending = s.pending :=
  by simp [State.beginRound, apply_ite State.pending]

@[simp] theorem sendSystem_pending (s : State) (count : Nat) : (s.sendSystem count).pending = s.pending :=
  by simp [State.sendSystem]

@[simp] theorem enterReady_pending (s : State) (count : Nat) : (s.enterReady count).pending = s.pending :=
  by simp [State.enterReady]

@[simp] theorem endRound_pending (s : State) : s.endRound.pending = s.pending := by
  unfold State.endRound
  split <;> simp

@[simp] theorem numberNext_pending (n : Nat) (s : State) : (State.numberNext n s).pending = s.pending := by
  induction n generalizing s with
  | zero => exact endRound_pending s
  | succ n ih =>
    unfold State.numberNext
    grind [endRound_pending, exclude_pending, message_pending]

@[simp] theorem numberBelow_pending (s : State) (first limit : Nat) : (s.numberBelow first limit).pending = s.pending :=
  by simp [State.numberBelow]

@[simp] theorem managerNumbers_pending (s : State) : s.managerNumbers.pending = s.pending := by simp [State.managerNumbers]

@[simp] theorem takeNumber_pending (s : State) (q : Packet) : (s.takeNumber q).pending = s.pending :=
  by simp [State.takeNumber]

@[simp] theorem childNumbered_pending (s : State) (p : Fin 4) (count : Nat)
    : (s.childNumbered p count).pending = s.pending := by simp [State.childNumbered]

@[simp] theorem childLost_pending (s : State) (p : Fin 4) : (s.childLost p).pending = s.pending := by simp [State.childLost]

@[simp] theorem dropNumber_pending (s : State) : s.dropNumber.pending = s.pending := rfl

@[simp] theorem beginCloseWindow_pending (s : State) (w : Fin 256) : (s.beginCloseWindow w).pending = s.pending := by
  unfold State.beginCloseWindow
  split <;> rfl

@[simp] theorem closeAllWindows_pending (s : State) : s.closeAllWindows.pending = s.pending :=
  by simp [State.closeAllWindows]

@[simp] theorem failRemotes_pending (s : State) : s.failRemotes.pending = s.pending := by simp [State.failRemotes]

@[simp] theorem renumberBelow_pending (s : State) : s.renumberBelow.pending = s.pending :=
  by simp [State.renumberBelow, apply_ite State.pending]

@[simp] theorem discover_pending (s : State) : s.discover.pending = s.pending := rfl

@[simp] theorem renumberIn_pending (s : State) (p : Fin 4) : (s.renumberIn p).pending = s.pending := by
  unfold State.renumberIn
  rw [failRemotes_pending, closeAllWindows_pending, onPort_pending, discover_pending, renumberBelow_pending]

@[simp] theorem rediscoverNow_pending (s : State) : s.rediscoverNow.pending = s.pending := by simp [State.rediscoverNow]

@[simp] theorem trzRequest_pending (s : State) (op : Nat) : (s.trzRequest op).pending = s.pending := by
  unfold State.trzRequest
  split <;> simp

@[simp] theorem openWindow_pending (s : State) (w : Fin 256) : (s.openWindow w).pending = s.pending := by
  unfold State.openWindow
  dsimp only
  repeat' split
  all_goals simp

@[simp] theorem windowOpenNow_pending (s : State) (r : Fin 8) (w : Fin 256) : (s.windowOpenNow r w).pending = s.pending := by
  unfold State.windowOpenNow
  split <;> simp

@[simp] theorem windowRequest_pending (s : State) (r : Fin 8) (w : Fin 256) (op : Nat)
    : (s.windowRequest r w op).pending = s.pending := by
  unfold State.windowRequest
  split <;> simp

@[simp] theorem windowControl_pending (s : State) (who : Who) (w : Fin 256) (op : Nat)
    : (s.windowControl who w op).1.pending = s.pending := by
  unfold State.windowControl
  split <;> simp

end Sys2Proof.Machine
end

section
/-! SUPPORT. The queue of commands is as before (log 1): boot, power, security, control and the frames of a host. -/

namespace Sys2Proof.Machine

set_option Elab.async false

/-! ## Machine/Boot -/

@[simp] theorem drawn_pending (s : State) : s.drawn.pending = s.pending := rfl

@[simp] theorem cutFlash_pending (s : State) : s.cutFlash.pending = s.pending := by
  unfold State.cutFlash
  dsimp only
  repeat' split
  all_goals simp

@[simp] theorem resetDevice_pending (s : State) : s.resetDevice.pending = s.pending := by simp [State.resetDevice]

@[simp] theorem restartDevice_pending (s : State) : s.restartDevice.pending = s.pending := by
  unfold State.restartDevice
  dsimp only
  rw [setFld_pending, setRegs_pending, resetDevice_pending]

@[simp] theorem showSlot_pending (s : State) (k : Fin 2) : (s.showSlot k).pending = s.pending := rfl

@[simp] theorem showSlots_pending (s : State) : s.showSlots.pending = s.pending := by
  exact (showSlot_pending _ 1).trans (showSlot_pending s 0)

@[simp] theorem writeHeader_pending (s : State) (k : Fin 2) (h : SlotHeader) (next : HeaderNext)
    : (s.writeHeader k h next).pending = s.pending := by simp [State.writeHeader]

@[simp] theorem enterListener_pending (s : State) (cause : Nat) : (s.enterListener cause).pending = s.pending := rfl

@[simp] theorem armNet_pending (s : State) (seconds : Nat) : (s.armNet seconds).pending = s.pending := rfl

@[simp] theorem handOver_pending (s : State) : s.handOver.pending = s.pending := rfl

@[simp] theorem startSlot_pending (s : State) (k : Fin 2) (tie : Bool) (h : SlotHeader) (l : List (Nat × List Byte))
    : (s.startSlot k tie h l).pending = s.pending := by
  unfold State.startSlot
  extract_lets a b d s1 s2 s3
  have h1 : s1.pending = s.pending := by
    unfold s1
    split
    · exact armNet_pending ..
    · rfl
  have h2 : s2.pending = s.pending := by
    rw [setReg_pending, setFld_pending, setFld_pending, setFld_pending, h1]
  have h3 : s3.pending = s.pending := by
    unfold s3
    split
    · rw [logSecurity_pending, h2]
    · exact h2
  rw [handOver_pending, h3]

@[simp] theorem romWrite_pending (s : State) (k : Fin 2) (h : SlotHeader) (next : HeaderNext)
    : (s.romWrite k h next).pending = s.pending := by simp [State.romWrite]

@[simp] theorem romVerify_pending (s : State) (k : Fin 2) (tie : Bool) : (s.romVerify k tie).pending = s.pending := by
  unfold State.romVerify
  dsimp only
  repeat' split
  all_goals simp

@[simp] theorem romChoose_pending (s : State) : s.romChoose.pending = s.pending := by
  unfold State.romChoose
  dsimp only
  repeat' split
  all_goals simp

@[simp] theorem romRead_pending (s : State) : s.romRead.pending = s.pending := by simp [State.romRead]

@[simp] theorem romPrepare_pending (s : State) (m : List Byte) : (s.romPrepare m).pending = s.pending := by
  unfold State.romPrepare
  extract_lets s0 s1 s2
  rw [showSlots_pending, setFld_pending, setFld_pending, setFld_pending, setFld_pending]

@[simp] theorem romFlash_pending (s : State) : s.romFlash.pending = s.pending := by
  unfold State.romFlash
  split <;> simp

@[simp] theorem payEpoch_pending (s : State) : s.payEpoch.pending = s.pending := by simp [State.payEpoch]

@[simp] theorem romStore_pending (s : State) : s.romStore.pending = s.pending := by
  unfold State.romStore
  rw [setFld_pending, showStore_pending]
  split
  · exact payEpoch_pending s
  · rfl

@[simp] theorem released_pending (s : State) : s.released.pending = s.pending := rfl

@[simp] theorem romBoot_pending (s : State) : s.romBoot.pending = s.pending := by
  unfold State.romBoot
  grind [showStore_pending, setFld_pending, romStore_pending, released_pending, enterListener_pending, romFlash_pending]

@[simp] theorem started_pending (s : State) : s.started.pending = s.pending := rfl

@[simp] theorem startUp_pending (s : State) : s.startUp.pending = s.pending := by
  unfold State.startUp
  repeat' split
  all_goals simp

@[simp] theorem coldReset_pending (s : State) : s.coldReset.pending = s.pending := by simp [State.coldReset]

@[simp] theorem lockedRead_pending (s : State) (requester : DWord) : (s.lockedRead requester).pending = s.pending :=
  by simp [State.lockedRead]

@[simp] theorem afterAppend_pending (s : State) (next : AppendNext) : (s.afterAppend next).pending = s.pending := by
  unfold State.afterAppend
  split <;> simp

@[simp] theorem logThen_pending (s : State) (source code arg0 arg1 : Nat) (next : AppendNext)
    : (s.logThen source code arg0 arg1 next).pending = s.pending := by
  unfold State.logThen
  split <;> simp

@[simp] theorem netExpired_pending (s : State) : s.netExpired.pending = s.pending := by
  unfold State.netExpired
  split <;> simp

@[simp] theorem confirmStore_pending (s : State) : s.confirmStore.pending = s.pending := by
  unfold State.confirmStore
  dsimp only
  repeat' split
  all_goals simp

@[simp] theorem confirmDone_pending (s : State) : s.confirmDone.pending = s.pending := rfl

@[simp] theorem installDone_pending (s : State) : s.installDone.pending = s.pending := rfl

@[simp] theorem afterHeader_pending (s : State) (next : HeaderNext) : (s.afterHeader next).pending = s.pending := by
  unfold State.afterHeader
  split <;> simp

@[simp] theorem confirmHeader_pending (s : State) : s.confirmHeader.pending = s.pending := by simp [State.confirmHeader]

@[simp] theorem confirmFrom_pending (s : State) : s.confirmFrom.pending = s.pending := by
  unfold State.confirmFrom
  split <;> simp

@[simp] theorem confirmStart_pending (s : State) : s.confirmStart.pending = s.pending := rfl

@[simp] theorem confirmRequest_pending (s : State) : s.confirmRequest.1.pending = s.pending := by
  unfold State.confirmRequest
  repeat' split
  all_goals simp

@[simp] theorem refuseInstall_pending (s : State) (cause : Nat) : (s.refuseInstall cause).pending = s.pending := by
  unfold State.refuseInstall
  split <;> rfl

@[simp] theorem beginInstall_pending (s : State) (total version : Nat) (bytes : List Byte)
    : (s.beginInstall total version bytes).pending = s.pending := by simp [State.beginInstall]

@[simp] theorem installRequest_pending (s : State) (who : Who) : (s.installRequest who).pending = s.pending := by
  unfold State.installRequest
  grind [refuseInstall_pending, staged_pending, beginInstall_pending]

@[simp] theorem failInstall_pending (s : State) : s.failInstall.pending = s.pending := rfl

@[simp] theorem bootControl_pending (s : State) (who : Who) (op : Nat) : (s.bootControl who op).1.pending = s.pending := by
  unfold State.bootControl
  repeat' split
  all_goals simp

/-! ## Machine/BringUp -/

@[simp] theorem testCore_pending (s : State) (found : List Nat) (confined : Bool) (c : Fin 16)
    : (s.testCore found confined c).pending = s.pending := rfl

@[simp] theorem keepColumns_pending (s : State) (found : Vector (List Nat) 16)
    : (s.keepColumns found).pending = s.pending := by
  unfold State.keepColumns
  dsimp only
  repeat' split
  all_goals simp

@[simp] theorem logRetired_pending (s : State) (kind inst : Nat) (retired : Bool)
    : (s.logRetired kind inst retired).pending = s.pending := by
  unfold State.logRetired
  split <;> simp

@[simp] theorem zeroMemories_pending (s : State) : s.zeroMemories.pending = s.pending := rfl

@[simp] theorem selfTest_pending (s : State) (found : Vector (List Nat) 16) (confined : BitVec 16) (slicesBad : BitVec 8)
    : (s.selfTest found confined slicesBad).pending = s.pending := by simp [State.selfTest]

@[simp] theorem dramFailed_pending (s : State) (failed : Nat) : (s.dramFailed failed).pending = s.pending := rfl

@[simp] theorem dramReady_pending (s : State) (grade target channels all density width ranks : Nat) (t : DramTraining)
    : (s.dramReady grade target channels all density width ranks t).pending = s.pending := by
  unfold State.dramReady
  split <;> simp

@[simp] theorem dramUp_pending (s : State) (t : DramTraining) : (s.dramUp t).1.pending = s.pending := by
  unfold State.dramUp
  dsimp only
  repeat' split
  all_goals simp

@[simp] theorem rxApply_pending (s : State) (x : Fin 16) (r : RxRecord) : (s.rxApply x r).pending = s.pending := rfl

@[simp] theorem applyFrontEnd_pending (s : State) : s.applyFrontEnd.pending = s.pending := by
  unfold State.applyFrontEnd
  grind [foldl_pending, rxApply_pending]

@[simp] theorem applyPorts_pending (s : State) : s.applyPorts.pending = s.pending := by
  unfold State.applyPorts
  split
  · rfl
  · exact foldl_pending _ _ _ fun _ _ => rfl

@[simp] theorem trainPort_pending (s : State) (role uplink downs : Nat) (p : Fin 4)
    : (s.trainPort role uplink downs p).pending = s.pending := by
  unfold State.trainPort
  dsimp only
  repeat' split
  all_goals simp

@[simp] theorem applyTrapeze_pending (s : State) : s.applyTrapeze.pending = s.pending := by
  unfold State.applyTrapeze
  repeat' split
  all_goals simp

@[simp] theorem loadTrims_pending (s : State) : s.loadTrims.pending = s.pending := by
  unfold State.loadTrims
  grind [foldl_pending, setReg_pending]

@[simp] theorem takeOver_pending (s : State) : s.takeOver.pending = s.pending := by simp [State.takeOver]

@[simp] theorem flashReady_pending (s0 : State) : (State.flashReady s0).pending = s0.pending := by simp [State.flashReady]

@[simp] theorem copyDeployment_pending (s : State) (c : List Byte) : (s.copyDeployment c).pending = s.pending :=
  by simp [State.copyDeployment]

@[simp] theorem startApp_pending (s : State) : s.startApp.pending = s.pending := by
  unfold State.startApp
  dsimp only
  repeat' split
  all_goals simp

@[simp] theorem logIgnored_pending (s : State) : s.logIgnored.pending = s.pending :=
  by simp [State.logIgnored, apply_ite State.pending]

@[simp] theorem loadRings_pending (s : State) : s.loadRings.pending = s.pending := by
  unfold State.loadRings
  grind [foldl_pending, enterLoading_pending, setFld_pending, endBoot_pending]

@[simp] theorem deployRings_pending (s : State) : s.deployRings.pending = s.pending := by
  unfold State.deployRings
  split
  · rw [loadRings_pending, logIgnored_pending, startApp_pending]
  · rw [setFld_pending, foldl_pending _ _ _ fun t r => failRing_pending t r cauFormat]

@[simp] theorem deployNow_pending (s : State) : s.deployNow.pending = s.pending := by
  unfold State.deployNow
  extract_lets k d c s1
  have h1 : s1.pending = s.pending := by rw [setFld_pending, readPages_pending]
  split
  · rw [deployRings_pending, copyDeployment_pending, h1]
  · rw [writeHeader_pending, h1]

@[simp] theorem applyRecords_pending (s : State) : s.applyRecords.pending = s.pending := by
  unfold State.applyRecords
  grind [applyFrontEnd_pending, applyPorts_pending, applyTrapeze_pending, loadTrims_pending]

@[simp] theorem firstVoltage_pending (s : State) : s.firstVoltage.pending = s.pending := rfl

@[simp] theorem bringUp_pending (s : State) (found : Vector (List Nat) 16) (confined : BitVec 16) (slicesBad : BitVec 8)
    (t : DramTraining) : (s.bringUp found confined slicesBad t).pending = s.pending := by
  unfold State.bringUp
  grind [flashReady_pending, selfTest_pending, dramUp_pending, setFld_pending, log_pending, applyRecords_pending,
    firstVoltage_pending, deployNow_pending]

@[simp] theorem recSend_pending (s : State) (dst : BitVec 48) (type : Nat) (session : BitVec 16) (offset status : Nat)
    (payload : List Byte) : (s.recSend dst type session offset status payload).pending = s.pending := rfl

@[simp] theorem setSession_pending (s : State) (x : Option RecSession) : (s.setSession x).pending = s.pending := rfl

@[simp] theorem beginNow_pending (s : State) (f : RecFrame) : (s.beginNow f).pending = s.pending := by
  unfold State.beginNow
  dsimp only
  repeat' split
  all_goals simp

@[simp] theorem dataNow_pending (s : State) (x : RecSession) (f : RecFrame) : (s.dataNow x f).pending = s.pending := by
  unfold State.dataNow
  split <;> rfl

@[simp] theorem startRecovery_pending (s : State) (c : List Byte) : (s.startRecovery c).pending = s.pending := rfl

@[simp] theorem endImage_pending (s : State) (x : RecSession) (f : RecFrame) : (s.endImage x f).pending = s.pending := by
  unfold State.endImage
  dsimp only
  repeat' split
  all_goals simp

/-! ## Machine/Debug -/

@[simp] theorem debugRequest_pending (s : State) (r : Fin 8) (who : Who) (act : State → State)
    (hact : ∀ x, (act x).pending = x.pending) : (s.debugRequest r who act).1.pending = s.pending := by
  unfold State.debugRequest
  grind

@[simp] theorem haltRing_pending (s : State) (r : Fin 8) : (s.haltRing r).pending = s.pending := rfl

@[simp] theorem stepRing_pending (s : State) (r : Fin 8) (core : Option (Fin 16)) (queues : BitVec 5)
    : (s.stepRing r core queues).pending = s.pending := by
  unfold State.stepRing
  grind [foldl_pending, onCore_pending]

@[simp] theorem continueRing_pending (s : State) (r : Fin 8) : (s.continueRing r).pending = s.pending := by
  unfold State.continueRing
  grind [foldl_pending, onCore_pending, onRing_pending]

@[simp] theorem dbgControl_pending (s : State) (r : Fin 8) (who : Who) (op : Nat) (core : Option (Fin 16))
    (queues : BitVec 5) : (s.dbgControl r who op core queues).1.pending = s.pending := by
  refine debugRequest_pending _ _ _ _ fun t => ?_
  split <;> simp

@[simp] theorem debugGet_pending (s : State) (r : Fin 8) (place : DebugPlace)
    : (s.debugGet r place).1.pending = s.pending := by
  unfold State.debugGet
  grind [cmRead_pending, mwyRead_pending, dramRead_pending, setFld_pending]

@[simp] theorem debugPut_pending (s : State) (r : Fin 8) (d : List PByte) (place : DebugPlace)
    : (s.debugPut r d place).pending = s.pending := by
  unfold State.debugPut
  split <;> simp

@[simp] theorem debugRead_pending (s : State) (r : Fin 8) : (s.debugRead r).pending = s.pending := by simp [State.debugRead]

@[simp] theorem debugWrite_pending (s : State) (r : Fin 8) (value : Word) : (s.debugWrite r value).pending = s.pending :=
  by simp [State.debugWrite]

@[simp] theorem popFault_pending (s : State) (ring : Option (Fin 8)) (seq : Word) (who : Who)
    : (s.popFault ring seq who).1.pending = s.pending := by
  unfold State.popFault
  grind [request_pending, onRing_pending]

@[simp] theorem syncArrives_pending (s : State) (c : Fin 16) (cc : BitVec 48) : (s.syncArrives c cc).pending = s.pending :=
  by simp [State.syncArrives]

@[simp] theorem delivered_pending (s : State) (x : Crossing) (o : CrossOp) : (s.delivered x o).pending = s.pending := by
  unfold State.delivered
  repeat' split
  all_goals simp

/-! ## Machine/Power -/

@[simp] theorem setUpd_pending (s : State) (st cause : Nat) : (s.setUpd st cause).pending = s.pending := rfl

@[simp] theorem showSample_pending (s : State) (m : PowerSample) : (s.showSample m).pending = s.pending := by
  unfold State.showSample
  grind [foldl_pending, setFld_pending]

@[simp] theorem judgePeriod_pending (s : State) (m : PowerSample) : (s.judgePeriod m).pending = s.pending := rfl

@[simp] theorem countThrottle_pending (s : State) (l : List Grant) : (s.countThrottle l).pending = s.pending := by
  unfold State.countThrottle
  grind [foldl_pending, setFld_pending, bump_pending, raiseBit_pending]

@[simp] theorem setRaise_pending (s : State) (v : Vector Nat 8) : (s.setRaise v).pending = s.pending := rfl

@[simp] theorem applyGrants_pending (s : State) (l : List Grant) : (s.applyGrants l).pending = s.pending := by
  unfold State.applyGrants
  grind [foldl_pending, setFreq_pending, setRaise_pending, requestVolt_pending]

@[simp] theorem keepTargets_pending (s : State) (l : List (Fin 8 × Nat × Nat × Bool))
    : (s.keepTargets l).pending = s.pending := rfl

@[simp] theorem powerLoopNow_pending (s : State) (m : PowerSample) : (s.powerLoopNow m).pending = s.pending := by
  unfold State.powerLoopNow
  extract_lets s1 s2 l s3
  have h1 : s1.pending = s.pending := by
    rw [judgePeriod_pending, showSample_pending, foldl_pending _ _ _ takeCtrl_pending]
  have h3 : s3.pending = s.pending := by
    rw [applyGrants_pending, countThrottle_pending, keepTargets_pending, setFld_pending, h1]
  split
  · exact (setUpd_pending _ _ _).trans h3
  · exact h3

@[simp] theorem handleHints_pending (s : State) : s.handleHints.pending = s.pending := by
  unfold State.handleHints
  dsimp only
  repeat' split
  all_goals simp

@[simp] theorem limitAll_pending (s : State) : s.limitAll.pending = s.pending :=
  by simp [State.limitAll, apply_ite State.pending]

@[simp] theorem trip_pending (s : State) : s.trip.pending = s.pending := rfl

@[simp] theorem emptyShadow_pending (s : State) : s.emptyShadow.pending = s.pending := rfl

@[simp] theorem coldStart_pending (s : State) : s.coldStart.pending = s.pending :=
  by simp [State.coldStart, apply_ite State.pending]

@[simp] theorem markTrim_pending (s : State) (k : Fin 8) : (s.markTrim k).pending = s.pending := rfl

@[simp] theorem setSteps_pending (s : State) (k : Fin 8) (n : Nat) : (s.setSteps k n).pending = s.pending := rfl

@[simp] theorem disablePoint_pending (s : State) (k : Fin 8) : (s.disablePoint k).pending = s.pending :=
  by simp [State.disablePoint, apply_ite State.pending]

@[simp] theorem ageNow_pending (s : State) (k : Fin 8) (low : Nat) (high24h : Bool)
    : (s.ageNow k low high24h).pending = s.pending := by
  unfold State.ageNow
  dsimp only
  repeat' split
  all_goals simp

@[simp] theorem updateLoadNow_pending (s : State) (who : Who) : (s.updateLoadNow who).pending = s.pending := by
  unfold State.updateLoadNow
  grind [staged_pending, emptyShadow_pending, setUpd_pending]

@[simp] theorem updControl_pending (s : State) (who : Who) (op : Nat) : (s.updControl who op).1.pending = s.pending := by
  unfold State.updControl
  repeat' split
  all_goals simp

@[simp] theorem switchNow_pending (s : State) (adopted : Bool) : (s.switchNow adopted).pending = s.pending := by
  unfold State.switchNow
  extract_lets s1
  have h1 : s1.pending = s.pending := by
    rw [setFld_pending, setFld_pending, bump_pending, setFld_pending, setUpd_pending]
  split
  · rw [setFld_pending, h1]
  · rw [coldStart_pending, h1]

/-! ## Machine/Security -/

@[simp] theorem zeroKeys_pending (s : State) (r : Fin 8) : (s.zeroKeys r).pending = s.pending := by
  unfold State.zeroKeys
  grind [foldl_pending, onEp_pending, setFld_pending]

@[simp] theorem zeroAllKeys_pending (s : State) : s.zeroAllKeys.pending = s.pending := by simp [State.zeroAllKeys]

@[simp] theorem forgetQuotes_pending (s : State) : s.forgetQuotes.pending = s.pending := rfl

@[simp] theorem rememberQuote_pending (s : State) (nonce : List Byte) : (s.rememberQuote nonce).pending = s.pending := rfl

@[simp] theorem relayPiece_pending (s : State) (via : Fin 4) (dst offset status : Nat) (piece : List Byte)
    : (s.relayPiece via dst offset status piece).pending = s.pending := by simp [State.relayPiece]

@[simp] theorem relayQuote_pending (s : State) (r : Fin 8) (a : Asker) (device : Nat) (body : List Byte)
    : (s.relayQuote r a device body).pending = s.pending := by
  unfold State.relayQuote
  split <;> simp

@[simp] theorem quoteNow_pending (s : State) (r : Fin 8) (a : Asker) (body : List Byte)
    : (s.quoteNow r a body).pending = s.pending := by
  unfold State.quoteNow
  dsimp only
  repeat' split
  all_goals simp

@[simp] theorem quoteForWorker_pending (s : State) (via : Fin 4) (q : Packet)
    : (s.quoteForWorker via q).pending = s.pending := by
  unfold State.quoteForWorker
  dsimp only
  repeat' split
  all_goals simp

@[simp] theorem quoteForManager_pending (s : State) (q : Packet) : (s.quoteForManager q).pending = s.pending := by
  unfold State.quoteForManager
  dsimp only
  repeat' split
  all_goals simp

@[simp] theorem refuseWrap_pending (s : State) (status : Nat) : (s.refuseWrap status).pending = s.pending := by
  unfold State.refuseWrap
  split <;> rfl

@[simp] theorem installCak_pending (s : State) (x : Fin 64) (ckn : List Byte) (k : BitVec 256)
    : (s.installCak x ckn k).pending = s.pending := rfl

@[simp] theorem keyWrapNow_pending (s : State) (r : Fin 8) (a : Asker) (plain : Bool) (b : List Byte)
    : (s.keyWrapNow r a plain b).pending = s.pending := by
  unfold State.keyWrapNow
  split <;> simp

@[simp] theorem secResult_pending (s : State) (state op cause : Nat) : (s.secResult state op cause).pending = s.pending :=
  rfl

@[simp] theorem stagedToken_pending (s : State) (who : Who) : (s.stagedToken who).1.pending = s.pending := by
  unfold State.stagedToken
  grind [staged_pending]

@[simp] theorem installTokenNow_pending (s : State) (t : List Byte) : (s.installTokenNow t).pending = s.pending := by
  unfold State.installTokenNow
  grind [foldl_pending, setReg_pending, setFld_pending, zeroAllKeys_pending, zeroKeys_pending, forgetQuotes_pending,
    secResult_pending]

@[simp] theorem tokenRequest_pending (s : State) (who : Who) : (s.tokenRequest who).1.pending = s.pending := by
  unfold State.tokenRequest
  grind [stagedToken_pending, secResult_pending, installTokenNow_pending]

@[simp] theorem debugEnded_pending (s : State) : s.debugEnded.pending = s.pending := rfl

@[simp] theorem endLevel_pending (s : State) (r : Fin 8) : (s.endLevel r).pending = s.pending := by
  unfold State.endLevel
  repeat' split
  all_goals simp

@[simp] theorem endAllLevels_pending (s : State) : s.endAllLevels.pending = s.pending := by
  unfold State.endAllLevels
  grind [foldl_pending, endLevel_pending, setReg_pending, setFld_pending, debugEnded_pending]

@[simp] theorem endDebugRequest_pending (s : State) (who : Who) (arg : Fin 16)
    : (s.endDebugRequest who arg).1.pending = s.pending := by
  unfold State.endDebugRequest
  dsimp only
  repeat' split
  all_goals simp

@[simp] theorem stopRings_pending (s : State) : s.stopRings.pending = s.pending :=
  by simp [State.stopRings, apply_ite State.pending]

@[simp] theorem setLifecycle_pending (s : State) (lc : Nat) : (s.setLifecycle lc).pending = s.pending := by
  unfold State.setLifecycle
  rw [setFld_pending, forgetQuotes_pending, showStore_pending, storeWrite_pending]

@[simp] theorem lifecycleNow_pending (s : State) (op : Nat) : (s.lifecycleNow op).pending = s.pending := by
  unfold State.lifecycleNow
  grind [setLifecycle_pending, secResult_pending, stopRings_pending, endAllLevels_pending, zeroAllKeys_pending,
    restartDevice_pending, startUp_pending]

@[simp] theorem lifecycleOrHold_pending (s : State) (op : Nat) : (s.lifecycleOrHold op).pending = s.pending := by
  unfold State.lifecycleOrHold
  split <;> simp

@[simp] theorem lifecycleCause_pending (s : State) (who : Who) (op : Nat)
    : (s.lifecycleCause who op).1.pending = s.pending := by
  unfold State.lifecycleCause
  grind [stagedToken_pending]

@[simp] theorem lifecycleRequest_pending (s : State) (who : Who) (op : Nat)
    : (s.lifecycleRequest who op).1.pending = s.pending := by
  unfold State.lifecycleRequest
  grind [secResult_pending, lifecycleCause_pending, lifecycleOrHold_pending]

@[simp] theorem storeResumes_pending (s : State) : s.storeResumes.pending = s.pending := by
  unfold State.storeResumes
  dsimp only
  repeat' split
  all_goals simp

@[simp] theorem standbyNow_pending (s : State) : s.standbyNow.pending = s.pending := by simp [State.standbyNow]

@[simp] theorem wakeUp_pending (s : State) : s.wakeUp.pending = s.pending := rfl

@[simp] theorem standbyRequest_pending (s : State) (who : Who) : (s.standbyRequest who).1.pending = s.pending := by
  unfold State.standbyRequest
  repeat' split
  all_goals simp

@[simp] theorem deepNow_pending (s : State) : s.deepNow.pending = s.pending := by simp [State.deepNow]

@[simp] theorem deepRequest_pending (s : State) (who : Who) : (s.deepRequest who).1.pending = s.pending := by
  unfold State.deepRequest
  repeat' split
  all_goals simp

@[simp] theorem secControl_pending (s : State) (who : Who) (op : Nat) (arg : Fin 16)
    : (s.secControl who op arg).1.pending = s.pending := by
  unfold State.secControl
  repeat' split
  all_goals simp

/-! ## Machine/Control -/

@[simp] theorem readPair_pending (s : State) (g : Reg) : (s.readPair g).1.pending = s.pending := by
  unfold State.readPair
  repeat' split
  all_goals simp

@[simp] theorem storeWord_pending (s : State) (g : Reg) (v : Word) : (s.storeWord g v).pending = s.pending := rfl

@[simp] theorem storePair_pending (s : State) (g : Reg) (v : Word) : (s.storePair g v).pending = s.pending := by
  unfold State.storePair
  repeat' split
  all_goals simp

@[simp] theorem regRead_pending (s : State) (who : Who) (addr : Word) : (s.regRead who addr).1.pending = s.pending := by
  unfold State.regRead
  grind [debugRequest_pending, debugRead_pending, readPair_pending]

@[simp] theorem storeWhen_pending (s : State) (ok : Bool) (status : Nat) (g : Reg) (v : Word)
    : (s.storeWhen ok status g v).1.pending = s.pending := by
  unfold State.storeWhen
  split <;> simp

@[simp] theorem poolWrite_pending (s : State) (r : Fin 8) (ok : Bool) (g : Reg) (v : Word)
    : (s.poolWrite r ok g v).1.pending = s.pending := by
  unfold State.poolWrite
  split <;> simp

@[simp] theorem keyedWrite_pending (s : State) (v : Word) (act : Nat → State × Nat)
    (hact : ∀ x, (act x).1.pending = s.pending) : (s.keyedWrite v act).1.pending = s.pending := by
  unfold State.keyedWrite
  split
  · exact hact _
  · rfl

@[simp] theorem distribute_pending (s : State) (k : Fin 4) (v : Word) : (s.distribute k v).pending = s.pending :=
  by simp [State.distribute]

@[simp] theorem performWrite_pending (s : State) (who : Who) (g : Reg) (v : Word)
    : (s.performWrite who g v).1.pending = s.pending := by
  unfold State.performWrite
  cases g
  case ringFlagWrite | ringCtxCtrl =>
    dsimp only
    split <;> simp
  case cdcSessionCtrl | smpChanCtrl | trzWindowCtrl =>
    refine keyedWrite_pending _ _ _ fun op => ?_
    split <;> simp
  case dbgTraceCtrl =>
    dsimp only
    split <;> simp
  all_goals simp

@[simp] theorem performHeld_pending (s : State) (h : HeldWrite) : (s.performHeld h).pending = s.pending := by
  unfold State.performHeld
  split <;> simp

@[simp] theorem paramDone_pending (s : State) (r : Fin 8) (p : HeldParam) : (s.paramDone r p).pending = s.pending := by
  unfold State.paramDone
  split <;> simp

@[simp] theorem resumeNow_pending (s : State) (r : Fin 8) : (s.resumeNow r).pending = s.pending := by
  unfold State.resumeNow
  split <;> simp

@[simp] theorem ringOp_pending (s : State) (r : Fin 8) (op : Nat) : (s.ringOp r op).pending = s.pending := by
  unfold State.ringOp
  split <;> simp

@[simp] theorem writeRightly_pending (s : State) (who : Who) (g : Reg) (v : Word) (right : Right)
    : (s.writeRightly who g v right).1.pending = s.pending := by
  unfold State.writeRightly
  repeat' split
  all_goals simp

@[simp] theorem regWrite_pending (s : State) (who : Who) (addr v : Word) : (s.regWrite who addr v).1.pending = s.pending := by
  unfold State.regWrite
  repeat' split
  all_goals simp

/-! ## Machine/DramCmd -/

@[simp] theorem scrubBad_pending (s : State) (n : Nat) (v : Verdict) : (s.scrubBad n v).pending = s.pending := by
  unfold State.scrubBad
  split <;> simp

@[simp] theorem scrubLine_pending (s : State) (n : Nat) : (s.scrubLine n).pending = s.pending := by
  unfold State.scrubLine
  dsimp only
  repeat' split
  all_goals simp

/-! ## Machine/Tirsa -/

@[simp] theorem ethCount_pending (s : State) (via : Via) (k : Fin 5) : (s.ethCount via k).pending = s.pending := by
  unfold State.ethCount
  split <;> rfl

@[simp] theorem epCount_pending (s : State) (e : Fin 64) (k : Fin 6) : (s.epCount e k).pending = s.pending := rfl

@[simp] theorem takePeer_pending (s : State) (e : Fin 64) (f : Frame) : (s.takePeer e f).pending = s.pending := by
  unfold State.takePeer
  split
  · rfl
  · rw [pumpEp_pending, setFld_pending, setRegs_pending]

@[simp] theorem dropReasm_pending (s : State) (e : Fin 64) (msgId : BitVec 16)
    : (s.dropReasm e msgId).pending = s.pending := rfl

@[simp] theorem keepReasm_pending (s : State) (e : Fin 64) (m : Reassembly) : (s.keepReasm e m).pending = s.pending := rfl

@[simp] theorem refuseMsg_pending (s : State) (r e : Fin 8) (m : Reassembly) (status : Nat)
    : (s.refuseMsg r e m status).1.pending = s.pending := by simp [State.refuseMsg]

@[simp] theorem paramFirst_pending (s : State) (r e : Fin 8) (m : Reassembly) (d : List Byte)
    : (s.paramFirst r e m d).1.pending = s.pending := by
  unfold State.paramFirst
  dsimp only
  repeat' split
  all_goals simp

@[simp] theorem paramData_pending (s : State) (r e : Fin 8) (m : Reassembly) (o : Nat) (d : List Byte) (bad : Bool)
    : (s.paramData r e m o d bad).1.pending = s.pending := by
  unfold State.paramData
  grind [refuseMsg_pending, bufWrite_pending]

@[simp] theorem paramEnd_pending (s : State) (r e : Fin 8) (m : Reassembly) : (s.paramEnd r e m).pending = s.pending := by
  unfold State.paramEnd
  repeat' split
  all_goals simp

@[simp] theorem samplePart_pending (s : State) (r e : Fin 8) (m : Reassembly) (o : Nat) (d : List Byte) (first : Bool)
    : (s.samplePart r e m o d first).1.pending = s.pending := by
  unfold State.samplePart
  grind [sampleMore_pending, smpCount_pending, smpReport_pending, sampleFirst_pending, refuseMsg_pending]

@[simp] theorem streamPart_pending (s : State) (r e : Fin 8) (m : Reassembly) (o : Nat) (d : List Byte)
    (first last : Bool) : (s.streamPart r e m o d first last).pending = s.pending := by
  unfold State.streamPart
  repeat' split
  all_goals simp

@[simp] theorem regEntry_pending (s : State) (who : Who) (write : Bool) (entry : List Byte)
    : (s.regEntry who write entry).1.pending = s.pending := by
  unfold State.regEntry
  split <;> simp

@[simp] theorem regEntries_pending (who : Who) (write : Bool) (l : List (List Byte)) (s : State)
    : (State.regEntries who write l s).1.pending = s.pending := by
  induction l generalizing s with
  | nil => rfl
  | cons x l ih => exact (ih _).trans (regEntry_pending s who write x)

@[simp] theorem regsNow_pending (s : State) (r : Fin 8) (a : Asker) (write : Bool) (b : List Byte)
    : (s.regsNow r a write b).pending = s.pending := by
  unfold State.regsNow
  dsimp only
  repeat' split
  all_goals simp

@[simp] theorem invokeNow_pending (s : State) (r : Fin 8) (a : Asker) (stamp : DWord) (b : List Byte)
    : (s.invokeNow r a stamp b).pending = s.pending := by
  unfold State.invokeNow
  dsimp only
  repeat' split
  all_goals simp

@[simp] theorem memReadNow_pending (s : State) (r : Fin 8) (a : Asker) (b : List Byte)
    : (s.memReadNow r a b).pending = s.pending := by
  unfold State.memReadNow
  grind [replyStatus_pending, bufRead_pending, reply_pending]

@[simp] theorem frameTimeNow_pending (s : State) (r e : Fin 8) (stamp : DWord) (b : List Byte)
    : (s.frameTimeNow r e stamp b).pending = s.pending := by
  unfold State.frameTimeNow
  dsimp only
  repeat' split
  all_goals simp

@[simp] theorem resultReadNow_pending (s : State) (r : Fin 8) (a : Asker) (b : List Byte)
    : (s.resultReadNow r a b).pending = s.pending := by
  unfold State.resultReadNow
  dsimp only
  repeat' split
  all_goals simp

@[simp] theorem resultReleaseNow_pending (s : State) (r : Fin 8) (a : Asker) (b : List Byte)
    : (s.resultReleaseNow r a b).pending = s.pending := by
  unfold State.resultReleaseNow
  dsimp only
  repeat' split
  all_goals simp

@[simp] theorem pageAckNow_pending (s : State) (r e : Fin 8) (b : List Byte) : (s.pageAckNow r e b).pending = s.pending := by
  unfold State.pageAckNow
  repeat' split
  all_goals simp

@[simp] theorem pageNakNow_pending (s : State) (r e : Fin 8) (b : List Byte) : (s.pageNakNow r e b).pending = s.pending := by
  unfold State.pageNakNow
  repeat' split
  all_goals simp

@[simp] theorem pageDataNow_pending (s : State) (r e : Fin 8) (b : List Byte) : (s.pageDataNow r e b).pending = s.pending := by
  unfold State.pageDataNow
  repeat' split
  all_goals simp

@[simp] theorem handle_pending (s : State) (r e : Fin 8) (m : Reassembly) (plain : Bool) (b : List Byte)
    : (s.handle r e m plain b).pending = s.pending := by
  unfold State.handle
  split <;> simp

@[simp] theorem goOn_pending (s : State) (x : Fin 64) (m : Reassembly) (act : State → State)
    (hact : ∀ x, (act x).pending = x.pending) : (s.goOn x m act).pending = s.pending := by
  unfold State.goOn
  grind [dropReasm_pending, keepReasm_pending]

@[simp] theorem chunk_pending (s : State) (r e : Fin 8) (m0 : Reassembly) (f : Frame) (first : Bool)
    : (s.chunk r e m0 f first).pending = s.pending := by
  unfold State.chunk
  dsimp only
  repeat' split
  all_goals simp

@[simp] theorem abandonMsg_pending (s : State) (r e : Fin 8) (m : Reassembly) : (s.abandonMsg r e m).pending = s.pending := by
  unfold State.abandonMsg
  dsimp only
  repeat' split
  all_goals simp

@[simp] theorem endStreams_pending (s : State) (x : Fin 64) (type : Byte) : (s.endStreams x type).pending = s.pending := by
  unfold State.endStreams
  split <;> rfl

@[simp] theorem beginMsg_pending (s : State) (r e : Fin 8) (type : Byte) (f : Frame)
    : (s.beginMsg r e type f).pending = s.pending := by
  unfold State.beginMsg
  dsimp only
  repeat' split
  all_goals simp

@[simp] theorem identify_pending (s : State) (r e : Fin 8) (type : Byte) (f : Frame)
    : (s.identify r e type f).pending = s.pending := by
  unfold State.identify
  dsimp only
  repeat' split
  all_goals simp

@[simp] theorem acceptFrame_pending (s : State) (x : Fin 64) (type : Byte) (f : Frame)
    : (s.acceptFrame x type f).pending = s.pending := by
  unfold State.acceptFrame
  split <;> simp

@[simp] theorem noteNumber_pending (s : State) (f : Frame) (e : Fin 64) : (s.noteNumber f e).pending = s.pending := by
  unfold State.noteNumber
  split <;> rfl

@[simp] theorem frameIn_pending (s : State) (type : Byte) (f : Frame) : (s.frameIn type f).pending = s.pending := by
  unfold State.frameIn
  split <;> simp

/-! ## Machine/Ethernet -/

@[simp] theorem mkaTakes_pending (s : State) (e : Fin 64) (live newSak : Bool)
    : (s.mkaTakes e live newSak).pending = s.pending := by
  unfold State.mkaTakes
  repeat' split
  all_goals simp

@[simp] theorem sendMkpdu_pending (s : State) (e : Fin 64) : (s.sendMkpdu e).pending = s.pending := rfl

@[simp] theorem unpause_pending (s : State) (p : Fin 4) : (s.unpause p).pending = s.pending := by simp [State.unpause]

@[simp] theorem setInboundRead_pending (s : State) (n : Nat) : (s.setInboundRead n).pending = s.pending :=
  by simp [State.setInboundRead]

@[simp] theorem takeEntry_pending (s : State) (read : Nat) : (s.takeEntry read).pending = s.pending := by
  unfold State.takeEntry
  dsimp only
  repeat' split
  all_goals simp

@[simp] theorem takeEntries_pending (n : Nat) (s : State) : (State.takeEntries n s).pending = s.pending := by
  induction n generalizing s with
  | zero => rfl
  | succ n ih =>
    unfold State.takeEntries
    grind [pending_of_eq, intLine_pending, takeEntry_pending]

/-! ## Machine/FlashOps -/

@[simp] theorem pageAppended_pending (s : State) (job : FlashJob) (area pg : Nat) (rest : List (List Byte))
    (next : AppendNext) : (s.pageAppended job area pg rest next).pending = s.pending := by
  unfold State.pageAppended
  dsimp only
  repeat' split
  all_goals simp

@[simp] theorem blockCopied_pending (s : State) (src dst : Nat) : (s.blockCopied src dst).pending = s.pending :=
  by simp [State.blockCopied]

@[simp] theorem refreshDone_pending (s : State) (b : Nat) (rescue : Bool) (op : FlashStep)
    : (s.refreshDone b rescue op).pending = s.pending := by
  unfold State.refreshDone
  repeat' split
  all_goals simp

@[simp] theorem stepDone_pending (s : State) (job : FlashJob) (op : FlashStep) : (s.stepDone job op).pending = s.pending := by
  unfold State.stepDone
  split <;> simp

@[simp] theorem programFailed_pending (s : State) (job : FlashJob) (pg : Nat) (tag : BitVec 192) (bytes : List Byte)
    : (s.programFailed job pg tag bytes).pending = s.pending := by
  unfold State.programFailed
  dsimp only
  repeat' split
  all_goals simp

@[simp] theorem eraseFailed_pending (s : State) (job : FlashJob) (b : Nat) : (s.eraseFailed job b).pending = s.pending := by
  unfold State.eraseFailed
  repeat' split
  all_goals simp

@[simp] theorem wear_pending (s : State) (pg : Nat) (l : List (Nat × BitVec 10)) : (s.wear pg l).pending = s.pending := rfl

@[simp] theorem flashIdle_pending (s : State) : s.flashIdle.pending = s.pending := rfl

@[simp] theorem opDone_pending (s : State) (op : FlashOp) : (s.opDone op).pending = s.pending := by
  unfold State.opDone
  repeat' split
  all_goals simp

@[simp] theorem resumeWrites_pending (s : State) : s.resumeWrites.pending = s.pending := by
  unfold State.resumeWrites
  dsimp only
  repeat' split
  all_goals simp

@[simp] theorem writeCut_pending (s : State) (job : FlashJob) : (s.writeCut job).pending = s.pending := by
  unfold State.writeCut
  split <;> simp

@[simp] theorem floorCut_pending (s : State) : s.floorCut.pending = s.pending := by
  unfold State.floorCut
  split <;> simp

@[simp] theorem dropRecord_pending (s : State) : s.dropRecord.pending = s.pending := by
  unfold State.dropRecord
  split <;> rfl

/-! ## Machine/Pins -/

@[simp] theorem tapNow_pending (s : State) (ir : Byte) : (s.tapNow ir).pending = s.pending := by
  unfold State.tapNow
  dsimp only
  repeat' split
  all_goals simp

@[simp] theorem tapLoad_pending (s : State) (ir : Byte) (condition : Bool) : (s.tapLoad ir condition).pending = s.pending := by
  unfold State.tapLoad
  split <;> simp

/-! ## Machine/Unfold -/

@[simp] theorem unfoldGo_pending (s : State) (c : Fin 16) (tag : Tag) (g : Geom) (p0 gw nl : Nat) (dest : UnfoldDest)
    (marks : BitVec 16) (done : Completion) (chunks : List (List (List Tap)))
    : (s.unfoldGo c tag g p0 gw nl dest marks done chunks).pending = s.pending := by
  unfold State.unfoldGo
  dsimp only
  repeat' split
  all_goals simp

@[simp] theorem unfoldNow_pending (s : State) (r : Fin 8) (e : Eng) (geom p0 gw k0 nl : Nat) (dest : UnfoldDest)
    (marks : BitVec 16) (done : Completion) : (s.unfoldNow r e geom p0 gw k0 nl dest marks done).pending = s.pending := by
  unfold State.unfoldNow
  grind [readRecords_pending, geomRefuse_pending, unfoldFault_pending, unfoldGo_pending]

@[simp] theorem poolGo_pending (s : State) (r : Fin 8) (c : Fin 16) (tag : Tag) (g d : Geom) (isMin : Bool)
    (rows : List Nat) (reads : List (Nat × Nat)) (done : Completion)
    : (s.poolGo r c tag g d isMin rows reads done).pending = s.pending := by
  unfold State.poolGo
  dsimp only
  repeat' split
  all_goals simp

@[simp] theorem poolNow_pending (s : State) (r : Fin 8) (e : Eng) (src dst : Nat) (isMin : Bool) (row0 rows : Nat)
    (done : Completion) : (s.poolNow r e src dst isMin row0 rows done).pending = s.pending := by
  unfold State.poolNow
  grind [readRecords_pending, geomRefuse_pending, unfoldFault_pending, poolGo_pending]

@[simp] theorem resampleGo_pending (s : State) (r : Fin 8) (c : Fin 16) (tag : Tag) (x : Resample)
    (coord : Core → Nat → Nat → Coord) (done : Completion) : (s.resampleGo r c tag x coord done).pending = s.pending := by
  unfold State.resampleGo
  dsimp only
  repeat' split
  all_goals simp

@[simp] theorem resampleNow_pending (s : State) (r : Fin 8) (e : Eng) (src dst : Nat) (bilinear : Option Bilinear)
    (warp : Option WarpSrc) (coord : Geom → Geom → Core → Nat → Nat → Coord) (row0 rows : Nat) (done : Completion)
    : (s.resampleNow r e src dst bilinear warp coord row0 rows done).pending = s.pending := by
  unfold State.resampleNow
  grind [readRecords_pending, geomRefuse_pending, resampleGo_pending]

end Sys2Proof.Machine
end

section
/-! SUPPORT. Every command leaves the queue of commands alone, by the operations of which it consists. And the statement about
it. -/

namespace Sys2Proof.Machine

set_option Elab.async false

/-- The state that an outcome goes on with holds the queue of commands of `s`. -/
def NextKeepsPending (s : State) (o : Host.Outcome State Fault Refusal) : Prop := ∀ t, o = .next t → t.pending = s.pending

section
variable {s t : State}

theorem nextKeepsPending_next (h : t.pending = s.pending) : NextKeepsPending s (.next t) := by
  rintro u ⟨⟩
  exact h

theorem nextKeepsPending_refused {m : Refusal} : NextKeepsPending s (.refused m) := by rintro u ⟨⟩

theorem nextKeepsPending_fault {m : Fault} : NextKeepsPending s (.fault m) := by rintro u ⟨⟩

theorem nextKeepsPending_onForm {i : Instr} {m : String} (h : t.pending = s.pending) : NextKeepsPending s (onForm i m t) := by
  unfold onForm
  split
  · exact nextKeepsPending_next h
  · exact nextKeepsPending_refused

/-- A command that is refused for what the ring lacks, before its form is looked at. -/
theorem nextKeepsPending_ringForm {i : Instr} {b : Bool} {m n : String} (h : t.pending = s.pending) :
    NextKeepsPending s (if b then .refused (.illFormed m) else onForm i n t) := by
  split
  · exact nextKeepsPending_refused
  · exact nextKeepsPending_onForm h

end

/-! ## Commands of streams and of the vector engine -/

section
variable (s : State)

theorem nextKeepsPending_execLoop {u : SeqUnit} {tag : Tag} {count : LoopCount} :
    NextKeepsPending s (execLoop u tag count s) := by
  refine nextKeepsPending_onForm (seqDo_pending _ _ _ _ fun r => ?_)
  dsimp only
  split <;> simp

theorem nextKeepsPending_execSkip {u : SeqUnit} {tag : Tag} {flag : FlagRef} {whenSet : Bool} {span : List SpanItem} :
    NextKeepsPending s (execSkip u tag flag whenSet span s) := by
  refine nextKeepsPending_onForm (seqDo_pending _ _ _ _ fun r => ?_)
  split
  · simp
  · split
    · rename_i h
      rw [skipWith_pending, pending_of_eq h, seqLooks_pending]
    · rename_i h
      rw [seqWait_pending, pending_of_eq h, seqLooks_pending]

theorem nextKeepsPending_execEndStream {u : SeqUnit} {tag : Tag} {gap : Byte} :
    NextKeepsPending s (execEndStream u tag gap s) := by
  refine nextKeepsPending_onForm ?_
  split
  · exact queueCommand_pending _ _ _ _ _ _ _ _ _ fun r n t => onQueue_pending ..
  all_goals exact seqDo_pending _ _ _ _ fun r => onSeq_pending ..

theorem nextKeepsPending_execVop {e : Eng} {op : VOpKind} {dst : Fin 64} {L : Nat} {a b c : VSrc} {fmt : VFmt} :
    NextKeepsPending s (execVop e op dst L a b c fmt s) := by
  refine nextKeepsPending_onForm (vectorCommand_pending _ _ _ _ _ _ _ _ _ fun r u t => ?_)
  dsimp only
  split <;> simp

theorem nextKeepsPending_execVlatch {e : Eng} {k : Fin 64} : NextKeepsPending s (execVlatch e k s) :=
  nextKeepsPending_onForm (vectorCommand_pending _ _ _ _ _ _ _ _ _ fun _ _ t => onCore_pending t _ _)

theorem nextKeepsPending_execRelease {e : Eng} {vector : Bool} {buf : Buf} {region : Fin 16} {sink : ReleaseTo} :
    NextKeepsPending s (execRelease e vector buf region sink s) := by
  refine nextKeepsPending_ringForm (queueCommand_pending _ _ _ _ _ _ _ _ _ fun r u t => ?_)
  split <;> simp

/-! ## Commands of the other units -/

theorem nextKeepsPending_execSmpDecode {chan : Fin 16} {reason : Byte} : NextKeepsPending s (execSmpDecode chan reason s) := by
  unfold execSmpDecode
  split
  · exact nextKeepsPending_refused
  · refine nextKeepsPending_next ?_
    split
    · split <;> simp
    · rfl

theorem nextKeepsPending_execFlashOpDone {op : FlashOp} : NextKeepsPending s (execFlashOpDone op s) := by
  unfold execFlashOpDone
  split
  · exact nextKeepsPending_next (by simp)
  · exact nextKeepsPending_fault

theorem nextKeepsPending_execEncodeUnitDone {session : Fin 16} {au : CodecUnit} :
    NextKeepsPending s (execEncodeUnitDone session au s) := by
  refine nextKeepsPending_next ?_
  extract_lets x
  split
  · split <;> simp
  · rfl

theorem nextKeepsPending_execPauseFrame {port : Fin 4} {quanta : BitVec 16} :
    NextKeepsPending s (execPauseFrame port quanta s) := by
  refine nextKeepsPending_next ?_
  split
  · rfl
  · extract_lets s1
    have h1 : s1.pending = s.pending := ethCount_pending ..
    split
    · rw [unpause_pending, h1]
    · rw [setFld_pending, h1]

theorem nextKeepsPending_execVoltageSettled : NextKeepsPending s (execVoltageSettled s) := by
  refine nextKeepsPending_next ?_
  extract_lets up
  have hup : up.pending = s.pending := by
    refine foldl_pending _ _ _ fun t r => ?_
    extract_lets f
    split <;> simp
  split
  · exact hup
  · rfl

theorem nextKeepsPending_execLockstepMismatch {within60s : Bool} :
    NextKeepsPending s (execLockstepMismatch within60s s) := by
  refine nextKeepsPending_next ?_
  split
  · rfl
  · extract_lets s1 s2 n
    have h2 : s2.pending = s.pending := by rw [record_pending, setFld_pending, bump_pending]
    split
    · exact (trip_pending _).trans ((emptyShadow_pending _).trans ((limitAll_pending _).trans h2))
    · exact (emptyShadow_pending _).trans ((limitAll_pending _).trans h2)

theorem nextKeepsPending_execBoothReloadDone {m : PowerSample} : NextKeepsPending s (execBoothReloadDone m s) := by
  refine nextKeepsPending_next ?_
  split
  · rfl
  · split
    · rfl
    · extract_lets p c s1
      split
      · rfl
      · rw [powerLoopNow_pending, coldStart_pending]
        exact setFld_pending s .pwrStatus F.pwrStatus_LIVE_IMAGE 0

theorem nextKeepsPending_execDramScrub {addr : Nat} {flips : List (Nat × Byte)} {lastOfPass : Bool} :
    NextKeepsPending s (execDramScrub addr flips lastOfPass s) := by
  refine nextKeepsPending_next ?_
  split
  · rfl
  · split
    · simp
    · extract_lets s1
      split
      · rfl
      · split
        · exact scrubLine_pending s1 _
        · exact scrubLine_pending s1 _

theorem nextKeepsPending_execIntOutboundReadAdvance {read : Word} :
    NextKeepsPending s (execIntOutboundReadAdvance read s) := by
  refine nextKeepsPending_next ?_
  split
  · rw [foldl_pending, ownWrite_pending]
    intro t e
    split <;> simp
  · rfl

end

/-! ## Machine/Dispatch -/

theorem nextKeepsPending_exec (c : Instr) (s : State) : NextKeepsPending s (exec c s) := by
  cases c
  case step | drain | accLoad =>
    dsimp only [exec, execStep, execDrain, execAccLoad]
    exact nextKeepsPending_onForm (arrayCommand_pending _ _ _ _ _ _ fun _ _ => by simp)
  case requant | scaleClose | scaleSet =>
    dsimp only [exec, execRequant, execScaleClose, execScaleSet]
    exact nextKeepsPending_onForm (quantCommand_pending _ _ _ _ _ fun _ _ => by simp)
  case loop => exact nextKeepsPending_execLoop s
  case skip => exact nextKeepsPending_execSkip s
  case endStream => exact nextKeepsPending_execEndStream s
  case vop => exact nextKeepsPending_execVop s
  case vlatch => exact nextKeepsPending_execVlatch s
  case release => exact nextKeepsPending_execRelease s
  case endloop | push | pop | wait | set | clear | idle | mark | hint | vload | vfma | vconv | vfunc | vreduce =>
    dsimp only [exec, execEndloop, execPush, execPop, execWait, execSet, execClear, execIdle, execMark, execHint, execVload,
      execVfma, execVconv, execVfunc, execVreduce]
    refine nextKeepsPending_onForm ?_
    repeat' split
    all_goals simp
  case vstore | dma | unfold | pool | resize | crop | warp | stride | transpose | fill | copy =>
    dsimp only [exec, execVstore, execDma, execUnfold, execPool, execResize, execCrop, execWarp, execStride, execTranspose,
      execFill, execCopy]
    exact nextKeepsPending_ringForm (by simp)
  case smpDecode => exact nextKeepsPending_execSmpDecode s
  case flashOpDone => exact nextKeepsPending_execFlashOpDone s
  case encodeUnitDone => exact nextKeepsPending_execEncodeUnitDone s
  case pauseFrame => exact nextKeepsPending_execPauseFrame s
  case voltageSettled => exact nextKeepsPending_execVoltageSettled s
  case lockstepMismatch => exact nextKeepsPending_execLockstepMismatch s
  case boothReloadDone => exact nextKeepsPending_execBoothReloadDone s
  case dramScrub => exact nextKeepsPending_execDramScrub s
  case intOutboundReadAdvance => exact nextKeepsPending_execIntOutboundReadAdvance s
  case number | numbered | system | detach | renumber =>
    refine nextKeepsPending_next (packetIn_pending _ _ _ _ _ fun t => ?_)
    split <;> simp
  case quoteRelay =>
    refine nextKeepsPending_next (trafficIn_pending _ _ _ _ _ fun t => ?_)
    split <;> simp
  case dmaComplete | unfoldComplete | storeComplete | crossingDeliver | stallFault | invocationStart | invocationEnd |
    ringLoadComplete | parkComplete | parkTimeout | stopComplete | seqAdmit | swapOutPageDone | swapInPageDone |
    pageAnswerTimeout | csiFrameStart | csiLongPacket | csiEmbeddedData | csiFrameEnd | csiSotError | frameEndTimeout |
    frameDeliver | streamDisableDone | decodeUnit | sampleTake | sampleDeliver | sampleLate | result | resultNotice |
    reassemblyTimeout | mkaFrame | intInboundPoll | link | replayTimeout | linkAckTimer | portTrained | numberingStart |
    numberedTimeout | rediscover | quoteRelayTimeout | windowCloseDone | poresetDeassert | sysresetDeassert | boothBringUp
    | safetyNetExpiry | installComplete | romRead | announce | begin | data | endRecoveryImage | recoverySessionTimeout |
    logPageProgram | flashWriteResume | flashHoldTimeout | powerLoop | thermalLoop | hintHandler | hintPhaseEnd |
    droopDetect | thermalEmergency | thermalRecover | thermalCritical | ageingSample | trimWrite | updateLoadDone |
    boothSwitch | switchReadyTimeout | activateTimeout | dramRead | dramWrite | dramTempPoll | ecsCollect | mwyScrub |
    secRequestTimeout | keyGenDone | wakeNAssert | pwrWarnDeassert | railDetectFall | railDetectClear | refclkWindow |
    traceStreamTimeout | syncMarker | ethFrameDrop | mkaHelloTime | mkaLifeTimeExpiry | ethPortLink | csiEccBad |
    trapezeBadPacket | vddAonStoreHold =>
    refine nextKeepsPending_next ?_
    repeat' split
    all_goals simp
  all_goals exact nextKeepsPending_next (by simp)

/-- Settles O54, command by command. -/
theorem everyCommandLeavesTheQueueAlone : Obligations.EveryCommandLeavesTheQueueAlone := by
  unfold Obligations.EveryCommandLeavesTheQueueAlone
  exact fun c s => nextKeepsPending_exec c s

end Sys2Proof.Machine
end

section
/-! SUPPORT. What an issue changes (R104, R105, R127): the queue that a command leaves, and the core's slot and flags. And the
statement about it. -/

namespace Sys2Proof.Machine

/-- A queue that the command `tag` has left in slot `u` (R104, R105, R117). -/
def issuedQueue (tag : Tag) (gap occ prog u : Nat) (k : EngineQueue) : EngineQueue :=
  { k with
    tags := (match k.tags with | t :: l => if t = tag then l else t :: l | [] => [])
    wait := none, free := u + occ, fresh := false, prog := k.prog + gap + prog, stepNow := false, probe := .idle }

section
variable (s : State) (c : Fin 16) (q : Fin 5) (tag : Tag) (gap occ prog u : Nat)

theorem queues_issueAt : ((s.issueAt c q tag gap occ prog u).core c).queues =
    (s.core c).queues.set q (issuedQueue tag gap occ prog u (s.queue c q)) := by
  have hslot : ((if isExecQueue q = true then s.toSlot c u else s).core c).queues = (s.core c).queues := by
    split
    · exact queues_toSlot s c u
    · rfl
  unfold State.issueAt
  dsimp only
  rw [(traces_trace _ c evIssue tag q.val q.val).queues c, State.onQueue, core_onCore]
  dsimp only
  rw [hslot]
  rfl

theorem queue_issueAt : (s.issueAt c q tag gap occ prog u).queue c q = issuedQueue tag gap occ prog u (s.queue c q) := by
  rw [State.queue, queues_issueAt]
  exact Vector.getElem_set_self _

theorem queue_issueAt_ne {p : Fin 5} (hp : p ≠ q) : (s.issueAt c q tag gap occ prog u).queue c p = s.queue c p := by
  rw [State.queue, queues_issueAt]
  exact Vector.getElem_set_ne _ _ (Fin.val_ne_of_ne hp.symm)

theorem slot_issueAt_access (hq : isExecQueue q = false) :
    ((s.issueAt c q tag gap occ prog u).core c).slot = (s.core c).slot := by
  unfold State.issueAt
  dsimp only
  rw [if_neg (by rw [hq]; exact Bool.false_ne_true)]
  obtain ⟨hslot, -⟩ := (traces_trace (s.onQueue c q _) c evIssue tag q.val q.val).slot_flags c
  rw [hslot, State.onQueue, core_onCore]

end

section
variable {c : Fin 16} {s t : State}

/-- What an issue leaves of the core's memories, buffers and data queues. -/
theorem Issued.memories (h : Issued c s t) : (t.core c).mem = (s.core c).mem ∧ (t.core c).memBad = (s.core c).memBad ∧
    (t.core c).gather = (s.core c).gather ∧ (t.core c).dqs = (s.core c).dqs ∧ (t.core c).opnd = (s.core c).opnd ∧
    (t.core c).wValid = (s.core c).wValid ∧ (t.core c).aValid = (s.core c).aValid ∧ (t.core c).dsValid = (s.core c).dsValid ∧
    (t.core c).rx = (s.core c).rx ∧ (t.core c).latchValid = (s.core c).latchValid := by
  rw [h.core]
  exact ⟨rfl, rfl, rfl, rfl, rfl, rfl, rfl, rfl, rfl, rfl⟩

theorem Issued.otherCore (h : Issued c s t) {d : Fin 16} (hd : d ≠ c) : (t.core d).mem = (s.core d).mem ∧
    (t.core d).flags = (s.core d).flags ∧ (t.core d).queues = (s.core d).queues := by
  rw [h.other d hd]
  exact ⟨rfl, rfl, rfl⟩

theorem Issued.rings (h : Issued c s t) (g : Fin 8) : (t.ring g).flags = (s.ring g).flags ∧
    (t.ring g).waiting = (s.ring g).waiting ∧ (t.ring g).current = (s.ring g).current := by
  rw [h.ring g]
  exact ⟨rfl, rfl, rfl⟩

theorem Issued.elsewhere (h : Issued c s t) : t.mwy = s.mwy ∧ t.mwyBad = s.mwyBad ∧ SameCrossings s t ∧
    t.flash.main = s.flash.main ∧ t.power = s.power := by
  refine ⟨h.mwy, ?_, h.sameCrossings, ?_, ?_⟩
  · rw [h.rest]
  · rw [h.flash]
  · rw [h.rest]

end

/-- Settles O5: the head of a queue by `front_ready`, and an issue by what it leaves of the queue and of the rest. -/
theorem headOfQueueIssues : Obligations.HeadOfQueueIssues := by
  unfold Obligations.HeadOfQueueIssues
  refine ⟨fun s c q mask tag gap r u h => front_ready h, fun s c q tag gap occ prog u => ?_⟩
  have hissued := issued_issueAt s c q tag gap occ prog u
  have hqueue := queue_issueAt s c q tag gap occ prog u
  have hqueues := fun p => queue_issueAt_ne s c q tag gap occ prog u (p := p)
  have hexec := flags_issueAt s c (q := q) tag gap occ prog u
  have haccess := fun hq => And.intro (slot_issueAt_access s c q tag gap occ prog u hq)
    (flags_issueAt_access s c tag gap occ prog u hq)
  generalize s.issueAt c q tag gap occ prog u = t at *
  obtain ⟨hmem, hmemBad, hgather, hdqs, hopnd, hw, ha, hds, hrx, hlatch⟩ := hissued.memories
  refine ⟨?_, ?_, ?_, ?_, fun rest hrest => ?_, hqueues, fun hq => ?_, haccess, hmem, hmemBad, hgather, hdqs, hopnd, hw, ha,
    hds, hrx, hlatch, fun d hd => hissued.otherCore hd, hissued.rings, hissued.elsewhere⟩
  · rw [hqueue]
    rfl
  · rw [hqueue]
    rfl
  · rw [hqueue]
    rfl
  · rw [hqueue]
    rfl
  · rw [hqueue, issuedQueue, hrest]
    exact if_pos rfl
  · obtain ⟨hslot, hflags, -⟩ := hexec hq
    exact ⟨hslot, hflags⟩

end Sys2Proof.Machine
end

section
/-! SUPPORT. What a sequencer's command does that the unit takes (R107, R109), and what a data queue's change leaves alone (R108). And
the statement about PUSH and POP. -/

namespace Sys2Proof.Machine

/-! ## Sequencers -/

section
variable {s t : State} {u : SeqUnit} {tag : Tag} {r : Fin 8}

theorem seqDo_takes (go : Fin 8 → State) (h : Takes s u tag r) : s.seqDo u tag go = go r := by
  rw [State.seqDo, seqTakes_takes h]

/-- A core changed elsewhere than in its sequencers. -/
theorem seq_onCore (s : State) (c : Fin 16) (u : SeqUnit) {f : Core → Core} (ha : ∀ k, (f k).access = k.access)
    (he : ∀ k, (f k).execute = k.execute) : (s.onCore c f).seq u = s.seq u := by
  cases u with
  | queue d q mask => rfl
  | access d =>
    by_cases hd : c = d
    · rw [State.seq, State.seq, ← hd, core_onCore, ha]
    · rw [State.seq, State.seq, core_onCore_ne s f hd]
  | execute d =>
    by_cases hd : c = d
    · rw [State.seq, State.seq, ← hd, core_onCore, he]
    · rw [State.seq, State.seq, core_onCore_ne s f hd]
  | ringmaster q => rfl

theorem seq_seqGo (s : State) {u : SeqUnit} (h : isStream u = true) : (s.seqGo u).seq u = { s.seq u with wait := none } :=
  seq_onSeq s _ h

theorem seqKept_seqGo (s : State) (u : SeqUnit) : SeqKept s (s.seqGo u) := seqKept_onSeq s u _

theorem wait_seqWait (s : State) {u : SeqUnit} (tag : Tag) (kind : WaitKind) (index : Nat) (h : isStream u = true) :
    ((s.seqWait u tag kind index).seq u).wait = some ⟨tag, kind, index, 0xFF, 0, false⟩ := by
  rw [State.seqWait, seq_onSeq s _ h]

theorem SeqKept.dq (h : SeqKept s t) (c : Fin 16) (n : Fin 8) : t.dq c n = s.dq c n := by
  rw [State.dq, State.dq, h.dqs c]

end

/-! ## Data queues -/

theorem Traces.coreSeqStatus {c : Fin 16} {s t : State} (h : Traces c s t) (d : Fin 16) :
    t.reg (.coreSeqStatus d) = s.reg (.coreSeqStatus d) := by
  apply h.regs <;> simp [reportAddrs, addr_injective.eq_iff]

theorem Traces.dq {c : Fin 16} {s t : State} (h : Traces c s t) (d : Fin 16) (n : Fin 8) : t.dq d n = s.dq d n := by
  rw [State.dq, State.dq, h.core d]
  rfl

theorem dq_onDq_ne (s : State) (c : Fin 16) {n m : Fin 8} (f : List DqEntry → List DqEntry) (h : m ≠ n) :
    (s.onDq c n f).dq c m = s.dq c m := by
  rw [State.dq, State.onDq, core_onCore]
  exact Vector.getElem_set_ne n.isLt m.isLt (Fin.val_ne_of_ne h.symm)

theorem seq_onDq (s : State) (c : Fin 16) (n : Fin 8) (f : List DqEntry → List DqEntry) (u : SeqUnit) :
    (s.onDq c n f).seq u = s.seq u := seq_onCore s c u (fun _ => rfl) fun _ => rfl

theorem sameMemory_onDq (s : State) (c : Fin 16) (n : Fin 8) (f : List DqEntry → List DqEntry) :
    SameMemory s (s.onDq c n f) := sameMemory_onCore s c rfl

/-- A sequencer that has moved on, with a data queue changed. -/
def dqMoved (s : State) (u : SeqUnit) (dq : Fin 8) (f : List DqEntry → List DqEntry) : State :=
  (s.seqGo u).onDq (s.unitCore u) dq f

section
variable {s : State} {u : SeqUnit} {tag : Tag} {r : Fin 8} {dq : Fin 8} (f : List DqEntry → List DqEntry)

theorem sameMemory_dqMoved : SameMemory s (dqMoved s u dq f) :=
  (seqKept_seqGo s u).sameMemory.trans (sameMemory_onDq _ _ _ _)

theorem regs_dqMoved : (dqMoved s u dq f).regs = s.regs := (seqKept_seqGo s u).regs

theorem mwy_dqMoved : (dqMoved s u dq f).mwy = s.mwy := (seqKept_seqGo s u).mwy

theorem mem_dqMoved : ((dqMoved s u dq f).core (s.unitCore u)).mem = (s.core (s.unitCore u)).mem := by
  rw [dqMoved, State.onDq, core_onCore, ← (seqKept_seqGo s u).mem (s.unitCore u)]

theorem wait_dqMoved (h : isStream u = true) : ((dqMoved s u dq f).seq u).wait = none := by
  rw [dqMoved, seq_onDq, seq_seqGo s h]

theorem dq_dqMoved : (dqMoved s u dq f).dq (s.unitCore u) dq = f (s.dq (s.unitCore u) dq) := by
  rw [dqMoved, dq_onDq, (seqKept_seqGo s u).dq]

theorem dq_dqMoved_ne {n : Fin 8} (h : n ≠ dq) : (dqMoved s u dq f).dq (s.unitCore u) n = s.dq (s.unitCore u) n := by
  rw [dqMoved, dq_onDq_ne _ _ _ h, (seqKept_seqGo s u).dq]

/-! ## PUSH and POP -/

theorem execPush_room (entry : DqEntry) (h : Takes s u tag r) (hpush : pushesInto u dq = true)
    (hroom : (s.dq (s.unitCore u) dq).length < 32) :
    exec (.push u tag dq entry) s = .next (dqMoved s u dq fun l => l ++ [entry]) := by
  show execPush u tag dq entry s = _
  rw [execPush, onForm_formOk (i := .push u tag dq entry) hpush, seqDo_takes _ h, State.dqRoom, if_pos (decide_eq_true hroom), dqMoved]

theorem execPush_full (entry : DqEntry) (h : Takes s u tag r) (hpush : pushesInto u dq = true)
    (hfull : 32 ≤ (s.dq (s.unitCore u) dq).length) :
    exec (.push u tag dq entry) s = .next (s.seqWait u tag .dataQueue dq.val) := by
  show execPush u tag dq entry s = _
  rw [execPush, onForm_formOk (i := .push u tag dq entry) hpush, seqDo_takes _ h, State.dqRoom,
    if_neg fun hroom => absurd (of_decide_eq_true hroom) (by omega)]

theorem execPop_empty (expect : Option DqEntry) (h : Takes s u tag r) (hpop : popsFrom u dq = true)
    (hdq : s.dq (s.unitCore u) dq = []) : exec (.pop u tag dq expect) s = .next (s.seqWait u tag .dataQueue dq.val) := by
  show execPop u tag dq expect s = _
  rw [execPop, onForm_formOk (i := .pop u tag dq expect) hpop, seqDo_takes _ h, hdq]

theorem execPop_head (expect : Option DqEntry) {found : DqEntry} {rest : List DqEntry} (h : Takes s u tag r)
    (hpop : popsFrom u dq = true) (hdq : s.dq (s.unitCore u) dq = found :: rest) :
    exec (.pop u tag dq expect) s = .next (s.popNow u tag dq expect found) := by
  show execPop u tag dq expect s = _
  rw [execPop, onForm_formOk (i := .pop u tag dq expect) hpop, seqDo_takes _ h, hdq]

theorem popNow_expected {expect : Option DqEntry} {found : DqEntry} (h : expect = none ∨ expect = some found) :
    s.popNow u tag dq expect found = dqMoved s u dq fun l => l.drop 1 := by
  unfold State.popNow
  rw [if_neg]
  · rfl
  · rcases h with rfl | rfl <;> simp

theorem popNow_unexpected {want found : DqEntry} (h : want ≠ found) : s.popNow u tag dq (some want) found =
    ((dqMoved s u dq fun l => l.drop 1).setFld (.coreSeqStatus (s.unitCore u)) F.coreSeqStatus_TOKEN_MISMATCH 1).trace
      (s.unitCore u) evToken tag (entryOperand found) := by
  unfold State.popNow
  rw [if_pos (by simpa using h)]
  rfl

end

/-- Settles O7, by what PUSH and POP come to in each state of the data queue. -/
theorem dataQueuesAreFirstInFirstOut : Obligations.DataQueuesAreFirstInFirstOut := by
  unfold Obligations.DataQueuesAreFirstInFirstOut
  refine ⟨fun s u tag r dq h => ⟨?_, ?_, ?_, ?_⟩, ?_⟩
  · intro entry hpush hroom
    exact ⟨_, execPush_room entry h hpush hroom, sameMemory_dqMoved _, regs_dqMoved _, wait_dqMoved _ h.isStream,
      dq_dqMoved _, fun n hn => dq_dqMoved_ne _ hn⟩
  · intro entry hpush hfull
    exact ⟨_, execPush_full entry h hpush hfull, (seqKept_onSeq s u _).dq _ _, wait_seqWait s tag _ _ h.isStream⟩
  · intro expect found rest hpop hdq hexpect
    refine ⟨_, execPop_head expect h hpop hdq, ?_⟩
    rw [popNow_expected hexpect]
    refine ⟨sameMemory_dqMoved _, regs_dqMoved _, wait_dqMoved _ h.isStream, ?_, fun n hn => dq_dqMoved_ne _ hn⟩
    rw [dq_dqMoved, hdq, List.drop_one, List.tail_cons]
  · intro expect hpop hdq
    exact ⟨_, execPop_empty expect h hpop hdq, ((seqKept_onSeq s u _).dq _ _).trans hdq, wait_seqWait s tag _ _ h.isStream⟩
  · intro s u tag r dq want found rest h hpop hdq hwant
    refine ⟨_, execPop_head (some want) h hpop hdq, ?_⟩
    rw [popNow_unexpected hwant]
    have htraces := traces_trace ((dqMoved s u dq fun l => l.drop 1).setFld (.coreSeqStatus (s.unitCore u))
      F.coreSeqStatus_TOKEN_MISMATCH 1) (s.unitCore u) evToken tag (entryOperand found) 0
    refine ⟨?_, ?_, ?_, ?_⟩
    · rw [htraces.dq]
      exact (dq_dqMoved _).trans (by rw [hdq, List.drop_one, List.tail_cons])
    · rw [State.fld, htraces.coreSeqStatus]
      exact fld_setFld _ _ _ 1 ⟨by decide, by decide⟩
    · rw [htraces.mwy]
      exact mwy_dqMoved (dq := dq) fun l => l.drop 1
    · rw [htraces.mem]
      exact mem_dqMoved _

end Sys2Proof.Machine
end

section
/-! SUPPORT. What a test of a flag beyond a crossing changes (R125 to R127), and what a loop and a skipped span leave of the loops
(R111, R482). And the statement about LOOP, ENDLOOP and SKIP. -/

namespace Sys2Proof.Machine

/-! ## Sequencers -/

section
variable {s t : State} {u : SeqUnit}

/-- A sequencer stands in its core, or in its ring. -/
theorem seq_congr (hcore : ∀ c : Fin 16, t.core c = s.core c) (hring : ∀ r : Fin 8, t.ring r = s.ring r) (u : SeqUnit) :
    t.seq u = s.seq u := by
  cases u with
  | queue c q mask => rfl
  | access c => rw [State.seq, State.seq, hcore]
  | execute c => rw [State.seq, State.seq, hcore]
  | ringmaster r => rw [State.seq, State.seq, hring]

theorem probeOf_stream (s : State) (h : isStream u = true) : s.probeOf u = (s.seq u).probe := by
  cases u with
  | queue c q mask => exact nomatch h
  | access c => rfl
  | execute c => rfl
  | ringmaster r => rfl

theorem seq_setProbe (s : State) (p : Probe) (h : isStream u = true) : (s.setProbe u p).seq u = { s.seq u with probe := p } := by
  cases u with
  | queue c q mask => exact nomatch h
  | access c => rw [State.setProbe, State.seq, core_onCore, State.seq]
  | execute c => rw [State.setProbe, State.seq, core_onCore, State.seq]
  | ringmaster r => rw [State.setProbe, State.seq, ring_onRing, State.seq]

theorem SeqKept.sameCrossings (h : SeqKept s t) : SameCrossings s t := by
  rw [h.rest]
  exact ⟨rfl, rfl⟩

theorem OnlyCrossings.seq (h : OnlyCrossings s t) (u : SeqUnit) : t.seq u = s.seq u := seq_congr h.core h.ring u

/-- A sequencer that has moved on, with what its command makes of it. -/
def seqMoved (s : State) (u : SeqUnit) (f : Sequencer → Sequencer) : State := (s.seqGo u).onSeq u f

theorem seqKept_seqMoved (s : State) (u : SeqUnit) (f : Sequencer → Sequencer) : SeqKept s (seqMoved s u f) :=
  (seqKept_seqGo s u).trans (seqKept_onSeq _ u f)

theorem seq_seqMoved (s : State) (f : Sequencer → Sequencer) (h : isStream u = true) :
    (seqMoved s u f).seq u = f { s.seq u with wait := none } := by
  rw [seqMoved, seq_onSeq _ _ h, seq_seqGo s h]

end

/-! ## Tests -/

section
variable {s t : State} {u : SeqUnit} {r : Fin 8} {flag : FlagRef} {kind : TestKind}

theorem regs_setProbe (s : State) (u : SeqUnit) (p : Probe) : (s.setProbe u p).regs = s.regs := by
  cases u with
  | queue c q mask => rfl
  | access c => rfl
  | execute c => rfl
  | ringmaster r => rfl

theorem mwy_setProbe (s : State) (u : SeqUnit) (p : Probe) : (s.setProbe u p).mwy = s.mwy := by
  cases u with
  | queue c q mask => rfl
  | access c => rfl
  | execute c => rfl
  | ringmaster r => rfl

theorem ringFlags_setProbe (s : State) (u : SeqUnit) (p : Probe) (q : Fin 8) :
    ((s.setProbe u p).ring q).flags = (s.ring q).flags := by
  cases u with
  | queue c q mask => rfl
  | access c => rfl
  | execute c => rfl
  | ringmaster r =>
    by_cases hq : r = q
    · rw [← hq, State.setProbe, ring_onRing]
    · rw [State.setProbe, ring_onRing_ne s _ hq]

theorem sends_ask (s : State) (u : SeqUnit) (o : CrossOp) : Sends s (s.ask u o) (crossFrom u) o :=
  (sameCrossings_setProbe s u .asked).sends (sends_crossPut _ _ o)

theorem onlyCrossings_ask (s : State) (u : SeqUnit) (o : CrossOp) : OnlyCrossings (s.setProbe u .asked) (s.ask u o) :=
  onlyCrossings_crossPut _ _ _

theorem sameMemory_ask (s : State) (u : SeqUnit) (o : CrossOp) : SameMemory s (s.ask u o) :=
  (sameMemory_setProbe s u .asked).trans (onlyCrossings_ask s u o).sameMemory

theorem regs_ask (s : State) (u : SeqUnit) (o : CrossOp) : (s.ask u o).regs = s.regs :=
  (onlyCrossings_ask s u o).regs.trans (regs_setProbe s u .asked)

theorem ringFlags_ask (s : State) (u : SeqUnit) (o : CrossOp) (q : Fin 8) : ((s.ask u o).ring q).flags = (s.ring q).flags := by
  rw [(onlyCrossings_ask s u o).ring, ringFlags_setProbe]

theorem seq_ask (s : State) (o : CrossOp) (h : isStream u = true) : (s.ask u o).seq u = { s.seq u with probe := .asked } :=
  ((onlyCrossings_ask s u o).seq u).trans (seq_setProbe s .asked h)

/-- What a test at a core leaves: rings, midway, and every byte of memory (R125). -/
structure Tested (s t : State) : Prop where
  rings : t.rings = s.rings
  mwy : t.mwy = s.mwy
  memory : SameMemory s t

theorem tested_consumeCore (s : State) (c : Fin 16) (exec : Bool) (n : Fin 64) : Tested s (s.consumeCore c exec n) := by
  have hbase : ∀ v p, Tested s (s.reachFlags c v p) := by
    intro v p
    unfold State.reachFlags
    dsimp only
    have hcore : SameMemory s (s.onCore c fun k => { k with flags := v.1, flagPend := k.flagPend.filter fun o => !p o }) :=
      sameMemory_onCore s c rfl
    split
    · exact ⟨rfl, rfl, hcore.trans ⟨fun _ _ => rfl, fun _ => rfl, fun _ => rfl⟩⟩
    · exact ⟨rfl, rfl, hcore⟩
  unfold State.consumeCore
  cases exec with
  | true => exact ⟨rfl, rfl, sameMemory_onCore s c rfl⟩
  | false =>
    obtain ⟨hrings, hmwy, hmemory⟩ := hbase (flagsAfter (s.core c)) fun _ => true
    exact ⟨hrings, hmwy, hmemory.trans (sameMemory_onCore (s.flagsNow c) c rfl)⟩

theorem tested_serveMaster (s : State) (r : Fin 8) (c : Fin 16) : Tested s (s.serveMaster r c) := by
  have hanswer : ∀ (t : State) (x : Crossing) (o : CrossOp), Tested s t →
      Tested s ((t.onCore c fun k => { k with masterTest := none }).crossPut x o) := by
    rintro t x o ⟨hrings, hmwy, hmemory⟩
    have hput := onlyCrossings_crossPut (t.onCore c fun k => { k with masterTest := none }) x o
    exact ⟨hput.rings.trans hrings, hput.mwy.trans hmwy, (hmemory.trans (sameMemory_onCore t c rfl)).trans hput.sameMemory⟩
  have hself : Tested s s := ⟨rfl, rfl, fun _ _ => rfl, fun _ => rfl, fun _ => rfl⟩
  unfold State.serveMaster
  split
  · exact hself
  · split
    · refine hanswer _ _ _ ?_
      split
      · exact tested_consumeCore s c false _
      · exact hself
    · exact hself

/-- Where the answer to a test beyond a crossing has come, the unit knows the flag's value (R127). -/
theorem seqLooks_answered {v : Bool} (hfar : (∃ n, flag = .ring n) ∨ ∃ q, u = .ringmaster q) (hu : isStream u = true)
    (hanswer : s.probeOf u = .answered v) : ∃ t, s.seqLooks u r flag kind = (t.setProbe u .idle, some v) ∧
      t.seq u = s.seq u ∧ Tested s t := by
  have hself : Tested s s := ⟨rfl, rfl, fun _ _ => rfl, fun _ => rfl, fun _ => rfl⟩
  cases flag with
  | ring n =>
    refine ⟨s, ?_, rfl, hself⟩
    unfold State.seqLooks
    simp only [hanswer]
  | core n on =>
    obtain ⟨m, hm⟩ | ⟨q, rfl⟩ := hfar
    · cases hm
    have htested := tested_serveMaster s r (s.flagCore (.ringmaster q) (.core n on))
    have hseq : (s.serveMaster r (s.flagCore (.ringmaster q) (.core n on))).seq (.ringmaster q) = s.seq (.ringmaster q) := by
      rw [State.seq, State.seq, State.ring, htested.rings, State.ring]
    refine ⟨_, ?_, hseq, htested⟩
    have hprobe : (s.serveMaster r (s.flagCore (.ringmaster q) (.core n on))).probeOf (.ringmaster q) = .answered v := by
      rw [probeOf_stream _ hu, hseq, ← probeOf_stream s hu, hanswer]
    unfold State.seqLooks
    simp only [hprobe]

/-- A test of a ring flag that has not gone out goes out, where its crossing has room (R127). -/
theorem seqLooks_asks {n : Fin 256} (hidle : s.probeOf u = .idle) (hroom : s.crossFull (crossFrom u) = false) :
    s.seqLooks u r (.ring n) kind = (s.ask u (.test r u n kind), none) := by
  unfold State.seqLooks
  simp only [hidle, hroom, Bool.false_eq_true, if_false]

/-- A core's sequencer knows the core's flags (R127; log 108). -/
theorem seqLooks_core {c : Fin 16} {n : Fin 64} {on : BitVec 16} (hu : u = .access c ∨ u = .execute c) :
    s.seqLooks u r (.core n on) kind = (s, some ((flagsAfter (s.core c)).1.getLsbD n)) := by
  rcases hu with rfl | rfl <;> rfl

theorem reaches_core {c : Fin 16} {n : Fin 64} {on : BitVec 16} (hu : u = .access c ∨ u = .execute c) :
    s.reaches u r (.core n on) = true := by
  rcases hu with rfl | rfl <;> rfl

end

/-! ## LOOP and ENDLOOP -/

section
variable {s s1 : State} {u : SeqUnit} {tag : Tag} {r : Fin 8} {n : Nat}

theorem execLoop_takes {count : LoopCount} (h : Takes s u tag r) (hform : formOk (.loop u tag count) = true)
    (hcount : s.loopCount tag u r count = (s1, n, false)) :
    exec (.loop u tag count) s = .next (seqMoved s1 u (enterLoop n)) := by
  show execLoop u tag count s = _
  rw [execLoop, onForm_formOk hform, seqDo_takes _ h]
  dsimp only
  rw [hcount]
  rfl

theorem execEndloop_takes (h : Takes s u tag r) : exec (.endloop u tag) s = .next (seqMoved s u endLoop) := by
  show execEndloop u tag s = _
  rw [execEndloop, onForm_formOk (i := .endloop u tag) h.isStream, seqDo_takes _ h]
  rfl

theorem loops_enterLoop (n : Nat) (q : Sequencer) :
    (enterLoop n q).loops = if n = 0 ∨ 4 ≤ q.loops.length then q.loops else n :: q.loops := by
  unfold enterLoop
  split
  · rfl
  · rfl

theorem loops_endLoop_nil {q : Sequencer} (h : q.loops = []) : (endLoop q).loops = [] := by
  rw [endLoop, h]
  exact h

theorem loops_endLoop_cons {q : Sequencer} {rest : List Nat} (h : q.loops = n :: rest) :
    (endLoop q).loops = if 2 ≤ n then (n - 1) :: rest else rest := by
  rw [endLoop, h]

theorem ended_endLoop (q : Sequencer) : (endLoop q).ended = q.ended := by
  unfold endLoop
  split
  · rfl
  · rfl

/-- A loop of which the unit knows the count. -/
theorem execLoop_known {count : LoopCount} (h : Takes s u tag r) (hform : formOk (.loop u tag count) = true)
    (hcount : s.loopCount tag u r count = (s, n, false)) : ∃ t, exec (.loop u tag count) s = .next t ∧ SameMemory s t ∧
      t.regs = s.regs ∧
      (t.seq u).loops = (if n = 0 ∨ 4 ≤ (s.seq u).loops.length then (s.seq u).loops else n :: (s.seq u).loops) := by
  have hkept := seqKept_seqMoved s u (enterLoop n)
  refine ⟨_, execLoop_takes h hform hcount, hkept.sameMemory, hkept.regs, ?_⟩
  rw [seq_seqMoved s _ h.isStream, loops_enterLoop]

/-! ## SKIP -/

variable {flag : FlagRef} {whenSet v : Bool} {span : List SpanItem}

theorem execSkip_known (h : Takes s u tag r) (hform : formOk (.skip u tag flag whenSet span) = true)
    (hreach : s.reaches u r flag = true) (hlook : s.seqLooks u r flag .look = (s1, some v)) :
    exec (.skip u tag flag whenSet span) s = .next (s1.skipWith u whenSet v span) := by
  show execSkip u tag flag whenSet span s = _
  rw [execSkip, onForm_formOk hform, seqDo_takes _ h,
    if_neg (by rw [hreach]; exact Bool.false_ne_true), hlook]

theorem execSkip_unknown (h : Takes s u tag r) (hform : formOk (.skip u tag flag whenSet span) = true)
    (hreach : s.reaches u r flag = true) (hlook : s.seqLooks u r flag .look = (s1, none)) :
    exec (.skip u tag flag whenSet span) s = .next (s1.seqWait u tag .busy 0) := by
  show execSkip u tag flag whenSet span s = _
  rw [execSkip, onForm_formOk hform, seqDo_takes _ h,
    if_neg (by rw [hreach]; exact Bool.false_ne_true), hlook]

theorem seqKept_skipWith (s : State) (u : SeqUnit) (whenSet v : Bool) (span : List SpanItem) :
    SeqKept s (s.skipWith u whenSet v span) := by
  unfold State.skipWith
  split
  · exact seqKept_seqMoved s u _
  · exact seqKept_seqGo s u

/-- The sequencer after a SKIP: its loops are those after the span where the flag is as named. -/
theorem seq_skipWith (s : State) (whenSet v : Bool) (span : List SpanItem) (h : isStream u = true) :
    (s.skipWith u whenSet v span).seq u = { s.seq u with
      wait := none, loops := if v = whenSet then skipSpan span 0 (s.seq u).loops else (s.seq u).loops } := by
  unfold State.skipWith
  by_cases hv : v = whenSet
  · rw [if_pos (beq_iff_eq.mpr hv), if_pos hv]
    exact seq_seqMoved s _ h
  · rw [if_neg (by simpa using hv), if_neg hv]
    exact seq_seqGo s h

end

/-- Settles O6: LOOP by the count that the unit knows, ENDLOOP by the loops that run, SKIP by what the unit knows of the flag. -/
theorem loopsNestAndSkipPasses : Obligations.LoopsNestAndSkipPasses := by
  unfold Obligations.LoopsNestAndSkipPasses
  refine ⟨fun s u tag r hu h => ⟨?_, ?_, ?_, ?_⟩, fun s u tag r flag whenSet span hform h => ⟨?_, ?_, ?_⟩⟩
  · intro n hn
    exact execLoop_known h (by simp [formOk, hu, hn]) rfl
  · rintro off hoff rfl
    exact execLoop_known h (by simp [formOk, hu, hoff]) rfl
  · intro off c s1 d hoff hc hread hpoison
    refine execLoop_takes h (by simp [formOk, hu, hoff]) ?_
    rcases hc with rfl | rfl <;> simp only [State.loopCount, State.unitCore, hread, hpoison]
  · have hkept := seqKept_seqMoved s u endLoop
    refine ⟨_, execEndloop_takes h, hkept.sameMemory, hkept.regs, ?_⟩
    rw [seq_seqMoved s _ hu]
    refine ⟨ended_endLoop _, fun hloops => loops_endLoop_nil hloops, fun n rest hloops hn => ?_, fun n rest hloops hn => ?_⟩
    · exact (loops_endLoop_cons (q := { s.seq u with wait := none }) hloops).trans (if_pos hn)
    · exact (loops_endLoop_cons (q := { s.seq u with wait := none }) hloops).trans (if_neg (Nat.not_le.mpr hn))
  · rintro c n on hc rfl
    have hkept := seqKept_skipWith s u whenSet ((flagsAfter (s.core c)).1.getLsbD n) span
    refine ⟨_, execSkip_known h hform (reaches_core hc) (seqLooks_core hc), hkept.sameMemory, hkept.regs, ?_⟩
    rw [seq_skipWith s _ _ _ h.isStream]
    exact ⟨rfl, rfl⟩
  · intro v hfar hreach hanswer
    obtain ⟨t, hlook, hseq, htested⟩ := seqLooks_answered (r := r) (kind := .look) (hfar.imp_right fun hu => ⟨r, hu⟩)
      h.isStream hanswer
    refine ⟨_, execSkip_known h hform hreach hlook, ?_, ?_⟩
    · exact (htested.memory.trans (sameMemory_setProbe t u .idle)).trans (seqKept_skipWith _ u whenSet v span).sameMemory
    · rw [probeOf_stream _ h.isStream, seq_skipWith _ _ _ _ h.isStream, seq_setProbe t _ h.isStream, hseq]
      exact ⟨rfl, rfl, rfl⟩
  · rintro n rfl hidle hroom
    have hkept := seqKept_onSeq (s.ask u (.test r u n .look)) u fun q => { q with wait := some ⟨tag, .busy, 0, 0xFF, 0, false⟩ }
    refine ⟨_, execSkip_unknown h hform rfl (seqLooks_asks hidle hroom), (sameMemory_ask s u _).trans hkept.sameMemory,
      hkept.regs.trans (regs_ask s u _), ?_, (sends_ask s u _).same hkept.sameCrossings, ?_⟩
    · rw [probeOf_stream _ h.isStream, State.seqWait, seq_onSeq _ _ h.isStream, seq_ask s _ h.isStream]
    · rw [State.seqWait, seq_onSeq _ _ h.isStream, seq_ask s _ h.isStream]
      exact ⟨rfl, rfl⟩

end Sys2Proof.Machine
end

section
/-! SUPPORT. The core flags and the operations that have not reached them (R126, R127), what a held command and a WAIT that passes
leave of them, and the statements about WAIT, SET and CLEAR. -/

namespace Sys2Proof.Machine

/-! ## Operations on core flags -/

/-- The flags that operations leave do not hang on whether one before them was an overrun. -/
theorem foldl_flagStep_overrun (l : List FlagOp) (v : BitVec 64) (b d : Bool) :
    (l.foldl flagStep (v, b)).1 = (l.foldl flagStep (v, d)).1 := by
  induction l generalizing v b d with
  | nil => rfl
  | cons o l ih =>
    rw [List.foldl_cons, List.foldl_cons]
    cases hset : o.set with
    | true =>
      simp only [flagStep, hset, if_true]
      exact ih _ _ _
    | false =>
      simp only [flagStep, hset, Bool.false_eq_true, if_false]
      exact ih _ _ _

/-- Operations in order are those due by a slot, and behind them the others. -/
theorem filter_append_filter_of_ordered {l : List FlagOp} (h : l.Pairwise fun a b => opKey a ≤ opKey b) (u : Nat) :
    (l.filter fun o => decide (o.slot ≤ u)) ++ (l.filter fun o => !decide (o.slot ≤ u)) = l := by
  induction l with
  | nil => rfl
  | cons o l ih =>
    obtain ⟨hfirst, hrest⟩ := List.pairwise_cons.mp h
    by_cases ho : o.slot ≤ u
    · simpa [ho] using ih hrest
    · have hlate : ∀ x ∈ l, ¬ x.slot ≤ u := by
        intro x hx hle
        have hkey := hfirst x hx
        unfold opKey at hkey
        have hbit : bitNat x.set ≤ 1 := by cases x.set <;> decide
        omega
      have hnone : l.filter (fun x => decide (x.slot ≤ u)) = [] := by
        rw [List.filter_eq_nil_iff]
        intro x hx
        simpa using hlate x hx
      have hall : l.filter (fun x => !decide (x.slot ≤ u)) = l := by
        rw [List.filter_eq_self]
        intro x hx
        simpa using hlate x hx
      simp [ho, hnone, hall]

/-- What a unit in a later cycle finds does not hang on how far the core has come (R126). -/
theorem flagsAfter_toSlot {s : State} {c : Fin 16} (h : FlagsInOrder (s.core c)) (u : Nat) :
    (flagsAfter ((s.toSlot c u).core c)).1 = (flagsAfter (s.core c)).1 ∧ FlagsInOrder ((s.toSlot c u).core c) := by
  obtain ⟨-, hflags, hpend⟩ := core_toSlot s c u
  refine ⟨?_, ?_⟩
  · rw [flagsAfter, hflags, hpend, foldl_flagStep_overrun _ _ _ (flagsBy u (s.core c)).2, flagsAfter]
    conv_rhs => rw [← filter_append_filter_of_ordered h u, List.foldl_append]
    rfl
  · rw [FlagsInOrder, hpend]
    exact List.Pairwise.filter _ h

theorem flagsAfter_congr {k j : Core} (hflags : j.flags = k.flags) (hpend : j.flagPend = k.flagPend) :
    flagsAfter j = flagsAfter k := by
  rw [flagsAfter, flagsAfter, hflags, hpend]

theorem Traces.flagsAfter {c : Fin 16} {s t : State} (h : Traces c s t) (d : Fin 16) :
    flagsAfter (t.core d) = flagsAfter (s.core d) := by
  obtain ⟨-, hflags, hpend⟩ := h.slot_flags d
  exact flagsAfter_congr hflags hpend

theorem core_flagsNow (s : State) (c : Fin 16) :
    (s.flagsNow c).core c = { s.core c with flags := (flagsAfter (s.core c)).1, flagPend := [] } := by
  rw [State.flagsNow, core_reachFlags]
  simp

theorem issued_flagsNow (s : State) (c : Fin 16) : Issued c s (s.flagsNow c) := issued_reachFlags _ _ _ _

section
variable {c : Fin 16} {s t : State}

theorem Issued.seq (h : Issued c s t) (u : SeqUnit) : t.seq u = s.seq u := by
  have hcore : ∀ d : Fin 16, (t.core d).access = (s.core d).access ∧ (t.core d).execute = (s.core d).execute := by
    intro d
    by_cases hd : d = c
    · rw [hd, h.core]
      exact ⟨rfl, rfl⟩
    · rw [h.other d hd]
      exact ⟨rfl, rfl⟩
  cases u with
  | queue d q mask => rfl
  | access d => exact (hcore d).1
  | execute d => exact (hcore d).2
  | ringmaster r =>
    rw [State.seq, State.seq, h.ring r]

theorem Issued.crossFull (h : Issued c s t) (x : Crossing) : t.crossFull x = s.crossFull x := by
  obtain ⟨hcross, -⟩ := h.sameCrossings
  rw [State.crossFull, State.crossFull, State.crossOf, State.crossOf, hcross]

/-! ## A flag consumed -/

theorem issued_consumeCore (s : State) (c : Fin 16) (exec : Bool) (n : Fin 64) : Issued c s (s.consumeCore c exec n) := by
  have hclear : ∀ t : State, Issued c t (t.onCore c fun k => { k with flags := k.flags &&& ~~~ (1#64).shiftLeft n }) :=
    fun t => issued_onCore t c _ fun _ => rfl
  unfold State.consumeCore
  cases exec with
  | true => exact hclear s
  | false => exact (issued_flagsNow s c).trans (hclear _)

theorem flags_consumeCore_exec (s : State) (c : Fin 16) (n : Fin 64) :
    ((s.consumeCore c true n).core c).flags = (s.core c).flags &&& ~~~ (1#64).shiftLeft n := by
  rw [State.consumeCore, core_onCore]
  rfl

theorem flagsAfter_consumeCore (s : State) (c : Fin 16) (n : Fin 64) :
    (flagsAfter ((s.consumeCore c false n).core c)).1 = (flagsAfter (s.core c)).1 &&& ~~~ (1#64).shiftLeft n := by
  rw [State.consumeCore, core_onCore]
  simp only [Bool.false_eq_true, if_false, core_flagsNow]
  rfl

/-! ## A command held at its queue -/

theorem issued_onQueue (s : State) (c : Fin 16) (q : Fin 5) (f : EngineQueue → EngineQueue) : Issued c s (s.onQueue c q f) :=
  issued_onCore s c _ fun _ => rfl

theorem issued_holdAt (s : State) (c : Fin 16) (q : Fin 5) (tag : Tag) (kind : WaitKind) (index cond u : Nat) :
    Issued c s (s.holdAt c q tag kind index cond u) := by
  have hstep : ∀ (b : Bool) (t : State) (v : Nat), Issued c t (if b = true then t.toSlot c v else t) := by
    intro b t v
    cases b with
    | false => exact Issued.refl c t
    | true => exact issued_toSlot t c v
  unfold State.holdAt
  extract_lets s1 s2 s3
  have h3 : Issued c s2 s3 := by
    unfold s3
    split
    · exact Issued.refl c s2
    · exact (traces_trace s2 c evHold tag _ _).issued
  exact (((issued_onQueue s c q _).trans (hstep _ s1 u)).trans h3).trans (hstep _ s3 (u + 1))

/-- The queue of a command that is held. -/
theorem queue_holdAt (s : State) (c : Fin 16) (q : Fin 5) (tag : Tag) (kind : WaitKind) (index cond u : Nat) :
    (s.holdAt c q tag kind index cond u).queue c q = { s.queue c q with
      tags := (if (s.queue c q).tags.isEmpty then [tag] else (s.queue c q).tags)
      wait := some ⟨tag, kind, index, q.val, 0, false⟩ } := by
  have hstep : ∀ (b : Bool) (t : State) (v : Nat), (if b = true then t.toSlot c v else t).queue c q = t.queue c q := by
    intro b t v
    cases b with
    | false => rfl
    | true => rw [if_pos rfl, State.queue, State.queue, queues_toSlot]
  unfold State.holdAt
  extract_lets s1 s2 s3
  have h3 : s3.queue c q = s2.queue c q := by
    unfold s3
    split
    · rfl
    · rw [State.queue, State.queue, (traces_trace s2 c evHold tag _ _).queues c]
  rw [hstep, h3, hstep, queue_onQueue]

/-- A command that is held changes no flag for those that come after (R126). -/
theorem flagsAfter_holdAt (q : Fin 5) (tag : Tag) (kind : WaitKind) (index cond u : Nat) (h : FlagsInOrder (s.core c)) :
    (flagsAfter ((s.holdAt c q tag kind index cond u).core c)).1 = (flagsAfter (s.core c)).1 := by
  have hstep : ∀ (b : Bool) (t : State) (v : Nat), FlagsInOrder (t.core c) →
      (flagsAfter ((if b = true then t.toSlot c v else t).core c)).1 = (flagsAfter (t.core c)).1 ∧
      FlagsInOrder ((if b = true then t.toSlot c v else t).core c) := by
    intro b t v ht
    cases b with
    | false => exact ⟨rfl, ht⟩
    | true => exact flagsAfter_toSlot ht v
  unfold State.holdAt
  extract_lets s1 s2 s3
  have h1 : (s1.core c).flags = (s.core c).flags ∧ (s1.core c).flagPend = (s.core c).flagPend := by
    unfold s1 State.onQueue
    rw [core_onCore]
    exact ⟨rfl, rfl⟩
  have h3 : (s3.core c).flags = (s2.core c).flags ∧ (s3.core c).flagPend = (s2.core c).flagPend := by
    unfold s3
    split
    · exact ⟨rfl, rfl⟩
    · exact ((traces_trace s2 c evHold tag _ _).slot_flags c).2
  obtain ⟨hflags1, hpend1⟩ := h1
  obtain ⟨hflags3, hpend3⟩ := h3
  obtain ⟨hafter2, horder2⟩ := hstep (isExecQueue q) s1 u (by rw [FlagsInOrder, hpend1]; exact h)
  obtain ⟨hafter4, -⟩ := hstep (isExecQueue q) s3 (u + 1) (by rw [FlagsInOrder, hpend3]; exact horder2)
  rw [hafter4, flagsAfter_congr hflags3 hpend3, hafter2, flagsAfter_congr hflags1 hpend1]

/-- A command held for no condition of the gate. -/
theorem queueHold_cond (s : State) (c : Fin 16) (q : Fin 5) (tag : Tag) (u : Nat) (kind : WaitKind) (index : Nat) :
    s.queueHold c q tag u ⟨kind, index, 0⟩ = s.holdAt c q tag kind index 0 u := by
  rw [State.queueHold]
  simp

end

/-! ## WAIT of a queue -/

section
variable {s : State} {c : Fin 16} {q : Fin 5} {mask : BitVec 16} {tag : Tag} {gap : Byte} {flag : FlagRef} {consume : Bool}
  {r : Fin 8} {u : Nat}

theorem Ready.idleEngine (h : Ready s c q mask tag gap r u) : s.engineBusy c q = false := by
  obtain ⟨-, -, -, -, -, -, -, -, hbusy, -⟩ := h
  exact hbusy

theorem execWait_passes (h : Ready s c q mask tag gap r u) (hgate : s.flagGate c q flag consume r u = none) :
    exec (.wait (.queue c q mask) tag gap flag consume) s =
      .next ((s.issueAt c q tag gap.toNat 1 1 u).waitPassed (.queue c q mask) tag flag consume) := by
  have hform : formOk (.wait (.queue c q mask) tag gap flag consume) = true := by cases flag <;> rfl
  show execWait (.queue c q mask) tag gap flag consume s = _
  unfold execWait
  rw [onForm_formOk hform]
  dsimp only
  rw [State.queueWaitFlag, front_ready h]
  dsimp only
  rw [if_neg (by rw [h.idleEngine]; exact Bool.false_ne_true), hgate]

theorem execWait_held {g : GateHold} (h : Ready s c q mask tag gap r u) (hgate : s.flagGate c q flag consume r u = some g) :
    exec (.wait (.queue c q mask) tag gap flag consume) s =
      .next (((s.queueHold c q tag u g).noteConsume c q consume).queueAsks r c q mask flag consume) := by
  have hform : formOk (.wait (.queue c q mask) tag gap flag consume) = true := by cases flag <;> rfl
  show execWait (.queue c q mask) tag gap flag consume s = _
  unfold execWait
  rw [onForm_formOk hform]
  dsimp only
  rw [State.queueWaitFlag, front_ready h]
  dsimp only
  rw [if_neg (by rw [h.idleEngine]; exact Bool.false_ne_true), hgate]

/-- The state in which a queue's WAIT waits for flag `index` (R126). -/
def waitHeld (s : State) (c : Fin 16) (q : Fin 5) (tag : Tag) (u index : Nat) (consume : Bool) : State :=
  (s.holdAt c q tag .flag index 0 u).noteConsume c q consume

theorem issued_waitHeld (s : State) (c : Fin 16) (q : Fin 5) (tag : Tag) (u index : Nat) (consume : Bool) :
    Issued c s (waitHeld s c q tag u index consume) := by
  unfold waitHeld State.noteConsume
  exact (issued_holdAt s c q tag .flag index 0 u).trans (issued_onQueue _ c q _)

theorem queue_waitHeld (s : State) (c : Fin 16) (q : Fin 5) (tag : Tag) (u index : Nat) (consume : Bool) :
    ((waitHeld s c q tag u index consume).queue c q).wait = some ⟨tag, .flag, index, q.val, 0, consume⟩ ∧
    ((waitHeld s c q tag u index consume).queue c q).probe = (s.queue c q).probe := by
  rw [waitHeld, State.noteConsume, queue_onQueue, queue_holdAt]
  simp

theorem flagsAfter_waitHeld (q : Fin 5) (tag : Tag) (u index : Nat) (consume : Bool) (h : FlagsInOrder (s.core c)) :
    (flagsAfter ((waitHeld s c q tag u index consume).core c)).1 = (flagsAfter (s.core c)).1 := by
  rw [waitHeld, State.noteConsume, State.onQueue, core_onCore]
  exact flagsAfter_holdAt q tag .flag index 0 u h

/-- The core flags that a WAIT which passes leaves, on the execute side and on the other (R125). -/
def clearedFlag (n : Fin 64) (consume : Bool) (v : BitVec 64) : BitVec 64 :=
  if consume then v &&& ~~~ (1#64).shiftLeft n else v

theorem flagPend_issueAt_access (tag : Tag) (gap occ prog u : Nat) (hq : isExecQueue q = false) :
    ((s.issueAt c q tag gap occ prog u).core c).flagPend = (s.core c).flagPend := by
  unfold State.issueAt
  dsimp only
  rw [if_neg (by rw [hq]; exact Bool.false_ne_true)]
  obtain ⟨-, -, hpend⟩ := (traces_trace (s.onQueue c q _) c evIssue tag q.val q.val).slot_flags c
  rw [hpend, State.onQueue, core_onCore]

theorem flagsAfter_issueAt_access (tag : Tag) (gap occ prog u : Nat) (hq : isExecQueue q = false) :
    flagsAfter ((s.issueAt c q tag gap occ prog u).core c) = flagsAfter (s.core c) :=
  flagsAfter_congr (flags_issueAt_access s c tag gap occ prog u hq) (flagPend_issueAt_access tag gap occ prog u hq)

theorem queues_consumeCore (s : State) (c : Fin 16) (exec : Bool) (n : Fin 64) :
    ((s.consumeCore c exec n).core c).queues = (s.core c).queues := by
  unfold State.consumeCore
  rw [core_onCore]
  cases exec with
  | true => rfl
  | false =>
    show ((s.flagsNow c).core c).queues = (s.core c).queues
    rw [core_flagsNow]

/-- A WAIT of a queue whose core flag is set passes, and with CONSUME clears the flag. -/
theorem waitPassed_core (t : State) (n : Fin 64) (on : BitVec 16) :
    Issued c t (t.waitPassed (.queue c q mask) tag (.core n on) consume) ∧
    (t.waitPassed (.queue c q mask) tag (.core n on) consume).queue c q = t.queue c q ∧
    (isExecQueue q = true → ((t.waitPassed (.queue c q mask) tag (.core n on) consume).core c).flags =
      clearedFlag n consume (t.core c).flags) ∧
    (isExecQueue q = false → (flagsAfter ((t.waitPassed (.queue c q mask) tag (.core n on) consume).core c)).1 =
      clearedFlag n consume (flagsAfter (t.core c)).1) := by
  have htraces := fun v : State => traces_trace v c evWait tag (flagIndex (.core n on)) 0
  unfold State.waitPassed clearedFlag
  cases consume with
  | false =>
    obtain ⟨-, hflags, -⟩ := (htraces t).slot_flags c
    refine ⟨(htraces t).issued, ?_, fun _ => hflags, fun _ => congrArg Prod.fst ((htraces t).flagsAfter c)⟩
    exact congrArg (fun l : Vector EngineQueue 5 => l[q]) ((htraces t).queues c)
  | true =>
    have hcleared := htraces (t.consumeCore c (isExecQueue q) n)
    obtain ⟨-, hflags, -⟩ := hcleared.slot_flags c
    refine ⟨(issued_consumeCore t c _ n).trans hcleared.issued, ?_, fun hq => ?_, fun hq => ?_⟩
    · exact congrArg (fun l : Vector EngineQueue 5 => l[q])
        ((hcleared.queues c).trans (queues_consumeCore t c (isExecQueue q) n))
    · refine hflags.trans ?_
      rw [hq]
      exact flags_consumeCore_exec t c n
    · refine (congrArg Prod.fst (hcleared.flagsAfter c)).trans ?_
      rw [hq]
      exact flagsAfter_consumeCore t c n

theorem flagGate_set {n : Fin 64} {on : BitVec 16} (hset : (queueFlags q u (s.core c)).getLsbD n = true)
    (hfirst : consume = true → outranked (s.core c) q.val n = false) : s.flagGate c q (.core n on) consume r u = none := by
  refine if_pos ?_
  rw [hset]
  cases consume with
  | false => rfl
  | true => simp [hfirst rfl]

theorem flagGate_clear {n : Fin 64} {on : BitVec 16} (hclear : (queueFlags q u (s.core c)).getLsbD n = false) :
    s.flagGate c q (.core n on) consume r u = some ⟨.flag, n.val, 0⟩ := if_neg (by rw [hclear]; simp)

theorem flagGate_asks {n : Fin 256} (hidle : (s.queue c q).probe = .idle) (hroom : s.crossFull (.coreToConcourse c) = false) :
    s.flagGate c q (.ring n) consume r u = some ⟨.flag, 256 + n.val, 0⟩ := by
  simp [State.flagGate, hidle, hroom, flagIndex]

theorem flagGate_answered {n : Fin 256} {v : Bool} (hanswer : (s.queue c q).probe = .answered v) :
    s.flagGate c q (.ring n) consume r u = none := by
  simp [State.flagGate, hanswer]

theorem queueAsks_idle {t : State} {n : Fin 256} (hidle : (t.queue c q).probe = .idle)
    (hroom : t.crossFull (.coreToConcourse c) = false) : t.queueAsks r c q mask (.ring n) consume =
      t.ask (.queue c q mask) (.test r (.queue c q mask) n (if consume then .consume else .wait)) :=
  if_pos ⟨hidle, by rw [hroom]; rfl⟩

theorem queue_ask (t : State) (o : CrossOp) : (t.ask (.queue c q mask) o).queue c q = { t.queue c q with probe := .asked } := by
  rw [State.queue, (onlyCrossings_ask t (.queue c q mask) o).core, State.setProbe, core_onCore]
  exact Vector.getElem_set_self _

end

/-! ## WAIT of a sequencer -/

section
variable {s s1 : State} {u : SeqUnit} {tag : Tag} {gap : Byte} {flag : FlagRef} {consume : Bool} {r : Fin 8}

theorem execWait_stream (h : Takes s u tag r) (hform : formOk (.wait u tag gap flag consume) = true)
    (hreach : s.reaches u r flag = true) {v : Option Bool}
    (hlook : s.seqLooks u r flag (if consume then .consume else .wait) = (s1, v)) :
    exec (.wait u tag gap flag consume) s = .next
      (if v = some true ∧ !s1.seqYields u flag consume then (s1.seqGo u).waitPassed u tag flag consume
        else (s1.seqWait u tag .flag (flagIndex flag)).onSeq u fun q =>
          { q with wait := q.wait.map fun w => { w with consume := consume } }) := by
  have hwait : s.seqWaitFlag u tag flag consume =
      (if v = some true ∧ !s1.seqYields u flag consume then (s1.seqGo u).waitPassed u tag flag consume
        else (s1.seqWait u tag .flag (flagIndex flag)).onSeq u fun q =>
          { q with wait := q.wait.map fun w => { w with consume := consume } }) := by
    rw [State.seqWaitFlag, seqDo_takes _ h, if_neg (by rw [hreach]; exact Bool.false_ne_true), hlook]
  show execWait u tag gap flag consume s = _
  unfold execWait
  rw [onForm_formOk hform, ← hwait]
  cases u with
  | queue c q mask => exact nomatch h.isStream
  | access c => rfl
  | execute c => rfl
  | ringmaster q => rfl

/-- The pass of a core's sequencer at its core's flag, which CONSUME clears (R125). -/
theorem waitPassed_sequencer {c : Fin 16} (hu : u = .access c ∨ u = .execute c) (t : State) (n : Fin 64) (on : BitVec 16) :
    Issued c t (t.waitPassed u tag (.core n on) consume) ∧
    (flagsAfter ((t.waitPassed u tag (.core n on) consume).core c)).1 = clearedFlag n consume (flagsAfter (t.core c)).1 := by
  have heq : t.waitPassed u tag (.core n on) consume =
      (if consume then t.consumeCore c false n else t).trace c evWait tag (flagIndex (.core n on)) := by
    rcases hu with rfl | rfl <;> rfl
  have htraces := traces_trace (if consume then t.consumeCore c false n else t) c evWait tag (flagIndex (.core n on)) 0
  rw [heq, htraces.flagsAfter c]
  unfold clearedFlag
  cases consume with
  | false => exact ⟨htraces.issued, rfl⟩
  | true => exact ⟨(issued_consumeCore t c false n).trans htraces.issued, flagsAfter_consumeCore t c n⟩

/-- The pass of a wait beyond a crossing leaves sequencers, ring flags and the midway alone (R125). -/
theorem waitPassed_far (t : State) (hu : isStream u = true) (hfar : (∃ n, flag = .ring n) ∨ ∃ q, u = .ringmaster q) :
    (t.waitPassed u tag flag consume).seq u = t.seq u ∧ (t.waitPassed u tag flag consume).mwy = t.mwy ∧
    ∀ q : Fin 8, ((t.waitPassed u tag flag consume).ring q).flags = (t.ring q).flags := by
  have hcore : ∀ c : Fin 16, Issued c t (t.trace c evWait tag (flagIndex flag)) := fun c => (traces_trace t c _ _ _ _).issued
  have hissued : ∀ c : Fin 16, t.waitPassed u tag flag consume = t.trace c evWait tag (flagIndex flag) →
      (t.waitPassed u tag flag consume).seq u = t.seq u ∧ (t.waitPassed u tag flag consume).mwy = t.mwy ∧
      ∀ q : Fin 8, ((t.waitPassed u tag flag consume).ring q).flags = (t.ring q).flags := by
    intro c heq
    rw [heq]
    exact ⟨(hcore c).seq u, (hcore c).mwy, fun q => ((hcore c).rings q).1⟩
  cases u with
  | queue c q mask => exact nomatch hu
  | ringmaster q => exact ⟨rfl, rfl, fun _ => rfl⟩
  | access c =>
    obtain ⟨n, rfl⟩ | ⟨q, hq⟩ := hfar
    · exact hissued c rfl
    · cases hq
  | execute c =>
    obtain ⟨n, rfl⟩ | ⟨q, hq⟩ := hfar
    · exact hissued c rfl
    · cases hq

theorem seqYields_far (t : State) (hfar : (∃ n, flag = .ring n) ∨ ∃ q, u = .ringmaster q) :
    t.seqYields u flag consume = false := by
  obtain ⟨n, rfl⟩ | ⟨q, rfl⟩ := hfar
  · rfl
  · cases flag <;> rfl

end

section
variable {s : State} {tag : Tag} {gap : Byte} {consume : Bool} {r : Fin 8}

theorem wait_queue_set {c : Fin 16} {q : Fin 5} {mask : BitVec 16} {u : Nat} {n : Fin 64} (on : BitVec 16)
    (h : Ready s c q mask tag gap r u) (hset : (queueFlags q u (s.core c)).getLsbD n = true)
    (hfirst : consume = true → outranked (s.core c) q.val n = false) :
    ∃ t, exec (.wait (.queue c q mask) tag gap (.core n on) consume) s = .next t ∧ (t.queue c q).wait = none ∧
      (t.queue c q).free = u + 1 ∧
      (isExecQueue q = true → (t.core c).flags = clearedFlag n consume (queueFlags q u (s.core c))) ∧
      (isExecQueue q = false → (flagsAfter (t.core c)).1 = clearedFlag n consume (queueFlags q u (s.core c))) ∧
      (t.core c).mem = (s.core c).mem ∧ t.mwy = s.mwy := by
  have hissued := issued_issueAt s c q tag gap.toNat 1 1 u
  obtain ⟨hpassed, hqueue, hexec, haccess⟩ := waitPassed_core (q := q) (mask := mask) (tag := tag) (consume := consume)
    (s.issueAt c q tag gap.toNat 1 1 u) n on (c := c)
  refine ⟨_, execWait_passes h (flagGate_set hset hfirst), ?_, ?_, fun hq => ?_, fun hq => ?_, ?_, ?_⟩
  · rw [hqueue, queue_issueAt]
    rfl
  · rw [hqueue, queue_issueAt]
    rfl
  · rw [hexec hq, (flags_issueAt s c tag _ 1 1 u hq).2.1, queueFlags, if_pos hq]
  · rw [haccess hq, flagsAfter_issueAt_access tag _ 1 1 u hq, queueFlags, if_neg (by rw [hq]; exact Bool.false_ne_true)]
  · exact (hissued.trans hpassed).mem
  · exact (hissued.trans hpassed).mwy

theorem wait_queue_clear {c : Fin 16} {q : Fin 5} {mask : BitVec 16} {u : Nat} {n : Fin 64} (on : BitVec 16)
    (h : Ready s c q mask tag gap r u) (hclear : (queueFlags q u (s.core c)).getLsbD n = false)
    (horder : FlagsInOrder (s.core c)) :
    ∃ t, exec (.wait (.queue c q mask) tag gap (.core n on) consume) s = .next t ∧
      (t.queue c q).wait = some ⟨tag, .flag, n.val, q.val, 0, consume⟩ ∧
      (flagsAfter (t.core c)).1 = (flagsAfter (s.core c)).1 ∧ t.mwy = s.mwy := by
  obtain ⟨hwait, -⟩ := queue_waitHeld s c q tag u n.val consume
  refine ⟨waitHeld s c q tag u n.val consume, ?_, hwait, flagsAfter_waitHeld q tag u n.val consume horder,
    (issued_waitHeld s c q tag u n.val consume).mwy⟩
  rw [execWait_held h (flagGate_clear hclear), queueHold_cond]
  rfl

theorem wait_queue_asks {c : Fin 16} {q : Fin 5} {mask : BitVec 16} {u : Nat} (n : Fin 256)
    (h : Ready s c q mask tag gap r u) (hidle : (s.queue c q).probe = .idle)
    (hroom : s.crossFull (.coreToConcourse c) = false) :
    ∃ t, exec (.wait (.queue c q mask) tag gap (.ring n) consume) s = .next t ∧
      (t.queue c q).wait = some ⟨tag, .flag, 256 + n.val, q.val, 0, consume⟩ ∧ (t.queue c q).probe = .asked ∧
      Sends s t (.coreToConcourse c) (.test r (.queue c q mask) n (if consume then .consume else .wait)) ∧
      (t.ring r).flags = (s.ring r).flags := by
  have hissued := issued_waitHeld s c q tag u (256 + n.val) consume
  obtain ⟨hwait, hprobe⟩ := queue_waitHeld s c q tag u (256 + n.val) consume
  refine ⟨(waitHeld s c q tag u (256 + n.val) consume).ask (.queue c q mask)
    (.test r (.queue c q mask) n (if consume then .consume else .wait)), ?_, ?_, ?_, ?_, ?_⟩
  · rw [execWait_held h (flagGate_asks hidle hroom), queueHold_cond, ← queueAsks_idle]
    · rfl
    · rw [hprobe, hidle]
    · rw [hissued.crossFull, hroom]
  · rw [queue_ask, ← hwait]
  · rw [queue_ask]
  · exact hissued.sameCrossings.sends (sends_ask _ (.queue c q mask) _)
  · rw [ringFlags_ask, (hissued.rings r).1]

theorem wait_queue_answered {c : Fin 16} {q : Fin 5} {mask : BitVec 16} {u : Nat} (n : Fin 256) {v : Bool}
    (h : Ready s c q mask tag gap r u) (hanswer : (s.queue c q).probe = .answered v) :
    ∃ t, exec (.wait (.queue c q mask) tag gap (.ring n) consume) s = .next t ∧ (t.queue c q).wait = none ∧
      (t.queue c q).free = u + 1 ∧ (t.queue c q).probe = .idle ∧ (t.ring r).flags = (s.ring r).flags ∧ t.mwy = s.mwy := by
  have htraces := traces_trace (s.issueAt c q tag gap.toNat 1 1 u) c evWait tag (flagIndex (.ring n)) 0
  have hissued := (issued_issueAt s c q tag gap.toNat 1 1 u).trans htraces.issued
  have hqueue : (((s.issueAt c q tag gap.toNat 1 1 u).trace c evWait tag (flagIndex (.ring n)) 0).queue c q) =
      issuedQueue tag gap.toNat 1 1 u (s.queue c q) := by
    rw [State.queue, htraces.queues c]
    exact queue_issueAt s c q tag gap.toNat 1 1 u
  refine ⟨_, execWait_passes h (flagGate_answered hanswer), ?_, ?_, ?_, (hissued.rings r).1, hissued.mwy⟩
  · exact congrArg EngineQueue.wait hqueue
  · exact congrArg EngineQueue.free hqueue
  · exact congrArg EngineQueue.probe hqueue

theorem wait_stream_set {u : SeqUnit} {c : Fin 16} {n : Fin 64} (on : BitVec 16) (h : Takes s u tag r)
    (hu : u = .access c ∨ u = .execute c) (hset : (flagsAfter (s.core c)).1.getLsbD n = true)
    (hfirst : s.seqYields u (.core n on) consume = false) :
    ∃ t, exec (.wait u tag gap (.core n on) consume) s = .next t ∧ (t.seq u).wait = none ∧
      (flagsAfter (t.core c)).1 = clearedFlag n consume (flagsAfter (s.core c)).1 ∧ t.mwy = s.mwy := by
  have hform : formOk (.wait u tag gap (.core n on) consume) = true := by rcases hu with rfl | rfl <;> rfl
  have hkept := seqKept_seqGo s u
  obtain ⟨hpassed, hflags⟩ := waitPassed_sequencer (tag := tag) (consume := consume) hu (s.seqGo u) n on
  refine ⟨(s.seqGo u).waitPassed u tag (.core n on) consume, ?_, ?_, ?_, hpassed.mwy.trans hkept.mwy⟩
  · rw [execWait_stream h hform (reaches_core hu) (seqLooks_core hu), hset, if_pos ⟨rfl, by rw [hfirst]; rfl⟩]
  · rw [hpassed.seq, seq_seqGo s h.isStream]
  · rw [hflags, flagsAfter_congr (hkept.flags c)]
    rw [hkept.core c]

theorem wait_stream_answered {u : SeqUnit} {flag : FlagRef} (h : Takes s u tag r)
    (hform : formOk (.wait u tag gap flag consume) = true) (hfar : (∃ n, flag = .ring n) ∨ u = .ringmaster r)
    (hreach : s.reaches u r flag = true) (hanswer : s.probeOf u = .answered true) :
    ∃ t, exec (.wait u tag gap flag consume) s = .next t ∧ (t.seq u).wait = none ∧ t.probeOf u = .idle ∧
      (t.ring r).flags = (s.ring r).flags ∧ t.mwy = s.mwy := by
  have hfar : (∃ n, flag = .ring n) ∨ ∃ q, u = .ringmaster q := hfar.imp_right fun hu => ⟨r, hu⟩
  obtain ⟨t, hlook, hseq, htested⟩ := seqLooks_answered (r := r) (kind := if consume then .consume else .wait) hfar
    h.isStream hanswer
  have hkept := seqKept_seqGo (t.setProbe u .idle) u
  obtain ⟨hpassed, hmwy, hflags⟩ := waitPassed_far (tag := tag) (consume := consume) ((t.setProbe u .idle).seqGo u)
    h.isStream hfar
  have hring : ((t.setProbe u .idle).seqGo u |>.ring r).flags = (s.ring r).flags := by
    rw [hkept.ring r]
    exact (ringFlags_setProbe t u .idle r).trans (congrArg Ring.flags (by rw [State.ring, State.ring, htested.rings]))
  have hend : ((t.setProbe u .idle).seqGo u).seq u = { s.seq u with probe := .idle, wait := none } := by
    rw [seq_seqGo _ h.isStream, seq_setProbe t _ h.isStream, hseq]
  refine ⟨_, execWait_stream h hform hreach hlook, ?_⟩
  rw [if_pos ⟨rfl, by rw [seqYields_far _ hfar]; rfl⟩, probeOf_stream _ h.isStream, hpassed, hend, hflags, hmwy, hring]
  exact ⟨rfl, rfl, rfl, (hkept.mwy.trans (mwy_setProbe t u .idle)).trans htested.mwy⟩

theorem wait_stream_asks {u : SeqUnit} (n : Fin 256) (h : Takes s u tag r) (hidle : s.probeOf u = .idle)
    (hroom : s.crossFull (crossFrom u) = false) :
    ∃ t, exec (.wait u tag gap (.ring n) consume) s = .next t ∧
      (t.seq u).wait = some ⟨tag, .flag, 256 + n.val, 0xFF, 0, consume⟩ ∧ t.probeOf u = .asked ∧
      Sends s t (crossFrom u) (.test r u n (if consume then .consume else .wait)) ∧ (t.ring r).flags = (s.ring r).flags := by
  have hkept : ∀ v : State, SeqKept v ((v.seqWait u tag .flag (flagIndex (.ring n))).onSeq u fun q =>
      { q with wait := q.wait.map fun w => { w with consume := consume } }) :=
    fun v => (seqKept_onSeq v u _).trans (seqKept_onSeq _ u _)
  refine ⟨_, execWait_stream h rfl rfl (seqLooks_asks hidle hroom), ?_⟩
  rw [if_neg (by simp), probeOf_stream _ h.isStream, seq_onSeq _ _ h.isStream, State.seqWait, seq_onSeq _ _ h.isStream,
    seq_ask s _ h.isStream]
  refine ⟨rfl, rfl, (sends_ask s u _).same (hkept _).sameCrossings, ?_⟩
  have hring := (hkept (s.ask u (.test r u n (if consume then .consume else .wait)))).ring r
  rw [State.seqWait] at hring
  rw [hring]
  exact ringFlags_ask s u _ r

end

/-- Settles O8, by what the unit of a WAIT knows of the flag. -/
theorem waitPassesOnASetFlag : Obligations.WaitPassesOnASetFlag := by
  unfold Obligations.WaitPassesOnASetFlag
  refine ⟨fun s c q mask tag gap consume r u h => ⟨?_, ?_, ?_, ?_⟩, fun s u tag gap consume r h => ⟨?_, ?_, ?_⟩⟩
  · intro n on hset hfirst
    exact wait_queue_set on h hset hfirst
  · intro n on hclear horder
    exact wait_queue_clear on h hclear horder
  · intro n hidle hroom
    exact wait_queue_asks n h hidle hroom
  · intro n v hanswer
    exact wait_queue_answered n h hanswer
  · intro c n on hu hset hfirst
    exact wait_stream_set on h hu hset hfirst
  · intro flag hform hfar hreach hanswer
    exact wait_stream_answered h hform hfar hreach hanswer
  · intro n hidle hroom
    exact wait_stream_asks n h hidle hroom

end Sys2Proof.Machine
end

section
/-! SUPPORT. SET and CLEAR: what a queue's and a ringmaster's operation comes to, and when it reaches its flag (R125 to R127). And the
statement about them. -/

namespace Sys2Proof.Machine

/-! ## By a queue -/

section
variable {s : State} {c : Fin 16} {q : Fin 5} {mask : BitVec 16} {tag : Tag} {gap : Byte} {r : Fin 8} {u : Nat}

theorem execSet_queue {flag : FlagRef} (h : Ready s c q mask tag gap r u) (hgate : s.crossGate c flag r u = none) :
    exec (.set (.queue c q mask) tag gap flag) s =
      .next ((s.issueAt c q tag gap.toNat 1 1 u).setByCore r c (isExecQueue q) flag) := by
  show execSet (.queue c q mask) tag gap flag s = _
  unfold execSet
  rw [onForm_formOk rfl]
  exact congrArg _ (queueCommand_ready 1 _ h hgate)

theorem execClear_queue {flag : FlagRef} (h : Ready s c q mask tag gap r u) (hgate : s.crossGate c flag r u = none) :
    exec (.clear (.queue c q mask) tag gap flag) s =
      .next ((s.issueAt c q tag gap.toNat 1 1 u).clearByCore r c (isExecQueue q) flag) := by
  show execClear (.queue c q mask) tag gap flag s = _
  unfold execClear
  rw [onForm_formOk rfl]
  exact congrArg _ (queueCommand_ready 1 _ h hgate)

theorem crossGate_ring {n : Fin 256} (hroom : s.crossFull (.coreToConcourse c) = false) :
    s.crossGate c (.ring n) r u = none := if_neg (by rw [hroom]; exact Bool.false_ne_true)

theorem issued_pendFlag (s : State) (c : Fin 16) (exec : Bool) (n : Fin 64) (set : Bool) : Issued c s (s.pendFlag c exec n set) := by
  have hput : ∀ t : State, Issued c t (t.onCore c fun k => { k with flagPend := insertOp ⟨k.slot + 1, n, set⟩ k.flagPend }) :=
    fun t => issued_onCore t c _ fun _ => rfl
  unfold State.pendFlag
  cases exec with
  | true => exact hput s
  | false => exact (issued_flagsNow s c).trans (hput _)

/-- An operation of a command that issues goes behind what has reached the flags by then (R126, R127). -/
theorem flagSent_pendFlag (s : State) (c : Fin 16) (q : Fin 5) (tag : Tag) (gap u : Nat) (n : Fin 64) (set : Bool) :
    FlagSent s ((s.issueAt c q tag gap 1 1 u).pendFlag c (isExecQueue q) n set) c q u n set := by
  unfold FlagSent State.pendFlag
  rw [core_onCore]
  cases hq : isExecQueue q with
  | true =>
    obtain ⟨-, hflags, hpend⟩ := flags_issueAt s c tag gap 1 1 u hq
    simp only [if_true, hflags, hpend, queueFlags, hq, and_self]
  | false =>
    simp only [Bool.false_eq_true, if_false, core_flagsNow, flagsAfter_issueAt_access tag gap 1 1 u hq, queueFlags, hq, and_self]

theorem set_queue_core (n : Fin 64) (on : BitVec 16) (h : Ready s c q mask tag gap r u) :
    ∃ t, exec (.set (.queue c q mask) tag gap (.core n on)) s = .next t ∧ FlagSent s t c q u n true ∧
      (t.core c).mem = (s.core c).mem ∧ t.mwy = s.mwy := by
  have hissued := (issued_issueAt s c q tag gap.toNat 1 1 u).trans (issued_pendFlag _ c (isExecQueue q) n true)
  exact ⟨_, execSet_queue h rfl, flagSent_pendFlag s c q tag gap.toNat u n true, hissued.mem, hissued.mwy⟩

theorem clear_queue_core (n : Fin 64) (on : BitVec 16) (h : Ready s c q mask tag gap r u) :
    ∃ t, exec (.clear (.queue c q mask) tag gap (.core n on)) s = .next t ∧ FlagSent s t c q u n false ∧
      (t.core c).mem = (s.core c).mem ∧ t.mwy = s.mwy := by
  have hissued := (issued_issueAt s c q tag gap.toNat 1 1 u).trans (issued_pendFlag _ c (isExecQueue q) n false)
  exact ⟨_, execClear_queue h rfl, flagSent_pendFlag s c q tag gap.toNat u n false, hissued.mem, hissued.mwy⟩

/-- An operation that a command which issues puts into its core's crossing. -/
theorem sends_issued (s : State) (c : Fin 16) (q : Fin 5) (tag : Tag) (gap u : Nat) (x : Crossing) (o : CrossOp) (r : Fin 8) :
    Sends s ((s.issueAt c q tag gap 1 1 u).crossPut x o) x o ∧
    (((s.issueAt c q tag gap 1 1 u).crossPut x o).ring r).flags = (s.ring r).flags := by
  have hissued := issued_issueAt s c q tag gap 1 1 u
  refine ⟨hissued.sameCrossings.sends (sends_crossPut _ x o), ?_⟩
  rw [(onlyCrossings_crossPut _ x o).ring, (hissued.rings r).1]

end

/-! ## By a ringmaster -/

section
variable {s : State} {r : Fin 8} {tag : Tag} {gap : Byte} {flag : FlagRef}

/-- A flag operation as a ringmaster's crossing carries it (R125). -/
def masterOp (r : Fin 8) (flag : FlagRef) (set : Bool) : CrossOp :=
  match flag with
  | .core n on => .coreFlag r on n set
  | .ring n => if set then .setFlag r n else .clearFlag r n

theorem masterFlag_sends (set : Bool) (h : Takes s (.ringmaster r) tag r) (hreach : s.reaches (.ringmaster r) r flag = true)
    (hroom : s.crossFull (.ringmasterToConcourse r) = false) : s.masterFlag r tag flag set =
      (s.seqGo (.ringmaster r)).crossPut (.ringmasterToConcourse r) (masterOp r flag set) := by
  unfold State.masterFlag
  rw [seqDo_takes _ h, if_neg (by rw [hreach]; exact Bool.false_ne_true),
    if_neg (by rw [hroom]; exact Bool.false_ne_true)]
  rfl

theorem sent_masterFlag (set : Bool) (h : Takes s (.ringmaster r) tag r) (hreach : s.reaches (.ringmaster r) r flag = true)
    (hroom : s.crossFull (.ringmasterToConcourse r) = false) : (s.masterFlag r tag flag set).cores = s.cores ∧
      SameMemory s (s.masterFlag r tag flag set) ∧
      Sends s (s.masterFlag r tag flag set) (.ringmasterToConcourse r) (masterOp r flag set) := by
  have hkept := seqKept_seqGo s (.ringmaster r)
  have hput := onlyCrossings_crossPut (s.seqGo (.ringmaster r)) (.ringmasterToConcourse r) (masterOp r flag set)
  rw [masterFlag_sends set h hreach hroom]
  exact ⟨hput.cores, hkept.sameMemory.trans hput.sameMemory, hkept.sameCrossings.sends (sends_crossPut _ _ _)⟩

theorem set_ringmaster (h : Takes s (.ringmaster r) tag r) (hreach : s.reaches (.ringmaster r) r flag = true)
    (hroom : s.crossFull (.ringmasterToConcourse r) = false) :
    ∃ t, exec (.set (.ringmaster r) tag gap flag) s = .next t ∧ t.cores = s.cores ∧ SameMemory s t ∧
      (∀ n, flag = .ring n → Sends s t (.ringmasterToConcourse r) (.setFlag r n)) ∧
      ∀ n on, flag = .core n on → Sends s t (.ringmasterToConcourse r) (.coreFlag r on n true) := by
  obtain ⟨hcores, hmemory, hsends⟩ := sent_masterFlag true h hreach hroom
  refine ⟨_, rfl, hcores, hmemory, ?_, ?_⟩
  · rintro n rfl
    exact hsends
  · rintro n on rfl
    exact hsends

theorem clear_ringmaster (h : Takes s (.ringmaster r) tag r) (hreach : s.reaches (.ringmaster r) r flag = true)
    (hroom : s.crossFull (.ringmasterToConcourse r) = false) :
    ∃ t, exec (.clear (.ringmaster r) tag gap flag) s = .next t ∧ t.cores = s.cores ∧ SameMemory s t ∧
      (∀ n, flag = .ring n → Sends s t (.ringmasterToConcourse r) (.clearFlag r n)) ∧
      ∀ n on, flag = .core n on → Sends s t (.ringmasterToConcourse r) (.coreFlag r on n false) := by
  obtain ⟨hcores, hmemory, hsends⟩ := sent_masterFlag false h hreach hroom
  refine ⟨_, rfl, hcores, hmemory, ?_, ?_⟩
  · rintro n rfl
    exact hsends
  · rintro n on rfl
    exact hsends

end

/-! ## When an operation reaches its flag -/

section
variable {s t : State} {c : Fin 16} {q : Fin 5} {u : Nat} {n : Fin 64} {set : Bool}

theorem flagStep_fst (v : BitVec 64) (o : FlagOp) : (flagStep (v, false) o).1 =
    if o.set then v ||| (1#64).shiftLeft o.flag else v &&& ~~~ (1#64).shiftLeft o.flag := by
  unfold flagStep
  cases o.set <;> rfl

theorem flagStep_snd (v : BitVec 64) (o : FlagOp) : (flagStep (v, false) o).2 = (o.set && v.getLsbD o.flag) := by
  unfold flagStep
  cases o.set
  · rfl
  · simp

/-- The execute side's operation, with none waiting beyond the issue slot, stands alone, and is due a slot later. -/
theorem FlagSent.pending_exec (h : FlagSent s t c q u n set) (hq : isExecQueue q = true)
    (hdue : ∀ o ∈ (s.core c).flagPend, o.slot ≤ u) (hslot : (t.core c).slot = u) :
    (t.core c).flags = (flagsBy u (s.core c)).1 ∧ (t.core c).flagPend = [⟨u + 1, n, set⟩] := by
  obtain ⟨hflags, hpend⟩ := h
  have hnone : (s.core c).flagPend.filter (fun o => !decide (o.slot ≤ u)) = [] := by
    rw [List.filter_eq_nil_iff]
    intro o ho
    simpa using hdue o ho
  rw [queueFlags, if_pos hq] at hflags
  rw [hslot, if_pos hq, hnone] at hpend
  exact ⟨hflags, hpend⟩

/-- The access side's operation stands alone. -/
theorem FlagSent.pending_access (h : FlagSent s t c q u n set) (hq : isExecQueue q = false) :
    (t.core c).flags = (flagsAfter (s.core c)).1 ∧ (t.core c).flagPend = [⟨(t.core c).slot + 1, n, set⟩] := by
  obtain ⟨hflags, hpend⟩ := h
  rw [queueFlags, if_neg (by rw [hq]; exact Bool.false_ne_true)] at hflags
  rw [if_neg (by rw [hq]; exact Bool.false_ne_true)] at hpend
  exact ⟨hflags, hpend⟩

end

/-- Settles O9: what SET and CLEAR send, and when an operation that has been sent reaches its flag. -/
theorem flagsAreSetAndCleared : Obligations.FlagsAreSetAndCleared := by
  unfold Obligations.FlagsAreSetAndCleared
  refine ⟨fun s c q mask tag gap r u h => ⟨fun n on => ⟨set_queue_core n on h, clear_queue_core n on h⟩, fun n hroom => ?_⟩,
    fun s r tag gap flag h hreach hroom => ⟨set_ringmaster h hreach hroom, clear_ringmaster h hreach hroom⟩,
    fun s t c q u n set h => ⟨fun hq hdue hslot => ?_, fun hq => ?_⟩, fun s c u => ⟨?_, fun hover => ?_⟩⟩
  · exact ⟨⟨_, execSet_queue h (crossGate_ring hroom), sends_issued s c q tag gap.toNat u _ _ r⟩,
      ⟨_, execClear_queue h (crossGate_ring hroom), sends_issued s c q tag gap.toNat u _ _ r⟩⟩
  · obtain ⟨hflags, hpend⟩ := h.pending_exec hq hdue hslot
    have hnow : flagsBy u (t.core c) = ((t.core c).flags, false) := by
      rw [flagsBy, hpend]
      simp
    have hnext : flagsBy (u + 1) (t.core c) = flagStep ((t.core c).flags, false) ⟨u + 1, n, set⟩ := by
      rw [flagsBy, hpend]
      simp
    rw [hnow, hnext, flagStep_fst, flagStep_snd, hflags]
    exact ⟨rfl, rfl, rfl⟩
  · obtain ⟨hflags, hpend⟩ := h.pending_access hq
    have hafter : flagsAfter (t.core c) = flagStep ((t.core c).flags, false) ⟨(t.core c).slot + 1, n, set⟩ := by
      rw [flagsAfter, hpend]
      rfl
    rw [hafter, flagStep_fst, flagStep_snd, hflags]
    exact ⟨rfl, rfl⟩
  · rw [State.flagsTo, core_reachFlags]
  · exact flagOverrun_reachFlags s c _ hover

end Sys2Proof.Machine
end

section
/-! SUPPORT. The vector engine's arithmetic (R111, R118, R218, R481): what a register read hangs on, what a result that is put in line
leaves alone, and the statement about it. -/

namespace Sys2Proof.Machine

/-! ## Reads of registers -/

theorem vregs_foldl_accCommit (l : List AccWrite) (k : Core) : (l.foldl accCommit k).vregs = k.vregs := by
  induction l generalizing k with
  | nil => rfl
  | cons w l ih => exact ih (accCommit k w)

theorem vregs_foldl_vecCommit (l : List VecWrite) {k j : Core} (h : j.vregs = k.vregs) :
    (l.foldl vecCommit j).vregs = (l.foldl vecCommit k).vregs := by
  induction l generalizing k j with
  | nil => exact h
  | cons w l ih =>
    refine ih ?_
    rw [vecCommit, vecCommit, h]

/-- A read of a vector register hangs on the registers and on the writes that are in line (R118). -/
theorem readVec_congr {k j : Core} (hregs : j.vregs = k.vregs) (hpend : j.vPend = k.vPend) : readVec j = readVec k := by
  funext u n
  unfold readVec settle
  rw [hpend]
  refine congrArg (fun m => smRead 0 m (128 * n) 128) (vregs_foldl_vecCommit _ ?_)
  rw [vregs_foldl_accCommit, vregs_foldl_accCommit, hregs]

theorem srcLanes_congr {k j : Core} (h : readVec j = readVec k) : srcLanes j = srcLanes k := by
  funext u i src
  cases src with
  | reg v => rw [srcLanes, srcLanes, h]
  | lane v l => rw [srcLanes, srcLanes, h]
  | rowb v => rw [srcLanes, srcLanes, h]

theorem mapLanes_congr {k j : Core} (h : readVec j = readVec k) : mapLanes j = mapLanes k := by
  funext u L f a b c
  unfold mapLanes
  rw [srcLanes_congr h]

theorem reduceLanes_congr {k j : Core} (h : readVec j = readVec k) : reduceLanes j = reduceLanes k := by
  funext u L op a segments fmt
  unfold reduceLanes
  rw [h]

section
variable (s : State) (e : Eng) (L first count vis u reg slot : Nat) (data : List (List Word)) (fmt : VFmt)

theorem readVec_vectorIssued : readVec ((vectorIssued s e L first count vis u).core e.core) =
    readVec ((s.issueAt e.core qVector e.tag e.gap.toNat L L u).core e.core) := by
  rw [core_vectorIssued]
  exact readVec_congr rfl rfl

/-! ## Results put in line -/

theorem Issued.vecNan {c : Fin 16} {s t : State} (h : Issued c s t) : (t.core c).vecNan = (s.core c).vecNan := by
  rw [h.core]
  rfl

/-- What an issue of a vector command leaves of the core beside its memories. -/
theorem vectorIssued_core : ((vectorIssued s e L first count vis u).core e.core).vPend =
      ((s.issueAt e.core qVector e.tag e.gap.toNat L L u).core e.core).vPend ∧
    SameMarks (s.core e.core) ((vectorIssued s e L first count vis u).core e.core) ∧
    ((vectorIssued s e L first count vis u).core e.core).dqs = (s.core e.core).dqs ∧
    ((vectorIssued s e L first count vis u).core e.core).flags = (flagsBy u (s.core e.core)).1 ∧
    ((vectorIssued s e L first count vis u).core e.core).vecNan = (s.core e.core).vecNan := by
  have hissued := issued_issueAt s e.core qVector e.tag e.gap.toNat L L u
  obtain ⟨-, hflags, -⟩ := flags_issueAt s e.core (q := qVector) e.tag e.gap.toNat L L u rfl
  obtain ⟨hw, ha, hds⟩ := hissued.sameMarks
  have hdqs := hissued.dqs
  have hnan := hissued.vecNan
  obtain ⟨l, hcore⟩ : ∃ l, (vectorIssued s e L first count vis u).core e.core =
    { (s.issueAt e.core qVector e.tag e.gap.toNat L L u).core e.core with auditVec := l } :=
      ⟨_, core_vectorIssued s e L first count vis u⟩
  generalize vectorIssued s e L first count vis u = t at hcore ⊢
  generalize s.issueAt e.core qVector e.tag e.gap.toNat L L u = v at *
  rw [hcore]
  exact ⟨rfl, ⟨hw, ha, hds⟩, hdqs, hflags, hnan⟩

end

section
variable {s t : State} {e : Eng} {u : Nat} {k : Core} {reg slot : Nat} {data : List (List Word)} {fmt : VFmt}

theorem core_vecWrite (t : State) (c : Fin 16) (reg slot : Nat) (data : List (List Word)) :
    (t.vecWrite c reg slot data).core c = { t.core c with vPend := (t.core c).vPend ++ [⟨reg, slot, data⟩] } :=
  core_onCore t c _

theorem core_vecResult (t : State) (c : Fin 16) (fmt : VFmt) (reg slot : Nat) (data : List (List Word)) :
    (t.vecResult c fmt reg slot data).core c = { t.core c with
      vPend := (t.core c).vPend ++ [⟨reg, slot, data⟩], vecNan := (t.core c).vecNan || nanIn fmt data } := by
  unfold State.vecResult
  cases nanIn fmt data with
  | false => rw [if_neg Bool.false_ne_true, core_vecWrite, Bool.or_false]
  | true => rw [if_pos rfl, core_onCore, core_vecWrite, Bool.or_true]

theorem mwy_vecResult (t : State) (c : Fin 16) (fmt : VFmt) (reg slot : Nat) (data : List (List Word)) :
    (t.vecResult c fmt reg slot data).mwy = t.mwy := by
  unfold State.vecResult
  cases nanIn fmt data with
  | false => rfl
  | true => rfl

end

section
variable (s : State) (e : Eng) (L first count vis u reg slot : Nat) (data : List (List Word)) (fmt : VFmt)

/-- Registers that a vector command which has issued puts in line (R118). -/
theorem vectorWrites_vecWrite : VectorWrites s ((vectorIssued s e L first count vis u).vecWrite e.core reg slot data) e u
      ((s.issueAt e.core qVector e.tag e.gap.toNat L L u).core e.core) ⟨reg, slot, data⟩ ∧
    (((vectorIssued s e L first count vis u).vecWrite e.core reg slot data).core e.core).vecNan = (s.core e.core).vecNan := by
  obtain ⟨hpend, ⟨hw, ha, hds⟩, hdqs, hflags, hnan⟩ := vectorIssued_core s e L first count vis u
  obtain ⟨hrx, hopnd, hmem, hmwy⟩ := vectorIssued_keeps s e L first count vis u
  generalize vectorIssued s e L first count vis u = t at *
  unfold VectorWrites
  rw [core_vecWrite, ← hpend]
  exact ⟨⟨rfl, hmem, hopnd, ⟨hw, ha, hds⟩, hdqs, hrx, hflags, hmwy⟩, hnan⟩

/-- Results of arithmetic that a vector command which has issued puts in line (R118, R218). -/
theorem vectorWrites_vecResult : VectorWrites s ((vectorIssued s e L first count vis u).vecResult e.core fmt reg slot data) e u
      ((s.issueAt e.core qVector e.tag e.gap.toNat L L u).core e.core) ⟨reg, slot, data⟩ ∧
    (((vectorIssued s e L first count vis u).vecResult e.core fmt reg slot data).core e.core).vecNan =
      ((s.core e.core).vecNan || nanIn fmt data) := by
  obtain ⟨hpend, ⟨hw, ha, hds⟩, hdqs, hflags, hnan⟩ := vectorIssued_core s e L first count vis u
  obtain ⟨hrx, hopnd, hmem, hmwy⟩ := vectorIssued_keeps s e L first count vis u
  generalize vectorIssued s e L first count vis u = t at *
  unfold VectorWrites
  rw [core_vecResult, mwy_vecResult, ← hpend, ← hnan]
  exact ⟨⟨rfl, hmem, hopnd, ⟨hw, ha, hds⟩, hdqs, hrx, hflags, hmwy⟩, rfl⟩

end

/-! ## The commands -/

section
variable {s : State} {e : Eng} {dst : Fin 64} {L : Nat} {r : Fin 8} {u : Nat}

/-- A vector command without a gate that writes registers, issues and takes effect. -/
theorem vectorCommand_arith {reads : List (Nat × Nat)} {count vis : Nat} (go : Fin 8 → Nat → State → State) (hcount : count ≠ 0)
    (h : Ready s e.core qVector e.mask e.tag e.gap r u) (hpass : Passes s r (vectorAudit s e reads dst.val count vis)) :
    s.vectorCommand e L openGate reads dst.val count vis go = go r u (vectorIssued s e L dst.val count vis u) := by
  rw [vectorCommand_ready L go h rfl hpass, if_neg hcount]
  rfl

theorem execVop_ready {op : VOpKind} {a b c : VSrc} {fmt : VFmt} (h : Ready s e.core qVector e.mask e.tag e.gap r u)
    (hform : Instr.WellFormed (.vop e op dst L a b c fmt))
    (hpass : Passes s r (vectorAudit s e (srcReads L a ++ srcReads L b ++ (if op = .select then srcReads L c else []))
      dst.val L (L + latVop - 1))) :
    let k := (s.issueAt e.core qVector e.tag e.gap.toNat L L u).core e.core
    let data := mapLanes k u L (laneOp op fmt) a b c
    ∃ t, exec (.vop e op dst L a b c fmt) s = .next t ∧ VectorWrites s t e u k ⟨dst.val, u + L + latVop - 1, data⟩ ∧
      (t.core e.core).vecNan = ((s.core e.core).vecNan || (op != .select && nanIn fmt data)) := by
  intro k data
  have hL : L ≠ 0 := by
    simp only [Instr.WellFormed, formOk, Bool.and_eq_true] at hform
    exact ne_zero_of_regSpan hform.1.1.1.1
  have hdata : mapLanes ((vectorIssued s e L dst.val L (L + latVop - 1) u).core e.core) u L (laneOp op fmt) a b c = data := by
    rw [mapLanes_congr (readVec_vectorIssued s e L dst.val L (L + latVop - 1) u)]
  have hexec : exec (.vop e op dst L a b c fmt) s = .next (if op = .select
      then (vectorIssued s e L dst.val L (L + latVop - 1) u).vecWrite e.core dst.val (u + L + latVop - 1) data
      else (vectorIssued s e L dst.val L (L + latVop - 1) u).vecResult e.core fmt dst.val (u + L + latVop - 1) data) := by
    show execVop e op dst L a b c fmt s = _
    rw [execVop, onForm_formOk hform, vectorCommand_arith _ hL h hpass]
    dsimp only
    rw [hdata]
  by_cases hop : op = .select
  · obtain ⟨hwrites, hnan⟩ := vectorWrites_vecWrite s e L dst.val L (L + latVop - 1) u dst.val (u + L + latVop - 1) data
    refine ⟨_, by rw [hexec, if_pos hop], hwrites, ?_⟩
    rw [hnan, hop]
    exact (Bool.or_false _).symm
  · obtain ⟨hwrites, hnan⟩ := vectorWrites_vecResult s e L dst.val L (L + latVop - 1) u dst.val (u + L + latVop - 1) data fmt
    refine ⟨_, by rw [hexec, if_neg hop], hwrites, ?_⟩
    rw [hnan, bne_iff_ne.mpr hop, Bool.true_and]

/-- A command of arithmetic of which the results stand in line, and a NaN among them in the NaN flag. -/
theorem arithmetic_writes {c : Instr} {count lat : Nat} {fmt : VFmt} {data : List (List Word)}
    (hexec : exec c s = .next ((vectorIssued s e L dst.val count (L + lat - 1) u).vecResult e.core fmt dst.val
      (u + L + lat - 1) data)) :
    ∃ t, exec c s = .next t ∧ VectorWrites s t e u ((s.issueAt e.core qVector e.tag e.gap.toNat L L u).core e.core)
        ⟨dst.val, u + L + lat - 1, data⟩ ∧ (t.core e.core).vecNan = ((s.core e.core).vecNan || nanIn fmt data) := by
  obtain ⟨hwrites, hnan⟩ := vectorWrites_vecResult s e L dst.val count (L + lat - 1) u dst.val (u + L + lat - 1) data fmt
  exact ⟨_, hexec, hwrites, hnan⟩

theorem execVfma_ready {a b c : VSrc} {fmt : VFmt} (h : Ready s e.core qVector e.mask e.tag e.gap r u)
    (hform : Instr.WellFormed (.vfma e dst L a b c fmt))
    (hpass : Passes s r (vectorAudit s e (srcReads L a ++ srcReads L b ++ srcReads L c) dst.val L (L + latVfma - 1))) :
    exec (.vfma e dst L a b c fmt) s = .next ((vectorIssued s e L dst.val L (L + latVfma - 1) u).vecResult e.core fmt dst.val
      (u + L + latVfma - 1)
      (mapLanes ((s.issueAt e.core qVector e.tag e.gap.toNat L L u).core e.core) u L (laneFma fmt) a b c)) := by
  have hL : L ≠ 0 := by
    simp only [Instr.WellFormed, formOk, Bool.and_eq_true] at hform
    exact ne_zero_of_regSpan hform.1.1.1.1
  show execVfma e dst L a b c fmt s = _
  rw [execVfma, onForm_formOk hform, vectorCommand_arith _ hL h hpass,
    ← mapLanes_congr (readVec_vectorIssued s e L dst.val L (L + latVfma - 1) u)]

theorem execVconv_ready {a : VSrc} {src out : VFmt} (h : Ready s e.core qVector e.mask e.tag e.gap r u)
    (hform : Instr.WellFormed (.vconv e dst L a src out))
    (hpass : Passes s r (vectorAudit s e (srcReads L a) dst.val L (L + latVconv - 1))) :
    exec (.vconv e dst L a src out) s = .next ((vectorIssued s e L dst.val L (L + latVconv - 1) u).vecResult e.core out dst.val
      (u + L + latVconv - 1)
      (mapLanes ((s.issueAt e.core qVector e.tag e.gap.toNat L L u).core e.core) u L (fun x _ _ => laneConv src out x) a a a)) := by
  have hL : L ≠ 0 := by
    simp only [Instr.WellFormed, formOk, Bool.and_eq_true] at hform
    exact ne_zero_of_regSpan hform.1
  show execVconv e dst L a src out s = _
  rw [execVconv, onForm_formOk hform, vectorCommand_arith _ hL h hpass,
    ← mapLanes_congr (readVec_vectorIssued s e L dst.val L (L + latVconv - 1) u)]

theorem execVfunc_ready {fn : VFn} {a : VSrc} {fmt : VFmt} (h : Ready s e.core qVector e.mask e.tag e.gap r u)
    (hform : Instr.WellFormed (.vfunc e fn dst L a fmt))
    (hpass : Passes s r (vectorAudit s e (srcReads L a) dst.val L (L + latVfunc - 1))) :
    exec (.vfunc e fn dst L a fmt) s = .next ((vectorIssued s e L dst.val L (L + latVfunc - 1) u).vecResult e.core fmt dst.val
      (u + L + latVfunc - 1)
      (mapLanes ((s.issueAt e.core qVector e.tag e.gap.toNat L L u).core e.core) u L (fun x _ _ => laneFunc fn fmt x) a a a)) := by
  have hL : L ≠ 0 := by
    simp only [Instr.WellFormed, formOk, Bool.and_eq_true] at hform
    exact ne_zero_of_regSpan hform.1.1
  show execVfunc e fn dst L a fmt s = _
  rw [execVfunc, onForm_formOk hform, vectorCommand_arith _ hL h hpass,
    ← mapLanes_congr (readVec_vectorIssued s e L dst.val L (L + latVfunc - 1) u)]

theorem execVreduce_ready {op : VRed} {a : Fin 64} {segments : Bool} {fmt : VFmt}
    (h : Ready s e.core qVector e.mask e.tag e.gap r u) (hform : Instr.WellFormed (.vreduce e op dst L a segments fmt))
    (hpass : Passes s r (vectorAudit s e (srcReads L (.reg a)) dst.val 1 (L + latVreduce - 1))) :
    exec (.vreduce e op dst L a segments fmt) s = .next ((vectorIssued s e L dst.val 1 (L + latVreduce - 1) u).vecResult e.core
      fmt dst.val (u + L + latVreduce - 1)
      [reduceLanes ((s.issueAt e.core qVector e.tag e.gap.toNat L L u).core e.core) u L op a segments fmt]) := by
  show execVreduce e op dst L a segments fmt s = _
  rw [execVreduce, onForm_formOk hform, vectorCommand_arith _ one_ne_zero h hpass,
    ← reduceLanes_congr (readVec_vectorIssued s e L dst.val 1 (L + latVreduce - 1) u)]

end

/-- Settles O14: each command puts in line what the lanes of its sources give. -/
theorem vectorArithmeticWritesRegisters : Obligations.VectorArithmeticWritesRegisters := by
  unfold Obligations.VectorArithmeticWritesRegisters
  intro s e dst L r u h
  refine ⟨fun op a b c fmt hform hpass => ?_, fun a b c fmt hform hpass => ?_, fun a src out hform hpass => ?_,
    fun fn a fmt hform hpass => ?_, fun op a segments fmt hform hpass => ?_⟩
  · exact execVop_ready h hform hpass
  · exact arithmetic_writes (execVfma_ready h hform hpass)
  · exact arithmetic_writes (execVconv_ready h hform hpass)
  · exact arithmetic_writes (execVfunc_ready h hform hpass)
  · exact arithmetic_writes (execVreduce_ready h hform hpass)

end Sys2Proof.Machine
end

section
/-! SUPPORT. The completions of the access side's engines (R108, R127, R141): marks, token and flags, or the wait for room. And the
statement about them. -/

namespace Sys2Proof.Machine

/-! ## The flags of a completion -/

/-- What the flags that a completion of the access side names do: core flags are set in the next cycle, after what has been
issued; sets of ring flags stand in the crossing, in their order (R127; log 108). -/
structure FlagsSet (s t : State) (c : Fin 16) (r : Fin 8) (l : List FlagRef) : Prop where
  mwy : t.mwy = s.mwy
  core : t.core c = { s.core c with flags := (t.core c).flags, flagPend := (t.core c).flagPend }
  flags : (flagsAfter (t.core c)).1 = withFlags (flagsAfter (s.core c)).1 l
  sent : t.sentOn (.coreToConcourse c) = s.sentOn (.coreToConcourse c) ++ ringSets r l
  other : ∀ x : Crossing, x ≠ .coreToConcourse c → t.sentOn x = s.sentOn x

section
variable {s t v : State} {c : Fin 16} {r : Fin 8} {l l' : List FlagRef}

theorem FlagsSet.append (h : FlagsSet s t c r l) (g : FlagsSet t v c r l') : FlagsSet s v c r (l ++ l') := by
  refine ⟨g.mwy.trans h.mwy, ?_, ?_, ?_, fun x hx => (g.other x hx).trans (h.other x hx)⟩
  · rw [g.core, h.core]
  · rw [g.flags, h.flags, withFlags, withFlags, withFlags, List.foldl_append]
  · rw [g.sent, h.sent, List.append_assoc, ringSets, ringSets, ringSets, List.filterMap_append]

/-- A set of a core flag by the access side is seen by every unit of a later cycle (R127; log 108). -/
theorem flagsAfter_pendFlag (s : State) (c : Fin 16) (n : Fin 64) (set : Bool) :
    (flagsAfter ((s.pendFlag c false n set).core c)).1 = if set then (flagsAfter (s.core c)).1 ||| (1#64).shiftLeft n
      else (flagsAfter (s.core c)).1 &&& ~~~ (1#64).shiftLeft n := by
  unfold State.pendFlag
  rw [core_onCore, if_neg Bool.false_ne_true, core_flagsNow]
  exact flagStep_fst _ _

theorem core_pendFlag_access (s : State) (c : Fin 16) (n : Fin 64) (set : Bool) : (s.pendFlag c false n set).core c =
    { s.core c with flags := ((s.pendFlag c false n set).core c).flags
                    flagPend := ((s.pendFlag c false n set).core c).flagPend } := by
  unfold State.pendFlag
  rw [core_onCore, if_neg Bool.false_ne_true, core_flagsNow]

theorem flagsSet_setNamed (s : State) (r : Fin 8) (c : Fin 16) (o : Option FlagRef) :
    FlagsSet s (s.setNamed r c false o) c r o.toList := by
  match o with
  | none => exact ⟨rfl, rfl, rfl, (List.append_nil _).symm, fun _ _ => rfl⟩
  | some (.core n on) =>
    have hissued := issued_pendFlag s c false n true
    exact ⟨hissued.mwy, core_pendFlag_access s c n true, flagsAfter_pendFlag s c n true,
      (hissued.sameCrossings.sentOn _).trans (List.append_nil _).symm, fun x _ => hissued.sameCrossings.sentOn x⟩
  | some (.ring n) =>
    have hput := onlyCrossings_crossPut s (.coreToConcourse c) (.setFlag r n)
    obtain ⟨hsent, hother⟩ := sends_crossPut s (.coreToConcourse c) (.setFlag r n)
    have hcore : (s.setNamed r c false (some (.ring n))).core c = s.core c := hput.core c
    refine ⟨hput.mwy, by rw [hcore], by rw [hcore]; rfl, hsent, hother⟩

end

/-- A completion of the access side: its token is given, its flags are set, and nothing else of the core changes. -/
theorem complete_access (s : State) (r : Fin 8) (c : Fin 16) (done : Completion) :
    TokenGiven s (s.complete r c false done) c done ∧ RingFlagsSent s (s.complete r c false done) c r done ∧
    (flagsAfter ((s.complete r c false done).core c)).1 = withFlags (flagsAfter (s.core c)).1 (doneFlags done) ∧
    (s.complete r c false done).mwy = s.mwy ∧ (s.complete r c false done).core c = { s.core c with
      dqs := ((s.complete r c false done).core c).dqs, flags := ((s.complete r c false done).core c).flags
      flagPend := ((s.complete r c false done).core c).flagPend } := by
  unfold State.complete
  extract_lets s1
  have hflags := (flagsSet_setNamed s1 r c done.ready).append (flagsSet_setNamed _ r c done.flag)
  have hgiven : TokenGiven s s1 c done ∧ SameCrossings s s1 ∧ s1.mwy = s.mwy ∧
      s1.core c = { s.core c with dqs := (s1.core c).dqs } := by
    unfold s1
    split
    next n hn =>
      refine ⟨fun m => ?_, ⟨rfl, rfl⟩, rfl, by rw [State.onDq, core_onCore]⟩
      by_cases hm : m = n
      · rw [if_pos (hn.trans (congrArg some hm.symm)), hm, dq_onDq]
      · rw [if_neg (by rw [hn]; simpa using Ne.symm hm), dq_onDq_ne _ _ _ hm]
    next hn => exact ⟨fun m => by rw [hn]; rfl, ⟨rfl, rfl⟩, rfl, rfl⟩
  clear_value s1
  obtain ⟨htoken, hcross, hmwy, hcore⟩ := hgiven
  refine ⟨fun n => ?_, ⟨?_, fun x hx => ?_⟩, ?_, hflags.mwy.trans hmwy, ?_⟩
  · rw [← htoken n, State.dq, hflags.core, State.dq]
  · rw [hflags.sent, hcross.sentOn, doneFlags]
  · rw [hflags.other x hx, hcross.sentOn]
  · have hafter : flagsAfter (s1.core c) = flagsAfter (s.core c) := by rw [hcore]; rfl
    rw [hflags.flags, hafter, doneFlags]
  · rw [hflags.core, hcore]

/-! ## Marks -/

section
variable {k j : Core}

/-- What marks change of a core. -/
structure OnlyMarks (k j : Core) : Prop where
  rest : j = { k with wValid := j.wValid, aValid := j.aValid, dsValid := j.dsValid }

theorem onlyMarks_markPut (m : Buf) (region : Nat) (v : Bool) (k : Core) : OnlyMarks k (markPut m region v k) := by
  cases m with
  | w => exact ⟨rfl⟩
  | a => exact ⟨rfl⟩
  | ds => exact ⟨rfl⟩

theorem OnlyMarks.trans {i : Core} (h : OnlyMarks k j) (g : OnlyMarks j i) : OnlyMarks k i := ⟨by rw [g.rest, h.rest]⟩

theorem onlyMarks_setMarks (m : Option (Buf × BitVec 16)) (k : Core) : OnlyMarks k (setMarks m k) := by
  unfold setMarks
  split
  · exact ⟨rfl⟩
  · exact foldl_keeps (P := OnlyMarks k) (fun j i h => h.trans (onlyMarks_markPut _ _ _ _)) _ _ ⟨rfl⟩

theorem onlyMarks_markedOnce (b : EngineBusy) (k : Core) : OnlyMarks k (markedOnce b k) := by
  unfold markedOnce
  split
  · exact ⟨rfl⟩
  · exact onlyMarks_setMarks b.marks k

end

/-! ## An engine's completion -/

/-- The command under way of an engine is all that `put` changes. -/
def OnlyEngine (put : Option EngineBusy → Core → Core) : Prop := ∀ v k, put v k =
  { k with dmaBusy := (put v k).dmaBusy, unfoldBusy := (put v k).unfoldBusy, storeBusy := (put v k).storeBusy }

/-- The state with the regions of a command marked, once (R141). -/
def marksDone (s : State) (c : Fin 16) (b : EngineBusy) : State := if b.finished then s else s.onCore c (setMarks b.marks)

section
variable {s : State} {c : Fin 16} {r : Fin 8} {q : Fin 5} {b : EngineBusy} {put : Option EngineBusy → Core → Core}

theorem core_marksDone (s : State) (c : Fin 16) (b : EngineBusy) : (marksDone s c b).core c = markedOnce b (s.core c) := by
  unfold marksDone markedOnce
  split
  · rfl
  · exact core_onCore s c _

theorem marksDone_keeps (s : State) (c : Fin 16) (b : EngineBusy) : (marksDone s c b).mwy = s.mwy ∧
    SameCrossings s (marksDone s c b) ∧ (marksDone s c b).ringOfCore c = s.ringOfCore c := by
  unfold marksDone
  split
  · exact ⟨rfl, ⟨rfl, rfl⟩, rfl⟩
  · exact ⟨rfl, ⟨rfl, rfl⟩, rfl⟩

theorem dq_marksDone (s : State) (c : Fin 16) (b : EngineBusy) (n : Fin 8) : (marksDone s c b).dq c n = s.dq c n := by
  rw [State.dq, State.dq, core_marksDone, (onlyMarks_markedOnce b (s.core c)).rest]

theorem crossGate_congr {t : State} (h : SameCrossings s t) : t.crossGate = s.crossGate := by
  obtain ⟨hcross, -⟩ := h
  funext c flag r u
  cases flag with
  | core n on => rfl
  | ring n => rw [State.crossGate, State.crossGate, State.crossFull, State.crossFull, State.crossOf, State.crossOf, hcross]

/-- Whether a completion can be given hangs on the data queues and the crossings alone (R23, R108). -/
theorem canComplete_congr {t : State} (hdqs : (t.core c).dqs = (s.core c).dqs) (hcross : SameCrossings s t)
    (done : Completion) : t.canComplete c done = s.canComplete c done := by
  have hroom : t.dqRoom c = s.dqRoom c := by
    funext n
    rw [State.dqRoom, State.dqRoom, State.dq, State.dq, hdqs]
  rw [State.canComplete, State.canComplete, State.doneGate, State.doneGate, hroom, crossGate_congr hcross]

/-- Marks give no room and take none. -/
theorem canComplete_marksDone (s : State) (c : Fin 16) (b : EngineBusy) (done : Completion) :
    (marksDone s c b).canComplete c done = s.canComplete c done := by
  obtain ⟨-, hcross, -⟩ := marksDone_keeps s c b
  refine canComplete_congr ?_ hcross done
  rw [core_marksDone, (onlyMarks_markedOnce b (s.core c)).rest]

theorem engineDone_eq (hring : s.ringOfCore c = some r) : s.engineDone c q b put =
    if s.canComplete c b.done then
      (((marksDone s c b).complete r c false b.done).onCore c (put none)).trace c evDone b.tag q.val
    else (marksDone s c b).onCore c (put (some { b with finished := true })) := by
  obtain ⟨-, -, hsame⟩ := marksDone_keeps s c b
  rw [← canComplete_marksDone s c b b.done]
  show (if (marksDone s c b).canComplete c b.done = true then (match (marksDone s c b).ringOfCore c with
    | some r => (((marksDone s c b).complete r c false b.done).onCore c (put none)).trace c evDone b.tag q.val
    | none => (marksDone s c b).onCore c (put none)) else _) = _
  rw [hsame, hring]
  rfl

/-- An engine whose completion can be given completes: marks, token and flags (R108, R127, R141). -/
theorem engineDone_completes (hput : OnlyEngine put) (hring : s.ringOfCore c = some r) (hcan : s.canComplete c b.done = true) :
    Completed s (s.engineDone c q b put) c r b ∧
    ∃ k, (s.engineDone c q b put).core c = (put none k).withTrace ((s.engineDone c q b put).core c) := by
  obtain ⟨htoken, ⟨hsent, hother⟩, hflags, hmwy, hcore⟩ := complete_access (marksDone s c b) r c b.done
  obtain ⟨hmarkMwy, hmarkCross, -⟩ := marksDone_keeps s c b
  have hmarks := (onlyMarks_markedOnce b (s.core c)).rest
  have hafter : flagsAfter (markedOnce b (s.core c)) = flagsAfter (s.core c) := by rw [hmarks]; rfl
  have htraces := traces_trace (((marksDone s c b).complete r c false b.done).onCore c (put none)) c evDone b.tag q.val 0
  rw [engineDone_eq hring, if_pos hcan]
  generalize (marksDone s c b).complete r c false b.done = v at *
  rw [core_marksDone] at hcore hflags
  have hbusy : (v.onCore c (put none)).core c = put none (v.core c) := core_onCore v c _
  have hend : (v.onCore c (put none) |>.core c) = { markedOnce b (s.core c) with
      dqs := (v.core c).dqs, flags := (v.core c).flags, flagPend := (v.core c).flagPend
      dmaBusy := (put none (v.core c)).dmaBusy, unfoldBusy := (put none (v.core c)).unfoldBusy
      storeBusy := (put none (v.core c)).storeBusy } := by
    rw [hbusy, hput none (v.core c), hcore]
  have hcross : SameCrossings v ((v.onCore c (put none)).trace c evDone b.tag q.val 0) := htraces.sameCrossings
  refine ⟨⟨fun n => ?_, ⟨?_, fun x hx => ?_⟩, ?_, ?_, ?_, ?_, ?_, ?_, ?_⟩, v.core c, ?_⟩
  · rw [htraces.dq, State.dq, hend, ← dq_marksDone s c b n]
    exact htoken n
  · rw [hcross.sentOn, hsent, hmarkCross.sentOn]
  · rw [hcross.sentOn, hother x hx, hmarkCross.sentOn]
  · rw [htraces.flagsAfter, hend, ← hafter]
    exact hflags
  · rw [htraces.core c, hend]
    rfl
  · rw [htraces.core c, hend]
    rfl
  · rw [htraces.core c, hend]
    rfl
  · rw [htraces.core c, hend, hmarks]
    rfl
  · rw [htraces.core c, hend, hmarks]
    rfl
  · rw [htraces.mwy]
    exact hmwy.trans hmarkMwy
  · rw [← hbusy]
    exact htraces.core c

/-- An engine whose completion cannot be given stays under way, its regions marked (R108, R129). -/
theorem engineDone_waits (hput : OnlyEngine put) (hring : s.ringOfCore c = some r) (hcan : s.canComplete c b.done = false) :
    (s.engineDone c q b put).core c = put (some { b with finished := true }) (markedOnce b (s.core c)) ∧
    SameMarks (markedOnce b (s.core c)) ((s.engineDone c q b put).core c) ∧
    ((s.engineDone c q b put).core c).dqs = (s.core c).dqs ∧ SameCrossings s (s.engineDone c q b put) := by
  obtain ⟨-, hcross, -⟩ := marksDone_keeps s c b
  have hcore : (s.engineDone c q b put).core c = put (some { b with finished := true }) (markedOnce b (s.core c)) := by
    rw [engineDone_eq hring, if_neg (by rw [hcan]; exact Bool.false_ne_true), core_onCore, core_marksDone]
  refine ⟨hcore, ?_, ?_, ?_⟩
  · rw [hcore, hput]
    exact ⟨rfl, rfl, rfl⟩
  · rw [hcore, hput, (onlyMarks_markedOnce b (s.core c)).rest]
  · rw [engineDone_eq hring, if_neg (by rw [hcan]; exact Bool.false_ne_true)]
    exact hcross.onCore c _

/-! ## The three engines -/

theorem execDmaComplete_moved (h : (s.core c).dmaBusy = some b) (hmoved : moved b = true) :
    exec (.dmaComplete c b.tag) s = .next (s.engineDone c qDma b fun v k => { k with dmaBusy := v }) := by
  show execDmaComplete c b.tag s = _
  rw [execDmaComplete, h]
  dsimp only
  rw [if_pos ⟨rfl, hmoved⟩]

theorem execUnfoldComplete_busy (h : (s.core c).unfoldBusy = some b) :
    exec (.unfoldComplete c) s = .next (s.engineDone c qUnfold b fun v k => { k with unfoldBusy := v }) := by
  show execUnfoldComplete c s = _
  rw [execUnfoldComplete, h]

theorem execStoreComplete_busy (h : (s.core c).storeBusy = some b) :
    exec (.storeComplete c) s = .next (s.engineDone c qStore b fun v k => { k with storeBusy := v }) := by
  show execStoreComplete c s = _
  rw [execStoreComplete, h]

theorem dma_completes (hring : s.ringOfCore c = some r) (h : (s.core c).dmaBusy = some b) (hmoved : moved b = true) :
    (s.canComplete c b.done = true → ∃ t, exec (.dmaComplete c b.tag) s = .next t ∧ (t.core c).dmaBusy = none ∧
      Completed s t c r b) ∧
    (s.canComplete c b.done = false → ∃ t, exec (.dmaComplete c b.tag) s = .next t ∧
      (t.core c).dmaBusy = some { b with finished := true } ∧ SameMarks (markedOnce b (s.core c)) (t.core c) ∧
      (t.core c).dqs = (s.core c).dqs ∧ SameCrossings s t) := by
  have hput : OnlyEngine fun v k => { k with dmaBusy := v } := fun _ _ => rfl
  refine ⟨fun hcan => ?_, fun hcan => ?_⟩
  · obtain ⟨hdone, k, hcore⟩ := engineDone_completes (q := qDma) hput hring hcan
    exact ⟨_, execDmaComplete_moved h hmoved, by rw [hcore]; rfl, hdone⟩
  · obtain ⟨hcore, hrest⟩ := engineDone_waits (q := qDma) hput hring hcan
    exact ⟨_, execDmaComplete_moved h hmoved, by rw [hcore], hrest⟩

theorem unfold_completes (hring : s.ringOfCore c = some r) (h : (s.core c).unfoldBusy = some b) :
    (s.canComplete c b.done = true → ∃ t, exec (.unfoldComplete c) s = .next t ∧ (t.core c).unfoldBusy = none ∧
      Completed s t c r b) ∧
    (s.canComplete c b.done = false → ∃ t, exec (.unfoldComplete c) s = .next t ∧
      (t.core c).unfoldBusy = some { b with finished := true } ∧ SameMarks (markedOnce b (s.core c)) (t.core c) ∧
      (t.core c).dqs = (s.core c).dqs ∧ SameCrossings s t) := by
  have hput : OnlyEngine fun v k => { k with unfoldBusy := v } := fun _ _ => rfl
  refine ⟨fun hcan => ?_, fun hcan => ?_⟩
  · obtain ⟨hdone, k, hcore⟩ := engineDone_completes (q := qUnfold) hput hring hcan
    exact ⟨_, execUnfoldComplete_busy h, by rw [hcore]; rfl, hdone⟩
  · obtain ⟨hcore, hrest⟩ := engineDone_waits (q := qUnfold) hput hring hcan
    exact ⟨_, execUnfoldComplete_busy h, by rw [hcore], hrest⟩

theorem store_completes (hring : s.ringOfCore c = some r) (h : (s.core c).storeBusy = some b) :
    (s.canComplete c b.done = true → ∃ t, exec (.storeComplete c) s = .next t ∧ (t.core c).storeBusy = none ∧
      Completed s t c r b) ∧
    (s.canComplete c b.done = false → ∃ t, exec (.storeComplete c) s = .next t ∧
      (t.core c).storeBusy = some { b with finished := true } ∧ SameMarks (markedOnce b (s.core c)) (t.core c) ∧
      (t.core c).dqs = (s.core c).dqs ∧ SameCrossings s t) := by
  have hput : OnlyEngine fun v k => { k with storeBusy := v } := fun _ _ => rfl
  refine ⟨fun hcan => ?_, fun hcan => ?_⟩
  · obtain ⟨hdone, k, hcore⟩ := engineDone_completes (q := qStore) hput hring hcan
    exact ⟨_, execStoreComplete_busy h, by rw [hcore]; rfl, hdone⟩
  · obtain ⟨hcore, hrest⟩ := engineDone_waits (q := qStore) hput hring hcan
    exact ⟨_, execStoreComplete_busy h, by rw [hcore], hrest⟩

end

/-- Settles O18: the three engines' completions, by what `engineDone` gives. -/
theorem enginesCompleteInOrder : Obligations.EnginesCompleteInOrder := by
  unfold Obligations.EnginesCompleteInOrder
  refine ⟨fun s c r b hring => ⟨fun h hmoved => dma_completes hring h hmoved, fun h => unfold_completes hring h,
    fun h => store_completes hring h⟩, fun s c tag => ⟨fun h => ?_, fun h => ?_, fun h => ?_⟩⟩
  · show execDmaComplete c tag s = _
    rw [execDmaComplete, h]
  · show execUnfoldComplete c s = _
    rw [execUnfoldComplete, h]
  · show execStoreComplete c s = _
    rw [execStoreComplete, h]

end Sys2Proof.Machine
end

section
/-! SUPPORT. The store engine (R149, R152, R153): what a write to core memory without errors leaves, and the statement about FILL,
COPY, STRIDE and TRANSPOSE. -/

namespace Sys2Proof.Machine

/-! ## Writes of core memory -/

section
variable {k : Core} {s : State} {c : Fin 16}

/-- A write of core memory without errors flushes the lines that it reaches, and then puts its bytes (R146, R156). -/
theorem corePut_noErrors (a : Nat) (d : List PByte) (h : NoErrors k) : (corePut a d k).ecc = [] ∧
    (corePut a d k).mem = smWrite 0 (flushRange a d.length k).mem a (rawBytes d) := by
  obtain ⟨⟨hflips, hecc⟩, -⟩ := flushRange_noErrors a d.length h h rfl rfl
  unfold corePut
  rw [foldl_decodeWord hflips]
  exact ⟨hecc, rfl⟩

theorem core_cmWrite_noErrors (tag : Tag) (a : Nat) (d : List PByte) (h : NoErrors (s.core c)) :
    (s.cmWrite tag c a d).core c = corePut a d (s.core c) := by
  obtain ⟨hecc, -⟩ := corePut_noErrors a d h
  rw [State.cmWrite, onMem_clean hecc, core_setCore, ← hecc]

theorem length_rawBytes (d : List PByte) : (rawBytes d).length = d.length := List.length_map _

theorem smGet_corePut_inside {d : List PByte} {a i : Nat} (h : NoErrors k) (hi : i < d.length) :
    smGet 0 (corePut a d k).mem (a + i) = (d.getD i (0, false)).1 := by
  obtain ⟨-, hmem⟩ := corePut_noErrors a d h
  rw [hmem, smGet_smWrite, if_pos ⟨Nat.le_add_right a i, by rw [length_rawBytes]; omega⟩, Nat.add_sub_cancel_left, rawBytes,
    List.getD_eq_getElem?_getD, List.getD_eq_getElem?_getD, List.getElem?_map, List.getElem?_eq_getElem hi]
  rfl

theorem smGet_corePut_outside {d : List PByte} {a b : Nat} (h : NoErrors k) (hb : b < a ∨ a + d.length ≤ b) :
    smGet 0 (corePut a d k).mem b = smGet 0 (flushRange a d.length k).mem b := by
  obtain ⟨-, hmem⟩ := corePut_noErrors a d h
  rw [hmem, smGet_smWrite, length_rawBytes, if_neg (by omega)]

theorem opnd_corePut (a : Nat) (d : List PByte) (k : Core) : (corePut a d k).opnd = k.opnd := by
  rw [(memTouched_corePut a d k).rest]

theorem mwy_cmRead (s : State) (tag : Tag) (c : Fin 16) (a n : Nat) : (s.cmRead tag c a n).1.mwy = s.mwy := by
  have hmem := mwy_onMem s tag c (readyRange a n)
  unfold State.cmRead
  dsimp only
  split
  · exact hmem
  · exact hmem

theorem mwy_cmPieces (tag : Tag) (c : Fin 16) (l : List (Nat × Nat)) (s : State) : (State.cmPieces tag c l s).1.mwy = s.mwy := by
  induction l generalizing s with
  | nil => rfl
  | cons p l ih => exact (ih (s.cmRead tag c p.1 p.2).1).trans (mwy_cmRead s tag c p.1 p.2)

theorem mwy_cmRows (s : State) (tag : Tag) (c : Fin 16) (addr pitch n : Nat) :
    (s.cmRows tag c addr pitch n).1.mwy = s.mwy := mwy_cmPieces tag c _ s

/-- Core memory changed by an engine's command, whose completion is then due. -/
theorem core_storeStarted_onMem (s : State) (tag : Tag) (c : Fin 16) (done : Completion) (l : List (Nat × List PByte)) :
    ((s.onMem tag c fun k => storeStarted tag done (putAll l k)).core c).storeBusy = some ⟨tag, none, done, 0, none, false⟩ ∧
    ((s.onMem tag c fun k => storeStarted tag done (putAll l k)).core c).mem = (putAll l (s.core c)).mem := by
  rw [core_onMem]
  exact ⟨rfl, rfl⟩

end

/-! ## Bytes -/

theorem length_fillBytes (pattern : Word) (len : Nat) : (fillBytes pattern len).length = len := by
  rw [fillBytes, List.length_map, List.length_range]

theorem getD_fillBytes (pattern : Word) {len i : Nat} (hi : i < len) :
    (fillBytes pattern len).getD i (0, false) = ((leBytes 4 pattern.toNat).getD (i % 4) 0, false) := by
  rw [fillBytes, List.getD_eq_getElem?_getD, List.getElem?_map, List.getElem?_range hi]
  rfl

theorem length_copyBytes (src dst : Nat) (d : List PByte) : (copyBytes src dst d).length = d.length := by
  unfold copyBytes
  split
  · rw [List.length_map, List.length_range]
  · rfl

/-- The byte that a COPY leaves at place `i` of its destination (R153). -/
theorem getD_copyBytes (src dst : Nat) {d : List PByte} {i : Nat} (hi : i < d.length) :
    (copyBytes src dst d).getD i (0, false) =
      d.getD (if src < dst ∧ dst < src + d.length then i % (dst - src) else i) (0, false) := by
  unfold copyBytes
  split
  · rw [List.getD_eq_getElem?_getD, List.getElem?_map, List.getElem?_range hi]
    rfl
  · rfl

theorem getD_coreGet (k : Core) (a : Nat) {n i : Nat} (hi : i < n) :
    ((coreGet k a n).getD i (0, false)).1 = smGet 0 k.mem (a + i) := by
  have hbyte : (coreGet k a n)[i]? = _ := getElem?_bytesGet id k.mem k.memBad a hi
  rw [List.getD_eq_getElem?_getD, hbyte]
  rfl

theorem length_coreGet (k : Core) (a n : Nat) : (coreGet k a n).length = n := length_bytesGet id k.mem k.memBad a n

/-! ## FILL -/

section
variable {s : State} {e : Eng} {done : Completion} {r : Fin 8} {u : Nat}

/-- The state in which a command of the store engine has issued. -/
def storeIssued (s : State) (e : Eng) (u : Nat) : State := s.issueAt e.core qStore e.tag e.gap.toNat 0 0 u

theorem issued_storeIssued (s : State) (e : Eng) (u : Nat) : Issued e.core s (storeIssued s e u) :=
  issued_issueAt s e.core qStore e.tag e.gap.toNat 0 0 u

theorem Issued.ringOfCore {c : Fin 16} {s t : State} (h : Issued c s t) (d : Fin 16) : t.ringOfCore d = s.ringOfCore d := by
  have hmask : ∀ r : Fin 8, t.ringMask r = s.ringMask r := by
    intro r
    rw [State.ringMask, State.ringMask, h.regs (.ringResources r)]
    all_goals simp [reportAddrs, addr_injective.eq_iff]
  have hbound : ∀ r : Fin 8, (t.ring r).bound = (s.ring r).bound := fun r => by rw [h.ring r]
  simp only [State.ringOfCore, hmask, hbound]

theorem execFill_starts {dst len : Nat} {pattern : Word} (hdone : s.badCompletion e.core done = false)
    (h : Starts s e qStore r u []) : exec (.fill e dst len pattern done) s =
      .next ((storeIssued s e u).fillNow r e.core e.tag dst len pattern done) := by
  obtain ⟨hready, hpass⟩ := h
  show execFill e dst len pattern done s = _
  unfold execFill
  rw [if_neg (by rw [hdone]; exact Bool.false_ne_true), onForm_formOk rfl, fillCommand_ready _ hready hpass]
  rfl

theorem fillNow_writes (t : State) {c : Fin 16} {tag : Tag} {dst len : Nat} {pattern : Word} (hdst : dst % 4 = 0)
    (hlen : len % 4 = 0) (hpos : 0 < len) (hin : inCore dst len = true) : t.fillNow r c tag dst len pattern done =
      (t.cmWrite tag c dst (fillBytes pattern len)).onCore c (storeStarted tag done) := by
  rw [State.fillNow, if_neg (by omega), if_pos ⟨hdst, hlen, hin⟩]

/-- A core of the store engine after a write without errors whose completion is due. -/
theorem core_storeWritten {t : State} {c : Fin 16} {tag : Tag} {a : Nat} {d : List PByte} (h : NoErrors (t.core c)) :
    ((t.cmWrite tag c a d).onCore c (storeStarted tag done)).core c = storeStarted tag done (corePut a d (t.core c)) := by
  rw [core_onCore, core_cmWrite_noErrors tag a d h]

theorem mwy_storeWritten (t : State) (c : Fin 16) (tag : Tag) (a : Nat) (d : List PByte) :
    ((t.cmWrite tag c a d).onCore c (storeStarted tag done)).mwy = t.mwy := mwy_onMem t tag c _

/-- Flushes of an issued core and of the core before it write the same (R155). -/
theorem mem_flushRange_issued {c : Fin 16} {t : State} (h : Issued c s t) (hs : NoErrors (s.core c)) (a n : Nat) :
    (flushRange a n (t.core c)).mem = (flushRange a n (s.core c)).mem :=
  (flushRange_noErrors a n hs (h.noErrors hs) h.mem h.gather).2

theorem fill_bytes {dst len : Nat} {pattern : Word} (hdone : s.badCompletion e.core done = false)
    (h : Starts s e qStore r u []) (hdst : dst % 4 = 0) (hlen : len % 4 = 0) (hpos : 0 < len) (hin : inCore dst len = true)
    (herr : NoErrors (s.core e.core)) : ∃ t, exec (.fill e dst len pattern done) s = .next t ∧
      (t.core e.core).storeBusy = some ⟨e.tag, none, done, 0, none, false⟩ ∧
      (∀ i < len, smGet 0 (t.core e.core).mem (dst + i) = (leBytes 4 pattern.toNat).getD (i % 4) 0) ∧
      (∀ a : Nat, (a < dst ∨ dst + len ≤ a) →
        smGet 0 (t.core e.core).mem a = smGet 0 (flushRange dst len (s.core e.core)).mem a) ∧
      (t.core e.core).opnd = (s.core e.core).opnd ∧ t.mwy = s.mwy := by
  have hissued := issued_storeIssued s e u
  have hexec := execFill_starts (dst := dst) (len := len) (pattern := pattern) hdone h
  rw [fillNow_writes _ hdst hlen hpos hin] at hexec
  generalize storeIssued s e u = v at hissued hexec
  have hv := hissued.noErrors herr
  refine ⟨_, hexec, ?_, fun i hi => ?_, fun a ha => ?_, ?_, (mwy_storeWritten _ _ _ _ _).trans hissued.mwy⟩
  · rw [core_storeWritten hv]
    rfl
  · rw [core_storeWritten hv]
    refine (smGet_corePut_inside hv (by rw [length_fillBytes]; exact hi)).trans ?_
    rw [getD_fillBytes pattern hi]
  · rw [core_storeWritten hv]
    refine (smGet_corePut_outside hv (by rw [length_fillBytes]; exact ha)).trans ?_
    rw [length_fillBytes, mem_flushRange_issued hissued herr]
  · rw [core_storeWritten hv]
    exact (opnd_corePut _ _ _).trans hissued.opnd

/-! ## COPY -/

theorem execCopy_starts {src dst len : Nat} (hdone : s.badCompletion e.core done = false) (h : Starts s e qStore r u []) :
    exec (.copy e src dst len done) s = .next ((storeIssued s e u).copyNow r e.core e.tag src dst len done) := by
  obtain ⟨hready, hpass⟩ := h
  show execCopy e src dst len done s = _
  unfold execCopy
  rw [if_neg (by rw [hdone]; exact Bool.false_ne_true), onForm_formOk rfl, fillCommand_ready _ hready hpass]
  rfl

theorem copyNow_writes {t t1 : State} {c : Fin 16} {tag : Tag} {src dst len : Nat} {d : List PByte} (hsrc : src % 4 = 0)
    (hdst : dst % 4 = 0) (hlen : len % 4 = 0) (hpos : 0 < len) (hinSrc : inCore src len = true)
    (hinDst : inCore dst len = true) (hread : t.cmRead tag c src len = (t1, d)) : t.copyNow r c tag src dst len done =
      (t1.cmWrite tag c dst (copyBytes src dst d)).onCore c (storeStarted tag done) := by
  rw [State.copyNow, if_neg (by omega), if_neg (by simp [hsrc, hlen, hinSrc]), if_neg (by simp [hdst, hinDst]), hread]

theorem copy_bytes {src dst len : Nat} (hdone : s.badCompletion e.core done = false)
    (h : Starts s e qStore r u []) (hsrc : src % 4 = 0) (hdst : dst % 4 = 0) (hlen : len % 4 = 0) (hpos : 0 < len)
    (hinSrc : inCore src len = true) (hinDst : inCore dst len = true) (herr : NoErrors (s.core e.core)) :
    ∃ t, exec (.copy e src dst len done) s = .next t ∧
      (t.core e.core).storeBusy = some ⟨e.tag, none, done, 0, none, false⟩ ∧
      (∀ i < len, smGet 0 (t.core e.core).mem (dst + i) = smGet 0 (flushRange src len (s.core e.core)).mem
        (src + if src < dst ∧ dst < src + len then i % (dst - src) else i)) ∧
      (∀ a : Nat, (a < dst ∨ dst + len ≤ a) → smGet 0 (t.core e.core).mem a =
        smGet 0 (flushRange dst len (flushRange src len (s.core e.core))).mem a) ∧
      (t.core e.core).opnd = (s.core e.core).opnd ∧ t.mwy = s.mwy := by
  have hissued := issued_storeIssued s e u
  have hexec := execCopy_starts (src := src) (dst := dst) (len := len) hdone h
  generalize storeIssued s e u = v at hissued hexec
  have hv := hissued.noErrors herr
  obtain ⟨hdata, hcore, hmwy, -, -⟩ := cmRead_noErrors (s := v) e.tag src len hv
  generalize hread : v.cmRead e.tag e.core src len = p at hdata hcore hmwy
  obtain ⟨t1, d⟩ := p
  dsimp only at hdata hcore hmwy
  rw [copyNow_writes hsrc hdst hlen hpos hinSrc hinDst hread] at hexec
  obtain ⟨hflushed, hmem⟩ := flushRange_noErrors src len hv (hissued.noErrors herr) rfl rfl
  obtain ⟨hbefore, -⟩ := flushRange_noErrors src len herr herr rfl rfl
  have hsame := mem_flushRange_issued hissued herr src len
  have ht1 : NoErrors (t1.core e.core) := by rw [hcore]; exact hflushed
  have hlength : d.length = len := by rw [hdata, length_coreGet]
  refine ⟨_, hexec, ?_, fun i hi => ?_, fun a ha => ?_, ?_, (mwy_storeWritten _ _ _ _ _).trans (hmwy.trans hissued.mwy)⟩
  · rw [core_storeWritten ht1]
    rfl
  · have hplace : (if src < dst ∧ dst < src + len then i % (dst - src) else i) < len := by
      split
      · exact (Nat.mod_le _ _).trans_lt hi
      · exact hi
    rw [core_storeWritten ht1]
    refine (smGet_corePut_inside ht1 (by rw [length_copyBytes, hlength]; exact hi)).trans ?_
    rw [getD_copyBytes src dst (by rw [hlength]; exact hi), hlength, hdata, getD_coreGet _ _ hplace, hsame]
  · rw [core_storeWritten ht1]
    refine (smGet_corePut_outside ht1 (by rw [length_copyBytes, hlength]; exact ha)).trans ?_
    rw [length_copyBytes, hlength, hcore]
    refine congrArg (smGet 0 · a) (flushRange_noErrors dst len hbefore hflushed hsame ?_).2
    rw [flushRange, flushWhere, flushRange, flushWhere, hissued.gather]
  · obtain ⟨hopnd, -, -⟩ := flushRange_keeps src len (v.core e.core)
    rw [core_storeWritten ht1]
    exact (opnd_corePut _ _ _).trans (by rw [hcore, hopnd, hissued.opnd])

/-! ## Length zero -/

/-- A FILL or COPY of length zero completes at once, or waits until its completion can be given (R153). -/
theorem storeEmpty_completes {t : State} {c : Fin 16} {tag : Tag} (hring : t.ringOfCore c = some r) :
    ((t.storeEmpty c tag done).core c).mem = (t.core c).mem ∧ (t.storeEmpty c tag done).mwy = t.mwy ∧
    ((t.storeEmpty c tag done).core c).storeBusy =
      if t.canComplete c done then none else some ⟨tag, none, done, 0, none, true⟩ := by
  have hput : OnlyEngine fun v k => { k with storeBusy := v } := fun _ _ => rfl
  have hcore : (t.onCore c (storeStarted tag done)).core c = storeStarted tag done (t.core c) := core_onCore t c _
  have hdqs : ((t.onCore c (storeStarted tag done)).core c).dqs = (t.core c).dqs := by rw [hcore]; rfl
  have hcross : SameCrossings t (t.onCore c (storeStarted tag done)) := ⟨rfl, rfl⟩
  have hcan := canComplete_congr hdqs hcross done
  have hring' : (t.onCore c (storeStarted tag done)).ringOfCore c = some r := hring
  have hstart : t.storeEmpty c tag done = (t.onCore c (storeStarted tag done)).engineDone c qStore
      ⟨tag, none, done, 0, none, false⟩ fun v k => { k with storeBusy := v } := rfl
  have hmwy' : (t.onCore c (storeStarted tag done)).mwy = t.mwy := rfl
  rw [hstart]
  generalize t.onCore c (storeStarted tag done) = v at *
  cases hdone : t.canComplete c done with
  | true =>
    obtain ⟨⟨-, -, -, -, -, -, hmem, -, hmwy⟩, k, hend⟩ := engineDone_completes (q := qStore)
      (b := ⟨tag, none, done, 0, none, false⟩) hput hring' (hcan.trans hdone)
    refine ⟨hmem.trans (by rw [hcore]; rfl), hmwy.trans hmwy', ?_⟩
    rw [hend]
    rfl
  | false =>
    obtain ⟨hend, -⟩ := engineDone_waits (q := qStore) (b := ⟨tag, none, done, 0, none, false⟩) hput hring'
      (hcan.trans hdone)
    refine ⟨by rw [hend, hcore]; rfl, ?_, by rw [hend]; rfl⟩
    rw [engineDone_eq hring', if_neg (by rw [hcan, hdone]; exact Bool.false_ne_true)]
    exact ((marksDone_keeps v c _).1).trans hmwy'

theorem empty_completes {i : Instr} (h : Starts s e qStore r u [])
    (hexec : exec i s = .next ((storeIssued s e u).storeEmpty e.core e.tag done)) :
    ∃ t, exec i s = .next t ∧ (t.core e.core).mem = (s.core e.core).mem ∧ t.mwy = s.mwy ∧
      (t.core e.core).storeBusy = (if s.canComplete e.core done then none else some ⟨e.tag, none, done, 0, none, true⟩) := by
  obtain ⟨⟨hring, -⟩, -⟩ := h
  have hissued := issued_storeIssued s e u
  have hring' := (hissued.ringOfCore e.core).trans hring
  obtain ⟨hmem, hmwy, hbusy⟩ := storeEmpty_completes (done := done) (tag := e.tag) hring'
  refine ⟨_, hexec, hmem.trans hissued.mem, hmwy.trans hissued.mwy, hbusy.trans ?_⟩
  rw [canComplete_congr hissued.dqs hissued.sameCrossings]

/-! ## STRIDE and TRANSPOSE -/

theorem execStride_moves {srcAddr dstAddr count : Nat} {src dst : Pattern} {s1 : State} {d : List PByte}
    (hdone : s.badCompletion e.core done = false) (h : Starts s e qStore r u [])
    (hform : Instr.WellFormed (.stride e srcAddr src dstAddr dst count done))
    (hsrc : strideOk srcAddr (strideSize src dst) count src = true)
    (hdst : strideOk dstAddr (strideSize dst src) count dst = true)
    (hread : State.cmPieces e.tag e.core ((List.range count).map fun k =>
      (strideAt srcAddr (strideSize src dst) k src, strideSize src dst)) (storeIssued s e u) = (s1, d)) :
    exec (.stride e srcAddr src dstAddr dst count done) s = .next (s1.onMem e.tag e.core fun k => storeStarted e.tag done
      (putAll ((List.range count).map fun k => (strideAt dstAddr (strideSize dst src) k dst,
        strideElem (strideSize src dst) (strideSize dst src) (part d (strideSize src dst * k) (strideSize src dst)))) k)) := by
  obtain ⟨hready, hpass⟩ := h
  rw [storeIssued] at hread
  show execStride e srcAddr src dstAddr dst count done s = _
  unfold execStride
  rw [if_neg (by rw [hdone]; exact Bool.false_ne_true), onForm_formOk hform, fillCommand_ready _ hready hpass, State.strideNow]
  dsimp only
  rw [if_neg (by rw [hsrc]; exact Bool.false_ne_true), if_neg (by rw [hdst]; exact Bool.false_ne_true), hread]

theorem execTranspose_moves {srcAddr dstAddr dstPitch : Nat} {src : Pattern} {s1 : State} {rows : List (List PByte)}
    (hdone : s.badCompletion e.core done = false) (h : Starts s e qStore r u [])
    (hform : Instr.WellFormed (.transpose e srcAddr src dstAddr dstPitch done))
    (hsrc : inCore (srcAddr + ((blockShape src).1 - 1) * (blockShape src).2) 16 = true)
    (hdst : inCore (dstAddr + ((blockShape src).1 - 1) * dstPitch) 16 = true)
    (hread : (storeIssued s e u).cmRows e.tag e.core srcAddr (blockShape src).2 (blockShape src).1 = (s1, rows)) :
    exec (.transpose e srcAddr src dstAddr dstPitch done) s = .next (s1.onMem e.tag e.core fun k => storeStarted e.tag done
      (putAll ((List.range (blockShape src).1).map fun j =>
        (dstAddr + j * dstPitch, part (blockRows src rows) (16 * j) 16)) k)) := by
  obtain ⟨hready, hpass⟩ := h
  rw [storeIssued] at hread
  show execTranspose e srcAddr src dstAddr dstPitch done s = _
  unfold execTranspose
  rw [if_neg (by rw [hdone]; exact Bool.false_ne_true), onForm_formOk hform, fillCommand_ready _ hready hpass,
    State.transposeNow]
  dsimp only
  rw [if_neg (by rw [hsrc]; exact Bool.false_ne_true), if_neg (by rw [hdst]; exact Bool.false_ne_true), hread]

end

/-- Settles O21, command by command. -/
theorem storeEngineWritesCoreMemory : Obligations.StoreEngineWritesCoreMemory := by
  unfold Obligations.StoreEngineWritesCoreMemory
  rintro s e done r u s0 hdone h rfl
  have hissued := issued_storeIssued s e u
  refine ⟨fun dst len pattern hdst hlen hpos hin => ⟨?_, fun herr => fill_bytes hdone h hdst hlen hpos hin herr⟩,
    fun src dst len s1 d hsrc hdst hlen hpos hinSrc hinDst hread =>
      ⟨?_, fun herr => copy_bytes hdone h hsrc hdst hlen hpos hinSrc hinDst herr⟩, ?_, ?_, ?_⟩
  · exact (execFill_starts hdone h).trans (congrArg _ (fillNow_writes (storeIssued s e u) hdst hlen hpos hin))
  · exact (execCopy_starts hdone h).trans
      (congrArg _ (copyNow_writes (t := storeIssued s e u) hsrc hdst hlen hpos hinSrc hinDst hread))
  · rintro dst pattern i (rfl | ⟨src, rfl⟩)
    · exact empty_completes h (execFill_starts hdone h)
    · exact empty_completes h (execCopy_starts hdone h)
  · intro srcAddr dstAddr count src dst s1 d hform hsrc hdst hread
    obtain ⟨hbusy, hmem⟩ := core_storeStarted_onMem s1 e.tag e.core done ((List.range count).map fun k =>
      (strideAt dstAddr (strideSize dst src) k dst,
        strideElem (strideSize src dst) (strideSize dst src) (part d (strideSize src dst * k) (strideSize src dst))))
    refine ⟨_, execStride_moves hdone h hform hsrc hdst hread, hbusy, hmem, (mwy_onMem s1 _ _ _).trans ?_⟩
    exact ((congrArg (fun p => p.1.mwy) hread).symm.trans (mwy_cmPieces _ _ _ _)).trans hissued.mwy
  · intro srcAddr dstAddr dstPitch src s1 rows hform hsrc hdst hread
    obtain ⟨hbusy, hmem⟩ := core_storeStarted_onMem s1 e.tag e.core done ((List.range (blockShape src).1).map fun j =>
      (dstAddr + j * dstPitch, part (blockRows src rows) (16 * j) 16))
    refine ⟨_, execTranspose_moves hdone h hform hsrc hdst hread, hbusy, hmem, (mwy_onMem s1 _ _ _).trans ?_⟩
    exact ((congrArg (fun p => p.1.mwy) hread).symm.trans (mwy_cmRows _ _ _ _ _ _)).trans hissued.mwy

end Sys2Proof.Machine
end

section
/-! SUPPORT. What stands between two invocations of a ring (R114, R128, R230, R315, R316): slots claimed and dropped, contexts
stepped, pages moved. `Housework s t` says what of cores and rings that work leaves alone. -/

namespace Sys2Proof.Machine

/-- Cores are as before but for their traces and translations; rings but for their slots, fault queues and contexts. -/
structure Housework (s t : State) : Prop where
  core : ∀ c : Fin 16, t.core c = { (s.core c).withTrace (t.core c) with tlb := (t.core c).tlb }
  ring : ∀ q : Fin 8, t.ring q = { s.ring q with
    slots := (t.ring q).slots, faults := (t.ring q).faults, ctxs := (t.ring q).ctxs, admission := (t.ring q).admission
    claimed := (t.ring q).claimed, serial := (t.ring q).serial }

namespace Housework

variable {s t u : State} {r : Fin 8} {x : Fin 4096}

theorem refl (s : State) : Housework s s := ⟨fun _ => rfl, fun _ => rfl⟩

theorem trans (h : Housework s t) (g : Housework t u) : Housework s u := by
  refine ⟨fun c => ?_, fun q => ?_⟩
  · rw [g.core c, h.core c]
    rfl
  · rw [g.ring q, h.ring q]

/-- What changes neither cores nor rings. -/
theorem same (h : Housework s t) (hc : u.cores = t.cores) (hr : u.rings = t.rings) : Housework s u :=
  h.trans ⟨fun c => by rw [State.core, State.core, hc]; rfl, fun q => by rw [State.ring, State.ring, hr]⟩

theorem undisturbed (h : Housework s t) (g : Undisturbed (List.finRange 8) t u) : Housework s u :=
  h.trans ⟨fun c => by rw [g.core c]; rfl, fun q => by rw [g.ring q (List.mem_finRange q)]⟩

theorem traces {c : Fin 16} (h : Housework s t) (g : Traces c t u) : Housework s u := h.undisturbed (g.undisturbed _)

theorem reports (h : Housework s t) (g : Reports t u) : Housework s u := h.traces (g.traces 0)

theorem ite {b : Prop} {_ : Decidable b} (ht : Housework s t) (hu : Housework s u) : Housework s (if b then t else u) := by
  split
  · exact ht
  · exact hu

theorem iteFst {α : Type} {b : Prop} {_ : Decidable b} {p q : State × α} (hp : Housework s p.1) (hq : Housework s q.1) :
    Housework s (if b then p else q).1 := by
  split
  · exact hp
  · exact hq

theorem foldl {α : Type} {f : State → α → State} {l : List α} (h : Housework s t)
    (hf : ∀ t a, Housework s t → Housework s (f t a)) : Housework s (l.foldl f t) :=
  foldl_keeps (fun t a ht => hf t a ht) l t h

theorem setReg {g : Reg} {v : Word} (h : Housework s t) : Housework s (t.setReg g v) := h.same rfl rfl

theorem setFld {g : Reg} {f : Fld} {n : Nat} (h : Housework s t) : Housework s (t.setFld g f n) := h.setReg

theorem bump {g : Reg} {f : Fld} {n : Nat} (h : Housework s t) : Housework s (t.bump g f n) := h.setReg

theorem onRing {f : Ring → Ring} (h : Housework s t)
    (hf : ∀ k : Ring, f k = { k with
      slots := (f k).slots, faults := (f k).faults, ctxs := (f k).ctxs, admission := (f k).admission
      claimed := (f k).claimed, serial := (f k).serial } := by intros; rfl) : Housework s (t.onRing r f) := by
  refine h.trans ⟨fun _ => rfl, fun q => ?_⟩
  by_cases hq : r = q
  · subst hq
    rw [ring_onRing]
    exact hf _
  · rw [ring_onRing_ne t f hq]

theorem access (s : State) : AccessKeeps (Housework s) where
  traces := fun h g => h.traces g
  eccCount := fun h => h.setReg
  sliceStatus := fun h => h.setReg
  midway := fun h => h.same rfl rfl
  lines := fun h => h.same rfl rfl

/-! ## Contexts and their pages -/

theorem ptPut {n : Nat} {e : DWord} (h : Housework s t) : Housework s (t.ptPut x n e) := by
  have hwritten := h.reports (reports_ownWrite t .booth (ptAddr (t.ctxBase x + n)) (leBytes 8 e.toNat))
  refine hwritten.trans ⟨fun c => ?_, fun _ => rfl⟩
  unfold State.ptPut State.core
  simp only [Fin.getElem_fin, Vector.getElem_map]
  rfl

theorem frameRead {tier : Bool} {frame : Nat} (h : Housework s t) : Housework s (t.frameRead r tier frame).1 :=
  .iteFst ((access s).mwyRead h) ((access s).dramRead h rfl)

theorem frameWrite {tier : Bool} {frame gen : Nat} {d : List PByte} (h : Housework s t) :
    Housework s (t.frameWrite r tier frame gen d) :=
  .ite ((access s).mwyWrite h) ((access s).dramWrite h rfl)

theorem setCtxState {st : Nat} (h : Housework s t) : Housework s (t.setCtxState x st) := h.setFld

theorem onCtx {f : CtxInfo → CtxInfo} (h : Housework s t) : Housework s (t.onCtx r x f) := h.onRing

theorem pageDrop {n gen : Nat} (h : Housework s t) : Housework s (t.pageDrop r x n gen) := by
  unfold State.pageDrop State.pageSend
  split
  · exact h.reports (reports_sendOwn _ _ _ _ _ _ _ _)
  · exact h

theorem freeContext (h : Housework s t) : Housework s (t.freeContext r x) := by
  unfold State.freeContext
  exact ((h.foldl fun _ _ h => h.pageDrop).foldl fun _ _ h => h.ptPut).onRing.setCtxState

theorem settleSwap (h : Housework s t) : Housework s (t.settleSwap r x) := by
  unfold State.settleSwap
  split
  · exact h
  · split
    · exact h
    · exact .ite h.freeContext (.ite (.ite h.setCtxState.setFld (.ite h.setCtxState h))
        (.ite (.ite h.setCtxState.setFld.onCtx (.ite h.setCtxState h)) h))

theorem beginClose (h : Housework s t) : Housework s (t.beginClose r x) := h.setCtxState.onCtx.settleSwap

theorem demote {n : Nat} (h : Housework s t) : Housework s (t.demote r x n) := by
  unfold State.demote
  dsimp only
  split
  · exact h
  · split
    · exact h
    · exact h.frameRead.frameWrite.ptPut

theorem contextDone {keep : List Nat} {n : Nat} (h : Housework s t) : Housework s (t.contextDone r keep n) :=
  .ite h.onCtx (.ite h.onCtx.beginClose (.ite h.onCtx h.onCtx.setCtxState))

theorem stepEnds {i : Invocation} (h : Housework s t) : Housework s (t.stepEnds r i) := by
  have hdemoted : Housework s (t.demoteAll r) := h.foldl fun _ _ h => h.foldl fun _ _ h => h.demote
  unfold State.stepEnds
  extract_lets keep
  exact (hdemoted.foldl fun _ _ h => h.contextDone).onRing

theorem stepContexts {i : Invocation} (h : Housework s t) : Housework s (t.stepContexts r i) := h.foldl fun _ _ h => h.onCtx

theorem releaseContexts (h : Housework s t) : Housework s (t.releaseContexts r) := by
  have hfreed : Housework s ((t.ring r).ctxs.foldl (fun s p => s.freeContext r (ctxFin p.1)) t) :=
    h.foldl fun _ _ h => h.freeContext
  unfold State.releaseContexts
  dsimp only
  split
  · exact hfreed.same rfl rfl
  · exact hfreed

theorem disableStreams (h : Housework s t) : Housework s (t.disableStreams r) := by
  refine h.foldl fun t x h => .ite ?_ h
  have hoff : Housework s ((t.onStream x fun k => { k with opened := none, ready := [], times := [], views := [] }).streamOff x) :=
    .setFld (h.same rfl rfl)
  exact .ite hoff.setFld hoff

/-! ## Result slots -/

theorem markHeld {slot : Nat} (h : Housework s t) : Housework s (t.markHeld r slot) := h.foldl fun _ _ h => h.setFld

theorem claimSlot {i : Invocation} {stream : Fin 16} {n : Nat} {overwrite : Bool} (h : Housework s t) :
    Housework s (t.claimSlot r i stream n overwrite) := by
  unfold State.claimSlot
  extract_lets k serial s1 slot s2
  have hcounted : Housework s s1 := .ite h.bump.setFld h
  have hput : Housework s s2 := hcounted.onRing
  exact (access s).bufWrite hput

theorem claimAll {i : Invocation} (h : Housework s t) : Housework s (t.claimAll r i) := by
  refine h.markHeld.foldl fun t x h => ?_
  split
  · exact h.claimSlot
  · exact h

end Housework

/-! ## The start -/

/-- A core as an invocation finds it: flags clear, queues at their first command, the parameter block from address 0. -/
structure CoreStarted (i : Invocation) (k : Core) : Prop where
  flags : k.flags = 0
  flagPend : k.flagPend = []
  queue : ∀ q : Fin 5, k.queues[q].fresh = true ∧ k.queues[q].ended = false ∧ k.queues[q].prog = 0
  params : ∀ j < i.params.length, smGet 0 k.mem j = i.params.getD j 0

theorem queue_freshCore (k : Core) (q : Fin 5) :
    (freshCore k).queues[q] = { k.queues[q] with fresh := true, ended := false, prog := 0, wait := none, probe := .idle } := by
  simp only [freshCore, Fin.getElem_fin, Vector.getElem_map]

theorem Core.withTrace_queues (k j : Core) : (k.withTrace j).queues = k.queues := rfl

/-- One core started: the block copied, flags and queues fresh, the start traced (R114, R451). -/
def startCore (r : Fin 8) (i : Invocation) (s : State) (c : Fin 16) : State :=
  ((s.cmWrite (noCommand r) c 0 (cleanBytes i.params)).onCore c freshCore).trace c evInvoke (noCommand r) i.slot

section
variable (s : State) (r : Fin 8) (i : Invocation)

theorem startCores_eq_foldl : s.startCores r i = (s.coresOf r).foldl (startCore r i) s := rfl

theorem coreStarted_startCore (c : Fin 16) : CoreStarted i ((startCore r i s c).core c) := by
  unfold startCore
  rw [(traces_trace _ _ _ _ _ _).core c, core_onCore, State.cmWrite, core_onMem]
  refine ⟨rfl, rfl, fun q => ?_, fun j hj => ?_⟩
  · have hqueue := queue_freshCore (({ corePut 0 (cleanBytes i.params) (s.core c) with ecc := [] } : Core).withTrace
      ((s.onMem (noCommand r) c (corePut 0 (cleanBytes i.params))).core c)) q
    exact ⟨by rw [Core.withTrace_queues, hqueue], by rw [Core.withTrace_queues, hqueue], by rw [Core.withTrace_queues, hqueue]⟩
  · show smGet 0 (smWrite 0 _ 0 (rawBytes (cleanBytes i.params))) j = _
    rw [smGet_smWrite, rawBytes_cleanBytes, if_pos ⟨Nat.zero_le j, by omega⟩, Nat.sub_zero]

/-- The start of a core leaves the others alone but for their traces. -/
theorem core_startCore_ne {c d : Fin 16} (h : c ≠ d) :
    (startCore r i s c).core d = (s.core d).withTrace ((startCore r i s c).core d) := by
  have htraced := (traces_trace ((s.cmWrite (noCommand r) c 0 (cleanBytes i.params)).onCore c freshCore) c evInvoke
    (noCommand r) i.slot 15).core d
  rw [core_onCore_ne _ _ h, State.cmWrite, core_onMem_ne _ _ _ h] at htraced
  exact htraced

theorem ringStands_startCore (c : Fin 16) (q : Fin 8) : RingStands q s (startCore r i s c) :=
  ((RingStands.refl q s).cmWrite.trans (RingStands.same (.refl q _) rfl)).trans ((traces_trace _ _ _ _ _ _).ring q)

theorem coreStarted_startCore_of {c d : Fin 16} (h : CoreStarted i (s.core d)) : CoreStarted i ((startCore r i s c).core d) := by
  by_cases hc : c = d
  · subst hc
    exact coreStarted_startCore s r i c
  · rw [core_startCore_ne s r i hc]
    exact ⟨h.flags, h.flagPend, h.queue, h.params⟩

theorem coreStarted_foldl_startCore {c : Fin 16} {l : List (Fin 16)} (hc : c ∈ l) :
    CoreStarted i ((l.foldl (startCore r i) s).core c) := by
  induction l generalizing s with
  | nil => cases hc
  | cons d l ih =>
    rcases List.mem_cons.mp hc with rfl | hc
    · exact foldl_keeps (P := fun t => CoreStarted i (t.core c)) (fun t d h => coreStarted_startCore_of t r i h) l _
        (coreStarted_startCore s r i c)
    · exact ih _ hc

theorem core_foldl_startCore_ne {c : Fin 16} {l : List (Fin 16)} (hc : c ∉ l) :
    (l.foldl (startCore r i) s).core c = (s.core c).withTrace ((l.foldl (startCore r i) s).core c) := by
  induction l generalizing s with
  | nil => rfl
  | cons d l ih =>
    obtain ⟨hd, hl⟩ := not_or.mp (mt List.mem_cons.mpr hc)
    have hrest := ih (startCore r i s d) hl
    rw [core_startCore_ne s r i (Ne.symm hd)] at hrest
    exact hrest

theorem ringStands_startCores (q : Fin 8) : RingStands q s (s.startCores r i) :=
  foldl_keeps (P := RingStands q s) (fun t c h => h.trans (ringStands_startCore t r i c q)) _ _ (.refl q s)

theorem shownKept_claimAll : ShownKept [] s (s.claimAll r i) := by
  have hmarked : ShownKept [] s (s.markHeld r i.slot) := (ShownKept.refl [] s).foldl fun _ _ h => h.setFld rfl
  refine hmarked.foldl fun t x h => ?_
  split
  next n overwrite _ =>
    unfold State.claimSlot
    extract_lets k serial s1 slot s2
    have hcounted : ShownKept [] s s1 := .ite ((h.bump rfl).setFld rfl) h
    have hput : ShownKept [] s s2 := hcounted.onRing
    exact (ShownKept.access [] s).bufWrite hput
  next => exact h

end

/-- What the start of an invocation leaves of rings and cores. -/
structure InvocationStarted (r : Fin 8) (i : Invocation) (s t : State) : Prop where
  current : (t.ring r).current = some i
  waiting : (t.ring r).waiting = (s.ring r).waiting.drop 1
  flags : ∀ q : Fin 8, (t.ring q).flags = (s.ring q).flags
  started : ∀ c ∈ s.coresOf r, CoreStarted i (t.core c)
  others : ∀ c : Fin 16, c ∉ s.coresOf r → (t.core c).mem = (s.core c).mem ∧ (t.core c).flags = (s.core c).flags

theorem InvocationStarted.housework {r : Fin 8} {i : Invocation} {s t u : State} (h : InvocationStarted r i s t)
    (g : Housework t u) : InvocationStarted r i s u := by
  refine ⟨by rw [g.ring r]; exact h.current, by rw [g.ring r]; exact h.waiting,
    fun q => by rw [g.ring q]; exact h.flags q, fun c hc => ?_, fun c hc => by rw [g.core c]; exact h.others c hc⟩
  obtain ⟨hflags, hpend, hqueue, hparams⟩ := h.started c hc
  rw [g.core c]
  exact ⟨hflags, hpend, hqueue, hparams⟩

/-- The ring takes the invocation from its pending list. -/
def takeInvocation (s : State) (r : Fin 8) (i : Invocation) : State :=
  s.onRing r fun k =>
    { k with waiting := k.waiting.drop 1, current := some i, master := {}, ports := .replicate 4 none, tests := [] }

theorem invocationStarted_startCores (s : State) (r : Fin 8) (i : Invocation) :
    InvocationStarted r i s ((takeInvocation (s.claimAll r i) r i).startCores r i) := by
  have hclaimed : Housework s (s.claimAll r i) := (Housework.refl s).claimAll
  have hcores : (takeInvocation (s.claimAll r i) r i).coresOf r = s.coresOf r :=
    (shownKept_claimAll s r i).onRing.coresOf (by simp)
  have htaken : (takeInvocation (s.claimAll r i) r i).ring r = _ := ring_onRing _ r _
  have hring := ringStands_startCores (takeInvocation (s.claimAll r i) r i) r i
  refine ⟨by rw [hring r, htaken], ?_, fun q => ?_, fun c hc => ?_, fun c hc => ?_⟩
  · rw [hring r, htaken, hclaimed.ring r]
  · rw [hring q]
    by_cases hq : r = q
    · subst hq
      rw [htaken, hclaimed.ring r]
    · rw [takeInvocation, ring_onRing_ne _ _ hq, hclaimed.ring q]
  · rw [startCores_eq_foldl, hcores]
    exact coreStarted_foldl_startCore _ r i hc
  · rw [startCores_eq_foldl, hcores, core_foldl_startCore_ne _ r i hc, takeInvocation, core_onRing, hclaimed.core c]
    exact ⟨rfl, rfl⟩

theorem invocationStarted_startInvocation (s : State) (r : Fin 8) (i : Invocation) :
    InvocationStarted r i s (s.startInvocation r i) := by
  have hstepped := (invocationStarted_startCores s r i).housework ((Housework.refl _).stepContexts (r := r) (i := i))
  unfold State.startInvocation
  extract_lets s1 s2 s3
  split
  · exact hstepped.housework (.reports (.refl _) (reports_replyStatus _ _ _ _))
  · exact hstepped

theorem exec_invocationStart {s : State} {r : Fin 8} {i : Invocation} (h : s.headReady r = some i) :
    exec (.invocationStart r) s = .next (if s.canClaim r i.slot then s.startInvocation r i else s.markHeld r i.slot) := by
  show execInvocationStart r s = _
  rw [execInvocationStart, h]

/-! ## The end -/

/-- One core at the end of an invocation: its writes visible, its gathering buffer flushed, its end traced (R114, R155). -/
def endCore (r : Fin 8) (i : Invocation) (s : State) (c : Fin 16) : State :=
  ((s.toSlot c (quietSlot (s.core c))).onMem (noCommand r) c flushAll).trace c evEnd (noCommand r) i.slot

/-- Triggers add to pending lists, and count what finds no room: cores, and rings but for their pending lists, are as before. -/
structure Fired (s t : State) : Prop where
  cores : t.cores = s.cores
  ring : ∀ q : Fin 8, t.ring q = { s.ring q with waiting := (t.ring q).waiting }

theorem fired_fire (s : State) (r : Fin 8) (kind arg : Nat) (stamp : DWord) : Fired s (s.fire r kind arg stamp) := by
  refine foldl_keeps (P := Fired s) (fun t slot h => ?_) _ _ ⟨rfl, fun _ => rfl⟩
  obtain ⟨hcores, hring⟩ := h
  split
  case isFalse => exact ⟨hcores, hring⟩
  case isTrue =>
    unfold State.queueTrigger
    split
    · exact ⟨hcores, hring⟩
    · split
      · refine ⟨hcores, fun q => ?_⟩
        by_cases hq : r = q
        · subst hq
          rw [ring_onRing, hring r]
        · rw [ring_onRing_ne _ _ hq]
          exact hring q
      · exact ⟨hcores, hring⟩

section
variable (s : State) (r : Fin 8) (i : Invocation)

theorem endCores_eq_foldl : s.endCores r i = (s.coresOf r).foldl (endCore r i) s := rfl

theorem Core.withTrace_gather (k j : Core) : (k.withTrace j).gather = k.gather := rfl

theorem gather_withoutEcc (k : Core) : ({ k with ecc := [] } : Core).gather = k.gather := rfl

theorem gather_endCore (c : Fin 16) : ((endCore r i s c).core c).gather = [] := by
  unfold endCore
  rw [(traces_trace _ _ _ _ _ _).core c, Core.withTrace_gather, core_onMem, Core.withTrace_gather, gather_withoutEcc,
    gather_flushAll]

theorem gather_endCore_ne {c d : Fin 16} (h : c ≠ d) : ((endCore r i s c).core d).gather = (s.core d).gather := by
  unfold endCore
  rw [(traces_trace _ _ _ _ _ _).core d, Core.withTrace_gather, core_onMem_ne _ _ _ h, Core.withTrace_gather,
    (issued_toSlot s c _).other d (Ne.symm h), Core.withTrace_gather]

theorem ringStands_endCore (c : Fin 16) (q : Fin 8) : RingStands q s (endCore r i s c) := by
  have hmoved : RingStands q s (s.toSlot c (quietSlot (s.core c))) := (issued_toSlot s c _).ring q
  have hset := hmoved.same (u := (s.toSlot c (quietSlot (s.core c))).setCore c
    { flushAll ((s.toSlot c (quietSlot (s.core c))).core c) with ecc := [] }) rfl
  exact (hset.undisturbed (undisturbed_onMem [q] _ (noCommand r) c flushAll)).trans ((traces_trace _ _ _ _ _ _).ring q)

theorem ringStands_endCores (q : Fin 8) : RingStands q s (s.endCores r i) :=
  foldl_keeps (P := RingStands q s) (fun t c h => h.trans (ringStands_endCore t r i c q)) _ _ (.refl q s)

theorem gather_endCore_of {c d : Fin 16} (h : (s.core d).gather = []) : ((endCore r i s c).core d).gather = [] := by
  by_cases hd : c = d
  · rw [hd]
    exact gather_endCore s r i d
  · exact (gather_endCore_ne s r i hd).trans h

theorem gather_foldl_endCore_of {c : Fin 16} (l : List (Fin 16)) (h : (s.core c).gather = []) :
    ((l.foldl (endCore r i) s).core c).gather = [] := by
  induction l generalizing s with
  | nil => exact h
  | cons d l ih =>
    rw [List.foldl_cons]
    exact ih _ (gather_endCore_of s r i h)

theorem gather_foldl_endCore {c : Fin 16} {l : List (Fin 16)} (hc : c ∈ l) : ((l.foldl (endCore r i) s).core c).gather = [] := by
  induction l generalizing s with
  | nil => cases hc
  | cons d l ih =>
    rw [List.foldl_cons]
    rcases List.mem_cons.mp hc with rfl | hc
    · exact gather_foldl_endCore_of _ r i l (gather_endCore s r i c)
    · exact ih _ hc

end

/-- The contexts' step over, the invocation gone, before the triggers of its end (R114, R230, R316). -/
def beforeDone (s : State) (r : Fin 8) (i : Invocation) : State :=
  (((s.endCores r i).dropUnposted r).stepEnds r i).onRing r fun k => { k with current := none }

theorem endInvocation_eq_fire (s : State) (r : Fin 8) (i : Invocation) :
    s.endInvocation r i = (beforeDone s r i).fire r 4 i.slot 0 := rfl

/-- What the end of an invocation leaves of rings and cores. -/
structure InvocationEnded (r : Fin 8) (s t : State) : Prop where
  current : (t.ring r).current = none
  flags : ∀ q : Fin 8, (t.ring q).flags = (s.ring q).flags
  gather : ∀ c ∈ s.coresOf r, (t.core c).gather = []

theorem invocationEnded_endInvocation (s : State) (r : Fin 8) (i : Invocation) :
    InvocationEnded r s (s.endInvocation r i) := by
  have hwork : Housework (s.endCores r i) (((s.endCores r i).dropUnposted r).stepEnds r i) :=
    ((Housework.refl _).undisturbed (undisturbed_dropUnposted _ _ r)).stepEnds
  have hring : (beforeDone s r i).ring r = _ := ring_onRing _ r _
  obtain ⟨hcores, hrings⟩ := fired_fire (beforeDone s r i) r 4 i.slot 0
  rw [endInvocation_eq_fire]
  refine ⟨by rw [hrings r, hring], fun q => ?_, fun c hc => ?_⟩
  · have hflags : ((((s.endCores r i).dropUnposted r).stepEnds r i).ring q).flags = (s.ring q).flags := by
      rw [hwork.ring q, ringStands_endCores s r i q]
    rw [hrings q]
    by_cases hq : r = q
    · subst hq
      rw [hring]
      exact hflags
    · rw [beforeDone, ring_onRing_ne _ _ hq]
      exact hflags
  · rw [State.core, hcores, ← State.core, beforeDone, core_onRing, hwork.core c, endCores_eq_foldl]
    exact gather_foldl_endCore s r i hc

theorem exec_invocationEnd (s : State) (r : Fin 8) : exec (.invocationEnd r) s = .next (match (s.ring r).current with
    | some i => if s.ringClocked r && s.allEnded r then s.endInvocation r i else s
    | none => s) := rfl

/-! ## Flags over the end of a stop -/

section
variable (s : State) {r q : Fin 8}

/-- The end of a stop clears the flags of its own ring alone (R52, R128). -/
theorem flags_clearRing_ne (h : r ≠ q) : ((s.clearRing r).ring q).flags = (s.ring q).flags := by
  have hreleased : Housework s (s.releaseContexts r) := (Housework.refl s).releaseContexts
  have hclosed : Housework s (((s.releaseContexts r).closeWindows r).disableStreams r) :=
    (hreleased.foldl fun _ _ h => .ite h.setFld h).disableStreams
  unfold State.clearRing
  extract_lets s1 s2
  obtain ⟨-, hunbound, -⟩ := unbindEndpoints_keeps
    (((s2.zeroSlices r).zeroRegions r).onRing r fun k => { k with flags := 0, slots := [] }) r
  have hzeroed : s2.rings = s1.rings := foldl_same State.rings _ _
  have hslices : (s2.zeroSlices r).rings = s1.rings := (foldl_same State.rings _ _).trans hzeroed
  have hregions : ((s2.zeroSlices r).zeroRegions r).rings = s1.rings := by
    unfold State.zeroRegions
    split
    · exact hslices
    · exact hslices
  rw [State.ring, hunbound, ← State.ring, ring_onRing_ne _ _ h, State.ring, hregions, ← State.ring, hclosed.ring q]

theorem flags_stoppedNow_ne (h : r ≠ q) : ((s.stoppedNow r).ring q).flags = (s.ring q).flags := by
  have hdropped : ((s.dropEntries r).ring q).flags = (s.ring q).flags := by rw [(onlyCrossings_dropEntries s r).ring]
  unfold State.stoppedNow
  extract_lets s0 s1 cause s2
  have hs1 : (s1.ring q).flags = (s.ring q).flags := by
    unfold s1
    split
    · exact (flags_clearRing_ne _ h).trans hdropped
    · exact hdropped
  have hs2 : (s2.ring q).flags = (s.ring q).flags := by
    unfold s2
    split
    · exact ((congrArg Ring.flags ((ringTurn_releaseRing s1 r).others q (Ne.symm h))).trans hs1)
    · exact hs1
  exact hs2

end

/-- Settles O60: the start clears the flags of the ring's cores, start and end keep those of the rings, and a stop clears its own
ring's. -/
theorem flagsAcrossInvocations : Obligations.FlagsAcrossInvocations := by
  unfold Obligations.FlagsAcrossInvocations
  intro s r
  refine ⟨fun i hready hclaim => ?_, ?_, fun hstopping hdrained hanswers hbound => ?_⟩
  · have hstarted := invocationStarted_startInvocation s r i
    exact ⟨_, by rw [exec_invocationStart hready, if_pos hclaim], hstarted.current,
      fun c hc => ⟨(hstarted.started c hc).flags, (hstarted.started c hc).flagPend⟩, hstarted.flags⟩
  · refine ⟨_, exec_invocationEnd s r, fun q => ?_⟩
    split
    · split
      · exact (invocationEnded_endInvocation s r _).flags q
      · rfl
    · rfl
  · exact ⟨s.stoppedNow r, by rw [exec_stopComplete, if_pos ⟨hstopping, hdrained, hanswers⟩],
      (zeroised_stoppedNow s hbound).flags, fun q hq => flags_stoppedNow_ne s (Ne.symm hq)⟩

end Sys2Proof.Machine
end

section
/-! SUPPORT. The statement about the start and the end of an invocation (R114, R315, R316). No slot becomes PENDING but by a
claim: reports, records, traces and messages leave none behind, nor do pages that move and contexts whose step is over; a message
that has passed makes a READY slot TAKEN. -/

namespace Sys2Proof.Machine

/-- No slot of a ring is PENDING. -/
def NoPending (g : Fin 8) (s : State) : Prop := ∀ p ∈ (s.ring g).slots, p.2.state ≠ .pending

/-- Of the slots of a ring after one is put, each is that one or stood there before. -/
theorem mem_slotPut {n : Nat} {v : Option ResultSlot} {k : Ring} {p : Nat × ResultSlot}
    (h : p ∈ (slotPut n v k).slots) : (∃ x ∈ v, p = (n, x)) ∨ p ∈ k.slots ∧ p.1 ≠ n := by
  cases v with
  | none => simpa [slotPut] using h
  | some x =>
    simp only [slotPut, List.mem_append, List.mem_filter, List.mem_singleton] at h
    rcases h with ((⟨⟨hp, hne⟩, -⟩ | rfl) | ⟨⟨hp, hne⟩, -⟩)
    · exact .inr ⟨hp, by simpa using hne⟩
    · exact .inl ⟨x, rfl, rfl⟩
    · exact .inr ⟨hp, by simpa using hne⟩

namespace NoPending

variable {g r : Fin 8} {s u : State} {c : Fin 16} {tag : Tag}

/-- What changes no ring. -/
theorem same (h : NoPending g s) (hu : u.rings = s.rings) : NoPending g u := by
  unfold NoPending State.ring at *
  rwa [hu]

theorem ite {b : Prop} {_ : Decidable b} (hs : NoPending g s) (hu : NoPending g u) : NoPending g (if b then s else u) := by
  split
  · exact hs
  · exact hu

theorem iteFst {α : Type} {b : Prop} {_ : Decidable b} {p q : State × α} (hp : NoPending g p.1) (hq : NoPending g q.1) :
    NoPending g (if b then p else q).1 := by
  split
  · exact hp
  · exact hq

theorem of_eq {α : Type} {p : State × α} {t : State} {a : α} (heq : p = (t, a)) (h : NoPending g p.1) : NoPending g t := by
  rwa [heq] at h

theorem foldl {α : Type} {f : State → α → State} {l : List α} (h : NoPending g s)
    (hf : ∀ t a, NoPending g t → NoPending g (f t a)) : NoPending g (l.foldl f s) := foldl_keeps hf l s h

theorem onRing {f : Ring → Ring} (h : NoPending g s)
    (hf : ∀ k : Ring, (∀ p ∈ k.slots, p.2.state ≠ .pending) → ∀ p ∈ (f k).slots, p.2.state ≠ .pending := by
      exact fun _ hk => hk) : NoPending g (s.onRing r f) := by
  unfold NoPending
  by_cases hr : r = g
  · subst hr
    rw [ring_onRing]
    exact hf _ h
  · rw [ring_onRing_ne s f hr]
    exact h

theorem setReg {q : Reg} {v : Word} (h : NoPending g s) : NoPending g (s.setReg q v) := h.same rfl

theorem setFld {q : Reg} {f : Fld} {n : Nat} (h : NoPending g s) : NoPending g (s.setFld q f n) := h.setReg

theorem bump {q : Reg} {f : Fld} {n : Nat} (h : NoPending g s) : NoPending g (s.bump q f n) := h.setReg

theorem onEp {e : Fin 64} {f : Endpoint → Endpoint} (h : NoPending g s) : NoPending g (s.onEp e f) := h.same rfl

theorem setCore {k : Core} (h : NoPending g s) : NoPending g (s.setCore c k) := h.same rfl

/-! ## Records and lines -/

theorem log {source code arg0 arg1 : Nat} (h : NoPending g s) : NoPending g (s.log source code arg0 arg1) :=
  .ite (h.same rfl) (h.same rfl)

theorem recordLost {ring : Option (Fin 8)} (h : NoPending g s) : NoPending g (s.recordLost ring) := by
  cases ring with
  | some r => exact h.bump.log
  | none => exact h.bump.log

theorem storeRecord {ring : Option (Fin 8)} {f : FaultRec} (h : NoPending g s) : NoPending g (s.storeRecord ring f) := by
  cases ring with
  | some r => exact .ite h.onRing h.onRing.recordLost
  | none =>
    have hstored : NoPending g { s with devFaults := (enqueueRecord 64 s.devFaults f).1 } := h.same rfl
    exact .ite hstored hstored.recordLost

theorem logRecord {ring : Option (Fin 8)} {faulting : Bool} {i : FaultInfo} {seq : Word} (h : NoPending g s) :
    NoPending g (s.logRecord ring faulting i seq) := by
  unfold State.logRecord
  split
  · exact .ite h.log h
  · exact .ite h.log (.ite h.log h)

theorem deviceRecord {i : FaultInfo} (h : NoPending g s) : NoPending g (s.deviceRecord i) := by
  have hseq : NoPending g { s with faultSeq := s.faultSeq + 1 } := h.same rfl
  exact hseq.storeRecord.logRecord

theorem ddrCount {n : Nat} {v : Verdict} (h : NoPending g s) : NoPending g (s.ddrCount n v) := by
  unfold State.ddrCount
  extract_lets u s1 s2
  have hcounted : NoPending g s1 := .ite h.bump (.ite h.bump (.ite h.bump (.ite h.bump h)))
  have hfixed : NoPending g s2 := .ite hcounted.bump hcounted
  exact .ite (hfixed.same rfl) hfixed

section
variable {rep : Bool → FaultInfo → State → State} {q : Requester}

theorem lineError {n access : Nat} {v : Verdict} (hrep : ∀ b i t, NoPending g t → NoPending g (rep b i t)) (h : NoPending g s) :
    NoPending g (State.lineError rep s q tag n access v) :=
  .ite h (hrep _ _ _ h.setReg.setReg.setReg)

theorem linesReadBy {gen : Option (BitVec 16)} {k n : Nat} (hrep : ∀ b i t, NoPending g t → NoPending g (rep b i t))
    (h : NoPending g s) : NoPending g (State.linesReadBy rep q tag gen k n s).1 := by
  induction k generalizing n s with
  | zero => exact h
  | succ k ih =>
    have hline : NoPending g (State.lineReadBy rep s q tag gen n).1 := h.ddrCount.lineError hrep
    unfold State.linesReadBy
    split
    next heq => exact .of_eq heq hline
    next heq =>
      have hrest := ih (n := n + 1) (.of_eq heq hline)
      split
      next heq' => exact .of_eq heq' hrest
      next heq' => exact .of_eq heq' hrest

theorem rangeReadBy {gen : Option (BitVec 16)} {a n : Nat} (hrep : ∀ b i t, NoPending g t → NoPending g (rep b i t))
    (h : NoPending g s) : NoPending g (State.rangeReadBy rep s q tag gen a n).1 := by
  unfold State.rangeReadBy
  split
  next heq => exact .of_eq heq (h.linesReadBy hrep)
  next heq => exact .of_eq heq (h.linesReadBy hrep)

theorem lineWriteBy {gen : BitVec 16} {n a : Nat} {d : List PByte} (hrep : ∀ b i t, NoPending g t → NoPending g (rep b i t))
    (h : NoPending g s) : NoPending g (State.lineWriteBy rep s q tag gen n a d).1 := by
  unfold State.lineWriteBy
  split
  · exact h.same rfl
  · extract_lets v s1
    have hchecked : NoPending g s1 := h.ddrCount.lineError hrep
    exact .iteFst hchecked (hchecked.same rfl)

theorem linesWriteBy {gen : BitVec 16} {k a : Nat} {d : List PByte} (hrep : ∀ b i t, NoPending g t → NoPending g (rep b i t))
    (h : NoPending g s) : NoPending g (State.linesWriteBy rep q tag gen k a d s).1 := by
  induction k generalizing a d s with
  | zero => exact h
  | succ k ih =>
    unfold State.linesWriteBy
    split
    · exact h
    · dsimp only
      split
      next heq => exact .of_eq heq (h.lineWriteBy hrep)
      next heq => exact ih (.of_eq heq (h.lineWriteBy hrep))

end

theorem ownRead {q : Requester} {a n : Nat} (h : NoPending g s) : NoPending g (s.ownRead q a n).1 :=
  h.rangeReadBy fun _ _ _ h => h.deviceRecord

theorem ownWrite {q : Requester} {a : Nat} {d : List Byte} (h : NoPending g s) : NoPending g (s.ownWrite q a d) :=
  h.linesWriteBy fun _ _ _ h => h.deviceRecord

/-! ## Messages -/

theorem portFrame {e : Fin 64} {m : Msg} (h : NoPending g s) : NoPending g (s.portFrame e m) := h.same rfl

theorem intLine {o : Nat} (h : NoPending g s) : NoPending g (s.intLine o).1 := h.ownRead

theorem areaEntry {e : Fin 64} {m : Msg} (h : NoPending g s) : NoPending g (s.areaEntry e m).1 := by
  unfold State.areaEntry
  split
  next hline =>
    have hread := NoPending.of_eq hline h.intLine
    extract_lets entry padded
    split
    · exact hread
    · extract_lets s2
      have hskipped : NoPending g s2 := .ite hread.ownWrite hread
      exact hskipped.ownWrite.ownWrite

theorem passed {e : Fin 64} {m : Msg} (h : NoPending g s) : NoPending g (s.passed e m) := by
  unfold State.passed
  extract_lets s1
  have hqueued : NoPending g s1 := h.onEp
  split
  · refine hqueued.onRing fun k hk p hp => ?_
    split at hp
    · split at hp
      · obtain ⟨x, hx, rfl⟩ | ⟨hp, -⟩ := mem_slotPut hp
        · cases hx
          simp
        · exact hk p hp
      · exact hk p hp
    · exact hk p hp
  · exact hqueued

theorem sendOne {e : Fin 64} (h : NoPending g s) : NoPending g (s.sendOne e).1 := by
  unfold State.sendOne
  split
  · exact h
  next m _ =>
    have hsent : NoPending g (if s.epInternal e then s.areaEntry e m else (s.portFrame e m, true)).1 :=
      .iteFst h.areaEntry h.portFrame
    split
    next s1 left hleft =>
      rw [hleft] at hsent
      split
      · exact hsent
      · extract_lets s2
        split
        · exact hsent.onEp.passed
        · exact hsent.onEp.onEp

theorem pump {e : Fin 64} {fuel : Nat} (h : NoPending g s) : NoPending g (State.pump e fuel s) := by
  induction fuel generalizing s with
  | zero => exact h
  | succ fuel ih =>
    unfold State.pump
    split
    next heq => exact ih (.of_eq heq h.sendOne)
    next heq => exact .of_eq heq h.sendOne

theorem sendOwn {e : Fin 64} {cls : Nat} {type : Byte} {id : Word} {stamp : DWord} {bad : List Nat} {body : List Byte}
    (h : NoPending g s) : NoPending g (s.sendOwn e cls type id stamp bad body) :=
  .ite h.onEp.onEp.pump h.onEp

theorem pushRecord {ring : Option (Fin 8)} {f : FaultRec} (h : NoPending g s) : NoPending g (s.pushRecord ring f) := by
  unfold State.pushRecord
  split
  · split
    · exact h.sendOwn
    · exact h
  · exact h

theorem fileRecord {ring : Option (Fin 8)} {faulting : Bool} {i : FaultInfo} {f : FaultRec} (h : NoPending g s) :
    NoPending g (s.fileRecord ring faulting i f) := h.storeRecord.pushRecord.logRecord

theorem recordUnseen {ring : Option (Fin 8)} {i : FaultInfo} (h : NoPending g s) : NoPending g (s.recordUnseen ring i) := by
  have hseq : NoPending g { s with faultSeq := s.faultSeq + 1 } := h.same rfl
  exact hseq.fileRecord

/-! ## Traces -/

theorem traceBatchOut {n : Nat} (h : NoPending g s) : NoPending g (s.traceBatchOut r c n) := by
  unfold State.traceBatchOut
  dsimp only
  split
  · exact h.setCore
  · exact h.setCore.sendOwn

theorem traceDumpOut {n : Nat} (h : NoPending g s) : NoPending g (s.traceDumpOut r c n) := by
  unfold State.traceDumpOut
  extract_lets k size off bytes base put
  have hput : ∀ t o d, NoPending g t → NoPending g (put t o d) := fun _ _ _ h => h.linesWriteBy fun _ _ _ h => h.recordUnseen
  exact (hput _ _ _ (hput _ _ _ h.setCore)).setFld

theorem traceLose (h : NoPending g s) : NoPending g (s.traceLose c) := h.same rfl

theorem traceStore {x : TraceRec} (h : NoPending g s) : NoPending g (s.traceStore r c x) := by
  unfold State.traceStore
  extract_lets taken k full
  split
  · exact .ite h.traceLose h.setCore
  · split
    · exact h.traceLose
    · extract_lets lost s1
      have hstored : NoPending g s1 := h.setCore
      exact .ite hstored.traceDumpOut (.ite hstored.traceBatchOut hstored)

theorem trace {event operand q : Nat} (h : NoPending g s) : NoPending g (s.trace c event tag operand q) := by
  unfold State.trace
  split
  · exact h
  · exact .ite h.traceStore h

theorem record {ring : Option (Fin 8)} {faulting : Bool} {i : FaultInfo} (h : NoPending g s) :
    NoPending g (s.record ring faulting i) := by
  have hseq : NoPending g { s with faultSeq := s.faultSeq + 1 } := h.same rfl
  unfold State.record
  exact (NoPending.ite hseq.trace hseq).fileRecord

/-! ## Frames of pages -/

theorem sliceDecode {n : Nat} (h : NoPending g s) : NoPending g (s.sliceDecode r tag n) := by
  have hbad : NoPending g (s.sliceBad (some r) tag n) := by
    unfold State.sliceBad
    exact NoPending.record (h.same rfl)
  unfold State.sliceDecode
  split
  · exact h
  · split
    · exact h
    · exact h.bump
    · exact hbad

theorem mwyRead {a n : Nat} (h : NoPending g s) : NoPending g (s.mwyRead r tag a n).1 :=
  (h.foldl fun _ _ h => h.sliceDecode).foldl fun _ _ h => h.setFld

theorem mwyWrite {a : Nat} {d : List PByte} (h : NoPending g s) : NoPending g (s.mwyWrite r tag a d) := by
  have hdecoded : NoPending g ((s.mwyWords r (partWords a d.length)).foldl (fun t w => t.sliceDecode r tag w) s) :=
    h.foldl fun _ _ h => h.sliceDecode
  exact hdecoded.same rfl

theorem report {q : Requester} (hq : q.faults = none) (b : Bool) (i : FaultInfo) (t : State) (h : NoPending g t) :
    NoPending g (q.report b i t) := by
  unfold Requester.report
  rw [hq]
  split
  · contradiction
  · exact h.record

theorem dramRead {q : Requester} {gen : Option (BitVec 16)} {a n : Nat} (h : NoPending g s) (hq : q.faults = none) :
    NoPending g (s.dramRead q tag gen a n).1 :=
  .iteFst h (.iteFst (h.rangeReadBy (report hq)) (report hq _ _ _ h))

theorem dramWrite {q : Requester} {gen : BitVec 16} {a : Nat} {d : List PByte} (h : NoPending g s) (hq : q.faults = none) :
    NoPending g (s.dramWrite q tag gen a d).1 :=
  .iteFst h (.iteFst (h.linesWriteBy (report hq)) (report hq _ _ _ h))

theorem frameRead {tier : Bool} {frame : Nat} (h : NoPending g s) : NoPending g (s.frameRead r tier frame).1 :=
  .iteFst h.mwyRead (h.dramRead rfl)

theorem frameWrite {tier : Bool} {frame gen : Nat} {d : List PByte} (h : NoPending g s) :
    NoPending g (s.frameWrite r tier frame gen d) :=
  .ite h.mwyWrite (h.dramWrite rfl)

/-! ## Contexts -/

variable {x : Fin 4096}

theorem ptPut {n : Nat} {e : DWord} (h : NoPending g s) : NoPending g (s.ptPut x n e) :=
  same (s := s.ownWrite .booth (ptAddr (s.ctxBase x + n)) (leBytes 8 e.toNat)) h.ownWrite rfl

theorem setCtxState {st : Nat} (h : NoPending g s) : NoPending g (s.setCtxState x st) := h.setFld

theorem onCtx {f : CtxInfo → CtxInfo} (h : NoPending g s) : NoPending g (s.onCtx r x f) := h.onRing

theorem pageDrop {n gen : Nat} (h : NoPending g s) : NoPending g (s.pageDrop r x n gen) := by
  unfold State.pageDrop State.pageSend
  split
  · exact h.sendOwn
  · exact h

theorem freeContext (h : NoPending g s) : NoPending g (s.freeContext r x) := by
  unfold State.freeContext
  exact ((h.foldl fun _ _ h => h.pageDrop).foldl fun _ _ h => h.ptPut).onRing.setCtxState

theorem settleSwap (h : NoPending g s) : NoPending g (s.settleSwap r x) := by
  unfold State.settleSwap
  split
  · exact h
  · split
    · exact h
    · exact .ite h.freeContext (.ite (.ite h.setCtxState.setFld (.ite h.setCtxState h))
        (.ite (.ite h.setCtxState.setFld.onCtx (.ite h.setCtxState h)) h))

theorem demote {n : Nat} (h : NoPending g s) : NoPending g (s.demote r x n) := by
  unfold State.demote
  dsimp only
  split
  · exact h
  · split
    · exact h
    · exact h.frameRead.frameWrite.ptPut

theorem contextDone {keep : List Nat} {n : Nat} (h : NoPending g s) : NoPending g (s.contextDone r keep n) :=
  .ite h.onCtx (.ite h.onCtx.setCtxState.onCtx.settleSwap (.ite h.onCtx h.onCtx.setCtxState))

theorem stepEnds {i : Invocation} (h : NoPending g s) : NoPending g (s.stepEnds r i) := by
  have hdemoted : NoPending g (s.demoteAll r) := h.foldl fun _ _ h => h.foldl fun _ _ h => h.demote
  unfold State.stepEnds
  extract_lets keep
  exact (hdemoted.foldl fun _ _ h => h.contextDone).onRing

end NoPending

/-! ## Slots that were not posted, streams without a slot -/

/-- The slots that stay when those of a list are dropped stood there before, and are none of the list. -/
theorem mem_slots_foldl_drop {r : Fin 8} (l : List (Nat × ResultSlot)) (count : State → Nat × ResultSlot → State)
    (hcount : ∀ t p, (count t p).rings = t.rings) (s : State) {p : Nat × ResultSlot}
    (h : p ∈ ((l.foldl (fun s p => count (s.onRing r (slotPut p.1 none)) p) s).ring r).slots) :
    p ∈ (s.ring r).slots ∧ p ∉ l := by
  induction l generalizing s with
  | nil => exact ⟨h, by simp⟩
  | cons q l ih =>
    obtain ⟨hmem, hl⟩ := ih _ h
    rw [State.ring, hcount, ← State.ring, ring_onRing] at hmem
    obtain ⟨x, hx, -⟩ | ⟨hp, hne⟩ := mem_slotPut hmem
    · cases hx
    · exact ⟨hp, fun hq => (List.mem_cons.mp hq).elim (fun he => hne (by rw [he])) hl⟩

theorem noPending_dropUnposted (s : State) (r : Fin 8) : NoPending r (s.dropUnposted r) := by
  intro p hp hpending
  obtain ⟨hmem, hnot⟩ := mem_slots_foldl_drop _ (fun t (p : Nat × ResultSlot) =>
    t.bump (.trsRstreamCount (rsIx r ⟨p.2.stream % 16, by omega⟩) 2) F.trsRstreamCount_COUNT 1) (fun _ _ => rfl) s hp
  exact hnot (List.mem_filter.mpr ⟨hmem, by simp [hpending]⟩)

theorem noPending_endInvocation (s : State) (r : Fin 8) (i : Invocation) : NoPending r (s.endInvocation r i) := by
  have hdone : NoPending r (beforeDone s r i) := (noPending_dropUnposted _ r).stepEnds.onRing
  rw [endInvocation_eq_fire]
  unfold NoPending
  rw [(fired_fire (beforeDone s r i) r 4 i.slot 0).ring r]
  exact hdone

section
variable (s : State) (r : Fin 8)

/-- Whether a stream can claim a slot does not depend on what HELD shows. -/
theorem rsPick_setHeld (y : Fin 128) (n : Nat) (x : Fin 16) :
    (s.setFld (.trsRstreamStatus y) F.trsRstreamStatus_HELD n).rsPick r x = s.rsPick r x := by
  have hdesc : ∀ (z : Fin 128) (k : Fin 8), (s.setFld (.trsRstreamStatus y) F.trsRstreamStatus_HELD n).reg (.trsRstreamDesc z k) =
      s.reg (.trsRstreamDesc z k) := fun z k => reg_setFld_ne _ _ _ (addr_injective.ne (by simp))
  have hcyclic : (s.setFld (.trsRstreamStatus y) F.trsRstreamStatus_HELD n).rsCyclic r x = s.rsCyclic r x := by
    simp only [State.rsCyclic, State.rsFirst, State.rsSlots, hdesc]
    rfl
  have hlatest : ∀ z, (s.setFld (.trsRstreamStatus y) F.trsRstreamStatus_HELD n).rsKeepLatest z = s.rsKeepLatest z := fun z => by
    simp only [State.rsKeepLatest, State.rsFlags, hdesc]
  unfold State.rsPick
  rw [hcyclic, hlatest]
  rfl

end

/-- HELD of one stream shown. -/
def markStream (r : Fin 8) (s : State) (x : Fin 16) : State :=
  s.setFld (.trsRstreamStatus (rsIx r x)) F.trsRstreamStatus_HELD (bitNat (s.rsPick r x).isNone)

theorem markHeld_eq_foldl (s : State) (r : Fin 8) (slot : Nat) :
    s.markHeld r slot = (s.programStreams r slot).foldl (markStream r) s := rfl

theorem held_markStream (s : State) (r : Fin 8) (x : Fin 16) :
    (markStream r s x).fld (.trsRstreamStatus (rsIx r x)) F.trsRstreamStatus_HELD = bitNat (s.rsPick r x).isNone := by
  unfold markStream
  rw [fld_setFld _ _ _ _ ⟨by decide, by decide⟩]
  cases (s.rsPick r x).isNone <;> rfl

theorem rsIx_ne {r : Fin 8} {x y : Fin 16} (h : y ≠ x) : rsIx r y ≠ rsIx r x := by
  simp only [rsIx, ne_eq, Fin.mk.injEq]
  omega

/-- HELD of every stream of a list shows whether it lacks a slot. -/
theorem held_foldl_markStream {s : State} {r : Fin 8} {x : Fin 16} (l : List (Fin 16)) (t : State)
    (hpick : ∀ y, t.rsPick r y = s.rsPick r y)
    (h : x ∈ l ∨ t.fld (.trsRstreamStatus (rsIx r x)) F.trsRstreamStatus_HELD = bitNat (s.rsPick r x).isNone) :
    (l.foldl (markStream r) t).fld (.trsRstreamStatus (rsIx r x)) F.trsRstreamStatus_HELD = bitNat (s.rsPick r x).isNone := by
  induction l generalizing t with
  | nil => exact h.resolve_left List.not_mem_nil
  | cons y l ih =>
    refine ih (markStream r t y) (fun z => (rsPick_setHeld t r _ _ z).trans (hpick z)) ?_
    by_cases hy : y = x
    · subst hy
      exact .inr ((held_markStream t r y).trans (by rw [hpick]))
    · refine h.imp (fun hx => (List.mem_cons.mp hx).resolve_left (Ne.symm hy)) fun hx => ?_
      rw [← hx]
      exact fld_setFld_ne _ _ _ _ (addr_injective.ne (by simpa using rsIx_ne hy))

/-- Settles O25: the start by the state of the pending list and of the slots, and the end once all has ended. -/
theorem invocationsStartAndEnd : Obligations.InvocationsStartAndEnd := by
  unfold Obligations.InvocationsStartAndEnd
  intro s r i
  refine ⟨fun hready hclaim => ?_, fun hready hclaim => ?_, fun hcurrent hclock hended => ?_, fun hcurrent hended => ?_⟩
  · obtain ⟨hcurrent, hwaiting, -, hstarted, hothers⟩ := invocationStarted_startInvocation s r i
    refine ⟨_, by rw [exec_invocationStart hready, if_pos hclaim], hcurrent, hwaiting, fun c hc => ?_, hothers⟩
    obtain ⟨hflags, hpend, hqueue, hparams⟩ := hstarted c hc
    exact ⟨hflags, hpend, hqueue, hparams⟩
  · refine ⟨s.markHeld r i.slot, by rw [exec_invocationStart hready, hclaim]; rfl, foldl_same State.rings _ _,
      foldl_same State.cores _ _, foldl_same State.mwy _ _, fun x hx => ?_⟩
    rw [markHeld_eq_foldl]
    exact held_foldl_markStream _ s (fun _ => rfl) (.inl hx)
  · obtain ⟨hnone, -, hgather⟩ := invocationEnded_endInvocation s r i
    exact ⟨s.endInvocation r i, by rw [exec_invocationEnd, hcurrent, hclock, hended]; rfl, hnone, hgather,
      noPending_endInvocation s r i⟩
  · rw [exec_invocationEnd, hcurrent, hended, Bool.and_false]
    rfl

end Sys2Proof.Machine
end

section
/-! SUPPORT. Granted frequencies (R391, R394, R404, R417): what a ring reads after its frequency has been set, what such a change
leaves alone, and what a change of the frequencies of several rings gives each of them. -/

namespace Sys2Proof.Machine

/-- The registers that power control shows or reads, and that no report of an error and no trace changes. -/
def powerReg : Reg → Bool
  | .pwrPower | .pwrStatus | .pwrEvent | .pwrUpdateStatus | .pwrRingStatus _ | .ringManifestStatus _ | .ringResources _ => true
  | _ => false

theorem powerReg_of_report {q : Reg} (h : q.addr ∈ reportAddrs) : powerReg q = false := by
  simp only [reportAddrs, List.mem_append, List.mem_cons, List.mem_map, addr_injective.eq_iff, List.not_mem_nil, or_false] at h
  obtain (((rfl | rfl | rfl | rfl) | ⟨u, -, rfl⟩) | ⟨u, -, rfl⟩) | ⟨u, -, rfl⟩ := h
  all_goals rfl

theorem Traces.powerReg {c : Fin 16} {s t : State} (h : Traces c s t) {q : Reg} (hq : powerReg q = true) : t.reg q = s.reg q := by
  refine h.regs q (fun hr => ?_) (addr_injective.ne ?_) (addr_injective.ne ?_)
  · rw [powerReg_of_report hr] at hq
    cases hq
  · rintro rfl
    cases hq
  · rintro rfl
    cases hq

/-- Nothing differs but the frequencies of rings and what their traces change. -/
structure Retuned (s t : State) : Prop where
  power : t.power = s.power
  pins : t.pins = s.pins
  boot : t.boot = s.boot
  mwy : t.mwy = s.mwy
  core : ∀ c : Fin 16, t.core c = (s.core c).withTrace (t.core c)
  regs : ∀ q : Reg, powerReg q = true → (∀ r, q ≠ .pwrRingStatus r) → t.reg q = s.reg q
  limit : ∀ r : Fin 8, t.fld (.pwrRingStatus r) F.pwrRingStatus_LIMIT = s.fld (.pwrRingStatus r) F.pwrRingStatus_LIMIT

section
variable {s t u : State} {r q : Fin 8} {f : Nat}

theorem Retuned.refl (s : State) : Retuned s s := ⟨rfl, rfl, rfl, rfl, fun _ => rfl, fun _ _ _ => rfl, fun _ => rfl⟩

theorem Retuned.trans (h : Retuned s t) (g : Retuned t u) : Retuned s u := by
  refine ⟨g.power.trans h.power, g.pins.trans h.pins, g.boot.trans h.boot, g.mwy.trans h.mwy, fun c => ?_,
    fun q hq hne => (g.regs q hq hne).trans (h.regs q hq hne), fun r => (g.limit r).trans (h.limit r)⟩
  rw [g.core c, h.core c]
  rfl

theorem Retuned.traces {c : Fin 16} (h : Retuned s t) (g : Traces c t u) : Retuned s u := by
  have hrest := g.rest
  refine h.trans ⟨by rw [hrest], by rw [hrest], by rw [hrest], by rw [hrest], g.core, fun q hq _ => g.powerReg hq, fun r => ?_⟩
  rw [State.fld, State.fld, g.powerReg rfl]

theorem Retuned.fld (h : Retuned s t) {q : Reg} (hq : powerReg q = true) (hne : ∀ r, q ≠ .pwrRingStatus r) (f : Fld) :
    t.fld q f = s.fld q f := by
  rw [State.fld, State.fld, h.regs q hq hne]

theorem ringClocked_congr (hreg : t.reg (.ringManifestStatus r) = s.reg (.ringManifestStatus r))
    (htrip : t.power.tripped = s.power.tripped) : t.ringClocked r = s.ringClocked r := by
  simp only [State.ringClocked, State.ringLive, State.ringState, hreg, htrip]

theorem Retuned.ringClocked (h : Retuned s t) (r : Fin 8) : t.ringClocked r = s.ringClocked r :=
  ringClocked_congr (h.regs _ rfl (by simp)) (by rw [h.power])

theorem hardLimit_congr (hhot : t.power.hotLimit = s.power.hotLimit) (hlock : t.power.lockLimit = s.power.lockLimit) :
    t.hardLimit = s.hardLimit := by
  rw [State.hardLimit, State.hardLimit, hhot, hlock]

theorem Retuned.hardLimit (h : Retuned s t) : t.hardLimit = s.hardLimit := hardLimit_congr (by rw [h.power]) (by rw [h.power])

theorem hardLimit_le (s : State) : s.hardLimit ≤ 2300 := by
  unfold State.hardLimit
  split <;> omega

/-! ## The frequency of one ring -/

theorem freq_traces {c : Fin 16} (h : Traces c s t) (q : Fin 8) : t.freq q = s.freq q := by
  rw [State.freq, State.freq, State.fld, State.fld, h.powerReg rfl]

theorem freq_setFld_ne {g : Reg} {f : Fld} {n : Nat} (h : ∀ r, g ≠ .pwrRingStatus r) (q : Fin 8) :
    (s.setFld g f n).freq q = s.freq q := fld_setFld_ne _ _ _ _ (addr_injective.ne (h q))

/-- The other fields of a ring's status leave its frequency alone. -/
theorem freq_setFld_below {f : Fld} {n : Nat} (hf : f.ok) (hlow : f.hi < 20) (q : Fin 8) :
    (s.setFld (.pwrRingStatus r) f n).freq q = s.freq q := by
  by_cases hq : r = q
  · subst hq
    exact fld_setFld_other _ _ _ _ _ hf (by decide) (.inr hlow)
  · exact fld_setFld_ne _ _ _ _ (addr_injective.ne (by simpa using hq))

theorem retuned_setFreq (s : State) (r : Fin 8) (f : Nat) : Retuned s (s.setFreq r f) := by
  have hset : Retuned s (s.setFld (.pwrRingStatus r) F.pwrRingStatus_FREQ_MHZ f) := by
    refine ⟨rfl, rfl, rfl, rfl, fun _ => rfl, fun q _ hne => reg_setFld_ne _ _ _ (addr_injective.ne (Ne.symm (hne r))),
      fun q => ?_⟩
    by_cases hq : r = q
    · subst hq
      exact fld_setFld_other _ _ _ _ _ ⟨by decide, by decide⟩ (by decide) (by decide)
    · exact fld_setFld_ne _ _ _ _ (addr_injective.ne (by simpa using hq))
  unfold State.setFreq
  split
  · exact .refl s
  · exact foldl_keeps (fun _ _ h => h.traces (traces_trace _ _ _ _ _ _)) _ _ hset

/-- A ring has the frequency that it is given, and no other ring a new one. -/
theorem freq_setFreq (hf : f < 4096) (q : Fin 8) : (s.setFreq r f).freq q = if q = r then f else s.freq q := by
  have hset : (s.setFld (.pwrRingStatus r) F.pwrRingStatus_FREQ_MHZ f).freq q = if q = r then f else s.freq q := by
    split
    next hq =>
      subst hq
      exact (fld_setFld _ _ _ _ ⟨by decide, by decide⟩).trans (Nat.mod_eq_of_lt hf)
    next hq => exact fld_setFld_ne _ _ _ _ (addr_injective.ne (by simpa using Ne.symm hq))
  unfold State.setFreq
  split
  next hsame =>
    split
    next hq => rw [hq, hsame]
    next => rfl
  next =>
    exact foldl_keeps (P := fun t : State => t.freq q = if q = r then f else s.freq q)
      (fun t c h => (freq_traces (traces_trace _ _ _ _ _ _) q).trans h) _ _ hset

/-! ## The frequencies of several rings -/

/-- For the items of a list, a step gives the ring of its item a frequency and leaves the other rings theirs. -/
def TunesTo {α : Type} (s : State) (l : List α) (ring : α → Fin 8) (goal : α → Nat) (step : State → α → State) : Prop :=
  ∀ t, ∀ a ∈ l, Retuned s t → t.freq (ring a) = s.freq (ring a) →
    Retuned t (step t a) ∧ (step t a).freq (ring a) = goal a ∧ ∀ q, q ≠ ring a → (step t a).freq q = t.freq q

/-- Steps for different rings, one after the other: every ring has what its step gives it. -/
theorem foldl_tunes {α : Type} {ring : α → Fin 8} {goal : α → Nat} {step : State → α → State} {l : List α}
    (hstep : TunesTo s l ring goal step) (hl : (l.map ring).Nodup) :
    ∀ t, Retuned s t → (∀ a ∈ l, t.freq (ring a) = s.freq (ring a)) →
    Retuned s (l.foldl step t) ∧ (∀ a ∈ l, (l.foldl step t).freq (ring a) = goal a) ∧
      ∀ q, q ∉ l.map ring → (l.foldl step t).freq q = t.freq q := by
  induction l with
  | nil => exact fun t ht _ => ⟨ht, fun _ ha => absurd ha List.not_mem_nil, fun _ _ => rfl⟩
  | cons b l ih =>
    intro t ht hfreq
    obtain ⟨hb, hnodup⟩ := List.nodup_cons.mp hl
    have hne : ∀ a ∈ l, ring a ≠ ring b := fun a ha he => hb (he ▸ List.mem_map_of_mem ha)
    obtain ⟨hkept, hgoal, hothers⟩ := hstep t b (by simp) ht (hfreq b (by simp))
    obtain ⟨hall, hgoals, hrest⟩ := ih (fun t a ha => hstep t a (by simp [ha])) hnodup (step t b) (ht.trans hkept) fun a ha =>
      (hothers _ (hne a ha)).trans (hfreq a (by simp [ha]))
    refine ⟨hall, fun a ha => ?_, fun q hq => ?_⟩
    · rcases List.mem_cons.mp ha with rfl | ha
      · exact (hrest _ hb).trans hgoal
      · exact hgoals a ha
    · obtain ⟨hqb, hql⟩ := not_or.mp (mt List.mem_cons.mpr hq)
      exact (hrest q hql).trans (hothers q hqb)

/-- Every ring whose clocks run is limited (R389, R404). -/
theorem limitAll_tunes (s : State) : Retuned s s.limitAll ∧
    ∀ r, s.limitAll.freq r = if s.ringClocked r then min (s.freq r) s.hardLimit else s.freq r := by
  have hstep : TunesTo s s.runningRings id (fun r => min (s.freq r) s.hardLimit)
      (fun t r => if t.hardLimit < t.freq r then t.setFreq r t.hardLimit else t) := by
    intro t r _ ht hfreq
    rw [id] at hfreq
    simp only [ht.hardLimit, hfreq, id]
    split
    next hover =>
      have hle := hardLimit_le s
      refine ⟨retuned_setFreq t r _, ?_, fun q hq => ?_⟩
      · rw [freq_setFreq (by omega), if_pos rfl]
        omega
      · rw [freq_setFreq (by omega), if_neg hq]
    next hunder => exact ⟨.refl t, by omega, fun _ _ => rfl⟩
  have hrings : (s.runningRings.map id).Nodup := by
    rw [List.map_id]
    exact (List.nodup_finRange 8).filter _
  obtain ⟨hkept, hgoal, hrest⟩ := foldl_tunes hstep hrings s (.refl s) fun _ _ => rfl
  have hmem : ∀ r, r ∈ s.runningRings ↔ s.ringClocked r = true := fun r => by simp [State.runningRings]
  refine ⟨hkept, fun r => ?_⟩
  split
  next hrun => exact hgoal r ((hmem r).mpr hrun)
  next hrun => exact hrest r (by rwa [List.map_id, hmem])

end

end Sys2Proof.Machine
end

section
/-! SUPPORT. The thermal loop, the hint handler, the end of a settling, and the limiters of the hardware (R389, R394, R398, R400,
R401, R403, R404, R408). -/

namespace Sys2Proof.Machine

/-! ## The thermal loop -/

section
variable (s : State) (temps : Vector Int 32) (telemetry : Bool)

/-- A register field that shows a truth value. -/
theorem fld_setFld_bitNat (s : State) (g : Reg) (f : Fld) (hf : f.lo = f.hi) (hlt : f.hi < 32) (b : Bool) :
    (s.setFld g f (bitNat b)).fld g f = bitNat b := by
  rw [fld_setFld _ _ _ _ ⟨hf.le, hlt⟩, hf, Nat.add_sub_cancel_left]
  cases b <;> rfl

/-- One bit of a word. -/
theorem getLsbD_one_shiftLeft {w : Nat} (k r : Fin w) : ((1#w).shiftLeft r.val).getLsbD k.val = decide (k = r) := by
  rw [Bool.eq_iff_iff, BitVec.shiftLeft_eq, BitVec.getLsbD_shiftLeft, BitVec.getLsbD_one]
  simp only [Bool.and_eq_true, decide_eq_true_eq, Bool.not_eq_true', decide_eq_false_iff_not, Fin.ext_iff]
  omega

/-- The rail that is read answers or not; the others are as before (R408). -/
theorem deafAfter_getLsbD (k : Fin 8) :
    (s.deafAfter telemetry).getLsbD k.val = if k = s.power.rail then telemetry else s.power.deaf.getLsbD k.val := by
  unfold State.deafAfter
  cases telemetry with
  | true =>
    rw [if_pos rfl, BitVec.getLsbD_or, getLsbD_one_shiftLeft]
    split
    next h => simp [h]
    next h => simp [h]
  | false =>
    rw [if_neg (by simp), BitVec.getLsbD_and, BitVec.getLsbD_not, getLsbD_one_shiftLeft]
    split
    next h => simp [h]
    next h => simp [h]

/-- What the thermal loop shows. -/
def thermalShown (s : State) (temps : Vector Int 32) (telemetry : Bool) : State :=
  ((s.setFld .pwrTemp F.pwrTemp_SENSOR (hottest temps).1.val).setFld .pwrTemp F.pwrTemp_HOTTEST
    (BitVec.ofInt 16 (hottest temps).2).toNat).setFld .pwrStatus F.pwrStatus_TELEMETRY (bitNat (s.deafAfter telemetry != 0))

/-- What it keeps for the loops to come. -/
def thermalKept (s : State) (temps : Vector Int 32) (telemetry : Bool) : State :=
  { thermalShown s temps telemetry with power := { s.power with
      ceiling := nextCeiling s.tMax (hottest temps).2 s.power.ceiling, rail := s.power.rail + 1, deaf := s.deafAfter telemetry } }

/-- What stands beside the registers does not show in them. -/
theorem fld_withPower (s : State) (p : Power) (q : Reg) (f : Fld) : ({ s with power := p } : State).fld q f = s.fld q f := by
  rw [State.fld, State.fld, State.reg, State.reg]

theorem exec_thermalLoop (h : s.boothRuns = true) :
    exec (.thermalLoop temps telemetry) s = .next (thermalKept s temps telemetry) := by
  show execThermalLoop temps telemetry s = _
  rw [execThermalLoop, if_pos h]
  rfl

theorem thermalKept_fields :
    (thermalKept s temps telemetry).fld .pwrTemp F.pwrTemp_SENSOR = (hottest temps).1.val ∧
      (thermalKept s temps telemetry).fld .pwrTemp F.pwrTemp_HOTTEST = (BitVec.ofInt 16 (hottest temps).2).toNat ∧
      (thermalKept s temps telemetry).fld .pwrStatus F.pwrStatus_TELEMETRY = bitNat (s.deafAfter telemetry != 0) := by
  unfold thermalKept
  simp only [fld_withPower, thermalShown]
  refine ⟨?_, ?_, fld_setFld_bitNat _ _ _ rfl (by decide) _⟩
  · rw [fld_setFld_ne _ _ _ _ (addr_injective.ne (by simp)),
      fld_setFld_other _ _ _ _ _ ⟨by decide, by decide⟩ (by decide) (by decide), fld_setFld _ _ _ _ ⟨by decide, by decide⟩]
    exact Nat.mod_eq_of_lt (hottest temps).1.isLt
  · rw [fld_setFld_ne _ _ _ _ (addr_injective.ne (by simp)), fld_setFld _ _ _ _ ⟨by decide, by decide⟩]
    exact Nat.mod_eq_of_lt (BitVec.ofInt 16 (hottest temps).2).isLt

theorem thermalKept_keeps : KeepsRegs [.pwrTemp, .pwrStatus] s (thermalKept s temps telemetry) ∧
    SameCompute s (thermalKept s temps telemetry) := by
  have hshown : OnlyRegs [.pwrTemp, .pwrStatus] s (thermalShown s temps telemetry) :=
    (((OnlyRegs.refl _ s).setFld _ _ (by simp)).setFld _ _ (by simp)).setFld _ _ (by simp)
  obtain ⟨hrest, hregs⟩ := hshown
  unfold thermalKept
  generalize thermalShown s temps telemetry = t at *
  rw [hrest]
  exact ⟨fun q hq => hregs q hq, rfl, rfl, rfl, rfl⟩

end

/-! ## Hints -/

section
variable (s : State)

/-- The hints in force once those that have arrived are taken over, in the order in which they came. -/
def hintsAfter (l : List (Fin 8 × Fin 16 × Nat)) (v : Vector Nat 16) : Vector Nat 16 :=
  l.foldl (fun (v : Vector Nat 16) (h : Fin 8 × Fin 16 × Nat) => v.set h.2.1 h.2.2) v

theorem hintsAfter_unheard (l : List (Fin 8 × Fin 16 × Nat)) (v : Vector Nat 16) (c : Fin 16)
    (h : (l.all fun x => x.2.1 != c) = true) : (hintsAfter l v)[c] = v[c] := by
  induction l generalizing v with
  | nil => rfl
  | cons x l ih =>
    rw [List.all_cons, Bool.and_eq_true, bne_iff_ne] at h
    obtain ⟨hx, hl⟩ := h
    refine (ih _ hl).trans ?_
    simp only [Fin.getElem_fin]
    exact Vector.getElem_set_ne _ _ (fun he => hx (Fin.ext he))

/-- The hints taken over, before the voltage follows. -/
def hintsTaken (s : State) : State :=
  let s1 := { s with power := { s.power with hints := hintsAfter s.power.arrived s.power.hints, arrived := [] } }
  { s1 with power := { s1.power with droopD := s1.hintDroop } }

theorem handleHints_eq : s.handleHints = match (hintsTaken s).voltFor (hintsTaken s).freq with
    | some v => (hintsTaken s).raiseVolt v
    | none => hintsTaken s := rfl

/-- What asks for a voltage leaves alone: all but its register, V_req and whether it settles. -/
structure VoltAsked (s t : State) : Prop where
  rest : t = { s with regs := t.regs, power := { s.power with vReq := t.power.vReq, settling := t.power.settling } }
  regs : KeepsRegs [.pwrVcore] s t
  vReq : s.power.vReq ≤ t.power.vReq

theorem voltAsked_raiseVolt (v : Nat) : VoltAsked s (s.raiseVolt v) := by
  unfold State.raiseVolt
  split
  next h => exact ⟨rfl, keepsRegs_setReg s _ _, h.le⟩
  next h => exact ⟨rfl, fun _ _ => rfl, le_refl _⟩

theorem voltAsked_handleHints : VoltAsked (hintsTaken s) s.handleHints := by
  rw [handleHints_eq]
  split
  · exact voltAsked_raiseVolt _ _
  · exact ⟨rfl, fun _ _ => rfl, le_refl _⟩

theorem VoltAsked.hintDroop {s t : State} (h : VoltAsked s t) : t.hintDroop = s.hintDroop := by
  obtain ⟨hrest, hregs, -⟩ := h
  have hcores : t.cores = s.cores := by rw [hrest]
  have hhints : t.power.hints = s.power.hints := by rw [hrest]
  have htrip : t.power.tripped = s.power.tripped := by rw [hrest]
  have hclocked : t.ringClocked = s.ringClocked := funext fun r => ringClocked_congr (hregs _ (by simp)) htrip
  have hown : t.coresOf = s.coresOf := funext fun r => by
    simp only [State.coresOf, State.ringMask, hregs (.ringResources r) (by simp)]
  have hcore : t.core = s.core := funext fun c => by rw [State.core, State.core, hcores]
  rw [State.hintDroop, State.hintDroop, State.runningRings, State.runningRings, hclocked, hown, hcore, hhints]

theorem exec_hintHandler (h : s.boothRuns = true) (harrived : s.power.arrived ≠ []) :
    exec .hintHandler s = .next s.handleHints := by
  show execHintHandler s = _
  rw [execHintHandler, if_pos ⟨h, by simp [harrived]⟩]

/-- A core's announced class ended. -/
def hintEnded (s : State) (c : Fin 16) : State :=
  { s.onCore c fun k => { k with hint := none } with power := { s.power with hints := s.power.hints.set c 0 } }

theorem exec_hintPhaseEnd (c : Fin 16) : exec (.hintPhaseEnd c) s =
    .next (if (s.core c).hint.isNone then s else hintEnded s c) := rfl

theorem core_hintEnded (c : Fin 16) : ((hintEnded s c).core c).hint = none ∧ OnlyCore c s (hintEnded s c) := by
  have hcore : ∀ d, (hintEnded s c).core d = (s.onCore c fun k => { k with hint := none }).core d := fun _ => rfl
  refine ⟨by rw [hcore, core_onCore], fun d hd => ?_⟩
  rw [hcore, core_onCore_ne s _ (Ne.symm hd)]

end

/-! ## Frequencies that waited -/

/-- One ring raised to the frequency that waited for it. -/
def raiseWaiting (s : State) (r : Fin 8) : State :=
  let f := min s.power.raise[r] s.hardLimit
  if s.ringClocked r ∧ s.freq r < f then s.setFreq r f else s

theorem raiseWaiting_tunes (s : State) : TunesTo s (List.finRange 8) id
    (fun r => if s.ringClocked r then max (s.freq r) (min s.power.raise[r] s.hardLimit) else s.freq r) raiseWaiting := by
  intro t r _ ht hfreq
  have hle := hardLimit_le s
  rw [id] at hfreq
  simp only [raiseWaiting, ht.hardLimit, ht.power, ht.ringClocked, hfreq, id]
  split
  next hup =>
    obtain ⟨hclocked, hup⟩ := hup
    refine ⟨retuned_setFreq t r _, ?_, fun q hq => ?_⟩
    · rw [freq_setFreq (by omega), if_pos rfl, if_pos hclocked]
      omega
    · rw [freq_setFreq (by omega), if_neg hq]
  next hno =>
    refine ⟨.refl t, ?_, fun _ _ => rfl⟩
    rw [hfreq]
    split
    next hclocked =>
      have hat : ¬ s.freq r < min s.power.raise[r] s.hardLimit := fun h => hno ⟨hclocked, h⟩
      omega
    next => rfl

theorem exec_voltageSettled {s : State} (h : s.boothRuns = true) : exec .voltageSettled s =
    .next (let up := (List.finRange 8).foldl raiseWaiting s
      { up with power := { up.power with settling := false, raise := .replicate 8 0 } }) := by
  show execVoltageSettled s = _
  unfold execVoltageSettled
  dsimp only
  rw [if_pos h]
  rfl

theorem freq_raiseWaiting (s : State) (r : Fin 8) : ((List.finRange 8).foldl raiseWaiting s).freq r =
    if s.ringClocked r then max (s.freq r) (min s.power.raise[r] s.hardLimit) else s.freq r := by
  obtain ⟨-, hgoal, -⟩ := foldl_tunes (raiseWaiting_tunes s)
    (by rw [List.map_id]; exact List.nodup_finRange 8) s (.refl s) fun _ _ => rfl
  exact hgoal r (List.mem_finRange r)

/-! ## Limiters -/

section
variable (s : State)

theorem droopRecover_getLsbD (v : BitVec 16) (c d : Fin 16) :
    (v &&& ~~~((1#16).shiftLeft c.val)).getLsbD d.val = (v.getLsbD d.val && decide (d ≠ c)) := by
  rw [BitVec.getLsbD_and, BitVec.getLsbD_not, getLsbD_one_shiftLeft]
  simp

/-- A thermal emergency in force, before the rings are limited. -/
def emergencyShown (s : State) : State :=
  { s.setFld .pwrStatus F.pwrStatus_THERMAL_EMERGENCY 1 with power := { s.power with hotLimit := true, stable := 0 } }

theorem exec_thermalEmergency (sensor : Fin 32) (temp : Int) : exec (.thermalEmergency sensor temp) s =
    .next (if s.tMax ≤ temp then (emergencyShown s).limitAll else s) := rfl

theorem freq_emergencyShown (r : Fin 8) : (emergencyShown s).freq r = s.freq r :=
  freq_setFld_ne (g := .pwrStatus) (f := F.pwrStatus_THERMAL_EMERGENCY) (n := 1) (s := s) (by simp) r

theorem ringClocked_emergencyShown (r : Fin 8) : (emergencyShown s).ringClocked r = s.ringClocked r :=
  ringClocked_congr (reg_setFld_ne s _ _ (addr_injective.ne (by simp))) rfl

/-- A thermal trip shown and recorded, before the clocks stop. -/
def criticalRecorded (s : State) (sensor : Fin 32) (temp : Int) : State :=
  (s.setFld .pwrStatus F.pwrStatus_CRITICAL 1).record none false
    ⟨deviceTag, cauThermal, isBooth, 0, 0, [BitVec.ofNat 8 sensor.val, 0] ++ leBytes 2 (BitVec.ofInt 16 temp).toNat⟩

theorem exec_thermalCritical (sensor : Fin 32) (temp : Int) : exec (.thermalCritical sensor temp) s =
    .next (if s.tMax + 20 ≤ temp ∧ !s.power.tripped then (criticalRecorded s sensor temp).trip else s) := rfl

theorem faultSeq_log (source code arg0 arg1 : Nat) : (s.log source code arg0 arg1).faultSeq = s.faultSeq := by
  unfold State.log
  split <;> rfl

theorem faultSeq_storeDevice (f : FaultRec) : (s.storeRecord none f).faultSeq = s.faultSeq := by
  unfold State.storeRecord
  dsimp only
  split
  · rfl
  · exact faultSeq_log _ _ _ _ _

theorem faultSeq_logDevice (faulting : Bool) (i : FaultInfo) (seq : Word) :
    (s.logRecord none faulting i seq).faultSeq = s.faultSeq := by
  unfold State.logRecord
  dsimp only
  split
  · exact faultSeq_log _ _ _ _ _
  · split
    · exact faultSeq_log _ _ _ _ _
    · rfl

/-- A device record of no core takes one SEQ (R447). -/
theorem faultSeq_record_device (faulting : Bool) {i : FaultInfo} (h : i.island ≠ isCore) :
    (s.record none faulting i).faultSeq = s.faultSeq + 1 := by
  unfold State.record State.fileRecord
  dsimp only
  rw [if_neg h, faultSeq_logDevice]
  exact faultSeq_storeDevice _ _

end

theorem fld_trip (s : State) (q : Reg) (f : Fld) : s.trip.fld q f = s.fld q f := by
  have hregs : s.trip.regs = s.regs := rfl
  rw [State.fld, State.fld, State.reg, State.reg, hregs]

/-- The device tripped by a critical temperature. -/
theorem trip_criticalRecorded (s : State) (sensor : Fin 32) (temp : Int) :
    (criticalRecorded s sensor temp).trip.fld .pwrStatus F.pwrStatus_CRITICAL = 1 ∧
      (criticalRecorded s sensor temp).trip.faultSeq = s.faultSeq + 1 ∧ (criticalRecorded s sensor temp).trip.mwy = s.mwy := by
  have hisland : isBooth ≠ isCore := by decide
  have hrecord : Traces 0 (s.setFld .pwrStatus F.pwrStatus_CRITICAL 1) (criticalRecorded s sensor temp) :=
    Reports.traces 0 (reports_record hisland)
  have hseq : (criticalRecorded s sensor temp).faultSeq = s.faultSeq + 1 := faultSeq_record_device _ false hisland
  have hmwy : (criticalRecorded s sensor temp).mwy = s.mwy := hrecord.mwy
  have hstatus : (criticalRecorded s sensor temp).reg .pwrStatus = _ := hrecord.powerReg rfl
  generalize criticalRecorded s sensor temp = t at *
  refine ⟨?_, hseq, hmwy⟩
  rw [fld_trip, State.fld, hstatus]
  exact fld_setFld _ _ _ _ ⟨by decide, by decide⟩

theorem ringClocked_trip (s : State) (r : Fin 8) : s.trip.ringClocked r = false := Bool.and_false _

/-! ## Lockstep -/

section
variable (s : State)

/-- A mismatch counted, shown and recorded. -/
def lockstepShown (s : State) : State :=
  ((s.bump .pwrLockstepCount F.pwrLockstepCount_COUNT 1).setFld .pwrEvent F.pwrEvent_LOCKSTEP 1).record none false
    ⟨deviceTag, cauLockstep, isBooth, 0, 0, []⟩

/-- The booth halted after its `n`-th mismatch, before the rings are limited. -/
def lockstepHalted (s : State) (n : Nat) : State :=
  { s with power := { s.power with halted := true, lockLimit := true, mismatches := n }, pins := { s.pins with lockAlert := true } }

theorem exec_lockstepMismatch {within60s : Bool} {n : Nat} (h : s.boothRuns = true)
    (hn : n = if within60s then (lockstepShown s).power.mismatches + 1 else 1) : exec (.lockstepMismatch within60s) s =
      .next (if 3 ≤ n then (lockstepHalted (lockstepShown s) n).limitAll.emptyShadow.trip
        else (lockstepHalted (lockstepShown s) n).limitAll.emptyShadow) := by
  show execLockstepMismatch within60s s = _
  unfold execLockstepMismatch
  rw [h, hn]
  rfl

/-- What a mismatch shows changes of power control's registers only the event's and the count. -/
theorem lockstepShown_keeps : (lockstepShown s).power = s.power ∧ (lockstepShown s).pins = s.pins ∧
    ∀ q : Reg, powerReg q = true → q ≠ .pwrEvent → (lockstepShown s).reg q = s.reg q := by
  have hrecord : Traces 0 ((s.bump .pwrLockstepCount F.pwrLockstepCount_COUNT 1).setFld .pwrEvent F.pwrEvent_LOCKSTEP 1)
      (lockstepShown s) := Reports.traces 0 (reports_record (by decide))
  refine ⟨by rw [hrecord.rest]; rfl, by rw [hrecord.rest]; rfl, fun q hq hne => ?_⟩
  rw [hrecord.powerReg hq, reg_setFld_ne _ _ _ (addr_injective.ne (Ne.symm hne))]
  refine reg_setFld_ne _ _ _ (addr_injective.ne ?_)
  rintro rfl
  cases hq

theorem lockstepShown_event : (lockstepShown s).fld .pwrEvent F.pwrEvent_LOCKSTEP = 1 := by
  have hrecord : Traces 0 ((s.bump .pwrLockstepCount F.pwrLockstepCount_COUNT 1).setFld .pwrEvent F.pwrEvent_LOCKSTEP 1)
      (lockstepShown s) := Reports.traces 0 (reports_record (by decide))
  rw [State.fld, hrecord.powerReg rfl]
  exact fld_setFld _ _ _ _ ⟨by decide, by decide⟩

end

end Sys2Proof.Machine
end

section
/-! SUPPORT. What a power loop grants (R396, R397, R405, R406, R421): to each running ring at most once, within the highest enabled
point; and the voltage of the points where no device record counts. -/

namespace Sys2Proof.Machine

/-! ## Rings -/

/-- The division gives each of its rings one target at most. -/
theorem divideCap_rings (fuel a : Nat) (l : List Claim) (hl : (l.map Claim.ring).Nodup) :
    ((divideCap fuel a l).map Prod.fst).Nodup ∧ ∀ r ∈ (divideCap fuel a l).map Prod.fst, r ∈ l.map Claim.ring := by
  induction fuel generalizing a l with
  | zero => exact ⟨List.nodup_nil, fun _ h => absurd h List.not_mem_nil⟩
  | succ fuel ih =>
    unfold divideCap
    extract_lets total done targets
    have htargets : ∀ k : List Claim, (targets k).map Prod.fst = k.map Claim.ring := fun k => by
      simp only [targets, List.map_map, Function.comp_def]
    split
    · exact ⟨List.nodup_nil, fun _ h => absurd h List.not_mem_nil⟩
    · split
      · rw [htargets]
        exact ⟨hl, fun _ h => h⟩
      · have hsub : ∀ p : Claim → Bool, ((l.filter p).map Claim.ring).Sublist (l.map Claim.ring) := fun p =>
          List.filter_sublist.map _
        obtain ⟨hnodup, hmem⟩ := ih (a - done.foldl (fun n c => n + c.p) 0)
          (l.filter fun c => !decide (c.p * total ≤ a * c.w)) ((hsub _).nodup hl)
        rw [List.map_append, htargets, List.nodup_append']
        refine ⟨⟨(hsub _).nodup hl, hnodup, fun r hdone hrest => ?_⟩, fun r hr => ?_⟩
        · obtain ⟨c, hc, rfl⟩ := List.mem_map.mp hdone
          obtain ⟨d, hd, he⟩ := List.mem_map.mp (hmem _ hrest)
          obtain ⟨hcl, hcin⟩ := List.mem_filter.mp hc
          obtain ⟨hdl, hdout⟩ := List.mem_filter.mp hd
          obtain rfl := List.inj_on_of_nodup_map hl hdl hcl he
          simp only [hcin, Bool.not_true, Bool.false_eq_true] at hdout
        · rcases List.mem_append.mp hr with hr | hr
          · exact (hsub _).subset hr
          · exact (hsub _).subset (hmem r hr)

section
variable (s : State) (m : PowerSample)

theorem rings_claims : (s.claims m).map Claim.ring = s.runningRings.filter fun r => !s.fixedMode r := by
  simp only [State.claims, List.map_map, Function.comp_def, List.map_id']

theorem nodup_runningRings : s.runningRings.Nodup := (List.nodup_finRange 8).filter _

theorem mem_runningRings (r : Fin 8) : r ∈ s.runningRings ↔ s.ringClocked r = true := by simp [State.runningRings]

theorem targets_rings : ((s.targets m).map Prod.fst).Nodup ∧
    ∀ r ∈ (s.targets m).map Prod.fst, r ∈ s.runningRings.filter fun r => !s.fixedMode r := by
  have hmap : (s.targets m).map Prod.fst = (divideCap 8 (s.ringPower m).toNat (s.claims m)).map Prod.fst := by
    simp only [State.targets, List.map_map, Function.comp_def]
  rw [hmap, ← rings_claims s m]
  exact divideCap_rings _ _ _ (by rw [rings_claims]; exact (nodup_runningRings s).filter _)

theorem rings_grants : (s.grants m).map Grant.ring =
    (s.targets m).map Prod.fst ++ s.runningRings.filter s.fixedMode := by
  simp only [State.grants, State.grantShared, State.grantFixed, List.map_append, List.map_map, Function.comp_def, List.map_id']

/-- Every ring is granted a frequency once at most. -/
theorem nodup_rings_grants : ((s.grants m).map Grant.ring).Nodup := by
  obtain ⟨hnodup, hshared⟩ := targets_rings s m
  rw [rings_grants, List.nodup_append']
  refine ⟨hnodup, (nodup_runningRings s).filter _, fun r hr hfixed => ?_⟩
  have hmode := (List.mem_filter.mp (hshared r hr)).2
  rw [(List.mem_filter.mp hfixed).2] at hmode
  cases hmode

/-- Grants are for rings whose clocks run. -/
theorem ringClocked_of_grant {r : Fin 8} (h : r ∈ (s.grants m).map Grant.ring) : s.ringClocked r = true := by
  rw [rings_grants] at h
  rw [← mem_runningRings]
  rcases List.mem_append.mp h with h | h
  · exact (List.mem_filter.mp ((targets_rings s m).2 r h)).1
  · exact (List.mem_filter.mp h).1

/-! ## Frequencies and causes -/

theorem topMhz_le : s.topMhz ≤ if s.recordValid then 2300 else 1400 := min_le_right _ _

/-- No grant exceeds the highest enabled point, or 400 MHz. -/
theorem mhz_grant_le {g : Grant} (h : g ∈ s.grants m) : g.mhz ≤ max 400 s.topMhz := by
  rcases List.mem_append.mp h with h | h
  · obtain ⟨t, -, rfl⟩ := List.mem_map.mp h
    unfold State.grantShared
    dsimp only
    split <;> omega
  · obtain ⟨r, -, rfl⟩ := List.mem_map.mp h
    unfold State.grantFixed
    dsimp only
    omega

theorem mhz_grant_lt {g : Grant} (h : g ∈ s.grants m) : g.mhz < 4096 := by
  have hle := mhz_grant_le s m h
  have htop := topMhz_le s
  split at htop <;> omega

end

theorem foldl_lowest_le {b : Nat} (l : List (Nat × Nat)) (p : Nat × Nat) (hp : p.1 ≤ b) (hl : ∀ x ∈ l, x.1 ≤ b) :
    (l.foldl (fun (b : Nat × Nat) x => if x.2 < b.2 then x else b) p).1 ≤ b := by
  induction l generalizing p with
  | nil => exact hp
  | cons x l ih =>
    refine ih _ ?_ fun y hy => hl y (List.mem_cons_of_mem _ hy)
    dsimp only
    split
    · exact hl x List.mem_cons_self
    · exact hp

theorem lowestCause_le {b k : Nat} {l : List (Nat × Nat)} (hl : ∀ x ∈ l, x.1 ≤ b) (h : lowestCause l = some k) : k ≤ b := by
  cases l with
  | nil => cases h
  | cons p l =>
    obtain rfl := Option.some.inj h
    exact foldl_lowest_le l p (hl p List.mem_cons_self) fun x hx => hl x (List.mem_cons_of_mem _ hx)

section
variable (s : State) (m : PowerSample)

theorem cause_grantShared_le (negative : Bool) (t : Fin 8 × Nat × Nat × Bool) {k : Nat}
    (h : (s.grantShared m negative t).cause = some k) : k ≤ 5 := by
  unfold State.grantShared at h
  extract_lets r f top bound lp l1 l3 g kp limits at h
  have hkp : kp ≤ 5 := by
    unfold kp
    split
    · exact le_refl 5
    · split <;> omega
  have hlimits : ∀ x ∈ limits, x.1 ≤ 5 := by
    intro x hx
    unfold limits at hx
    simp only [List.mem_append, List.mem_cons, List.not_mem_nil, or_false] at hx
    rcases hx with (hx | rfl | rfl) | hx
    · split at hx
      · obtain rfl := List.mem_singleton.mp hx
        exact le_refl 5
      · cases hx
    · exact Nat.le_of_ble_eq_true rfl
    · exact Nat.le_of_ble_eq_true rfl
    · split at hx
      · cases hx
      · obtain rfl := List.mem_singleton.mp hx
        exact hkp
  dsimp only at h
  split at h
  · exact lowestCause_le hlimits h
  · cases h

theorem cause_grant_le {g : Grant} (h : g ∈ s.grants m) {k : Nat} (hk : g.cause = some k) : k ≤ 5 := by
  rcases List.mem_append.mp h with h | h
  · obtain ⟨t, -, rfl⟩ := List.mem_map.mp h
    exact cause_grantShared_le s m _ t hk
  · obtain ⟨r, -, rfl⟩ := List.mem_map.mp h
    cases hk

end

/-! ## Without a device record -/

section
variable {s : State}

theorem mhz_grant_le_of_no_record (h : s.recordValid = false) (m : PowerSample) {g : Grant} (hg : g ∈ s.grants m) :
    g.mhz ≤ 1400 := by
  have hle := mhz_grant_le s m hg
  have htop := topMhz_le s
  rw [h, if_neg (by simp)] at htop
  omega

/-- Between two points of one voltage that voltage is asked for. -/
theorem roundVolt_level {fa f fb : Nat} (hlo : fa ≤ f) (hhi : f ≤ fb) (hne : fa ≠ fb) :
    roundVolt (850000 * (fb - f) + 850000 * (f - fa)) (fb - fa) = 850000 := by
  have hdiv : (850000 * (fb - f) + 850000 * (f - fa) + 2500 * (fb - fa) - 1) / (2500 * (fb - fa)) = 340 :=
    Nat.div_eq_of_lt_le (by omega) (by omega)
  rw [roundVolt, ceilDiv, hdiv]

theorem voltAt_of_no_record (h : s.recordValid = false) (f : Nat) : s.voltAt f = 850000 := by
  have hpoint : ∀ k, s.pointV k = 850000 := fun k => by rw [State.pointV, h, if_neg (by simp)]
  unfold State.voltAt
  simp only [hpoint]
  split
  · rfl
  · split
    next a b ha hb =>
      have hlo := (List.mem_filter.mp (List.mem_of_getLast? ha)).2
      have hhi := (List.mem_filter.mp (List.mem_of_mem_head? hb)).2
      rw [decide_eq_true_eq] at hlo hhi
      split
      next => rfl
      next hne => exact roundVolt_level hlo hhi hne
    next => rfl
    next => rfl
    next => rfl

end

end Sys2Proof.Machine
end

section
/-! SUPPORT. The power loop (R394 to R398, R405 to R407): what it takes over and measures, what it counts against the rings that it
throttles, and the frequencies that it gives them. -/

namespace Sys2Proof.Machine

/-! ## What the steps after the judgement leave alone -/

/-- The measured power, the emergencies, the controls in force and the count of loops stand; cores change their traces alone. -/
structure Steered (s t : State) : Prop where
  ctrl : t.power.ctrl = s.power.ctrl
  loops : t.power.loops = s.power.loops
  mwy : t.mwy = s.mwy
  core : ∀ c : Fin 16, t.core c = (s.core c).withTrace (t.core c)
  shown : t.reg .pwrPower = s.reg .pwrPower
  status : t.reg .pwrStatus = s.reg .pwrStatus

section
variable {s t u : State}

theorem Steered.refl (s : State) : Steered s s := ⟨rfl, rfl, rfl, fun _ => rfl, rfl, rfl⟩

theorem Steered.trans (h : Steered s t) (g : Steered t u) : Steered s u := by
  refine ⟨g.ctrl.trans h.ctrl, g.loops.trans h.loops, g.mwy.trans h.mwy, fun c => ?_, g.shown.trans h.shown,
    g.status.trans h.status⟩
  rw [g.core c, h.core c]
  rfl

/-- What changes neither registers nor cores nor midway, nor of power control the controls and the count. -/
theorem Steered.same (h : Steered s t) (hctrl : u.power.ctrl = t.power.ctrl) (hloops : u.power.loops = t.power.loops)
    (hmwy : u.mwy = t.mwy) (hcores : u.cores = t.cores) (hregs : u.regs = t.regs) : Steered s u :=
  h.trans ⟨hctrl, hloops, hmwy, fun c => by rw [State.core, State.core, hcores]; rfl, by rw [State.reg, State.reg, hregs],
    by rw [State.reg, State.reg, hregs]⟩

theorem Steered.setFld {g : Reg} {f : Fld} {n : Nat} (h : Steered s t) (hpower : g ≠ .pwrPower) (hstatus : g ≠ .pwrStatus) :
    Steered s (t.setFld g f n) :=
  h.trans ⟨rfl, rfl, rfl, fun _ => rfl, reg_setFld_ne _ _ _ (addr_injective.ne hpower),
    reg_setFld_ne _ _ _ (addr_injective.ne hstatus)⟩

theorem Retuned.steered (h : Retuned s t) : Steered s t :=
  ⟨by rw [h.power], by rw [h.power], h.mwy, h.core, h.regs _ rfl (by simp), h.regs _ rfl (by simp)⟩

theorem Steered.requestVolt {v : Nat} (h : Steered s t) : Steered s (t.requestVolt v) :=
  (h.setFld (by simp) (by simp)).same (u := t.requestVolt v) rfl rfl rfl rfl rfl

end

/-! ## What is taken over and measured -/

section
variable (s : State) (m : PowerSample)

/-- PWR_RING_CTRL of every ring of a list taken over. -/
theorem foldl_takeCtrl (l : List (Fin 8)) (t : State) (ht : t.regs = s.regs) :
    l.foldl State.takeCtrl t = { t with power := { t.power with ctrl := (l.foldl State.takeCtrl t).power.ctrl } } ∧
      ∀ r : Fin 8, (l.foldl State.takeCtrl t).power.ctrl[r] = if r ∈ l then s.reg (.pwrRingCtrl r) else t.power.ctrl[r] := by
  induction l generalizing t with
  | nil => exact ⟨rfl, fun r => by simp⟩
  | cons q l ih =>
    obtain ⟨hrest, hctrl⟩ := ih (t.takeCtrl q) ht
    rw [List.foldl_cons]
    refine ⟨?_, fun r => ?_⟩
    · rw [hrest]
      rfl
    · rw [hctrl r]
      by_cases hr : r ∈ l
      · simp [hr]
      · have hreg : t.reg (.pwrRingCtrl q) = s.reg (.pwrRingCtrl q) := by rw [State.reg, State.reg, ht]
        simp only [hr, if_false, List.mem_cons, or_false, State.takeCtrl, Fin.getElem_fin, Vector.getElem_set, hreg]
        by_cases hq : r = q
        · subst hq
          simp
        · have hval : ¬ q.val = r.val := fun h => hq (Fin.ext h.symm)
          simp [hq, hval]

/-- The controls of every ring taken over. -/
def ctrlTaken (s : State) : State := (List.finRange 8).foldl State.takeCtrl s

theorem ctrlTaken_eq : ctrlTaken s = { s with power := { s.power with ctrl := (ctrlTaken s).power.ctrl } } :=
  (foldl_takeCtrl s (List.finRange 8) s rfl).1

theorem ctrl_ctrlTaken (r : Fin 8) : (ctrlTaken s).power.ctrl[r] = s.reg (.pwrRingCtrl r) := by
  refine ((foldl_takeCtrl s (List.finRange 8) s rfl).2 r).trans ?_
  rw [if_pos (List.mem_finRange r)]

/-- The registers that show what a loop measures. -/
def sampleRegs : List Reg := .pwrPower :: .pwrVcore :: (List.finRange 8).map .pwrRingStatus

/-- The totals and the voltage shown, before the power of each ring. -/
def totalsShown (s : State) (m : PowerSample) : State :=
  let s1 := (s.setFld .pwrPower F.pwrPower_TOTAL (min ((m.coreMw + m.otherMw) / 100) 65535)).setFld .pwrPower F.pwrPower_CORE
    (min (m.coreMw / 100) 65535)
  if m.avsFailed then s1 else s1.setFld .pwrVcore F.pwrVcore_MEASURED (min m.measuredMv 65535)

theorem showSample_eq_foldl : s.showSample m = (List.finRange 8).foldl (fun s r => s.setFld (.pwrRingStatus r)
    F.pwrRingStatus_POWER (if s.ringClocked r then min (m.ringMw[r] / 500) 255 else 0)) (totalsShown s m) := rfl

theorem onlyRegs_totalsShown : OnlyRegs [.pwrPower, .pwrVcore] s (totalsShown s m) := by
  have htotals : OnlyRegs [.pwrPower, .pwrVcore] s ((s.setFld .pwrPower F.pwrPower_TOTAL
      (min ((m.coreMw + m.otherMw) / 100) 65535)).setFld .pwrPower F.pwrPower_CORE (min (m.coreMw / 100) 65535)) :=
    ((OnlyRegs.refl _ s).setFld _ _ (by simp)).setFld _ _ (by simp)
  unfold totalsShown
  dsimp only
  split
  · exact htotals
  · exact htotals.setFld _ _ (by simp)

theorem onlyRegs_ringsShown : OnlyRegs ((List.finRange 8).map .pwrRingStatus) (totalsShown s m) (s.showSample m) :=
  foldl_keeps (P := OnlyRegs _ (totalsShown s m)) (fun _ r h => h.setFld _ _ (List.mem_map_of_mem (List.mem_finRange r))) _ _
    (.refl _ _)

theorem onlyRegs_showSample : OnlyRegs sampleRegs s (s.showSample m) :=
  ((onlyRegs_totalsShown s m).mono (by simp [sampleRegs])).trans
    ((onlyRegs_ringsShown s m).mono fun q hq => List.mem_cons_of_mem _ (List.mem_cons_of_mem _ hq))

theorem freq_showSample (q : Fin 8) : (s.showSample m).freq q = s.freq q := by
  have htotals : (totalsShown s m).freq q = s.freq q := by
    rw [State.freq, State.freq, State.fld, State.fld, (onlyRegs_totalsShown s m).2 _ (by simp)]
  rw [showSample_eq_foldl]
  exact foldl_keeps (P := fun t : State => t.freq q = s.freq q)
    (fun t r h => (freq_setFld_below ⟨by decide, by decide⟩ (by decide) q).trans h) _ _ htotals

theorem showSample_fields :
    (s.showSample m).fld .pwrPower F.pwrPower_TOTAL = min ((m.coreMw + m.otherMw) / 100) 65535 ∧
      (s.showSample m).fld .pwrPower F.pwrPower_CORE = min (m.coreMw / 100) 65535 ∧
      (m.avsFailed = false → (s.showSample m).fld .pwrVcore F.pwrVcore_MEASURED = min m.measuredMv 65535) := by
  have hrings : ∀ q : Reg, (∀ r, q ≠ .pwrRingStatus r) → ∀ f, (s.showSample m).fld q f = (totalsShown s m).fld q f :=
    fun q hq f => by
      rw [State.fld, State.fld, (onlyRegs_ringsShown s m).2 q fun h => ?_]
      obtain ⟨r, -, rfl⟩ := List.mem_map.mp h
      exact hq r rfl
  have hpower : ∀ f, (totalsShown s m).fld .pwrPower f = ((s.setFld .pwrPower F.pwrPower_TOTAL
      (min ((m.coreMw + m.otherMw) / 100) 65535)).setFld .pwrPower F.pwrPower_CORE (min (m.coreMw / 100) 65535)).fld .pwrPower f :=
    fun f => by
      unfold totalsShown
      dsimp only
      split
      · rfl
      · exact fld_setFld_ne _ _ _ _ (addr_injective.ne (by simp))
  refine ⟨?_, ?_, fun havs => ?_⟩
  · rw [hrings _ (by simp), hpower, fld_setFld_other _ _ _ _ _ ⟨by decide, by decide⟩ (by decide) (by decide),
      fld_setFld _ _ _ _ ⟨by decide, by decide⟩]
    exact Nat.mod_eq_of_lt (show _ < 65536 by omega)
  · rw [hrings _ (by simp), hpower, fld_setFld _ _ _ _ ⟨by decide, by decide⟩]
    exact Nat.mod_eq_of_lt (show _ < 65536 by omega)
  · rw [hrings _ (by simp)]
    unfold totalsShown
    dsimp only
    rw [havs, if_neg (by simp), fld_setFld _ _ _ _ ⟨by decide, by decide⟩]
    exact Nat.mod_eq_of_lt (show _ < 65536 by omega)

/-! ## The judgement -/

/-- A supply emergency of the period (R405). -/
def supplyBad (s : State) (m : PowerSample) : Bool :=
  m.railFault || m.avsFailed || decide (1000 * s.fld .pwrVcore F.pwrVcore_MEASURED + 50000 < s.power.vReq)

/-- The emergencies of the period shown. -/
def emergenciesShown (s : State) (m : PowerSample) : State :=
  ((s.setFld .pwrStatus F.pwrStatus_THERMAL_EMERGENCY (bitNat s.power.hotLimit)).setFld .pwrStatus
    F.pwrStatus_DROOP_EMERGENCY (bitNat m.droopOver)).setFld .pwrStatus F.pwrStatus_SUPPLY_EMERGENCY (bitNat (supplyBad s m))

theorem regs_judgePeriod : (s.judgePeriod m).regs = (emergenciesShown s m).regs := by
  unfold State.judgePeriod emergenciesShown supplyBad
  rfl

theorem fld_judgePeriod (q : Reg) (f : Fld) : (s.judgePeriod m).fld q f = (emergenciesShown s m).fld q f := by
  rw [State.fld, State.fld, State.reg, State.reg, regs_judgePeriod]

theorem judgePeriod_fields : (s.judgePeriod m).fld .pwrStatus F.pwrStatus_THERMAL_EMERGENCY = bitNat s.power.hotLimit ∧
    (s.judgePeriod m).fld .pwrStatus F.pwrStatus_DROOP_EMERGENCY = bitNat m.droopOver ∧
    (s.judgePeriod m).fld .pwrStatus F.pwrStatus_SUPPLY_EMERGENCY = bitNat (supplyBad s m) := by
  simp only [fld_judgePeriod, emergenciesShown]
  refine ⟨?_, ?_, ?_⟩
  · rw [fld_setFld_other _ _ _ _ _ ⟨by decide, by decide⟩ (by decide) (by decide),
      fld_setFld_other _ _ _ _ _ ⟨by decide, by decide⟩ (by decide) (by decide), fld_setFld_bitNat _ _ _ rfl (by decide)]
  · rw [fld_setFld_other _ _ _ _ _ ⟨by decide, by decide⟩ (by decide) (by decide), fld_setFld_bitNat _ _ _ rfl (by decide)]
  · rw [fld_setFld_bitNat _ _ _ rfl (by decide)]

/-- The period judged, and the cap. -/
def periodJudged (s : State) (m : PowerSample) : State :=
  (s.judgePeriod m).setFld .pwrStatus F.pwrStatus_CAP_EXCEEDED (bitNat ((s.judgePeriod m).capExceeded m))

theorem periodJudged_regs {q : Reg} (h : q ≠ .pwrStatus) : (periodJudged s m).reg q = s.reg q := by
  have hset : ∀ (t : State) f n, (t.setFld .pwrStatus f n).reg q = t.reg q := fun t f n =>
    reg_setFld_ne _ _ _ (addr_injective.ne (Ne.symm h))
  rw [periodJudged, hset, State.reg, regs_judgePeriod, ← State.reg, emergenciesShown, hset, hset, hset]

theorem freq_periodJudged (q : Fin 8) : (periodJudged s m).freq q = s.freq q := by
  rw [State.freq, State.freq, State.fld, State.fld, periodJudged_regs s m (by simp)]

theorem periodJudged_fields : (periodJudged s m).fld .pwrStatus F.pwrStatus_THERMAL_EMERGENCY = bitNat s.power.hotLimit ∧
    (periodJudged s m).fld .pwrStatus F.pwrStatus_DROOP_EMERGENCY = bitNat m.droopOver ∧
    (periodJudged s m).fld .pwrStatus F.pwrStatus_SUPPLY_EMERGENCY = bitNat (supplyBad s m) ∧
    (periodJudged s m).fld .pwrStatus F.pwrStatus_CAP_EXCEEDED = bitNat ((s.judgePeriod m).capExceeded m) := by
  obtain ⟨hthermal, hdroop, hsupply⟩ := judgePeriod_fields s m
  unfold periodJudged
  exact ⟨(fld_setFld_other _ _ _ _ _ ⟨by decide, by decide⟩ (by decide) (by decide)).trans hthermal,
    (fld_setFld_other _ _ _ _ _ ⟨by decide, by decide⟩ (by decide) (by decide)).trans hdroop,
    (fld_setFld_other _ _ _ _ _ ⟨by decide, by decide⟩ (by decide) (by decide)).trans hsupply,
    fld_setFld_bitNat _ _ _ rfl (by decide) _⟩

end

/-! ## What is counted -/

/-- A throttled ring counted and shown. -/
def countGrant (s : State) (g : Grant) : State :=
  match g.cause with
  | none => s
  | some k =>
    (((s.bump (.pwrRingThrottleUs g.ring ⟨k % 6, by omega⟩) F.pwrRingThrottleUs_US 100).raiseBit .pwrThrottleCause
      F.pwrThrottleCause_SEEN k).raiseBit .pwrThrottleCause F.pwrThrottleCause_NOW k).setFld (.pwrRingStatus g.ring)
      F.pwrRingStatus_LIMIT (1 + k)

section
variable (s : State) (g : Grant)

theorem countGrant_keeps : Steered s (countGrant s g) ∧ ∀ q, (countGrant s g).freq q = s.freq q := by
  unfold countGrant
  split
  · exact ⟨.refl s, fun _ => rfl⟩
  · refine ⟨.setFld (.setFld (.setFld (.setFld (.refl s) (by simp) (by simp)) (by simp) (by simp)) (by simp) (by simp)) (by simp)
      (by simp), fun q => ?_⟩
    rw [freq_setFld_below ⟨by decide, by decide⟩ (by decide), State.raiseBit, freq_setFld_ne (by simp), State.raiseBit,
      freq_setFld_ne (by simp)]
    exact freq_setFld_ne (by simp) q

theorem limit_countGrant {k : Nat} (hk : g.cause = some k) (hle : k ≤ 5) :
    (countGrant s g).fld (.pwrRingStatus g.ring) F.pwrRingStatus_LIMIT = 1 + k := by
  unfold countGrant
  rw [hk]
  exact (fld_setFld _ _ _ _ ⟨by decide, by decide⟩).trans (Nat.mod_eq_of_lt (show 1 + k < 16 by omega))

theorem limit_countGrant_ne {r : Fin 8} (h : g.ring ≠ r) :
    (countGrant s g).fld (.pwrRingStatus r) F.pwrRingStatus_LIMIT = s.fld (.pwrRingStatus r) F.pwrRingStatus_LIMIT := by
  unfold countGrant
  split
  · rfl
  · rw [fld_setFld_ne _ _ _ _ (addr_injective.ne (by simpa using h)), State.raiseBit,
      fld_setFld_ne _ _ _ _ (addr_injective.ne (by simp)), State.raiseBit,
      fld_setFld_ne _ _ _ _ (addr_injective.ne (by simp))]
    exact fld_setFld_ne _ _ _ _ (addr_injective.ne (by simp))

end

/-- LIMIT of a ring that no grant of a list is for. -/
theorem limit_foldl_countGrant_ne {r : Fin 8} (l : List Grant) (s : State) (h : r ∉ l.map Grant.ring) :
    (l.foldl countGrant s).fld (.pwrRingStatus r) F.pwrRingStatus_LIMIT = s.fld (.pwrRingStatus r) F.pwrRingStatus_LIMIT := by
  induction l generalizing s with
  | nil => rfl
  | cons g l ih =>
    obtain ⟨hg, hl⟩ := not_or.mp (mt List.mem_cons.mpr h)
    exact (ih _ hl).trans (limit_countGrant_ne s g (Ne.symm hg))

/-- LIMIT of every ring shows what throttles it. -/
theorem limit_foldl_countGrant {l : List Grant} (hl : (l.map Grant.ring).Nodup) (s : State) {g : Grant} (hg : g ∈ l) {k : Nat}
    (hk : g.cause = some k) (hle : k ≤ 5) :
    (l.foldl countGrant s).fld (.pwrRingStatus g.ring) F.pwrRingStatus_LIMIT = 1 + k := by
  induction l generalizing s with
  | nil => cases hg
  | cons b l ih =>
    obtain ⟨hb, hnodup⟩ := List.nodup_cons.mp hl
    rcases List.mem_cons.mp hg with rfl | hg
    · exact (limit_foldl_countGrant_ne l _ hb).trans (limit_countGrant s g hk hle)
    · exact ih hnodup _ hg

theorem freq_withPower (s : State) (p : Power) (q : Fin 8) : ({ s with power := p } : State).freq q = s.freq q := by
  rw [State.freq, State.freq, fld_withPower]

/-- No limit shown. -/
def limitsCleared (s : State) : State :=
  (List.finRange 8).foldl (fun s r => s.setFld (.pwrRingStatus r) F.pwrRingStatus_LIMIT 0) s

theorem limitsCleared_keeps (s : State) : Steered s (limitsCleared s) ∧ ∀ q, (limitsCleared s).freq q = s.freq q := by
  refine foldl_keeps (P := fun t : State => Steered s t ∧ ∀ q, t.freq q = s.freq q) (fun t r h => ?_) _ _
    ⟨.refl s, fun _ => rfl⟩
  obtain ⟨hsteered, hfreq⟩ := h
  exact ⟨hsteered.setFld (by simp) (by simp), fun q =>
    (freq_setFld_below ⟨by decide, by decide⟩ (by decide) q).trans (hfreq q)⟩

/-- The start of a period: the throttling of the time since the last loop as its cause, no limit shown. -/
def countStart (s : State) : State :=
  { limitsCleared (s.setFld .pwrThrottleCause F.pwrThrottleCause_NOW (if s.power.slowed then 4 else 0)) with
    power := { s.power with slowed := false } }

theorem countThrottle_eq_foldl (s : State) (l : List Grant) : s.countThrottle l = l.foldl countGrant (countStart s) := by
  have hpower : (limitsCleared (s.setFld .pwrThrottleCause F.pwrThrottleCause_NOW (if s.power.slowed then 4 else 0))).power =
      s.power := foldl_same State.power _ _
  unfold countStart
  rw [← hpower]
  rfl

theorem countStart_keeps (s : State) : Steered s (countStart s) ∧ ∀ q, (countStart s).freq q = s.freq q := by
  have hpower : (limitsCleared (s.setFld .pwrThrottleCause F.pwrThrottleCause_NOW (if s.power.slowed then 4 else 0))).power =
      s.power := foldl_same State.power _ _
  have hcause : Steered s (s.setFld .pwrThrottleCause F.pwrThrottleCause_NOW (if s.power.slowed then 4 else 0)) :=
    (Steered.refl s).setFld (by simp) (by simp)
  obtain ⟨hcleared, hfreq⟩ :=
    limitsCleared_keeps (s.setFld .pwrThrottleCause F.pwrThrottleCause_NOW (if s.power.slowed then 4 else 0))
  have hsteered := hcause.trans hcleared
  unfold countStart
  generalize limitsCleared (s.setFld .pwrThrottleCause F.pwrThrottleCause_NOW (if s.power.slowed then 4 else 0)) = t at *
  refine ⟨hsteered.same (by rw [hpower]) (by rw [hpower]) rfl rfl rfl, fun q => ?_⟩
  rw [freq_withPower, hfreq, freq_setFld_ne (by simp)]

theorem countThrottle_keeps (s : State) (l : List Grant) :
    Steered s (s.countThrottle l) ∧ ∀ q, (s.countThrottle l).freq q = s.freq q := by
  rw [countThrottle_eq_foldl]
  refine foldl_keeps (P := fun t : State => Steered s t ∧ ∀ q, t.freq q = s.freq q) (fun t g h => ?_) l _ (countStart_keeps s)
  obtain ⟨hsteered, hfreq⟩ := h
  obtain ⟨hkept, hsame⟩ := countGrant_keeps t g
  exact ⟨hsteered.trans hkept, fun q => (hsame q).trans (hfreq q)⟩

/-! ## What is granted -/

/-- After grants have been applied every ring has what it is granted, at the latest once the voltage has settled, and a ring
that is granted nothing what it had. -/
structure GrantsApplied (l : List Grant) (s t : State) : Prop where
  steered : Steered s t
  limit : ∀ r : Fin 8, t.fld (.pwrRingStatus r) F.pwrRingStatus_LIMIT = s.fld (.pwrRingStatus r) F.pwrRingStatus_LIMIT
  granted : ∀ g ∈ l, t.freq g.ring = g.mhz ∨ s.freq g.ring ≤ g.mhz ∧ t.freq g.ring = s.freq g.ring
  others : ∀ q, q ∉ l.map Grant.ring → t.freq q = s.freq q

section
variable {l : List Grant} {s t u : State}

/-- What changes neither the ring's status nor what steering keeps. -/
theorem GrantsApplied.same (h : GrantsApplied l s t) (hsteered : Steered t u)
    (hstatus : ∀ r : Fin 8, u.reg (.pwrRingStatus r) = t.reg (.pwrRingStatus r)) : GrantsApplied l s u := by
  have hfreq : ∀ r, u.freq r = t.freq r := fun r => by rw [State.freq, State.freq, State.fld, State.fld, hstatus r]
  refine ⟨h.steered.trans hsteered, fun r => ?_, fun g hg => by rw [hfreq]; exact h.granted g hg,
    fun q hq => (hfreq q).trans (h.others q hq)⟩
  rw [State.fld, hstatus r]
  exact h.limit r

/-- Lower frequencies at once (R394). -/
def lowerFreqs (s : State) (l : List Grant) : State :=
  l.foldl (fun s g => if g.mhz < s.freq g.ring then s.setFreq g.ring g.mhz else s) s

theorem lowerFreqs_tunes (hl : (l.map Grant.ring).Nodup) (hlt : ∀ g ∈ l, g.mhz < 4096) (s : State) :
    Retuned s (lowerFreqs s l) ∧ (∀ g ∈ l, (lowerFreqs s l).freq g.ring = min g.mhz (s.freq g.ring)) ∧
      ∀ q, q ∉ l.map Grant.ring → (lowerFreqs s l).freq q = s.freq q := by
  have hstep : TunesTo s l Grant.ring (fun g => min g.mhz (s.freq g.ring))
      (fun t g => if g.mhz < t.freq g.ring then t.setFreq g.ring g.mhz else t) := by
    intro t g hg _ hfreq
    have hmhz := hlt g hg
    dsimp only
    rw [hfreq]
    split
    next hlower =>
      exact ⟨retuned_setFreq t _ _, by rw [freq_setFreq hmhz, if_pos rfl]; omega,
        fun q hq => by rw [freq_setFreq hmhz, if_neg hq]⟩
    next hhigher => exact ⟨.refl t, by omega, fun _ _ => rfl⟩
  exact foldl_tunes hstep hl s (.refl s) fun _ _ => rfl

/-- Every granted frequency at once (R394). -/
def setFreqs (s : State) (l : List Grant) : State := l.foldl (fun s g => s.setFreq g.ring g.mhz) s

theorem setFreqs_tunes (hl : (l.map Grant.ring).Nodup) (hlt : ∀ g ∈ l, g.mhz < 4096) (s : State) :
    Retuned s (setFreqs s l) ∧ (∀ g ∈ l, (setFreqs s l).freq g.ring = g.mhz) ∧
      ∀ q, q ∉ l.map Grant.ring → (setFreqs s l).freq q = s.freq q := by
  have hstep : TunesTo s l Grant.ring Grant.mhz (fun t g => t.setFreq g.ring g.mhz) := fun t g hg _ _ =>
    ⟨retuned_setFreq t _ _, by rw [freq_setFreq (hlt g hg), if_pos rfl],
      fun q hq => by rw [freq_setFreq (hlt g hg), if_neg hq]⟩
  exact foldl_tunes hstep hl s (.refl s) fun _ _ => rfl

theorem grantsApplied_lowerFreqs (hl : (l.map Grant.ring).Nodup) (hlt : ∀ g ∈ l, g.mhz < 4096) (s : State) :
    GrantsApplied l s (lowerFreqs s l) := by
  obtain ⟨hkept, hgoal, hothers⟩ := lowerFreqs_tunes hl hlt s
  refine ⟨hkept.steered, hkept.limit, fun g hg => ?_, hothers⟩
  have hfreq := hgoal g hg
  omega

/-- All the granted frequencies set leave every ring with what it is granted. -/
theorem GrantsApplied.setFreqs (hl : (l.map Grant.ring).Nodup) (hlt : ∀ g ∈ l, g.mhz < 4096) (h : GrantsApplied l s t) :
    GrantsApplied l s (setFreqs t l) := by
  obtain ⟨hkept, hgoal, hothers⟩ := setFreqs_tunes hl hlt t
  exact ⟨h.steered.trans hkept.steered, fun r => (hkept.limit r).trans (h.limit r), fun g hg => .inl (hgoal g hg),
    fun q hq => (hothers q hq).trans (h.others q hq)⟩

theorem reg_requestVolt (s : State) (v : Nat) {q : Reg} (hq : q ≠ .pwrVcore) : (s.requestVolt v).reg q = s.reg q :=
  keepsRegs_setReg s _ _ q (by simpa using hq)

/-- Grants applied (R394). -/
theorem grantsApplied_applyGrants (hl : (l.map Grant.ring).Nodup) (hlt : ∀ g ∈ l, g.mhz < 4096) (s : State) :
    GrantsApplied l s (s.applyGrants l) := by
  have hlower := grantsApplied_lowerFreqs hl hlt s
  have hasked : ∀ v, GrantsApplied l s ((lowerFreqs s l).requestVolt v) := fun v =>
    hlower.same (.requestVolt (.refl _)) fun r => reg_requestVolt _ _ (by simp)
  show GrantsApplied l s (match (lowerFreqs s l).voltFor fun r => grantOf l r ((lowerFreqs s l).freq r) with
    | none => _
    | some v => _)
  split
  · exact hlower.same (.same (.refl _) rfl rfl rfl rfl rfl) fun _ => rfl
  next v _ =>
    split
    · exact (hasked v).same (.same (.refl _) rfl rfl rfl rfl rfl) fun _ => rfl
    · exact ((hasked v).setFreqs hl hlt).same (.same (.refl _) rfl rfl rfl rfl rfl) fun _ => rfl

end

end Sys2Proof.Machine
end

section
/-! SUPPORT. One power loop as a whole (R394 to R397, R405 to R407), and the statement about power control. -/

namespace Sys2Proof.Machine

section
variable (s : State) (m : PowerSample)

/-- A loop's state once it has judged the period. -/
def loopJudged (s : State) (m : PowerSample) : State := periodJudged ((ctrlTaken s).showSample m) m

/-- A loop's state once its grants have been counted. -/
def loopCounted (s : State) (m : PowerSample) : State :=
  ((loopJudged s m).keepTargets ((loopJudged s m).targets m)).countThrottle ((loopJudged s m).grants m)

/-- A loop's state once its grants have been applied. -/
def loopGranted (s : State) (m : PowerSample) : State := (loopCounted s m).applyGrants ((loopJudged s m).grants m)

/-- The alert of a mismatch withdrawn, and one loop less after a cold start. -/
def loopQuiet (s : State) (m : PowerSample) : State :=
  { loopGranted s m with
    power := { (loopGranted s m).power with coldLoops := (loopGranted s m).power.coldLoops - 1 }
    pins := { (loopGranted s m).pins with lockAlert := false } }

theorem powerLoopNow_eq : s.powerLoopNow m =
    if (loopQuiet s m).updState = upSwitching ∧ (loopQuiet s m).emergency then (loopQuiet s m).setUpd upDeferred 0
    else loopQuiet s m := rfl

/-! ## From the state to the judgement -/

theorem showSample_rest : (s.showSample m).power = s.power ∧ (s.showSample m).cores = s.cores ∧ (s.showSample m).mwy = s.mwy := by
  rw [(onlyRegs_showSample s m).1]
  exact ⟨rfl, rfl, rfl⟩

theorem periodJudged_rest : (periodJudged s m).power.ctrl = s.power.ctrl ∧
    (periodJudged s m).power.loops = (s.power.loops + 1) % 2 ^ 32 ∧ (periodJudged s m).power.tripped = s.power.tripped ∧
    (periodJudged s m).cores = s.cores ∧ (periodJudged s m).mwy = s.mwy := ⟨rfl, rfl, rfl, rfl, rfl⟩

/-- What the judgement changes of cores, midway and power control. -/
structure Judged (s t : State) : Prop where
  ctrl : ∀ r : Fin 8, t.power.ctrl[r] = s.reg (.pwrRingCtrl r)
  loops : t.power.loops = (s.power.loops + 1) % 2 ^ 32
  cores : t.cores = s.cores
  mwy : t.mwy = s.mwy
  freq : ∀ r : Fin 8, t.freq r = s.freq r
  clocked : ∀ r : Fin 8, t.ringClocked r = s.ringClocked r

theorem judged_loopJudged : Judged s (loopJudged s m) := by
  have htaken := ctrlTaken_eq s
  have hpower : ((ctrlTaken s).showSample m).power = (ctrlTaken s).power := (showSample_rest _ m).1
  obtain ⟨hctrl, hloops, htripped, hcores, hmwy⟩ := periodJudged_rest ((ctrlTaken s).showSample m) m
  have htrip : (ctrlTaken s).power.tripped = s.power.tripped := by rw [htaken]
  have hreg : ∀ q, (ctrlTaken s).reg q = s.reg q := fun q => by rw [State.reg, State.reg, htaken]
  have hstatus : ∀ r : Fin 8, (loopJudged s m).reg (.ringManifestStatus r) = s.reg (.ringManifestStatus r) := fun r => by
    rw [loopJudged, periodJudged_regs _ m (by simp), (onlyRegs_showSample _ m).2 _ (by simp [sampleRegs]), hreg]
  refine ⟨fun r => ?_, ?_, ?_, ?_, fun r => ?_, fun r => ringClocked_congr (hstatus r) ?_⟩
  · simp only [loopJudged, hctrl, hpower]
    exact ctrl_ctrlTaken s r
  · rw [loopJudged, hloops, hpower, htaken]
  · rw [loopJudged, hcores, (showSample_rest _ m).2.1, htaken]
  · rw [loopJudged, hmwy, (showSample_rest _ m).2.2, htaken]
  · rw [loopJudged, freq_periodJudged, freq_showSample, htaken, freq_withPower]
  · rw [loopJudged, htripped, hpower, htrip]

/-- The voltage measured is judged as the sample gives it (R405). -/
theorem supplyBad_showSample : supplyBad ((ctrlTaken s).showSample m) m =
    (m.railFault || m.avsFailed || decide (1000 * min m.measuredMv 65535 + 50000 < s.power.vReq)) := by
  have hvReq : ((ctrlTaken s).showSample m).power.vReq = s.power.vReq := by
    rw [(showSample_rest _ m).1, ctrlTaken_eq]
  obtain ⟨-, -, hmeasured⟩ := showSample_fields (ctrlTaken s) m
  unfold supplyBad
  rw [hvReq]
  cases havs : m.avsFailed with
  | true => simp
  | false => rw [hmeasured havs]

theorem loopJudged_fields : (loopJudged s m).fld .pwrPower F.pwrPower_TOTAL = min ((m.coreMw + m.otherMw) / 100) 65535 ∧
    (loopJudged s m).fld .pwrPower F.pwrPower_CORE = min (m.coreMw / 100) 65535 ∧
    (loopJudged s m).fld .pwrStatus F.pwrStatus_THERMAL_EMERGENCY = bitNat s.power.hotLimit ∧
    (loopJudged s m).fld .pwrStatus F.pwrStatus_DROOP_EMERGENCY = bitNat m.droopOver ∧
    (loopJudged s m).fld .pwrStatus F.pwrStatus_SUPPLY_EMERGENCY =
      bitNat (m.railFault || m.avsFailed || decide (1000 * min m.measuredMv 65535 + 50000 < s.power.vReq)) ∧
    (loopJudged s m).fld .pwrStatus F.pwrStatus_CAP_EXCEEDED =
      bitNat ((((ctrlTaken s).showSample m).judgePeriod m).capExceeded m) := by
  obtain ⟨htotal, hcore, -⟩ := showSample_fields (ctrlTaken s) m
  obtain ⟨hthermal, hdroop, hsupply, hcap⟩ := periodJudged_fields ((ctrlTaken s).showSample m) m
  have hhot : ((ctrlTaken s).showSample m).power.hotLimit = s.power.hotLimit := by
    rw [(showSample_rest _ m).1, ctrlTaken_eq]
  refine ⟨?_, ?_, by rw [loopJudged, hthermal, hhot], hdroop, by rw [loopJudged, hsupply, supplyBad_showSample], hcap⟩
  · rw [State.fld, loopJudged, periodJudged_regs _ m (by simp)]
    exact htotal
  · rw [State.fld, loopJudged, periodJudged_regs _ m (by simp)]
    exact hcore

/-! ## From the judgement to the end -/

theorem keepTargets_keeps (s : State) (l : List (Fin 8 × Nat × Nat × Bool)) :
    Steered s (s.keepTargets l) ∧ ∀ q, (s.keepTargets l).freq q = s.freq q :=
  ⟨(Steered.refl s).same rfl rfl rfl rfl rfl, fun q => freq_withPower s _ q⟩

theorem loopCounted_keeps : Steered (loopJudged s m) (loopCounted s m) ∧
    ∀ q, (loopCounted s m).freq q = (loopJudged s m).freq q := by
  obtain ⟨hsteered, hfreq⟩ := countThrottle_keeps ((loopJudged s m).keepTargets ((loopJudged s m).targets m))
    ((loopJudged s m).grants m)
  obtain ⟨hkept, hsame⟩ := keepTargets_keeps (loopJudged s m) ((loopJudged s m).targets m)
  exact ⟨hkept.trans hsteered, fun q => (hfreq q).trans (hsame q)⟩

theorem limit_loopCounted {g : Grant} (hg : g ∈ (loopJudged s m).grants m) {k : Nat} (hk : g.cause = some k) :
    (loopCounted s m).fld (.pwrRingStatus g.ring) F.pwrRingStatus_LIMIT = 1 + k := by
  rw [loopCounted, countThrottle_eq_foldl]
  exact limit_foldl_countGrant (nodup_rings_grants _ m) _ hg hk (cause_grant_le _ m hg hk)

theorem grantsApplied_loopGranted : GrantsApplied ((loopJudged s m).grants m) (loopCounted s m) (loopGranted s m) :=
  grantsApplied_applyGrants (nodup_rings_grants _ m) (fun _ => mhz_grant_lt _ m) _

theorem powerLoopNow_last : Steered (loopGranted s m) (s.powerLoopNow m) ∧ (s.powerLoopNow m).pins.lockAlert = false ∧
    ∀ r : Fin 8, (s.powerLoopNow m).reg (.pwrRingStatus r) = (loopGranted s m).reg (.pwrRingStatus r) := by
  have hquiet : Steered (loopGranted s m) (loopQuiet s m) := (Steered.refl _).same rfl rfl rfl rfl rfl
  have hreg : ∀ r : Fin 8, (loopQuiet s m).reg (.pwrRingStatus r) = (loopGranted s m).reg (.pwrRingStatus r) := fun _ => rfl
  have halert : (loopQuiet s m).pins.lockAlert = false := rfl
  rw [powerLoopNow_eq]
  generalize loopQuiet s m = t at *
  split
  · refine ⟨(hquiet.setFld (by simp) (by simp)).setFld (by simp) (by simp), halert, fun r => ?_⟩
    rw [State.setUpd, reg_setFld_ne _ _ _ (addr_injective.ne (by simp)), reg_setFld_ne _ _ _ (addr_injective.ne (by simp))]
    exact hreg r
  · exact ⟨hquiet, halert, hreg⟩

/-- The judgement stands at the end of the loop, and every ring has what it is granted. -/
theorem powerLoopNow_applies : Steered (loopJudged s m) (s.powerLoopNow m) ∧
    GrantsApplied ((loopJudged s m).grants m) (loopCounted s m) (s.powerLoopNow m) := by
  obtain ⟨hlast, -, hstatus⟩ := powerLoopNow_last s m
  have happlied := (grantsApplied_loopGranted s m).same hlast hstatus
  exact ⟨(loopCounted_keeps s m).1.trans happlied.steered, happlied⟩

theorem exec_powerLoop (h : s.boothRuns = true) : exec (.powerLoop m) s = .next (s.powerLoopNow m) := by
  show execPowerLoop m s = _
  rw [execPowerLoop, if_pos h]

theorem Steered.fldPower {s t : State} (h : Steered s t) (f : Fld) : t.fld .pwrPower f = s.fld .pwrPower f := by
  rw [State.fld, State.fld, h.shown]

theorem Steered.fldStatus {s t : State} (h : Steered s t) (f : Fld) : t.fld .pwrStatus f = s.fld .pwrStatus f := by
  rw [State.fld, State.fld, h.status]

/-- The frequencies at the end of a loop, by its grants. -/
theorem freq_powerLoopNow :
    (∀ g ∈ (loopJudged s m).grants m, g.mhz < s.freq g.ring → (s.powerLoopNow m).freq g.ring = g.mhz) ∧
    (∀ g ∈ (loopJudged s m).grants m, s.freq g.ring ≤ g.mhz →
      (s.powerLoopNow m).freq g.ring = s.freq g.ring ∨ (s.powerLoopNow m).freq g.ring = g.mhz) ∧
    ∀ r : Fin 8, s.ringClocked r = false → (s.powerLoopNow m).freq r = s.freq r := by
  obtain ⟨-, happlied⟩ := powerLoopNow_applies s m
  have hjudged := judged_loopJudged s m
  have hfreq : ∀ q, (loopCounted s m).freq q = s.freq q := fun q => ((loopCounted_keeps s m).2 q).trans (hjudged.freq q)
  have hgranted : ∀ g ∈ (loopJudged s m).grants m, (s.powerLoopNow m).freq g.ring = g.mhz ∨
      s.freq g.ring ≤ g.mhz ∧ (s.powerLoopNow m).freq g.ring = s.freq g.ring := fun g hg => by
    have hg' := happlied.granted g hg
    rwa [hfreq] at hg'
  refine ⟨fun g hg hlower => ?_, fun g hg _ => ?_, fun r hr => ?_⟩
  · rcases hgranted g hg with h | ⟨h, -⟩
    · exact h
    · omega
  · rcases hgranted g hg with h | ⟨-, h⟩
    · exact .inr h
    · exact .inl h
  · refine (happlied.others r fun hmem => ?_).trans (hfreq r)
    rw [← hjudged.clocked r, ringClocked_of_grant _ m hmem] at hr
    cases hr

end

section
variable {s : State}

/-- Without a booth that runs, its tasks do nothing. -/
theorem exec_boothTask (h : s.boothRuns = false) (m : PowerSample) (temps : Vector Int 32) {c : Instr}
    (hc : c ∈ ([.powerLoop m, .thermalLoop temps true, .hintHandler, .voltageSettled, .boothSwitch true, .switchReadyTimeout,
      .updateLoadDone, .lockstepMismatch true] : List Instr)) (hswitch : s.updState ≠ upSwitching) : exec c s = .next s := by
  simp only [List.mem_cons, List.not_mem_nil, or_false] at hc
  rcases hc with rfl | rfl | rfl | rfl | rfl | rfl | rfl | rfl
  · show execPowerLoop m s = _
    simp [execPowerLoop, h]
  · show execThermalLoop temps true s = _
    simp [execThermalLoop, h]
  · show execHintHandler s = _
    simp [execHintHandler, h]
  · show execVoltageSettled s = _
    unfold execVoltageSettled
    dsimp only
    rw [if_neg (by simp [h])]
  · show execBoothSwitch true s = _
    have hdue : s.switchDue = false := by simp [State.switchDue, h]
    simp [execBoothSwitch, hdue, hswitch]
  · show execSwitchReadyTimeout s = _
    simp [execSwitchReadyTimeout, h]
  · show execUpdateLoadDone s = _
    simp [execUpdateLoadDone, h]
  · show execLockstepMismatch true s = _
    simp [execLockstepMismatch, h]

end

/-! ## What the hardware limits -/

theorem thermalEmergency_limits (s : State) : (emergencyShown s).limitAll.power.hotLimit = true ∧
    (emergencyShown s).limitAll.alert = (s.boot.phase != .deepStandby) ∧
    (emergencyShown s).limitAll.fld .pwrStatus F.pwrStatus_THERMAL_EMERGENCY = 1 ∧ (emergencyShown s).limitAll.mwy = s.mwy ∧
    ∀ r : Fin 8, (emergencyShown s).limitAll.freq r =
      if s.ringClocked r then min (s.freq r) (emergencyShown s).limitAll.hardLimit else s.freq r := by
  obtain ⟨hkept, hfreq⟩ := limitAll_tunes (emergencyShown s)
  have hhot : (emergencyShown s).limitAll.power.hotLimit = true := by rw [hkept.power]; rfl
  have hboot : (emergencyShown s).limitAll.boot = s.boot := hkept.boot
  refine ⟨hhot, ?_, ?_, hkept.mwy, fun r => ?_⟩
  · simp only [State.alert, hhot, hboot, Bool.or_true, Bool.true_or, Bool.and_true]
  · rw [hkept.fld rfl (by simp)]
    exact fld_setFld _ _ _ _ ⟨by decide, by decide⟩
  · rw [hfreq, freq_emergencyShown, ringClocked_emergencyShown, hkept.hardLimit]

/-- What a lockstep mismatch leaves: the booth halted, the rings limited, no image staged. -/
structure LockstepHalted (n : Nat) (s t : State) : Prop where
  halted : t.power.halted = true
  mismatches : t.power.mismatches = n
  alert : t.pins.lockAlert = true
  event : t.fld .pwrEvent F.pwrEvent_LOCKSTEP = 1
  shadow : t.power.shadow = []
  freq : ∀ r : Fin 8, s.ringClocked r = true → t.freq r = min (s.freq r) t.hardLimit
  limit : t.hardLimit ≤ 1000
  tripped : t.power.tripped = s.power.tripped
  safeState : t.pins.safeState = s.pins.safeState

theorem emptyShadow_rest (t : State) :
    t.emptyShadow.power = { t.power with shadow := [] } ∧ t.emptyShadow.pins = t.pins := ⟨rfl, rfl⟩

theorem fld_emptyShadow_ne (t : State) {q : Reg} (h : q ≠ .pwrUpdateStatus) (f : Fld) : t.emptyShadow.fld q f = t.fld q f := by
  have hreg : t.emptyShadow.reg q = t.reg q :=
    reg_setFld_ne t F.pwrUpdateStatus_STATE upEmpty (addr_injective.ne (Ne.symm h))
  rw [State.fld, State.fld, hreg]

theorem lockstepHalted_limits (s : State) (n : Nat) :
    LockstepHalted n s (lockstepHalted (lockstepShown s) n).limitAll.emptyShadow := by
  obtain ⟨hpower, hpins, hregs⟩ := lockstepShown_keeps s
  have hevent := lockstepShown_event s
  have hshown : ∀ r, (lockstepShown s).freq r = s.freq r := fun r => by
    rw [State.freq, State.freq, State.fld, State.fld, hregs _ rfl (by simp)]
  have hstatus : ∀ r : Fin 8, (lockstepShown s).reg (.ringManifestStatus r) = s.reg (.ringManifestStatus r) := fun r =>
    hregs _ rfl (by simp)
  generalize lockstepShown s = u at *
  obtain ⟨hkept, hfreq⟩ := limitAll_tunes (lockstepHalted u n)
  have hpowerKept : (lockstepHalted u n).limitAll.power =
      { s.power with halted := true, lockLimit := true, mismatches := n } := by
    rw [hkept.power, ← hpower]
    rfl
  have hpinsKept : (lockstepHalted u n).limitAll.pins = { s.pins with lockAlert := true } := by
    rw [hkept.pins, ← hpins]
    rfl
  have hkeptEvent : (lockstepHalted u n).limitAll.fld .pwrEvent F.pwrEvent_LOCKSTEP = 1 := by
    rw [hkept.fld rfl (by simp)]
    exact hevent
  have hclocked : ∀ r, (lockstepHalted u n).ringClocked r = s.ringClocked r := fun r =>
    ringClocked_congr (hstatus r) (by rw [← hpower]; rfl)
  have hfreqKept : ∀ r, s.ringClocked r = true →
      (lockstepHalted u n).limitAll.freq r = min (s.freq r) (lockstepHalted u n).limitAll.hardLimit := fun r hr => by
    rw [hfreq, if_pos ((hclocked r).trans hr), hkept.hardLimit]
    exact congrArg (fun f => min f _) (hshown r)
  generalize (lockstepHalted u n).limitAll = t at *
  obtain ⟨hpowerEmpty, hpinsEmpty⟩ := emptyShadow_rest t
  have hlimit : t.emptyShadow.hardLimit = t.hardLimit := hardLimit_congr (by rw [hpowerEmpty]) (by rw [hpowerEmpty])
  rw [hpowerKept] at hpowerEmpty
  rw [hpinsKept] at hpinsEmpty
  refine ⟨by rw [hpowerEmpty], by rw [hpowerEmpty], by rw [hpinsEmpty], (fld_emptyShadow_ne t (by simp) _).trans hkeptEvent,
    by rw [hpowerEmpty], fun r hr => ?_, ?_, by rw [hpowerEmpty], by rw [hpinsEmpty]⟩
  · rw [hlimit, ← hfreqKept r hr]
    exact fld_emptyShadow_ne t (by simp) _
  · rw [State.hardLimit, hpowerEmpty]
    exact (min_le_right _ _).trans (by simp)

/-- Settles O46: each task of the booth and each limiter, by the conditions under which it acts. -/
theorem powerFollowsItsLimits : Obligations.PowerFollowsItsLimits := by
  unfold Obligations.PowerFollowsItsLimits
  intro s m core sensor temp temps
  refine ⟨?_, ?_, ?_, ?_, ?_, ?_, ?_, ?_, ?_, ?_, ?_, ?_, ?_, ?_, ?_, ?_, ?_, ?_⟩
  · rintro s0 s1 s2 l hruns rfl rfl rfl rfl
    obtain ⟨htotal, hcore, hthermal, hdroop, hsupply, hcap⟩ := loopJudged_fields s m
    obtain ⟨hsteered, happlied⟩ := powerLoopNow_applies s m
    obtain ⟨hlower, hhigher, hstopped⟩ := freq_powerLoopNow s m
    have hjudged := judged_loopJudged s m
    have hcores : ∀ c, ((s.powerLoopNow m).core c).mem = (s.core c).mem ∧ ((s.powerLoopNow m).core c).opnd = (s.core c).opnd :=
      fun c => by
        rw [hsteered.core c, State.core, hjudged.cores]
        exact ⟨rfl, rfl⟩
    refine ⟨s.powerLoopNow m, exec_powerLoop s m hruns, (hsteered.fldPower _).trans htotal, (hsteered.fldPower _).trans hcore,
      (hsteered.fldStatus _).trans hthermal, (hsteered.fldStatus _).trans hdroop, (hsteered.fldStatus _).trans hsupply,
      (hsteered.fldStatus _).trans hcap, fun r => by rw [hsteered.ctrl]; exact hjudged.ctrl r, hsteered.loops.trans hjudged.loops,
      (powerLoopNow_last s m).2.1, hlower, hhigher, fun g hg k hk => ?_, hstopped, hsteered.mwy.trans hjudged.mwy, hcores⟩
    exact (happlied.limit g.ring).trans (limit_loopCounted s m hg hk)
  · exact fun hrecord => ⟨fun g hg => mhz_grant_le_of_no_record hrecord m hg, voltAt_of_no_record hrecord⟩
  · intro telemetry hruns
    obtain ⟨hsensor, hhottest, htelemetry⟩ := thermalKept_fields s temps telemetry
    obtain ⟨hregs, hother⟩ := thermalKept_keeps s temps telemetry
    exact ⟨thermalKept s temps telemetry, exec_thermalLoop s temps telemetry hruns, hsensor, hhottest, rfl,
      (deafAfter_getLsbD s telemetry _).trans (if_pos rfl), fun k hk => (deafAfter_getLsbD s telemetry k).trans (if_neg hk),
      htelemetry, rfl, hregs, hother⟩
  · intro hruns harrived
    have hasked := voltAsked_handleHints s
    obtain ⟨hrest, hregs, hvReq⟩ := voltAsked_handleHints s
    have hhints : s.handleHints.power.hints = hintsAfter s.power.arrived s.power.hints := by
      rw [hrest]
      rfl
    refine ⟨s.handleHints, exec_hintHandler s hruns harrived, by rw [hrest]; rfl, fun r c k hone => ?_, fun c hc => ?_, ?_,
      hvReq, hregs, ?_⟩
    · rw [hhints, hone]
      exact Vector.getElem_set_self _
    · rw [hhints]
      exact hintsAfter_unheard _ _ c hc
    · rw [hasked.hintDroop, hrest]
      rfl
    · rw [hrest]
      exact ⟨rfl, rfl, rfl, rfl⟩
  · intro hhint
    obtain ⟨hnone, hothers⟩ := core_hintEnded s core
    exact ⟨hintEnded s core, by rw [exec_hintPhaseEnd, if_neg (by simp [Option.isSome_iff_ne_none.mp hhint])], hnone,
      Vector.getElem_set_self _, rfl, hothers, rfl, rfl⟩
  · intro hhint
    rw [exec_hintPhaseEnd, hhint]
    rfl
  · intro hruns
    refine ⟨_, exec_voltageSettled hruns, rfl, fun r => ?_⟩
    dsimp only
    rw [freq_withPower]
    exact freq_raiseWaiting s r
  · exact fun hruns c hc hswitch => exec_boothTask hruns m temps hc hswitch
  · intro hclock
    show execDroopDetect core s = _
    rw [execDroopDetect, if_pos hclock]
  · refine ⟨_, rfl, ?_, fun d hd => ?_, rfl, rfl, rfl, rfl, rfl⟩
    · exact (droopRecover_getLsbD _ core core).trans (by simp)
    · exact (droopRecover_getLsbD _ core d).trans (by simp [hd])
  · rfl
  · rfl
  · intro htemp
    obtain ⟨hhot, halert, hshown, hmwy, hfreq⟩ := thermalEmergency_limits s
    exact ⟨_, by rw [exec_thermalEmergency, if_pos htemp], hhot, halert, hshown, hmwy, hfreq⟩
  · intro htemp
    rw [exec_thermalEmergency, if_neg (not_le.mpr htemp)]
  · intro hcool
    show execThermalRecover temps s = _
    rw [execThermalRecover, if_pos hcool]
  · intro hwarm
    show execThermalRecover temps s = _
    rw [execThermalRecover, if_neg (by simp only [hwarm, Bool.false_eq_true, not_false_eq_true])]
  · intro htemp htripped
    obtain ⟨hcritical, hseq, hmwy⟩ := trip_criticalRecorded s sensor temp
    exact ⟨(criticalRecorded s sensor temp).trip,
      by rw [exec_thermalCritical, if_pos ⟨htemp, by simp only [htripped, Bool.not_false]⟩], hcritical, rfl, rfl,
      ringClocked_trip _, hseq, hmwy⟩
  · intro within60s n hruns hn
    have hcount : n = if within60s then (lockstepShown s).power.mismatches + 1 else 1 := by
      rw [(lockstepShown_keeps s).1]
      exact hn
    obtain ⟨hhalted, hmismatches, halert, hevent, hshadow, hfreq, hlimit, htripped, hsafe⟩ := lockstepHalted_limits s n
    rw [exec_lockstepMismatch s hruns hcount]
    generalize (lockstepHalted (lockstepShown s) n).limitAll.emptyShadow = t at *
    by_cases hthree : 3 ≤ n
    · exact ⟨t.trip, by rw [if_pos hthree], hhalted, hmismatches, halert, hevent, hshadow, hfreq, hlimit,
        fun _ => ⟨rfl, rfl⟩, fun hfew => absurd hthree (by omega)⟩
    · exact ⟨t, by rw [if_neg hthree], hhalted, hmismatches, halert, hevent, hshadow, hfreq, hlimit,
        fun hmany => absurd hmany hthree, fun _ => ⟨htripped, hsafe⟩⟩

end Sys2Proof.Machine
end
